-- ==== Sys2Proof/Word.lean ====
section
/-! DEFINITION. The word of the register map (R6) and the shapes in which the register map of 18_register_map.md is
written down: a field's place, its access code (R7) and the rows of R405 and R409. -/

namespace Sys2Proof

/-- A register (R6): 32 bits. -/
abbrev Word := BitVec 32

/-- A byte of a frame, of the flash or of a port. -/
abbrev Byte := BitVec 8

namespace Machine

/-- The place of a register field: word address `base + stride * i` for instance `i`, bits `[lo + w - 1 : lo]`. -/
structure Fld where
  base : Nat
  stride : Nat
  lo : Nat
  w : Nat
  deriving DecidableEq, Repr

/-- The access codes of R7. -/
inductive Access where
  | ro | rw | rwt | rws | w1c | rc | wo | rsvd
  deriving DecidableEq, Repr

/-- One field row of a register table: its place, access code, the number of its Reset column (0 where the column
holds a word of R406), the range its chapter states (as unsigned field values), and whether the image's register
defaults supply it. -/
structure FieldRow where
  fld : Fld
  acc : Access
  reset : Nat
  mn : Nat
  mx : Nat
  image : Bool
  deriving DecidableEq, Repr

/-- One row of the register index: `count` instances `stride` apart, each of `words` consecutive words that share the
fields of the first. -/
structure RegRow where
  base : Nat
  stride : Nat
  count : Nat
  words : Nat
  fields : List FieldRow
  deriving DecidableEq, Repr

end Machine
end Sys2Proof
end

