-- ==== Sys2Proof/Syntax.lean ====
section
/-! DEFINITION. The block's commands: one constructor per row of spec/opcode_table.json, with the row's operands.  An
operand is what the outside (a host, a bus, a ball, an analogue quantity that a converter reads, an instant that a clock
reaches) brings to the step; everything else the step reads from the state. -/

namespace Sys2Proof

/-- A host port (R332, R344). -/
inductive Port where
  | twoWire | stream
  deriving DecidableEq, Repr

/-- A reader of a 64-bit counter (R93): each has its own snapshot registers. -/
inductive Reader where
  | twoWire | stream | service
  deriving DecidableEq, Repr

/-- One of a timer's two compares (R88). -/
inductive Cmp where
  | a | b
  deriving DecidableEq, Repr

/-- What a telemetry block belongs to (R188). -/
inductive TelUnit where
  | cluster (n : Fin 16)
  | phase (p : Fin 48)
  | feed (f : Fin 4)
  deriving DecidableEq, Repr

/-- What befalls one supervisor channel in an evaluation (R262 to R264): whether its frame arrives within the voting
window, and the bits of its frame that a disturbance turns over (action in the order CAP, SHED, CLOFF, SEQOFF, SAFE,
SYSFLT; target 0 to 68). -/
structure ChanInput where
  inTime : Bool
  flips : List (Fin 6 × Nat)
  deriving DecidableEq, Repr

/-- A ring frame as received, its TYPE apart (R367): PROT, SRC, DST, BCAST, SEQ and the payload. -/
structure RingFrame where
  prot : BitVec 2
  src : BitVec 6
  dst : BitVec 6
  bcast : Bool
  seq : BitVec 8
  pay : Vector (BitVec 8) 8
  deriving DecidableEq, Repr
/-- What the configuration flash answers at BOOT (R58, R65): its JEDEC ID, its density as log2(Mbit) - 7 (none: below 128
Mbit), and the 1-1-4 dummy clocks of its SFDP table (none: no usable read). -/
structure FlashId where
  jedec : BitVec 24
  dens : Option (BitVec 4)
  dummy : Option (BitVec 4)
  deriving DecidableEq, Repr

/-- What a BOOT finds outside the device (R38, R58, R67, R122): the flash (none: no response), the bytes that its last reads
returned other than as stored, how many reads were repeated, the voltages of ADR0 and ADR1 in mV, the lanes whose skew
is not below 20 ps, and the largest skew measured in ps. -/
structure BootInput where
  flash : Option FlashId
  noise : List (Nat × Byte)
  rereads : BitVec 8
  adr0 : BitVec 12
  adr1 : BitVec 12
  lanes : BitVec 48
  skew : BitVec 8
  deriving DecidableEq, Repr

/-- Where a scrub or an access finds an ECC error (R24, R324): a corrected one; or an uncorrectable one in a loop engine (whose
mirror slot may hold one too, with the missed updates and the gap in LOOP cycles), a supervisor channel, the service core, a
ring sample, the stream FIFO (the packet's PSEQ), a packet of snapshot staging, a frame of the state mirror, a record in recorder
staging, or the transaction shadows and the port and ring buffers. -/
inductive EccAt where
  | corrected
  | engine (n : Fin 17) (slotBad : Bool) (missed gap : BitVec 16)
  | channel (k : Fin 3)
  | service
  | ring (n : Fin 64) (i : BitVec 11)
  | fifo (pseq : BitVec 12)
  | snap (k : BitVec 9)
  | mirror (n : Fin 16) (b : Bool)
  | staging (k : BitVec 8)
  | buffer
  deriving DecidableEq, Repr

/-- A two-wire transaction that carries a PMBus command (R329 to R336): whether it reads; the bytes the host wrote after the
command byte, its PEC included; the bytes a read clocks. -/
structure Wire where
  read : Bool
  data : List Byte
  clocks : BitVec 8
  deriving DecidableEq, Repr

/-- The host part of a stream frame, its CMD apart (R344): ADDR, LEN, the DATA words of a write command, CRC, and whether CS#
ended it early. -/
structure StreamFrame where
  addr : BitVec 16
  len : BitVec 16
  data : List Word
  crc : BitVec 16
  early : Bool
  deriving DecidableEq, Repr

/-- A 64-bit counter read as two words (R93): the integrator of R130, a response accumulator of R147 (RESAI, RESAQ, RESBI,
RESBQ), a linked timer pair of R92, the energy of R193, the timestamp count of R310, the operating time of R403. -/
inductive Counter64 where
  | acc (n : Fin 16)
  | response (n : Fin 16) (k : Fin 4)
  | timer (k : Fin 16)
  | energy (f : Fin 4)
  | capture
  | operating
  deriving DecidableEq, Repr

/-- A min or max register of R189: of a cluster (TVMIN, TVMAX, TIMAX, TPMAX), a phase (TPK), or a feed (VMIN, VMAX, IMAX,
PMAX). -/
inductive MinMax where
  | cluster (n : Fin 16) (k : Fin 4)
  | phase (p : Fin 48)
  | feed (f : Fin 4) (k : Fin 4)
  deriving DecidableEq, Repr

/-- The commands of the block, in the order of spec/opcode_table.json. -/
inductive Instr where
  /-- POWER_UP, R44. -/
  | powerUp
  /-- VDDIO_MODE_LATCH, R39. -/
  | vddioModeLatch (v33 : Bool)
  /-- RESET_ASSERT, R45. -/
  | resetAssert
  /-- RESET_RELEASE, R45. -/
  | resetRelease
  /-- BOOT_COMPLETE, R65. -/
  | bootComplete (i : BootInput)
  /-- OVERLAY_MIGRATION_WRITE, R77. -/
  | overlayMigrationWrite
  /-- RELOAD, R78. -/
  | reload (p : Port) (confirm : BitVec 16)
  /-- RESTART, R31. -/
  | restart (p : Port) (confirm : BitVec 16)
  /-- DORMOUSE, R241. -/
  | dormouse (p : Port) (confirm : BitVec 16)
  /-- EN_CHANGE, R33, R211: the filtered level, and how many ms EN was low before it. -/
  | enChange (level : Bool) (lowMs : BitVec 16)
  /-- DIE_TEMP_READING, R19. -/
  | dieTempReading (tctl tsns : BitVec 16)
  /-- DIE_HOT_RESUME, R19. -/
  | dieHotResume
  /-- HEARTBEAT_LOSS, R18. -/
  | heartbeatLoss
  /-- SAFE_FEED_GATE_OFF, R276. -/
  | safeFeedGateOff
  /-- ECC_ERROR, R24. -/
  | eccError (e : EccAt)
  /-- SUPPLY_MEASURE, R49. -/
  | supplyMeasure (v5 vin : BitVec 16)
  /-- OWN_SUPPLY_LADDER_STAGE, R46. -/
  | ownSupplyLadderStage (k : Fin 5)
  /-- FORCED_L5, R47. -/
  | forcedL5
  /-- EXTEST, R56. -/
  | extest
  /-- IDCODE, R55. -/
  | idcode
  /-- SAMPLE_PRELOAD, R55. -/
  | samplePreload (cells : List (BitVec 3))
  /-- CLAMP, R56. -/
  | clamp
  /-- HIGHZ, R56. -/
  | highz
  /-- DEBUG, R70. -/
  | debug (k : BitVec 4)
  /-- BYPASS, R55. -/
  | bypass (code : BitVec 8)
  /-- SYNC_EDGE, R81: high time, low time and time since the edge accepted before it in ns, the measured frequency against SYNC_NOM in 0.1 ppm. -/
  | syncEdge (hi lo gap : BitVec 32) (ppm : Int)
  /-- SYNC_MISSING_PERIOD, R81. -/
  | syncMissingPeriod
  /-- SYNC_ALIGNED, R82. -/
  | syncAligned
  /-- XIN_LOSS, R83. -/
  | xinLoss
  /-- CLOCK_MONITOR_WINDOW, R84. -/
  | clockMonitorWindow (count : BitVec 16)
  /-- TIMER_MATCH, R96. -/
  | timerMatch (n : Fin 32) (c : Cmp)
  /-- TIMER_CTRL_WRITE, R88. -/
  | timerCtrlWrite (p : Port) (n : Fin 32) (v : Word)
  /-- TIMER_RELEASE, R88. -/
  | timerRelease (p : Port) (n : Fin 32)
  /-- TIMER_CNT_WRITE, R87. -/
  | timerCntWrite (p : Port) (n : Fin 32) (v : Word)
  /-- TIMER_COMPARE_WRITE, R90. -/
  | timerCompareWrite (p : Port) (n : Fin 32) (c : Cmp) (v : Word)
  /-- TIMER_ACT_WRITE, R96. -/
  | timerActWrite (p : Port) (n : Fin 32) (v : Word)
  /-- TM_GSTART, R89. -/
  | tmGstart (p : Port) (mask : Word)
  /-- TM_GSTOP, R89. -/
  | tmGstop (p : Port) (mask : Word)
  /-- TM_GCLR, R89. -/
  | tmGclr (p : Port) (mask : Word)
  /-- LINKED_LOW_READ, R93. -/
  | linkedLowRead (r : Reader) (c : Counter64)
  /-- FRAME_START, R100. -/
  | frameStart (n : Fin 16)
  /-- ON_EDGE, R103, R104: MINOFF has elapsed. -/
  | onEdge (p : Fin 48) (minOff : Bool)
  /-- BLANKING_END, R113. -/
  | blankingEnd (p : Fin 48) (crossing : Bool)
  /-- PEAK_TRIP, R111. -/
  | peakTrip (p : Fin 48)
  /-- MAXON_END, R102. -/
  | maxonEnd (p : Fin 48)
  /-- PHASE_SAMPLE, R110. -/
  | phaseSample (p : Fin 48) (code : BitVec 12)
  /-- AVERAGE_CEILING_EXCEEDED, R114. -/
  | averageCeilingExceeded (p : Fin 48)
  /-- FOX_TRIP, R116, R117: the trips within the last 1 ms, this one included. -/
  | foxTrip (p : Fin 48) (recent : BitVec 4)
  /-- FOX_HOLD_END, R117. -/
  | foxHoldEnd (p : Fin 48)
  /-- DELAY_LINE_CALIBRATION, R101: the lines outside 1 tap. -/
  | delayLineCalibration (bad : BitVec 48)
  /-- PRESTART_CHECK_FAIL, R119, R120: the phase whose mean current stands out, the highest output in mV, VBUS in mV, the time from window start in us. -/
  | prestartCheckFail (n : Fin 16) (mean : Option (Fin 48)) (vmax : BitVec 16) (vbus : BitVec 20) (us : BitVec 32)
  /-- PRESTART_CHECK_PASS, R118. -/
  | prestartCheckPass (n : Fin 16) (vmax : BitVec 16)
  /-- SOFT_START_BEGIN, R138: the output in set-point codes. -/
  | softStartBegin (n : Fin 16) (out : BitVec 16)
  /-- LOOP_UPDATE, R125: the latest fine codes and the latest coarse code. -/
  | loopUpdate (n : Fin 16) (fine : List (BitVec 12)) (coarse : BitVec 10)
  /-- VSET_WRITE, R134, R135. -/
  | vsetWrite (p : Port) (n : Fin 16) (v : BitVec 16)
  /-- LEAD_WARNING_PULSE, R141: the width in LOOP cycles. -/
  | leadWarningPulse (pin : Fin 4) (w : BitVec 16)
  /-- LEAD_SUSPEND_CLEAR, R144. -/
  | leadSuspendClear (p : Port) (n : Fin 16)
  /-- INJECTION_ENABLE, R148: the word written to CLn_INJ. -/
  | injectionEnable (p : Port) (n : Fin 16) (v : Word)
  /-- BALANCE_STEP, R155. -/
  | balanceStep (n : Fin 16)
  /-- OVERLOAD_COMPARE, R159. -/
  | overloadCompare (n : Fin 16)
  /-- OVERLOAD_TIMEOUT, R159. -/
  | overloadTimeout (n : Fin 16)
  /-- PHASE_MONITOR_FRAME, R160, R161: by ORDER position, the phases that met both conditions of R160, those that ended at the maximum on-time, those that ended by their comparator. -/
  | phaseMonitorFrame (n : Fin 16) (opened atMax byCmp : BitVec 16)
  /-- LOOP_ENGINE_FAILURE, R166, R167: the cause counted from 0, an uncorrectable error in the mirror slot, the missed updates, the gap in LOOP cycles. -/
  | loopEngineFailure (n : Fin 16) (cause : Fin 5) (slotBad : Bool) (missed gap : BitVec 16)
  /-- PRECISION_WINDOW, R173: the results of PC0 to PC3, the HV converters' mean codes (VBA, VBB, VHLD, VBUS, VIB0, VIB1). -/
  | precisionWindow (i : Vector (BitVec 24) 4) (v : Vector Rat 6)
  /-- PRECISION_SLOT_RESULT, R174 to R178: the codes of PC4 to PC7, the fast path's means over the conversion, which conversions qualify, the bandgap to zener ratio. -/
  | precisionSlotResult (slot : Fin 6) (r : Vector (BitVec 24) 4) (fast : Vector Rat 4) (clean : BitVec 4) (ref : Rat)
  /-- PREC_SNAP_READ, R175. -/
  | precSnapRead (p : Port) (k : Fin 8)
  /-- TRIM_TARGET_UPDATE, R178. -/
  | trimTargetUpdate
  /-- ZERO_LEARN_WINDOW, R180: the window's mean of code - 512; a Fox hold overlaps it. -/
  | zeroLearnWindow (p : Fin 48) (mean : Rat) (fox : Bool)
  /-- RATIO_STEP_START, R182, R195: u within RSTOL and no PKLIM for 10 ms; a repeat is 100 ms late. -/
  | ratioStepStart (n : Fin 16) (steady late : Bool)
  /-- RATIO_STEP_COMPLETE, R183: its means. -/
  | ratioStepComplete (n : Fin 16) (a b0 u0 b1 u1 : Rat)
  /-- ENERGY_BALANCE_POINT, R185: source (16 the feed bus), its input power, the ISX power, the clusters' powers and currents. -/
  | energyBalancePoint (src : Fin 17) (ps px : Rat) (pc ic : Vector Rat 16)
  /-- CALIBRATION_SAVE, R186. -/
  | calibrationSave
  /-- TELEMETRY_BLOCK, R188. -/
  | telemetryBlock (u : TelUnit)
  /-- MINMAX_READ, R189. -/
  | minmaxRead (p : Port) (m : MinMax)
  /-- ENERGY_CLEAR, R193. -/
  | energyClear (p : Port) (f : Fin 4)
  /-- AUTO_ZERO_START, R193. -/
  | autoZeroStart (f : Fin 3)
  /-- AUTO_ZERO_COMPLETE, R193. -/
  | autoZeroComplete (f : Fin 3)
  /-- SEAT_QUALIFIED, R199. -/
  | seatQualified
  /-- SEAT_LOSS, R199, R213: what the two balls read. -/
  | seatLoss (seat1 seat2 : Bool)
  /-- UNSEAT_TIMEOUT, R213. -/
  | unseatTimeout
  /-- INRUSH_COMPLETE, R201. -/
  | inrushComplete (f : Fin 3)
  /-- VBUS_QUALIFIED, R201. -/
  | vbusQualified
  /-- INRUSH_TIMEOUT, R201, R210: shunt current in mA and VBUS in mV. -/
  | inrushTimeout (f : Fin 3) (amps : Int) (vbus : BitVec 20)
  /-- FEED_QUALIFIED, R202. -/
  | feedQualified (f : Fin 3)
  /-- RETURN_DELAY_EXPIRY, R203. -/
  | returnDelayExpiry (f : Fin 3)
  /-- FEED_UV, R204. -/
  | feedUv (f : Fin 3)
  /-- FEED_OV, R204. -/
  | feedOv (f : Fin 3)
  /-- FEED_REV, R204. -/
  | feedRev (f : Fin 3)
  /-- TRANSFER_GATE_OFF, R205. -/
  | transferGateOff
  /-- TRANSFER_DEAD_TIME_END, R205. -/
  | transferDeadTimeEnd
  /-- TRANSFER_COMPLETE, R205: the gap in 10 ns. -/
  | transferComplete (gap : BitVec 16)
  /-- FEED_GATE, R206. -/
  | feedGate
  /-- GATE_CONFIRM_TIMEOUT, R206. -/
  | gateConfirmTimeout (amps : Int) (vbus : BitVec 20)
  /-- FAULT_TIMER_TRIP, R208. -/
  | faultTimerTrip (f : Fin 3) (amps : Int) (vbus : BitVec 20)
  /-- FEED_FOX, R209. -/
  | feedFox (f : Fin 3) (amps : Int) (vbus : BitVec 20)
  /-- TOGGLE, R211. -/
  | toggle (p : Port) (confirm : BitVec 16)
  /-- RETRY_TIMER_EXPIRY, R212. -/
  | retryTimerExpiry
  /-- RETRY_TIMER_SAVE, R212. -/
  | retryTimerSave
  /-- FEED_PIN_WRITE, R203. -/
  | feedPinWrite (p : Port) (pin : BitVec 2)
  /-- BUS_LADDER_ENTRY, R214: the stage, counted from 0. -/
  | busLadderEntry (k : Fin 5)
  /-- BUS_LADDER_RELEASE, R215. -/
  | busLadderRelease
  /-- FEED_LEAK, R218. -/
  | feedLeak
  /-- ESTIMATOR_STEP, R221, R225: the means of I and V, whether I held steady for 60 s, whether the monitor's data is fresh. -/
  | estimatorStep (i : Fin 6) (amps volts : Rat) (steady fresh : Bool)
  /-- BTH_READING, R222: the ball in 0.5 mV. -/
  | bthReading (i : Fin 6) (code : BitVec 12)
  /-- IMPEDANCE_STEP, R227. -/
  | impedanceStep (i : Fin 6) (di vpre v1ms : Rat) (v10ms : Option Rat)
  /-- BAT_REST_WRITE, R230. -/
  | batRestWrite (p : Port) (i : Fin 6) (on : Bool)
  /-- REST_COMPLETE, R230. -/
  | restComplete (i : Fin 6) (volts : Rat)
  /-- CONTACTOR_SETTLED, R231. -/
  | contactorSettled
  /-- PACK_UV_CUT, R235. -/
  | packUvCut (i : Fin 6)
  /-- UVCLR, R235. -/
  | uvclr (p : Port) (i : Fin 6)
  /-- SNAP, R239. -/
  | snap (p : Port) (i : Fin 6)
  /-- RESTORE, R240. -/
  | restore (p : Port) (i : Fin 6)
  /-- WAKE, R242. -/
  | wake (p : Port) (confirm : BitVec 16)
  /-- DORMOUSE_BUS_WAKE, R242. -/
  | dormouseBusWake
  /-- DMHOLD_CLEAR, R243. -/
  | dmholdClear
  /-- SEQ_STEP_COMPLETE, R247, R250, R251: a partial shutdown's step or the main program's, and what the comparators and PGIN read. -/
  | seqStepComplete (part : Bool) (inwin below : BitVec 16) (pgin : BitVec 8)
  /-- SEQ_STEP_TIMEOUT, R248. -/
  | seqStepTimeout (part : Bool)
  /-- FORCE, R248. -/
  | force (p : Port) (confirm : BitVec 16)
  /-- SFPULSE, R259. -/
  | sfpulse (p : Port) (confirm : BitVec 16)
  /-- CL_UV, R252. -/
  | clUv (n : Fin 16)
  /-- CL_OV, R252. -/
  | clOv (n : Fin 16)
  /-- CL_FOV, R252. -/
  | clFov (n : Fin 16)
  /-- WINDOW_BLANK_END, R253. -/
  | windowBlankEnd (n : Fin 16)
  /-- PWRGD_RETURN, R254. -/
  | pwrgdReturn
  /-- MIN_OFF_TIME_EXPIRY, R256. -/
  | minOffTimeExpiry
  /-- SOFT_START_SHORT, R258: the coarse output, 1.6 mV. -/
  | softStartShort (n : Fin 16) (out : BitVec 12)
  /-- HICCUP_RESTART, R258. -/
  | hiccupRestart (n : Fin 16)
  /-- SYSFLT_IN, R259. -/
  | sysfltIn
  /-- SYSFLT_HOLD_END, R259: another device holds the line low. -/
  | sysfltHoldEnd (low : Bool)
  /-- SYSFLT_STUCK, R259. -/
  | sysfltStuck
  /-- SUPERVISOR_EVALUATION, R262: what befalls each channel's frame. -/
  | supervisorEvaluation (a b c : ChanInput)
  /-- VOTE_WINDOW_CLOSE, R263. -/
  | voteWindowClose
  /-- VOTER_WATCHDOG, R266. -/
  | voterWatchdog
  /-- WIRE_FAULT, R267: the pair's number of the table of R267, and that it was free of the fault for 1 ms. -/
  | wireFault (pair : BitVec 10) (fresh : Bool)
  /-- ACK, R282. -/
  | ack (p : Port) (confirm : BitVec 16)
  /-- SAFE, R284. -/
  | safe (p : Port) (confirm : BitVec 16)
  /-- TSEN_READING, R287: the line in steps of 0.625 mV. -/
  | tsenReading (n : Fin 16) (code : BitVec 12)
  /-- TSEN_FAULT_LEVEL, R287. -/
  | tsenFaultLevel (n : Fin 16)
  /-- THERMAL_MODEL_STEP, R288, R289: per phase with a high interval in the step the means of current in A and duty and the number of high intervals; the means of VBUS, VIB0 and VIB1 in V. -/
  | thermalModelStep (obs : List (Fin 48 × Rat × Rat × Nat)) (vin : Vector Rat 3)
  /-- THERMAL_ANCHOR, R290. -/
  | thermalAnchor
  /-- TSDCLR, R293. -/
  | tsdclr (p : Port) (n : Fin 16) (confirm : BitVec 16)
  /-- TSD_AUTO_CLEAR, R293. -/
  | tsdAutoClear (n : Fin 16)
  /-- WOODPECKER_PAUSE_START, R296. -/
  | woodpeckerPauseStart (k : Fin 4)
  /-- WOODPECKER_PAUSE_END, R296. -/
  | woodpeckerPauseEnd (k : Fin 4)
  /-- POWER_ESTIMATE, R298. -/
  | powerEstimate
  /-- CAPPING_CONTROL_STEP, R298, R299: a region's controller, or the board's (4). -/
  | cappingControlStep (c : Fin 5)
  /-- CAPTURE_SAMPLE, R305 to R308: a native sample of the channel's source, as its converter reads it. -/
  | captureSample (n : Fin 64) (raw : BitVec 16)
  /-- CAPTURE_TRIGGER, R307: a write of CAP_TRIG0, or of CAP_TRIG1 (`hi`). -/
  | captureTrigger (p : Port) (hi : Bool) (mask : Word)
  /-- STREAM_REQUEST, R307: a write of CAP_SREQ0, or of CAP_SREQ1 (`hi`). -/
  | streamRequest (p : Port) (hi : Bool) (mask : Word)
  /-- LANE_TAKE_BLOCK, R309. -/
  | laneTakeBlock (l : Fin 4)
  /-- TAIL_TIMEOUT, R310. -/
  | tailTimeout (n : Fin 64)
  /-- RECORD_COMPLETE, R313. -/
  | recordComplete (l : Fin 4)
  /-- PACKET_WORD_WRITE, R317. -/
  | packetWordWrite
  /-- FIFO_READ, R317. -/
  | fifoRead (p : Port)
  /-- FLUSH, R319. -/
  | flush (p : Port)
  /-- MARK, R320. -/
  | mark (p : Port)
  /-- REWIND, R320. -/
  | rewind (p : Port)
  /-- RELEASE, R320. -/
  | release (p : Port)
  /-- CHANNEL_CONFIG_WRITE, R304: a write of CHn_CFG (`cfg`) or CHn_SRC. -/
  | channelConfigWrite (p : Port) (n : Fin 64) (cfg : Bool) (v : Word)
  /-- STREAM_ENABLE_WRITE, R304: a write of CAP_CFG. -/
  | streamEnableWrite (p : Port) (v : Word)
  /-- DIAG_READ, R322. -/
  | diagRead (p : Port)
  /-- TWO_WIRE_WAKE, R332. -/
  | twoWireWake
  /-- TWO_WIRE_SLEEP, R332. -/
  | twoWireSleep
  /-- SCL_TIMEOUT, R333. -/
  | sclTimeout
  /-- SDA_RELEASE, R333. -/
  | sdaRelease
  /-- PAGE, R335. -/
  | page (w : Wire)
  /-- OPERATION, R257. -/
  | operation (w : Wire)
  /-- CLEAR_FAULTS, R338. -/
  | clearFaults (w : Wire)
  /-- STORE_USER_ALL, R355. -/
  | storeUserAll (w : Wire)
  /-- CAPABILITY, R336. -/
  | capability (w : Wire)
  /-- VOUT_MODE, R192. -/
  | voutMode (w : Wire)
  /-- VOUT_COMMAND, R337. -/
  | voutCommand (w : Wire)
  /-- VOUT_TRANSITION_RATE, R337. -/
  | voutTransitionRate (w : Wire)
  /-- VOUT_OV_FAULT_LIMIT, R337. -/
  | voutOvFaultLimit (w : Wire)
  /-- VOUT_UV_FAULT_LIMIT, R337. -/
  | voutUvFaultLimit (w : Wire)
  /-- IOUT_OC_FAULT_LIMIT, R337. -/
  | ioutOcFaultLimit (w : Wire)
  /-- STATUS_BYTE, R338. -/
  | statusByte (w : Wire)
  /-- STATUS_WORD, R338. -/
  | statusWord (w : Wire)
  /-- STATUS_VOUT, R338. -/
  | statusVout (w : Wire)
  /-- STATUS_IOUT, R338. -/
  | statusIout (w : Wire)
  /-- STATUS_INPUT, R338. -/
  | statusInput (w : Wire)
  /-- STATUS_TEMPERATURE, R338. -/
  | statusTemperature (w : Wire)
  /-- STATUS_CML, R338. -/
  | statusCml (w : Wire)
  /-- READ_VIN, R336. -/
  | readVin (w : Wire)
  /-- READ_IIN, R336. -/
  | readIin (w : Wire)
  /-- READ_VOUT, R336. -/
  | readVout (w : Wire)
  /-- READ_IOUT, R336. -/
  | readIout (w : Wire)
  /-- READ_TEMPERATURE_1, R336. -/
  | readTemperature1 (w : Wire)
  /-- READ_POUT, R336. -/
  | readPout (w : Wire)
  /-- READ_PIN, R336. -/
  | readPin (w : Wire)
  /-- PMBUS_REVISION, R336. -/
  | pmbusRevision (w : Wire)
  /-- MFR_ID, R336. -/
  | mfrId (w : Wire)
  /-- MFR_MODEL, R336. -/
  | mfrModel (w : Wire)
  /-- MFR_REVISION, R336. -/
  | mfrRevision (w : Wire)
  /-- MFR_SERIAL, R336. -/
  | mfrSerial (w : Wire)
  /-- MFR_WIN_ADDR, R339. -/
  | mfrWinAddr (w : Wire)
  /-- MFR_WIN_DATA, R339. -/
  | mfrWinData (w : Wire)
  /-- MFR_FIFO_DATA, R342. -/
  | mfrFifoData (w : Wire)
  /-- MFR_FIFO_CTRL, R342. -/
  | mfrFifoCtrl (w : Wire)
  /-- MFR_FIFO_STAT, R342. -/
  | mfrFifoStat (w : Wire)
  /-- UNSUPPORTED_COMMAND, R340. -/
  | unsupportedCommand (p : Port) (code : Byte)
  /-- ALERT_RESPONSE, R341. -/
  | alertResponse (won : Bool) (clocks : BitVec 8)
  /-- RDREG, R345. -/
  | rdreg (f : StreamFrame)
  /-- WRREG, R346. -/
  | wrreg (f : StreamFrame)
  /-- RDFIFO, R345. -/
  | rdfifo (f : StreamFrame)
  /-- FIFOCTL, R345. -/
  | fifoctl (f : StreamFrame)
  /-- STREAM_STORE, R355. -/
  | streamStore (f : StreamFrame)
  /-- REGISTER_WRITE, R348. -/
  | registerWrite (p : Port) (a : BitVec 16) (v : Word)
  /-- BEGIN, R349. -/
  | begin (p : Port)
  /-- COMMIT, R351. -/
  | commit (p : Port) (token : BitVec 8)
  /-- ROLLBACK, R353. -/
  | rollback (p : Port) (token : BitVec 8)
  /-- TXN_CHECKS_COMPLETE, R351. -/
  | txnChecksComplete
  /-- COMMIT_TICK, R352. -/
  | commitTick
  /-- TXN_TIMEOUT, R353. -/
  | txnTimeout
  /-- STORE, R355. -/
  | store (p : Port) (confirm : BitVec 16)
  /-- STORE_COMPLETE, R355. -/
  | storeComplete (ok : Bool)
  /-- FIELD_BUS_POLL, R363. -/
  | fieldBusPoll (b : Fin 2)
  /-- FIELD_BUS_TRANSACTION_DONE, R361: 0 acknowledged and PEC right, 1 and 2 address or data not acknowledged, 3 PEC wrong; the bytes read. -/
  | fieldBusTransactionDone (b : Fin 2) (r : Fin 4) (data : List Byte)
  /-- FIELD_BUS_STALE, R363. -/
  | fieldBusStale (b : Fin 2) (e : Fin 64)
  /-- FIELD_BUS_ARB_LOST, R364. -/
  | fieldBusArbLost (b : Fin 2)
  /-- FIELD_BUS_RETRY, R364. -/
  | fieldBusRetry (b : Fin 2)
  /-- FIELD_BUS_HANG, R365: SCL, not SDA, is the line held. -/
  | fieldBusHang (b : Fin 2) (scl : Bool)
  /-- FIELD_BUS_POWER_RESTORE, R365. -/
  | fieldBusPowerRestore (b : Fin 2)
  /-- FIELD_BUS_RESUME, R365. -/
  | fieldBusResume (b : Fin 2)
  /-- PWRCYCLE, R365. -/
  | pwrcycle (p : Port) (b : Fin 2) (confirm : BitVec 16)
  /-- RING_LINK_UP, R366. -/
  | ringLinkUp
  /-- RING_LINK_DOWN, R366: with the code violations seen. -/
  | ringLinkDown (viol : BitVec 16)
  /-- RING_CLAIM, R370. -/
  | ringClaim
  /-- CLAIM, R370. -/
  | claim (f : RingFrame)
  /-- ENUM, R370. -/
  | enum (f : RingFrame)
  /-- BEACON_SEND, R370. -/
  | beaconSend
  /-- BEACON, R370, R371: BEACONs have come for 1 ms; the master's own round trip in 0.1 ns. -/
  | beacon (f : RingFrame) (steady : Bool) (rt : BitVec 32)
  /-- BUDGET, R373. -/
  | budget (f : RingFrame)
  /-- CAPORD, R373. -/
  | capord (f : RingFrame)
  /-- ONOFF, R375. -/
  | onoff (f : RingFrame)
  /-- BUSSTATE, R368. -/
  | busstate (f : RingFrame)
  /-- TIME, R373. -/
  | time (f : RingFrame)
  /-- SHARE, R373. -/
  | share (f : RingFrame)
  /-- REPORT, R368. -/
  | report (f : RingFrame)
  /-- BREAK, R372. -/
  | ringBreak (f : RingFrame)
  /-- BREAK_SEND, R372. -/
  | breakSend
  /-- MASTER_PERIODIC_SEND, R368: 0 ONOFF, 1 BUSSTATE, 2 TIME, 3 SHARE. -/
  | masterPeriodicSend (kind : Fin 4)
  /-- MASTER_LOST, R371. -/
  | masterLost
  /-- RING_OPEN_TIMEOUT, R372. -/
  | ringOpenTimeout
  /-- RING_REENUMERATE, R372. -/
  | ringReenumerate
  /-- RACK_BUDGET_COMPUTE, R374: the modules' power-good balls. -/
  | rackBudgetCompute (pg : BitVec 12)
  /-- RECTIFIER_OFFLINE, R374. -/
  | rectifierOffline (k : Fin 12)
  /-- LNK_ORDER_WRITE, R374. -/
  | lnkOrderWrite (p : Port) (v : Word)
  /-- TIME_SLOT_WRITE, R379. -/
  | timeSlotWrite
  /-- RECORD_NVM_WRITE, R385. -/
  | recordNvmWrite (fail1 fail2 : Bool)
  /-- OVERFLOW_RECORD_REWRITE, R386. -/
  | overflowRecordRewrite
  /-- OWL_IDX_WRITE, R388. -/
  | owlIdxWrite (p : Port) (v : Word) (writing : Bool)
  /-- OWL_SNAP, R389. -/
  | owlSnap (p : Port) (confirm : BitVec 16)
  /-- SNAPSHOT_FREEZE, R389. -/
  | snapshotFreeze
  /-- SNAPSHOT_COPY_COMPLETE, R389. -/
  | snapshotCopyComplete
  /-- SNAPSHOT_READ, R390. -/
  | snapshotRead (p : Port)
  /-- CLEAR, R392. -/
  | clear (p : Port) (confirm : BitVec 16)
  /-- CLEAR_COMPLETE, R392. -/
  | clearComplete
  /-- UPOPEN, R394. -/
  | upopen (f : StreamFrame)
  /-- UPWRITE, R394. -/
  | upwrite (f : StreamFrame)
  /-- UPBLOCK, R395. -/
  | upblock (f : StreamFrame)
  /-- UPDATE_BLOCK_COMPLETE, R395. -/
  | updateBlockComplete (r : Fin 3)
  /-- UPCLOSE, R396. -/
  | upclose (f : StreamFrame)
  /-- UPDATE_VERIFY_COMPLETE, R396. -/
  | updateVerifyComplete (noise : List (Nat × Byte))
  /-- UPDATE_SESSION_TIMEOUT, R394. -/
  | updateSessionTimeout
  /-- CONFIRM, R399. -/
  | confirm (p : Port) (confirm : BitVec 16)
  /-- CANCEL, R396. -/
  | cancel (p : Port) (confirm : BitVec 16)
  /-- TRIAL_TIME_EXPIRY, R399. -/
  | trialTimeExpiry
  /-- TRIAL_TIME_SAVE, R399. -/
  | trialTimeSave
  /-- LADDER_RECOVERY, R47. -/
  | ladderRecovery
  /-- SYSFLT_LINE_RELEASE, R259. -/
  | sysfltLineRelease
  /-- FEED_LEAK_CLEAR, R218. -/
  | feedLeakClear
  /-- FEED_QUALIFICATION_LOSS, R202. -/
  | feedQualificationLoss (f : Fin 3)
  /-- CURRENT_LIMIT_ENTRY, R208. -/
  | currentLimitEntry (f : Fin 3)
  /-- FAULT_TIMER_CLEAR, R208. -/
  | faultTimerClear (f : Fin 3)
  /-- RING_FRAME_DISCARD, R367, R376: the bytes as received; the discards of the last 1 ms. -/
  | ringFrameDiscard (raw : List Byte) (within : BitVec 8)
  deriving DecidableEq, Repr

end Sys2Proof
end

