-- ==== Sys2Proof/Decode.lean ====
section
/-! DEFINITION. Words as commands.  spec/opcode_table.json gives no row of this block any bits, so no word spells a command (the
commands come from the host's ports, the balls, the buses and time). -/

namespace Sys2Proof

/-- The command that a word spells by the table's bits: none. -/
def decodeTableWord (_nbits _w : Nat) : Option Instr := none

end Sys2Proof
end

