-- ==== Sys2Proof/Machine/Arith.lean ====
section
/-! DEFINITION. The number helpers the chapters share: rounding, clamping, saturating, and division rounded up.  The
spec computes exactly before a single rounding; the model computes in `Int` and `Rat` (log entry 9). -/

namespace Sys2Proof.Machine

/-- Rounding half away from zero (R125). -/
def roundAway (q : Rat) : Int := if q < 0 then -((-q + 1 / 2).floor) else (q + 1 / 2).floor

/-- Rounding half up (R100, R111). -/
def roundUp (q : Rat) : Int := (q + 1 / 2).floor

/-- The least number of `lo..hi` nearest to `x`. -/
def clampI (lo hi x : Int) : Int := if x < lo then lo else if hi < x then hi else x

/-- The same for rationals. -/
def clampQ (lo hi x : Rat) : Rat := if x < lo then lo else if hi < x then hi else x

/-- Division rounded up; 0 where the divisor is 0. -/
def ceilDiv (a b : Nat) : Nat := if b = 0 then 0 else (a + b - 1) / b

/-- An unsigned field of `w` bits that saturates. -/
def satU (w : Nat) (x : Int) : Nat := (clampI 0 ((2 ^ w : Nat) - 1 : Int) x).toNat

/-- A signed field of `w` bits that saturates. -/
def satS (w : Nat) (x : Int) : Int := clampI (-((2 ^ (w - 1) : Nat) : Int)) ((2 ^ (w - 1) : Nat) - 1 : Int) x

/-- The magnitude of a rational. -/
def absQ (q : Rat) : Rat := if q < 0 then -q else q

/-- The sum of a list of integers. -/
def sumI (l : List Int) : Int := l.foldl (· + ·) 0

/-- The sum of a list of rationals. -/
def sumQ (l : List Rat) : Rat := l.foldl (· + ·) 0

/-- The exact mean of a list of integers; 0 of none. -/
def meanI (l : List Int) : Rat := if l.length = 0 then 0 else (sumI l : Rat) / (l.length : Rat)

/-- The exact mean of a list of rationals; 0 of none. -/
def meanQ (l : List Rat) : Rat := if l.length = 0 then 0 else sumQ l / (l.length : Rat)

/-- The bits set in a mask, lowest first, among the first `n`. -/
def bitsOf (n mask : Nat) : List Nat := (List.range n).filter (fun k => mask.testBit k)

/-- The mask whose bits are the members of a list. -/
def maskOf (l : List Nat) : Nat := l.foldl (fun m k => m ||| 2 ^ k) 0

/-- A mask with one bit set or cleared. -/
def setBitN (m k : Nat) (b : Bool) : Nat := if m.testBit k = b then m else if b then m + 2 ^ k else m - 2 ^ k

end Sys2Proof.Machine
end

