-- ==== Sys2Proof/Machine/Fields.lean ====
section
/-! DEFINITION. Reading and writing the bit fields of a register word, and finding the map row of a word address. -/

namespace Sys2Proof.Machine

/-- The unsigned value of a field in a word. -/
def Fld.get (f : Fld) (x : Word) : Nat := (x.toNat >>> f.lo) % 2 ^ f.w

/-- The bits the field occupies. -/
def Fld.mask (f : Fld) : Word := BitVec.ofNat 32 ((2 ^ f.w - 1) <<< f.lo)

/-- A word with the field replaced (the value is taken modulo the field's width); every other bit stays. -/
def Fld.insert (f : Fld) (x : Word) (v : Nat) : Word :=
  (x &&& ~~~f.mask) ||| BitVec.ofNat 32 ((v % 2 ^ f.w) <<< f.lo)

/-- The word address of the field in instance `i` (R405). -/
def Fld.addr (f : Fld) (i : Nat) : Nat := f.base + f.stride * i

/-- A row covers a word address: some instance's words hold it (R405, R409). -/
def RegRow.covers (r : RegRow) (a : Nat) : Bool :=
  r.base ≤ a &&
    (if r.stride = 0 then a < r.base + r.words
     else (a - r.base) / r.stride < r.count && (a - r.base) % r.stride < r.words)

/-- The signed value of a `w`-bit field value. -/
def toSigned (w n : Nat) : Int := if n < 2 ^ (w - 1) then (n : Int) else (n : Int) - (2 ^ w : Nat)

/-- The field value of a signed number, taken modulo `2 ^ w`. -/
def ofSigned (w : Nat) (i : Int) : Nat := (i % ((2 ^ w : Nat) : Int)).toNat

end Sys2Proof.Machine
end

