-- ==== Sys2Proof/Machine/Codes.lean ====
section
/-! DEFINITION. Number codes: CRC-32 (R63), CRC-16 (R344), the PEC (R330), IEEE 754 binary32 (R226, R239), LINEAR11 and LINEAR16 (R191, R192), and bytes of
words. -/

namespace Sys2Proof.Machine

/-- The bytes of a word, least significant first. -/
def wordBytes (w : Word) : List Byte := (List.range 4).map (fun k => (w >>> (8 * k)).setWidth 8)

/-- One bit of the reflected CRC-32. -/
def crcBit (c : Word) : Word := if c.getLsbD 0 then (c >>> 1) ^^^ 0xEDB88320#32 else c >>> 1

def crcByte (c : Word) (b : Byte) : Word := (List.range 8).foldl (fun c _ => crcBit c) (c ^^^ b.setWidth 32)

/-- CRC-32 of R63. -/
def crc32 (l : List Byte) : Word := (l.foldl crcByte 0xFFFFFFFF#32) ^^^ 0xFFFFFFFF#32

/-- CRC-32 over little-endian words. -/
def crcWords (l : List Word) : Word := crc32 (l.flatMap wordBytes)

/-- One byte of the CRC-16 of R344: polynomial 0x1021, no reflection. -/
def crc16Byte (c : BitVec 16) (b : Byte) : BitVec 16 :=
  (List.range 8).foldl (fun c _ => if c.getLsbD 15 then (c <<< 1) ^^^ 0x1021#16 else c <<< 1)
    (c ^^^ (b.setWidth 16 <<< 8))

/-- CRC-16 of R344. -/
def crc16 (l : List Byte) : BitVec 16 := l.foldl crc16Byte 0xFFFF#16

/-- One byte of the PEC of R330: CRC-8, polynomial x^8 + x^2 + x + 1. -/
def crc8Byte (c b : Byte) : Byte :=
  (List.range 8).foldl (fun c _ => if c.getLsbD 7 then (c <<< 1) ^^^ 0x07#8 else c <<< 1) (c ^^^ b)

/-- The PEC of R330. -/
def crc8 (l : List Byte) : Byte := l.foldl crc8Byte 0#8

/-- `n` bytes of a number, least significant first. -/
def leBytes (n v : Nat) : List Byte := (List.range n).map (fun k => BitVec.ofNat 8 (v / 256 ^ k))

/-- The number that bytes spell, least significant first. -/
def leNat (l : List Byte) : Nat := l.foldr (fun b n => b.toNat + 256 * n) 0

/-- The number that bytes spell, most significant first. -/
def beNat (l : List Byte) : Nat := l.foldl (fun n b => b.toNat + 256 * n) 0

/-- The words that bytes spell, each least significant byte first. -/
def wordsOfBytes (l : List Byte) : List Word :=
  (List.range (l.length / 4)).map (fun k => BitVec.ofNat 32 (leNat ((l.drop (4 * k)).take 4)))

/-- Two to an integer power. -/
def pow2 (e : Int) : Rat := if 0 ≤ e then (2 ^ e.toNat : Nat) else 1 / ((2 ^ (-e).toNat : Nat) : Rat)

/-- Rounding half to even, for numbers at or above 0. -/
def roundEven (q : Rat) : Nat :=
  let f := q.floor.toNat
  let r := q - (f : Rat)
  if r < 1 / 2 then f else if 1 / 2 < r then f + 1 else if f % 2 = 0 then f else f + 1

/-- The largest `e` with 2^e at or below a positive number. -/
def log2Q (q : Rat) : Int :=
  let e : Int := (Nat.log2 q.num.natAbs : Int) - (Nat.log2 q.den : Int)
  if pow2 e ≤ q then e else e - 1

/-- A number as binary32, rounded to nearest even. -/
def f32OfRat (q : Rat) : Word :=
  if q = 0 then 0
  else
    let a := absQ q
    let e := log2Q a
    let bits : Nat :=
      if e < -126 then roundEven (a * pow2 149)
      else
        let m := roundEven (a * pow2 (23 - e))
        let b := (e + 127).toNat * 2 ^ 23 + (m - 2 ^ 23)
        Nat.min b 0x7F800000
    BitVec.ofNat 32 (bits + if q < 0 then 2 ^ 31 else 0)

/-- The number that a binary32 stands for; 0 for infinities and NaN, which no check lets through. -/
def ratOfF32 (w : Word) : Rat :=
  let n := w.toNat
  let e : Nat := n / 2 ^ 23 % 256
  let m : Nat := n % 2 ^ 23
  let a : Rat := if e = 0 then (m : Rat) * pow2 (-149)
    else if e = 255 then 0 else ((m + 2 ^ 23 : Nat) : Rat) * pow2 ((e : Int) - 150)
  if n / 2 ^ 31 = 1 then -a else a

/-- Finite and not negative (R226). -/
def f32Ok (w : Word) : Bool := decide (w.toNat / 2 ^ 31 = 0) && decide (w.toNat / 2 ^ 23 % 256 < 255)

/-- LINEAR11 (R191): the smallest exponent from -16 to 15 at which the mantissa fits. -/
def linear11 (x : Rat) : Nat :=
  let fits (e : Int) : Bool := let y := roundAway (x / pow2 e); decide (-1024 ≤ y) && decide (y ≤ 1023)
  match (List.range 32).find? (fun (k : Nat) => fits ((k : Int) - 16)) with
  | some k =>
    let e : Int := (k : Int) - 16
    let y := roundAway (x / pow2 e)
    if y = 0 then 0 else ofSigned 5 e * 2048 + ofSigned 11 y
  | none => 15 * 2048 + ofSigned 11 (if x < 0 then -1024 else 1023)

/-- The number that a LINEAR11 word stands for (R191). -/
def ofLinear11 (w : Nat) : Rat := (toSigned 11 (w % 2048) : Rat) * pow2 (toSigned 5 (w / 2048 % 32))

/-- LINEAR16 (R192) at exponent `e`. -/
def linear16 (e : Int) (v : Rat) : Nat := satU 16 (roundAway (v / pow2 e))

end Sys2Proof.Machine
end

