-- ==== Sys2Proof/Config.lean ====
section
/-! DEFINITION. What the spec leaves open: values with no body, so that nothing can evaluate them and a statement about
one holds for every value of it. -/

namespace Sys2Proof.Config

/-- The free value drawn with the model's counter `State.freeIdx` (log entry 8). -/
opaque freeWord : Nat → BitVec 64

/-- The starting covariance of an energy-balance fit, which R185 does not give (log entry 10): by source, row and
column. -/
opaque ebStart : Nat → Nat → Nat → Rat

/-- The starting coefficients beta and alpha of an energy-balance fit, which R185 does not give (log entry 10): by source
and place in the fit. -/
opaque ebInit : Nat → Nat → Rat

/-- The standard uncertainty of k_c, 0.001%, whose rule R186 does not give (log entry 10): a function of the cluster and of
how many points its fit has taken. -/
opaque ebUnc : Nat → Nat → BitVec 16

/-- The open-circuit voltage of an instance beyond the ends of its table in z, and z for a voltage beyond them, which R224 and
R228 do not give (log entry 26): by instance, argument and temperature. -/
opaque ocvBeyond : Nat → Rat → Rat → Rat

opaque ocvInvBeyond : Nat → Rat → Rat → Rat

/-- The equivalent full cycles of R239 after a step, whose rule the spec does not give (log entry 27): by instance, the count
before and the charge of the step. -/
opaque efcNext : Nat → Nat → Rat → Nat

/-- The exponent of a rectifier module's VOUT_MODE, which no transaction of the spec reads (log entry 29): by module. -/
opaque rkVoutExp : Nat → BitVec 5

end Sys2Proof.Config
end

