-- ==== Sys2Proof/Machine/RegMap.lean ====
section
/-! DEFINITION. The register map (18_register_map.md R404 to R409): every field of every register, with the access
code of R7, the Reset column of R406 and the range its chapter states.  `F.<REGISTER>_<FIELD>` names a field of
instance 0; an instance's word is base + stride x index (R405).  The map is the spec's register tables, row for row. -/

namespace Sys2Proof.Machine

namespace F

def DEV_ID_ID : Fld := ⟨0x0000, 0x0, 0, 32⟩
def DEV_STATE_STATE : Fld := ⟨0x0001, 0x0, 0, 4⟩
def DEV_STATE_HOLD : Fld := ⟨0x0001, 0x0, 4, 1⟩
def DEV_STATE_ONREQ : Fld := ⟨0x0001, 0x0, 5, 1⟩
def DEV_STATE_ROLE : Fld := ⟨0x0001, 0x0, 6, 1⟩
def DEV_STATE_BLEVEL : Fld := ⟨0x0001, 0x0, 7, 2⟩
def DEV_STATE_CMD_REF : Fld := ⟨0x0001, 0x0, 9, 1⟩
def DEV_ONOFF_CFG_EN_USE : Fld := ⟨0x0002, 0x0, 0, 1⟩
def DEV_ONOFF_CFG_OPR_USE : Fld := ⟨0x0002, 0x0, 1, 1⟩
def DEV_ONOFF_CFG_RING_USE : Fld := ⟨0x0002, 0x0, 2, 1⟩
def DEV_ONOFF_CFG_SEAT_USE : Fld := ⟨0x0002, 0x0, 3, 1⟩
def DEV_CTRL_CMD : Fld := ⟨0x0004, 0x0, 0, 8⟩
def DEV_CTRL_CONFIRM : Fld := ⟨0x0004, 0x0, 16, 16⟩
def DEV_TEMP_TCTL : Fld := ⟨0x0006, 0x0, 0, 16⟩
def DEV_TEMP_TSNS : Fld := ⟨0x0006, 0x0, 16, 16⟩
def DEV_ECC_CORR : Fld := ⟨0x0008, 0x0, 0, 16⟩
def DEV_ECC_UNCORR : Fld := ⟨0x0008, 0x0, 16, 16⟩
def TXN_CTRL_CMD : Fld := ⟨0x0010, 0x0, 0, 8⟩
def TXN_CTRL_TOKEN : Fld := ⟨0x0010, 0x0, 8, 8⟩
def TXN_STATUS_STATE : Fld := ⟨0x0011, 0x0, 0, 2⟩
def TXN_STATUS_PORT : Fld := ⟨0x0011, 0x0, 2, 1⟩
def TXN_STATUS_OVF : Fld := ⟨0x0011, 0x0, 3, 1⟩
def TXN_STATUS_TOKEN : Fld := ⟨0x0011, 0x0, 4, 8⟩
def TXN_STATUS_COUNT : Fld := ⟨0x0011, 0x0, 12, 9⟩
def TXN_STATUS_RESULT : Fld := ⟨0x0011, 0x0, 21, 4⟩
def TXN_FAIL_ADDR : Fld := ⟨0x0012, 0x0, 0, 16⟩
def TXN_CFG_TMO : Fld := ⟨0x0013, 0x0, 0, 7⟩
def STORE_CTRL_CMD : Fld := ⟨0x0018, 0x0, 0, 8⟩
def STORE_CTRL_CONFIRM : Fld := ⟨0x0018, 0x0, 16, 16⟩
def STORE_STAT_BUSY : Fld := ⟨0x0019, 0x0, 0, 1⟩
def STORE_STAT_DONE : Fld := ⟨0x0019, 0x0, 1, 1⟩
def STORE_STAT_FAIL : Fld := ⟨0x0019, 0x0, 2, 1⟩
def STORE_STAT_CMD_REF : Fld := ⟨0x0019, 0x0, 3, 1⟩
def STORE_STAT_BANK : Fld := ⟨0x0019, 0x0, 4, 1⟩
def STORE_SEQ_SEQ : Fld := ⟨0x001A, 0x0, 0, 32⟩
def DEV_SUPPLY_V5 : Fld := ⟨0x0020, 0x0, 0, 16⟩
def DEV_SUPPLY_VIN : Fld := ⟨0x0020, 0x0, 16, 16⟩
def DEV_PWRSTAT_LSTAGE : Fld := ⟨0x0021, 0x0, 0, 3⟩
def DEV_PWRSTAT_IOMODE : Fld := ⟨0x0021, 0x0, 3, 1⟩
def DEV_PWRSTAT_STRAP : Fld := ⟨0x0021, 0x0, 4, 4⟩
def DEV_PWRSTAT_BCAUSE : Fld := ⟨0x0021, 0x0, 8, 4⟩
def DEV_IREF_LEVEL : Fld := ⟨0x0040, 0x1, 0, 8⟩
def DEV_IREF_EN : Fld := ⟨0x0040, 0x1, 8, 1⟩
def CLK_CFG_REFSEL : Fld := ⟨0x0100, 0x0, 0, 1⟩
def CLK_CFG_SYNC_NOM : Fld := ⟨0x0100, 0x0, 1, 12⟩
def CLK_CFG_SOSRC : Fld := ⟨0x0100, 0x0, 13, 2⟩
def CLK_CFG_SOCL : Fld := ⟨0x0100, 0x0, 15, 4⟩
def CLK_CFG_SODIV : Fld := ⟨0x0100, 0x0, 19, 10⟩
def CLK_STAT_SRC : Fld := ⟨0x0101, 0x0, 0, 2⟩
def CLK_STAT_ALIGNED : Fld := ⟨0x0101, 0x0, 2, 1⟩
def CLK_STAT_HOLDOVER : Fld := ⟨0x0101, 0x0, 3, 1⟩
def CLK_STAT_XINLOSS : Fld := ⟨0x0101, 0x0, 4, 1⟩
def CLK_STAT_PPM : Fld := ⟨0x0101, 0x0, 16, 16⟩
def CLK_DLCAL_OK : Fld := ⟨0x0102, 0x0, 0, 1⟩
def CLK_DLCAL_SKEWMAX : Fld := ⟨0x0102, 0x0, 8, 8⟩
def CLK_ALIGN_OFFSET : Fld := ⟨0x0110, 0x1, 0, 8⟩
def CLK_ALIGN_MODE : Fld := ⟨0x0110, 0x1, 8, 2⟩
def CLK_ALIGN_FACTOR : Fld := ⟨0x0110, 0x1, 10, 4⟩
def SUPV_STAT_FENCED : Fld := ⟨0x0200, 0x0, 0, 3⟩
def SUPV_STAT_MODE2 : Fld := ⟨0x0200, 0x0, 3, 1⟩
def SUPV_STAT_FFOPEN : Fld := ⟨0x0200, 0x0, 4, 1⟩
def SUPV_STAT_HDONE : Fld := ⟨0x0200, 0x0, 5, 1⟩
def SUPV_STAT_ALRT : Fld := ⟨0x0200, 0x0, 6, 1⟩
def SUPV_STAT_CMD_REF : Fld := ⟨0x0200, 0x0, 7, 1⟩
def SUPV_STAT_WIREF : Fld := ⟨0x0200, 0x0, 8, 1⟩
def SUPV_CTRL_CMD : Fld := ⟨0x0201, 0x0, 0, 8⟩
def SUPV_CTRL_CONFIRM : Fld := ⟨0x0201, 0x0, 16, 16⟩
def SUPV_OUTV_OUTA : Fld := ⟨0x0202, 0x0, 0, 8⟩
def SUPV_OUTV_OUTB : Fld := ⟨0x0202, 0x0, 8, 8⟩
def SUPV_OUTV_OUTC : Fld := ⟨0x0202, 0x0, 16, 8⟩
def SUPV_WIRE_PAIR : Fld := ⟨0x0203, 0x0, 0, 10⟩
def SUPV_WIRE_WCNT : Fld := ⟨0x0203, 0x0, 16, 16⟩
def SUPV_CLLAT_CLOFFL : Fld := ⟨0x0204, 0x0, 0, 16⟩
def SUPV_CLLAT_SHEDCL : Fld := ⟨0x0204, 0x0, 16, 16⟩
def SUPV_PHSHED0_PH0_31 : Fld := ⟨0x0205, 0x0, 0, 32⟩
def SUPV_PHSHED1_PH32_47 : Fld := ⟨0x0206, 0x0, 0, 16⟩
def SUPV_FF_FFSRC : Fld := ⟨0x0208, 0x0, 0, 10⟩
def SUPV_FF_FFSTATE : Fld := ⟨0x0208, 0x0, 10, 4⟩
def SUPV_FF_FFACT : Fld := ⟨0x0208, 0x0, 16, 8⟩
def SUPV_FFTL_MSLO : Fld := ⟨0x0209, 0x0, 0, 32⟩
def SUPV_FFTH_MSHI : Fld := ⟨0x020A, 0x0, 0, 16⟩
def SUPV_FFTH_US : Fld := ⟨0x020A, 0x0, 16, 10⟩
def SUPV_FFCNT_MCNT : Fld := ⟨0x020B, 0x0, 0, 16⟩
def SUPV_FFCNT_MSRC : Fld := ⟨0x020B, 0x0, 16, 10⟩
def SUPV_FFMAP_FFMAP : Fld := ⟨0x0220, 0x1, 0, 32⟩
def SUPV_SRC_SRC : Fld := ⟨0x0240, 0x1, 0, 32⟩
def SUPV_HIST_HIST : Fld := ⟨0x0280, 0x1, 0, 32⟩
def PH_CFG_USED : Fld := ⟨0x0400, 0x20, 0, 1⟩
def PH_CFG_CLUSTER : Fld := ⟨0x0400, 0x20, 1, 4⟩
def PH_CFG_ORDER : Fld := ⟨0x0400, 0x20, 5, 4⟩
def PH_CFG_IREFSEL : Fld := ⟨0x0400, 0x20, 9, 3⟩
def PH_CFG_DEM : Fld := ⟨0x0400, 0x20, 12, 1⟩
def PH_CFG_OFS : Fld := ⟨0x0400, 0x20, 16, 8⟩
def PH_GAIN_GCS : Fld := ⟨0x0401, 0x20, 0, 16⟩
def PH_GAIN_IZC : Fld := ⟨0x0401, 0x20, 16, 8⟩
def PH_RAMP_SLOPE : Fld := ⟨0x0402, 0x20, 0, 10⟩
def PH_BLANK_BLANK : Fld := ⟨0x0403, 0x20, 0, 8⟩
def PH_BLANK_FOXBLK : Fld := ⟨0x0403, 0x20, 8, 4⟩
def PH_LIMIT_IPEAK : Fld := ⟨0x0404, 0x20, 0, 12⟩
def PH_LIMIT_IAVG : Fld := ⟨0x0404, 0x20, 16, 12⟩
def PH_FOX_FOXTHR : Fld := ⟨0x0405, 0x20, 0, 12⟩
def PH_FOX_FOXMODE : Fld := ⟨0x0405, 0x20, 12, 1⟩
def PH_FOX_FOXHOLD : Fld := ⟨0x0405, 0x20, 14, 6⟩
def PH_FOX_FOXMAX : Fld := ⟨0x0405, 0x20, 20, 4⟩
def PH_STAT_ACTIVE : Fld := ⟨0x0408, 0x20, 0, 1⟩
def PH_STAT_FOXLAT : Fld := ⟨0x0408, 0x20, 1, 1⟩
def PH_STAT_FOX : Fld := ⟨0x0408, 0x20, 2, 1⟩
def PH_STAT_PKLIM : Fld := ⟨0x0408, 0x20, 3, 1⟩
def PH_STAT_OCAVG : Fld := ⟨0x0408, 0x20, 4, 1⟩
def PH_STAT_ISRANGE : Fld := ⟨0x0408, 0x20, 5, 1⟩
def PH_STAT_HSSHORT : Fld := ⟨0x0408, 0x20, 6, 1⟩
def PH_STAT_MAXON : Fld := ⟨0x0408, 0x20, 7, 1⟩
def PH_IRAW_CODE : Fld := ⟨0x0409, 0x20, 0, 12⟩
def PH_CNT_PKCNT : Fld := ⟨0x040A, 0x20, 0, 16⟩
def PH_CNT_FOXCNT : Fld := ⟨0x040A, 0x20, 16, 8⟩
def PH_ITEL_ITEL : Fld := ⟨0x0410, 0x20, 0, 32⟩
def PH_CAL_GREL : Fld := ⟨0x0411, 0x20, 0, 16⟩
def PH_CAL_ZERO : Fld := ⟨0x0411, 0x20, 16, 16⟩
def PH_RSSTAT_RSCNT : Fld := ⟨0x0412, 0x20, 0, 16⟩
def PH_RSSTAT_LASTDEV : Fld := ⟨0x0412, 0x20, 16, 16⟩
def PH_TMOD_TMOD : Fld := ⟨0x0418, 0x20, 0, 16⟩
def PH_TPK_TPK : Fld := ⟨0x0419, 0x20, 0, 32⟩
def PH_PLOSS_PLOSS : Fld := ⟨0x041A, 0x20, 0, 32⟩
def CL_CFG_KIND : Fld := ⟨0x1000, 0x100, 0, 1⟩
def CL_CFG_SGAIN : Fld := ⟨0x1000, 0x100, 1, 2⟩
def CL_CFG_UPER : Fld := ⟨0x1000, 0x100, 3, 12⟩
def CL_CFG_OUTDIV : Fld := ⟨0x1000, 0x100, 15, 3⟩
def CL_VSET_S : Fld := ⟨0x1001, 0x100, 0, 16⟩
def CL_VSLEW_SLEW : Fld := ⟨0x1002, 0x100, 0, 12⟩
def CL_VSLEW_BLKTM : Fld := ⟨0x1002, 0x100, 12, 5⟩
def CL_VSLEW_BLKEN : Fld := ⟨0x1002, 0x100, 17, 1⟩
def CL_VSTAT_VREFEFF : Fld := ⟨0x1003, 0x100, 0, 16⟩
def CL_VSTAT_TRANS : Fld := ⟨0x1003, 0x100, 16, 1⟩
def CL_VSTAT_SSRUN : Fld := ⟨0x1003, 0x100, 17, 1⟩
def CL_VSTAT_SSDONE : Fld := ⟨0x1003, 0x100, 18, 1⟩
def CL_VSTAT_CAPACT : Fld := ⟨0x1003, 0x100, 19, 1⟩
def CL_SS_SSDLY : Fld := ⟨0x1004, 0x100, 0, 8⟩
def CL_SS_SSTIME : Fld := ⟨0x1004, 0x100, 8, 10⟩
def CL_SS_PREBIAS : Fld := ⟨0x1004, 0x100, 18, 1⟩
def CL_LL_RLL : Fld := ⟨0x1005, 0x100, 0, 12⟩
def CL_CAP_CAPVAL : Fld := ⟨0x1006, 0x100, 0, 16⟩
def CL_CAP_CAPSEL : Fld := ⟨0x1006, 0x100, 16, 1⟩
def CL_CAP_CAPSTEP : Fld := ⟨0x1006, 0x100, 17, 4⟩
def CL_CAP_CAPMAX : Fld := ⟨0x1006, 0x100, 21, 10⟩
def CL_CAP_CAPEN : Fld := ⟨0x1006, 0x100, 31, 1⟩
def CL_TRIM_TRIM : Fld := ⟨0x1007, 0x100, 0, 16⟩
def CL_TRIM_TARGET : Fld := ⟨0x1007, 0x100, 16, 16⟩
def CL_GAIN_KI : Fld := ⟨0x1008, 0x100, 0, 16⟩
def CL_GAIN_KD : Fld := ⟨0x1008, 0x100, 16, 16⟩
def CL_GCFG_SP : Fld := ⟨0x1009, 0x100, 0, 3⟩
def CL_GCFG_BOUND : Fld := ⟨0x1009, 0x100, 8, 16⟩
def CL_GCFG_BCNT : Fld := ⟨0x1009, 0x100, 24, 7⟩
def CL_GCFG_BEN : Fld := ⟨0x1009, 0x100, 31, 1⟩
def CL_IRLIM_IRMAX : Fld := ⟨0x100A, 0x100, 0, 16⟩
def CL_IRLIM_IRMIN : Fld := ⟨0x100A, 0x100, 16, 16⟩
def CL_LSTAT_WRAP : Fld := ⟨0x100B, 0x100, 0, 1⟩
def CL_LSTAT_IBND : Fld := ⟨0x100B, 0x100, 1, 1⟩
def CL_LSTAT_COARSE : Fld := ⟨0x100B, 0x100, 2, 1⟩
def CL_LSTAT_CLAMPH : Fld := ⟨0x100B, 0x100, 3, 1⟩
def CL_LSTAT_CLAMPL : Fld := ⟨0x100B, 0x100, 4, 1⟩
def CL_ACCL_ACC_LO : Fld := ⟨0x100C, 0x100, 0, 32⟩
def CL_ACCH_ACC_HI : Fld := ⟨0x100D, 0x100, 0, 32⟩
def CL_IOUT_U : Fld := ⟨0x100E, 0x100, 0, 32⟩
def CL_ERR_E : Fld := ⟨0x100F, 0x100, 0, 16⟩
def CL_LEAD_PINS : Fld := ⟨0x1010, 0x100, 0, 4⟩
def CL_LEAD_LWSTEP : Fld := ⟨0x1010, 0x100, 4, 12⟩
def CL_LEAD_LWWIN : Fld := ⟨0x1010, 0x100, 16, 8⟩
def CL_LEAD_LWMATCH : Fld := ⟨0x1010, 0x100, 24, 8⟩
def CL_LEAD2_LWABORT : Fld := ⟨0x1011, 0x100, 0, 8⟩
def CL_LEAD2_LWRAMP : Fld := ⟨0x1011, 0x100, 8, 6⟩
def CL_LEAD2_LWSUSP : Fld := ⟨0x1011, 0x100, 14, 4⟩
def CL_COUT_COUT : Fld := ⟨0x1012, 0x100, 0, 16⟩
def CL_LEADSTAT_CLASS : Fld := ⟨0x1013, 0x100, 0, 3⟩
def CL_LEADSTAT_ACTIVE : Fld := ⟨0x1013, 0x100, 3, 1⟩
def CL_LEADSTAT_SUSP : Fld := ⟨0x1013, 0x100, 4, 1⟩
def CL_LEADSTAT_INVALID : Fld := ⟨0x1013, 0x100, 5, 1⟩
def CL_LEADSTAT_ABRT : Fld := ⟨0x1013, 0x100, 6, 1⟩
def CL_LEADSTAT_LWFALSE : Fld := ⟨0x1013, 0x100, 8, 8⟩
def CL_LEADSTAT_LWOK : Fld := ⟨0x1013, 0x100, 16, 8⟩
def CL_INJ_EN : Fld := ⟨0x1014, 0x100, 0, 1⟩
def CL_INJ_MODE : Fld := ⟨0x1014, 0x100, 1, 1⟩
def CL_INJ_POINT : Fld := ⟨0x1014, 0x100, 2, 1⟩
def CL_INJ_PRBSLEN : Fld := ⟨0x1014, 0x100, 3, 4⟩
def CL_INJ_CHIP : Fld := ⟨0x1014, 0x100, 7, 8⟩
def CL_INJ_SIGA : Fld := ⟨0x1014, 0x100, 15, 2⟩
def CL_INJ_SIGB : Fld := ⟨0x1014, 0x100, 17, 2⟩
def CL_INJ_DONE : Fld := ⟨0x1014, 0x100, 19, 1⟩
def CL_INJ_ABORT : Fld := ⟨0x1014, 0x100, 20, 1⟩
def CL_INJ_DISTURB : Fld := ⟨0x1014, 0x100, 21, 1⟩
def CL_INJFREQ_FW : Fld := ⟨0x1015, 0x100, 0, 32⟩
def CL_INJAMP_AMP : Fld := ⟨0x1016, 0x100, 0, 16⟩
def CL_INJAMP_NCYC : Fld := ⟨0x1016, 0x100, 16, 16⟩
def CL_RESAI_L_RESAI_L : Fld := ⟨0x1018, 0x100, 0, 32⟩
def CL_RESAI_H_RESAI_H : Fld := ⟨0x1019, 0x100, 0, 32⟩
def CL_RESAQ_L_RESAQ_L : Fld := ⟨0x101A, 0x100, 0, 32⟩
def CL_RESAQ_H_RESAQ_H : Fld := ⟨0x101B, 0x100, 0, 32⟩
def CL_RESBI_L_RESBI_L : Fld := ⟨0x101C, 0x100, 0, 32⟩
def CL_RESBI_H_RESBI_H : Fld := ⟨0x101D, 0x100, 0, 32⟩
def CL_RESBQ_L_RESBQ_L : Fld := ⟨0x101E, 0x100, 0, 32⟩
def CL_RESBQ_H_RESBQ_H : Fld := ⟨0x101F, 0x100, 0, 32⟩
def CL_PHCNT_IADD : Fld := ⟨0x1020, 0x100, 0, 12⟩
def CL_PHCNT_IDROP : Fld := ⟨0x1020, 0x100, 12, 12⟩
def CL_PHCNT_MINPH : Fld := ⟨0x1020, 0x100, 24, 5⟩
def CL_PHCNT2_DROPT : Fld := ⟨0x1021, 0x100, 0, 8⟩
def CL_PHCNT2_APTHR : Fld := ⟨0x1021, 0x100, 8, 12⟩
def CL_PHCNT2_APHOLD : Fld := ⟨0x1021, 0x100, 20, 8⟩
def CL_BAL_KBAL : Fld := ⟨0x1022, 0x100, 0, 16⟩
def CL_BAL_TRIMMAX : Fld := ⟨0x1022, 0x100, 16, 8⟩
def CL_BAL_ROT : Fld := ⟨0x1022, 0x100, 24, 1⟩
def CL_ROT_ROTTHR : Fld := ⟨0x1023, 0x100, 0, 12⟩
def CL_ROT_PTR : Fld := ⟨0x1023, 0x100, 12, 4⟩
def CL_OL_OLIM : Fld := ⟨0x1024, 0x100, 0, 16⟩
def CL_OL_OLT : Fld := ⟨0x1024, 0x100, 16, 8⟩
def CL_PHFAIL_IOPEN : Fld := ⟨0x1025, 0x100, 0, 12⟩
def CL_PHFAIL_ORISE : Fld := ⟨0x1025, 0x100, 12, 8⟩
def CL_PHFAIL_MINAV : Fld := ⟨0x1025, 0x100, 20, 5⟩
def CL_PHFAIL_SNSDEV : Fld := ⟨0x1025, 0x100, 25, 7⟩
def CL_PHSTAT_ACTMASK : Fld := ⟨0x1026, 0x100, 0, 16⟩
def CL_PHSTAT_M : Fld := ⟨0x1026, 0x100, 16, 5⟩
def CL_PHSTAT_NAV : Fld := ⟨0x1026, 0x100, 21, 5⟩
def CL_PHSTAT_HOLDALL : Fld := ⟨0x1026, 0x100, 26, 1⟩
def CL_PHREM_REMMASK : Fld := ⟨0x1027, 0x100, 0, 16⟩
def CL_PHREM_LASTPH : Fld := ⟨0x1027, 0x100, 16, 6⟩
def CL_PHREM_CAUSE : Fld := ⟨0x1027, 0x100, 22, 3⟩
def CL_PHREM_NEWREM : Fld := ⟨0x1027, 0x100, 25, 1⟩
def CL_OLSTAT_OLIMEFF : Fld := ⟨0x1028, 0x100, 0, 16⟩
def CL_OLSTAT_CAPREQ : Fld := ⟨0x1028, 0x100, 16, 1⟩
def CL_OLSTAT_OVLD : Fld := ⟨0x1028, 0x100, 17, 1⟩
def CL_OLSTAT_PHLOSS : Fld := ⟨0x1028, 0x100, 18, 1⟩
def CL_BTRIM_TLO : Fld := ⟨0x1030, 0x100, 0, 16⟩
def CL_BTRIM_THI : Fld := ⟨0x1030, 0x100, 16, 16⟩
def CL_FSW_PERIOD : Fld := ⟨0x1040, 0x100, 0, 13⟩
def CL_FSW_DIRECT : Fld := ⟨0x1040, 0x100, 13, 1⟩
def CL_FSW_INTLV : Fld := ⟨0x1040, 0x100, 14, 1⟩
def CL_FSW_MINOFF : Fld := ⟨0x1040, 0x100, 16, 7⟩
def CL_FSW_MAXON : Fld := ⟨0x1040, 0x100, 23, 8⟩
def CL_PSCSTAT_RESULT : Fld := ⟨0x1041, 0x100, 0, 2⟩
def CL_PSCSTAT_PHASE : Fld := ⟨0x1041, 0x100, 2, 6⟩
def CL_PSCSTAT_TSENF : Fld := ⟨0x1041, 0x100, 8, 1⟩
def CL_PSCSTAT_REFUSED : Fld := ⟨0x1041, 0x100, 9, 1⟩
def CL_PSCSTAT_VMAX : Fld := ⟨0x1041, 0x100, 16, 16⟩
def CL_TLCFG_AVGK : Fld := ⟨0x1050, 0x100, 0, 5⟩
def CL_TLCFG_TRIMEN : Fld := ⟨0x1050, 0x100, 5, 1⟩
def CL_TLCFG_TRIMLIM : Fld := ⟨0x1050, 0x100, 6, 10⟩
def CL_TLCFG_RSEN : Fld := ⟨0x1050, 0x100, 16, 1⟩
def CL_TVOUT_TVOUT : Fld := ⟨0x1051, 0x100, 0, 32⟩
def CL_TIOUT_TIOUT : Fld := ⟨0x1052, 0x100, 0, 32⟩
def CL_TPOUT_TPOUT : Fld := ⟨0x1053, 0x100, 0, 32⟩
def CL_TTEMP_TTEMP : Fld := ⟨0x1054, 0x100, 0, 16⟩
def CL_TVMIN_TVMIN : Fld := ⟨0x1055, 0x100, 0, 32⟩
def CL_TVMAX_TVMAX : Fld := ⟨0x1056, 0x100, 0, 32⟩
def CL_TIMAX_TIMAX : Fld := ⟨0x1057, 0x100, 0, 32⟩
def CL_TPMAX_TPMAX : Fld := ⟨0x1058, 0x100, 0, 32⟩
def CL_KSCALE_KSCALE : Fld := ⟨0x1059, 0x100, 0, 16⟩
def CL_KSCALE_UNC : Fld := ⟨0x1059, 0x100, 16, 16⟩
def CL_CALSTAT_SETTLED : Fld := ⟨0x105A, 0x100, 0, 1⟩
def CL_CALSTAT_TRIMSAT : Fld := ⟨0x105A, 0x100, 1, 1⟩
def CL_CALSTAT_ACCNG : Fld := ⟨0x105A, 0x100, 2, 1⟩
def CL_CALSTAT_NPTS : Fld := ⟨0x105A, 0x100, 16, 16⟩
def CL_RSCFG_RSINT : Fld := ⟨0x105B, 0x100, 0, 8⟩
def CL_RSCFG_RSPER : Fld := ⟨0x105B, 0x100, 8, 8⟩
def CL_RSCFG_RSSET : Fld := ⟨0x105B, 0x100, 16, 6⟩
def CL_RSCFG_RSAVG : Fld := ⟨0x105B, 0x100, 22, 3⟩
def CL_RSCFG_RSTOL : Fld := ⟨0x105B, 0x100, 25, 7⟩
def CL_PRECV_PRECV : Fld := ⟨0x105C, 0x100, 0, 32⟩
def CL_WIN_UV : Fld := ⟨0x1060, 0x100, 0, 10⟩
def CL_WIN_OV : Fld := ⟨0x1060, 0x100, 10, 10⟩
def CL_WIN_VOFF : Fld := ⟨0x1060, 0x100, 20, 10⟩
def CL_WFLT_UVFLT : Fld := ⟨0x1061, 0x100, 0, 8⟩
def CL_WFLT_OVFLT : Fld := ⟨0x1061, 0x100, 8, 8⟩
def CL_WFLT_FOV : Fld := ⟨0x1061, 0x100, 16, 10⟩
def CL_WFLT_BLKX : Fld := ⟨0x1061, 0x100, 26, 6⟩
def CL_SEQC_OPOFF : Fld := ⟨0x1062, 0x100, 0, 1⟩
def CL_SEQC_SOFTOFF : Fld := ⟨0x1062, 0x100, 1, 1⟩
def CL_SEQC_SSRETRY : Fld := ⟨0x1062, 0x100, 2, 1⟩
def CL_SEQC_HICN : Fld := ⟨0x1062, 0x100, 3, 4⟩
def CL_SEQC_HICT : Fld := ⟨0x1062, 0x100, 7, 8⟩
def CL_SEQC_SSDET : Fld := ⟨0x1062, 0x100, 15, 8⟩
def CL_SEQC_SSMARG : Fld := ⟨0x1062, 0x100, 23, 8⟩
def CL_WSTAT_INWIN : Fld := ⟨0x1063, 0x100, 0, 1⟩
def CL_WSTAT_BLANKED : Fld := ⟨0x1063, 0x100, 1, 1⟩
def CL_WSTAT_UVF : Fld := ⟨0x1063, 0x100, 2, 1⟩
def CL_WSTAT_OVF : Fld := ⟨0x1063, 0x100, 3, 1⟩
def CL_WSTAT_FOVF : Fld := ⟨0x1063, 0x100, 4, 1⟩
def CL_WSTAT_SSSHORT : Fld := ⟨0x1063, 0x100, 5, 1⟩
def CL_WSTAT_HICCNT : Fld := ⟨0x1063, 0x100, 6, 4⟩
def CL_WSTAT_BELOW : Fld := ⟨0x1063, 0x100, 10, 1⟩
def CL_THCFG_THTHR : Fld := ⟨0x1070, 0x100, 0, 8⟩
def CL_THCFG_THSD : Fld := ⟨0x1070, 0x100, 8, 8⟩
def CL_THCFG_TREARM : Fld := ⟨0x1070, 0x100, 16, 8⟩
def CL_THCFG_TGAIN : Fld := ⟨0x1070, 0x100, 24, 8⟩
def CL_TSENCFG_TOFS : Fld := ⟨0x1071, 0x100, 0, 12⟩
def CL_TSENCFG_TSLP : Fld := ⟨0x1071, 0x100, 12, 8⟩
def CL_TSENCFG_FLTV : Fld := ⟨0x1071, 0x100, 20, 10⟩
def CL_TSENV_V : Fld := ⟨0x1072, 0x100, 0, 12⟩
def CL_TSENV_FLT : Fld := ⟨0x1072, 0x100, 12, 1⟩
def CL_TSENV_BAD : Fld := ⟨0x1072, 0x100, 13, 1⟩
def CL_LOSS0_K0 : Fld := ⟨0x1073, 0x100, 0, 16⟩
def CL_LOSS0_K1 : Fld := ⟨0x1073, 0x100, 16, 16⟩
def CL_LOSS1_K2 : Fld := ⟨0x1074, 0x100, 0, 16⟩
def CL_LOSS1_KD : Fld := ⟨0x1074, 0x100, 16, 8⟩
def CL_LOSS2_KS1 : Fld := ⟨0x1075, 0x100, 0, 16⟩
def CL_LOSS2_KS0 : Fld := ⟨0x1075, 0x100, 16, 16⟩
def CL_FOSTER_R : Fld := ⟨0x1076, 0x100, 0, 16⟩
def CL_FOSTER_TAU : Fld := ⟨0x1076, 0x100, 16, 16⟩
def CL_THSTAT_THOT : Fld := ⟨0x107A, 0x100, 0, 16⟩
def CL_THSTAT_HOTPH : Fld := ⟨0x107A, 0x100, 16, 6⟩
def CL_THSTAT_THROT : Fld := ⟨0x107A, 0x100, 22, 1⟩
def CL_THSTAT_TSD : Fld := ⟨0x107A, 0x100, 23, 1⟩
def CL_THSTAT_THROTF : Fld := ⟨0x107A, 0x100, 24, 1⟩
def CL_THSTAT_TSDF : Fld := ⟨0x107A, 0x100, 25, 1⟩
def CL_VIN_BASE : Fld := ⟨0x107B, 0x100, 0, 16⟩
def CL_VIN_VINSEL : Fld := ⟨0x107B, 0x100, 16, 2⟩
def CL_VIN_VINX : Fld := ⟨0x107B, 0x100, 18, 14⟩
def LE16_STAT_STATE : Fld := ⟨0x2000, 0x0, 0, 2⟩
def LE16_STAT_CL : Fld := ⟨0x2000, 0x0, 2, 4⟩
def LE16_STAT_CAUSE : Fld := ⟨0x2000, 0x0, 6, 3⟩
def LE16_STAT_OLDFRAME : Fld := ⟨0x2000, 0x0, 9, 1⟩
def LE16_STAT_MISSED : Fld := ⟨0x2000, 0x0, 10, 6⟩
def LE16_STAT_GAP : Fld := ⟨0x2000, 0x0, 16, 16⟩
def LE16_SEQ_SEQ : Fld := ⟨0x2001, 0x0, 0, 32⟩
def LE_PLCFG_PLERR : Fld := ⟨0x2002, 0x0, 0, 12⟩
def RG_CFG_UPSRC : Fld := ⟨0x2100, 0x40, 0, 5⟩
def RG_CFG_CLMASK : Fld := ⟨0x2100, 0x40, 16, 16⟩
def RG_BUD_BUD : Fld := ⟨0x2101, 0x40, 0, 16⟩
def RG_BUD_HBUD : Fld := ⟨0x2101, 0x40, 16, 16⟩
def RG_PWR_PWR : Fld := ⟨0x2102, 0x40, 0, 16⟩
def RG_CAPST_REQ : Fld := ⟨0x2103, 0x40, 0, 9⟩
def RG_CAPST_OVER : Fld := ⟨0x2103, 0x40, 9, 1⟩
def RG_CAPST_CAPF : Fld := ⟨0x2103, 0x40, 10, 1⟩
def RG_CAPST_SATF : Fld := ⟨0x2103, 0x40, 11, 1⟩
def RG_CAPC_CAPD0 : Fld := ⟨0x2104, 0x40, 0, 9⟩
def RG_CAPC_KUP : Fld := ⟨0x2104, 0x40, 9, 7⟩
def RG_CAPC_KDN : Fld := ⟨0x2104, 0x40, 16, 7⟩
def RG_CAPC_CAPSAT : Fld := ⟨0x2104, 0x40, 23, 8⟩
def SEQ_CFG_NSTEP : Fld := ⟨0x2200, 0x0, 0, 6⟩
def SEQ_CFG_TOFFMIN : Fld := ⟨0x2200, 0x0, 6, 8⟩
def SEQ_CFG_PGMASK : Fld := ⟨0x2200, 0x0, 16, 16⟩
def SEQ_SF_SFFLT : Fld := ⟨0x2201, 0x0, 0, 8⟩
def SEQ_SF_SFHOLD : Fld := ⟨0x2201, 0x0, 8, 8⟩
def SEQ_SF_SFSTUCK : Fld := ⟨0x2201, 0x0, 16, 8⟩
def SEQ_SF_SFSTART : Fld := ⟨0x2201, 0x0, 24, 1⟩
def SEQ_STAT_STEP : Fld := ⟨0x2202, 0x0, 0, 5⟩
def SEQ_STAT_DIR : Fld := ⟨0x2202, 0x0, 5, 1⟩
def SEQ_STAT_ACTIVE : Fld := ⟨0x2202, 0x0, 6, 1⟩
def SEQ_STAT_HIGHEST : Fld := ⟨0x2202, 0x0, 7, 5⟩
def SEQ_STAT_TOFORCED : Fld := ⟨0x2202, 0x0, 12, 1⟩
def SEQ_STAT_HELD : Fld := ⟨0x2202, 0x0, 13, 1⟩
def SEQ_STAT_OFFLAT : Fld := ⟨0x2202, 0x0, 14, 1⟩
def SEQ_STAT_UPFAIL : Fld := ⟨0x2202, 0x0, 15, 1⟩
def SEQ_STAT_PENDOFF : Fld := ⟨0x2202, 0x0, 16, 1⟩
def SEQ_STAT_PENDON : Fld := ⟨0x2202, 0x0, 17, 1⟩
def SEQ_STAT_SFLOW : Fld := ⟨0x2202, 0x0, 18, 1⟩
def SEQ_STAT_SFDRV : Fld := ⟨0x2202, 0x0, 19, 1⟩
def SEQ_STAT_SFSTK : Fld := ⟨0x2202, 0x0, 20, 1⟩
def SEQ_CTRL_CMD : Fld := ⟨0x2203, 0x0, 0, 8⟩
def SEQ_CTRL_CMD_REF : Fld := ⟨0x2203, 0x0, 8, 1⟩
def SEQ_CTRL_CONFIRM : Fld := ⟨0x2203, 0x0, 16, 16⟩
def SEQ_STEP_OBJ : Fld := ⟨0x2210, 0x1, 0, 3⟩
def SEQ_STEP_INDEX : Fld := ⟨0x2210, 0x1, 3, 4⟩
def SEQ_STEP_PGW : Fld := ⟨0x2210, 0x1, 7, 1⟩
def SEQ_STEP_PGSEL : Fld := ⟨0x2210, 0x1, 8, 3⟩
def SEQ_STEP_TOACT : Fld := ⟨0x2210, 0x1, 11, 1⟩
def SEQ_STEP_UPONLY : Fld := ⟨0x2210, 0x1, 12, 1⟩
def SEQ_STEP_RGTAG : Fld := ⟨0x2210, 0x1, 13, 4⟩
def SEQ_STEP_TOUT : Fld := ⟨0x2210, 0x1, 17, 14⟩
def FEED_CFG_ILIM : Fld := ⟨0x2400, 0x20, 0, 12⟩
def FEED_CFG_TFLT : Fld := ⟨0x2400, 0x20, 12, 9⟩
def FEED_CFG_FOXMUL : Fld := ⟨0x2400, 0x20, 21, 5⟩
def FEED_CFG_EN : Fld := ⟨0x2400, 0x20, 26, 1⟩
def FEED_WIN_UVF : Fld := ⟨0x2401, 0x20, 0, 10⟩
def FEED_WIN_UVR : Fld := ⟨0x2401, 0x20, 10, 10⟩
def FEED_WIN_OV : Fld := ⟨0x2401, 0x20, 20, 10⟩
def FEED_TIME_QUALT : Fld := ⟨0x2402, 0x20, 0, 8⟩
def FEED_TIME_INRSR : Fld := ⟨0x2402, 0x20, 8, 6⟩
def FEED_TIME_INRT : Fld := ⟨0x2402, 0x20, 14, 8⟩
def FEED_TIME_IREV : Fld := ⟨0x2402, 0x20, 22, 8⟩
def FEED_STAT_CONDUCT : Fld := ⟨0x2403, 0x20, 0, 1⟩
def FEED_STAT_QUAL : Fld := ⟨0x2403, 0x20, 1, 1⟩
def FEED_STAT_TRIPLAT : Fld := ⟨0x2403, 0x20, 2, 1⟩
def FEED_STAT_CAUSE : Fld := ⟨0x2403, 0x20, 3, 3⟩
def FEED_STAT_INLIM : Fld := ⟨0x2403, 0x20, 6, 1⟩
def FEED_STAT_UV : Fld := ⟨0x2403, 0x20, 7, 1⟩
def FEED_STAT_OV : Fld := ⟨0x2403, 0x20, 8, 1⟩
def FEED_STAT_REV : Fld := ⟨0x2403, 0x20, 9, 1⟩
def FEED_STAT_GATEF : Fld := ⟨0x2403, 0x20, 10, 1⟩
def FEED_CNT_TRIPS : Fld := ⟨0x2404, 0x20, 0, 16⟩
def FEED_CNT_XAWAY : Fld := ⟨0x2404, 0x20, 16, 16⟩
def INP_PRIO_P0 : Fld := ⟨0x2460, 0x0, 0, 2⟩
def INP_PRIO_P1 : Fld := ⟨0x2460, 0x0, 2, 2⟩
def INP_PRIO_P2 : Fld := ⟨0x2460, 0x0, 4, 2⟩
def INP_PRIO_PIN : Fld := ⟨0x2460, 0x0, 6, 2⟩
def INP_PRIO_RETT : Fld := ⟨0x2460, 0x0, 8, 8⟩
def INP_SEAT_SEATOK : Fld := ⟨0x2461, 0x0, 0, 1⟩
def INP_SEAT_SEAT1 : Fld := ⟨0x2461, 0x0, 1, 1⟩
def INP_SEAT_SEAT2 : Fld := ⟨0x2461, 0x0, 2, 1⟩
def INP_SEAT_RESEATPEND : Fld := ⟨0x2461, 0x0, 3, 1⟩
def INP_SEAT_UNSEATT : Fld := ⟨0x2461, 0x0, 8, 8⟩
def INP_RETRY_RETRYT : Fld := ⟨0x2462, 0x0, 0, 12⟩
def INP_RETRY_REMAIN : Fld := ⟨0x2462, 0x0, 16, 12⟩
def INP_RETRY_RUNNING : Fld := ⟨0x2462, 0x0, 28, 1⟩
def INP_CMD_CMD : Fld := ⟨0x2463, 0x0, 0, 8⟩
def INP_CMD_CONFIRM : Fld := ⟨0x2463, 0x0, 16, 16⟩
def INP_STAT_SEL : Fld := ⟨0x2464, 0x0, 0, 2⟩
def INP_STAT_XFER : Fld := ⟨0x2464, 0x0, 2, 1⟩
def INP_STAT_NOFEED : Fld := ⟨0x2464, 0x0, 3, 1⟩
def INP_STAT_BSTAGE : Fld := ⟨0x2464, 0x0, 4, 3⟩
def INP_STAT_B5LAT : Fld := ⟨0x2464, 0x0, 7, 1⟩
def INP_STAT_CMDREF : Fld := ⟨0x2464, 0x0, 8, 1⟩
def INP_STAT_VBUSQ : Fld := ⟨0x2464, 0x0, 9, 1⟩
def INP_STAT_LEAK : Fld := ⟨0x2464, 0x0, 10, 1⟩
def INP_STAT_LASTGAP : Fld := ⟨0x2464, 0x0, 16, 16⟩
def INP_XCNT_XCNT : Fld := ⟨0x2465, 0x0, 0, 32⟩
def INP_LAD_VTHR : Fld := ⟨0x2466, 0x1, 0, 10⟩
def INP_LAD_VHYS : Fld := ⟨0x2466, 0x1, 10, 6⟩
def INP_LAD_ETHR : Fld := ⟨0x2466, 0x1, 16, 16⟩
def INP_LADCFG_LADF : Fld := ⟨0x246B, 0x0, 0, 8⟩
def INP_LADCFG_SHEDMASK : Fld := ⟨0x246B, 0x0, 16, 16⟩
def INP_HOLDCAP_CHOLD : Fld := ⟨0x246C, 0x0, 0, 16⟩
def INP_HOLDCAP_VHMIN : Fld := ⟨0x246C, 0x0, 16, 10⟩
def INP_HOLDCAP_HSRC : Fld := ⟨0x246C, 0x0, 26, 1⟩
def INP_EHOLD_EHOLD : Fld := ⟨0x246D, 0x0, 0, 32⟩
def FEED_TCFG_RSH : Fld := ⟨0x2480, 0x10, 0, 16⟩
def FEED_TCFG_AVGK : Fld := ⟨0x2480, 0x10, 16, 5⟩
def FEED_TCFG_AUXSRC : Fld := ⟨0x2480, 0x10, 21, 2⟩
def FEED_TCFG_AZEN : Fld := ⟨0x2480, 0x10, 23, 1⟩
def FEED_TCFG_CLR : Fld := ⟨0x2480, 0x10, 24, 1⟩
def FEED_V_V : Fld := ⟨0x2481, 0x10, 0, 32⟩
def FEED_I_I : Fld := ⟨0x2482, 0x10, 0, 32⟩
def FEED_P_P : Fld := ⟨0x2483, 0x10, 0, 32⟩
def FEED_ELO_ELO : Fld := ⟨0x2484, 0x10, 0, 32⟩
def FEED_EHI_EHI : Fld := ⟨0x2485, 0x10, 0, 32⟩
def FEED_VMIN_VMIN : Fld := ⟨0x2486, 0x10, 0, 32⟩
def FEED_VMAX_VMAX : Fld := ⟨0x2487, 0x10, 0, 32⟩
def FEED_IMAX_IMAX : Fld := ⟨0x2488, 0x10, 0, 32⟩
def FEED_PMAX_PMAX : Fld := ⟨0x2489, 0x10, 0, 32⟩
def FEED_AZ_OFFSET : Fld := ⟨0x248A, 0x10, 0, 24⟩
def FEED_AZ_AZDONE : Fld := ⟨0x248A, 0x10, 24, 1⟩
def PREC_SNAP_SNAP : Fld := ⟨0x24C0, 0x2, 0, 32⟩
def PREC_SNAPT_OFS : Fld := ⟨0x24C1, 0x2, 0, 15⟩
def PREC_SNAPT_CH : Fld := ⟨0x24C1, 0x2, 16, 5⟩
def PREC_SNAPT_OVR : Fld := ⟨0x24C1, 0x2, 30, 1⟩
def PREC_SNAPT_VALID : Fld := ⟨0x24C1, 0x2, 31, 1⟩
def PREC_STAT_REFDIFF : Fld := ⟨0x24D0, 0x0, 0, 16⟩
def PREC_STAT_REFBAD : Fld := ⟨0x24D0, 0x0, 16, 1⟩
def PREC_STAT_REFDRIFT : Fld := ⟨0x24D0, 0x0, 17, 1⟩
def EB_CFG_EBTAU : Fld := ⟨0x24D1, 0x0, 0, 8⟩
def EB_CFG_EBMIN : Fld := ⟨0x24D1, 0x0, 8, 16⟩
def BAT_CFG_EN : Fld := ⟨0x2600, 0x40, 0, 1⟩
def BAT_CFG_TSRC : Fld := ⟨0x2600, 0x40, 1, 1⟩
def BAT_CFG_NCELL : Fld := ⟨0x2600, 0x40, 2, 5⟩
def BAT_CFG_QDES : Fld := ⟨0x2600, 0x40, 16, 16⟩
def BAT_VLIM_VEMPTY : Fld := ⟨0x2601, 0x40, 0, 12⟩
def BAT_VLIM_VCUT : Fld := ⟨0x2601, 0x40, 12, 12⟩
def BAT_VLIM_CONT : Fld := ⟨0x2601, 0x40, 24, 8⟩
def BAT_TOC_VTOC : Fld := ⟨0x2602, 0x40, 0, 12⟩
def BAT_TOC_ITERM : Fld := ⟨0x2602, 0x40, 12, 12⟩
def BAT_TOC_TOCT : Fld := ⟨0x2602, 0x40, 24, 8⟩
def BAT_RES_RESV : Fld := ⟨0x2603, 0x40, 0, 8⟩
def BAT_RES_SIGOFF : Fld := ⟨0x2603, 0x40, 8, 8⟩
def BAT_RES_ANCHT : Fld := ⟨0x2603, 0x40, 16, 12⟩
def BAT_STEP_ZSTEP : Fld := ⟨0x2604, 0x40, 0, 8⟩
def BAT_STEP_IREST : Fld := ⟨0x2604, 0x40, 8, 8⟩
def BAT_STEP_RESTT : Fld := ⟨0x2604, 0x40, 16, 8⟩
def BAT_TH_R25 : Fld := ⟨0x2605, 0x40, 0, 16⟩
def BAT_TH_BETA : Fld := ⟨0x2605, 0x40, 16, 16⟩
def BAT_TWIN_TCHGL : Fld := ⟨0x2606, 0x40, 0, 8⟩
def BAT_TWIN_TCHGH : Fld := ⟨0x2606, 0x40, 8, 8⟩
def BAT_TWIN_TDMAX : Fld := ⟨0x2606, 0x40, 16, 8⟩
def BAT_TWIN_TDEF : Fld := ⟨0x2606, 0x40, 24, 8⟩
def BAT_CTRL_REST : Fld := ⟨0x2607, 0x40, 0, 1⟩
def BAT_CTRL_UVCLR : Fld := ⟨0x2607, 0x40, 1, 1⟩
def BAT_CTRL_SNAP : Fld := ⟨0x2607, 0x40, 2, 1⟩
def BAT_CTRL_RESTORE : Fld := ⟨0x2607, 0x40, 3, 1⟩
def BAT_STAT_UNRESTORED : Fld := ⟨0x2608, 0x40, 0, 1⟩
def BAT_STAT_RESTREQ : Fld := ⟨0x2608, 0x40, 1, 1⟩
def BAT_STAT_RESTING : Fld := ⟨0x2608, 0x40, 2, 1⟩
def BAT_STAT_UVLAT : Fld := ⟨0x2608, 0x40, 3, 1⟩
def BAT_STAT_DISAGREE : Fld := ⟨0x2608, 0x40, 4, 1⟩
def BAT_STAT_VEMPTYF : Fld := ⟨0x2608, 0x40, 5, 1⟩
def BAT_STAT_PMLOST : Fld := ⟨0x2608, 0x40, 6, 1⟩
def BAT_STAT_THFLT : Fld := ⟨0x2608, 0x40, 7, 1⟩
def BAT_STAT_RESTREJ : Fld := ⟨0x2608, 0x40, 8, 3⟩
def BAT_STAT_LASTREF : Fld := ⟨0x2608, 0x40, 11, 2⟩
def BAT_STAT_REFAGE : Fld := ⟨0x2608, 0x40, 16, 16⟩
def BAT_SOC_SOCREP : Fld := ⟨0x2609, 0x40, 0, 16⟩
def BAT_SOC_SIGMA : Fld := ⟨0x2609, 0x40, 16, 16⟩
def BAT_CAP_Q : Fld := ⟨0x260A, 0x40, 0, 16⟩
def BAT_CAP_Z : Fld := ⟨0x260A, 0x40, 16, 16⟩
def BAT_IMP_R0 : Fld := ⟨0x260B, 0x40, 0, 16⟩
def BAT_IMP_R10 : Fld := ⟨0x260B, 0x40, 16, 16⟩
def BAT_ERES_ERES : Fld := ⟨0x260C, 0x40, 0, 32⟩
def BAT_TEMP_TB : Fld := ⟨0x260D, 0x40, 0, 16⟩
def BAT_TEMP_TCELL : Fld := ⟨0x260D, 0x40, 16, 16⟩
def BAT_CELL_VMIN : Fld := ⟨0x260E, 0x40, 0, 16⟩
def BAT_CELL_VMAX : Fld := ⟨0x260E, 0x40, 16, 16⟩
def BAT_LRN_ACC : Fld := ⟨0x260F, 0x40, 0, 16⟩
def BAT_LRN_REJ : Fld := ⟨0x260F, 0x40, 16, 8⟩
def BAT_LRN_LRNREJ : Fld := ⟨0x260F, 0x40, 24, 3⟩
def BAT_RC1_R : Fld := ⟨0x2610, 0x40, 0, 16⟩
def BAT_RC1_TAU : Fld := ⟨0x2610, 0x40, 16, 16⟩
def BAT_RC2_R : Fld := ⟨0x2611, 0x40, 0, 16⟩
def BAT_RC2_TAU : Fld := ⟨0x2611, 0x40, 16, 16⟩
def BAT_QZ_QZ : Fld := ⟨0x2612, 0x40, 0, 32⟩
def BAT_QV1_QV1 : Fld := ⟨0x2613, 0x40, 0, 32⟩
def BAT_QV2_QV2 : Fld := ⟨0x2614, 0x40, 0, 32⟩
def BAT_RV_RV : Fld := ⟨0x2615, 0x40, 0, 32⟩
def BAT_P0V_P0V : Fld := ⟨0x2616, 0x40, 0, 32⟩
def BAT_SBLK_W : Fld := ⟨0x2620, 0x40, 0, 32⟩
def BAT_DMCTRL_CMD : Fld := ⟨0x2780, 0x0, 0, 8⟩
def BAT_DMCTRL_CONFIRM : Fld := ⟨0x2780, 0x0, 16, 16⟩
def BAT_DMSTAT_DMFLAG : Fld := ⟨0x2781, 0x0, 0, 1⟩
def BAT_DMSTAT_DMHOLD : Fld := ⟨0x2781, 0x0, 1, 1⟩
def BAT_DMSTAT_WOKE : Fld := ⟨0x2781, 0x0, 2, 1⟩
def THM_BRD_BRD_BUD : Fld := ⟨0x2800, 0x0, 0, 16⟩
def THM_BRDSTAT_PWR : Fld := ⟨0x2801, 0x0, 0, 16⟩
def THM_BRDSTAT_REQ : Fld := ⟨0x2801, 0x0, 16, 9⟩
def THM_BRDSTAT_OVER : Fld := ⟨0x2801, 0x0, 25, 1⟩
def THM_RACK_RBUD : Fld := ⟨0x2802, 0x0, 0, 16⟩
def THM_RACK_RDENS : Fld := ⟨0x2802, 0x0, 16, 9⟩
def THM_RACK_RVALID : Fld := ⟨0x2802, 0x0, 25, 1⟩
def THM_CAPCFG_CAPD0 : Fld := ⟨0x2803, 0x0, 0, 9⟩
def THM_CAPCFG_KUP : Fld := ⟨0x2803, 0x0, 9, 7⟩
def THM_CAPCFG_KDN : Fld := ⟨0x2803, 0x0, 16, 7⟩
def THM_CAPCFG_CAPSAT : Fld := ⟨0x2803, 0x0, 23, 8⟩
def THM_CTRL_CMD : Fld := ⟨0x2804, 0x0, 0, 8⟩
def THM_CTRL_CL : Fld := ⟨0x2804, 0x0, 8, 4⟩
def THM_CTRL_CONFIRM : Fld := ⟨0x2804, 0x0, 16, 16⟩
def THM_TSD_TSDMASK : Fld := ⟨0x2805, 0x0, 0, 16⟩
def THM_TSD_CMD_REF : Fld := ⟨0x2805, 0x0, 16, 1⟩
def THM_TSDCNT_STORED : Fld := ⟨0x2806, 0x0, 0, 6⟩
def THM_TSDCNT_LOST : Fld := ⟨0x2806, 0x0, 16, 16⟩
def THR_CFG_EN : Fld := ⟨0x2810, 0x1, 0, 1⟩
def THR_CFG_KIND : Fld := ⟨0x2810, 0x1, 1, 1⟩
def THR_CFG_TARGET : Fld := ⟨0x2810, 0x1, 2, 4⟩
def THR_CFG_PW : Fld := ⟨0x2810, 0x1, 6, 10⟩
def THR_CFG_DMAX : Fld := ⟨0x2810, 0x1, 16, 9⟩
def THR_DEN_D : Fld := ⟨0x2818, 0x1, 0, 9⟩
def THR_DEN_SRC : Fld := ⟨0x2818, 0x1, 9, 3⟩
def THR_DEN_MAN : Fld := ⟨0x2818, 0x1, 16, 9⟩
def TM_CTRL_RUN : Fld := ⟨0x2A00, 0x8, 0, 1⟩
def TM_CTRL_LINK : Fld := ⟨0x2A00, 0x8, 1, 1⟩
def TM_CTRL_FRZ : Fld := ⟨0x2A00, 0x8, 2, 1⟩
def TM_CTRL_GATE_EN : Fld := ⟨0x2A00, 0x8, 3, 1⟩
def TM_CTRL_GATE_LVL : Fld := ⟨0x2A00, 0x8, 4, 1⟩
def TM_CTRL_GATE_SRC : Fld := ⟨0x2A00, 0x8, 5, 7⟩
def TM_CTRL_LATEACT : Fld := ⟨0x2A00, 0x8, 12, 2⟩
def TM_CTRL_RELEASE : Fld := ⟨0x2A00, 0x8, 14, 1⟩
def TM_CTRL_LATEWIN : Fld := ⟨0x2A00, 0x8, 16, 16⟩
def TM_CNT_CNT : Fld := ⟨0x2A01, 0x8, 0, 32⟩
def TM_CMPA_CMPA : Fld := ⟨0x2A02, 0x8, 0, 32⟩
def TM_CMPB_CMPB : Fld := ⟨0x2A03, 0x8, 0, 32⟩
def TM_ACT_ACTA : Fld := ⟨0x2A04, 0x8, 0, 4⟩
def TM_ACT_TGTA : Fld := ⟨0x2A04, 0x8, 4, 6⟩
def TM_ACT_ACTB : Fld := ⟨0x2A04, 0x8, 16, 4⟩
def TM_ACT_TGTB : Fld := ⟨0x2A04, 0x8, 20, 6⟩
def TM_GSTART_GSTART : Fld := ⟨0x2B00, 0x0, 0, 32⟩
def TM_GSTOP_GSTOP : Fld := ⟨0x2B01, 0x0, 0, 32⟩
def TM_GCLR_GCLR : Fld := ⟨0x2B02, 0x0, 0, 32⟩
def TM_MATCHA_MATCHA : Fld := ⟨0x2B03, 0x0, 0, 32⟩
def TM_MATCHB_MATCHB : Fld := ⟨0x2B04, 0x0, 0, 32⟩
def TM_LATE_LATE : Fld := ⟨0x2B05, 0x0, 0, 32⟩
def CAP_CFG_SEN : Fld := ⟨0x2C00, 0x0, 0, 1⟩
def CAP_CFG_PKTALERT : Fld := ⟨0x2C00, 0x0, 1, 1⟩
def CAP_CFG_PKTMAX : Fld := ⟨0x2C00, 0x0, 2, 10⟩
def CAP_CFG_TAILG : Fld := ⟨0x2C00, 0x0, 12, 8⟩
def CAP_FSTAT_PKT_WAIT : Fld := ⟨0x2C01, 0x0, 0, 16⟩
def CAP_FSTAT_FULL : Fld := ⟨0x2C01, 0x0, 16, 1⟩
def CAP_FSTAT_LASTEM : Fld := ⟨0x2C01, 0x0, 17, 1⟩
def CAP_FSTAT_PKTF : Fld := ⟨0x2C01, 0x0, 18, 1⟩
def CAP_FSTAT_UNDER : Fld := ⟨0x2C01, 0x0, 19, 1⟩
def CAP_FSTAT_FECC : Fld := ⟨0x2C01, 0x0, 20, 1⟩
def CAP_FSTAT_DROPF : Fld := ⟨0x2C01, 0x0, 21, 1⟩
def CAP_FSTAT_CFGREF : Fld := ⟨0x2C01, 0x0, 22, 1⟩
def CAP_FSTAT_CMD_REF : Fld := ⟨0x2C01, 0x0, 23, 1⟩
def CAP_FLEVEL_WORDS : Fld := ⟨0x2C02, 0x0, 0, 17⟩
def CAP_FLEVEL_FECCSEQ : Fld := ⟨0x2C02, 0x0, 20, 12⟩
def CAP_FCTRL_CMD : Fld := ⟨0x2C03, 0x0, 0, 8⟩
def CAP_FIFOD_FIFOD : Fld := ⟨0x2C04, 0x0, 0, 32⟩
def CAP_TRIG0_TRIG0 : Fld := ⟨0x2C05, 0x0, 0, 32⟩
def CAP_TRIG1_TRIG1 : Fld := ⟨0x2C06, 0x0, 0, 32⟩
def CAP_SREQ0_SREQ0 : Fld := ⟨0x2C07, 0x0, 0, 32⟩
def CAP_SREQ1_SREQ1 : Fld := ⟨0x2C08, 0x0, 0, 32⟩
def CAP_DIAG_WIDX : Fld := ⟨0x2C09, 0x0, 0, 14⟩
def CAP_DIAG_WRAP : Fld := ⟨0x2C09, 0x0, 14, 1⟩
def CAP_DIAGA_RIDX : Fld := ⟨0x2C0A, 0x0, 0, 14⟩
def CAP_DIAGD_DIAGD : Fld := ⟨0x2C0B, 0x0, 0, 32⟩
def CAP_TIMEL_TIMEL : Fld := ⟨0x2C0C, 0x0, 0, 32⟩
def CAP_TIMEH_TIMEH : Fld := ⟨0x2C0D, 0x0, 0, 32⟩
def CAP_LOAD_RATE : Fld := ⟨0x2C0E, 0x0, 0, 20⟩
def CH_DROP_DROP : Fld := ⟨0x2C40, 0x1, 0, 32⟩
def CH_SRC_CLASS : Fld := ⟨0x2D00, 0x4, 0, 4⟩
def CH_SRC_INDEX : Fld := ⟨0x2D00, 0x4, 4, 6⟩
def CH_SRC_SHIFT : Fld := ⟨0x2D00, 0x4, 10, 5⟩
def CH_CFG_MODE : Fld := ⟨0x2D01, 0x4, 0, 2⟩
def CH_CFG_DEC : Fld := ⟨0x2D01, 0x4, 2, 16⟩
def CH_CFG_AVG : Fld := ⟨0x2D01, 0x4, 18, 1⟩
def CH_CFG_P2 : Fld := ⟨0x2D01, 0x4, 19, 1⟩
def CH_CFG_Q : Fld := ⟨0x2D01, 0x4, 20, 3⟩
def CH_CFG_TAILT : Fld := ⟨0x2D01, 0x4, 23, 8⟩
def CH_LEN_LEN : Fld := ⟨0x2D02, 0x4, 0, 16⟩
def CH_STAT_RUN : Fld := ⟨0x2D03, 0x4, 0, 1⟩
def CH_STAT_WAIT : Fld := ⟨0x2D03, 0x4, 1, 1⟩
def CH_STAT_DONE : Fld := ⟨0x2D03, 0x4, 2, 1⟩
def CH_STAT_GAPF : Fld := ⟨0x2D03, 0x4, 3, 1⟩
def CH_STAT_CFGREF : Fld := ⟨0x2D03, 0x4, 4, 1⟩
def CH_STAT_FILL : Fld := ⟨0x2D03, 0x4, 16, 11⟩
def OWL_STAT_NEXT : Fld := ⟨0x2E00, 0x0, 0, 13⟩
def OWL_STAT_FULL : Fld := ⟨0x2E00, 0x0, 13, 1⟩
def OWL_STAT_OVFW : Fld := ⟨0x2E00, 0x0, 14, 1⟩
def OWL_STAT_CLRBUSY : Fld := ⟨0x2E00, 0x0, 15, 1⟩
def OWL_STAT_CMD_REF : Fld := ⟨0x2E00, 0x0, 16, 1⟩
def OWL_STAT_TOKFAIL : Fld := ⟨0x2E00, 0x0, 17, 1⟩
def OWL_LOST_EVENTS : Fld := ⟨0x2E01, 0x0, 0, 24⟩
def OWL_LOST_SNAPS : Fld := ⟨0x2E01, 0x0, 24, 8⟩
def OWL_SEQ_SEQ : Fld := ⟨0x2E02, 0x0, 0, 32⟩
def OWL_IDX_IDX : Fld := ⟨0x2E03, 0x0, 0, 12⟩
def OWL_IDX_STATE : Fld := ⟨0x2E03, 0x0, 12, 2⟩
def OWL_CTRL_CMD : Fld := ⟨0x2E04, 0x0, 0, 8⟩
def OWL_CTRL_CONFIRM : Fld := ⟨0x2E04, 0x0, 16, 16⟩
def OWL_CLRCNT_CLRCNT : Fld := ⟨0x2E05, 0x0, 0, 32⟩
def OWL_SNAPCFG_POST : Fld := ⟨0x2E06, 0x0, 0, 8⟩
def OWL_SNAPCFG_AUTO : Fld := ⟨0x2E06, 0x0, 8, 1⟩
def OWL_SNAPST_USED : Fld := ⟨0x2E07, 0x0, 0, 6⟩
def OWL_SNAPST_BUSY : Fld := ⟨0x2E07, 0x0, 6, 1⟩
def OWL_CLRTOK_CLRTOK : Fld := ⟨0x2E08, 0x1, 0, 32⟩
def OWL_SNAPA_SNAP : Fld := ⟨0x2E0C, 0x0, 0, 5⟩
def OWL_SNAPA_WORD : Fld := ⟨0x2E0C, 0x0, 5, 10⟩
def OWL_SNAPD_SNAPD : Fld := ⟨0x2E0D, 0x0, 0, 32⟩
def OWL_MSL_MSL : Fld := ⟨0x2E0E, 0x0, 0, 32⟩
def OWL_MSH_MSH : Fld := ⟨0x2E0F, 0x0, 0, 26⟩
def OWL_REC_REC : Fld := ⟨0x2E10, 0x1, 0, 32⟩
def OWL_PCYC_PCYC : Fld := ⟨0x2E20, 0x0, 0, 32⟩
def FLD_CFG_SPEED : Fld := ⟨0x3000, 0x10, 0, 2⟩
def FLD_CFG_EN : Fld := ⟨0x3000, 0x10, 2, 1⟩
def FLD_STAT_BUSY : Fld := ⟨0x3001, 0x10, 0, 1⟩
def FLD_STAT_PWROFF : Fld := ⟨0x3001, 0x10, 1, 1⟩
def FLD_STAT_DISABLED : Fld := ⟨0x3001, 0x10, 2, 1⟩
def FLD_STAT_ARBF : Fld := ⟨0x3001, 0x10, 3, 1⟩
def FLD_STAT_NACKF : Fld := ⟨0x3001, 0x10, 4, 1⟩
def FLD_STAT_HANGF : Fld := ⟨0x3001, 0x10, 5, 1⟩
def FLD_STAT_STALEF : Fld := ⟨0x3001, 0x10, 6, 1⟩
def FLD_STAT_LASTADDR : Fld := ⟨0x3001, 0x10, 16, 7⟩
def FLD_CNT_ARBLOST : Fld := ⟨0x3002, 0x10, 0, 8⟩
def FLD_CNT_ARBFAIL : Fld := ⟨0x3002, 0x10, 8, 8⟩
def FLD_CNT_NACK : Fld := ⟨0x3002, 0x10, 16, 8⟩
def FLD_CNT_HANGS : Fld := ⟨0x3002, 0x10, 24, 8⟩
def FLD_CTRL_CMD : Fld := ⟨0x3003, 0x10, 0, 8⟩
def FLD_CTRL_CONFIRM : Fld := ⟨0x3003, 0x10, 16, 16⟩
def RKM_CFG_RATING : Fld := ⟨0x3040, 0x4, 0, 16⟩
def RKM_CFG_EN : Fld := ⟨0x3040, 0x4, 16, 1⟩
def RKM_CFG_PGSRC : Fld := ⟨0x3040, 0x4, 17, 4⟩
def RKM_CFG_SEG : Fld := ⟨0x3040, 0x4, 21, 1⟩
def RKM_V_V : Fld := ⟨0x3041, 0x4, 0, 32⟩
def RKM_I_I : Fld := ⟨0x3042, 0x4, 0, 32⟩
def RKM_STAT_ONLINE : Fld := ⟨0x3043, 0x4, 0, 1⟩
def RKM_STAT_PG : Fld := ⟨0x3043, 0x4, 1, 1⟩
def RKM_STAT_STALE : Fld := ⟨0x3043, 0x4, 2, 1⟩
def RKM_STAT_LOSTF : Fld := ⟨0x3043, 0x4, 3, 1⟩
def RKM_STAT_STATUS : Fld := ⟨0x3043, 0x4, 16, 16⟩
def LNK_CFG_EN : Fld := ⟨0x3100, 0x0, 0, 1⟩
def LNK_CFG_MCAP : Fld := ⟨0x3100, 0x0, 1, 1⟩
def LNK_CFG_MPRI : Fld := ⟨0x3100, 0x0, 2, 6⟩
def LNK_CFG_PROTMAX : Fld := ⟨0x3100, 0x0, 8, 2⟩
def LNK_STAT_STATE : Fld := ⟨0x3101, 0x0, 0, 3⟩
def LNK_STAT_ADDR : Fld := ⟨0x3101, 0x0, 3, 6⟩
def LNK_STAT_NODES : Fld := ⟨0x3101, 0x0, 9, 7⟩
def LNK_STAT_PROT : Fld := ⟨0x3101, 0x0, 16, 2⟩
def LNK_STAT_CLOSED : Fld := ⟨0x3101, 0x0, 18, 1⟩
def LNK_STAT_MLOST : Fld := ⟨0x3101, 0x0, 19, 1⟩
def LNK_STAT_BREAKF : Fld := ⟨0x3101, 0x0, 20, 1⟩
def LNK_STAT_BRKPOS : Fld := ⟨0x3101, 0x0, 21, 6⟩
def LNK_STAT_RORDER : Fld := ⟨0x3101, 0x0, 27, 2⟩
def LNK_STAT_ADDRV : Fld := ⟨0x3101, 0x0, 29, 1⟩
def LNK_STAT_BRKV : Fld := ⟨0x3101, 0x0, 30, 1⟩
def LNK_ERR_CRC : Fld := ⟨0x3102, 0x0, 0, 16⟩
def LNK_ERR_CODEV : Fld := ⟨0x3102, 0x0, 16, 16⟩
def LNK_TOFS_TOFS : Fld := ⟨0x3103, 0x0, 0, 32⟩
def LNK_ORDER_ORDER : Fld := ⟨0x3104, 0x0, 0, 2⟩
def LNK_ORDER_FIRST : Fld := ⟨0x3104, 0x0, 2, 6⟩
def LNK_ORDER_LAST : Fld := ⟨0x3104, 0x0, 8, 6⟩
def LNK_ORDER_RDENS : Fld := ⟨0x3104, 0x0, 14, 9⟩
def LNK_RKCFG_RKMARG : Fld := ⟨0x3105, 0x0, 0, 8⟩
def LNK_RKCFG_BATALLOW : Fld := ⟨0x3105, 0x0, 8, 16⟩
def LNK_RKBUD_RB : Fld := ⟨0x3106, 0x0, 0, 16⟩
def LNK_RKBUD_ONLINE : Fld := ⟨0x3106, 0x0, 16, 4⟩
def LNK_RKVSET_RKVSET : Fld := ⟨0x3107, 0x0, 0, 16⟩
def HST_CFG_PECREQ : Fld := ⟨0x3200, 0x0, 0, 1⟩
def HST_CFG_WINC : Fld := ⟨0x3200, 0x0, 1, 1⟩
def HST_STAT_CML : Fld := ⟨0x3201, 0x0, 0, 8⟩
def HST_STAT_AWAKE : Fld := ⟨0x3201, 0x0, 8, 1⟩
def HST_STAT_ALERTL : Fld := ⟨0x3201, 0x0, 9, 1⟩
def HST_REF0_CODE : Fld := ⟨0x3202, 0x0, 0, 4⟩
def HST_REF0_ADDR : Fld := ⟨0x3202, 0x0, 4, 16⟩
def HST_REF1_CODE : Fld := ⟨0x3203, 0x0, 0, 4⟩
def HST_REF1_ADDR : Fld := ⟨0x3203, 0x0, 4, 16⟩
def HST_ALERT_SUP : Fld := ⟨0x3204, 0x0, 0, 1⟩
def HST_ALERT_PKT : Fld := ⟨0x3204, 0x0, 1, 1⟩
def HST_ALERT_TMR : Fld := ⟨0x3204, 0x0, 2, 1⟩
def HST_ALERT_PEND : Fld := ⟨0x3204, 0x0, 3, 1⟩
def HST_WADDR_ADDR : Fld := ⟨0x3205, 0x0, 0, 16⟩
def HST_ERRCNT_PEC : Fld := ⟨0x3206, 0x0, 0, 8⟩
def HST_ERRCNT_SCRC : Fld := ⟨0x3206, 0x0, 8, 8⟩
def HST_ERRCNT_SCLTO : Fld := ⟨0x3206, 0x0, 16, 8⟩
def HST_ERRCNT_SDAREL : Fld := ⟨0x3206, 0x0, 24, 8⟩
def HST_PSTAT_VOUT : Fld := ⟨0x3210, 0x1, 0, 8⟩
def HST_PSTAT_IOUT : Fld := ⟨0x3210, 0x1, 8, 8⟩
def HST_PSTAT_INPUT : Fld := ⟨0x3210, 0x1, 16, 8⟩
def HST_PSTAT_TEMP : Fld := ⟨0x3210, 0x1, 24, 8⟩
def IMG_BOOTSTAT_SLOT : Fld := ⟨0x3300, 0x0, 0, 2⟩
def IMG_BOOTSTAT_FALLBACK : Fld := ⟨0x3300, 0x0, 2, 1⟩
def IMG_BOOTSTAT_NOIMG : Fld := ⟨0x3300, 0x0, 3, 1⟩
def IMG_BOOTSTAT_ERR_A : Fld := ⟨0x3300, 0x0, 4, 8⟩
def IMG_BOOTSTAT_ERR_B : Fld := ⟨0x3300, 0x0, 12, 8⟩
def IMG_BOOTSTAT_RETRIES : Fld := ⟨0x3300, 0x0, 20, 4⟩
def IMG_BOOTSTAT_HOTWAIT : Fld := ⟨0x3300, 0x0, 24, 1⟩
def IMG_BOOTSTAT_DEBUG_EN : Fld := ⟨0x3300, 0x0, 25, 1⟩
def IMG_INFO_OVL_FMT : Fld := ⟨0x3301, 0x0, 0, 16⟩
def IMG_INFO_SECVER : Fld := ⟨0x3301, 0x0, 16, 8⟩
def IMG_INFO_ARBCNT : Fld := ⟨0x3301, 0x0, 24, 8⟩
def IMG_BUILD_BUILD_ID : Fld := ⟨0x3302, 0x0, 0, 32⟩
def IMG_FLASH_JEDEC : Fld := ⟨0x3303, 0x0, 0, 24⟩
def IMG_FLASH_DUMMY : Fld := ⟨0x3303, 0x0, 24, 4⟩
def IMG_FLASH_DENS : Fld := ⟨0x3303, 0x0, 28, 4⟩
def IMG_OVLSTAT_BANK : Fld := ⟨0x3304, 0x0, 0, 1⟩
def IMG_OVLSTAT_NONE : Fld := ⟨0x3304, 0x0, 1, 1⟩
def IMG_OVLSTAT_MIGRATED : Fld := ⟨0x3304, 0x0, 2, 1⟩
def IMG_OVLSTAT_MIGR_PEND : Fld := ⟨0x3304, 0x0, 3, 1⟩
def IMG_OVLSTAT_OVL_HASH : Fld := ⟨0x3304, 0x0, 4, 1⟩
def IMG_OVLSTAT_OVL_NEWER : Fld := ⟨0x3304, 0x0, 5, 1⟩
def IMG_OVLSTAT_OVL_XFAIL : Fld := ⟨0x3304, 0x0, 6, 1⟩
def IMG_OVLSTAT_OVL_TORN : Fld := ⟨0x3304, 0x0, 7, 1⟩
def IMG_OVLSTAT_SKIPCNT : Fld := ⟨0x3304, 0x0, 8, 12⟩
def IMG_OVLSEQ_SEQ : Fld := ⟨0x3305, 0x0, 0, 32⟩
def IMG_RESSTAT_BUSY : Fld := ⟨0x3306, 0x0, 0, 1⟩
def IMG_RESSTAT_CLASS : Fld := ⟨0x3306, 0x0, 4, 4⟩
def IMG_RESSTAT_INDEX : Fld := ⟨0x3306, 0x0, 8, 10⟩
def IMG_RESSTAT_OWNER : Fld := ⟨0x3306, 0x0, 18, 8⟩
def UPD_STAT_SESSION : Fld := ⟨0x3310, 0x0, 0, 2⟩
def UPD_STAT_ACTIVE : Fld := ⟨0x3310, 0x0, 2, 1⟩
def UPD_STAT_PEND : Fld := ⟨0x3310, 0x0, 3, 1⟩
def UPD_STAT_TRIAL : Fld := ⟨0x3310, 0x0, 4, 1⟩
def UPD_STAT_TRIES : Fld := ⟨0x3310, 0x0, 5, 2⟩
def UPD_STAT_RESULT : Fld := ⟨0x3310, 0x0, 7, 8⟩
def UPD_STAT_CMD_REF : Fld := ⟨0x3310, 0x0, 15, 1⟩
def UPD_BLOCKS_DONE : Fld := ⟨0x3311, 0x0, 0, 11⟩
def UPD_BLOCKS_FAILED : Fld := ⟨0x3311, 0x0, 16, 16⟩
def UPD_TRIALT_T : Fld := ⟨0x3312, 0x0, 0, 12⟩
def UPD_CTRL_CMD : Fld := ⟨0x3313, 0x0, 0, 8⟩
def UPD_CTRL_CONFIRM : Fld := ⟨0x3313, 0x0, 16, 16⟩
def UPD_BOOTREC_PRIOR : Fld := ⟨0x3314, 0x0, 0, 1⟩
def UPD_BOOTREC_PVALID : Fld := ⟨0x3314, 0x0, 1, 1⟩
def UPD_BOOTREC_PSLOT : Fld := ⟨0x3314, 0x0, 2, 1⟩
def UPD_BOOTREC_ARBCNT : Fld := ⟨0x3314, 0x0, 3, 8⟩
def UPD_KEYSTAT_ENROLLED : Fld := ⟨0x3315, 0x0, 0, 4⟩
def UPD_KEYSTAT_REVOKED : Fld := ⟨0x3315, 0x0, 4, 4⟩
def UPD_KEYEN_W : Fld := ⟨0x3320, 0x1, 0, 32⟩
def UPD_KEYREV_REV : Fld := ⟨0x3338, 0x0, 1, 3⟩
def GT_T : Fld := ⟨0x4000, 0x100, 0, 16⟩
def OCVT_T : Fld := ⟨0x5000, 0x100, 0, 16⟩
def OCVV_V : Fld := ⟨0x5008, 0x100, 0, 16⟩
def REACT_LOG : Fld := ⟨0x5800, 0x1, 0, 1⟩
def REACT_ALERT : Fld := ⟨0x5800, 0x1, 1, 1⟩
def REACT_CAP : Fld := ⟨0x5800, 0x1, 2, 1⟩
def REACT_SHED : Fld := ⟨0x5800, 0x1, 3, 1⟩
def REACT_CLOFF : Fld := ⟨0x5800, 0x1, 4, 1⟩
def REACT_SEQOFF : Fld := ⟨0x5800, 0x1, 5, 1⟩
def REACT_SAFE : Fld := ⟨0x5800, 0x1, 6, 1⟩
def REACT_SYSFLT : Fld := ⟨0x5800, 0x1, 7, 1⟩
def REACT_PKG : Fld := ⟨0x5800, 0x1, 8, 1⟩
def SUPV_FTT_T : Fld := ⟨0x5B00, 0x1, 0, 32⟩
def POLL1_A_ADDR : Fld := ⟨0x5E00, 0x2, 0, 7⟩
def POLL1_A_EN : Fld := ⟨0x5E00, 0x2, 7, 1⟩
def POLL1_A_KIND : Fld := ⟨0x5E00, 0x2, 8, 4⟩
def POLL1_A_PROTO : Fld := ⟨0x5E00, 0x2, 12, 4⟩
def POLL1_A_CMD : Fld := ⟨0x5E00, 0x2, 16, 8⟩
def POLL1_A_PERIOD : Fld := ⟨0x5E00, 0x2, 24, 8⟩
def POLL1_B_COUNT : Fld := ⟨0x5E01, 0x2, 0, 8⟩
def POLL1_B_INST : Fld := ⟨0x5E01, 0x2, 8, 4⟩
def POLL1_B_PEC : Fld := ⟨0x5E01, 0x2, 12, 1⟩
def POLL1_B_FIRST : Fld := ⟨0x5E01, 0x2, 13, 5⟩
def POLL1_D_DATA : Fld := ⟨0x5E80, 0x2, 0, 32⟩
def POLL1_R_AGE : Fld := ⟨0x5E81, 0x2, 0, 16⟩
def POLL1_R_RES : Fld := ⟨0x5E81, 0x2, 16, 4⟩
def POLL2_A_ADDR : Fld := ⟨0x5F00, 0x2, 0, 7⟩
def POLL2_A_EN : Fld := ⟨0x5F00, 0x2, 7, 1⟩
def POLL2_A_KIND : Fld := ⟨0x5F00, 0x2, 8, 4⟩
def POLL2_A_PROTO : Fld := ⟨0x5F00, 0x2, 12, 4⟩
def POLL2_A_CMD : Fld := ⟨0x5F00, 0x2, 16, 8⟩
def POLL2_A_PERIOD : Fld := ⟨0x5F00, 0x2, 24, 8⟩
def POLL2_B_COUNT : Fld := ⟨0x5F01, 0x2, 0, 8⟩
def POLL2_B_INST : Fld := ⟨0x5F01, 0x2, 8, 4⟩
def POLL2_B_PEC : Fld := ⟨0x5F01, 0x2, 12, 1⟩
def POLL2_B_FIRST : Fld := ⟨0x5F01, 0x2, 13, 5⟩
def POLL2_D_DATA : Fld := ⟨0x5F80, 0x2, 0, 32⟩
def POLL2_R_AGE : Fld := ⟨0x5F81, 0x2, 0, 16⟩
def POLL2_R_RES : Fld := ⟨0x5F81, 0x2, 16, 4⟩
def NODE_A_W : Fld := ⟨0x6000, 0x2, 0, 8⟩
def NODE_A_REACH : Fld := ⟨0x6000, 0x2, 8, 1⟩
def NODE_A_RPTD : Fld := ⟨0x6000, 0x2, 9, 1⟩
def NODE_A_RBUD : Fld := ⟨0x6000, 0x2, 16, 16⟩
def NODE_B_PWR : Fld := ⟨0x6001, 0x2, 0, 16⟩
def NODE_B_LBUD : Fld := ⟨0x6001, 0x2, 16, 16⟩

end F

/-- Rows of the Dev block (R409). -/
def mapDev : List RegRow := [
  ⟨0x0000, 0x0, 1, 1, [⟨F.DEV_ID_ID, .ro, 0x76480002, 0, 4294967295, false⟩]⟩,
  ⟨0x0001, 0x0, 1, 1, [⟨F.DEV_STATE_STATE, .ro, 0x1, 0, 15, false⟩, ⟨F.DEV_STATE_HOLD, .ro, 0x0, 0, 1, false⟩, ⟨F.DEV_STATE_ONREQ, .ro, 0x0, 0, 1, false⟩, ⟨F.DEV_STATE_ROLE, .ro, 0x0, 0, 1, true⟩, ⟨F.DEV_STATE_BLEVEL, .ro, 0x0, 0, 3, true⟩, ⟨F.DEV_STATE_CMD_REF, .w1c, 0x0, 0, 1, false⟩]⟩,
  ⟨0x0002, 0x0, 1, 1, [⟨F.DEV_ONOFF_CFG_EN_USE, .rws, 0x1, 0, 1, false⟩, ⟨F.DEV_ONOFF_CFG_OPR_USE, .rws, 0x1, 0, 1, false⟩, ⟨F.DEV_ONOFF_CFG_RING_USE, .rws, 0x1, 0, 1, false⟩, ⟨F.DEV_ONOFF_CFG_SEAT_USE, .rws, 0x1, 0, 1, false⟩]⟩,
  ⟨0x0004, 0x0, 1, 1, [⟨F.DEV_CTRL_CMD, .wo, 0x0, 0, 255, false⟩, ⟨F.DEV_CTRL_CONFIRM, .wo, 0x0, 0, 65535, false⟩]⟩,
  ⟨0x0006, 0x0, 1, 1, [⟨F.DEV_TEMP_TCTL, .ro, 0x0, 0, 65535, false⟩, ⟨F.DEV_TEMP_TSNS, .ro, 0x0, 0, 65535, false⟩]⟩,
  ⟨0x0008, 0x0, 1, 1, [⟨F.DEV_ECC_CORR, .rc, 0x0, 0, 65535, false⟩, ⟨F.DEV_ECC_UNCORR, .rc, 0x0, 0, 65535, false⟩]⟩,
  ⟨0x0010, 0x0, 1, 1, [⟨F.TXN_CTRL_CMD, .wo, 0x0, 0, 255, false⟩, ⟨F.TXN_CTRL_TOKEN, .wo, 0x0, 0, 255, false⟩]⟩,
  ⟨0x0011, 0x0, 1, 1, [⟨F.TXN_STATUS_STATE, .ro, 0x0, 0, 3, false⟩, ⟨F.TXN_STATUS_PORT, .ro, 0x0, 0, 1, false⟩, ⟨F.TXN_STATUS_OVF, .ro, 0x0, 0, 1, false⟩, ⟨F.TXN_STATUS_TOKEN, .ro, 0x0, 0, 255, false⟩, ⟨F.TXN_STATUS_COUNT, .ro, 0x0, 0, 511, false⟩, ⟨F.TXN_STATUS_RESULT, .ro, 0x0, 0, 15, false⟩]⟩,
  ⟨0x0012, 0x0, 1, 1, [⟨F.TXN_FAIL_ADDR, .ro, 0x0, 0, 65535, false⟩]⟩,
  ⟨0x0013, 0x0, 1, 1, [⟨F.TXN_CFG_TMO, .rws, 0x0, 1, 100, true⟩]⟩,
  ⟨0x0018, 0x0, 1, 1, [⟨F.STORE_CTRL_CMD, .wo, 0x0, 0, 255, false⟩, ⟨F.STORE_CTRL_CONFIRM, .wo, 0x0, 0, 65535, false⟩]⟩,
  ⟨0x0019, 0x0, 1, 1, [⟨F.STORE_STAT_BUSY, .ro, 0x0, 0, 1, false⟩, ⟨F.STORE_STAT_DONE, .w1c, 0x0, 0, 1, false⟩, ⟨F.STORE_STAT_FAIL, .w1c, 0x0, 0, 1, false⟩, ⟨F.STORE_STAT_CMD_REF, .w1c, 0x0, 0, 1, false⟩, ⟨F.STORE_STAT_BANK, .ro, 0x0, 0, 1, false⟩]⟩,
  ⟨0x001A, 0x0, 1, 1, [⟨F.STORE_SEQ_SEQ, .ro, 0x0, 0, 4294967295, false⟩]⟩,
  ⟨0x0020, 0x0, 1, 1, [⟨F.DEV_SUPPLY_V5, .ro, 0x0, 0, 65535, false⟩, ⟨F.DEV_SUPPLY_VIN, .ro, 0x0, 0, 65535, false⟩]⟩,
  ⟨0x0021, 0x0, 1, 1, [⟨F.DEV_PWRSTAT_LSTAGE, .ro, 0x0, 0, 7, false⟩, ⟨F.DEV_PWRSTAT_IOMODE, .ro, 0x0, 0, 1, false⟩, ⟨F.DEV_PWRSTAT_STRAP, .ro, 0x0, 0, 15, false⟩, ⟨F.DEV_PWRSTAT_BCAUSE, .ro, 0x0, 0, 15, false⟩]⟩,
  ⟨0x0040, 0x1, 8, 1, [⟨F.DEV_IREF_LEVEL, .ro, 0x0, 0, 160, true⟩, ⟨F.DEV_IREF_EN, .ro, 0x0, 0, 1, true⟩]⟩]

/-- Rows of the Clk block (R409). -/
def mapClk : List RegRow := [
  ⟨0x0100, 0x0, 1, 1, [⟨F.CLK_CFG_REFSEL, .ro, 0x0, 0, 1, true⟩, ⟨F.CLK_CFG_SYNC_NOM, .ro, 0x0, 200, 4000, true⟩, ⟨F.CLK_CFG_SOSRC, .ro, 0x0, 0, 2, true⟩, ⟨F.CLK_CFG_SOCL, .ro, 0x0, 0, 15, true⟩, ⟨F.CLK_CFG_SODIV, .ro, 0x0, 0, 1023, true⟩]⟩,
  ⟨0x0101, 0x0, 1, 1, [⟨F.CLK_STAT_SRC, .ro, 0x0, 0, 3, false⟩, ⟨F.CLK_STAT_ALIGNED, .ro, 0x0, 0, 1, false⟩, ⟨F.CLK_STAT_HOLDOVER, .w1c, 0x0, 0, 1, false⟩, ⟨F.CLK_STAT_XINLOSS, .w1c, 0x0, 0, 1, false⟩, ⟨F.CLK_STAT_PPM, .ro, 0x0, 0, 65535, false⟩]⟩,
  ⟨0x0102, 0x0, 1, 1, [⟨F.CLK_DLCAL_OK, .ro, 0x0, 0, 1, false⟩, ⟨F.CLK_DLCAL_SKEWMAX, .ro, 0x0, 0, 255, false⟩]⟩,
  ⟨0x0110, 0x1, 16, 1, [⟨F.CLK_ALIGN_OFFSET, .ro, 0x0, 0, 255, true⟩, ⟨F.CLK_ALIGN_MODE, .ro, 0x0, 0, 2, true⟩, ⟨F.CLK_ALIGN_FACTOR, .ro, 0x0, 0, 15, true⟩]⟩]

/-- Rows of the Supv block (R409). -/
def mapSupv : List RegRow := [
  ⟨0x0200, 0x0, 1, 1, [⟨F.SUPV_STAT_FENCED, .ro, 0x0, 0, 7, false⟩, ⟨F.SUPV_STAT_MODE2, .ro, 0x0, 0, 1, false⟩, ⟨F.SUPV_STAT_FFOPEN, .ro, 0x0, 0, 1, false⟩, ⟨F.SUPV_STAT_HDONE, .ro, 0x0, 0, 1, false⟩, ⟨F.SUPV_STAT_ALRT, .w1c, 0x0, 0, 1, false⟩, ⟨F.SUPV_STAT_CMD_REF, .w1c, 0x0, 0, 1, false⟩, ⟨F.SUPV_STAT_WIREF, .w1c, 0x0, 0, 1, false⟩]⟩,
  ⟨0x0201, 0x0, 1, 1, [⟨F.SUPV_CTRL_CMD, .wo, 0x0, 0, 255, false⟩, ⟨F.SUPV_CTRL_CONFIRM, .wo, 0x0, 0, 65535, false⟩]⟩,
  ⟨0x0202, 0x0, 1, 1, [⟨F.SUPV_OUTV_OUTA, .rc, 0x0, 0, 255, false⟩, ⟨F.SUPV_OUTV_OUTB, .rc, 0x0, 0, 255, false⟩, ⟨F.SUPV_OUTV_OUTC, .rc, 0x0, 0, 255, false⟩]⟩,
  ⟨0x0203, 0x0, 1, 1, [⟨F.SUPV_WIRE_PAIR, .ro, 0x0, 0, 1023, false⟩, ⟨F.SUPV_WIRE_WCNT, .rc, 0x0, 0, 65535, false⟩]⟩,
  ⟨0x0204, 0x0, 1, 1, [⟨F.SUPV_CLLAT_CLOFFL, .ro, 0x0, 0, 65535, false⟩, ⟨F.SUPV_CLLAT_SHEDCL, .ro, 0x0, 0, 65535, false⟩]⟩,
  ⟨0x0205, 0x0, 1, 1, [⟨F.SUPV_PHSHED0_PH0_31, .ro, 0x0, 0, 4294967295, false⟩]⟩,
  ⟨0x0206, 0x0, 1, 1, [⟨F.SUPV_PHSHED1_PH32_47, .ro, 0x0, 0, 65535, false⟩]⟩,
  ⟨0x0208, 0x0, 1, 1, [⟨F.SUPV_FF_FFSRC, .ro, 0x0, 0, 1023, false⟩, ⟨F.SUPV_FF_FFSTATE, .ro, 0x0, 0, 15, false⟩, ⟨F.SUPV_FF_FFACT, .ro, 0x0, 0, 255, false⟩]⟩,
  ⟨0x0209, 0x0, 1, 1, [⟨F.SUPV_FFTL_MSLO, .ro, 0x0, 0, 4294967295, false⟩]⟩,
  ⟨0x020A, 0x0, 1, 1, [⟨F.SUPV_FFTH_MSHI, .ro, 0x0, 0, 65535, false⟩, ⟨F.SUPV_FFTH_US, .ro, 0x0, 0, 1023, false⟩]⟩,
  ⟨0x020B, 0x0, 1, 1, [⟨F.SUPV_FFCNT_MCNT, .ro, 0x0, 0, 65535, false⟩, ⟨F.SUPV_FFCNT_MSRC, .ro, 0x0, 0, 1023, false⟩]⟩,
  ⟨0x0220, 0x1, 23, 1, [⟨F.SUPV_FFMAP_FFMAP, .ro, 0x0, 0, 4294967295, false⟩]⟩,
  ⟨0x0240, 0x1, 23, 1, [⟨F.SUPV_SRC_SRC, .ro, 0x0, 0, 4294967295, false⟩]⟩,
  ⟨0x0280, 0x1, 64, 1, [⟨F.SUPV_HIST_HIST, .ro, 0x0, 0, 4294967295, false⟩]⟩]

/-- Rows of the Ph block (R409). -/
def mapPh : List RegRow := [
  ⟨0x0400, 0x20, 48, 1, [⟨F.PH_CFG_USED, .ro, 0x0, 0, 1, true⟩, ⟨F.PH_CFG_CLUSTER, .ro, 0x0, 0, 15, true⟩, ⟨F.PH_CFG_ORDER, .ro, 0x0, 0, 15, true⟩, ⟨F.PH_CFG_IREFSEL, .ro, 0x0, 0, 7, true⟩, ⟨F.PH_CFG_DEM, .rwt, 0x0, 0, 1, true⟩, ⟨F.PH_CFG_OFS, .ro, 0x0, 0, 255, true⟩]⟩,
  ⟨0x0401, 0x20, 48, 1, [⟨F.PH_GAIN_GCS, .ro, 0x0, 500, 50000, true⟩, ⟨F.PH_GAIN_IZC, .rwt, 0x0, 0, 255, true⟩]⟩,
  ⟨0x0402, 0x20, 48, 1, [⟨F.PH_RAMP_SLOPE, .rwt, 0x0, 0, 1023, true⟩]⟩,
  ⟨0x0403, 0x20, 48, 1, [⟨F.PH_BLANK_BLANK, .rwt, 0x0, 0, 160, true⟩, ⟨F.PH_BLANK_FOXBLK, .ro, 0x0, 0, 8, true⟩]⟩,
  ⟨0x0404, 0x20, 48, 1, [⟨F.PH_LIMIT_IPEAK, .rwt, 0x0, 0, 4095, true⟩, ⟨F.PH_LIMIT_IAVG, .rwt, 0x0, 0, 4095, true⟩]⟩,
  ⟨0x0405, 0x20, 48, 1, [⟨F.PH_FOX_FOXTHR, .ro, 0x0, 0, 4095, true⟩, ⟨F.PH_FOX_FOXMODE, .ro, 0x0, 0, 1, true⟩, ⟨F.PH_FOX_FOXHOLD, .ro, 0x0, 1, 63, true⟩, ⟨F.PH_FOX_FOXMAX, .ro, 0x0, 1, 15, true⟩]⟩,
  ⟨0x0408, 0x20, 48, 1, [⟨F.PH_STAT_ACTIVE, .ro, 0x0, 0, 1, false⟩, ⟨F.PH_STAT_FOXLAT, .ro, 0x0, 0, 1, false⟩, ⟨F.PH_STAT_FOX, .w1c, 0x0, 0, 1, false⟩, ⟨F.PH_STAT_PKLIM, .w1c, 0x0, 0, 1, false⟩, ⟨F.PH_STAT_OCAVG, .w1c, 0x0, 0, 1, false⟩, ⟨F.PH_STAT_ISRANGE, .w1c, 0x0, 0, 1, false⟩, ⟨F.PH_STAT_HSSHORT, .ro, 0x0, 0, 1, false⟩, ⟨F.PH_STAT_MAXON, .w1c, 0x0, 0, 1, false⟩]⟩,
  ⟨0x0409, 0x20, 48, 1, [⟨F.PH_IRAW_CODE, .ro, 0x0, 0, 4095, false⟩]⟩,
  ⟨0x040A, 0x20, 48, 1, [⟨F.PH_CNT_PKCNT, .rc, 0x0, 0, 65535, false⟩, ⟨F.PH_CNT_FOXCNT, .rc, 0x0, 0, 255, false⟩]⟩,
  ⟨0x0410, 0x20, 48, 1, [⟨F.PH_ITEL_ITEL, .ro, 0x0, 0, 4294967295, false⟩]⟩,
  ⟨0x0411, 0x20, 48, 1, [⟨F.PH_CAL_GREL, .ro, 0x0, 0, 65535, true⟩, ⟨F.PH_CAL_ZERO, .ro, 0x0, 0, 65535, true⟩]⟩,
  ⟨0x0412, 0x20, 48, 1, [⟨F.PH_RSSTAT_RSCNT, .ro, 0x0, 0, 65535, false⟩, ⟨F.PH_RSSTAT_LASTDEV, .ro, 0x0, 0, 65535, false⟩]⟩,
  ⟨0x0418, 0x20, 48, 1, [⟨F.PH_TMOD_TMOD, .ro, 0x0, 0, 65535, false⟩]⟩,
  ⟨0x0419, 0x20, 48, 1, [⟨F.PH_TPK_TPK, .rc, 0x80000000, 0, 4294967295, false⟩]⟩,
  ⟨0x041A, 0x20, 48, 1, [⟨F.PH_PLOSS_PLOSS, .ro, 0x0, 0, 4294967295, false⟩]⟩]

/-- Rows of the Cl1 block (R409). -/
def mapCl1 : List RegRow := [
  ⟨0x1000, 0x100, 16, 1, [⟨F.CL_CFG_KIND, .ro, 0x0, 0, 1, true⟩, ⟨F.CL_CFG_SGAIN, .ro, 0x0, 0, 2, true⟩, ⟨F.CL_CFG_UPER, .ro, 0x0, 100, 4000, true⟩, ⟨F.CL_CFG_OUTDIV, .ro, 0x0, 0, 4, true⟩]⟩,
  ⟨0x1001, 0x100, 16, 1, [⟨F.CL_VSET_S, .rws, 0x0, 0, 65535, true⟩]⟩,
  ⟨0x1002, 0x100, 16, 1, [⟨F.CL_VSLEW_SLEW, .rws, 0x0, 1, 4095, true⟩, ⟨F.CL_VSLEW_BLKTM, .ro, 0x0, 0, 31, true⟩, ⟨F.CL_VSLEW_BLKEN, .ro, 0x0, 0, 1, true⟩]⟩,
  ⟨0x1003, 0x100, 16, 1, [⟨F.CL_VSTAT_VREFEFF, .ro, 0x0, 0, 65535, false⟩, ⟨F.CL_VSTAT_TRANS, .ro, 0x0, 0, 1, false⟩, ⟨F.CL_VSTAT_SSRUN, .ro, 0x0, 0, 1, false⟩, ⟨F.CL_VSTAT_SSDONE, .ro, 0x0, 0, 1, false⟩, ⟨F.CL_VSTAT_CAPACT, .ro, 0x0, 0, 1, false⟩]⟩,
  ⟨0x1004, 0x100, 16, 1, [⟨F.CL_SS_SSDLY, .rwt, 0x0, 0, 255, true⟩, ⟨F.CL_SS_SSTIME, .rwt, 0x0, 1, 1023, true⟩, ⟨F.CL_SS_PREBIAS, .rwt, 0x0, 0, 1, true⟩]⟩,
  ⟨0x1005, 0x100, 16, 1, [⟨F.CL_LL_RLL, .rws, 0x0, 0, 4095, true⟩]⟩,
  ⟨0x1006, 0x100, 16, 1, [⟨F.CL_CAP_CAPVAL, .rws, 0x0, 0, 65535, true⟩, ⟨F.CL_CAP_CAPSEL, .rws, 0x0, 0, 1, true⟩, ⟨F.CL_CAP_CAPSTEP, .rws, 0x0, 1, 15, true⟩, ⟨F.CL_CAP_CAPMAX, .rws, 0x0, 0, 1023, true⟩, ⟨F.CL_CAP_CAPEN, .rws, 0x0, 0, 1, true⟩]⟩,
  ⟨0x1007, 0x100, 16, 1, [⟨F.CL_TRIM_TRIM, .ro, 0x0, 0, 65535, false⟩, ⟨F.CL_TRIM_TARGET, .ro, 0x0, 0, 65535, false⟩]⟩,
  ⟨0x1008, 0x100, 16, 1, [⟨F.CL_GAIN_KI, .rwt, 0x0, 0, 65535, true⟩, ⟨F.CL_GAIN_KD, .rwt, 0x0, 0, 65535, true⟩]⟩,
  ⟨0x1009, 0x100, 16, 1, [⟨F.CL_GCFG_SP, .rwt, 0x0, 0, 7, true⟩, ⟨F.CL_GCFG_BOUND, .rwt, 0x0, 1, 65535, true⟩, ⟨F.CL_GCFG_BCNT, .rwt, 0x0, 1, 127, true⟩, ⟨F.CL_GCFG_BEN, .rwt, 0x0, 0, 1, true⟩]⟩,
  ⟨0x100A, 0x100, 16, 1, [⟨F.CL_IRLIM_IRMAX, .rwt, 0x0, 0, 65535, true⟩, ⟨F.CL_IRLIM_IRMIN, .rwt, 0x0, 0, 65535, true⟩]⟩,
  ⟨0x100B, 0x100, 16, 1, [⟨F.CL_LSTAT_WRAP, .w1c, 0x0, 0, 1, false⟩, ⟨F.CL_LSTAT_IBND, .w1c, 0x0, 0, 1, false⟩, ⟨F.CL_LSTAT_COARSE, .ro, 0x0, 0, 1, false⟩, ⟨F.CL_LSTAT_CLAMPH, .w1c, 0x0, 0, 1, false⟩, ⟨F.CL_LSTAT_CLAMPL, .w1c, 0x0, 0, 1, false⟩]⟩,
  ⟨0x100C, 0x100, 16, 1, [⟨F.CL_ACCL_ACC_LO, .ro, 0x0, 0, 4294967295, false⟩]⟩,
  ⟨0x100D, 0x100, 16, 1, [⟨F.CL_ACCH_ACC_HI, .ro, 0x0, 0, 4294967295, false⟩]⟩,
  ⟨0x100E, 0x100, 16, 1, [⟨F.CL_IOUT_U, .ro, 0x0, 0, 4294967295, false⟩]⟩,
  ⟨0x100F, 0x100, 16, 1, [⟨F.CL_ERR_E, .ro, 0x0, 0, 65535, false⟩]⟩,
  ⟨0x1010, 0x100, 16, 1, [⟨F.CL_LEAD_PINS, .ro, 0x0, 0, 15, true⟩, ⟨F.CL_LEAD_LWSTEP, .rwt, 0x0, 0, 4095, true⟩, ⟨F.CL_LEAD_LWWIN, .rwt, 0x0, 1, 255, true⟩, ⟨F.CL_LEAD_LWMATCH, .rwt, 0x0, 1, 255, true⟩]⟩,
  ⟨0x1011, 0x100, 16, 1, [⟨F.CL_LEAD2_LWABORT, .rwt, 0x0, 1, 255, true⟩, ⟨F.CL_LEAD2_LWRAMP, .rwt, 0x0, 1, 63, true⟩, ⟨F.CL_LEAD2_LWSUSP, .rwt, 0x0, 0, 15, true⟩]⟩,
  ⟨0x1012, 0x100, 16, 1, [⟨F.CL_COUT_COUT, .rwt, 0x0, 0, 65535, true⟩]⟩,
  ⟨0x1013, 0x100, 16, 1, [⟨F.CL_LEADSTAT_CLASS, .ro, 0x0, 0, 7, false⟩, ⟨F.CL_LEADSTAT_ACTIVE, .ro, 0x0, 0, 1, false⟩, ⟨F.CL_LEADSTAT_SUSP, .w1c, 0x0, 0, 1, false⟩, ⟨F.CL_LEADSTAT_INVALID, .w1c, 0x0, 0, 1, false⟩, ⟨F.CL_LEADSTAT_ABRT, .w1c, 0x0, 0, 1, false⟩, ⟨F.CL_LEADSTAT_LWFALSE, .rc, 0x0, 0, 255, false⟩, ⟨F.CL_LEADSTAT_LWOK, .rc, 0x0, 0, 255, false⟩]⟩,
  ⟨0x1014, 0x100, 16, 1, [⟨F.CL_INJ_EN, .rw, 0x0, 0, 1, false⟩, ⟨F.CL_INJ_MODE, .rw, 0x0, 0, 1, false⟩, ⟨F.CL_INJ_POINT, .rw, 0x0, 0, 1, false⟩, ⟨F.CL_INJ_PRBSLEN, .rw, 0x9, 0, 15, false⟩, ⟨F.CL_INJ_CHIP, .rw, 0x1, 0, 255, false⟩, ⟨F.CL_INJ_SIGA, .rw, 0x0, 0, 3, false⟩, ⟨F.CL_INJ_SIGB, .rw, 0x0, 0, 3, false⟩, ⟨F.CL_INJ_DONE, .ro, 0x0, 0, 1, false⟩, ⟨F.CL_INJ_ABORT, .w1c, 0x0, 0, 1, false⟩, ⟨F.CL_INJ_DISTURB, .w1c, 0x0, 0, 1, false⟩]⟩,
  ⟨0x1015, 0x100, 16, 1, [⟨F.CL_INJFREQ_FW, .rw, 0x0, 0, 4294967295, false⟩]⟩,
  ⟨0x1016, 0x100, 16, 1, [⟨F.CL_INJAMP_AMP, .rw, 0x0, 0, 65535, false⟩, ⟨F.CL_INJAMP_NCYC, .rw, 0x0, 0, 65535, false⟩]⟩,
  ⟨0x1018, 0x100, 16, 1, [⟨F.CL_RESAI_L_RESAI_L, .ro, 0x0, 0, 4294967295, false⟩]⟩,
  ⟨0x1019, 0x100, 16, 1, [⟨F.CL_RESAI_H_RESAI_H, .ro, 0x0, 0, 4294967295, false⟩]⟩,
  ⟨0x101A, 0x100, 16, 1, [⟨F.CL_RESAQ_L_RESAQ_L, .ro, 0x0, 0, 4294967295, false⟩]⟩,
  ⟨0x101B, 0x100, 16, 1, [⟨F.CL_RESAQ_H_RESAQ_H, .ro, 0x0, 0, 4294967295, false⟩]⟩,
  ⟨0x101C, 0x100, 16, 1, [⟨F.CL_RESBI_L_RESBI_L, .ro, 0x0, 0, 4294967295, false⟩]⟩,
  ⟨0x101D, 0x100, 16, 1, [⟨F.CL_RESBI_H_RESBI_H, .ro, 0x0, 0, 4294967295, false⟩]⟩,
  ⟨0x101E, 0x100, 16, 1, [⟨F.CL_RESBQ_L_RESBQ_L, .ro, 0x0, 0, 4294967295, false⟩]⟩,
  ⟨0x101F, 0x100, 16, 1, [⟨F.CL_RESBQ_H_RESBQ_H, .ro, 0x0, 0, 4294967295, false⟩]⟩]

/-- Rows of the Cl2 block (R409). -/
def mapCl2 : List RegRow := [
  ⟨0x1020, 0x100, 16, 1, [⟨F.CL_PHCNT_IADD, .rwt, 0x0, 1, 4095, true⟩, ⟨F.CL_PHCNT_IDROP, .rwt, 0x0, 0, 4095, true⟩, ⟨F.CL_PHCNT_MINPH, .rwt, 0x0, 1, 16, true⟩]⟩,
  ⟨0x1021, 0x100, 16, 1, [⟨F.CL_PHCNT2_DROPT, .rwt, 0x0, 1, 255, true⟩, ⟨F.CL_PHCNT2_APTHR, .rwt, 0x0, 0, 4095, true⟩, ⟨F.CL_PHCNT2_APHOLD, .rwt, 0x0, 1, 255, true⟩]⟩,
  ⟨0x1022, 0x100, 16, 1, [⟨F.CL_BAL_KBAL, .rwt, 0x0, 0, 65535, true⟩, ⟨F.CL_BAL_TRIMMAX, .rwt, 0x0, 0, 255, true⟩, ⟨F.CL_BAL_ROT, .ro, 0x0, 0, 1, true⟩]⟩,
  ⟨0x1023, 0x100, 16, 1, [⟨F.CL_ROT_ROTTHR, .rwt, 0x0, 0, 4095, true⟩, ⟨F.CL_ROT_PTR, .ro, 0x0, 0, 15, false⟩]⟩,
  ⟨0x1024, 0x100, 16, 1, [⟨F.CL_OL_OLIM, .rwt, 0x0, 0, 65535, true⟩, ⟨F.CL_OL_OLT, .rwt, 0x0, 1, 255, true⟩]⟩,
  ⟨0x1025, 0x100, 16, 1, [⟨F.CL_PHFAIL_IOPEN, .ro, 0x0, 0, 4095, true⟩, ⟨F.CL_PHFAIL_ORISE, .ro, 0x0, 0, 255, true⟩, ⟨F.CL_PHFAIL_MINAV, .ro, 0x0, 1, 16, true⟩, ⟨F.CL_PHFAIL_SNSDEV, .ro, 0x0, 1, 127, true⟩]⟩,
  ⟨0x1026, 0x100, 16, 1, [⟨F.CL_PHSTAT_ACTMASK, .ro, 0x0, 0, 65535, false⟩, ⟨F.CL_PHSTAT_M, .ro, 0x0, 0, 31, false⟩, ⟨F.CL_PHSTAT_NAV, .ro, 0x0, 0, 31, false⟩, ⟨F.CL_PHSTAT_HOLDALL, .ro, 0x0, 0, 1, false⟩]⟩,
  ⟨0x1027, 0x100, 16, 1, [⟨F.CL_PHREM_REMMASK, .ro, 0x0, 0, 65535, false⟩, ⟨F.CL_PHREM_LASTPH, .ro, 0x3F, 0, 63, false⟩, ⟨F.CL_PHREM_CAUSE, .ro, 0x0, 0, 7, false⟩, ⟨F.CL_PHREM_NEWREM, .w1c, 0x0, 0, 1, false⟩]⟩,
  ⟨0x1028, 0x100, 16, 1, [⟨F.CL_OLSTAT_OLIMEFF, .ro, 0x0, 0, 65535, false⟩, ⟨F.CL_OLSTAT_CAPREQ, .ro, 0x0, 0, 1, false⟩, ⟨F.CL_OLSTAT_OVLD, .w1c, 0x0, 0, 1, false⟩, ⟨F.CL_OLSTAT_PHLOSS, .w1c, 0x0, 0, 1, false⟩]⟩,
  ⟨0x1030, 0x100, 16, 8, [⟨F.CL_BTRIM_TLO, .ro, 0x0, 0, 65535, false⟩, ⟨F.CL_BTRIM_THI, .ro, 0x0, 0, 65535, false⟩]⟩,
  ⟨0x1040, 0x100, 16, 1, [⟨F.CL_FSW_PERIOD, .ro, 0x0, 267, 5333, true⟩, ⟨F.CL_FSW_DIRECT, .ro, 0x0, 0, 1, true⟩, ⟨F.CL_FSW_INTLV, .ro, 0x0, 0, 1, true⟩, ⟨F.CL_FSW_MINOFF, .rwt, 0x0, 8, 64, true⟩, ⟨F.CL_FSW_MAXON, .rwt, 0x0, 1, 255, true⟩]⟩,
  ⟨0x1041, 0x100, 16, 1, [⟨F.CL_PSCSTAT_RESULT, .ro, 0x0, 0, 3, false⟩, ⟨F.CL_PSCSTAT_PHASE, .ro, 0x3F, 0, 63, false⟩, ⟨F.CL_PSCSTAT_TSENF, .ro, 0x0, 0, 1, false⟩, ⟨F.CL_PSCSTAT_REFUSED, .ro, 0x0, 0, 1, false⟩, ⟨F.CL_PSCSTAT_VMAX, .ro, 0x0, 0, 65535, false⟩]⟩]

/-- Rows of the Cl3 block (R409). -/
def mapCl3 : List RegRow := [
  ⟨0x1050, 0x100, 16, 1, [⟨F.CL_TLCFG_AVGK, .rws, 0x0, 0, 16, true⟩, ⟨F.CL_TLCFG_TRIMEN, .rws, 0x0, 0, 1, true⟩, ⟨F.CL_TLCFG_TRIMLIM, .ro, 0x0, 1, 1023, true⟩, ⟨F.CL_TLCFG_RSEN, .rw, 0x0, 0, 1, true⟩]⟩,
  ⟨0x1051, 0x100, 16, 1, [⟨F.CL_TVOUT_TVOUT, .ro, 0x0, 0, 4294967295, false⟩]⟩,
  ⟨0x1052, 0x100, 16, 1, [⟨F.CL_TIOUT_TIOUT, .ro, 0x0, 0, 4294967295, false⟩]⟩,
  ⟨0x1053, 0x100, 16, 1, [⟨F.CL_TPOUT_TPOUT, .ro, 0x0, 0, 4294967295, false⟩]⟩,
  ⟨0x1054, 0x100, 16, 1, [⟨F.CL_TTEMP_TTEMP, .ro, 0x0, 0, 65535, false⟩]⟩,
  ⟨0x1055, 0x100, 16, 1, [⟨F.CL_TVMIN_TVMIN, .rc, 0x7FFFFFFF, 0, 4294967295, false⟩]⟩,
  ⟨0x1056, 0x100, 16, 1, [⟨F.CL_TVMAX_TVMAX, .rc, 0x80000000, 0, 4294967295, false⟩]⟩,
  ⟨0x1057, 0x100, 16, 1, [⟨F.CL_TIMAX_TIMAX, .rc, 0x80000000, 0, 4294967295, false⟩]⟩,
  ⟨0x1058, 0x100, 16, 1, [⟨F.CL_TPMAX_TPMAX, .rc, 0x80000000, 0, 4294967295, false⟩]⟩,
  ⟨0x1059, 0x100, 16, 1, [⟨F.CL_KSCALE_KSCALE, .ro, 0x0, 0, 65535, true⟩, ⟨F.CL_KSCALE_UNC, .ro, 0xFFFF, 0, 65535, false⟩]⟩,
  ⟨0x105A, 0x100, 16, 1, [⟨F.CL_CALSTAT_SETTLED, .ro, 0x0, 0, 1, false⟩, ⟨F.CL_CALSTAT_TRIMSAT, .w1c, 0x0, 0, 1, false⟩, ⟨F.CL_CALSTAT_ACCNG, .w1c, 0x0, 0, 1, false⟩, ⟨F.CL_CALSTAT_NPTS, .ro, 0x0, 0, 65535, false⟩]⟩,
  ⟨0x105B, 0x100, 16, 1, [⟨F.CL_RSCFG_RSINT, .rw, 0x0, 1, 255, true⟩, ⟨F.CL_RSCFG_RSPER, .rw, 0x0, 16, 255, true⟩, ⟨F.CL_RSCFG_RSSET, .rw, 0x0, 4, 63, true⟩, ⟨F.CL_RSCFG_RSAVG, .rw, 0x0, 0, 7, true⟩, ⟨F.CL_RSCFG_RSTOL, .rw, 0x0, 1, 127, true⟩]⟩,
  ⟨0x105C, 0x100, 16, 1, [⟨F.CL_PRECV_PRECV, .ro, 0x0, 0, 4294967295, false⟩]⟩,
  ⟨0x1060, 0x100, 16, 1, [⟨F.CL_WIN_UV, .rwt, 0x0, 0, 1023, true⟩, ⟨F.CL_WIN_OV, .rwt, 0x0, 0, 1023, true⟩, ⟨F.CL_WIN_VOFF, .rwt, 0x0, 0, 1023, true⟩]⟩,
  ⟨0x1061, 0x100, 16, 1, [⟨F.CL_WFLT_UVFLT, .rwt, 0x0, 0, 255, true⟩, ⟨F.CL_WFLT_OVFLT, .rwt, 0x0, 0, 255, true⟩, ⟨F.CL_WFLT_FOV, .ro, 0x0, 0, 1023, true⟩, ⟨F.CL_WFLT_BLKX, .rwt, 0x0, 0, 63, true⟩]⟩,
  ⟨0x1062, 0x100, 16, 1, [⟨F.CL_SEQC_OPOFF, .ro, 0x0, 0, 1, false⟩, ⟨F.CL_SEQC_SOFTOFF, .rwt, 0x0, 0, 1, true⟩, ⟨F.CL_SEQC_SSRETRY, .rwt, 0x0, 0, 1, false⟩, ⟨F.CL_SEQC_HICN, .rwt, 0x0, 1, 15, true⟩, ⟨F.CL_SEQC_HICT, .rwt, 0x0, 1, 255, true⟩, ⟨F.CL_SEQC_SSDET, .rwt, 0x0, 1, 255, true⟩, ⟨F.CL_SEQC_SSMARG, .rwt, 0x0, 1, 255, true⟩]⟩,
  ⟨0x1063, 0x100, 16, 1, [⟨F.CL_WSTAT_INWIN, .ro, 0x0, 0, 1, false⟩, ⟨F.CL_WSTAT_BLANKED, .ro, 0x0, 0, 1, false⟩, ⟨F.CL_WSTAT_UVF, .w1c, 0x0, 0, 1, false⟩, ⟨F.CL_WSTAT_OVF, .w1c, 0x0, 0, 1, false⟩, ⟨F.CL_WSTAT_FOVF, .w1c, 0x0, 0, 1, false⟩, ⟨F.CL_WSTAT_SSSHORT, .ro, 0x0, 0, 1, false⟩, ⟨F.CL_WSTAT_HICCNT, .ro, 0x0, 0, 15, false⟩, ⟨F.CL_WSTAT_BELOW, .ro, 0x0, 0, 1, false⟩]⟩,
  ⟨0x1070, 0x100, 16, 1, [⟨F.CL_THCFG_THTHR, .rws, 0x0, 0, 255, true⟩, ⟨F.CL_THCFG_THSD, .rws, 0x0, 0, 255, true⟩, ⟨F.CL_THCFG_TREARM, .rws, 0x0, 0, 255, true⟩, ⟨F.CL_THCFG_TGAIN, .rws, 0x0, 1, 255, true⟩]⟩,
  ⟨0x1071, 0x100, 16, 1, [⟨F.CL_TSENCFG_TOFS, .ro, 0x0, 0, 4095, true⟩, ⟨F.CL_TSENCFG_TSLP, .ro, 0x0, 1, 255, true⟩, ⟨F.CL_TSENCFG_FLTV, .ro, 0x0, 0, 1023, true⟩]⟩,
  ⟨0x1072, 0x100, 16, 1, [⟨F.CL_TSENV_V, .ro, 0x0, 0, 4095, false⟩, ⟨F.CL_TSENV_FLT, .ro, 0x0, 0, 1, false⟩, ⟨F.CL_TSENV_BAD, .ro, 0x0, 0, 1, false⟩]⟩,
  ⟨0x1073, 0x100, 16, 1, [⟨F.CL_LOSS0_K0, .ro, 0x0, 0, 65535, true⟩, ⟨F.CL_LOSS0_K1, .ro, 0x0, 0, 65535, true⟩]⟩,
  ⟨0x1074, 0x100, 16, 1, [⟨F.CL_LOSS1_K2, .ro, 0x0, 0, 65535, true⟩, ⟨F.CL_LOSS1_KD, .ro, 0x0, 0, 255, true⟩]⟩,
  ⟨0x1075, 0x100, 16, 1, [⟨F.CL_LOSS2_KS1, .ro, 0x0, 0, 65535, true⟩, ⟨F.CL_LOSS2_KS0, .ro, 0x0, 0, 65535, true⟩]⟩,
  ⟨0x1076, 0x100, 16, 4, [⟨F.CL_FOSTER_R, .ro, 0x0, 0, 65535, true⟩, ⟨F.CL_FOSTER_TAU, .ro, 0x0, 1, 65535, true⟩]⟩,
  ⟨0x107A, 0x100, 16, 1, [⟨F.CL_THSTAT_THOT, .ro, 0x0, 0, 65535, false⟩, ⟨F.CL_THSTAT_HOTPH, .ro, 0x3F, 0, 63, false⟩, ⟨F.CL_THSTAT_THROT, .ro, 0x0, 0, 1, false⟩, ⟨F.CL_THSTAT_TSD, .ro, 0x0, 0, 1, false⟩, ⟨F.CL_THSTAT_THROTF, .w1c, 0x0, 0, 1, false⟩, ⟨F.CL_THSTAT_TSDF, .w1c, 0x0, 0, 1, false⟩]⟩,
  ⟨0x107B, 0x100, 16, 1, [⟨F.CL_VIN_BASE, .ro, 0x0, 0, 65535, false⟩, ⟨F.CL_VIN_VINSEL, .ro, 0x0, 0, 3, true⟩, ⟨F.CL_VIN_VINX, .ro, 0x0, 0, 16383, true⟩]⟩]

/-- Rows of the Rgn block (R409). -/
def mapRgn : List RegRow := [
  ⟨0x2000, 0x0, 1, 1, [⟨F.LE16_STAT_STATE, .ro, 0x0, 0, 3, false⟩, ⟨F.LE16_STAT_CL, .ro, 0x0, 0, 15, false⟩, ⟨F.LE16_STAT_CAUSE, .ro, 0x0, 0, 7, false⟩, ⟨F.LE16_STAT_OLDFRAME, .ro, 0x0, 0, 1, false⟩, ⟨F.LE16_STAT_MISSED, .ro, 0x0, 0, 63, false⟩, ⟨F.LE16_STAT_GAP, .ro, 0x0, 0, 65535, false⟩]⟩,
  ⟨0x2001, 0x0, 1, 1, [⟨F.LE16_SEQ_SEQ, .ro, 0x0, 0, 4294967295, false⟩]⟩,
  ⟨0x2002, 0x0, 1, 1, [⟨F.LE_PLCFG_PLERR, .ro, 0x0, 1, 4095, true⟩]⟩,
  ⟨0x2100, 0x40, 4, 1, [⟨F.RG_CFG_UPSRC, .ro, 0x0, 0, 17, true⟩, ⟨F.RG_CFG_CLMASK, .ro, 0x0, 0, 65535, true⟩]⟩,
  ⟨0x2101, 0x40, 4, 1, [⟨F.RG_BUD_BUD, .rws, 0x0, 0, 65535, true⟩, ⟨F.RG_BUD_HBUD, .rws, 0x0, 0, 65535, true⟩]⟩,
  ⟨0x2102, 0x40, 4, 1, [⟨F.RG_PWR_PWR, .ro, 0x0, 0, 65535, false⟩]⟩,
  ⟨0x2103, 0x40, 4, 1, [⟨F.RG_CAPST_REQ, .ro, 0x0, 0, 511, false⟩, ⟨F.RG_CAPST_OVER, .ro, 0x0, 0, 1, false⟩, ⟨F.RG_CAPST_CAPF, .w1c, 0x0, 0, 1, false⟩, ⟨F.RG_CAPST_SATF, .w1c, 0x0, 0, 1, false⟩]⟩,
  ⟨0x2104, 0x40, 4, 1, [⟨F.RG_CAPC_CAPD0, .rws, 0x0, 0, 256, true⟩, ⟨F.RG_CAPC_KUP, .rws, 0x0, 1, 127, true⟩, ⟨F.RG_CAPC_KDN, .rws, 0x0, 1, 127, true⟩, ⟨F.RG_CAPC_CAPSAT, .rws, 0x0, 1, 255, true⟩]⟩,
  ⟨0x2200, 0x0, 1, 1, [⟨F.SEQ_CFG_NSTEP, .ro, 0x0, 1, 32, true⟩, ⟨F.SEQ_CFG_TOFFMIN, .rws, 0x0, 0, 255, true⟩, ⟨F.SEQ_CFG_PGMASK, .rws, 0x0, 0, 65535, true⟩]⟩,
  ⟨0x2201, 0x0, 1, 1, [⟨F.SEQ_SF_SFFLT, .rws, 0x0, 1, 255, true⟩, ⟨F.SEQ_SF_SFHOLD, .rws, 0x0, 1, 255, true⟩, ⟨F.SEQ_SF_SFSTUCK, .rws, 0x0, 1, 255, true⟩, ⟨F.SEQ_SF_SFSTART, .rws, 0x0, 0, 1, true⟩]⟩,
  ⟨0x2202, 0x0, 1, 1, [⟨F.SEQ_STAT_STEP, .ro, 0x0, 0, 31, false⟩, ⟨F.SEQ_STAT_DIR, .ro, 0x0, 0, 1, false⟩, ⟨F.SEQ_STAT_ACTIVE, .ro, 0x0, 0, 1, false⟩, ⟨F.SEQ_STAT_HIGHEST, .ro, 0x0, 0, 31, false⟩, ⟨F.SEQ_STAT_TOFORCED, .w1c, 0x0, 0, 1, false⟩, ⟨F.SEQ_STAT_HELD, .ro, 0x0, 0, 1, false⟩, ⟨F.SEQ_STAT_OFFLAT, .ro, 0x0, 0, 1, false⟩, ⟨F.SEQ_STAT_UPFAIL, .ro, 0x0, 0, 1, false⟩, ⟨F.SEQ_STAT_PENDOFF, .ro, 0x0, 0, 1, false⟩, ⟨F.SEQ_STAT_PENDON, .ro, 0x0, 0, 1, false⟩, ⟨F.SEQ_STAT_SFLOW, .ro, 0x0, 0, 1, false⟩, ⟨F.SEQ_STAT_SFDRV, .ro, 0x0, 0, 1, false⟩, ⟨F.SEQ_STAT_SFSTK, .w1c, 0x0, 0, 1, false⟩]⟩,
  ⟨0x2203, 0x0, 1, 1, [⟨F.SEQ_CTRL_CMD, .wo, 0x0, 0, 255, false⟩, ⟨F.SEQ_CTRL_CMD_REF, .w1c, 0x0, 0, 1, false⟩, ⟨F.SEQ_CTRL_CONFIRM, .wo, 0x0, 0, 65535, false⟩]⟩,
  ⟨0x2210, 0x1, 32, 1, [⟨F.SEQ_STEP_OBJ, .ro, 0x0, 0, 7, true⟩, ⟨F.SEQ_STEP_INDEX, .ro, 0x0, 0, 15, true⟩, ⟨F.SEQ_STEP_PGW, .ro, 0x0, 0, 1, true⟩, ⟨F.SEQ_STEP_PGSEL, .ro, 0x0, 0, 7, true⟩, ⟨F.SEQ_STEP_TOACT, .ro, 0x0, 0, 1, true⟩, ⟨F.SEQ_STEP_UPONLY, .ro, 0x0, 0, 1, true⟩, ⟨F.SEQ_STEP_RGTAG, .ro, 0x0, 0, 15, true⟩, ⟨F.SEQ_STEP_TOUT, .ro, 0x0, 1, 10000, true⟩]⟩]

/-- Rows of the Feed block (R409). -/
def mapFeed : List RegRow := [
  ⟨0x2400, 0x20, 3, 1, [⟨F.FEED_CFG_ILIM, .rwt, 0x0, 10, 2600, true⟩, ⟨F.FEED_CFG_TFLT, .rwt, 0x0, 1, 500, true⟩, ⟨F.FEED_CFG_FOXMUL, .ro, 0x0, 12, 24, true⟩, ⟨F.FEED_CFG_EN, .ro, 0x0, 0, 1, true⟩]⟩,
  ⟨0x2401, 0x20, 3, 1, [⟨F.FEED_WIN_UVF, .rwt, 0x0, 1, 720, true⟩, ⟨F.FEED_WIN_UVR, .rwt, 0x0, 0, 1023, true⟩, ⟨F.FEED_WIN_OV, .rwt, 0x0, 0, 720, true⟩]⟩,
  ⟨0x2402, 0x20, 3, 1, [⟨F.FEED_TIME_QUALT, .rwt, 0x0, 1, 255, true⟩, ⟨F.FEED_TIME_INRSR, .rwt, 0x0, 1, 63, true⟩, ⟨F.FEED_TIME_INRT, .rwt, 0x0, 1, 255, true⟩, ⟨F.FEED_TIME_IREV, .rwt, 0x0, 1, 255, true⟩]⟩,
  ⟨0x2403, 0x20, 3, 1, [⟨F.FEED_STAT_CONDUCT, .ro, 0x0, 0, 1, false⟩, ⟨F.FEED_STAT_QUAL, .ro, 0x0, 0, 1, false⟩, ⟨F.FEED_STAT_TRIPLAT, .ro, 0x0, 0, 1, false⟩, ⟨F.FEED_STAT_CAUSE, .ro, 0x0, 0, 7, false⟩, ⟨F.FEED_STAT_INLIM, .ro, 0x0, 0, 1, false⟩, ⟨F.FEED_STAT_UV, .w1c, 0x0, 0, 1, false⟩, ⟨F.FEED_STAT_OV, .w1c, 0x0, 0, 1, false⟩, ⟨F.FEED_STAT_REV, .w1c, 0x0, 0, 1, false⟩, ⟨F.FEED_STAT_GATEF, .w1c, 0x0, 0, 1, false⟩]⟩,
  ⟨0x2404, 0x20, 3, 1, [⟨F.FEED_CNT_TRIPS, .ro, 0x0, 0, 65535, false⟩, ⟨F.FEED_CNT_XAWAY, .ro, 0x0, 0, 65535, false⟩]⟩,
  ⟨0x2460, 0x0, 1, 1, [⟨F.INP_PRIO_P0, .rws, 0x0, 0, 2, false⟩, ⟨F.INP_PRIO_P1, .rws, 0x1, 0, 2, false⟩, ⟨F.INP_PRIO_P2, .rws, 0x2, 0, 2, false⟩, ⟨F.INP_PRIO_PIN, .rw, 0x3, 0, 3, false⟩, ⟨F.INP_PRIO_RETT, .rws, 0x0, 1, 255, true⟩]⟩,
  ⟨0x2461, 0x0, 1, 1, [⟨F.INP_SEAT_SEATOK, .ro, 0x0, 0, 1, false⟩, ⟨F.INP_SEAT_SEAT1, .ro, 0x0, 0, 1, false⟩, ⟨F.INP_SEAT_SEAT2, .ro, 0x0, 0, 1, false⟩, ⟨F.INP_SEAT_RESEATPEND, .ro, 0x0, 0, 1, false⟩, ⟨F.INP_SEAT_UNSEATT, .rws, 0x0, 1, 255, true⟩]⟩,
  ⟨0x2462, 0x0, 1, 1, [⟨F.INP_RETRY_RETRYT, .rws, 0x0, 1, 4095, true⟩, ⟨F.INP_RETRY_REMAIN, .ro, 0x0, 0, 4095, false⟩, ⟨F.INP_RETRY_RUNNING, .ro, 0x0, 0, 1, false⟩]⟩,
  ⟨0x2463, 0x0, 1, 1, [⟨F.INP_CMD_CMD, .wo, 0x0, 0, 255, false⟩, ⟨F.INP_CMD_CONFIRM, .wo, 0x0, 0, 65535, false⟩]⟩,
  ⟨0x2464, 0x0, 1, 1, [⟨F.INP_STAT_SEL, .ro, 0x3, 0, 3, false⟩, ⟨F.INP_STAT_XFER, .ro, 0x0, 0, 1, false⟩, ⟨F.INP_STAT_NOFEED, .w1c, 0x0, 0, 1, false⟩, ⟨F.INP_STAT_BSTAGE, .ro, 0x0, 0, 7, false⟩, ⟨F.INP_STAT_B5LAT, .ro, 0x0, 0, 1, false⟩, ⟨F.INP_STAT_CMDREF, .w1c, 0x0, 0, 1, false⟩, ⟨F.INP_STAT_VBUSQ, .ro, 0x0, 0, 1, false⟩, ⟨F.INP_STAT_LEAK, .w1c, 0x0, 0, 1, false⟩, ⟨F.INP_STAT_LASTGAP, .ro, 0x0, 0, 65535, false⟩]⟩,
  ⟨0x2465, 0x0, 1, 1, [⟨F.INP_XCNT_XCNT, .ro, 0x0, 0, 4294967295, false⟩]⟩,
  ⟨0x2466, 0x1, 5, 1, [⟨F.INP_LAD_VTHR, .rws, 0x0, 0, 720, true⟩, ⟨F.INP_LAD_VHYS, .rws, 0x0, 1, 63, true⟩, ⟨F.INP_LAD_ETHR, .rws, 0x0, 0, 65535, true⟩]⟩,
  ⟨0x246B, 0x0, 1, 1, [⟨F.INP_LADCFG_LADF, .rws, 0x0, 1, 255, true⟩, ⟨F.INP_LADCFG_SHEDMASK, .rws, 0x0, 0, 65535, true⟩]⟩,
  ⟨0x246C, 0x0, 1, 1, [⟨F.INP_HOLDCAP_CHOLD, .ro, 0x0, 0, 65535, true⟩, ⟨F.INP_HOLDCAP_VHMIN, .ro, 0x0, 0, 1023, true⟩, ⟨F.INP_HOLDCAP_HSRC, .ro, 0x0, 0, 1, true⟩]⟩,
  ⟨0x246D, 0x0, 1, 1, [⟨F.INP_EHOLD_EHOLD, .ro, 0x0, 0, 4294967295, false⟩]⟩,
  ⟨0x2480, 0x10, 4, 1, [⟨F.FEED_TCFG_RSH, .ro, 0x0, 0, 65535, true⟩, ⟨F.FEED_TCFG_AVGK, .rws, 0x0, 0, 16, true⟩, ⟨F.FEED_TCFG_AUXSRC, .ro, 0x0, 0, 3, true⟩, ⟨F.FEED_TCFG_AZEN, .rw, 0x0, 0, 1, true⟩, ⟨F.FEED_TCFG_CLR, .wo, 0x0, 0, 1, false⟩]⟩,
  ⟨0x2481, 0x10, 4, 1, [⟨F.FEED_V_V, .ro, 0x0, 0, 4294967295, false⟩]⟩,
  ⟨0x2482, 0x10, 4, 1, [⟨F.FEED_I_I, .ro, 0x0, 0, 4294967295, false⟩]⟩,
  ⟨0x2483, 0x10, 4, 1, [⟨F.FEED_P_P, .ro, 0x0, 0, 4294967295, false⟩]⟩,
  ⟨0x2484, 0x10, 4, 1, [⟨F.FEED_ELO_ELO, .ro, 0x0, 0, 4294967295, false⟩]⟩,
  ⟨0x2485, 0x10, 4, 1, [⟨F.FEED_EHI_EHI, .ro, 0x0, 0, 4294967295, false⟩]⟩,
  ⟨0x2486, 0x10, 4, 1, [⟨F.FEED_VMIN_VMIN, .rc, 0x7FFFFFFF, 0, 4294967295, false⟩]⟩,
  ⟨0x2487, 0x10, 4, 1, [⟨F.FEED_VMAX_VMAX, .rc, 0x80000000, 0, 4294967295, false⟩]⟩,
  ⟨0x2488, 0x10, 4, 1, [⟨F.FEED_IMAX_IMAX, .rc, 0x80000000, 0, 4294967295, false⟩]⟩,
  ⟨0x2489, 0x10, 4, 1, [⟨F.FEED_PMAX_PMAX, .rc, 0x80000000, 0, 4294967295, false⟩]⟩,
  ⟨0x248A, 0x10, 4, 1, [⟨F.FEED_AZ_OFFSET, .ro, 0x0, 0, 16777215, false⟩, ⟨F.FEED_AZ_AZDONE, .ro, 0x0, 0, 1, false⟩]⟩,
  ⟨0x24C0, 0x2, 8, 1, [⟨F.PREC_SNAP_SNAP, .ro, 0x0, 0, 4294967295, false⟩]⟩,
  ⟨0x24C1, 0x2, 8, 1, [⟨F.PREC_SNAPT_OFS, .ro, 0x0, 0, 32767, false⟩, ⟨F.PREC_SNAPT_CH, .ro, 0x0, 0, 31, false⟩, ⟨F.PREC_SNAPT_OVR, .w1c, 0x0, 0, 1, false⟩, ⟨F.PREC_SNAPT_VALID, .ro, 0x0, 0, 1, false⟩]⟩,
  ⟨0x24D0, 0x0, 1, 1, [⟨F.PREC_STAT_REFDIFF, .ro, 0x0, 0, 65535, false⟩, ⟨F.PREC_STAT_REFBAD, .ro, 0x0, 0, 1, false⟩, ⟨F.PREC_STAT_REFDRIFT, .w1c, 0x0, 0, 1, false⟩]⟩,
  ⟨0x24D1, 0x0, 1, 1, [⟨F.EB_CFG_EBTAU, .ro, 0x0, 1, 255, true⟩, ⟨F.EB_CFG_EBMIN, .ro, 0x0, 1, 65535, true⟩]⟩]

/-- Rows of the Bat block (R409). -/
def mapBat : List RegRow := [
  ⟨0x2600, 0x40, 6, 1, [⟨F.BAT_CFG_EN, .ro, 0x0, 0, 1, true⟩, ⟨F.BAT_CFG_TSRC, .ro, 0x0, 0, 1, true⟩, ⟨F.BAT_CFG_NCELL, .ro, 0x0, 1, 24, true⟩, ⟨F.BAT_CFG_QDES, .ro, 0x0, 0, 65535, true⟩]⟩,
  ⟨0x2601, 0x40, 6, 1, [⟨F.BAT_VLIM_VEMPTY, .rws, 0x0, 0, 4095, true⟩, ⟨F.BAT_VLIM_VCUT, .rws, 0x0, 0, 4095, true⟩, ⟨F.BAT_VLIM_CONT, .ro, 0x0, 1, 255, true⟩]⟩,
  ⟨0x2602, 0x40, 6, 1, [⟨F.BAT_TOC_VTOC, .rws, 0x0, 0, 4095, true⟩, ⟨F.BAT_TOC_ITERM, .rws, 0x0, 0, 4095, true⟩, ⟨F.BAT_TOC_TOCT, .rws, 0x0, 1, 255, true⟩]⟩,
  ⟨0x2603, 0x40, 6, 1, [⟨F.BAT_RES_RESV, .rws, 0x0, 0, 255, true⟩, ⟨F.BAT_RES_SIGOFF, .rws, 0x0, 0, 255, true⟩, ⟨F.BAT_RES_ANCHT, .rws, 0x0, 0, 4095, true⟩]⟩,
  ⟨0x2604, 0x40, 6, 1, [⟨F.BAT_STEP_ZSTEP, .rws, 0x0, 0, 255, true⟩, ⟨F.BAT_STEP_IREST, .rws, 0x0, 0, 255, true⟩, ⟨F.BAT_STEP_RESTT, .rws, 0x0, 1, 255, true⟩]⟩,
  ⟨0x2605, 0x40, 6, 1, [⟨F.BAT_TH_R25, .ro, 0x0, 0, 65535, true⟩, ⟨F.BAT_TH_BETA, .ro, 0x0, 0, 65535, true⟩]⟩,
  ⟨0x2606, 0x40, 6, 1, [⟨F.BAT_TWIN_TCHGL, .rws, 0x0, 0, 255, true⟩, ⟨F.BAT_TWIN_TCHGH, .rws, 0x0, 0, 255, true⟩, ⟨F.BAT_TWIN_TDMAX, .rws, 0x0, 0, 255, true⟩, ⟨F.BAT_TWIN_TDEF, .ro, 0x0, 0, 255, true⟩]⟩,
  ⟨0x2607, 0x40, 6, 1, [⟨F.BAT_CTRL_REST, .rw, 0x0, 0, 1, false⟩, ⟨F.BAT_CTRL_UVCLR, .wo, 0x0, 0, 1, false⟩, ⟨F.BAT_CTRL_SNAP, .wo, 0x0, 0, 1, false⟩, ⟨F.BAT_CTRL_RESTORE, .wo, 0x0, 0, 1, false⟩]⟩,
  ⟨0x2608, 0x40, 6, 1, [⟨F.BAT_STAT_UNRESTORED, .ro, 0x1, 0, 1, false⟩, ⟨F.BAT_STAT_RESTREQ, .ro, 0x0, 0, 1, false⟩, ⟨F.BAT_STAT_RESTING, .ro, 0x0, 0, 1, false⟩, ⟨F.BAT_STAT_UVLAT, .ro, 0x0, 0, 1, false⟩, ⟨F.BAT_STAT_DISAGREE, .w1c, 0x0, 0, 1, false⟩, ⟨F.BAT_STAT_VEMPTYF, .w1c, 0x0, 0, 1, false⟩, ⟨F.BAT_STAT_PMLOST, .ro, 0x0, 0, 1, false⟩, ⟨F.BAT_STAT_THFLT, .ro, 0x0, 0, 1, false⟩, ⟨F.BAT_STAT_RESTREJ, .ro, 0x0, 0, 7, false⟩, ⟨F.BAT_STAT_LASTREF, .ro, 0x0, 0, 3, false⟩, ⟨F.BAT_STAT_REFAGE, .ro, 0x0, 0, 65535, false⟩]⟩,
  ⟨0x2609, 0x40, 6, 1, [⟨F.BAT_SOC_SOCREP, .ro, 0x0, 0, 65535, false⟩, ⟨F.BAT_SOC_SIGMA, .ro, 0xFFFF, 0, 65535, false⟩]⟩,
  ⟨0x260A, 0x40, 6, 1, [⟨F.BAT_CAP_Q, .ro, 0x0, 0, 65535, true⟩, ⟨F.BAT_CAP_Z, .ro, 0x0, 0, 65535, false⟩]⟩,
  ⟨0x260B, 0x40, 6, 1, [⟨F.BAT_IMP_R0, .ro, 0x0, 0, 65535, true⟩, ⟨F.BAT_IMP_R10, .ro, 0x0, 0, 65535, true⟩]⟩,
  ⟨0x260C, 0x40, 6, 1, [⟨F.BAT_ERES_ERES, .ro, 0x0, 0, 4294967295, false⟩]⟩,
  ⟨0x260D, 0x40, 6, 1, [⟨F.BAT_TEMP_TB, .ro, 0x0, 0, 65535, false⟩, ⟨F.BAT_TEMP_TCELL, .ro, 0x0, 0, 65535, false⟩]⟩,
  ⟨0x260E, 0x40, 6, 1, [⟨F.BAT_CELL_VMIN, .ro, 0x0, 0, 65535, false⟩, ⟨F.BAT_CELL_VMAX, .ro, 0x0, 0, 65535, false⟩]⟩,
  ⟨0x260F, 0x40, 6, 1, [⟨F.BAT_LRN_ACC, .ro, 0x0, 0, 65535, false⟩, ⟨F.BAT_LRN_REJ, .ro, 0x0, 0, 255, false⟩, ⟨F.BAT_LRN_LRNREJ, .ro, 0x0, 0, 7, false⟩]⟩,
  ⟨0x2610, 0x40, 6, 1, [⟨F.BAT_RC1_R, .ro, 0x0, 0, 65535, true⟩, ⟨F.BAT_RC1_TAU, .ro, 0x0, 0, 65535, true⟩]⟩,
  ⟨0x2611, 0x40, 6, 1, [⟨F.BAT_RC2_R, .ro, 0x0, 0, 65535, true⟩, ⟨F.BAT_RC2_TAU, .ro, 0x0, 0, 65535, true⟩]⟩,
  ⟨0x2612, 0x40, 6, 1, [⟨F.BAT_QZ_QZ, .ro, 0x0, 0, 4294967295, true⟩]⟩,
  ⟨0x2613, 0x40, 6, 1, [⟨F.BAT_QV1_QV1, .ro, 0x0, 0, 4294967295, true⟩]⟩,
  ⟨0x2614, 0x40, 6, 1, [⟨F.BAT_QV2_QV2, .ro, 0x0, 0, 4294967295, true⟩]⟩,
  ⟨0x2615, 0x40, 6, 1, [⟨F.BAT_RV_RV, .ro, 0x0, 0, 4294967295, true⟩]⟩,
  ⟨0x2616, 0x40, 6, 1, [⟨F.BAT_P0V_P0V, .ro, 0x0, 0, 4294967295, true⟩]⟩,
  ⟨0x2620, 0x40, 6, 32, [⟨F.BAT_SBLK_W, .rw, 0x0, 0, 4294967295, false⟩]⟩,
  ⟨0x2780, 0x0, 1, 1, [⟨F.BAT_DMCTRL_CMD, .wo, 0x0, 0, 255, false⟩, ⟨F.BAT_DMCTRL_CONFIRM, .wo, 0x0, 0, 65535, false⟩]⟩,
  ⟨0x2781, 0x0, 1, 1, [⟨F.BAT_DMSTAT_DMFLAG, .ro, 0x0, 0, 1, false⟩, ⟨F.BAT_DMSTAT_DMHOLD, .ro, 0x0, 0, 1, false⟩, ⟨F.BAT_DMSTAT_WOKE, .w1c, 0x0, 0, 1, false⟩]⟩]

/-- Rows of the Thm block (R409). -/
def mapThm : List RegRow := [
  ⟨0x2800, 0x0, 1, 1, [⟨F.THM_BRD_BRD_BUD, .rws, 0x0, 0, 65535, true⟩]⟩,
  ⟨0x2801, 0x0, 1, 1, [⟨F.THM_BRDSTAT_PWR, .ro, 0x0, 0, 65535, false⟩, ⟨F.THM_BRDSTAT_REQ, .ro, 0x0, 0, 511, false⟩, ⟨F.THM_BRDSTAT_OVER, .ro, 0x0, 0, 1, false⟩]⟩,
  ⟨0x2802, 0x0, 1, 1, [⟨F.THM_RACK_RBUD, .ro, 0x0, 0, 65535, false⟩, ⟨F.THM_RACK_RDENS, .ro, 0x0, 0, 511, false⟩, ⟨F.THM_RACK_RVALID, .ro, 0x0, 0, 1, false⟩]⟩,
  ⟨0x2803, 0x0, 1, 1, [⟨F.THM_CAPCFG_CAPD0, .rws, 0x0, 0, 256, true⟩, ⟨F.THM_CAPCFG_KUP, .rws, 0x0, 1, 127, true⟩, ⟨F.THM_CAPCFG_KDN, .rws, 0x0, 1, 127, true⟩, ⟨F.THM_CAPCFG_CAPSAT, .rws, 0x0, 1, 255, true⟩]⟩,
  ⟨0x2804, 0x0, 1, 1, [⟨F.THM_CTRL_CMD, .wo, 0x0, 0, 255, false⟩, ⟨F.THM_CTRL_CL, .wo, 0x0, 0, 15, false⟩, ⟨F.THM_CTRL_CONFIRM, .wo, 0x0, 0, 65535, false⟩]⟩,
  ⟨0x2805, 0x0, 1, 1, [⟨F.THM_TSD_TSDMASK, .ro, 0x0, 0, 65535, false⟩, ⟨F.THM_TSD_CMD_REF, .w1c, 0x0, 0, 1, false⟩]⟩,
  ⟨0x2806, 0x0, 1, 1, [⟨F.THM_TSDCNT_STORED, .ro, 0x0, 0, 63, false⟩, ⟨F.THM_TSDCNT_LOST, .ro, 0x0, 0, 65535, false⟩]⟩,
  ⟨0x2810, 0x1, 4, 1, [⟨F.THR_CFG_EN, .ro, 0x0, 0, 1, true⟩, ⟨F.THR_CFG_KIND, .ro, 0x0, 0, 1, true⟩, ⟨F.THR_CFG_TARGET, .ro, 0x0, 0, 15, true⟩, ⟨F.THR_CFG_PW, .rws, 0x0, 5, 1000, true⟩, ⟨F.THR_CFG_DMAX, .rws, 0x0, 0, 256, true⟩]⟩,
  ⟨0x2818, 0x1, 4, 1, [⟨F.THR_DEN_D, .ro, 0x0, 0, 511, false⟩, ⟨F.THR_DEN_SRC, .ro, 0x0, 0, 7, false⟩, ⟨F.THR_DEN_MAN, .rw, 0x0, 0, 511, false⟩]⟩]

/-- Rows of the Tm block (R409). -/
def mapTm : List RegRow := [
  ⟨0x2A00, 0x8, 32, 1, [⟨F.TM_CTRL_RUN, .rw, 0x0, 0, 1, false⟩, ⟨F.TM_CTRL_LINK, .rw, 0x0, 0, 1, false⟩, ⟨F.TM_CTRL_FRZ, .rw, 0x0, 0, 1, false⟩, ⟨F.TM_CTRL_GATE_EN, .rw, 0x0, 0, 1, false⟩, ⟨F.TM_CTRL_GATE_LVL, .rw, 0x0, 0, 1, false⟩, ⟨F.TM_CTRL_GATE_SRC, .rw, 0x0, 0, 127, false⟩, ⟨F.TM_CTRL_LATEACT, .rw, 0x0, 0, 2, false⟩, ⟨F.TM_CTRL_RELEASE, .wo, 0x0, 0, 1, false⟩, ⟨F.TM_CTRL_LATEWIN, .rw, 0x0, 0, 65535, false⟩]⟩,
  ⟨0x2A01, 0x8, 32, 1, [⟨F.TM_CNT_CNT, .rw, 0x0, 0, 4294967295, false⟩]⟩,
  ⟨0x2A02, 0x8, 32, 1, [⟨F.TM_CMPA_CMPA, .rw, 0x0, 0, 4294967295, false⟩]⟩,
  ⟨0x2A03, 0x8, 32, 1, [⟨F.TM_CMPB_CMPB, .rw, 0x0, 0, 4294967295, false⟩]⟩,
  ⟨0x2A04, 0x8, 32, 1, [⟨F.TM_ACT_ACTA, .rw, 0x0, 0, 15, false⟩, ⟨F.TM_ACT_TGTA, .rw, 0x0, 0, 63, false⟩, ⟨F.TM_ACT_ACTB, .rw, 0x0, 0, 15, false⟩, ⟨F.TM_ACT_TGTB, .rw, 0x0, 0, 63, false⟩]⟩,
  ⟨0x2B00, 0x0, 1, 1, [⟨F.TM_GSTART_GSTART, .wo, 0x0, 0, 4294967295, false⟩]⟩,
  ⟨0x2B01, 0x0, 1, 1, [⟨F.TM_GSTOP_GSTOP, .wo, 0x0, 0, 4294967295, false⟩]⟩,
  ⟨0x2B02, 0x0, 1, 1, [⟨F.TM_GCLR_GCLR, .wo, 0x0, 0, 4294967295, false⟩]⟩,
  ⟨0x2B03, 0x0, 1, 1, [⟨F.TM_MATCHA_MATCHA, .w1c, 0x0, 0, 4294967295, false⟩]⟩,
  ⟨0x2B04, 0x0, 1, 1, [⟨F.TM_MATCHB_MATCHB, .w1c, 0x0, 0, 4294967295, false⟩]⟩,
  ⟨0x2B05, 0x0, 1, 1, [⟨F.TM_LATE_LATE, .w1c, 0x0, 0, 4294967295, false⟩]⟩]

/-- Rows of the Cap block (R409). -/
def mapCap : List RegRow := [
  ⟨0x2C00, 0x0, 1, 1, [⟨F.CAP_CFG_SEN, .rw, 0x0, 0, 1, false⟩, ⟨F.CAP_CFG_PKTALERT, .rw, 0x0, 0, 1, false⟩, ⟨F.CAP_CFG_PKTMAX, .rw, 0x3FF, 64, 1023, false⟩, ⟨F.CAP_CFG_TAILG, .rw, 0xA, 1, 255, false⟩]⟩,
  ⟨0x2C01, 0x0, 1, 1, [⟨F.CAP_FSTAT_PKT_WAIT, .ro, 0x0, 0, 65535, false⟩, ⟨F.CAP_FSTAT_FULL, .ro, 0x0, 0, 1, false⟩, ⟨F.CAP_FSTAT_LASTEM, .ro, 0x0, 0, 1, false⟩, ⟨F.CAP_FSTAT_PKTF, .w1c, 0x0, 0, 1, false⟩, ⟨F.CAP_FSTAT_UNDER, .w1c, 0x0, 0, 1, false⟩, ⟨F.CAP_FSTAT_FECC, .w1c, 0x0, 0, 1, false⟩, ⟨F.CAP_FSTAT_DROPF, .w1c, 0x0, 0, 1, false⟩, ⟨F.CAP_FSTAT_CFGREF, .w1c, 0x0, 0, 1, false⟩, ⟨F.CAP_FSTAT_CMD_REF, .w1c, 0x0, 0, 1, false⟩]⟩,
  ⟨0x2C02, 0x0, 1, 1, [⟨F.CAP_FLEVEL_WORDS, .ro, 0x0, 0, 131071, false⟩, ⟨F.CAP_FLEVEL_FECCSEQ, .ro, 0x0, 0, 4095, false⟩]⟩,
  ⟨0x2C03, 0x0, 1, 1, [⟨F.CAP_FCTRL_CMD, .wo, 0x0, 0, 255, false⟩]⟩,
  ⟨0x2C04, 0x0, 1, 1, [⟨F.CAP_FIFOD_FIFOD, .ro, 0x0, 0, 4294967295, false⟩]⟩,
  ⟨0x2C05, 0x0, 1, 1, [⟨F.CAP_TRIG0_TRIG0, .wo, 0x0, 0, 4294967295, false⟩]⟩,
  ⟨0x2C06, 0x0, 1, 1, [⟨F.CAP_TRIG1_TRIG1, .wo, 0x0, 0, 4294967295, false⟩]⟩,
  ⟨0x2C07, 0x0, 1, 1, [⟨F.CAP_SREQ0_SREQ0, .wo, 0x0, 0, 4294967295, false⟩]⟩,
  ⟨0x2C08, 0x0, 1, 1, [⟨F.CAP_SREQ1_SREQ1, .wo, 0x0, 0, 4294967295, false⟩]⟩,
  ⟨0x2C09, 0x0, 1, 1, [⟨F.CAP_DIAG_WIDX, .ro, 0x0, 0, 16383, false⟩, ⟨F.CAP_DIAG_WRAP, .ro, 0x0, 0, 1, false⟩]⟩,
  ⟨0x2C0A, 0x0, 1, 1, [⟨F.CAP_DIAGA_RIDX, .rw, 0x0, 0, 16383, false⟩]⟩,
  ⟨0x2C0B, 0x0, 1, 1, [⟨F.CAP_DIAGD_DIAGD, .ro, 0x0, 0, 4294967295, false⟩]⟩,
  ⟨0x2C0C, 0x0, 1, 1, [⟨F.CAP_TIMEL_TIMEL, .ro, 0x0, 0, 4294967295, false⟩]⟩,
  ⟨0x2C0D, 0x0, 1, 1, [⟨F.CAP_TIMEH_TIMEH, .ro, 0x0, 0, 4294967295, false⟩]⟩,
  ⟨0x2C0E, 0x0, 1, 1, [⟨F.CAP_LOAD_RATE, .ro, 0x0, 0, 1048575, false⟩]⟩,
  ⟨0x2C40, 0x1, 64, 1, [⟨F.CH_DROP_DROP, .rc, 0x0, 0, 4294967295, false⟩]⟩,
  ⟨0x2D00, 0x4, 64, 1, [⟨F.CH_SRC_CLASS, .rw, 0x0, 0, 15, false⟩, ⟨F.CH_SRC_INDEX, .rw, 0x0, 0, 63, false⟩, ⟨F.CH_SRC_SHIFT, .rw, 0x0, 0, 31, false⟩]⟩,
  ⟨0x2D01, 0x4, 64, 1, [⟨F.CH_CFG_MODE, .rw, 0x0, 0, 3, false⟩, ⟨F.CH_CFG_DEC, .rw, 0x1, 1, 65535, false⟩, ⟨F.CH_CFG_AVG, .rw, 0x0, 0, 1, false⟩, ⟨F.CH_CFG_P2, .rw, 0x0, 0, 1, false⟩, ⟨F.CH_CFG_Q, .rw, 0x0, 0, 6, false⟩, ⟨F.CH_CFG_TAILT, .rw, 0xA, 1, 255, false⟩]⟩,
  ⟨0x2D02, 0x4, 64, 1, [⟨F.CH_LEN_LEN, .rw, 0x0, 0, 65535, false⟩]⟩,
  ⟨0x2D03, 0x4, 64, 1, [⟨F.CH_STAT_RUN, .ro, 0x0, 0, 1, false⟩, ⟨F.CH_STAT_WAIT, .ro, 0x0, 0, 1, false⟩, ⟨F.CH_STAT_DONE, .w1c, 0x0, 0, 1, false⟩, ⟨F.CH_STAT_GAPF, .w1c, 0x0, 0, 1, false⟩, ⟨F.CH_STAT_CFGREF, .w1c, 0x0, 0, 1, false⟩, ⟨F.CH_STAT_FILL, .ro, 0x0, 0, 2047, false⟩]⟩]

/-- Rows of the Owl block (R409). -/
def mapOwl : List RegRow := [
  ⟨0x2E00, 0x0, 1, 1, [⟨F.OWL_STAT_NEXT, .ro, 0x0, 0, 8191, false⟩, ⟨F.OWL_STAT_FULL, .ro, 0x0, 0, 1, false⟩, ⟨F.OWL_STAT_OVFW, .ro, 0x0, 0, 1, false⟩, ⟨F.OWL_STAT_CLRBUSY, .ro, 0x0, 0, 1, false⟩, ⟨F.OWL_STAT_CMD_REF, .w1c, 0x0, 0, 1, false⟩, ⟨F.OWL_STAT_TOKFAIL, .w1c, 0x0, 0, 1, false⟩]⟩,
  ⟨0x2E01, 0x0, 1, 1, [⟨F.OWL_LOST_EVENTS, .ro, 0x0, 0, 16777215, false⟩, ⟨F.OWL_LOST_SNAPS, .ro, 0x0, 0, 255, false⟩]⟩,
  ⟨0x2E02, 0x0, 1, 1, [⟨F.OWL_SEQ_SEQ, .ro, 0x0, 0, 4294967295, false⟩]⟩,
  ⟨0x2E03, 0x0, 1, 1, [⟨F.OWL_IDX_IDX, .rw, 0x0, 0, 4095, false⟩, ⟨F.OWL_IDX_STATE, .ro, 0x0, 0, 3, false⟩]⟩,
  ⟨0x2E04, 0x0, 1, 1, [⟨F.OWL_CTRL_CMD, .wo, 0x0, 0, 255, false⟩, ⟨F.OWL_CTRL_CONFIRM, .wo, 0x0, 0, 65535, false⟩]⟩,
  ⟨0x2E05, 0x0, 1, 1, [⟨F.OWL_CLRCNT_CLRCNT, .ro, 0x0, 0, 4294967295, false⟩]⟩,
  ⟨0x2E06, 0x0, 1, 1, [⟨F.OWL_SNAPCFG_POST, .rws, 0x0, 0, 255, true⟩, ⟨F.OWL_SNAPCFG_AUTO, .rws, 0x0, 0, 1, true⟩]⟩,
  ⟨0x2E07, 0x0, 1, 1, [⟨F.OWL_SNAPST_USED, .ro, 0x0, 0, 63, false⟩, ⟨F.OWL_SNAPST_BUSY, .ro, 0x0, 0, 1, false⟩]⟩,
  ⟨0x2E08, 0x1, 4, 1, [⟨F.OWL_CLRTOK_CLRTOK, .wo, 0x0, 0, 4294967295, false⟩]⟩,
  ⟨0x2E0C, 0x0, 1, 1, [⟨F.OWL_SNAPA_SNAP, .rw, 0x0, 0, 31, false⟩, ⟨F.OWL_SNAPA_WORD, .rw, 0x0, 0, 1023, false⟩]⟩,
  ⟨0x2E0D, 0x0, 1, 1, [⟨F.OWL_SNAPD_SNAPD, .ro, 0x0, 0, 4294967295, false⟩]⟩,
  ⟨0x2E0E, 0x0, 1, 1, [⟨F.OWL_MSL_MSL, .ro, 0x0, 0, 4294967295, false⟩]⟩,
  ⟨0x2E0F, 0x0, 1, 1, [⟨F.OWL_MSH_MSH, .ro, 0x0, 0, 67108863, false⟩]⟩,
  ⟨0x2E10, 0x1, 16, 1, [⟨F.OWL_REC_REC, .ro, 0x0, 0, 4294967295, false⟩]⟩,
  ⟨0x2E20, 0x0, 1, 1, [⟨F.OWL_PCYC_PCYC, .ro, 0x0, 0, 4294967295, false⟩]⟩]

/-- Rows of the Fld block (R409). -/
def mapFld : List RegRow := [
  ⟨0x3000, 0x10, 2, 1, [⟨F.FLD_CFG_SPEED, .ro, 0x0, 0, 2, true⟩, ⟨F.FLD_CFG_EN, .ro, 0x0, 0, 1, true⟩]⟩,
  ⟨0x3001, 0x10, 2, 1, [⟨F.FLD_STAT_BUSY, .ro, 0x0, 0, 1, false⟩, ⟨F.FLD_STAT_PWROFF, .ro, 0x0, 0, 1, false⟩, ⟨F.FLD_STAT_DISABLED, .ro, 0x0, 0, 1, false⟩, ⟨F.FLD_STAT_ARBF, .w1c, 0x0, 0, 1, false⟩, ⟨F.FLD_STAT_NACKF, .w1c, 0x0, 0, 1, false⟩, ⟨F.FLD_STAT_HANGF, .w1c, 0x0, 0, 1, false⟩, ⟨F.FLD_STAT_STALEF, .w1c, 0x0, 0, 1, false⟩, ⟨F.FLD_STAT_LASTADDR, .ro, 0x0, 0, 127, false⟩]⟩,
  ⟨0x3002, 0x10, 2, 1, [⟨F.FLD_CNT_ARBLOST, .rc, 0x0, 0, 255, false⟩, ⟨F.FLD_CNT_ARBFAIL, .rc, 0x0, 0, 255, false⟩, ⟨F.FLD_CNT_NACK, .rc, 0x0, 0, 255, false⟩, ⟨F.FLD_CNT_HANGS, .rc, 0x0, 0, 255, false⟩]⟩,
  ⟨0x3003, 0x10, 2, 1, [⟨F.FLD_CTRL_CMD, .wo, 0x0, 0, 255, false⟩, ⟨F.FLD_CTRL_CONFIRM, .wo, 0x0, 0, 65535, false⟩]⟩,
  ⟨0x3040, 0x4, 12, 1, [⟨F.RKM_CFG_RATING, .ro, 0x0, 0, 65535, true⟩, ⟨F.RKM_CFG_EN, .ro, 0x0, 0, 1, true⟩, ⟨F.RKM_CFG_PGSRC, .ro, 0x0, 0, 15, true⟩, ⟨F.RKM_CFG_SEG, .ro, 0x0, 0, 1, true⟩]⟩,
  ⟨0x3041, 0x4, 12, 1, [⟨F.RKM_V_V, .ro, 0x0, 0, 4294967295, false⟩]⟩,
  ⟨0x3042, 0x4, 12, 1, [⟨F.RKM_I_I, .ro, 0x0, 0, 4294967295, false⟩]⟩,
  ⟨0x3043, 0x4, 12, 1, [⟨F.RKM_STAT_ONLINE, .ro, 0x0, 0, 1, false⟩, ⟨F.RKM_STAT_PG, .ro, 0x0, 0, 1, false⟩, ⟨F.RKM_STAT_STALE, .ro, 0x0, 0, 1, false⟩, ⟨F.RKM_STAT_LOSTF, .w1c, 0x0, 0, 1, false⟩, ⟨F.RKM_STAT_STATUS, .ro, 0x0, 0, 65535, false⟩]⟩,
  ⟨0x3100, 0x0, 1, 1, [⟨F.LNK_CFG_EN, .ro, 0x0, 0, 1, true⟩, ⟨F.LNK_CFG_MCAP, .ro, 0x0, 0, 1, true⟩, ⟨F.LNK_CFG_MPRI, .ro, 0x0, 0, 63, true⟩, ⟨F.LNK_CFG_PROTMAX, .ro, 0x0, 0, 3, false⟩]⟩,
  ⟨0x3101, 0x0, 1, 1, [⟨F.LNK_STAT_STATE, .ro, 0x0, 0, 7, false⟩, ⟨F.LNK_STAT_ADDR, .ro, 0x0, 0, 63, false⟩, ⟨F.LNK_STAT_NODES, .ro, 0x0, 0, 127, false⟩, ⟨F.LNK_STAT_PROT, .ro, 0x0, 0, 3, false⟩, ⟨F.LNK_STAT_CLOSED, .ro, 0x0, 0, 1, false⟩, ⟨F.LNK_STAT_MLOST, .w1c, 0x0, 0, 1, false⟩, ⟨F.LNK_STAT_BREAKF, .w1c, 0x0, 0, 1, false⟩, ⟨F.LNK_STAT_BRKPOS, .ro, 0x0, 0, 63, false⟩, ⟨F.LNK_STAT_RORDER, .ro, 0x0, 0, 3, false⟩, ⟨F.LNK_STAT_ADDRV, .ro, 0x0, 0, 1, false⟩, ⟨F.LNK_STAT_BRKV, .ro, 0x0, 0, 1, false⟩]⟩,
  ⟨0x3102, 0x0, 1, 1, [⟨F.LNK_ERR_CRC, .rc, 0x0, 0, 65535, false⟩, ⟨F.LNK_ERR_CODEV, .rc, 0x0, 0, 65535, false⟩]⟩,
  ⟨0x3103, 0x0, 1, 1, [⟨F.LNK_TOFS_TOFS, .ro, 0x0, 0, 4294967295, false⟩]⟩,
  ⟨0x3104, 0x0, 1, 1, [⟨F.LNK_ORDER_ORDER, .rw, 0x0, 0, 2, false⟩, ⟨F.LNK_ORDER_FIRST, .rw, 0x1, 0, 63, false⟩, ⟨F.LNK_ORDER_LAST, .rw, 0x3F, 0, 63, false⟩, ⟨F.LNK_ORDER_RDENS, .rw, 0x0, 0, 511, false⟩]⟩,
  ⟨0x3105, 0x0, 1, 1, [⟨F.LNK_RKCFG_RKMARG, .rws, 0x0, 0, 255, true⟩, ⟨F.LNK_RKCFG_BATALLOW, .rws, 0x0, 0, 65535, true⟩]⟩,
  ⟨0x3106, 0x0, 1, 1, [⟨F.LNK_RKBUD_RB, .ro, 0x0, 0, 65535, false⟩, ⟨F.LNK_RKBUD_ONLINE, .ro, 0x0, 0, 15, false⟩]⟩,
  ⟨0x3107, 0x0, 1, 1, [⟨F.LNK_RKVSET_RKVSET, .rws, 0x0, 0, 65535, true⟩]⟩]

/-- Rows of the Hst block (R409). -/
def mapHst : List RegRow := [
  ⟨0x3200, 0x0, 1, 1, [⟨F.HST_CFG_PECREQ, .rws, 0x0, 0, 1, true⟩, ⟨F.HST_CFG_WINC, .rws, 0x1, 0, 1, false⟩]⟩,
  ⟨0x3201, 0x0, 1, 1, [⟨F.HST_STAT_CML, .w1c, 0x0, 0, 255, false⟩, ⟨F.HST_STAT_AWAKE, .ro, 0x0, 0, 1, false⟩, ⟨F.HST_STAT_ALERTL, .ro, 0x0, 0, 1, false⟩]⟩,
  ⟨0x3202, 0x0, 1, 1, [⟨F.HST_REF0_CODE, .ro, 0x0, 0, 15, false⟩, ⟨F.HST_REF0_ADDR, .ro, 0x0, 0, 65535, false⟩]⟩,
  ⟨0x3203, 0x0, 1, 1, [⟨F.HST_REF1_CODE, .ro, 0x0, 0, 15, false⟩, ⟨F.HST_REF1_ADDR, .ro, 0x0, 0, 65535, false⟩]⟩,
  ⟨0x3204, 0x0, 1, 1, [⟨F.HST_ALERT_SUP, .ro, 0x0, 0, 1, false⟩, ⟨F.HST_ALERT_PKT, .ro, 0x0, 0, 1, false⟩, ⟨F.HST_ALERT_TMR, .ro, 0x0, 0, 1, false⟩, ⟨F.HST_ALERT_PEND, .ro, 0x0, 0, 1, false⟩]⟩,
  ⟨0x3205, 0x0, 1, 1, [⟨F.HST_WADDR_ADDR, .ro, 0x0, 0, 65535, false⟩]⟩,
  ⟨0x3206, 0x0, 1, 1, [⟨F.HST_ERRCNT_PEC, .rc, 0x0, 0, 255, false⟩, ⟨F.HST_ERRCNT_SCRC, .rc, 0x0, 0, 255, false⟩, ⟨F.HST_ERRCNT_SCLTO, .rc, 0x0, 0, 255, false⟩, ⟨F.HST_ERRCNT_SDAREL, .rc, 0x0, 0, 255, false⟩]⟩,
  ⟨0x3210, 0x1, 19, 1, [⟨F.HST_PSTAT_VOUT, .w1c, 0x0, 0, 255, false⟩, ⟨F.HST_PSTAT_IOUT, .w1c, 0x0, 0, 255, false⟩, ⟨F.HST_PSTAT_INPUT, .w1c, 0x0, 0, 255, false⟩, ⟨F.HST_PSTAT_TEMP, .w1c, 0x0, 0, 255, false⟩]⟩,
  ⟨0x3300, 0x0, 1, 1, [⟨F.IMG_BOOTSTAT_SLOT, .ro, 0x0, 0, 3, false⟩, ⟨F.IMG_BOOTSTAT_FALLBACK, .ro, 0x0, 0, 1, false⟩, ⟨F.IMG_BOOTSTAT_NOIMG, .ro, 0x0, 0, 1, false⟩, ⟨F.IMG_BOOTSTAT_ERR_A, .ro, 0x0, 0, 255, false⟩, ⟨F.IMG_BOOTSTAT_ERR_B, .ro, 0x0, 0, 255, false⟩, ⟨F.IMG_BOOTSTAT_RETRIES, .ro, 0x0, 0, 15, false⟩, ⟨F.IMG_BOOTSTAT_HOTWAIT, .ro, 0x0, 0, 1, false⟩, ⟨F.IMG_BOOTSTAT_DEBUG_EN, .ro, 0x0, 0, 1, false⟩]⟩,
  ⟨0x3301, 0x0, 1, 1, [⟨F.IMG_INFO_OVL_FMT, .ro, 0x0, 0, 65535, false⟩, ⟨F.IMG_INFO_SECVER, .ro, 0x0, 0, 255, false⟩, ⟨F.IMG_INFO_ARBCNT, .ro, 0x0, 0, 255, false⟩]⟩,
  ⟨0x3302, 0x0, 1, 1, [⟨F.IMG_BUILD_BUILD_ID, .ro, 0x0, 0, 4294967295, false⟩]⟩,
  ⟨0x3303, 0x0, 1, 1, [⟨F.IMG_FLASH_JEDEC, .ro, 0x0, 0, 16777215, false⟩, ⟨F.IMG_FLASH_DUMMY, .ro, 0x0, 0, 15, false⟩, ⟨F.IMG_FLASH_DENS, .ro, 0x0, 0, 15, false⟩]⟩,
  ⟨0x3304, 0x0, 1, 1, [⟨F.IMG_OVLSTAT_BANK, .ro, 0x0, 0, 1, false⟩, ⟨F.IMG_OVLSTAT_NONE, .ro, 0x0, 0, 1, false⟩, ⟨F.IMG_OVLSTAT_MIGRATED, .ro, 0x0, 0, 1, false⟩, ⟨F.IMG_OVLSTAT_MIGR_PEND, .ro, 0x0, 0, 1, false⟩, ⟨F.IMG_OVLSTAT_OVL_HASH, .ro, 0x0, 0, 1, false⟩, ⟨F.IMG_OVLSTAT_OVL_NEWER, .ro, 0x0, 0, 1, false⟩, ⟨F.IMG_OVLSTAT_OVL_XFAIL, .ro, 0x0, 0, 1, false⟩, ⟨F.IMG_OVLSTAT_OVL_TORN, .ro, 0x0, 0, 1, false⟩, ⟨F.IMG_OVLSTAT_SKIPCNT, .ro, 0x0, 0, 4095, false⟩]⟩,
  ⟨0x3305, 0x0, 1, 1, [⟨F.IMG_OVLSEQ_SEQ, .ro, 0x0, 0, 4294967295, false⟩]⟩,
  ⟨0x3306, 0x0, 1, 1, [⟨F.IMG_RESSTAT_BUSY, .w1c, 0x0, 0, 1, false⟩, ⟨F.IMG_RESSTAT_CLASS, .ro, 0x0, 0, 15, false⟩, ⟨F.IMG_RESSTAT_INDEX, .ro, 0x0, 0, 1023, false⟩, ⟨F.IMG_RESSTAT_OWNER, .ro, 0x0, 0, 255, false⟩]⟩,
  ⟨0x3310, 0x0, 1, 1, [⟨F.UPD_STAT_SESSION, .ro, 0x0, 0, 3, false⟩, ⟨F.UPD_STAT_ACTIVE, .ro, 0x0, 0, 1, false⟩, ⟨F.UPD_STAT_PEND, .ro, 0x0, 0, 1, false⟩, ⟨F.UPD_STAT_TRIAL, .ro, 0x0, 0, 1, false⟩, ⟨F.UPD_STAT_TRIES, .ro, 0x0, 0, 3, false⟩, ⟨F.UPD_STAT_RESULT, .ro, 0x0, 0, 255, false⟩, ⟨F.UPD_STAT_CMD_REF, .w1c, 0x0, 0, 1, false⟩]⟩,
  ⟨0x3311, 0x0, 1, 1, [⟨F.UPD_BLOCKS_DONE, .ro, 0x0, 0, 2047, false⟩, ⟨F.UPD_BLOCKS_FAILED, .ro, 0x0, 0, 65535, false⟩]⟩,
  ⟨0x3312, 0x0, 1, 1, [⟨F.UPD_TRIALT_T, .ro, 0x0, 0, 4095, false⟩]⟩,
  ⟨0x3313, 0x0, 1, 1, [⟨F.UPD_CTRL_CMD, .wo, 0x0, 0, 255, false⟩, ⟨F.UPD_CTRL_CONFIRM, .wo, 0x0, 0, 65535, false⟩]⟩,
  ⟨0x3314, 0x0, 1, 1, [⟨F.UPD_BOOTREC_PRIOR, .ro, 0x0, 0, 1, false⟩, ⟨F.UPD_BOOTREC_PVALID, .ro, 0x0, 0, 1, false⟩, ⟨F.UPD_BOOTREC_PSLOT, .ro, 0x0, 0, 1, false⟩, ⟨F.UPD_BOOTREC_ARBCNT, .ro, 0x0, 0, 255, false⟩]⟩,
  ⟨0x3315, 0x0, 1, 1, [⟨F.UPD_KEYSTAT_ENROLLED, .ro, 0x0, 0, 15, false⟩, ⟨F.UPD_KEYSTAT_REVOKED, .ro, 0x0, 0, 15, false⟩]⟩,
  ⟨0x3320, 0x1, 24, 1, [⟨F.UPD_KEYEN_W, .ro, 0x0, 0, 4294967295, true⟩]⟩,
  ⟨0x3338, 0x0, 1, 1, [⟨F.UPD_KEYREV_REV, .ro, 0x0, 0, 7, true⟩]⟩]

/-- Rows of the Win block (R409). -/
def mapWin : List RegRow := [
  ⟨0x4000, 0x100, 16, 128, [⟨F.GT_T, .rwt, 0x0, 0, 65535, true⟩]⟩,
  ⟨0x5000, 0x100, 6, 5, [⟨F.OCVT_T, .ro, 0x0, 0, 65535, true⟩]⟩,
  ⟨0x5008, 0x100, 6, 165, [⟨F.OCVV_V, .ro, 0x0, 0, 65535, true⟩]⟩,
  ⟨0x5800, 0x1, 736, 1, [⟨F.REACT_LOG, .ro, 0x0, 0, 1, true⟩, ⟨F.REACT_ALERT, .ro, 0x0, 0, 1, true⟩, ⟨F.REACT_CAP, .ro, 0x0, 0, 1, true⟩, ⟨F.REACT_SHED, .ro, 0x0, 0, 1, true⟩, ⟨F.REACT_CLOFF, .ro, 0x0, 0, 1, true⟩, ⟨F.REACT_SEQOFF, .ro, 0x0, 0, 1, true⟩, ⟨F.REACT_SAFE, .ro, 0x0, 0, 1, true⟩, ⟨F.REACT_SYSFLT, .ro, 0x0, 0, 1, true⟩, ⟨F.REACT_PKG, .ro, 0x0, 0, 1, true⟩]⟩,
  ⟨0x5B00, 0x1, 736, 1, [⟨F.SUPV_FTT_T, .ro, 0x0, 0, 4294967295, false⟩]⟩,
  ⟨0x5E00, 0x2, 64, 1, [⟨F.POLL1_A_ADDR, .ro, 0x0, 0, 127, true⟩, ⟨F.POLL1_A_EN, .ro, 0x0, 0, 1, true⟩, ⟨F.POLL1_A_KIND, .ro, 0x0, 0, 15, true⟩, ⟨F.POLL1_A_PROTO, .ro, 0x0, 0, 15, true⟩, ⟨F.POLL1_A_CMD, .ro, 0x0, 0, 255, true⟩, ⟨F.POLL1_A_PERIOD, .ro, 0x0, 0, 255, true⟩]⟩,
  ⟨0x5E01, 0x2, 64, 1, [⟨F.POLL1_B_COUNT, .ro, 0x0, 0, 255, true⟩, ⟨F.POLL1_B_INST, .ro, 0x0, 0, 15, true⟩, ⟨F.POLL1_B_PEC, .ro, 0x0, 0, 1, true⟩, ⟨F.POLL1_B_FIRST, .ro, 0x0, 0, 31, true⟩]⟩,
  ⟨0x5E80, 0x2, 64, 1, [⟨F.POLL1_D_DATA, .ro, 0x0, 0, 4294967295, false⟩]⟩,
  ⟨0x5E81, 0x2, 64, 1, [⟨F.POLL1_R_AGE, .ro, 0x0, 0, 65535, false⟩, ⟨F.POLL1_R_RES, .ro, 0x0, 0, 15, false⟩]⟩,
  ⟨0x5F00, 0x2, 64, 1, [⟨F.POLL2_A_ADDR, .ro, 0x0, 0, 127, true⟩, ⟨F.POLL2_A_EN, .ro, 0x0, 0, 1, true⟩, ⟨F.POLL2_A_KIND, .ro, 0x0, 0, 15, true⟩, ⟨F.POLL2_A_PROTO, .ro, 0x0, 0, 15, true⟩, ⟨F.POLL2_A_CMD, .ro, 0x0, 0, 255, true⟩, ⟨F.POLL2_A_PERIOD, .ro, 0x0, 0, 255, true⟩]⟩,
  ⟨0x5F01, 0x2, 64, 1, [⟨F.POLL2_B_COUNT, .ro, 0x0, 0, 255, true⟩, ⟨F.POLL2_B_INST, .ro, 0x0, 0, 15, true⟩, ⟨F.POLL2_B_PEC, .ro, 0x0, 0, 1, true⟩, ⟨F.POLL2_B_FIRST, .ro, 0x0, 0, 31, true⟩]⟩,
  ⟨0x5F80, 0x2, 64, 1, [⟨F.POLL2_D_DATA, .ro, 0x0, 0, 4294967295, false⟩]⟩,
  ⟨0x5F81, 0x2, 64, 1, [⟨F.POLL2_R_AGE, .ro, 0x0, 0, 65535, false⟩, ⟨F.POLL2_R_RES, .ro, 0x0, 0, 15, false⟩]⟩,
  ⟨0x6000, 0x2, 64, 1, [⟨F.NODE_A_W, .rws, 0x0, 0, 255, true⟩, ⟨F.NODE_A_REACH, .ro, 0x0, 0, 1, false⟩, ⟨F.NODE_A_RPTD, .ro, 0x0, 0, 1, false⟩, ⟨F.NODE_A_RBUD, .ro, 0x0, 0, 65535, false⟩]⟩,
  ⟨0x6001, 0x2, 64, 1, [⟨F.NODE_B_PWR, .ro, 0x0, 0, 65535, false⟩, ⟨F.NODE_B_LBUD, .ro, 0x0, 0, 65535, false⟩]⟩]

/-- The whole map, in address order of its blocks (R405). -/
def regMap : List RegRow :=
  mapDev ++
  mapClk ++
  mapSupv ++
  mapPh ++
  mapCl1 ++
  mapCl2 ++
  mapCl3 ++
  mapRgn ++
  mapFeed ++
  mapBat ++
  mapThm ++
  mapTm ++
  mapCap ++
  mapOwl ++
  mapFld ++
  mapHst ++
  mapWin

/-- The rows of the block that holds a word address (R405). -/
def mapAt (a : Nat) : List RegRow :=
  if a < 0x400 then (if a < 0x100 then mapDev else if a < 0x200 then mapClk else mapSupv)
  else if a < 0x2000 then
    (if a < 0x1000 then mapPh
     else if a % 0x100 < 0x20 then mapCl1 else if a % 0x100 < 0x50 then mapCl2 else mapCl3)
  else if a < 0x2A00 then
    (if a < 0x2400 then mapRgn else if a < 0x2600 then mapFeed else if a < 0x2800 then mapBat else mapThm)
  else if a < 0x4000 then
    (if a < 0x2C00 then mapTm else if a < 0x2E00 then mapCap else if a < 0x3000 then mapOwl
     else if a < 0x3200 then mapFld else mapHst)
  else mapWin

/-- The row that covers a word address (R404: a word no row covers is reserved). -/
def regRow (a : Nat) : Option RegRow := (mapAt a).find? (fun r => r.covers a)

/-- The fields of a word; none for a reserved word (R404). -/
def regFields (a : Nat) : List FieldRow := (regRow a).elim [] (·.fields)

/-- What a word reads before anything has written it: the numbers of the Reset column (R9, R406).  A field whose
column holds a word of R406 (image, calibration, boot, latched, restored, kept, level) reads 0 until that source
supplies it (DESIGN CHOICE, unsafe, log entry 3). -/
def regReset (a : Nat) : BitVec 32 :=
  (regFields a).foldl (fun w f => Fld.insert f.fld w f.reset) 0

end Sys2Proof.Machine
end

