-- ==== Sys2Proof/Machine/Sparse.lean ====
section
/-! DEFINITION. Sparse stores: a list of (address, value) pairs in one canonical form, over a function that says what an
unlisted address reads as.  The register file and the configuration flash are held so. -/

namespace Sys2Proof.Machine

/-- What an address reads as. -/
def Sparse.get {α : Type} (d : Nat → α) : List (Nat × α) → Nat → α
  | [], a => d a
  | (k, v) :: r, a => if a = k then v else Sparse.get d r a

/-- Putting an entry before the first greater address. -/
def Sparse.ins {α : Type} (a : Nat) (v : α) : List (Nat × α) → List (Nat × α)
  | [] => [(a, v)]
  | (k, w) :: r => if a < k then (a, v) :: (k, w) :: r else (k, w) :: Sparse.ins a v r

/-- Writing one address: its entry goes, and a new one stands in its place unless the value is what an unlisted address
reads as. -/
def Sparse.put {α : Type} [DecidableEq α] (d : Nat → α) (a : Nat) (v : α) (l : List (Nat × α)) : List (Nat × α) :=
  let r := l.filter (fun e => e.1 != a)
  if v = d a then r else Sparse.ins a v r

/-- The canonical form: addresses strictly rising, each at least `lo`, and no entry equal to what an unlisted address
reads as. -/
def Sparse.wfFrom {α : Type} [DecidableEq α] (d : Nat → α) : Nat → List (Nat × α) → Bool
  | _, [] => true
  | lo, (k, v) :: r => decide (lo ≤ k) && decide (v ≠ d k) && Sparse.wfFrom d (k + 1) r

/-- The canonical form of a whole store. -/
def Sparse.wf {α : Type} [DecidableEq α] (d : Nat → α) (l : List (Nat × α)) : Bool := Sparse.wfFrom d 0 l

end Sys2Proof.Machine
end

