-- ==== Sys2Proof/Machine/State.lean ====
section
/-! DEFINITION. The machine's state: every register (in `regs`, over the register map), every piece of state the spec
names outside the registers, the pins, the configuration flash, the on-chip NVM, and the queue of waiting commands.
INVENTORY.md lists each with its rule and reset value. -/

namespace Sys2Proof.Machine


/-! ### The kinds of state that are names -/

/-- The seven device states of R30. -/
inductive DevState where
  | boot | standby | sequp | run | seqdn | safe | dormouse
  deriving DecidableEq, Repr

/-- The instruction in force in the test access port (R55). -/
inductive TapInst where
  | extest | idcode | samplePreload | clamp | highz | debug | bypass
  deriving DecidableEq, Repr

/-- The three levels of a PWM ball (R105). -/
inductive PwmLevel where
  | low | mid | high
  deriving DecidableEq, Repr

/-- Where a cluster stands between off and on (R118, R138, R250). -/
inductive ClusterRun where
  | off | checking | delay | softStart | on | softStop
  deriving DecidableEq, Repr

/-- Where a feed gate stands (R197, R201, R205): held off; ramping in inrush; charging in a transfer; conducting;
discharging, not yet confirmed off. -/
inductive GateSt where
  | off | inrush | charging | conducting | discharging
  deriving DecidableEq, Repr

/-- Where a feed transfer stands (R205). -/
inductive XferSt where
  | idle | waitOff | deadTime | charging
  deriving DecidableEq, Repr

/-- Where the cure of a hung field bus stands (R365). -/
inductive CureSt where
  | none | powerOff | wait
  deriving DecidableEq, Repr

/-- A ring order as received (R33, R375). -/
inductive RingOrder where
  | none | on | off
  deriving DecidableEq, Repr

/-! ### Records held in the state -/

/-- A ratio-step measurement in progress (R183, R184): the candidate's ORDER position, the frames since it began, whether it
is the repeat of one that departed, and whether an abandon condition arose. -/
structure RsRun where
  pos : Nat
  frames : Nat
  again : Bool
  abandoned : Bool
  deriving DecidableEq, Repr

/-- One checkpoint frame of the state mirror (R165): its 32 words, and whether it passed P1 to P3 (R166). -/
structure Frame where
  words : List Word
  passed : Bool
  deriving DecidableEq, Repr

/-- A learning cycle since the last reference point (R237): z as the point set it, the charge counted, the sum of |I| in
A ms and the time, the disqualifiers met in order, whether charging was seen, the pause in charging in ms, and the
charge drawn since the last charge interval. -/
structure Learn where
  z0 : Rat
  charge : Rat
  absSum : Rat
  ms : Nat
  dqs : List Nat
  charged : Bool
  pauseMs : Nat
  dis : Rat
  deriving DecidableEq, Repr

/-- What a capture ring holds in order (R308): a sample with the tick of its last native sample, a gap with its cause,
the tick of the first sample lost and how many were lost, or the end of a run (R307). -/
inductive RingItem where
  | sample (x : BitVec 16) (ts : BitVec 48)
  | gap (cause : Nat) (ts : BitVec 48) (lost : Nat)
  | stop
  deriving DecidableEq, Repr

/-- One channel's vote frame (R262): whether it is valid (R263), six target sets of 69 bits in the order CAP, SHED,
CLOFF, SEQOFF, SAFE, SYSFLT, and the sequencer decision. -/
structure VoteFrame where
  chan : Nat
  valid : Bool
  acts : Vector (BitVec 69) 6
  dec : BitVec 9
  deriving DecidableEq, Repr

/-- A raise of a source that no evaluation has taken yet (R269, R279): the source, DEV_STATE.STATE and the operating
time at the raise. -/
structure Raise where
  src : Nat
  st : Nat
  ms : BitVec 48
  us : Nat
  deriving DecidableEq, Repr

/-- An action of a fault that is not yet complete (R282): its code in the bit order of the reaction entry, and its
target in the numbering of the vote frame (0 package, 1 + x region, 5 + n cluster, 21 + n phase). -/
structure OpenAct where
  act : Nat
  tgt : Nat
  deriving DecidableEq, Repr

/-- The contents of the last BUSSTATE frame (R368). -/
structure BusState where
  segA : BitVec 16 := 0
  segB : BitVec 16 := 0
  rects : BitVec 8 := 0
  soc : BitVec 8 := 0
  hold : Bool := false
  deriving DecidableEq, Repr

/-- An event record as created (R383): its type, SEQ, time, power-cycle count and payload words. -/
structure OwlRec where
  type : Nat
  seq : BitVec 32
  ms : BitVec 48
  us : Nat
  pcyc : BitVec 32
  payload : List Word
  deriving DecidableEq, Repr

/-- An event slot that is not free (R383, R387, R388): sixteen words, or torn by power loss, or marked bad. -/
inductive OwlSlot where
  | words (w : List Word)
  | torn
  | bad
  deriving DecidableEq, Repr

/-- The state record of the counter area (R381): trip latches, CAUSE, RESEATPEND and the retry time (R212), DMFLAG
(R241), TSD latches (R292). -/
structure StateRec where
  trip : BitVec 3 := 0
  cause : Vector (BitVec 3) 3 := Vector.replicate 3 0
  reseat : Bool := false
  remain : BitVec 12 := 0
  dmFlag : Bool := false
  tsd : BitVec 16 := 0
  deriving DecidableEq, Repr

/-- The boot record of the counter area (R381, R397 to R399). -/
structure BootRec where
  active : Bool := false
  prior : Bool := false
  pvalid : Bool := false
  pend : Option Bool := none
  trial : Bool := false
  tries : Nat := 0
  trialT : Nat := 0
  arb : BitVec 8 := 0
  deriving DecidableEq, Repr

/-- An overlay bank (R74): format, sequence number, hash and entries. -/
structure Bank where
  fmt : BitVec 16
  seq : BitVec 32
  hash : BitVec 64
  entries : List (Nat × Word)
  deriving DecidableEq, Repr

/-- One owned resource (R71, R72): class, index, owner, and whether a host claim made it (the image otherwise). -/
structure Own where
  cls : Nat
  idx : Nat
  owner : Nat
  claimed : Bool
  deriving DecidableEq, Repr


/-! ### The state, unit by unit -/

/-- The supply, reset and die conditions. -/
structure PowerSt where
  /-- R39, R44: V5 at or above 2.5 V since POWER_UP (the sense die keeps its latches). -/
  powered : Bool := false
  /-- R44: V5 at or above 4.85 V. -/
  v5Good : Bool := false
  /-- R44: VDD08 and VDD18 in regulation. -/
  railsOk : Bool := false
  /-- R79: root PLL locked to XIN. -/
  rootLocked : Bool := false
  /-- R39: VDDIO mode latched (the mode itself is DEV_PWRSTAT.IOMODE). -/
  vddioLatched : Bool := false
  /-- R45: RESET# held low long enough to be a reset. -/
  resetLow : Bool := false
  /-- R19: DIE_HOT in force: capture and stream port stopped. -/
  dieHot : Bool := false
  /-- R19: BOOT waits for both dies below 135 C. -/
  hotWait : Bool := false
  /-- R19: whether this BOOT started with a hot die is known. -/
  tempRead : Bool := false
  /-- R18: control-die heartbeat missing: control die treated as dead until BOOT. -/
  heartbeatLost : Bool := false
  /-- R276: the 5 ms of R276 have ended and GA, GB, GH are held off. -/
  safeGatesOff : Bool := false
  /-- R50: a BOOT has been entered since V5 rose above 2.5 V. -/
  booted : Bool := false
  /-- R120, R200: a failed check of an HV cluster on VBUS: no feed connected before the next BOOT. -/
  feedsBarred : Bool := false
  deriving DecidableEq, Repr

/-- The test access port (R55) and what a debug instruction halts (R70). -/
structure TapSt where
  /-- R55: instruction register (captures 0b0000_0001); DESIGN CHOICE see log. -/
  ir : BitVec 8 := 0x01
  /-- R55: instruction in force. -/
  inst : TapInst := .bypass
  /-- R55: boundary register: 115 balls in ball-map order, 3 cells each (input, output, control); 345 cells. -/
  boundary : List (BitVec 3) := []
  /-- R70, R98: service core halted by a debug instruction. -/
  halted : Bool := false
  /-- R98: FRZ timers hold their count (third TMR cycle after the halt). -/
  frozen : Bool := false
  /-- R98: TMR cycles until FRZ timers follow a halt or a release of the service core. -/
  freezeIn : Nat := 0
  /-- R56: safe-off was forced while EXTEST, CLAMP or HIGHZ was loaded: every PWM ball at the mid level. -/
  forcedMid : Bool := false
  deriving DecidableEq, Repr

/-- The root reference and the counts of time. -/
structure ClockSt where
  /-- R80: consecutive accepted SYNC_IN edges, to 16. -/
  qualCount : Nat := 0
  /-- R80: SYNC_IN qualified. -/
  qualified : Bool := false
  /-- R80, R81: root steering towards SYNC_IN. -/
  steering : Bool := false
  /-- R81: consecutive missing periods. -/
  missing : Nat := 0
  /-- R83: XIN has shown no transition for 10 us. -/
  xinDead : Bool := false
  /-- R86: accepted edges since qualification (MODE 2 alignment counting). -/
  alignCount : Nat := 0
  /-- R86: bit n: the last accepted edge is an alignment edge of CLn. -/
  alignEdge : BitVec 16 := 0
  /-- R173: internal TMR count, from the entry to STANDBY. -/
  tmr : BitVec 48 := 0
  /-- R379: ticks of 10 ns since the last whole operating microsecond (0 to 99). -/
  opTicks : Nat := 0
  /-- R379: microseconds within the operating millisecond, 0 to 999. -/
  us : Nat := 0
  /-- R379: operating milliseconds. -/
  ms : BitVec 48 := 0
  /-- R280: microseconds since BOOT, wrapping. -/
  usBoot : BitVec 32 := 0
  /-- R212, R399: microseconds within the present second of the 1 s counters, 0 to 999,999. -/
  sub : Nat := 0
  deriving DecidableEq, Repr

/-- What a timer holds beside its registers. -/
structure TimerSt where
  /-- R90: CMPA armed. -/
  armA : Bool := true
  /-- R90: CMPB armed. -/
  armB : Bool := true
  /-- R91: LATE fire pending on CMPA. -/
  fireA : Bool := false
  /-- R91: LATE fire pending on CMPB. -/
  fireB : Bool := false
  /-- R92: low word of a linked pair's TMn_CNT waiting for the high word. -/
  hold : Option (BitVec 32) := none
  /-- R92: the same for CMPA. -/
  holdA : Option (BitVec 32) := none
  /-- R92: the same for CMPB. -/
  holdB : Option (BitVec 32) := none
  /-- R87: value that loads at the next tick. -/
  load : Option (BitVec 32) := none
  deriving DecidableEq, Repr

/-- What a phase unit holds beside its registers. -/
structure PhaseSt where
  /-- R105: level of PWMn. -/
  out : PwmLevel := .mid
  /-- R102: MINOFF has elapsed since the last high interval. -/
  minOffDone : Bool := true
  /-- R102: a scheduled on-edge or on request waits for the end of MINOFF. -/
  onDeferred : Bool := false
  /-- R113: leading-edge blanking running. -/
  blanking : Bool := false
  /-- R117: Fox hold in force. -/
  foxHold : Bool := false
  /-- R117: periods left of a retried hold. -/
  foxLeft : Nat := 0
  /-- R110: consecutive samples at code 0 or 4,095. -/
  rangeRun : Nat := 0
  /-- R107: consecutive samples below IZC. -/
  demRun : Nat := 0
  /-- R107: diode emulation holds the output at mid. -/
  dem : Bool := false
  /-- R122: lane skew not below 20 ps at BOOT. -/
  laneFail : Bool := false
  /-- R181: latest calibrated phase current, mA. -/
  iCal : Rat := 0
  /-- R160: consecutive frames with both open conditions. -/
  openRun : Nat := 0
  /-- R161: consecutive frames ended at the maximum on-time. -/
  stuckRun : Nat := 0
  /-- R289: Foster states theta_1 to theta_4, C. -/
  theta : Vector Rat 4 := Vector.replicate 4 0
  /-- R155: PKLIM set within the present 16 balance periods. -/
  pkBal : Bool := false
  /-- R188: telemetry block: sum of I_k in mA and count. -/
  telAcc : Rat × Nat := (0, 0)
  /-- R188, R153: samples of I_k since the last update of its cluster: sum in mA and count. -/
  updAcc : Rat × Nat := (0, 0)
  /-- R155: samples of I_k since the last balance step: sum in mA and count. -/
  balAcc : Rat × Nat := (0, 0)
  /-- R100: scheduled on-edge after the frame start, fine steps of 1/64 PWM cycle. -/
  place : Nat := 0
  /-- R181: GREL and ZERO in force since the last frame start. -/
  calF : Nat × Int := (32768, 0)
  deriving DecidableEq, Repr

/-- What a cluster and its loop engine hold beside their registers. -/
structure ClusterSt where
  /-- R247: off, checking, delay, softStart, on, softStop. -/
  run : ClusterRun := .off
  /-- R130: integrator (CLn_ACCL/H are its view). -/
  acc : BitVec 48 := 0
  /-- R125: e of the last update. -/
  ePrev : Int := 0
  /-- R125, R165: vramp in 1/65,536 code. -/
  vramp : Nat := 0
  /-- R165: vramp step per update, signed, 1/65,536 code. -/
  step : Int := 0
  /-- R165: S in force. -/
  sForce : Nat := 0
  /-- R137: load-line drop, codes. -/
  llDrop : Int := 0
  /-- R137: rail-cap drop, codes. -/
  capDrop : Nat := 0
  /-- R123: updates since the last outer-loop run. -/
  outCount : Nat := 0
  /-- R142: lead-warning term, mA. -/
  lw : Int := 0
  /-- R142: the reference adder's own term until the next update's issue, mA. -/
  lwAdder : Int := 0
  /-- R143: window remaining, LOOP cycles. -/
  lwWin : Nat := 0
  /-- R143: I_load at the decode, mA. -/
  lwRef : Rat := 0
  /-- R143: latest I_load estimate, mA. -/
  iLoad : Rat := 0
  /-- R143: ramp updates remaining. -/
  lwRamp : Nat := 0
  /-- R143: lw at the start of its ramp. -/
  lwFrom : Int := 0
  /-- R144: pin of the active warning. -/
  lwPin : Nat := 0
  /-- R149: LWSTEP, LWWIN, LWABORT of the active warning. -/
  lwCfg : Option (Nat × Nat × Nat) := none
  /-- R157: a lead warning was decoded since the previous update. -/
  lwNew : Bool := false
  /-- R144: suspended pins. -/
  suspMask : BitVec 4 := 0
  /-- R144: consecutive false warnings per pin. -/
  falseRun : Vector Nat 4 := Vector.replicate 4 0
  /-- R146: injection phase accumulator. -/
  injPhase : BitVec 32 := 0
  /-- R147: the sine run has passed its first phase wrap. -/
  injStarted : Bool := false
  /-- R146: PRBS register. -/
  prbs : Nat := 0
  /-- R146: chip counter. -/
  chip : Nat := 0
  /-- R165: injection periods completed. -/
  injPer : Nat := 0
  /-- R146: inj_v of the present update, codes. -/
  injV : Int := 0
  /-- R146: inj_i of the present update, mA. -/
  injI : Int := 0
  /-- R147: RESAI, RESAQ (the registers are its view). -/
  resA : Int × Int := (0, 0)
  /-- R147: RESBI, RESBQ. -/
  resB : Int × Int := (0, 0)
  /-- R133: consecutive checkpoints over the bound. -/
  boundRun : Nat := 0
  /-- R153: m that takes effect at the next frame start. -/
  mNext : Nat := 0
  /-- R153: time below the drop threshold, LOOP cycles. -/
  dropTime : Nat := 0
  /-- R154: all-phases hold updates remaining. -/
  holdLeft : Nat := 0
  /-- R153: I_last, mA. -/
  iLast : Rat := 0
  /-- R137: sum of I_cl over the updates since the last outer run, mA. -/
  iSum : Rat := 0
  /-- R138: soft-start updates left. -/
  ssLeft : Nat := 0
  /-- R138, R139: S at the beginning of the soft start. -/
  ssTarget : Nat := 0
  /-- R167: the next update takes e_prev from its own e. -/
  noKick : Bool := false
  /-- R124, R99: started since BOOT: updates and frames run. -/
  ticking : Bool := false
  /-- R170: updates that LE16 has passed under check. -/
  spareRun : Nat := 0
  /-- R119: first phase with a Fox trip in the present check window. -/
  pscFox : Option Nat := none
  /-- R171: a phase left the set within the present 16 frame periods: the balance step is skipped. -/
  balSkip : Bool := false
  /-- R181: KSCALE in force since the last frame start. -/
  ksF : Nat := 32768
  /-- R159: consecutive sums above OLIM_eff. -/
  olOver : Nat := 0
  /-- R159: consecutive sums below 0.95 OLIM_eff. -/
  olUnder : Nat := 0
  /-- R183: ORDER position dropped for a ratio-step measurement. -/
  rsDrop : Option Nat := none
  /-- R165: SEQ of the last checkpoint. -/
  seqNo : BitVec 32 := 0
  /-- R165: state-mirror frame A (none: not valid). -/
  frameA : Option Frame := none
  /-- R165: state-mirror frame B. -/
  frameB : Option Frame := none
  /-- R167: LEn held in reset after a takeover or failure. -/
  leFailed : Bool := false
  /-- R178: the newest 16 qualified D, newest first. -/
  trimD : List Rat := []
  /-- R178: qualified results since the last computation. -/
  trimNew : Nat := 0
  /-- R188: telemetry block: voltage sum in uV and count. -/
  telV : Rat × Nat := (0, 0)
  /-- R188: telemetry block: current sum, mA. -/
  telI : Rat := 0
  /-- R188: telemetry block: power sum, mW. -/
  telP : Rat := 0
  /-- R182: next candidate ORDER position. -/
  rsCand : Nat := 0
  /-- R183: ratio-step measurement in progress. -/
  rsRun : Option RsRun := none
  /-- R184: ORDER position whose measurement departed and awaits its repeat. -/
  rsAgain : Option Nat := none
  /-- R253: BLKTM matched; BLKX running. -/
  blankM : Bool := false
  /-- R215: shed by ladder stage B3. -/
  b3Shed : Bool := false
  /-- R251: taken down by a region SEQOFF or R170 until SEQUP. -/
  seqShut : Bool := false
  /-- R258: HICT running. -/
  hicWait : Bool := false
  /-- R287: consecutive TSEN readings below 0.100 V. -/
  tsenLow : Nat := 0
  /-- R287: consecutive readings in range while BAD. -/
  tsenOk : Nat := 0
  /-- R292: consecutive readings at or above THSD. -/
  tsenHot : Nat := 0
  /-- R287: last good TSEN temperature, C (CLn_TTEMP is its view). -/
  tGood : Option Rat := none
  /-- R290: the latest TSEN reading is good. -/
  tsenLast : Bool := false
  /-- R288, R294: V_IN of the last model step, V. -/
  vin : Rat := 0
  /-- R289: base_c in C (CLn_VIN.BASE is its view). -/
  baseC : Rat := 0
  /-- R289: base_c has taken the first good reading. -/
  baseSet : Bool := false
  /-- R290: T_hot in C. -/
  tHot : Rat := 0
  /-- R291: thermal density request. -/
  dReq : Nat := 0
  /-- R292: clusters its thermal shutdown took down. -/
  tsdTook : BitVec 16 := 0
  deriving DecidableEq, Repr

/-- What a feed holds beside its registers. -/
structure FeedSt where
  /-- R197: off, inrush, charging, conducting, discharging, limiting is INLIM. -/
  gate : GateSt := .off
  /-- R193: energy accumulator, uJ, full precision (ELO and EHI are its view). -/
  energy : Rat := 0
  /-- R188: telemetry block sums of V in mV, I in mA, P in mW, and count. -/
  tel : Rat × Rat × Rat × Nat := (0, 0, 0, 0)
  /-- R193: auto-zero windows taken and their sum. -/
  azRun : Option (Nat × Int) := none
  deriving DecidableEq, Repr

/-- What the precision converters hold beside their registers (08 R174 to R177). -/
structure PrecSt where
  /-- R177: gain correction of the HV converters: VBA, VBB, VHLD, VBUS, VIB0, VIB1. -/
  hvGain : Vector Rat 6 := Vector.replicate 6 1
  /-- R174: offset of the multiplexed path, the last shorted-input result, LSB. -/
  muxOff : Int := 0
  /-- R176: newest results of the bandgap against the zener, ppm, newest first, at most 16. -/
  refRes : List Rat := []
  /-- R176: consecutive results below 80 ppm while REFBAD. -/
  refOk : Nat := 0
  /-- R175: a snapshot awaits its result: position of the match in the window. -/
  snapPend : Vector (Option Nat) 8 := Vector.replicate 8 none
  deriving DecidableEq, Repr

/-- What the feed selector, the seating logic and the bus ladder hold beside their registers. -/
structure InpSt where
  /-- R205: feed a running transfer leaves. -/
  old : Option Nat := none
  /-- R205: idle, waitOff, deadTime, charging. -/
  xfer : XferSt := .idle
  /-- R219: a second trigger waiting for the transfer to complete. -/
  queuedTrig : Option Nat := none
  /-- R219: a PIN write waiting for the transfer to complete. -/
  queuedPin : Option Nat := none
  /-- R218: FEED_LEAK refusal of start in force. -/
  leakBar : Bool := false
  /-- R213: unseat shutdown running, not yet at its step 3. -/
  unseat : Bool := false
  /-- R211: a reseat completed during BOOT. -/
  reseatBoot : Bool := false
  /-- R201: latest VBUS, mV. -/
  vbus : Nat := 0
  deriving DecidableEq, Repr

/-- What a battery-estimator instance holds beside its registers. -/
structure BatSt where
  /-- R225: model state of charge. -/
  z : Rat := 0
  /-- R225: v1 per cell, V. -/
  v1 : Rat := 0
  /-- R225: v2 per cell, V. -/
  v2 : Rat := 0
  /-- R225, R239: Pzz, Pz1, Pz2, P11, P12, P22. -/
  p : Vector Rat 6 := Vector.replicate 6 0
  /-- R239: Q, 1 mAh. -/
  q : Nat := 0
  /-- R227: R0, ohm per cell. -/
  r0 : Rat := 0
  /-- R227: effective 10 ms resistance, ohm per cell. -/
  r10 : Rat := 0
  /-- R227: R1, ohm per cell (rescaled). -/
  r1 : Rat := 0
  /-- R238: the first step has set z. -/
  started : Bool := false
  /-- R239: charge counted since BOOT, C. -/
  charge : Rat := 0
  /-- R228: time since the last reference point, ms. -/
  refAgeMs : Nat := 0
  /-- R228: time since the last accepted impedance, ms. -/
  impAge : Nat := 0
  /-- R228: an impedance was accepted since BOOT. -/
  impEver : Bool := false
  /-- R222: T_B, 1/256 C (BATi_TEMP.TB is its view). -/
  tb : Int := 0
  /-- R222: consecutive readings out of range. -/
  thBad : Nat := 0
  /-- R222: consecutive readings in range while THFLT. -/
  thOk : Nat := 0
  /-- R234: ms for which I has stayed below 0. -/
  chgRun : Nat := 0
  /-- R234: ms for which the lowest cell stood at or below VEMPTY. -/
  vempRun : Nat := 0
  /-- R229: ms for which the top-of-charge conditions have held. -/
  tocRun : Nat := 0
  /-- R234: the voltage criterion holds in this discharge. -/
  voltCrit : Bool := false
  /-- R233: BAT_DISAGREE raised in this discharge. -/
  chgCrit : Bool := false
  /-- R237: learning cycle since the last reference point. -/
  lrn : Option Learn := none
  /-- R239: equivalent full cycles, 0.01. -/
  efc : Nat := 0
  /-- R240: RESTORE waits for the next step. -/
  restorePend : Bool := false
  /-- R231: BEN high for CONT: the contactor counts as closed. -/
  benLong : Bool := false
  /-- R231: T_B rose above TDMAX and has not fallen 5 C below. -/
  hotLatch : Bool := false
  /-- R221: lowest and highest cell of the latest fresh poll, mV. -/
  cells : Option (Nat × Nat) := none
  /-- R221: highest cell temperature, 1/256 C. -/
  tCell : Int := 0
  /-- R239: pack identity from the monitor. -/
  packId : BitVec 32 := 0
  /-- R229: charger reports termination. -/
  chargerDone : Bool := false
  deriving DecidableEq, Repr

/-- What the sequencer holds beside its registers. -/
structure SeqSt where
  /-- R247: the step in progress has started and is not complete. -/
  stepOpen : Bool := false
  /-- R259: SYSFLT# hold running. -/
  sfHold : Bool := false
  /-- R259: another device holds SYSFLT# low. -/
  sfOther : Bool := false
  /-- R254: PWRGD low in RUN, waiting for 1 ms within window. -/
  pwrgdWait : Bool := false
  /-- R251: clusters of a running partial shutdown. -/
  subset : BitVec 16 := 0
  /-- R251: regions of a running partial shutdown. -/
  subRg : BitVec 4 := 0
  /-- R251: step of a running partial shutdown. -/
  subStep : Option Nat := none
  /-- R262: sequencer decision since the last evaluation: [4:0] step, [5] direction, [8:6] decision. -/
  dec : BitVec 9 := 0
  deriving DecidableEq, Repr

/-- What the supervisor and the first-fault recorder hold beside their registers. -/
structure SupSt where
  /-- R264: consecutive out-voted evaluations of SUPA, SUPB, SUPC. -/
  outRun : Vector Nat 3 := Vector.replicate 3 0
  /-- R263: channel marked its frame invalid in this evaluation. -/
  eccBad : BitVec 3 := 0
  /-- R267: channel's frame not valid for a wire fault. -/
  wireBad : BitVec 3 := 0
  /-- R262, R269: raises since the last evaluation, in order. -/
  pend : List Raise := []
  /-- R262: vote frames of the present evaluation that have been sent. -/
  frames : List VoteFrame := []
  /-- R282: actions of the first and merged faults not yet complete. -/
  actsOpen : List OpenAct := []
  /-- R271: sources whose CAP action is held, with the operating time of the raise in us. -/
  capHeld : List (Nat × Nat) := []
  /-- R280: history queue, oldest first, at most 32 (SUPV_HISTk is its view). -/
  hist : List (BitVec 32 × BitVec 32) := []
  /-- R281: operating time of the first fault, us. -/
  ffBase : Nat := 0
  deriving DecidableEq, Repr

/-- What a woodpecker output holds beside its registers. -/
structure ThrSt where
  /-- R296: train accumulator. -/
  acc : Nat := 0
  /-- R296: ticks left of the pause in progress. -/
  pauseLeft : Nat := 0
  deriving DecidableEq, Repr

/-- What a region's or the board's capping controller holds beside its registers. -/
structure CapCtl where
  /-- R298: consecutive estimates over the budget. -/
  overRun : Nat := 0
  /-- R298: control steps at saturation while over, 10 us. -/
  satTicks : Nat := 0
  /-- R298: latest power estimate, mW. -/
  power : Rat := 0
  /-- R298: 1 ms averaging: sum in mW and count. -/
  pwrAcc : Rat × Nat := (0, 0)
  deriving DecidableEq, Repr

/-- What a capture channel holds beside its registers. -/
structure ChSt where
  /-- R303, R308: ring content, oldest first: at most 1,024 samples, gaps and run ends between them. -/
  ring : List RingItem := []
  /-- R308: pending drop count. -/
  dropPend : Nat := 0
  /-- R308: tick of the first dropped sample. -/
  dropTs : BitVec 48 := 0
  /-- R307: samples left of a MODE 2 or 3 run (none: no count). -/
  left : Option Nat := none
  /-- R306: decimation: sum and count of native samples. -/
  decAcc : Int × Nat := (0, 0)
  /-- R310: a short block is to be taken and its packet closed. -/
  tailDue : Bool := false
  /-- R305: test count of CLASS 0xD. -/
  testCnt : BitVec 16 := 0
  deriving DecidableEq, Repr

/-- A compressor lane. -/
structure LaneSt where
  /-- R309: channel it last served. -/
  last : Nat := 63
  /-- R309: channel of the block held. -/
  ch : Option Nat := none
  /-- R313: record being completed. -/
  recd : List (BitVec 32) := []
  /-- R316: packet closes after this record. -/
  closeAfter : Bool := false
  deriving DecidableEq, Repr

/-- The packetizer, the stream FIFO, snapshot staging and the diagnostic partition. -/
structure StreamSt where
  /-- R303, R317: stream FIFO words with their end marks, oldest first. -/
  fifo : List (BitVec 32 × Bool) := []
  /-- R320: level 1: words from the release point to the read pointer. -/
  rd : Nat := 0
  /-- R320: level 1: words from the release point to the mark. -/
  mark : Nat := 0
  /-- R317: words of the open packet waiting to be written. -/
  out : List (BitVec 32 × Bool) := []
  /-- R316: records of the open packet. -/
  openPkt : List (BitVec 32) := []
  /-- R316: next PSEQ. -/
  pseq : BitVec 12 := 0
  /-- R319: the consumer has read a word of the oldest packet. -/
  midRead : Bool := false
  /-- R319: FLUSH waits for the next packet boundary. -/
  flushPend : Bool := false
  /-- R314: flush and damage records that begin the next packet. -/
  recQ : List (List (BitVec 32)) := []
  /-- R327: PKTMAX of the open packet. -/
  pktMax : Nat := 1023
  /-- R321: snapshot staging: whole packets, oldest first. -/
  snap : List (List (BitVec 32)) := []
  /-- R321: open packet bound for staging. -/
  snapOpen : List (BitVec 32) := []
  /-- R321: PSEQ of snapshot staging. -/
  snapPseq : BitVec 12 := 0
  /-- R322: diagnostic partition (word index, word), canonical. -/
  diag : List (Nat × BitVec 32) := []
  /-- R323: tick at which DIE_HOT suspended capture. -/
  suspTick : Option (BitVec 48) := none
  /-- R318: TMR ticks left of the SRDY pulse and the 100 ns after it. -/
  srdyTicks : Nat := 0
  /-- R318: completions merged into the next SRDY pulse. -/
  srdyPend : Bool := false
  deriving DecidableEq, Repr

/-- The host ports: what they answered, and what they hold beside their registers. -/
structure PortSt where
  /-- R335: PAGE. -/
  page : BitVec 8 := 0
  /-- R338: STATUS_BYTE bit 7. -/
  busyLatch : Bool := false
  /-- R336: bytes of the last two-wire answer (output of the block). -/
  resp : List (BitVec 8) := []
  /-- R340: a byte of the last two-wire transaction was not acknowledged. -/
  nack : Bool := false
  /-- R344: STATUS of the last stream answer. -/
  sStatus : BitVec 8 := 0
  /-- R344: AUX of the last stream answer. -/
  sAux : BitVec 32 := 0
  /-- R344: DATA of the last stream answer. -/
  sData : List (BitVec 32) := []
  /-- R345: MARKS of the last stream answer, one per slot. -/
  sMarks : List Bool := []
  /-- R341: alert causes at the last evaluation. -/
  causes : BitVec 3 := 0
  /-- R93: high-word snapshots: (reader, low-word address) and value. -/
  snaps : List ((Reader × Nat) × BitVec 32) := []
  deriving DecidableEq, Repr

/-- The transaction. -/
structure TxnSt where
  /-- R350: shadow writes in order of arrival, latest first. -/
  shadows : List (Nat × BitVec 32) := []
  /-- R349: next token of the 8-bit count. -/
  tokenNext : BitVec 8 := 1
  /-- R352: TMR count at which the checks passed. -/
  passTick : BitVec 48 := 0
  /-- R354: the transaction is one PMBus write's own: the refusal address of its command. -/
  single : Option Nat := none
  deriving DecidableEq, Repr

/-- What a field bus holds beside its registers. -/
structure BusSt where
  /-- R363: entry whose transaction runs. -/
  cur : Option Nat := none
  /-- R363: (entry, due time in ms). -/
  due : List (Nat × Nat) := []
  /-- R363: on-demand writes waiting. -/
  onDemand : List Nat := []
  /-- R364: arbitration losses in a row. -/
  lost : Nat := 0
  /-- R364: waiting for a stop condition. -/
  waitStop : Bool := false
  /-- R365: operating ms of the recent cures, newest first. -/
  hangMs : List Nat := []
  /-- R365: none, powerOff, wait. -/
  cure : CureSt := .none
  /-- R363: entries in a stale spell. -/
  stale : BitVec 64 := 0
  /-- R361, R362: bytes of the last good transaction of each entry. -/
  blocks : List (Nat × List (BitVec 8)) := []
  deriving DecidableEq, Repr

/-- What the Lempin ring holds beside its registers. -/
structure RingSt where
  /-- R366: receiver up. -/
  rxUp : Bool := false
  /-- R367: SEQ of own frames. -/
  seq : BitVec 8 := 0
  /-- R370: TOKEN of the last beacon sent. -/
  token : Nat := 0
  /-- R368: beacon count. -/
  beacons : BitVec 32 := 0
  /-- R368: CAPORD order number. -/
  order : BitVec 16 := 0
  /-- R367: frames the device last inserted (14 data bytes each), in order. -/
  sent : List (List (BitVec 8)) := []
  /-- R369: frames the last received frame made it forward. -/
  fwd : List (List (BitVec 8)) := []
  /-- R375: ring order received (RORDER is its view). -/
  orderRx : RingOrder := .none
  /-- R371: master lost. -/
  lost : Bool := false
  /-- R371: a CLAIM passed since the last enumeration. -/
  claimSeen : Bool := false
  /-- R371: a master was seen. -/
  hadMaster : Bool := false
  /-- R370: HOPD, 0.1 ns. -/
  hopd : Nat := 0
  /-- R370: a higher claim was seen. -/
  claimHi : Bool := false
  /-- R372: ring open with no BREAK: reallocation stopped. -/
  freeze : Bool := false
  /-- R368: last BUSSTATE contents. -/
  bus : BusState := {}
  /-- R373: segment reference of the last SHARE, 10 mV. -/
  share : BitVec 16 := 0
  /-- R374: a bus-bar segment stood below the lowest UVF. -/
  segLow : Bool := false
  deriving DecidableEq, Repr

/-- The Owl recorder's NVM areas and staging. -/
structure OwlSt where
  /-- R383: event slots written: (slot, words or torn). -/
  slots : List (Nat × OwlSlot) := []
  /-- R385: records in staging, oldest first, at most 256. -/
  staging : List OwlRec := []
  /-- R392: clear-pending flag of the newest clear slot. -/
  clrPend : Bool := false
  /-- R391: token words written. -/
  tok : Vector (BitVec 32) 4 := Vector.replicate 4 0
  /-- R393: CLEAR refusals since BOOT. -/
  fails : Nat := 0
  /-- R389: snapshot in progress: trigger 1 or 2. -/
  snapTrig : Option Nat := none
  /-- R389: staging frozen for the copy. -/
  snapFrozen : Bool := false
  /-- R390: operating time in us and capture timestamp of the trigger. -/
  snapAt : Nat × BitVec 48 := (0, 0)
  /-- R390: snapshots stored, slot order. -/
  snapshots : List (Vector (BitVec 32) 1024) := []
  /-- R386: operating ms of the first record lost. -/
  firstLost : Option (BitVec 48) := none
  /-- R386: the lost count changed since the overflow record was written. -/
  ovfChanged : Bool := false
  /-- R294: thermal-shutdown records, slot order, at most 32. -/
  tsd : List (List (BitVec 32)) := []
  deriving DecidableEq, Repr

/-- The counter area, overlay banks, calibration and key areas of the NVM. -/
structure NvmSt where
  /-- R379: newest time slot: ms, power-cycle count. -/
  timeSlot : BitVec 48 × BitVec 32 := (0, 0)
  /-- R382: newest last-gasp slot: ms, us, power-cycle count. -/
  lastGasp : Option (BitVec 48 × Nat × BitVec 32) := none
  /-- R381: state record: trip latches, CAUSE, RESEATPEND, retry time, DMFLAG, TSD latches. -/
  state : StateRec := {}
  /-- R397: boot record: ACTIVE, PRIOR, PVALID, pending slot, TRIAL, TRIES, TRIALT, ARBCNT. -/
  boot : BootRec := {}
  /-- R381: clear slot: clear counter, next SEQ. -/
  clear : BitVec 32 × BitVec 32 := (0, 0)
  /-- R74: overlay banks (none: not valid). -/
  banks : Vector (Option Bank) 2 := Vector.replicate 2 none
  /-- R74: bank present but fails its CRC. -/
  torn : BitVec 2 := 0
  /-- R355: the store that runs: the bank it writes and what it writes. -/
  storing : Option (Fin 2 × Bank) := none
  /-- R73: calibration area: calibration registers stored. -/
  calib : List (Nat × BitVec 32) := []
  /-- R64: key table. -/
  keys : Vector (Option (BitVec 256)) 4 := Vector.replicate 4 none
  /-- R400: revoked key entries. -/
  revoked : BitVec 4 := 0
  /-- R336: serial number. -/
  serial : BitVec 64 := 0
  /-- R391: 32-byte service key. -/
  svcKey : List (BitVec 8) := []
  /-- R176: bandgap to zener ratio stored at manufacture. -/
  refRatio : Rat := 1
  deriving DecidableEq, Repr

/-- The update session. -/
structure UpdSt where
  /-- R394: staged units. -/
  units : List (Nat × List (BitVec 32)) := []
  /-- R395: block being programmed. -/
  block : Option Nat := none
  deriving DecidableEq, Repr

/-- The running image. -/
structure ImgSt where
  /-- R1: rack-shelf role. -/
  role : Bool := false
  /-- R3: behaviour level. -/
  blevel : Nat := 0
  /-- R60: OVL_HASH of the running image. -/
  ovlHash : BitVec 64 := 0
  /-- R62: register defaults of the running image. -/
  defaults : List (Nat × BitVec 32) := []
  /-- R71, R72: ownership: class, index, owner, and whether the image or a claim made it. -/
  own : List Own := []
  /-- R400: key-table entry that signed the running image. -/
  signer : Nat := 0
  /-- R77: migrated overlay waiting to be written. -/
  migrBank : Option Bank := none
  deriving DecidableEq, Repr

/-- An energy-balance fit. -/
structure EbSt where
  /-- R185: fitted coefficients. -/
  theta : List Rat := []
  /-- R185: covariance of the fit. -/
  cov : List (List Rat) := []
  deriving DecidableEq, Repr

/-- The balls whose level the device sets or reads (R36), beside those that the units' own state shows. -/
structure Pins where
  /-- R36, R118: PEN0 to PEN15. -/
  pen : BitVec 16 := 0
  /-- R36, R247: EXT0 to EXT7 as driven. -/
  ext : BitVec 8 := 0
  /-- R36, R231: pack contactor enable. -/
  ben : Bool := false
  /-- R36, R231: charger enable. -/
  bchg : Bool := false
  /-- R36, R254: package power good. -/
  pwrgd : Bool := false
  /-- R36, R296: bit k, THRk pulled low (a pause in progress). -/
  thr : BitVec 4 := 0
  /-- R36, R318: stream port request (SRDY) high. -/
  srdy : Bool := false
  /-- R36, R365: F1PWR and F2PWR. -/
  fpwr : BitVec 2 := 0
  /-- R33: EN after its filter. -/
  en : Bool := false
  /-- R36, R247: PGIN0 to PGIN7 after their filter. -/
  pgin : BitVec 8 := 0
  /-- R95: LEAD0 to LEAD3 as read. -/
  lead : BitVec 4 := 0
  /-- R95: SYNC_IN as read. -/
  syncIn : Bool := false
  deriving DecidableEq, Repr

/-- Why a step can stop: nothing in this block does.  The spec names no condition in which the block stops, so the
type has no value (safe: no run of the model ends in a fault). -/
inductive Fault where
  deriving DecidableEq, Repr

/-- Why a command has no meaning. -/
inductive Refusal where
  /-- Raised by `exec` alone, for a command the model gives no meaning yet (safe: the run stops). -/
  | notModelled (mnemonic : String)
  deriving DecidableEq, Repr

/-- The state of the block. -/
structure State where
  /-- The commands that are waiting, first in, first out. -/
  pending : List Instr := []
  /-- R404: the register file, a sparse store over `regReset`. -/
  regs : List (Nat × Word) := []
  /-- R30: the device state. -/
  dev : DevState := .boot
  /-- R33: the package OPERATION value (DEDUCED from R34, log entry 5). -/
  oper : Bool := true
  /-- The model's own counter of free values drawn (log entry 8). -/
  freeIdx : Nat := 0
  pins : Pins := {}
  power : PowerSt := {}
  tap : TapSt := {}
  clk : ClockSt := {}
  tm : Vector TimerSt 32 := Vector.replicate 32 {}
  ph : Vector PhaseSt 48 := Vector.replicate 48 {}
  cl : Vector ClusterSt 16 := Vector.replicate 16 {}
  fd : Vector FeedSt 4 := Vector.replicate 4 {}
  prec : PrecSt := {}
  inp : InpSt := {}
  bat : Vector BatSt 6 := Vector.replicate 6 {}
  seq : SeqSt := {}
  sup : SupSt := {}
  thr : Vector ThrSt 4 := Vector.replicate 4 {}
  cap : Vector CapCtl 5 := Vector.replicate 5 {}
  ch : Vector ChSt 64 := Vector.replicate 64 {}
  lane : Vector LaneSt 4 := Vector.replicate 4 {}
  stream : StreamSt := {}
  port : PortSt := {}
  txn : TxnSt := {}
  bus : Vector BusSt 2 := Vector.replicate 2 {}
  ring : RingSt := {}
  owl : OwlSt := {}
  nvm : NvmSt := {}
  upd : UpdSt := {}
  img : ImgSt := {}
  eb : Vector EbSt 17 := Vector.replicate 17 {}
  /-- R59: the first 8 MB of the configuration flash; an unlisted byte is erased and reads 0xFF (log entry 6). -/
  flash : List Host.Cell := []
  deriving DecidableEq, Repr

/-- The block before its supply rises: every register at the number of its Reset column, or 0 where the column names
a source that has not spoken yet (log entry 3); every other piece of state at the value of its declaration (log
entries 4 and 14); nothing waiting. -/
def State.reset : State := {}

end Sys2Proof.Machine
end

