-- ==== Sys2Proof/Machine/Ops.lean ====
section
/-! DEFINITION. The shared operations: reading and writing registers and the units' state, time, free values, the
history queue (R280), event records (R383, R385), raising a fault source (R269) with the status bits it latches
(R338), topology (R12 to R15), and the levels that follow other state. -/

namespace Sys2Proof.Machine

/-! ### Registers -/

/-- The stored value of a register (before any view, R7). -/
def State.reg (s : State) (a : Nat) : Word := Sparse.get regReset s.regs a

/-- Storing a register. -/
def State.setReg (s : State) (a : Nat) (w : Word) : State := { s with regs := Sparse.put regReset a w s.regs }

/-- The unsigned value of a field. -/
def State.f (s : State) (fl : Fld) (i : Nat := 0) : Nat := fl.get (s.reg (fl.addr i))

/-- The signed value of a field. -/
def State.fS (s : State) (fl : Fld) (i : Nat := 0) : Int := toSigned fl.w (s.f fl i)

/-- A field as a flag. -/
def State.fB (s : State) (fl : Fld) (i : Nat := 0) : Bool := s.f fl i != 0

/-- One bit of a field. -/
def State.fBit (s : State) (fl : Fld) (i k : Nat) : Bool := (s.f fl i).testBit k

/-- Storing a field. -/
def State.setF (s : State) (fl : Fld) (i v : Nat) : State :=
  s.setReg (fl.addr i) (fl.insert (s.reg (fl.addr i)) v)

/-- Storing a flag. -/
def State.setB (s : State) (fl : Fld) (i : Nat) (b : Bool) : State := s.setF fl i b.toNat

/-- Storing a signed field. -/
def State.setS (s : State) (fl : Fld) (i : Nat) (v : Int) : State := s.setF fl i (ofSigned fl.w v)

/-- Storing one bit of a field. -/
def State.setFBit (s : State) (fl : Fld) (i k : Nat) (b : Bool) : State := s.setF fl i (setBitN (s.f fl i) k b)

/-- Counting in a field that saturates. -/
def State.incF (s : State) (fl : Fld) (i : Nat) (n : Nat := 1) : State :=
  s.setF fl i (Nat.min (2 ^ fl.w - 1) (s.f fl i + n))

/-- Storing several registers. -/
def State.setRegs (s : State) (l : List (Nat × Word)) : State := l.foldl (fun t p => t.setReg p.1 p.2) s

/-! ### Units -/

def State.updCl (s : State) (n : Fin 16) (g : ClusterSt → ClusterSt) : State :=
  { s with cl := s.cl.set n (g (s.cl.get n)) }

def State.updPh (s : State) (n : Fin 48) (g : PhaseSt → PhaseSt) : State :=
  { s with ph := s.ph.set n (g (s.ph.get n)) }

def State.updTm (s : State) (n : Fin 32) (g : TimerSt → TimerSt) : State :=
  { s with tm := s.tm.set n (g (s.tm.get n)) }

def State.updFd (s : State) (n : Fin 4) (g : FeedSt → FeedSt) : State :=
  { s with fd := s.fd.set n (g (s.fd.get n)) }

def State.updBat (s : State) (n : Fin 6) (g : BatSt → BatSt) : State :=
  { s with bat := s.bat.set n (g (s.bat.get n)) }

def State.updCh (s : State) (n : Fin 64) (g : ChSt → ChSt) : State :=
  { s with ch := s.ch.set n (g (s.ch.get n)) }

def State.updLane (s : State) (n : Fin 4) (g : LaneSt → LaneSt) : State :=
  { s with lane := s.lane.set n (g (s.lane.get n)) }

def State.updThr (s : State) (n : Fin 4) (g : ThrSt → ThrSt) : State :=
  { s with thr := s.thr.set n (g (s.thr.get n)) }

def State.updCap (s : State) (n : Fin 5) (g : CapCtl → CapCtl) : State :=
  { s with cap := s.cap.set n (g (s.cap.get n)) }

def State.updBus (s : State) (n : Fin 2) (g : BusSt → BusSt) : State :=
  { s with bus := s.bus.set n (g (s.bus.get n)) }

/-- The clusters, phases, regions, feeds and timers in index order. -/
def clusters : List (Fin 16) := List.finRange 16
def phases : List (Fin 48) := List.finRange 48
def feeds3 : List (Fin 3) := List.finRange 3
def timers : List (Fin 32) := List.finRange 32

/-- Doing something for each member of a list, in order. -/
def State.each {α : Type} (s : State) (l : List α) (g : State → α → State) : State := l.foldl g s

/-- Doing something only when a condition holds. -/
def State.when (s : State) (b : Bool) (g : State → State) : State := if b then g s else s

/-! ### Names of levels and modes -/

/-- DEV_STATE.STATE (R30). -/
def DevState.code : DevState → Nat
  | .boot => 0 | .standby => 1 | .sequp => 2 | .run => 3 | .seqdn => 4 | .safe => 5 | .dormouse => 6

/-- The rack-shelf role (R1). -/
def State.shelf (s : State) : Bool := s.img.role

/-- Recovery STANDBY (R69). -/
def State.noImg (s : State) : Bool := s.fB F.IMG_BOOTSTAT_NOIMG

/-- The test instructions that take the scanned balls over (R56). -/
def TapInst.drives : TapInst → Bool
  | .extest | .clamp | .highz => true
  | _ => false

/-! ### Time -/

/-- Operating time in microseconds (R379). -/
def State.nowUs (s : State) : Nat := s.clk.ms.toNat * 1000 + s.clk.us

/-- Drawing a free value (log entry 8). -/
def State.draw (s : State) : BitVec 64 × State := (Config.freeWord s.freeIdx, { s with freeIdx := s.freeIdx + 1 })

/-! ### History queue and event records -/

/-- Entering an event in the history queue, unless it is frozen (R280). -/
def State.histAdd (s : State) (code : Word) : State :=
  if s.fB F.SUPV_STAT_FFOPEN then s
  else
    let q := s.sup.hist ++ [(s.clk.usBoot, code)]
    { s with sup := { s.sup with hist := q.drop (q.length - 32) } }

/-- A history code: [31:28] kind, [27:0] data (R280). -/
def histCode (kind data : Nat) : Word := BitVec.ofNat 32 (kind * 2 ^ 28 + data % 2 ^ 28)

/-- Creating an event record in staging, or counting it lost where staging is full (R385). -/
def State.record (s : State) (type : Nat) (payload : List Word) : State :=
  if s.owl.staging.length ≥ 256 then s.incF F.OWL_LOST_EVENTS 0
  else
    let r : OwlRec := ⟨type, s.reg 0x2E02, s.clk.ms, s.clk.us, s.nvm.timeSlot.2, payload⟩
    ({ s with owl := { s.owl with staging := s.owl.staging ++ [r] } }).setReg 0x2E02 (s.reg 0x2E02 + 1)

/-- A record of type 0x01 (R384): source index, sub-code and the items the source's chapter names. -/
def State.recordSrc (s : State) (src sub : Nat) (items : List Word) : State :=
  s.record 1 (BitVec.ofNat 32 (src % 1024 + (sub % 64) * 1024 + s.dev.code * 65536) :: items)

/-- An item of a record. -/
def item (v : Nat) : Word := BitVec.ofNat 32 v

/-- A signed item of a record. -/
def itemI (v : Int) : Word := BitVec.ofInt 32 v

/-- A command accepted, as the history enters it (R280): register word address and command code. -/
def State.accepted (s : State) (addr code : Nat) : State := s.histAdd (histCode 3 (addr % 65536 + 65536 * (code % 256)))

/-! ### Fault sources (R268, R300, R326, R376, R401) -/

namespace Src
def phFox (n : Nat) := n
def phOcavg (n : Nat) := 48 + n
def phIsrange (n : Nat) := 96 + n
def phOpen (n : Nat) := 144 + n
def phSense (n : Nat) := 192 + n
def phLane (n : Nat) := 240 + n
def clUv (n : Nat) := 0x120 + n
def clOv (n : Nat) := 0x130 + n
def clFov (n : Nat) := 0x140 + n
def clHsshort (n : Nat) := 0x150 + n
def clSsshort (n : Nat) := 0x160 + n
def clOverload (n : Nat) := 0x170 + n
def clPhloss (n : Nat) := 0x180 + n
def clIbound (n : Nat) := 0x190 + n
def clLwfalse (n : Nat) := 0x1A0 + n
def clTrimlim (n : Nat) := 0x1B0 + n
def thThrot (n : Nat) := 0x1C0 + n
def thShut (n : Nat) := 0x1D0 + n
def thTsenf (n : Nat) := 0x1E0 + n
def thTsenbad (n : Nat) := 0x1F0 + n
def rgCap (x : Nat) := 0x200 + x
def rgCapsat (x : Nat) := 0x204 + x
def brdCap := 0x208
def brdCapsat := 0x209
def leFail (n : Nat) := 0x220 + n
def leSparefail := 0x230
def feedUv (f : Nat) := 0x240 + 8 * f
def feedOv (f : Nat) := 0x241 + 8 * f
def feedRev (f : Nat) := 0x242 + 8 * f
def feedTrip (f : Nat) := 0x243 + 8 * f
def feedFox (f : Nat) := 0x244 + 8 * f
def feedGate (f : Nat) := 0x245 + 8 * f
def feedNone := 0x258
def feedLeak := 0x259
def seatLoss := 0x25A
def busLadder := 0x25B
def batTh (i : Nat) := 0x260 + 8 * i
def batPmlost (i : Nat) := 0x261 + 8 * i
def batRestreq (i : Nat) := 0x262 + 8 * i
def batTemp (i : Nat) := 0x263 + 8 * i
def batDisagree (i : Nat) := 0x264 + 8 * i
def batVempty (i : Nat) := 0x265 + 8 * i
def batUvcut (i : Nat) := 0x266 + 8 * i
def dieHot := 0x290
def svcEcc := 0x291
def memEcc := 0x292
def syncLoss := 0x293
def xinLoss := 0x294
def clkMon := 0x295
def refDrift := 0x296
def seqTimeout := 0x297
def sysfltIn := 0x298
def sysfltStuck := 0x299
def supFence := 0x29A
def supDisagree := 0x29B
def fcWire := 0x29C
def hostSafe := 0x29D
def fldArb (b : Nat) := 0x2A0 + 8 * b
def fldNack (b : Nat) := 0x2A1 + 8 * b
def fldHang (b : Nat) := 0x2A2 + 8 * b
def fldStale (b : Nat) := 0x2A3 + 8 * b
def lnkDown := 0x2B0
def lnkBreak := 0x2B1
def lnkMlost := 0x2B2
def lnkMchg := 0x2B3
def lnkCrc := 0x2B4
def lnkNodes := 0x2B5
def rkRect := 0x2B6
def rkBatm := 0x2B7
def capDrop := 0x2C0
def capFull := 0x2C1
def capFecc := 0x2C2
def owlFull := 0x2D0
def owlClrfail := 0x2D1
def nvmWfail := 0x2D2
def updBlkfail := 0x2D3
def updVfail := 0x2D4
def updFallback := 0x2D5
end Src

/-- The sources whose condition can stay true (R269): CL_UV to CL_FOV, CL_OVERLOAD to CL_IBOUND, CL_TRIMLIM,
PH_ISRANGE, the thermal and capping conditions, FEED_LEAK, the battery conditions, the die, clock and reference
conditions, SYSFLT_IN and SYSFLT_STUCK, a stale field-bus entry, LNK_DOWN, LNK_BREAK, LNK_MLOST, LNK_NODES,
RK_RECT and RK_BATM.  Every other source is an event, true for one evaluation (log entry 15). -/
def heldSource (src : Nat) : Bool :=
  (96 ≤ src && src < 144) || (0x120 ≤ src && src < 0x150) || (0x170 ≤ src && src < 0x1A0)
  || (0x1B0 ≤ src && src < 0x209)
  || src == Src.feedLeak
  || (0x260 ≤ src && src < 0x290 && src % 8 < 7 && src % 8 != 4 && src % 8 != 5)
  || src == Src.dieHot || src == Src.syncLoss || src == Src.xinLoss || src == Src.clkMon || src == Src.refDrift
  || src == Src.sysfltIn || src == Src.sysfltStuck
  || src == 0x2A3 || src == 0x2AB
  || src == Src.lnkDown || src == Src.lnkBreak || src == Src.lnkMlost || src == Src.lnkNodes
  || src == Src.rkRect || src == Src.rkBatm

/-- The present state of a source in SUPV_SRCj. -/
def State.srcBit (s : State) (src : Nat) : Bool := s.fBit F.SUPV_SRC_SRC (src / 32) (src % 32)

def State.setSrcBit (s : State) (src : Nat) (b : Bool) : State := s.setFBit F.SUPV_SRC_SRC (src / 32) (src % 32) b

/-- Latching bits of a page's status byte (R338). -/
def State.latch (s : State) (fl : Fld) (page bits : Nat) : State := s.setF fl page (s.f fl page ||| bits)

/-- The status bits that the raise of a source latches (R338). -/
def State.latchStatus (s : State) (src : Nat) : State :=
  let n := src % 16
  let p := 16 + (src - 0x240) / 8
  if 0x120 ≤ src && src < 0x130 then s.latch F.HST_PSTAT_VOUT n 0x10
  else if 0x130 ≤ src && src < 0x150 then s.latch F.HST_PSTAT_VOUT n 0x80
  else if 0x170 ≤ src && src < 0x180 then s.latch F.HST_PSTAT_IOUT n 0x80
  else if 0x1C0 ≤ src && src < 0x1D0 then s.latch F.HST_PSTAT_TEMP n 0x40
  else if 0x1D0 ≤ src && src < 0x1E0 then s.latch F.HST_PSTAT_TEMP n 0x80
  else if 0x240 ≤ src && src < 0x258 then
    (if src % 8 = 0 then s.latch F.HST_PSTAT_INPUT p 0x10
     else if src % 8 = 1 then s.latch F.HST_PSTAT_INPUT p 0x80
     else if src % 8 = 3 || src % 8 = 4 then s.latch F.HST_PSTAT_INPUT p 0x04
     else s)
  else if src = Src.feedNone then
    s.each feeds3 (fun t f => t.when (t.fB F.FEED_CFG_EN f) (fun t => t.latch F.HST_PSTAT_INPUT (16 + f) 0x08))
  else s

/-- Raising a source (R269): an event each time, a condition only when it was not true.  The reactions follow when the
voting window closes (log entry 13). -/
def State.raise (s : State) (src : Nat) : State :=
  if heldSource src && s.srcBit src then s
  else
    let s := (s.setSrcBit src true).latchStatus src
    { s with sup := { s.sup with pend := s.sup.pend ++ [⟨src, s.dev.code, s.clk.ms, s.clk.us⟩] } }

/-- The end of a source's condition (R269). -/
def State.lower (s : State) (src : Nat) : State := if s.srcBit src then s.setSrcBit src false else s

/-- A source that follows a condition. -/
def State.follow (s : State) (src : Nat) (b : Bool) : State := if b then s.raise src else s.lower src

/-! ### Topology (R12 to R15) -/

/-- The cluster that owns a phase in use. -/
def State.phCluster (s : State) (p : Fin 48) : Option (Fin 16) :=
  if s.fB F.PH_CFG_USED p then some (Fin.ofNat 16 (s.f F.PH_CFG_CLUSTER p)) else none

/-- The region that names a cluster. -/
def State.region (s : State) (n : Fin 16) : Option (Fin 4) :=
  (List.finRange 4).find? (fun x => s.fBit F.RG_CFG_CLMASK x n)

/-- The clusters of a region. -/
def State.rgClusters (s : State) (x : Nat) : List (Fin 16) := clusters.filter (fun n => s.fBit F.RG_CFG_CLMASK x n)

/-- An HV cluster (R11). -/
def State.isHv (s : State) (n : Fin 16) : Bool := s.fB F.CL_CFG_KIND n

/-- Region `y` is fed directly from a cluster of region `x` (R14). -/
def State.fedFrom (s : State) (y x : Fin 4) : Bool :=
  s.f F.RG_CFG_CLMASK y != 0 && s.f F.RG_CFG_UPSRC y < 16 && s.fBit F.RG_CFG_CLMASK x (s.f F.RG_CFG_UPSRC y)

/-- The regions downstream of a set of regions, with that set (R14, R15). -/
def State.downClosure (s : State) (xs : List (Fin 4)) : List (Fin 4) :=
  let grow (l : List (Fin 4)) := (List.finRange 4).filter (fun y => l.contains y || l.any (fun x => s.fedFrom y x))
  grow (grow (grow (grow xs)))

/-- The regions downstream of a cluster's region, without that region's own (R14: the relation has no cycle). -/
def State.downOf (s : State) (n : Fin 16) : List (Fin 4) :=
  match s.region n with
  | none => []
  | some x => (s.downClosure [x]).filter (· != x)

/-- A cluster with the clusters that a CLOFF takes with it: for an HV cluster, every cluster of every region downstream
(R271). -/
def State.offSet (s : State) (n : Fin 16) : List (Fin 16) :=
  if s.isHv n then n :: (clusters.filter (fun k => k != n && (s.downOf n).any (fun x => s.fBit F.RG_CFG_CLMASK x k)))
  else [n]

/-- The owner of a resource: 0 where nothing owns it (R71, R72). -/
def State.owner (s : State) (cls idx : Nat) : Nat :=
  ((s.img.own.find? (fun o => o.cls = cls && o.idx = idx)).map (·.owner)).getD 0

/-- A refused claim is recorded in IMG_RESSTAT (R72). -/
def State.resBusy (s : State) (cls idx : Nat) : State :=
  (((s.setB F.IMG_RESSTAT_BUSY 0 true).setF F.IMG_RESSTAT_CLASS 0 cls).setF F.IMG_RESSTAT_INDEX 0 idx).setF
    F.IMG_RESSTAT_OWNER 0 (s.owner cls idx)

/-- Claiming a free resource for a host feature (R72). -/
def State.claim (s : State) (cls idx owner : Nat) : State :=
  if s.owner cls idx = 0 then { s with img := { s.img with own := s.img.own ++ [⟨cls, idx, owner, true⟩] } } else s

/-- Ending a host claim (R72, R88). -/
def State.unclaim (s : State) (cls idx owner : Nat) : State :=
  { s with img := { s.img with
      own := s.img.own.filter (fun o => !(o.cls = cls && o.idx = idx && o.owner = owner && o.claimed)) } }

/-! ### ALERT# (R341) -/

/-- A match flagged for a compare whose action code is 0x2. -/
def State.tmrAlert (s : State) : Bool :=
  timers.any (fun n => (s.fBit F.TM_MATCHA_MATCHA 0 n && s.f F.TM_ACT_ACTA n == 2)
    || (s.fBit F.TM_MATCHB_MATCHB 0 n && s.f F.TM_ACT_ACTB n == 2))

/-- The three causes of ALERT#. -/
def State.alertCauses (s : State) : BitVec 3 :=
  BitVec.ofNat 3 ((s.fB F.SUPV_STAT_ALRT).toNat
    + 2 * (s.fB F.CAP_FSTAT_PKTF && s.fB F.CAP_CFG_PKTALERT).toNat + 4 * s.tmrAlert.toNat)

/-- Evaluating ALERT# after its causes may have changed: a cause that rises sets PEND, and PEND falls when every cause
reads 0. -/
def State.evalAlert (s : State) : State :=
  let c := s.alertCauses
  let rise := c &&& ~~~s.port.causes
  let pend := if c = 0 then false else if rise ≠ 0 then true else s.fB F.HST_ALERT_PEND
  let s := { s with port := { s.port with causes := c } }
  let s := (((s.setB F.HST_ALERT_SUP 0 (c.getLsbD 0)).setB F.HST_ALERT_PKT 0 (c.getLsbD 1)).setB
    F.HST_ALERT_TMR 0 (c.getLsbD 2)).setB F.HST_ALERT_PEND 0 pend
  s.setB F.HST_STAT_ALERTL 0 pend

/-! ### NVM state record (R381) -/

/-- NVM writes are fenced from the ladder's stage L4 until the next BOOT (R26, R46). -/
def State.nvmOpen (s : State) : Bool := s.f F.DEV_PWRSTAT_LSTAGE < 4

/-- Writing the state record from the present latches: at each change (R381). -/
def State.saveState (s : State) : State :=
  if s.nvmOpen then
    { s with nvm := { s.nvm with state := {
        trip := BitVec.ofNat 3 (maskOf ((List.range 3).filter (fun f => s.fB F.FEED_STAT_TRIPLAT f)))
        cause := Vector.ofFn (fun f => BitVec.ofNat 3 (s.f F.FEED_STAT_CAUSE f))
        reseat := s.fB F.INP_SEAT_RESEATPEND
        remain := BitVec.ofNat 12 (s.f F.INP_RETRY_REMAIN)
        dmFlag := s.fB F.BAT_DMSTAT_DMFLAG
        tsd := BitVec.ofNat 16 (s.f F.THM_TSD_TSDMASK) } } }
  else s

/-! ### Woodpecker outputs and requests outside SEQUP, RUN and SEQDN (R296, R301) -/

/-- The outputs are released and the accumulators cleared. -/
def State.stopTrains (s : State) : State :=
  { s with pins := { s.pins with thr := 0 }, thr := Vector.replicate 4 {} }

/-- The capping and thermal requests are cleared. -/
def State.clearRequests (s : State) : State :=
  let s := s.each (List.finRange 4) (fun s x => s.setF F.RG_CAPST_REQ x 0)
  let s := s.setF F.THM_BRDSTAT_REQ 0 0
  s.each clusters (fun s n => s.updCl n (fun c => { c with dReq := 0 }))

/-! ### The device state (R30, R31) -/

/-- Entering a device state: the history takes the change (R280), the two-wire port sleeps on entry to STANDBY or
DORMOUSE and is awake in SEQUP, RUN, SEQDN and SAFE (R332), HOLD reads 1 and trains run only in RUN, SEQUP or SEQDN (R30, R296), and
an entry to SAFE clears the requests (R301) and during a trial sets the trial time back to 0 (R399). -/
def State.enter (s : State) (d : DevState) : State :=
  let s := s.histAdd (histCode 1 (s.dev.code + 16 * d.code))
  let s := { s with dev := d }
  let s := s.setB F.HST_STAT_AWAKE 0 (d != .standby && d != .dormouse && d != .boot)
  let s := s.when (d != .sequp && d != .run && d != .seqdn) (fun s => (s.setB F.DEV_STATE_HOLD 0 false).stopTrains)
  let s := s.when (d == .safe) State.clearRequests
  s.when (d == .safe && s.fB F.UPD_STAT_TRIAL) (fun s =>
    { s with nvm := { s.nvm with boot := { s.nvm.boot with trialT := if s.nvmOpen then 0 else s.nvm.boot.trialT } } }.setF
      F.UPD_TRIALT_T 0 0)

end Sys2Proof.Machine
end

