-- ==== Sys2Proof/Machine/Refuse.lean ====
section
/-! DEFINITION. Refusals (R340): where a write or command that the device does not carry out is recorded. -/

namespace Sys2Proof.Machine

/-! The refusal codes of R340. -/

namespace Code
def ok := 0x0
def unsupported := 0x1
def range := 0x2
def xfield := 0x3
def rwt := 0x4
def busy := 0x5
def token := 0x6
def resBusy := 0x7
def crc := 0x8
def pec := 0x9
def overflow := 0xA
def state := 0xB
end Code

/-- The confirm key that every command register asks for. -/
def confirmKey : Nat := 0xCA10

/-- Recording a refusal (R340): its code and address go to the port's HST_REFx, the STATUS_CML bit of R338 is set, and
BUSY on the two-wire port sets the port's busy latch. -/
def State.refuse (s : State) (p : Port) (code addr : Nat) : State :=
  if code = Code.ok then s
  else
    let s := match p with
      | .twoWire => (s.setF F.HST_REF0_CODE 0 code).setF F.HST_REF0_ADDR 0 addr
      | .stream => (s.setF F.HST_REF1_CODE 0 code).setF F.HST_REF1_ADDR 0 addr
    let bit := if code = Code.unsupported then 0x80 else if code = Code.pec then 0x20 else 0x40
    let s := s.setF F.HST_STAT_CML 0 (s.f F.HST_STAT_CML ||| bit)
    s.when (p = .twoWire && code = Code.busy) (fun s => { s with port := { s.port with busyLatch := true } })

/-- A host write carried out by `g`, its refusal recorded at the port. -/
def State.byPort (s : State) (p : Port) (addr : Nat) (g : State → State × Nat) : State :=
  let r := g s
  r.1.refuse p r.2 addr

/-! ### Host writes of register fields (R7, R340) -/

/-- An access code whose field a host write stores. -/
def Access.stored : Access → Bool
  | .rw | .rwt | .rws => true
  | .ro | .w1c | .rc | .wo | .rsvd => false

/-- Every field that a host write of the word stores lies within the range its chapter states. -/
def inRange (a : Nat) (v : Word) : Bool :=
  (regFields a).all (fun r => !r.acc.stored || (decide (r.mn ≤ r.fld.get v) && decide (r.fld.get v ≤ r.mx)))

/-- A word with the stored fields of a write taken from it; every other bit stays (R7). -/
def mergeStored (a : Nat) (old v : Word) : Word :=
  (regFields a).foldl (fun w r => if r.acc.stored then r.fld.insert w (r.fld.get v) else w) old

/-- A word after write-one-to-clear bits (R7). -/
def clearOnes (a : Nat) (old v : Word) : Word :=
  (regFields a).foldl (fun w r => if r.acc = .w1c then r.fld.insert w (r.fld.get w &&& (2 ^ r.fld.w - 1 - r.fld.get v)) else w) old

/-- Storing a host write of a word: its stored fields and its write-one-to-clear bits. -/
def State.hostStore (s : State) (a : Nat) (v : Word) : State := s.setReg a (clearOnes a (mergeStored a (s.reg a) v) v)

end Sys2Proof.Machine
end

