-- ==== Sys2Proof/Machine/BusOps.lean ====
section
/-! DEFINITION. The poll lists of the field buses (R361 to R363): reading an entry, and queuing an on-demand write. -/

namespace Sys2Proof.Machine

/-- A field of the poll list of bus `b`: the windows of F1 and F2 lie 0x100 apart. -/
def pollFld (b : Fin 2) (fl : Fld) : Fld := { fl with base := fl.base + 0x100 * b.val }

/-- A field of entry `e`. -/
def State.poll (s : State) (b : Fin 2) (fl : Fld) (e : Nat) : Nat := s.f (pollFld b fl) e

/-- Entry `e` of an enabled bus is in use. -/
def State.pollOn (s : State) (b : Fin 2) (e : Nat) : Bool := s.fB F.FLD_CFG_EN b && s.poll b F.POLL1_A_EN e != 0

/-- The entries in use of one kind for one instance or module (any, where `none`), on both buses. -/
def State.pollsOf (s : State) (kind : Nat) (inst : Option Nat) : List (Fin 2 × Nat) :=
  (List.finRange 2).flatMap (fun (b : Fin 2) => ((List.range 64).filter (fun (e : Nat) =>
    s.pollOn b e && s.poll b F.POLL1_A_KIND e == kind
      && (match inst with | some i => s.poll b F.POLL1_B_INST e == i | none => true))).map (fun e => (b, e)))

/-- Queuing the on-demand writes of a kind (R362, R363); one that waits already is sent once. -/
def State.queueWrites (s : State) (kind : Nat) (inst : Option Nat) : State :=
  s.each (s.pollsOf kind inst) (fun s p => s.updBus p.1 (fun u =>
    if u.onDemand.contains p.2 then u else { u with onDemand := u.onDemand ++ [p.2] }))

end Sys2Proof.Machine
end

