-- ==== Sys2Proof/Machine/ClusterOps.lean ====
section
/-! DEFINITION. What several chapters do to a cluster and its phases: the phase sets (R151), trims, removal (R162, R163),
starting (R118), turning off (R121, R271), injection abort (R148), the window comparators' live bits (R252) and
PWRGD (R254). -/

namespace Sys2Proof.Machine

/-! ### The phase sets (R151) -/

/-- The configured phases of a cluster. -/
def State.clPhases (s : State) (n : Fin 16) : List (Fin 48) := phases.filter (fun p => s.phCluster p = some n)

/-- ORDER position of a phase (log entry 17: the position of R151 is the ORDER value). -/
def State.order (s : State) (p : Fin 48) : Nat := s.f F.PH_CFG_ORDER p

/-- The configured phase at an ORDER position. -/
def State.posPhase (s : State) (n : Fin 16) (k : Nat) : Option (Fin 48) :=
  (s.clPhases n).find? (fun p => s.order p = k)

def State.cfgMask (s : State) (n : Fin 16) : Nat := maskOf ((s.clPhases n).map s.order)

/-- A phase shed by a reaction and not yet rejoined (SUPV_PHSHEDx). -/
def State.phShed (s : State) (p : Fin 48) : Bool := ((s.reg (0x205 + p / 32)).toNat).testBit (p % 32)

def State.setPhShed (s : State) (p : Fin 48) (b : Bool) : State :=
  let a := 0x205 + p.val / 32
  s.setReg a (BitVec.ofNat 32 (setBitN (s.reg a).toNat (p % 32) b))

/-- The available set as a mask of ORDER positions (R151). -/
def State.avMask (s : State) (n : Fin 16) : Nat :=
  maskOf (((s.clPhases n).filter
    (fun p => !s.fBit F.CL_PHREM_REMMASK n (s.order p) && !s.phShed p)).map s.order)

def State.nAv (s : State) (n : Fin 16) : Nat := (bitsOf 16 (s.avMask n)).length
def State.nCfg (s : State) (n : Fin 16) : Nat := (bitsOf 16 (s.cfgMask n)).length

/-- The active positions, lowest first. -/
def State.activePos (s : State) (n : Fin 16) : List Nat := bitsOf 16 (s.f F.CL_PHSTAT_ACTMASK n)

/-- The active phases, lowest position first. -/
def State.activePhases (s : State) (n : Fin 16) : List (Fin 48) := (s.activePos n).filterMap (s.posPhase n)

/-! ### Balance trims (R155, CLn_BTRIMj) -/

def trimFld (k : Nat) : Fld := if k % 2 = 0 then F.CL_BTRIM_TLO else F.CL_BTRIM_THI

def State.trim (s : State) (n : Fin 16) (k : Nat) : Int :=
  toSigned 16 ((trimFld k).get (s.reg ((trimFld k).addr n + k % 16 / 2)))

def State.setTrim (s : State) (n : Fin 16) (k : Nat) (v : Int) : State :=
  let a := (trimFld k).addr n + k % 16 / 2
  s.setReg a ((trimFld k).insert (s.reg a) (ofSigned 16 v))

/-! ### The active set -/

/-- The pointer of a rotation cluster moves on when its phase has left the active set (R157). -/
def State.fixPtr (s : State) (n : Fin 16) : State :=
  let act := s.activePos n
  let p := s.f F.CL_ROT_PTR n
  if act.contains p then s
  else match act.find? (fun k => p < k) with
    | some k => s.setF F.CL_ROT_PTR n k
    | none => s.setF F.CL_ROT_PTR n (act.headD 0)

/-- Making the positions `new` the active set: a phase that joins starts low with trim 0; one that leaves goes to the mid
level, after a high interval already begun, and loses its trim (R151 to R155). -/
def State.setActiveList (s : State) (n : Fin 16) (new : List Nat) : State :=
  let old := s.activePos n
  let s := ((s.setF F.CL_PHSTAT_ACTMASK n (maskOf new)).setF F.CL_PHSTAT_M n new.length).setF
    F.CL_PHSTAT_NAV n (s.nAv n)
  let s := s.updCl n (fun c => { c with mNext := new.length })
  let s := s.each (old.filter (fun k => !new.contains k)) (fun t k =>
    let t := t.setTrim n k 0
    match t.posPhase n k with
    | none => t
    | some p => (t.setB F.PH_STAT_ACTIVE p false).updPh p
        (fun u => { u with out := if u.out = .high then .high else .mid, dem := false }))
  let s := s.each (new.filter (fun k => !old.contains k)) (fun t k =>
    let t := t.setTrim n k 0
    match t.posPhase n k with
    | none => t
    | some p => (t.setB F.PH_STAT_ACTIVE p true).updPh p
        (fun u => { u with out := if u.foxHold || u.out = .high then u.out else .low, minOffDone := true, rangeRun := 0 }))
  s.fixPtr n

/-- Making the `m` lowest available positions active (R151), without the one dropped for a ratio-step measurement
(R171). -/
def State.setActive (s : State) (n : Fin 16) (m : Nat) : State :=
  let av := bitsOf 16 (s.avMask n)
  let av := match (s.cl.get n).rsDrop with | none => av | some k => av.filter (· != k)
  s.setActiveList n (av.take m)

/-- The cluster's phases switch. -/
def State.switching (s : State) (n : Fin 16) : Bool :=
  (s.cl.get n).run == .softStart || (s.cl.get n).run == .on || (s.cl.get n).run == .softStop

/-- A position leaves the available set while the cluster runs (R162): it leaves the active set at once, and another
available phase takes its place at the next frame start, so that m is kept; in an all-phases hold m is n_av.  A
ratio-step measurement is discarded, and its candidate rejoins at the next frame start (R195). -/
def State.leaveActive (s : State) (n : Fin 16) (k : Nat) : State :=
  let m := s.f F.CL_PHSTAT_M n + (if (s.cl.get n).rsDrop.isSome then 1 else 0)
  let s := s.updCl n (fun c => { c with rsRun := none, rsDrop := none, balSkip := true })
  if s.switching n then
    let s := s.setActiveList n ((s.activePos n).filter (· != k))
    s.updCl n (fun c => { c with mNext := Nat.min m (s.nAv n) })
  else s

/-- OLIM_eff = floor(OLIM x n_av / n_cfg) (R158). -/
def State.evalOlim (s : State) (n : Fin 16) : State :=
  (s.setF F.CL_OLSTAT_OLIMEFF n (s.f F.CL_OL_OLIM n * s.nAv n / Nat.max 1 (s.nCfg n))).setF
    F.CL_PHSTAT_NAV n (s.nAv n)

/-! ### Turning a cluster off -/

/-- An injection abort (R148): the signal goes at once, EN reads 0 and ABORT 1, the partition is free again. -/
def State.injAbort (s : State) (n : Fin 16) : State :=
  if s.fB F.CL_INJ_EN n then
    let s := ((s.setB F.CL_INJ_EN n false).setB F.CL_INJ_ABORT n true).unclaim 4 2 9
    s.updCl n (fun c => { c with injV := 0, injI := 0, injStarted := false })
  else s

/-- CL_PHLOSS while n_av stands below MINAV (R163). -/
def State.evalPhloss (s : State) (n : Fin 16) : State :=
  let below := s.nAv n < s.f F.CL_PHFAIL_MINAV n
  (s.when below (fun s => s.setB F.CL_OLSTAT_PHLOSS n true)).follow (Src.clPhloss n) below

/-- PWRGD in RUN reads low while a cluster named in PGMASK is off, or outside its window and not blanked; it
returns under PWRGD_RETURN (R254). -/
def State.pwrgdBad (s : State) : Bool :=
  clusters.any (fun n => s.fBit F.SEQ_CFG_PGMASK 0 n &&
    ((s.cl.get n).run == .off || (!s.fB F.CL_WSTAT_INWIN n && !s.fB F.CL_WSTAT_BLANKED n)))

def State.evalPwrgd (s : State) : State :=
  if s.dev == .run && s.pwrgdBad then
    { s with pins := { s.pins with pwrgd := false }, seq := { s.seq with pwrgdWait := true } }
  else s

/-- The timer that blanks a cluster's windows stops, and the blanking ends (R149, R253). -/
def State.endBlank (s : State) (n : Fin 16) : State :=
  let s := s.when (s.fB F.CL_VSLEW_BLKEN n) (fun s => s.setB F.TM_CTRL_RUN (s.f F.CL_VSLEW_BLKTM n) false)
  (s.setB F.CL_WSTAT_BLANKED n false).updCl n (fun c => { c with blankM := false })

/-- A cluster off: its phases go to the mid level and its PEN goes low; lw is cleared, the transition ended, the
blanking timer stopped and injection aborted (R121, R149, R271).  A check whose window is open ends without a
result; VMAX of the shortened window is a free value (R118, log entry 24).  An HV or POL cluster alike; the latches are the caller's. -/
def State.clOff (s : State) (n : Fin 16) : State :=
  if (s.cl.get n).run = .off then s.updCl n (fun c => { c with hicWait := false })
  else
    let s := s.injAbort n
    let s := s.when ((s.cl.get n).run == .checking) (fun s =>
      let r := s.draw
      (r.2.setF F.CL_PSCSTAT_RESULT n 0).setF F.CL_PSCSTAT_VMAX n r.1.toNat)
    let s := s.each (s.clPhases n) (fun t p => (t.setB F.PH_STAT_ACTIVE p false).updPh p
      (fun u => { u with out := .mid, dem := false, blanking := false, onDeferred := false }))
    let s := ((s.setF F.CL_PHSTAT_ACTMASK n 0).setF F.CL_PHSTAT_M n 0).setB F.CL_PHSTAT_HOLDALL n false
    let s := ((s.setB F.CL_VSTAT_TRANS n false).setB F.CL_VSTAT_SSRUN n false).setB F.CL_LEADSTAT_ACTIVE n false
    let s := (s.setB F.CL_OLSTAT_CAPREQ n false).lower (Src.clOverload n)
    let s := s.endBlank n
    let s := s.updCl n (fun c => { c with
      run := .off, lw := 0, lwAdder := 0, lwWin := 0, lwRamp := 0, holdLeft := 0,
      olOver := 0, olUnder := 0, hicWait := false, rsRun := none, rsDrop := none, rsAgain := none })
    let s := { s with pins := { s.pins with pen := s.pins.pen &&& ~~~(BitVec.ofNat 16 (2 ^ n.val)) } }
    s.evalPwrgd

/-- A cluster turned off as its power-down step, or a shed, does it: with a soft stop where SOFTOFF = 1 (R250). -/
def State.clTurnOff (s : State) (n : Fin 16) : State :=
  if s.fB F.CL_SEQC_SOFTOFF n && ((s.cl.get n).run == .on || (s.cl.get n).run == .softStart) then
    s.updCl n (fun c => { c with run := .softStop })
  else if s.fB F.CL_SEQC_SOFTOFF n && (s.cl.get n).run == .softStop then s
  else s.clOff n

/-- Off as by CLOFF: the cluster, and for an HV cluster every cluster downstream, is off at once and latched (R271). -/
def State.clCloff (s : State) (n : Fin 16) : State :=
  s.each (s.offSet n) (fun t k => (t.clOff k).setFBit F.SUPV_CLLAT_CLOFFL 0 k true)

/-! ### Removing a phase (R162, R163) -/

/-- Removing a phase: cause code of CLn_PHREM and source; CL_PHLOSS and a cluster with no phase left under R163. -/
def State.removePhase (s : State) (n : Fin 16) (p : Fin 48) (cause src : Nat) : State :=
  let k := s.order p
  if s.fBit F.CL_PHREM_REMMASK n k then s
  else
    let others := ((s.activePhases n).filter (· != p)).map (fun q => (s.ph.get q).iCal)
    let s := (s.setB F.PH_STAT_ACTIVE p false).updPh p (fun u => { u with out := .mid, dem := false })
    let s := (((s.setFBit F.CL_PHREM_REMMASK n k true).setF F.CL_PHREM_LASTPH n p).setF F.CL_PHREM_CAUSE n cause).setB
      F.CL_PHREM_NEWREM n true
    let s := ((s.setTrim n k 0).leaveActive n k).evalOlim n
    let s := s.raise src
    let s := s.recordSrc src 0 [item n, item p, item cause, itemI (roundAway (s.cl.get n).iLast), itemI (roundAway (meanQ others)),
      item (s.nAv n), item (s.f F.CL_OLSTAT_OLIMEFF n)]
    let s := s.evalPhloss n
    if s.nAv n = 0 then s.clCloff n else s

/-- A phase shed by a reaction: it leaves the available set until its cluster next starts (R271). -/
def State.shedPhase (s : State) (p : Fin 48) : State :=
  match s.phCluster p with
  | none => s
  | some n =>
    let s := (s.setPhShed p true).setB F.PH_STAT_ACTIVE p false
    let s := s.updPh p (fun u => { u with out := .mid, dem := false })
    let s := ((s.setTrim n (s.order p) 0).leaveActive n (s.order p)).evalOlim n
    let s := s.evalPhloss n
    if s.nAv n = 0 then s.clCloff n else s

/-! ### Starting a cluster -/

/-- The upstream source of a cluster's region is good (R118, R201): VBUS qualified; the HV cluster named, on and within
its window; an external source always. -/
def State.srcGood (s : State) (n : Fin 16) : Bool :=
  match s.region n with
  | none => true
  | some x =>
    let u := s.f F.RG_CFG_UPSRC x
    if u = 0x10 then s.fB F.INP_STAT_VBUSQ
    else if u < 16 then (s.cl.get (Fin.ofNat 16 u)).run == .on && s.fB F.CL_WSTAT_INWIN u
    else true

/-- A TSD latch forbids the start of its cluster and of every cluster it took down (R292). -/
def State.tsdBars (s : State) (n : Fin 16) : Bool :=
  clusters.any (fun k => s.fBit F.THM_TSD_TSDMASK 0 k && (k == n || (s.cl.get k).tsdTook.getLsbD n))

/-- Latched as R257 names: by CLOFF, by a TSD latch, by a soft-start short; or refused under R120; or taken down by a
region SEQOFF or by R170. -/
def State.clBarred (s : State) (n : Fin 16) : Bool :=
  s.fBit F.SUPV_CLLAT_CLOFFL 0 n || s.tsdBars n || s.fB F.CL_WSTAT_SSSHORT n || s.fB F.CL_PSCSTAT_REFUSED n
    || (s.cl.get n).seqShut

/-- Starting a cluster: its pre-start check opens with PEN high and every phase at the mid level (R118).  A phase with a
latched Fox hold, or shed by a reaction, rejoins; a phase whose lane failed at BOOT is removed (R162, R271).  A
suspended lead pin is heard again (R144). -/
def State.clStart (s : State) (n : Fin 16) : State :=
  let s := s.each (s.clPhases n) (fun t p =>
    let t := t.when (t.fB F.PH_STAT_FOXLAT p) (fun t =>
      ((t.setB F.PH_STAT_FOXLAT p false).setFBit F.CL_PHREM_REMMASK n (t.order p) false).updPh p
        (fun u => { u with foxHold := false, foxLeft := 0 }))
    let t := t.when (t.phShed p) (fun t => t.setPhShed p false)
    t.updPh p (fun u => { u with out := .mid, dem := false, rangeRun := 0, openRun := 0, stuckRun := 0 }))
  let s := s.each ((s.clPhases n).filter (fun p => (s.ph.get p).laneFail))
    (fun t p => t.removePhase n p 6 (Src.phLane p))
  if s.nAv n = 0 then s
  else
    let s := (s.evalOlim n).evalPhloss n
    let s := (((s.setF F.CL_PSCSTAT_RESULT n 3).setF F.CL_PSCSTAT_PHASE n 0x3F).setB F.CL_PSCSTAT_TSENF n false).setF
      F.CL_PSCSTAT_VMAX n 0
    let s := (s.setB F.CL_VSTAT_SSDONE n false).setB F.CL_LEADSTAT_SUSP n false
    let s := (s.setFBit F.SUPV_CLLAT_SHEDCL 0 n false).setB F.CL_SEQC_OPOFF n false
    let s := s.updCl n (fun c => { c with
      run := .checking, suspMask := 0, falseRun := Vector.replicate 4 0, hicWait := false, b3Shed := false,
      ticking := true, pscFox := none })
    { s with pins := { s.pins with pen := s.pins.pen ||| BitVec.ofNat 16 (2 ^ n.val) } }

/-! ### The windows (R252, R253) -/

/-- The window comparators' live results for a cluster, as observed; a return within the window ends CL_UV and CL_OV. -/
def State.setWin (s : State) (n : Fin 16) (inwin below : Bool) : State :=
  let s := (s.setB F.CL_WSTAT_INWIN n inwin).setB F.CL_WSTAT_BELOW n below
  let s := s.when inwin (fun s => ((s.lower (Src.clUv n)).lower (Src.clOv n)).lower (Src.clFov n))
  s.evalPwrgd

end Sys2Proof.Machine
end

