-- ==== Sys2Proof/Machine/FeedOps.lean ====
section
/-! DEFINITION. What several chapters do to the feeds and the pack: selection (R203), inrush (R200, R201), fast-off (R198),
the start of a transfer (R205), trips and their clearing (R210, R211), and the levels of BEN and BCHG (R231). -/

namespace Sys2Proof.Machine

def feed4 (f : Fin 3) : Fin 4 := Fin.ofNat 4 f.val

def State.gate (s : State) (f : Fin 3) : GateSt := (s.fd.get (feed4 f)).gate

def State.setGate (s : State) (f : Fin 3) (g : GateSt) : State := s.updFd (feed4 f) (fun u => { u with gate := g })

/-- A trip latch on any feed (R210). -/
def State.anyTrip (s : State) : Bool := feeds3.any (fun f => s.fB F.FEED_STAT_TRIPLAT f)

/-- A feed that may be chosen: in use, qualified, and in the board role not FEED A or FEED B while seating is not
qualified (R203). -/
def State.feedOk (s : State) (f : Fin 3) : Bool :=
  s.fB F.FEED_CFG_EN f && s.fB F.FEED_STAT_QUAL f && !(!s.shelf && f.val < 2 && !s.fB F.INP_SEAT_SEATOK)

/-- The feeds in priority order (R203). -/
def State.prioOrder (s : State) : List (Fin 3) :=
  [s.f F.INP_PRIO_P0, s.f F.INP_PRIO_P1, s.f F.INP_PRIO_P2].filterMap
    (fun k => if h : k < 3 then some ⟨k, h⟩ else none)

/-- The feed that R203 selects when none conducts, leaving one out (R205). -/
def State.selected (s : State) (leave : Option Nat) : Option (Fin 3) :=
  let ok (f : Fin 3) := s.feedOk f && leave != some f.val
  let order := s.prioOrder
  match (feeds3.find? (fun f => f.val = s.f F.INP_PRIO_PIN && ok f)) with
  | some f => some f
  | none => order.find? ok

/-- A feed gate is not off. -/
def State.gateBusy (s : State) : Bool := feeds3.any (fun f => s.gate f != .off)

/-- The Badger-hold flag follows HOLD's gate in SEQUP, RUN and SEQDN (R30, R203). -/
def State.evalHold (s : State) : State :=
  s.setB F.DEV_STATE_HOLD 0
    (s.gate 2 == .conducting && !s.shelf && (s.dev == .sequp || s.dev == .run || s.dev == .seqdn))

/-- VBUS loses its qualification when no feed conducts outside a transfer (R201). -/
def State.evalVbusq (s : State) : State :=
  if !s.gateBusy && s.inp.xfer == .idle then s.setB F.INP_STAT_VBUSQ 0 false else s

/-! ### BEN and BCHG (R231) -/

/-- The conditions of BEN: the battery is the hold source and in use, a state from STANDBY to SEQDN, seating (or an
unseat shutdown before its step 3), no DMHOLD, no UVLAT, and the pack not above TDMAX. -/
def State.benLevel (s : State) : Bool :=
  !s.fB F.INP_HOLDCAP_HSRC && s.fB F.BAT_CFG_EN
    && (s.dev == .standby || s.dev == .sequp || s.dev == .run || s.dev == .seqdn)
    && (s.fB F.INP_SEAT_SEATOK || s.inp.unseat) && !s.fB F.BAT_DMSTAT_DMHOLD && !s.fB F.BAT_STAT_UVLAT
    && !(s.bat.get 0).hotLatch && !s.noImg

/-- The conditions of BCHG. -/
def State.bchgLevel (s : State) : Bool :=
  s.benLevel && (s.bat.get 0).benLong && s.dev == .run && s.gate 2 != .conducting && s.f F.INP_STAT_BSTAGE == 0
    && decide (s.fS F.BAT_TWIN_TCHGL * 256 ≤ (s.bat.get 0).tb) && decide ((s.bat.get 0).tb ≤ s.fS F.BAT_TWIN_TCHGH * 256)
    && !s.fB F.BAT_STAT_RESTING
    && (match (s.bat.get 0).cells with | some c => decide (c.2 < s.f F.BAT_TOC_VTOC + 50) | none => true)

/-- BEN and BCHG follow their conditions in the board role; when BEN falls, the contactor no longer counts as closed
and a battery HOLD is no longer qualified (R202).  A rest ends when HOLD conducts, a ladder stage is active or seating is lost
(R230, R245).  In the rack-shelf role R375 drives them (R244). -/
def State.evalBen (s : State) : State :=
  if s.shelf then
    let live := s.dev == .standby || s.dev == .sequp || s.dev == .run || s.dev == .seqdn
    let ben := live && !s.noImg
      && (List.finRange 6).any (fun (i : Fin 6) => s.fB F.BAT_CFG_EN i && !s.fB F.BAT_STAT_UVLAT i)
    let bchg := s.dev == .run && (s.gate 0 == .conducting || s.gate 1 == .conducting) && s.gate 2 != .conducting
    { s with pins := { s.pins with ben := ben, bchg := bchg } }
  else
    let s := s.when (s.fB F.BAT_STAT_RESTING 0
        && (s.gate 2 == .conducting || s.f F.INP_STAT_BSTAGE != 0 || !s.fB F.INP_SEAT_SEATOK))
      (fun s => (s.setB F.BAT_STAT_RESTING 0 false).setB F.BAT_CTRL_REST 0 false)
    let b := s.benLevel
    let s := if b then s else s.updBat 0 (fun u => { u with benLong := false })
    let s := { s with pins := { s.pins with ben := b, bchg := s.bchgLevel } }
    s.when (!b && !s.fB F.INP_HOLDCAP_HSRC && s.gate 2 != .conducting) (fun s => s.setB F.FEED_STAT_QUAL 2 false)

/-! ### Gates -/

/-- A gate at the off state: the feed no longer conducts. -/
def State.gateOff (s : State) (f : Fin 3) : State :=
  let s := (s.setGate f .off).setB F.FEED_STAT_CONDUCT f false
  let s := s.setB F.FEED_STAT_INLIM f false
  let s := s.when (s.f F.INP_STAT_SEL == f.val) (fun s => s.setF F.INP_STAT_SEL 0 3)
  ((s.evalHold).evalVbusq).evalBen

def State.allGatesOff (s : State) : State :=
  let s := { s with inp := { s.inp with xfer := .idle, old := none, queuedTrig := none } }
  (s.setB F.INP_STAT_XFER 0 false).each feeds3 State.gateOff

/-- Connecting a feed by inrush (R200, R201): not while a trip latch stands, nor after the refusal of R120.  In
the rack-shelf role each feed has its own latch (R217). -/
def State.connect (s : State) (f : Fin 3) : State :=
  if (if s.shelf then s.fB F.FEED_STAT_TRIPLAT f else s.anyTrip) || s.power.feedsBarred || s.gate f != .off then s else s.setGate f .inrush

/-- While no feed conducts in SEQUP, RUN or SEQDN, the first feed to become selected is connected by inrush (R203); in the
rack-shelf role every qualified feed is, each on its own (R217). -/
def State.evalFeedSel (s : State) : State :=
  if s.shelf then
    s.when (s.dev == .sequp || s.dev == .run || s.dev == .seqdn) (fun s => s.each (feeds3.filter s.feedOk) State.connect)
  else if (s.dev == .sequp || s.dev == .run || s.dev == .seqdn) && !s.gateBusy && s.inp.xfer == .idle then
    match s.selected none with
    | some f => s.connect f
    | none => s
  else s

/-- A transfer is decided: the old gate is turned off by fast-off, break before make (R204, R205). -/
def State.startTransfer (s : State) (f : Fin 3) : State :=
  let s := (s.setGate f .discharging).setB F.FEED_STAT_CONDUCT f false
  let s := ((s.setB F.FEED_STAT_INLIM f false).setF F.INP_STAT_SEL 0 3).setB F.INP_STAT_XFER 0 true
  let s := (s.incF F.FEED_CNT_XAWAY f).evalHold
  { s with inp := { s.inp with old := some f.val, xfer := .waitOff } }

/-- The code of a gate's state in a record (log entry 20: the spec names the item, not its code). -/
def GateSt.code : GateSt → Nat
  | .off => 0 | .inrush => 1 | .charging => 2 | .conducting => 3 | .discharging => 4

/-- A trip of a feed (R210), with the shunt current at the trip in mA and VBUS in mV. -/
def State.feedTrip (s : State) (f : Fin 3) (cause : Nat) (amps : Int) (vbus : Nat) : State :=
  let g := s.gate f
  let s := { s with inp := { s.inp with xfer := .idle, old := none, queuedTrig := none, queuedPin := none } }
  let s := (s.setB F.INP_STAT_XFER 0 false).gateOff f
  let s := ((s.setB F.FEED_STAT_TRIPLAT f true).setF F.FEED_STAT_CAUSE f cause).setB F.FEED_STAT_QUAL f false
  let s := ((s.incF F.FEED_CNT_TRIPS f).setF F.INP_RETRY_REMAIN 0 (s.f F.INP_RETRY_RETRYT)).setB F.INP_RETRY_RUNNING 0 true
  let s := (s.setB F.INP_SEAT_RESEATPEND 0 false).saveState
  let src := if cause = 2 then Src.feedFox f else Src.feedTrip f
  (s.raise src).recordSrc src 0 [item f, item cause, itemI amps, item vbus, item g.code]

/-- Clearing every trip latch, the retry timer and RESEATPEND (R211). -/
def State.clearTrips (s : State) : State :=
  let s := s.each feeds3 (fun s f => s.setB F.FEED_STAT_TRIPLAT f false)
  let s := ((s.setF F.INP_RETRY_REMAIN 0 0).setB F.INP_RETRY_RUNNING 0 false).setB F.INP_SEAT_RESEATPEND 0 false
  s.saveState

end Sys2Proof.Machine
end

