-- ==== Sys2Proof/Machine/SeqOps.lean ====
section
/-! DEFINITION. The device-state transitions and the sequencer: ONREQ and the latches that forbid start (R31 to R34), SEQUP
and SEQDN and their steps (R247 to R250), partial shutdowns (R251), SYSFLT# (R259) and safe-off (R276). -/

namespace Sys2Proof.Machine

/-! ### On and off requests -/

/-- The combined on request of R33. -/
def State.onreqVal (s : State) : Bool :=
  (!s.fB F.DEV_ONOFF_CFG_EN_USE || s.pins.en) && (!s.fB F.DEV_ONOFF_CFG_OPR_USE || s.oper)
    && (!s.fB F.DEV_ONOFF_CFG_RING_USE || s.ring.orderRx != .off)
    && (s.fB F.INP_SEAT_SEATOK || (s.shelf && !s.fB F.DEV_ONOFF_CFG_SEAT_USE))

/-- A latch that forbids start (R31): a trip latch (R210), B5LAT (R215), UPFAIL (R248), OFFLAT (R256), a low SYSFLT# with
SFSTART (R259), DMHOLD (R243), the leak refusal (R218). -/
def State.startBarred (s : State) : Bool :=
  s.anyTrip || s.fB F.INP_STAT_B5LAT || s.fB F.SEQ_STAT_UPFAIL || s.fB F.SEQ_STAT_OFFLAT
    || (s.fB F.SEQ_SF_SFSTART && s.fB F.SEQ_STAT_SFLOW) || s.fB F.BAT_DMSTAT_DMHOLD || s.inp.leakBar

/-! ### Steps -/

/-- A sequencer decision (R262): kept for the next vote frames and entered in the history (R280).  Codes 1 start step,
2 step complete, 3 step failed, 4 force. -/
def State.seqDecide (s : State) (step dir dec : Nat) : State :=
  let w := step % 32 + 32 * (dir % 2) + 64 * (dec % 8)
  ({ s with seq := { s.seq with dec := BitVec.ofNat 9 w } }).histAdd (histCode 2 w)

/-- The clusters that a step's object names, in use (R247, R418): one cluster, or a region's. -/
def State.stepClusters (s : State) (k : Nat) : List (Fin 16) :=
  let l := if s.f F.SEQ_STEP_OBJ k = 1 then [Fin.ofNat 16 (s.f F.SEQ_STEP_INDEX k)]
    else if s.f F.SEQ_STEP_OBJ k = 2 then s.rgClusters (s.f F.SEQ_STEP_INDEX k) else []
  l.filter (fun n => s.nCfg n != 0)

/-- A cluster whose start in a step is refused (R248, R271). -/
def State.stepBarred (s : State) (n : Fin 16) : Bool := s.clBarred n || s.fBit F.SUPV_CLLAT_SHEDCL 0 n

/-- The EXT balls (R247). -/
def State.setExt (s : State) (k : Nat) (b : Bool) : State :=
  { s with pins := { s.pins with ext := BitVec.ofNat 8 (setBitN s.pins.ext.toNat (k % 8) b) } }

/-- A power-up step starts (R247). -/
def State.stepUp (s : State) (k : Nat) : State :=
  let s := ((s.setF F.SEQ_STAT_STEP 0 k).setF F.SEQ_STAT_HIGHEST 0 (Nat.max k (s.f F.SEQ_STAT_HIGHEST))).seqDecide k 0 1
  let s := { s with seq := { s.seq with stepOpen := true } }
  let s := s.each ((s.stepClusters k).filter (fun n => !s.stepBarred n && (s.cl.get n).run == .off)) State.clStart
  s.when (s.f F.SEQ_STEP_OBJ k == 3) (fun s => s.setExt (s.f F.SEQ_STEP_INDEX k) true)

/-- A power-down step starts (R247, R250). -/
def State.stepDown (s : State) (k : Nat) : State :=
  let s := ((s.setF F.SEQ_STAT_STEP 0 k).setB F.SEQ_STAT_HELD 0 false).seqDecide k 1 1
  let s := { s with seq := { s.seq with stepOpen := true } }
  let s := s.each (s.stepClusters k) State.clTurnOff
  s.when (s.f F.SEQ_STEP_OBJ k == 3) (fun s => s.setExt (s.f F.SEQ_STEP_INDEX k) false)

/-- A step that a power-down skips: UPONLY, or a PGIN step (R247). -/
def State.skipDown (s : State) (k : Nat) : Bool := s.fB F.SEQ_STEP_UPONLY k || s.f F.SEQ_STEP_OBJ k == 4

/-- A power-up step's completion condition (R247).  That a delay has elapsed is the event's own fact. -/
def State.upDone (s : State) (k : Nat) : Bool :=
  match s.f F.SEQ_STEP_OBJ k with
  | 1 | 2 => (s.stepClusters k).all
      (fun n => (s.cl.get n).run == .on && s.fB F.CL_VSTAT_SSDONE n && s.fB F.CL_WSTAT_INWIN n)
  | 3 => !s.fB F.SEQ_STEP_PGW k || s.pins.pgin.getLsbD (s.f F.SEQ_STEP_PGSEL k)
  | 4 => s.pins.pgin.getLsbD (s.f F.SEQ_STEP_INDEX k)
  | _ => true

/-- A power-down step's completion condition (R247, R250). -/
def State.downDone (s : State) (k : Nat) : Bool :=
  match s.f F.SEQ_STEP_OBJ k with
  | 1 | 2 => (s.stepClusters k).all (fun n => (s.cl.get n).run == .off && s.fB F.CL_WSTAT_BELOW n)
  | 3 => !s.fB F.SEQ_STEP_PGW k || !s.pins.pgin.getLsbD (s.f F.SEQ_STEP_PGSEL k)
  | _ => true

/-! ### SEQUP and SEQDN -/

/-- Entering SEQUP (R31, R34): CLOFF latches, shed states, soft-start-short latches and counts, OPOFF and the marks of a
region SEQOFF end; the selected feed is connected by inrush (R200); step 0 starts. -/
def State.sequpEntry (s : State) : State :=
  let s := s.enter .sequp
  let s := s.setReg 0x0204 0
  let s := s.each clusters (fun s n =>
    (((s.setB F.CL_WSTAT_SSSHORT n false).setF F.CL_WSTAT_HICCNT n 0).setB F.CL_SEQC_OPOFF n false).updCl n
      (fun c => { c with seqShut := false, b3Shed := false, hicWait := false }))
  let s := ((((s.setB F.SEQ_STAT_DIR 0 false).setB F.SEQ_STAT_ACTIVE 0 true).setF F.SEQ_STAT_HIGHEST 0 0).setB
    F.SEQ_STAT_PENDOFF 0 false).setB F.SEQ_STAT_PENDON 0 false
  ((s.evalFeedSel).evalBen).stepUp 0

/-- The start rule of R34: ONREQ in STANDBY with no latch that forbids start. -/
def State.evalStart (s : State) : State :=
  if s.dev == .standby && s.fB F.DEV_STATE_ONREQ && !s.startBarred then s.sequpEntry else s

/-- The last power-down step is complete (R31, R200, R256): the conducting feed's gate is turned off, the device enters
STANDBY with OFFLAT for TOFFMIN; a TOFFMIN of 0 ends at once.  B5LAT ends where FEED A or FEED B is qualified (R215,
log entry 23). -/
def State.seqdnEnd (s : State) : State :=
  let s := s.when (!s.shelf) State.allGatesOff
  let s := ((s.setB F.SEQ_STAT_ACTIVE 0 false).setB F.SEQ_STAT_HELD 0 false).setB F.SEQ_STAT_PENDOFF 0 false
  let s := { s with seq := { s.seq with stepOpen := false }, inp := { s.inp with unseat := false } }
  let s := (s.enter .standby).evalBen
  let s := s.when (s.fB F.FEED_STAT_QUAL 0 || s.fB F.FEED_STAT_QUAL 1) (fun s => s.setB F.INP_STAT_B5LAT 0 false)
  if s.f F.SEQ_CFG_TOFFMIN = 0 then (s.setB F.SEQ_STAT_PENDON 0 false).evalStart
  else s.setB F.SEQ_STAT_OFFLAT 0 true

/-- The power-down goes on from step `k`: the first step at or below it that is not skipped, or the end. -/
def State.seqdnFrom (s : State) (k : Nat) : State :=
  match ((List.range (k + 1)).reverse.find? (fun j => !s.skipDown j)) with
  | some j => s.stepDown j
  | none => s.seqdnEnd

/-- Entering SEQDN (R31, R249, R254): PWRGD is deasserted before the first step, and power-down runs from the highest
step that has started.  A partial shutdown that was running is part of it. -/
def State.seqdnEntry (s : State) : State :=
  let s := { s with pins := { s.pins with pwrgd := false } }
  let s := s.enter .seqdn
  let s := (((s.setB F.SEQ_STAT_DIR 0 true).setB F.SEQ_STAT_ACTIVE 0 true).setB F.SEQ_STAT_PENDOFF 0 false).setB
    F.SEQ_STAT_PENDON 0 false
  let s := { s with seq := { s.seq with subset := 0, subRg := 0, subStep := none, pwrgdWait := false } }
  (s.evalBen).seqdnFrom (s.f F.SEQ_STAT_HIGHEST)

/-- ONREQ is evaluated (R33, R34, R255): what a change does in each state, and the start rule. -/
def State.evalOnreq (s : State) : State :=
  let old := s.fB F.DEV_STATE_ONREQ
  let v := s.onreqVal && s.dev != .boot && !s.noImg
  let s := s.setB F.DEV_STATE_ONREQ 0 v
  let s := s.when (old && !v) (fun s =>
    let s := s.setB F.SEQ_STAT_UPFAIL 0 false
    match s.dev with
    | .sequp => s.setB F.SEQ_STAT_PENDOFF 0 true
    | .run => s.seqdnEntry
    | .seqdn => s.setB F.SEQ_STAT_PENDON 0 false
    | _ => s)
  let s := s.when (!old && v) (fun s =>
    match s.dev with
    | .sequp => s.setB F.SEQ_STAT_PENDOFF 0 false
    | .seqdn => s.setB F.SEQ_STAT_PENDON 0 true
    | _ => s)
  s.evalStart

/-- A cause of SEQDN other than ONREQ (R255): in SEQUP the step in progress is abandoned at once; in SEQDN the running
power-down continues (R285). -/
def State.packageOff (s : State) : State :=
  if s.dev == .sequp || s.dev == .run then s.seqdnEntry else s

/-! ### Partial shutdowns (R251) -/

/-- A step belongs to the partial shutdown in progress. -/
def State.inSubset (s : State) (k : Nat) : Bool :=
  match s.f F.SEQ_STEP_OBJ k with
  | 1 | 2 => (s.stepClusters k).any (fun n => s.seq.subset.getLsbD n)
  | 3 | 5 => (List.finRange 4).any (fun x => s.seq.subRg.getLsbD x && s.fBit F.SEQ_STEP_RGTAG k x) && !s.skipDown k
  | _ => false

/-- A step of a partial shutdown starts: only the clusters of the set are turned off. -/
def State.subDown (s : State) (k : Nat) : State :=
  let s := ({ s with seq := { s.seq with subStep := some k } }).seqDecide k 1 1
  let s := s.each ((s.stepClusters k).filter (fun (n : Fin 16) => s.seq.subset.getLsbD n)) State.clTurnOff
  s.when (s.f F.SEQ_STEP_OBJ k == 3) (fun s => s.setExt (s.f F.SEQ_STEP_INDEX k) false)

/-- The partial shutdown goes on below step `k`. -/
def State.subFrom (s : State) (k : Nat) : State :=
  match ((List.range k).reverse.find? (fun j => s.inSubset j)) with
  | some j => s.subDown j
  | none => { s with seq := { s.seq with subset := 0, subRg := 0, subStep := none } }

/-- A step of a partial shutdown is complete: its clusters are below VOFF; an EXT step as any (R251). -/
def State.subDone (s : State) (k : Nat) : Bool :=
  match s.f F.SEQ_STEP_OBJ k with
  | 1 | 2 => ((s.stepClusters k).filter (fun (n : Fin 16) => s.seq.subset.getLsbD n)).all
      (fun n => (s.cl.get n).run == .off && s.fB F.CL_WSTAT_BELOW n)
  | _ => s.downDone k

/-- A sequenced shutdown of the clusters `ns` with the regions `xs` (R251), added to one already running.  `mark`: the
clusters stay off until the package next enters SEQUP. -/
def State.partialOff (s : State) (ns : List (Fin 16)) (xs : List (Fin 4)) (mark : Bool) : State :=
  if s.dev != .sequp && s.dev != .run then s
  else
    let ns := ns ++ clusters.filter (fun (n : Fin 16) => xs.any (fun x => s.fBit F.RG_CFG_CLMASK x n))
    let s := s.when mark (fun s => s.each ns (fun s n => s.updCl n (fun c => { c with seqShut := true })))
    let s := { s with seq := { s.seq with
      subset := s.seq.subset ||| BitVec.ofNat 16 (maskOf (ns.map Fin.val))
      subRg := s.seq.subRg ||| BitVec.ofNat 4 (maskOf (xs.map Fin.val)) } }
    s.subFrom (s.f F.SEQ_CFG_NSTEP)

/-- The sequenced shutdown of one cluster (R170, R257), with every region downstream of it. -/
def State.clusterSeqoff (s : State) (n : Fin 16) (mark : Bool) : State :=
  s.partialOff [n] (if s.isHv n then s.downOf n else []) mark

/-! ### SYSFLT# (R259) -/

/-- Driving SYSFLT# low, or restarting the hold. -/
def State.sysfltDrive (s : State) : State :=
  let s := (s.setB F.SEQ_STAT_SFDRV 0 true).setB F.SEQ_STAT_SFLOW 0 true
  { s with seq := { s.seq with sfHold := true } }

/-! ### Safe-off (R276) -/

/-- The sense die forces safe-off: SAFE, every PWM output at the mid level, PEN, EXT and PWRGD low, BEN and BCHG low,
SYSFLT# driven; the conducting gate stays for 5 ms (SAFE_FEED_GATE_OFF).  The actions that safe-off supersedes count
as complete (R274, R282).  Nothing changes where the device is in SAFE already. -/
def State.safeOff (s : State) : State :=
  if s.dev == .safe then s
  else
    let s := s.each clusters State.clOff
    let s := s.each phases (fun s p => (s.setB F.PH_STAT_ACTIVE p false).updPh p (fun u => { u with out := .mid }))
    let s := s.enter .safe
    let s := ((s.setB F.SEQ_STAT_ACTIVE 0 false).setB F.SEQ_STAT_HELD 0 false).setB F.SEQ_STAT_PENDOFF 0 false
    let s := s.setB F.SEQ_STAT_PENDON 0 false
    let s := { s with
      seq := { s.seq with stepOpen := false, subset := 0, subRg := 0, subStep := none, pwrgdWait := false }
      inp := { s.inp with unseat := false }
      pins := { s.pins with pen := 0, ext := 0, pwrgd := false, ben := false, bchg := false }
      power := { s.power with safeGatesOff := false }
      tap := { s.tap with forcedMid := s.tap.inst.drives }
      sup := { s.sup with actsOpen := s.sup.actsOpen.filter (fun o => o.act == 0 || o.act == 7) } }
    s.sysfltDrive

/-! ### Completion of fault actions (R271, R282) -/

/-- An action of a fault is complete (R271). -/
def State.actDone (s : State) (o : OpenAct) : Bool :=
  let offBelow (n : Fin 16) := (s.cl.get n).run == .off && s.fB F.CL_WSTAT_BELOW n
  match o.act with
  | 0 => !s.owl.staging.any (fun r => r.seq.toNat == o.tgt)
  | 3 =>
    if 21 ≤ o.tgt then (s.ph.get (Fin.ofNat 48 (o.tgt - 21))).out == .mid
    else if 5 ≤ o.tgt then offBelow (Fin.ofNat 16 (o.tgt - 5))
    else (clusters.filter (fun (n : Fin 16) => s.fBit F.INP_LADCFG_SHEDMASK 0 n)).all offBelow
  | 4 =>
    if 5 ≤ o.tgt && o.tgt < 21 then (s.cl.get (Fin.ofNat 16 (o.tgt - 5))).run == .off
    else clusters.all (fun n => (s.cl.get n).run == .off)
  | 5 => if o.tgt = 0 then s.dev != .sequp && s.dev != .run && s.dev != .seqdn else s.seq.subStep.isNone
  | 6 => s.dev == .safe
  | 7 => !s.fB F.SEQ_STAT_SFDRV
  | _ => true

/-- HDONE reads 1 while a record is open and no action is left (R282). -/
def State.evalHdone (s : State) : State :=
  let left := s.sup.actsOpen.filter (fun o => !s.actDone o)
  let s := { s with sup := { s.sup with actsOpen := left } }
  if s.fB F.SUPV_STAT_FFOPEN then s.setB F.SUPV_STAT_HDONE 0 left.isEmpty else s

end Sys2Proof.Machine
end

