-- ==== Sys2Proof/Machine/Trans.lean ====
section
/-! DEFINITION. The sine, exponential and logarithm that R146, R147, R185, R222, R225 and R289 name, computed in fixed point
with 48 fraction bits (log entry 9: the error is below 2^-40 of full scale, and every rounding the spec states comes
after). -/

namespace Sys2Proof.Machine

/-- One in the fixed point. -/
def fxOne : Int := 281474976710656

/-- Half of pi, 1/e and ln 2. -/
def fxHalfPi : Int := 442139859501778
def fxInvE : Int := 103548857136061
def fxLn2 : Int := 195103586505167

/-- The product of two fixed-point numbers. -/
def fxMul (a b : Int) : Int := a * b / fxOne

/-- The Taylor series of sine from the term `t` at `x`, whose square is `x2`. -/
def fxSinTail (x2 : Int) : Nat → Nat → Int → Int
  | 0, _, _ => 0
  | fuel + 1, k, t => t + fxSinTail x2 fuel (k + 2) (-(fxMul t x2) / ((k * (k + 1) : Nat) : Int))

/-- The sine of a phase in 1/2^32 of a turn. -/
def fxSin (phase : Nat) : Int :=
  let p : Nat := phase % 2 ^ 32
  let r : Nat := p % 2 ^ 30
  let t : Nat := if p / 2 ^ 30 % 2 = 0 then r else 2 ^ 30 - r
  let x := (t : Int) * fxHalfPi / 2 ^ 30
  let v := fxSinTail (fxMul x x) 11 2 x
  if p / 2 ^ 31 = 0 then v else -v

def fxCos (phase : Nat) : Int := fxSin (phase + 2 ^ 30)

/-- A fixed-point number in signed Q15; 1 saturates (log entry 9). -/
def toQ15 (v : Int) : Int := clampI (-32768) 32767 (roundAway ((v * 32768 : Int) / (fxOne : Rat)))

/-- The Taylor series of exp at `-x`. -/
def fxExpTail (x : Int) : Nat → Nat → Int → Int
  | 0, _, _ => 0
  | fuel + 1, k, t => t + fxExpTail x fuel (k + 1) (-(fxMul t x) / (k : Int))

def fxPow (b : Int) : Nat → Int
  | 0 => fxOne
  | n + 1 => fxMul b (fxPow b n)

/-- exp(-x) for x at or above 0; 0 from x = 64 on. -/
def expNeg (x : Rat) : Rat :=
  let f := (x * (fxOne : Rat)).floor
  if f ≤ 0 then 1
  else if 64 * fxOne ≤ f then 0
  else
    let n := (f / fxOne).toNat
    let v := fxMul (fxExpTail (f % fxOne) 20 1 fxOne) (fxPow fxInvE n)
    (v : Rat) / (fxOne : Rat)

/-- The series of artanh from the term `t`. -/
def fxAtanhTail (y2 : Int) : Nat → Nat → Int → Int
  | 0, _, _ => 0
  | fuel + 1, k, t => t / (k : Int) + fxAtanhTail y2 fuel (k + 2) (fxMul t y2)

/-- Bringing a fixed-point number into 1 to 2, counting the halvings. -/
def fxNorm : Nat → Int → Int → Int × Int
  | 0, m, e => (m, e)
  | fuel + 1, m, e =>
    if 2 * fxOne ≤ m then fxNorm fuel (m / 2) (e + 1) else if m < fxOne then fxNorm fuel (m * 2) (e - 1) else (m, e)

/-- The natural logarithm of a number above 0; 0 elsewhere. -/
def lnQ (x : Rat) : Rat :=
  if x ≤ 0 then 0
  else
    let r := fxNorm 96 (x * (fxOne : Rat)).floor 0
    let y := (r.1 - fxOne) * fxOne / (r.1 + fxOne)
    ((2 * fxAtanhTail (fxMul y y) 24 1 y + r.2 * fxLn2 : Int) : Rat) / (fxOne : Rat)

end Sys2Proof.Machine
end

