-- ==== Sys2Proof/Machine/Battery.lean ====
section
/-! DEFINITION. The battery estimator (10_battery_estimator.md R221 to R244).  Dormouse mode's commands stand with the boot. -/

namespace Sys2Proof.Machine

/-! ### The open-circuit voltage (R224) -/

def ocvWord (s : State) (i : Fin 6) (k : Nat) : Nat := (s.reg (0x5000 + 0x100 * i.val + k)).toNat % 65536

/-- Table temperature `t` in C. -/
def State.ocvTemp (s : State) (i : Fin 6) (t : Nat) : Rat := (toSigned 16 (ocvWord s i t) : Rat) / 256

/-- The entry of row `t` at j/32, in V. -/
def State.ocvEntry (s : State) (i : Fin 6) (t j : Nat) : Rat := (ocvWord s i (8 + 33 * t + j) : Rat) / 10000

/-- The rows on either side of a temperature, and the fraction of the way to the second; outside the table temperatures the
nearest row. -/
def State.ocvRows (s : State) (i : Fin 6) (temp : Rat) : Nat × Nat × Rat :=
  match (List.range 5).find? (fun t => temp < s.ocvTemp i t) with
  | none => (4, 4, 0)
  | some 0 => (0, 0, 0)
  | some t =>
    let a := s.ocvTemp i (t - 1)
    (t - 1, t, (temp - a) / (s.ocvTemp i t - a))

/-- The 33 table points at a temperature. -/
def State.ocvLine (s : State) (i : Fin 6) (temp : Rat) : List Rat :=
  let r := s.ocvRows i temp
  (List.range 33).map (fun j =>
    let a := s.ocvEntry i r.1 j
    a + (s.ocvEntry i r.2.1 j - a) * r.2.2)

/-- The segment that holds z, and its slope per unit z. -/
def segment (line : List Rat) (z : Rat) : Nat × Rat :=
  let j := Nat.min 31 (z * 32).floor.toNat
  (j, (line.getD (j + 1) 0 - line.getD j 0) * 32)

/-- OCV, linear in z and T; beyond the ends of the table in z a free value. -/
def State.ocv (s : State) (i : Fin 6) (z temp : Rat) : Rat :=
  if z < 0 || 1 < z then Config.ocvBeyond i z temp
  else
    let line := s.ocvLine i temp
    let g := segment line z
    line.getD g.1 0 + g.2 * (z - (g.1 : Rat) / 32)

/-- The slope of OCV per unit z; of the end segment beyond the ends. -/
def State.ocvSlope (s : State) (i : Fin 6) (z temp : Rat) : Rat := (segment (s.ocvLine i temp) z).2

/-- The inverse of OCV: in a level segment its lower end; beyond the table a free value. -/
def State.ocvInv (s : State) (i : Fin 6) (v temp : Rat) : Rat :=
  let line := s.ocvLine i temp
  if v < line.getD 0 0 || line.getD 32 0 < v then Config.ocvInvBeyond i v temp
  else
    let j := (List.range 32).findIdx (fun j => decide (v ≤ line.getD (j + 1) 0))
    let a := line.getD j 0
    let b := line.getD (j + 1) 0
    (j : Rat) / 32 + (if a = b then 0 else (v - a) / (b - a) / 32)

/-! ### Small readings -/

def State.bat6 (s : State) (i : Fin 6) : BatSt := s.bat.get i

def State.nCell (s : State) (i : Fin 6) : Rat := s.f F.BAT_CFG_NCELL i

/-- RESV as a fraction. -/
def State.resv (s : State) (i : Fin 6) : Rat := (s.f F.BAT_RES_RESV i : Rat) / 1000

/-- R2 in ohm per cell, and the time constants in s. -/
def State.r2 (s : State) (i : Fin 6) : Rat := (s.f F.BAT_RC2_R i : Rat) / 100000
def State.tau1 (s : State) (i : Fin 6) : Rat := (s.f F.BAT_RC1_TAU i : Rat) / 1000
def State.tau2 (s : State) (i : Fin 6) : Rat := (s.f F.BAT_RC2_TAU i : Rat) / 1000
def State.rSum (s : State) (i : Fin 6) : Rat := (s.bat6 i).r0 + (s.bat6 i).r1 + s.r2 i

/-- The model temperature (R221). -/
def State.modelTemp (s : State) (i : Fin 6) : Rat :=
  if s.fB F.BAT_CFG_TSRC i && (s.bat6 i).cells.isSome then ((s.bat6 i).tCell : Rat) / 256 else ((s.bat6 i).tb : Rat) / 256

/-- The lowest and the highest cell voltage in mV (R221, R223). -/
def State.cellRange (s : State) (i : Fin 6) (volts : Rat) : Rat × Rat :=
  match (s.bat6 i).cells with
  | some c => (c.1, c.2)
  | none => (volts * 1000 / s.nCell i, volts * 1000 / s.nCell i)

/-! ### Filter algebra (R225): P as Pzz, Pz1, Pz2, P11, P12, P22 -/

/-- The prediction of P by the diagonal state Jacobian, with the process noise. -/
def predictP (p : Vector Rat 6) (a1 a2 qz q1 q2 : Rat) : Vector Rat 6 :=
  #v[p.get 0 + qz, p.get 1 * a1, p.get 2 * a2, p.get 3 * a1 * a1 + q1, p.get 4 * a1 * a2, p.get 5 * a2 * a2 + q2]

/-- The gains and the updated P for a measurement with Jacobian (h, -1, -1) and noise r. -/
def updateP (p : Vector Rat 6) (h r : Rat) : (Rat × Rat × Rat) × Vector Rat 6 :=
  let bz := p.get 0 * h - p.get 1 - p.get 2
  let b1 := p.get 1 * h - p.get 3 - p.get 4
  let b2 := p.get 2 * h - p.get 4 - p.get 5
  let den := h * bz - b1 - b2 + r
  ((bz / den, b1 / den, b2 / den),
   #v[p.get 0 - bz * bz / den, p.get 1 - bz * b1 / den, p.get 2 - bz * b2 / den,
      p.get 3 - b1 * b1 / den, p.get 4 - b1 * b2 / den, p.get 5 - b2 * b2 / den])

/-- P with Pzz replaced. -/
def setPzz (p : Vector Rat 6) (v : Rat) : Vector Rat 6 := p.set 0 v

def raisePzz (p : Vector Rat 6) (v : Rat) : Vector Rat 6 := if p.get 0 < v then setPzz p v else p

/-! ### Capacity learning (R237) -/

/-- A code joins the disqualifiers met. -/
def Learn.dq (l : Learn) (b : Bool) (code : Nat) : Learn :=
  if b && !l.dqs.contains code then { l with dqs := l.dqs ++ [code] } else l

/-- One step of the learning cycle; `skip`: a step skipped under R225. -/
def Learn.step (l : Learn) (amps temp q : Rat) (bad : Bool) : Learn :=
  let l := (l.dq (decide (temp < 15) || decide (35 < temp)) 1).dq bad 6
  let dt : Rat := 1 / 10
  if amps < 0 then
    let l := l.dq (l.charged && decide (q * 72 < l.dis)) 3
    { l with charge := l.charge + amps * dt, absSum := l.absSum - amps * 100, ms := l.ms + 100, charged := true, pauseMs := 0, dis := 0 }
  else
    let pause := if l.charged then l.pauseMs + 100 else 0
    let l := l.dq (decide (600000 < pause)) 4
    { l with
      charge := l.charge + amps * dt, absSum := l.absSum + amps * 100, ms := l.ms + 100, pauseMs := pause
      dis := l.dis + amps * dt }

/-- The end of a cycle at a reference point whose z is `z1`: accepted, Q moves one quarter of the way, by at most 5% of
QDES; rejected, the first disqualifier is recorded. -/
def State.learnEnd (s : State) (i : Fin 6) (z1 : Rat) : State :=
  match (s.bat6 i).lrn with
  | none => s
  | some l =>
    let q : Rat := (s.bat6 i).q
    let dz := absQ (l.z0 - z1)
    let met := l.dqs.filter (fun c => c = 1 || c = 6 || l.z0 < z1)
    let tail := (if l.ms ≠ 0 && q / 2000 < l.absSum / (l.ms : Rat) then [2] else []) ++ (if dz < 2 / 5 then [5] else [])
    match met ++ tail with
    | [] =>
      let qdes : Rat := 10 * (s.f F.BAT_CFG_QDES i : Rat)
      let meas := absQ l.charge / dz / 36 * 10
      let step := clampQ (-(qdes / 20)) (qdes / 20) ((meas - q) / 4)
      (s.updBat i (fun b => { b with q := (roundAway (q + step)).toNat })).incF F.BAT_LRN_ACC i
    | c :: _ => (s.incF F.BAT_LRN_REJ i).setF F.BAT_LRN_LRNREJ i c

/-- A reference point (R228): z and Pzz set, the age back to 0, the request met, and a new learning cycle. -/
def State.refPoint (s : State) (i : Fin 6) (kind : Nat) (z var : Rat) : State :=
  let s := s.learnEnd i z
  let s := s.updBat i (fun b => { b with
    z := z, p := setPzz b.p var, refAgeMs := 0, lrn := some ⟨z, 0, 0, 0, [], false, 0, 0⟩ })
  let s := (s.setF F.BAT_STAT_REFAGE i 0).setF F.BAT_STAT_LASTREF i kind
  (s.setB F.BAT_STAT_RESTREQ i false).lower (Src.batRestreq i)

/-! ### Restore (R240) -/

def sblkBase (i : Fin 6) : Nat := 0x2620 + 0x40 * i.val

/-- A word of the state block. -/
def State.sblk (s : State) (i : Fin 6) (k : Nat) : Word := s.reg (sblkBase i + k)

/-- The image defaults of the resistances in uOhm: R0 and the 10 ms resistance. -/
def State.impDefault (s : State) (i : Fin 6) : Nat × Nat :=
  let w := ((s.img.defaults.find? (fun p => p.1 = 0x260B + 0x40 * i.val)).map (·.2)).getD 0
  (w.toNat % 65536 * 10, w.toNat / 65536 * 10)

/-- The code of the first check of R240 that a block fails; 0 where it passes all. -/
def State.restoreCode (s : State) (i : Fin 6) : Nat :=
  let w := s.sblk i
  let qdes := 10 * s.f F.BAT_CFG_QDES i
  let imp := s.impDefault i
  let near (v d : Nat) : Bool := decide (d ≤ 10 * v) && decide (v ≤ 10 * d)
  if (w 0).toNat ≠ 0x53424154 || (w 1).toNat % 65536 ≠ 1 || w 31 ≠ crcWords ((List.range 31).map w) then 1
  else if (w 1).toNat / 65536 % 256 ≠ i.val then 2
  else if w 5 ≠ 0 && (s.bat6 i).packId ≠ 0 && w 5 ≠ (s.bat6 i).packId then 3
  else if (w 15).toNat * 2 < qdes || qdes * 11 < (w 15).toNat * 10 || !near (w 16).toNat imp.1 || !near (w 17).toNat imp.2 then 4
  else 0

/-- The model's R1 for a 10 ms resistance (R227). -/
def State.rescaleR1 (s : State) (i : Fin 6) (r0 r10 : Rat) : Rat :=
  let e1 := expNeg (1 / 100 / s.tau1 i)
  let e2 := expNeg (1 / 100 / s.tau2 i)
  (r10 - r0 - s.r2 i * (1 - e2)) / (1 - e1)

/-- Applying an accepted block at the step. -/
def State.applyRestore (s : State) (i : Fin 6) : State :=
  let w := s.sblk i
  let c := s.restoreCode i
  if c ≠ 0 then s.setF F.BAT_STAT_RESTREJ i c
  else
    let r0 : Rat := ((w 16).toNat : Rat) / 1000000
    let r10 : Rat := ((w 17).toNat : Rat) / 1000000
    let r1 := s.rescaleR1 i r0 r10
    let q := (w 15).toNat
    let s := s.updBat i (fun b => { b with q := q, r0 := r0, r10 := r10, r1 := r1, efc := (w 21).toNat })
    let s := (s.setF F.BAT_LRN_ACC i ((w 20).toNat % 65536)).setF F.BAT_LRN_REJ i (Nat.min 255 ((w 20).toNat / 65536))
    let zb := ratOfF32 (w 6)
    let s := if w 2 = s.nvm.timeSlot.2 then
        let used := (s.bat6 i).charge - ((w 18).toInt : Rat) / 1000
        s.updBat i (fun b => { b with
          z := zb - used / (36 / 10 * (q : Rat)), v1 := ratOfF32 (w 7), v2 := ratOfF32 (w 8), started := true
          p := Vector.ofFn (fun k => ratOfF32 (w (9 + k))) })
      else
        let so : Rat := (s.f F.BAT_RES_SIGOFF i : Rat) / 1000
        let var := ratOfF32 (w 9) + so * so
        s.updBat i (fun b =>
          let pz := b.p.get 0
          let g := pz / (pz + var)
          { b with
            z := b.z + g * (zb - b.z), p := setPzz b.p (pz - g * pz)
            refAgeMs := (w 19).toNat * 1000 + s.clk.ms.toNat })
    (s.setB F.BAT_STAT_UNRESTORED i false).setF F.BAT_STAT_RESTREJ i 0

/-! ### The estimator step (R225) -/

/-- No pack path (R225): the step is skipped; in the rack-shelf role the modules are always connected. -/
def State.estSkip (s : State) (i : Fin 6) : Bool :=
  !s.shelf && s.gate 2 == .off && !s.pins.bchg && !(s.bat6 i).benLong

/-- Prediction and update. -/
def State.estFilter (s : State) (i : Fin 6) (amps volts temp : Rat) : State :=
  let b := s.bat6 i
  let dt : Rat := 1 / 10
  let a1 := expNeg (dt / s.tau1 i)
  let a2 := expNeg (dt / s.tau2 i)
  let z := b.z - amps * dt / (36 / 10 * (b.q : Rat))
  let v1 := b.v1 * a1 + b.r1 * (1 - a1) * amps
  let v2 := b.v2 * a2 + s.r2 i * (1 - a2) * amps
  let fr (a : Fld) : Rat := ratOfF32 (s.reg (a.addr i))
  let p := predictP b.p a1 a2 (fr F.BAT_QZ_QZ) (fr F.BAT_QV1_QV1) (fr F.BAT_QV2_QV2)
  let y := volts / s.nCell i - (s.ocv i z temp - amps * b.r0 - v1 - v2)
  let u := updateP p (s.ocvSlope i z temp) (fr F.BAT_RV_RV)
  s.updBat i (fun b => { b with z := z + u.1.1 * y, v1 := v1 + u.1.2.1 * y, v2 := v2 + u.1.2.2 * y, p := u.2 })

/-- The Owl record of R233 and R234: z, V, I, the lowest cell and Pzz, as binary32. -/
def State.critRecord (s : State) (i : Fin 6) (src : Nat) (amps volts vmin : Rat) : State :=
  let b := s.bat6 i
  s.recordSrc src 0 [f32OfRat b.z, f32OfRat volts, f32OfRat amps, f32OfRat (vmin / 1000), f32OfRat (b.p.get 0)]

/-- The two criteria (R232 to R234); a discharge ends when I has stayed below 0 for 60 s. -/
def State.criteria (s : State) (i : Fin 6) (amps volts vmin : Rat) : State :=
  let b := s.bat6 i
  let chg := if amps < 0 then b.chgRun + 100 else 0
  let vemp := if vmin ≤ (s.f F.BAT_VLIM_VEMPTY i : Rat) then b.vempRun + 100 else 0
  let above := decide (60000 ≤ chg)
  let s := s.updBat i (fun b => { b with
    chgRun := chg, vempRun := vemp, voltCrit := b.voltCrit && !above, chgCrit := b.chgCrit && !above })
  let b := s.bat6 i
  let volt := decide (1000 ≤ vemp)
  if volt && !b.voltCrit && !b.chgCrit then
    let z := if s.resv i < b.z then s.resv i else b.z
    let s := s.updBat i (fun b => { b with voltCrit := true, z := z, p := raisePzz b.p (1 / 400) })
    let s := (s.setB F.BAT_STAT_VEMPTYF i true).raise (Src.batVempty i)
    s.critRecord i (Src.batVempty i) amps volts vmin
  else if b.z ≤ s.resv i && !volt && !b.chgCrit && !b.voltCrit then
    let s := s.updBat i (fun b => { b with chgCrit := true })
    let s := (s.setB F.BAT_STAT_DISAGREE i true).raise (Src.batDisagree i)
    let s := s.critRecord i (Src.batDisagree i) amps volts vmin
    s.updBat i (fun b => { b with p := raisePzz b.p (1 / 400) })
  else s

/-- SOCREP as a fraction (R232). -/
def State.socRep (s : State) (i : Fin 6) : Rat :=
  if 1000 ≤ (s.bat6 i).vempRun then 0 else clampQ 0 1 (((s.bat6 i).z - s.resv i) / (1 - s.resv i))

/-- The mean of OCV from RESV to z over the table points between them and the end points (R236). -/
def State.ocvMean (s : State) (i : Fin 6) (temp : Rat) : Rat :=
  let z := (s.bat6 i).z
  let lo := s.resv i
  let inner := ((List.range 33).map (fun (j : Nat) => (j : Rat) / 32)).filter (fun x => decide (lo < x) && decide (x < z))
  meanQ (([lo] ++ inner ++ [z]).map (fun x => s.ocv i x temp))

/-- E of R236, in J. -/
def State.energyLeft (s : State) (i : Fin 6) (amps temp : Rat) : Nat :=
  let soc := s.socRep i
  if soc = 0 then 0
  else
    let v := s.nCell i * s.ocvMean i temp - absQ amps * s.nCell i * s.rSum i
    let e := soc * (1 - s.resv i) * (s.bat6 i).q * (36 / 10) * v
    satU 32 e.floor

/-- What the registers show of the estimator. -/
def State.showBat (s : State) (i : Fin 6) (range : Rat × Rat) : State :=
  let b := s.bat6 i
  let s := (s.setF F.BAT_SOC_SOCREP i (satU 16 (roundAway (s.socRep i * 10000)))).setF F.BAT_SOC_SIGMA i
    (Nat.min 65535 (Nat.sqrt (b.p.get 0 * 100000000).floor.toNat))
  let s := (s.setF F.BAT_CAP_Q i (Nat.min 65535 (b.q / 10))).setS F.BAT_CAP_Z i (satS 16 (roundAway (b.z * 10000)))
  let s := (s.setF F.BAT_IMP_R0 i (satU 16 (roundAway (b.r0 * 100000)))).setF F.BAT_IMP_R10 i
    (satU 16 (roundAway (b.r10 * 100000)))
  let s := s.setF F.BAT_RC1_R i (satU 16 (roundAway (b.r1 * 100000)))
  (s.setF F.BAT_CELL_VMIN i (satU 16 (roundAway range.1))).setF F.BAT_CELL_VMAX i (satU 16 (roundAway range.2))

/-- Top of charge (R229). -/
def State.topOfCharge (s : State) (i : Fin 6) (amps vmax : Rat) : State × Bool :=
  let high := decide ((s.f F.BAT_TOC_VTOC i : Rat) - 10 ≤ vmax)
  let cond := s.pins.bchg && high && decide (amps < 0) && decide (-amps * 100 < (s.f F.BAT_TOC_ITERM i : Rat))
  let run := if cond then (s.bat6 i).tocRun + 100 else 0
  let hit := (cond && decide (1000 * s.f F.BAT_TOC_TOCT i ≤ run)) || ((s.bat6 i).chargerDone && high)
  (s.updBat i (fun b => { b with tocRun := if hit then 0 else run, chargerDone := b.chargerDone && !hit }), hit)

/-- The corrected-voltage reference (R228): its slope condition and an impedance accepted within 24 h. -/
def State.correctedRef (s : State) (i : Fin 6) (amps volts temp : Rat) (steady : Bool) : Option Rat :=
  let b := s.bat6 i
  let v := volts / s.nCell i + amps * s.rSum i
  let z := s.ocvInv i v temp
  if steady && b.impEver && b.impAge < 86400000 && 1 / 5 ≤ s.ocvSlope i z temp then some z else none

/-- The age of the reference, and the request for a rest (R228, R230). -/
def State.refAge (s : State) (i : Fin 6) : State :=
  let s := s.updBat i (fun b => { b with refAgeMs := b.refAgeMs + 100, impAge := b.impAge + 100 })
  let h := Nat.min 65535 ((s.bat6 i).refAgeMs / 3600000)
  let s := s.setF F.BAT_STAT_REFAGE i h
  if s.f F.BAT_RES_ANCHT i ≤ h then (s.setB F.BAT_STAT_RESTREQ i true).raise (Src.batRestreq i) else s

/-- ESTIMATOR_STEP of an enabled instance: the mean I in A (positive in discharge) and V in V over the 400 windows; `steady`:
|I| has stayed within ±2% of its mean for 60 s; `fresh`: the monitor's data is not older than 3 poll periods. -/
def execEstimatorStep (i : Fin 6) (amps volts : Rat) (steady fresh : Bool) (s : State) : Host.Outcome State Fault Refusal :=
  if !s.fB F.BAT_CFG_EN i || s.dev == .boot then .next s
  else
    let s := if fresh && (s.bat6 i).cells.isSome then (s.setB F.BAT_STAT_PMLOST i false).lower (Src.batPmlost i)
      else ((s.updBat i (fun b => { b with cells := none })).setB F.BAT_STAT_PMLOST i true).raise (Src.batPmlost i)
    let temp := s.modelTemp i
    let range := s.cellRange i volts
    let bad := s.fB F.PREC_STAT_REFBAD
    if s.estSkip i then
      let s := s.updBat i (fun b => { b with lrn := b.lrn.map (fun l => l.dq true 6) })
      .next ((s.refAge i).evalBen)
    else
      let s := if (s.bat6 i).started then s
        else s.updBat i (fun b => { b with started := true, z := s.ocvInv i (volts / s.nCell i + amps * s.rSum i) temp })
      let s := if (s.bat6 i).restorePend then
          (s.applyRestore i).updBat i (fun b => { b with restorePend := false }) else s
      let s := s.estFilter i amps volts temp
      let s := s.updBat i (fun b => { b with
        charge := b.charge + amps / 10, efc := Config.efcNext i b.efc (amps / 10)
        lrn := b.lrn.map (fun l => l.step amps temp b.q bad) })
      let s := s.refAge i
      let t := s.topOfCharge i amps range.2
      let s := if t.2 then t.1.refPoint i 1 1 (1 / 40000)
        else match t.1.correctedRef i amps volts temp steady with
          | some z => t.1.refPoint i 3 z (1 / 10000)
          | none => t.1
      let s := s.criteria i amps volts range.1
      let s := s.setReg (F.BAT_ERES_ERES.addr i) (BitVec.ofNat 32 (s.energyLeft i amps temp))
      .next ((s.showBat i range).evalBen)

/-! ### Temperature (R222, R231) -/

/-- The beta model: the temperature in 1/256 C of a reading in 0.5 mV, through 10.0 kOhm from 2.048 V. -/
def State.bthTemp (s : State) (i : Fin 6) (code : Nat) : Int :=
  let r : Rat := 10000 * (code : Rat) / (4096 - (code : Rat))
  let r25 : Rat := 10 * (s.f F.BAT_TH_R25 i : Rat)
  let inv : Rat := 100 / 29815 + lnQ (r / r25) / (s.f F.BAT_TH_BETA i : Rat)
  satS 16 (roundAway ((1 / inv - 27315 / 100) * 256))

/-- The contactor opens above TDMAX and closes 5 C below it. -/
def State.evalHot (s : State) (i : Fin 6) : State :=
  let tb := (s.bat6 i).tb
  let lim := s.fS F.BAT_TWIN_TDMAX i * 256
  let hot := decide (lim < tb) || ((s.bat6 i).hotLatch && !decide (tb ≤ lim - 1280))
  let s := s.updBat i (fun b => { b with hotLatch := hot })
  (s.follow (Src.batTemp i) hot).evalBen

/-- BTH_READING: the ball in 0.5 mV. -/
def execBthReading (i : Fin 6) (code : BitVec 12) (s : State) : Host.Outcome State Fault Refusal :=
  let b := s.bat6 i
  let out := decide (code.toNat < 40) || decide (4000 < code.toNat)
  let bad := if out then b.thBad + 1 else 0
  let ok := if out then 0 else b.thOk + 1
  let flt := s.fB F.BAT_STAT_THFLT i
  let nowBad := (flt && decide (ok < 10)) || decide (3 ≤ bad)
  let s := s.setB F.BAT_STAT_THFLT i nowBad
  let tb := if nowBad then s.fS F.BAT_TWIN_TDEF i * 256 else if out then b.tb else s.bthTemp i code.toNat
  let s := s.updBat i (fun b => { b with thBad := bad, thOk := ok, tb := tb })
  .next ((s.follow (Src.batTh i) nowBad).evalHot i)

/-! ### Impedance (R227) -/

/-- IMPEDANCE_STEP: a detected step of `di` A from the pre-step mean voltage to the mean after 1 ms and, where I held, after
10 ms, in V.  Not used inside a rest or during a transfer. -/
def execImpedanceStep (i : Fin 6) (di vpre v1ms : Rat) (v10ms : Option Rat) (s : State) : Host.Outcome State Fault Refusal :=
  if s.fB F.BAT_STAT_RESTING i || s.inp.xfer ≠ .idle || di = 0 || absQ di * 10 < (s.f F.BAT_STEP_ZSTEP i : Rat) then .next s
  else
    let b := s.bat6 i
    let meas (v : Rat) : Rat := (vpre - v) / (s.nCell i * di)
    let r0 := b.r0 + (meas v1ms - b.r0) / 16
    let r10 := match v10ms with | some v => b.r10 + (meas v - b.r10) / 16 | none => b.r10
    let r1 := s.rescaleR1 i r0 r10
    let s := s.updBat i (fun b => { b with r0 := r0, r10 := r10, r1 := r1, impEver := true, impAge := 0 })
    let s := (s.setF F.BAT_IMP_R0 i (satU 16 (roundAway (r0 * 100000)))).setF F.BAT_IMP_R10 i (satU 16 (roundAway (r10 * 100000)))
    .next (s.setF F.BAT_RC1_R i (satU 16 (roundAway (r1 * 100000))))

/-! ### Rest (R230) -/

/-- Granting a rest, or ending it; BCHG follows. -/
def State.setRest (s : State) (i : Fin 6) (on : Bool) : State :=
  ((s.setB F.BAT_CTRL_REST i on).setB F.BAT_STAT_RESTING i on).evalBen

/-- BAT_REST_WRITE. -/
def batRest (i : Fin 6) (on : Bool) (s : State) : State × Nat := (s.setRest i on, Code.ok)

/-- REST_COMPLETE: |I| below IREST for RESTT; V in V.  A level table gives no slope and the bound of (5%)^2. -/
def execRestComplete (i : Fin 6) (volts : Rat) (s : State) : Host.Outcome State Fault Refusal :=
  if !s.fB F.BAT_STAT_RESTING i then .next s
  else
    let temp := s.modelTemp i
    let z := s.ocvInv i (volts / s.nCell i) temp
    let sl := s.ocvSlope i z temp * 1000
    let d := 1 / 10 / sl
    let var := if sl = 0 || 1 / 400 < d * d then 1 / 400 else d * d
    .next ((s.refPoint i 2 z var).setRest i false)

/-! ### Contactor and cut-off (R231, R235) -/

/-- CONTACTOR_SETTLED: BEN has been high for CONT. -/
def execContactorSettled (s : State) : Host.Outcome State Fault Refusal :=
  if s.pins.ben then .next (s.updBat 0 (fun b => { b with benLong := true })).evalBen else .next s

/-- PACK_UV_CUT: the lowest cell below VCUT for 100 ms.  In the rack-shelf role the module's own disconnect is ordered over
the field bus (R244). -/
def execPackUvCut (i : Fin 6) (s : State) : Host.Outcome State Fault Refusal :=
  if s.fB F.BAT_CFG_EN i then
    let s := s.when s.shelf (fun s => s.queueWrites 0xC (some i))
    .next ((s.setB F.BAT_STAT_UVLAT i true).raise (Src.batUvcut i)).evalBen
  else .next s

/-- UVCLR. -/
def batUvclr (i : Fin 6) (s : State) : State × Nat :=
  (((s.setB F.BAT_STAT_UVLAT i false).lower (Src.batUvcut i)).evalBen, Code.ok)

/-! ### The state block (R239, R240) -/

/-- Words 0 to 30 of the state block. -/
def State.blockWords (s : State) (i : Fin 6) : List Word :=
  let b := s.bat6 i
  [0x53424154#32, BitVec.ofNat 32 (1 + 65536 * i.val), s.nvm.timeSlot.2, s.clk.ms.setWidth 32,
   BitVec.ofNat 32 (s.clk.ms.toNat / 2 ^ 32), b.packId, f32OfRat b.z, f32OfRat b.v1, f32OfRat b.v2]
  ++ b.p.toList.map f32OfRat
  ++ [item b.q, itemI (roundAway (b.r0 * 1000000)), itemI (roundAway (b.r10 * 1000000)), itemI (roundAway (b.charge * 1000)),
   item (b.refAgeMs / 1000), item (s.f F.BAT_LRN_ACC i + 65536 * s.f F.BAT_LRN_REJ i), item b.efc, item b.chgCrit.toNat]
  ++ List.replicate 8 0

/-- SNAP. -/
def batSnap (i : Fin 6) (s : State) : State × Nat :=
  let w := s.blockWords i
  let w := w ++ [crcWords w]
  (s.setRegs ((List.range 32).map (fun k => (sblkBase i + k, w.getD k 0))), Code.ok)

/-- RESTORE: the block is checked, and applied at the next step. -/
def batRestore (i : Fin 6) (s : State) : State × Nat :=
  let c := s.restoreCode i
  if c = 0 then (s.updBat i (fun b => { b with restorePend := true }), Code.ok)
  else (s.setF F.BAT_STAT_RESTREJ i c, Code.ok)

end Sys2Proof.Machine
end

