-- ==== Sys2Proof/Machine/Compress.lean ====
section
/-! DEFINITION. The compressor of 14_capture_and_stream.md R311 to R313: prediction, residuals, Rice codes, and the words of a
data block. -/

namespace Sys2Proof.Machine

/-- The prediction of sample `i` of a block from the two before it (R311). -/
def predict (p2 : Bool) (i : Nat) (y1 y2 : Int) : Int :=
  if p2 && 2 ≤ i then clampI (-32768) 32767 (2 * y1 - y2) else y1

def zigzag (r : Int) : Nat := if 0 ≤ r then (2 * r).toNat else (-2 * r - 1).toNat

/-- The low `n` bits of a number, most significant first. -/
def bitsMsb (n v : Nat) : List Bool := (List.range n).map (fun j => v.testBit (n - 1 - j))

/-- A sample as 16 bits. -/
def bits16 (x : Int) : List Bool := bitsMsb 16 (x % 65536).toNat

/-- The code of one sample with parameter `k` and bound `q`, and its reconstruction (R311, R312). -/
def codeSample (k q : Nat) (p x : Int) : List Bool × Int :=
  if k = 15 then (bits16 x, x)
  else
    let rq := if q = 0 then x - p else roundAway (((x - p : Int) : Rat) / ((2 ^ q : Nat) : Rat))
    let y := p + rq * (2 ^ q : Nat)
    let z := zigzag rq
    if Nat.min (2 ^ (k + 8)) 65536 ≤ z || y < -32768 || 32767 < y then
      (List.replicate (Nat.min 256 (2 ^ (16 - k))) true ++ bits16 x, x)
    else (List.replicate (z / 2 ^ k) true ++ false :: bitsMsb k z, y)

/-- The codes of the samples from sample `i` on, given the two reconstructed before it. -/
def codeTail (k q : Nat) (p2 : Bool) : Nat → Int → Int → List Int → List Bool
  | _, _, _, [] => []
  | i, y1, y2, x :: l =>
    let c := codeSample k q (predict p2 i y1 y2) x
    c.1 ++ codeTail k q p2 (i + 1) c.2 y1 l

/-- The payload bits of a block with parameter `k`. -/
def codeBlock (k q : Nat) (p2 : Bool) : List Int → List Bool
  | [] => []
  | x :: l => codeTail k q p2 1 x x l

/-- The parameter with the fewest payload bits, the lowest of equals. -/
def bestK (q : Nat) (p2 : Bool) (xs : List Int) : Nat :=
  ((List.range 16).foldl (fun (b : Nat × Nat) k =>
    let n := (codeBlock k q p2 xs).length
    if k = 0 || n < b.2 then (k, n) else b) (0, 0)).1

/-- Bits packed into words from bit 31 downwards; `fuel` is at least the number of words. -/
def packBits : Nat → List Bool → List Word
  | 0, _ => []
  | _, [] => []
  | fuel + 1, l =>
    let w := (l.take 32).foldl (fun (a : Nat × Nat) b => (a.1 + (if b then 2 ^ a.2 else 0), a.2 - 1)) (0, 31)
    BitVec.ofNat 32 w.1 :: packBits fuel (l.drop 32)

/-- The data block of R313. -/
def dataBlock (ch q : Nat) (p2 : Bool) (ts : BitVec 48) (xs : List (BitVec 16)) : List Word :=
  let v := xs.map BitVec.toInt
  let k := bestK q p2 v
  let pay := packBits 16 (codeBlock k q p2 v)
  BitVec.ofNat 32 (2 ^ 28 + ch % 64 * 2 ^ 22 + k * 2 ^ 18 + q % 8 * 2 ^ 15 + p2.toNat * 2 ^ 14 + xs.length % 64 * 256 + pay.length)
    :: BitVec.ofNat 32 ts.toNat :: BitVec.ofNat 32 (ts.toNat / 2 ^ 32 + 65536 * (xs.headD 0).toNat) :: pay

/-- The gap marker of R314. -/
def gapRecord (ch cause : Nat) (ts : BitVec 48) (lost : Nat) : List Word :=
  [BitVec.ofNat 32 (2 * 2 ^ 28 + ch % 64 * 2 ^ 22 + cause % 4 * 2 ^ 20), BitVec.ofNat 32 ts.toNat,
   BitVec.ofNat 32 (ts.toNat / 2 ^ 32), BitVec.ofNat 32 lost]

/-- The flush record and the damage record of R314. -/
def flushRecord (pseq packets words : Nat) : List Word :=
  [BitVec.ofNat 32 (3 * 2 ^ 28 + pseq % 4096 * 2 ^ 16 + Nat.min 65535 packets), BitVec.ofNat 32 words]

def damageRecord (pseq : Nat) : List Word := [BitVec.ofNat 32 (4 * 2 ^ 28 + pseq % 4096 * 2 ^ 16)]

/-- A packet: its header word, then its records (R316). -/
def packet (pseq : Nat) (recs : List Word) : List Word :=
  BitVec.ofNat 32 (10 * 2 ^ 28 + pseq % 4096 * 2 ^ 16 + (recs.length + 1) % 2048) :: recs

/-- Words with their end marks: 1 on the last. -/
def markEnd (l : List Word) : List (Word × Bool) :=
  match l.reverse with
  | [] => []
  | w :: r => ((w, true) :: r.map (fun x => (x, false))).reverse

end Sys2Proof.Machine
end

