-- ==== Sys2Proof/Machine/Capture.lean ====
section
/-! DEFINITION. Capture, compression and the stream FIFO (14_capture_and_stream.md R303 to R327). -/

namespace Sys2Proof.Machine

/-! ### Sources and rates (R305, R306) -/

def mode (s : State) (n : Fin 64) : Nat := s.f F.CH_CFG_MODE n

/-- The native rate of a channel's source in kS/s; none where the source is reserved or INDEX is out of range. -/
def State.nativeRate (s : State) (cls idx : Nat) : Option Rat :=
  let fu : Option Rat := if idx < 16 then some (400000 / (s.f F.CL_CFG_UPER idx : Rat)) else none
  match cls with
  | 0 | 1 => if idx < 16 then some 25000 else none
  | 2 | 3 => if idx < 48 then some 12500 else none
  | 4 => if idx < 6 then some 1000 else none
  | 5 | 6 | 7 | 8 | 10 => fu
  | 9 => if idx < 48 then (s.phCluster (Fin.ofNat 48 idx)).map (fun n => 800000 / (s.f F.CL_FSW_PERIOD n : Rat)) else none
  | 11 => if idx < 4 then some 4 else none
  | 12 | 13 => if idx = 0 then some 25000 else none
  | _ => none

/-- The channel rate in kS/s. -/
def State.chRate (s : State) (n : Fin 64) (dec : Nat) : Option Rat :=
  (s.nativeRate (s.f F.CH_SRC_CLASS n) (s.f F.CH_SRC_INDEX n)).map (fun r => r / (dec : Rat))

/-- The admitted total in kS/s: every channel from its enable until MODE returns to 0. -/
def State.capLoad (s : State) : Rat :=
  sumQ ((List.finRange 64).map (fun n => if mode s n = 0 then 0 else (s.chRate n (s.f F.CH_CFG_DEC n)).getD 0))

/-- A native sample's value: from the state where the state holds the source, from its converter otherwise. -/
def State.capValue (s : State) (n : Fin 64) (raw : BitVec 16) : Int :=
  let i := s.f F.CH_SRC_INDEX n
  let c := s.cl.get (Fin.ofNat 16 i)
  match s.f F.CH_SRC_CLASS n with
  | 3 => satS 16 (roundAway ((s.ph.get (Fin.ofNat 48 i)).iCal / 10))
  | 5 => satS 16 (s.fS F.CL_IOUT_U i / (2 ^ s.f F.CH_SRC_SHIFT n : Nat))
  | 6 => satS 16 c.ePrev
  | 7 => s.f F.CL_VSTAT_VREFEFF i
  | 8 => c.acc.toInt / 2 ^ 32
  | 10 => s.f F.CL_PHSTAT_M i + 32 * s.f F.CL_PHSTAT_HOLDALL i
  | 11 => raw.toInt
  | _ => raw.toNat

/-! ### Rings (R307, R308) -/

def RingItem.isSample : RingItem → Bool
  | .sample _ _ => true
  | _ => false

/-- Samples in a ring (CHn_STAT.FILL). -/
def ChSt.fill (c : ChSt) : Nat := (c.ring.filter RingItem.isSample).length

/-- Capture is stopped: from L1, or by DIE_HOT (R323). -/
def State.capStopped (s : State) : Bool := 1 ≤ s.f F.DEV_PWRSTAT_LSTAGE || s.power.dieHot

def ChSt.push (c : ChSt) (i : RingItem) : ChSt := { c with ring := c.ring ++ [i] }

/-- The pending gap takes its place in the ring. -/
def ChSt.pushGap (c : ChSt) : ChSt :=
  if c.dropPend = 0 then c else { c.push (.gap 0 c.dropTs c.dropPend) with dropPend := 0 }

/-- A ring with its oldest history sample taken out: the first sample after the last end of a run. -/
def dropOldest (l : List RingItem) : List RingItem :=
  let hist := (l.reverse.takeWhile (· != .stop)).reverse
  l.take (l.length - hist.length) ++ hist.drop 1

/-- The end of a run: DONE, waiting again, and the ring's rest is its last block. -/
def State.runEnd (s : State) (n : Fin 64) : State :=
  let s := s.updCh n (fun c => { c.pushGap.push .stop with left := none })
  ((s.setB F.CH_STAT_RUN n false).setB F.CH_STAT_WAIT n true).setB F.CH_STAT_DONE n true

/-- A sample of a channel (after decimation) reaches its ring, or is dropped there. -/
def State.ringSample (s : State) (n : Fin 64) (x : BitVec 16) : State :=
  let ts := s.clk.tmr
  let c := s.ch.get n
  if s.fB F.CH_STAT_WAIT n then
    s.updCh n (fun c => let c := c.push (.sample x ts); if 1024 < c.fill then { c with ring := dropOldest c.ring } else c)
  else
    let s := s.updCh n (fun c =>
      if 1024 ≤ c.fill then
        let c := { c with dropPend := c.dropPend + 1, dropTs := if c.dropPend = 0 then ts else c.dropTs }
        if c.dropPend = 0xFFFFFFFF then c.pushGap else c
      else c.pushGap.push (.sample x ts))
    match c.left with
    | some 1 => s.runEnd n
    | some (j + 2) => s.updCh n (fun c => { c with left := some (j + 1) })
    | _ => s

/-- CAPTURE_SAMPLE: a native sample of the channel's source. -/
def execCaptureSample (n : Fin 64) (raw : BitVec 16) (s : State) : Host.Outcome State Fault Refusal :=
  let m := mode s n
  if m = 0 || s.capStopped || (m = 2 && s.fB F.CH_STAT_WAIT n) then .next s
  else
    let v := s.capValue n raw
    let acc := (s.ch.get n).decAcc
    let dec := s.f F.CH_CFG_DEC n
    if acc.2 + 1 < dec then .next (s.updCh n (fun c => { c with decAcc := (acc.1 + v, acc.2 + 1) }))
    else
      let test := s.f F.CH_SRC_CLASS n = 13
      let x : BitVec 16 := if test then (s.ch.get n).testCnt
        else BitVec.ofInt 16 (if s.fB F.CH_CFG_AVG n then roundAway (((acc.1 + v : Int) : Rat) / (dec : Rat)) else v)
      .next ((s.updCh n (fun c => { c with decAcc := (0, 0), testCnt := c.testCnt + 1 })).ringSample n x)

/-! ### Triggers (R307) -/

/-- A run begins: with LEN samples, or until MODE = 0. -/
def State.runBegin (s : State) (n : Fin 64) : State :=
  let len := s.f F.CH_LEN_LEN n
  let s := s.updCh n (fun c => { c with left := if len = 0 then none else some len, decAcc := if mode s n = 2 then (0, 0) else c.decAcc })
  (s.setB F.CH_STAT_RUN n true).setB F.CH_STAT_WAIT n false

/-- A trigger of a MODE 2 channel that waits; anything else ignores it. -/
def State.trigger (s : State) (n : Fin 64) : State :=
  if mode s n = 2 && s.fB F.CH_STAT_WAIT n then s.runBegin n else s

/-- A stream request of a MODE 3 channel that waits. -/
def State.streamRequest (s : State) (n : Fin 64) : State :=
  if mode s n = 3 && s.fB F.CH_STAT_WAIT n then s.runBegin n else s

/-- A write of a mask of channels: refused as a whole where a bit names another feature's channel. -/
def capMask (hi : Bool) (mask : Word) (g : State → Fin 64 → State) (s : State) : State × Nat :=
  let l := (List.finRange 64).filter (fun (n : Fin 64) => (if hi then 32 else 0) ≤ n.val && n.val < (if hi then 64 else 32)
    && mask.toNat.testBit (n.val % 32))
  match l.find? (fun (n : Fin 64) => s.owner 3 n != 0 && s.owner 3 n != 6) with
  | some n => (s.resBusy 3 n, Code.resBusy)
  | none => (s.each l g, Code.ok)

def capTrigger (hi : Bool) (mask : Word) : State → State × Nat := capMask hi mask State.trigger
def capRequest (hi : Bool) (mask : Word) : State → State × Nat := capMask hi mask State.streamRequest

/-! ### Lanes (R308 to R310) -/

/-- What the compressor may take from a ring: while a MODE 3 channel waits, only what its last run left. -/
def State.takeable (s : State) (n : Fin 64) : List RingItem :=
  let l := (s.ch.get n).ring
  if mode s n = 3 && s.fB F.CH_STAT_WAIT n then (l.reverse.dropWhile (· != .stop)).reverse else l

/-- A block, a gap or an end is ready in a ring. -/
def State.ready (s : State) (n : Fin 64) : Bool :=
  let l := s.takeable n
  let k := (l.takeWhile RingItem.isSample).length
  32 ≤ k || k < l.length || ((s.ch.get n).tailDue && k != 0)

/-- The samples of a run of ring items, and the first one's tick. -/
def samplesOf (l : List RingItem) : List (BitVec 16) × BitVec 48 :=
  (l.filterMap (fun i => match i with | .sample x _ => some x | _ => none),
   match l with | .sample _ t :: _ => t | _ => 0)

/-- CAP_DROP, once until DROPF is cleared (R326). -/
def State.capDrop (s : State) : State :=
  if s.fB F.CAP_FSTAT_DROPF then s else (s.setB F.CAP_FSTAT_DROPF 0 true).raise Src.capDrop

/-- A lane takes the head of a ring: a gap marker, the end of a run, or a block. -/
def State.laneTake (s : State) (l : Fin 4) (n : Fin 64) : State :=
  let hold (s : State) (w : List Word) (close : Bool) : State :=
    s.updLane l (fun u => { u with ch := some n.val, recd := w, closeAfter := close })
  match (s.ch.get n).ring with
  | [] => s
  | .gap cause ts lost :: r =>
    let s := s.updCh n (fun c => { c with ring := r })
    let s := (s.setB F.CH_STAT_GAPF n true).incF F.CH_DROP_DROP n lost
    let s := s.when (cause != 1) State.capDrop
    hold s (gapRecord n cause ts lost) false
  | .stop :: r => hold (s.updCh n (fun c => { c with ring := r })) [] true
  | .sample x t :: r =>
    let block := ((.sample x t :: r).takeWhile RingItem.isSample).take 32
    let rest := (.sample x t :: r : List RingItem).drop block.length
    let tail := (s.ch.get n).tailDue && decide (block.length < 32)
    let atEnd := rest.head? == some .stop
    let rest := if atEnd then rest.drop 1 else rest
    let s := s.updCh n (fun c => { c with ring := rest, tailDue := c.tailDue && !tail })
    let xs := samplesOf block
    hold s (dataBlock n (s.f F.CH_CFG_Q n) (s.fB F.CH_CFG_P2 n) xs.2 xs.1) (tail || atEnd)

/-- LANE_TAKE_BLOCK: a free lane takes from the next ready ring after the one it last served, none that another lane serves. -/
def execLaneTakeBlock (l : Fin 4) (s : State) : Host.Outcome State Fault Refusal :=
  if (s.lane.get l).ch.isSome || s.capStopped then .next s
  else
    let order := (List.range 64).map (fun (k : Nat) => Fin.ofNat 64 ((s.lane.get l).last + 1 + k))
    let free (n : Fin 64) : Bool := !(List.finRange 4).any (fun j => (s.lane.get j).ch == some n.val)
    match order.find? (fun n => free n && s.ready n) with
    | some n => .next (s.laneTake l n)
    | none => .next s

/-- TAIL_TIMEOUT: the ring still holds samples of a run. -/
def execTailTimeout (n : Fin 64) (s : State) : Host.Outcome State Fault Refusal :=
  if s.fB F.CH_STAT_RUN n && (s.ch.get n).fill != 0 then .next (s.updCh n (fun c => { c with tailDue := true }))
  else .next s

/-! ### The packetizer (R316, R317, R321) -/

/-- Closing the open packet of the stream: its words wait to be written. -/
def State.closePkt (s : State) : State :=
  let t := s.stream
  if t.openPkt = [] then s
  else { s with stream := { t with
    out := t.out ++ markEnd (packet t.pseq.toNat t.openPkt), openPkt := [], pseq := t.pseq + 1 } }

/-- A record joins the open packet of the stream, opening one with the records due at its start. -/
def State.addRecord (s : State) (r : List Word) : State :=
  if r = [] then s
  else
    let t := s.stream
    let s := s.when (t.openPkt != [] && decide (t.pktMax < 1 + t.openPkt.length + r.length)) State.closePkt
    let t := s.stream
    if t.openPkt = [] then
      { s with stream := { t with openPkt := t.recQ.flatten ++ r, recQ := [], pktMax := s.f F.CAP_CFG_PKTMAX } }
    else { s with stream := { t with openPkt := t.openPkt ++ r } }

/-- Words held in staging. -/
def wordsOf (l : List (List Word)) : Nat := l.foldl (fun n p => n + p.length) 0

/-- Staging with its oldest packets overwritten until the rest fits (R321). -/
def trimStage : List (List Word) → List (List Word)
  | [] => []
  | p :: l => if 16384 < wordsOf (p :: l) then trimStage l else p :: l

/-- Closing the open packet of the snapshots; one bound for frozen staging is discarded (R389). -/
def State.closeSnap (s : State) : State :=
  let t := s.stream
  if t.snapOpen = [] then s
  else if s.owl.snapFrozen then { s with stream := { t with snapOpen := [] } }
  else { s with stream := { t with
    snap := trimStage (t.snap ++ [packet t.snapPseq.toNat t.snapOpen]), snapOpen := [], snapPseq := t.snapPseq + 1 } }

/-- A record joins the open packet of the snapshots. -/
def State.addSnap (s : State) (r : List Word) : State :=
  let s := s.when (decide (s.f F.CAP_CFG_PKTMAX < 1 + s.stream.snapOpen.length + r.length)) State.closeSnap
  { s with stream := { s.stream with snapOpen := s.stream.snapOpen ++ r } }

/-- The packetizer closes its open packets at a stop, once no lane holds a record (R323). -/
def State.stopClose (s : State) : State :=
  if s.capStopped && !(List.finRange 4).any (fun l => (s.lane.get l).ch.isSome) then s.closePkt.closeSnap else s

/-- RECORD_COMPLETE: a lane hands its record over; a stream record waits while the packetizer has words to write. -/
def execRecordComplete (l : Fin 4) (s : State) : Host.Outcome State Fault Refusal :=
  let u := s.lane.get l
  match u.ch with
  | none => .next s
  | some c =>
    let snap := s.owner 3 c == 8
    if !snap && s.stream.out != [] then .next s
    else
      let s := if snap then (s.addSnap u.recd).when u.closeAfter State.closeSnap
        else (s.addRecord u.recd).when u.closeAfter State.closePkt
      .next (s.updLane l (fun u => { u with ch := none, recd := [], closeAfter := false, last := c })).stopClose

/-! ### The stream FIFO (R317 to R320) -/

/-- WORDS and FULL follow the FIFO; CAP_FULL is raised when it becomes full. -/
def State.evalFifo (s : State) : State :=
  let k := s.stream.fifo.length
  let full := decide (65536 ≤ k)
  let s := (s.setF F.CAP_FLEVEL_WORDS 0 k).when (full && !s.fB F.CAP_FSTAT_FULL) (fun s => s.raise Src.capFull)
  s.setB F.CAP_FSTAT_FULL 0 full

/-- The SRDY pulse of a packet completion, or its merging into the next (R318); none in BOOT, where SRDY is low (R36). -/
def State.srdyPulse (s : State) : State :=
  if s.dev == .boot then s
  else if s.stream.srdyTicks = 0 then
    { s with stream := { s.stream with srdyTicks := 20 }, pins := { s.pins with srdy := true } }
  else { s with stream := { s.stream with srdyPend := true } }

/-- One TMR tick of SRDY: 100 ns high, then 100 ns in which completions are merged. -/
def State.srdyTick (s : State) : State :=
  let t := s.stream.srdyTicks - 1
  if s.stream.srdyTicks = 0 then s
  else if t = 0 && s.stream.srdyPend then
    { s with stream := { s.stream with srdyTicks := 20, srdyPend := false }, pins := { s.pins with srdy := true } }
  else { s with stream := { s.stream with srdyTicks := t }, pins := { s.pins with srdy := decide (10 < t) } }

/-- The words up to and with the first end mark. -/
def firstPacket : List (Word × Bool) → List (Word × Bool)
  | [] => []
  | x :: l => if x.2 then [x] else x :: firstPacket l

/-- A flush at its boundary (R319): every complete packet goes but one of which a word has been read. -/
def State.flushNow (s : State) : State :=
  let t := s.stream
  let keep := if t.midRead then firstPacket t.fifo else []
  let gone := t.fifo.drop keep.length
  let pk := (gone.filter (·.2)).length
  let seq := match gone with | x :: _ => x.1.toNat / 2 ^ 16 % 4096 | [] => 0
  let s := { s with stream := { t with
    fifo := keep, flushPend := false, recQ := if gone = [] then t.recQ else t.recQ ++ [flushRecord seq pk gone.length] } }
  (s.setF F.CAP_FSTAT_PKT_WAIT 0 (if t.midRead then 1 else 0)).evalFifo

/-- PACKET_WORD_WRITE: one word into the FIFO where it has room; an end mark completes its packet. -/
def execPacketWordWrite (s : State) : Host.Outcome State Fault Refusal :=
  match s.stream.out with
  | [] => .next s
  | x :: r =>
    if 65536 ≤ s.stream.fifo.length then .next s
    else
      let s := ({ s with stream := { s.stream with out := r, fifo := s.stream.fifo ++ [x] } }).evalFifo
      if x.2 then
        let s := ((s.incF F.CAP_FSTAT_PKT_WAIT 0).setB F.CAP_FSTAT_PKTF 0 true).srdyPulse
        .next (s.when s.stream.flushPend State.flushNow).evalAlert
      else .next s

/-- The next readable word and its end mark: only words of complete packets (R317); at level 1 a read moves the read
pointer alone (R320). -/
def State.fifoPop (s : State) : State × Word × Bool :=
  let t := s.stream
  if s.f F.CAP_FSTAT_PKT_WAIT = 0 then (s.setB F.CAP_FSTAT_UNDER 0 true, 0, false)
  else match t.fifo.drop t.rd with
    | [] => (s.setB F.CAP_FSTAT_UNDER 0 true, 0, false)
    | x :: r =>
      let s := if s.img.blevel = 1 then { s with stream := { t with rd := t.rd + 1 } }
        else ({ s with stream := { t with fifo := r, midRead := !x.2 } }).evalFifo
      (s.when x.2 (fun s => s.setF F.CAP_FSTAT_PKT_WAIT 0 (s.f F.CAP_FSTAT_PKT_WAIT - 1)), x.1, x.2)

/-- A read of CAP_FIFOD: the end mark is latched. -/
def State.fifodRead (s : State) : State × Word × Bool :=
  let r := s.fifoPop
  (r.1.setB F.CAP_FSTAT_LASTEM 0 r.2.2, r.2)

/-- A command of CAP_FCTRL is refused, with CMD_REF. -/
def State.capRefuse (s : State) (code : Nat) : State × Nat := (s.setB F.CAP_FSTAT_CMD_REF 0 true, code)

/-- FLUSH (R319). -/
def capFlush (s : State) : State × Nat :=
  if s.img.blevel = 1 then s.capRefuse Code.state
  else
    let s := s.accepted 0x2C03 1
    if s.stream.out = [] && s.stream.openPkt = [] then (s.flushNow, Code.ok)
    else
      let s := s.when (s.stream.out == []) State.closePkt
      ({ s with stream := { s.stream with flushPend := true } }, Code.ok)

/-- The read pointer lies at a packet boundary (R320). -/
def State.atBoundary (s : State) : Bool :=
  s.stream.rd = 0 || ((s.stream.fifo.getD (s.stream.rd - 1) (0, false)).2)

/-- A level-1 command, refused at levels 2 and 3 and off a packet boundary. -/
def capLevel1 (code : Nat) (g : State → State) (s : State) : State × Nat :=
  if s.img.blevel ≠ 1 || !s.atBoundary then s.capRefuse Code.state else (g (s.accepted 0x2C03 code), Code.ok)

def capMark : State → State × Nat :=
  capLevel1 2 (fun s => { s with stream := { s.stream with mark := s.stream.rd } })

def capRewind : State → State × Nat :=
  capLevel1 3 (fun s =>
    let s := { s with stream := { s.stream with rd := s.stream.mark } }
    s.setF F.CAP_FSTAT_PKT_WAIT 0 ((s.stream.fifo.drop s.stream.rd).filter (·.2)).length)

def capRelease : State → State × Nat :=
  capLevel1 4 (fun s =>
    ({ s with stream := { s.stream with fifo := s.stream.fifo.drop s.stream.rd, rd := 0, mark := 0 } }).evalFifo)

/-! ### Configuration (R304, R327) -/

/-- A channel write is not applied. -/
def State.chRefuse (s : State) (n : Fin 64) (code : Nat) : State × Nat := (s.setB F.CH_STAT_CFGREF n true, code)

/-- A channel begins in the mode its CHn_CFG names: running in MODE 1, waiting in MODE 2 and 3. -/
def State.chBegin (s : State) (n : Fin 64) : State :=
  let run := mode s n = 1
  let s := s.updCh n (fun c => { c with left := none, decAcc := (0, 0), testCnt := 0, tailDue := false, dropPend := 0 })
  (s.setB F.CH_STAT_RUN n run).setB F.CH_STAT_WAIT n (!run)

/-- MODE = 0: what the ring still holds of a run is its final block; a history window is not counted; the host's claim
ends (R304, R307, R308). -/
def State.chEnd (s : State) (n : Fin 64) : State :=
  let s := if s.fB F.CH_STAT_WAIT n then s.updCh n (fun c => { c with ring := (c.ring.reverse.dropWhile (· != .stop)).reverse })
    else s.updCh n (fun c => c.pushGap.push .stop)
  let s := s.updCh n (fun c => { c with left := none, tailDue := false })
  ((s.setB F.CH_STAT_RUN n false).setB F.CH_STAT_WAIT n false).unclaim 3 n 6

/-- The source, rate and admission checks of an enable (R306). -/
def State.admits (s : State) (n : Fin 64) (dec : Nat) : Bool :=
  match s.chRate n dec with
  | none => false
  | some r =>
    let others := sumQ ((List.finRange 64).map (fun k => if k = n || mode s k = 0 then 0 else (s.chRate k (s.f F.CH_CFG_DEC k)).getD 0))
    decide (1 ≤ r) && decide (r ≤ 25000) && decide (others + r ≤ 640000)

/-- A write of CHn_CFG. -/
def chCfgWrite (n : Fin 64) (v : Word) (s : State) : State × Nat :=
  let a := 0x2D01 + 4 * n.val
  let m := mode s n
  let m' := F.CH_CFG_MODE.get v
  let other := (s.reg a &&& 0x7FFFFFFC#32) != (v &&& 0x7FFFFFFC#32)
  if !inRange a v then (s, Code.range)
  else if m ≠ 0 && other then s.chRefuse n Code.state
  else if m' = m then (s.hostStore a v, Code.ok)
  else if m' = 0 then ((s.chEnd n).hostStore a v, Code.ok)
  else if !s.fB F.CAP_CFG_SEN || !s.admits n (F.CH_CFG_DEC.get v) then s.chRefuse n Code.state
  else
    let s := s.when (m != 0) (fun s => s.chEnd n)
    (((s.claim 3 n 6).hostStore a v).chBegin n, Code.ok)

/-- A write of CHn_SRC. -/
def chSrcWrite (n : Fin 64) (v : Word) (s : State) : State × Nat :=
  if mode s n ≠ 0 then s.chRefuse n Code.state
  else if !inRange (0x2D00 + 4 * n.val) v then (s, Code.range)
  else (s.hostStore (0x2D00 + 4 * n.val) v, Code.ok)

/-- A write of a register of another feature's channel is refused (R304). -/
def chOwned (n : Fin 64) (g : State → State × Nat) (s : State) : State × Nat :=
  if s.owner 3 n != 0 && s.owner 3 n != 6 then (s.resBusy 3 n, Code.resBusy) else g s

/-- A write of CAP_CFG: SEN claims or releases the stream FIFO; PSEQ starts at 0 when SEN is set (R316, R328). -/
def capCfgWrite (v : Word) (s : State) : State × Nat :=
  let sen := F.CAP_CFG_SEN.get v = 1
  let was := s.fB F.CAP_CFG_SEN
  let refused (s : State) (code : Nat) : State × Nat := (s.setB F.CAP_FSTAT_CFGREF 0 true, code)
  if !inRange 0x2C00 v then (s, Code.range)
  else if sen && !was && s.owner 4 0 != 0 && s.owner 4 0 != 7 then refused (s.resBusy 4 0) Code.resBusy
  else if !sen && was && (List.finRange 64).any (fun n => s.owner 3 n == 6 && mode s n != 0) then refused s Code.state
  else
    let s := s.when (sen && !was) (fun s =>
      { s.claim 4 0 7 with stream := { s.stream with pseq := 0 } })
    let s := s.when (!sen && was) (fun s => s.unclaim 4 0 7)
    ((s.hostStore 0x2C00 v).evalAlert, Code.ok)

/-! ### The diagnostic partition (R322) -/

/-- A read of CAP_DIAGD. -/
def State.diagRead (s : State) : State × Word :=
  let i := s.f F.CAP_DIAGA_RIDX
  (s.setF F.CAP_DIAGA_RIDX 0 ((i + 1) % 16384), Sparse.get (fun _ => (0 : Word)) s.stream.diag i)

/-! ### Stops and errors (R323, R324) -/

/-- DIE_HOT suspends capture. -/
def State.capSuspend (s : State) : State :=
  ({ s with stream := { s.stream with suspTick := some s.clk.tmr } }).stopClose

/-- Capture resumes: every running channel notes the gap of cause 1, with the samples it would have taken. -/
def State.capResume (s : State) : State :=
  match s.stream.suspTick with
  | none => s
  | some t0 =>
    let ticks := (s.clk.tmr - t0).toNat
    let s := { s with stream := { s.stream with suspTick := none } }
    s.each (List.finRange 64) (fun s n =>
      match s.chRate n (s.f F.CH_CFG_DEC n) with
      | none => s
      | some r =>
        let lost := ((ticks : Rat) * r / 100000).floor.toNat
        if s.fB F.CH_STAT_RUN n && lost != 0 then
          let first := t0 + BitVec.ofNat 48 (Nat.min ticks (-((-(100000 / r)).floor)).toNat)
          s.updCh n (fun c => c.pushGap.push (.gap 1 first lost))
        else s)

/-- A ring sample lost to an uncorrectable error: a gap of cause 2 stands in its place. -/
def State.ringEcc (s : State) (n : Fin 64) (i : Nat) : State :=
  s.updCh n (fun c => match c.ring.drop i with
    | .sample _ ts :: r => { c with ring := c.ring.take i ++ .gap 2 ts 1 :: r }
    | _ => c)

/-- A stream FIFO word delivered with an uncorrectable error. -/
def State.fifoEcc (s : State) (pseq : BitVec 12) : State :=
  let s := (s.setB F.CAP_FSTAT_FECC 0 true).setF F.CAP_FLEVEL_FECCSEQ 0 pseq.toNat
  let s := { s with stream := { s.stream with recQ := s.stream.recQ ++ [damageRecord pseq.toNat] } }
  s.raise Src.capFecc

/-- A staging packet with an uncorrectable error is dropped. -/
def State.snapEcc (s : State) (k : Nat) : State :=
  { s with stream := { s.stream with snap := s.stream.snap.eraseIdx k } }

end Sys2Proof.Machine
end

