-- ==== Sys2Proof/Machine/Crypto.lean ====
section
/-! DEFINITION. SHA-256, HMAC-SHA-256 and ECDSA P-256 verification (R64, R391), as FIPS 180-4, FIPS 198-1 and FIPS 186-4 define
them (PRESUMED, log entry 7: the spec names the algorithms and not their steps). -/

namespace Sys2Proof.Machine

/-! ### SHA-256 -/

def shaK : List Word :=
  [0x428a2f98, 0x71374491, 0xb5c0fbcf, 0xe9b5dba5, 0x3956c25b, 0x59f111f1, 0x923f82a4, 0xab1c5ed5,
   0xd807aa98, 0x12835b01, 0x243185be, 0x550c7dc3, 0x72be5d74, 0x80deb1fe, 0x9bdc06a7, 0xc19bf174,
   0xe49b69c1, 0xefbe4786, 0x0fc19dc6, 0x240ca1cc, 0x2de92c6f, 0x4a7484aa, 0x5cb0a9dc, 0x76f988da,
   0x983e5152, 0xa831c66d, 0xb00327c8, 0xbf597fc7, 0xc6e00bf3, 0xd5a79147, 0x06ca6351, 0x14292967,
   0x27b70a85, 0x2e1b2138, 0x4d2c6dfc, 0x53380d13, 0x650a7354, 0x766a0abb, 0x81c2c92e, 0x92722c85]
  ++
  [0xa2bfe8a1, 0xa81a664b, 0xc24b8b70, 0xc76c51a3, 0xd192e819, 0xd6990624, 0xf40e3585, 0x106aa070,
   0x19a4c116, 0x1e376c08, 0x2748774c, 0x34b0bcb5, 0x391c0cb3, 0x4ed8aa4a, 0x5b9cca4f, 0x682e6ff3,
   0x748f82ee, 0x78a5636f, 0x84c87814, 0x8cc70208, 0x90befffa, 0xa4506ceb, 0xbef9a3f7, 0xc67178f2]

/-- The eight working words. -/
structure Sha where
  a : Word
  b : Word
  c : Word
  d : Word
  e : Word
  f : Word
  g : Word
  h : Word
  deriving DecidableEq, Repr

def shaInit : Sha :=
  ⟨0x6a09e667, 0xbb67ae85, 0x3c6ef372, 0xa54ff53a, 0x510e527f, 0x9b05688c, 0x1f83d9ab, 0x5be0cd19⟩

def rotr (x : Word) (n : Nat) : Word := (x >>> n) ||| (x <<< (32 - n))

/-- One round with its message word and constant. -/
def shaRound (s : Sha) (wk : Word × Word) : Sha :=
  let t1 := s.h + (rotr s.e 6 ^^^ rotr s.e 11 ^^^ rotr s.e 25) + ((s.e &&& s.f) ^^^ (~~~s.e &&& s.g)) + wk.2 + wk.1
  let t2 := (rotr s.a 2 ^^^ rotr s.a 13 ^^^ rotr s.a 22) + ((s.a &&& s.b) ^^^ (s.a &&& s.c) ^^^ (s.b &&& s.c))
  ⟨t1 + t2, s.a, s.b, s.c, s.d + t1, s.e, s.f, s.g⟩

/-- The next word of the schedule, whose words stand newest first. -/
def shaNext (l : List Word) : Word :=
  let x := l.getD 1 0
  let y := l.getD 14 0
  (rotr x 17 ^^^ rotr x 19 ^^^ (x >>> 10)) + l.getD 6 0 + (rotr y 7 ^^^ rotr y 18 ^^^ (y >>> 3)) + l.getD 15 0

/-- The 64 words of a block's schedule. -/
def shaSchedule (block : List Word) : List Word :=
  ((List.range 48).foldl (fun l _ => shaNext l :: l) block.reverse).reverse

def shaBlock (s : Sha) (block : List Word) : Sha :=
  let t := (List.zip (shaSchedule block) shaK).foldl shaRound s
  ⟨s.a + t.a, s.b + t.b, s.c + t.c, s.d + t.d, s.e + t.e, s.f + t.f, s.g + t.g, s.h + t.h⟩

/-- The message padded to whole blocks. -/
def shaPad (m : List Byte) : List Byte :=
  let n := m.length
  m ++ [0x80#8] ++ List.replicate ((119 - n % 64) % 64) 0 ++ (leBytes 8 (8 * n)).reverse

/-- Words of bytes, each most significant byte first. -/
def beWords (l : List Byte) : List Word :=
  (List.range (l.length / 4)).map (fun k => BitVec.ofNat 32 (beNat ((l.drop (4 * k)).take 4)))

/-- Folding over the blocks of 16 words; `n` counts them. -/
def shaBlocks : Nat → Sha → List Word → Sha
  | 0, s, _ => s
  | n + 1, s, l => shaBlocks n (shaBlock s (l.take 16)) (l.drop 16)

/-- SHA-256 of a message: 32 bytes. -/
def sha256 (m : List Byte) : List Byte :=
  let w := beWords (shaPad m)
  let s := shaBlocks (w.length / 16) shaInit w
  [s.a, s.b, s.c, s.d, s.e, s.f, s.g, s.h].flatMap (fun (x : Word) => (wordBytes x).reverse)

/-- HMAC-SHA-256. -/
def hmac256 (key msg : List Byte) : List Byte :=
  let k := if 64 < key.length then sha256 key else key
  let k := k ++ List.replicate (64 - k.length) 0
  sha256 (k.map (· ^^^ 0x5C#8) ++ sha256 (k.map (· ^^^ 0x36#8) ++ msg))

/-! ### ECDSA on P-256 -/

def p256 : Nat := 0xffffffff00000001000000000000000000000000ffffffffffffffffffffffff
def p256n : Nat := 0xffffffff00000000ffffffffffffffffbce6faada7179e84f3b9cac2fc632551
def p256b : Nat := 0x5ac635d8aa3a93e7b3ebbd55769886bc651d06b0cc53b0f63bce3c3e27d2604b
def p256gx : Nat := 0x6b17d1f2e12c4247f8bce6e563a440f277037d812deb33a0f4a13945d898c296
def p256gy : Nat := 0x4fe342e2fe1a7f9b8ee7eb4a7c0f9e162bce33576b315ececbb6406837bf51f5

/-- A power modulo `m`, over the 256 bits of the exponent, most significant first. -/
def powMod (m b e : Nat) : Nat :=
  (List.range 256).foldl (fun r k => let r := r * r % m; if e.testBit (255 - k) then r * b % m else r) 1

/-- The inverse modulo a prime. -/
def invMod (m a : Nat) : Nat := powMod m a (m - 2)

/-- A point; none is the point at infinity. -/
abbrev EcPoint := Option (Nat × Nat)

/-- The third point of the chord or tangent with slope `l`. -/
def ecThird (l x1 y1 x2 : Nat) : EcPoint :=
  let x := (l * l + 2 * p256 - x1 - x2) % p256
  some (x, (l * (x1 + p256 - x) + p256 - y1) % p256)

def ecAdd : EcPoint → EcPoint → EcPoint
  | none, q => q
  | p, none => p
  | some (x1, y1), some (x2, y2) =>
    if x1 = x2 then
      if (y1 + y2) % p256 = 0 then none
      else ecThird ((3 * x1 * x1 + p256 - 3) % p256 * invMod p256 (2 * y1 % p256) % p256) x1 y1 x2
    else ecThird ((y2 + p256 - y1) % p256 * invMod p256 ((x2 + p256 - x1) % p256) % p256) x1 y1 x2

/-- A multiple of a point, over 256 bits. -/
def ecMul (k : Nat) (p : EcPoint) : EcPoint :=
  (List.range 256).foldl (fun r j => let r := ecAdd r r; if k.testBit (255 - j) then ecAdd r p else r) none

/-- The key is a point of the curve. -/
def onCurve (x y : Nat) : Bool :=
  decide (x < p256) && decide (y < p256) && y * y % p256 == (x * x * x + (p256 - 3) * x + p256b) % p256

/-- A signature (r, s) over a digest verifies under the key (R64). -/
def ecdsaOk (digest : List Byte) (qx qy r s : Nat) : Bool :=
  onCurve qx qy && decide (1 ≤ r) && decide (r < p256n) && decide (1 ≤ s) && decide (s < p256n) &&
    (let w := invMod p256n s
     match ecAdd (ecMul (beNat digest * w % p256n) (some (p256gx, p256gy))) (ecMul (r * w % p256n) (some (qx, qy))) with
     | none => false
     | some (x, _) => x % p256n == r)

end Sys2Proof.Machine
end

