-- ==== Sys2Proof/Machine/Image.lean ====
section
/-! DEFINITION. The configuration image in the flash (03_start_and_configuration_image.md R57 to R65): reading it, and steps 2
to 6 of BOOT's checks. -/

namespace Sys2Proof.Machine

/-! ### The flash (R57 to R59) -/

/-- A byte of the flash; an unlisted one is erased. -/
def flashByte (fl : List Host.Cell) (a : Nat) : Byte := (fl.find? (fun c => c.1 = a)).elim 0xFF#8 (·.2)

/-- The bytes that a device's reads return: `noise` lists the addresses whose last read returned another byte. -/
abbrev FlashRead := Nat → Byte

def State.flashRead (s : State) (noise : List (Nat × Byte)) : FlashRead := fun a =>
  ((noise.find? (fun p => p.1 = a)).map (·.2)).getD (flashByte s.flash a)

/-- The base address of a slot (R59): A, or B. -/
def slotBase (b : Bool) : Nat := if b then 0x400000 else 0

/-- `n` bytes from an address. -/
def readBytes (rd : FlashRead) (a n : Nat) : List Byte := (List.range n).map (fun k => rd (a + k))

/-- A little-endian number of `n` bytes. -/
def readLe (rd : FlashRead) (a n : Nat) : Nat := leNat (readBytes rd a n)

/-! ### Header (R60) -/

def imgLen (rd : FlashRead) (b : Nat) : Nat := readLe rd (b + 0x00C) 4
def imgNblk (rd : FlashRead) (b : Nat) : Nat := readLe rd (b + 0x016) 2
def imgSecver (rd : FlashRead) (b : Nat) : Nat := readLe rd (b + 0x012) 1

/-- Step 2 of R65; 0 where the header passes. -/
def headerCode (rd : FlashRead) (b rev : Nat) : Nat :=
  let u (o n : Nat) : Nat := readLe rd (b + o) n
  let len := imgLen rd b
  let nblk := imgNblk rd b
  if u 0 4 ≠ 0x4E5A494D || u 4 2 ≠ 1 || u 6 2 ≠ 0x1000 then 0x03
  else if u 0xFFC 4 ≠ (crc32 (readBytes rd b 0xFFC)).toNat then 0x04
  else if u 8 2 ≠ 0x7648 || rev < u 0xA 2 then 0x05
  else if len % 4096 ≠ 0 || len < 12288 || 1835008 < len || nblk < 1 || 248 < nblk
      || !(readBytes rd (b + 0x024) 28).all (· == 0) || !(readBytes rd (b + 0xFC0) 60).all (· == 0) || u 0x13 1 / 2 ≠ 0 then 0x06
  else if 1 < u 0x10 1 || u 0x11 1 = 0 || 3 < u 0x11 1 then 0x11
  else 0

/-! ### Directory and blocks (R61, R62) -/

/-- A directory entry. -/
structure DirEntry where
  type : Nat
  inst : Nat
  flags : Nat
  off : Nat
  len : Nat
  crc : Nat
  deriving DecidableEq, Repr

def dirEntry (rd : FlashRead) (b k : Nat) : DirEntry :=
  let u (o n : Nat) : Nat := readLe rd (b + 0x040 + 16 * k + o) n
  ⟨u 0 1, u 1 1, u 2 2, u 4 4, u 8 4, u 12 4⟩

def directory (rd : FlashRead) (b : Nat) : List DirEntry := (List.range (imgNblk rd b)).map (dirEntry rd b)

/-- The highest INST and the greatest length of a block type; none where the type is not listed. -/
def blockLimits : Nat → Option (Nat × Nat)
  | 1 => some (15, 24576)
  | 2 => some (0, 65536)
  | 3 => some (0, 262144)
  | 4 => some (0, 65536)
  | 5 => some (63, 1024)
  | 6 => some (0, 4096)
  | 7 => some (0, 65536)
  | _ => none

/-- An entry is listed, in range, and lies within the image. -/
def entryOk (len : Nat) (e : DirEntry) : Bool :=
  (match blockLimits e.type with | some l => decide (e.inst ≤ l.1) | none => false)
    && e.flags == 0 && decide (0x1000 ≤ e.off) && decide (e.off + e.len + 0x1000 ≤ len) && e.off % 16 == 0

/-- Two entries do not share a TYPE and INST, nor any byte. -/
def entriesApart (a b : DirEntry) : Bool :=
  !(a.type == b.type && a.inst == b.inst) && (decide (a.off + a.len ≤ b.off) || decide (b.off + b.len ≤ a.off))

/-- Every pair of a list keeps a relation. -/
def allPairs {α : Type} (r : α → α → Bool) : List α → Bool
  | [] => true
  | x :: l => l.all (r x) && allPairs r l

/-- Step 3 of R65: the entries, and 0xFF past NBLK. -/
def directoryOk (rd : FlashRead) (b : Nat) : Bool :=
  let d := directory rd b
  d.all (entryOk (imgLen rd b)) && allPairs entriesApart d
    && (readBytes rd (b + 0x040 + 16 * imgNblk rd b) (16 * (248 - imgNblk rd b))).all (· == 0xFF#8)

/-- Step 4's checks of one block, CRC and then size. -/
def blockCode (rd : FlashRead) (b : Nat) (e : DirEntry) : Nat :=
  if (crc32 (readBytes rd (b + e.off) e.len)).toNat ≠ e.crc then 0x08
  else if ((blockLimits e.type).map (·.2)).getD 0 < e.len || (e.type = 4 && e.len % 8 ≠ 0) || (e.type = 5 && e.len % 4 ≠ 0) then 0x09
  else 0

/-- The first block that fails gives its code. -/
def blocksCode (rd : FlashRead) (b : Nat) : Nat :=
  ((directory rd b).map (blockCode rd b)).foldl (fun c d => if c = 0 then d else c) 0

/-- The payload of a block; none where the image has none. -/
def payload (rd : FlashRead) (b type inst : Nat) : Option (List Byte) :=
  ((directory rd b).find? (fun e => e.type = type && e.inst = inst)).map (fun e => readBytes rd (b + e.off) e.len)

/-! ### What an image holds -/

/-- The image's content that BOOT takes up. -/
structure Image where
  role : Bool
  blevel : Nat
  secver : Nat
  debug : Bool
  ovlFmt : Nat
  ovlHash : BitVec 64
  build : Word
  defaults : List (Nat × Word)
  windows : List (Nat × List Word)
  own : List Own
  badOwn : Bool
  migr : List Byte
  loops : List Nat
  signer : Nat
  deriving DecidableEq, Repr

/-- The register defaults of block type 0x04. -/
def parseDefaults (l : List Byte) : List (Nat × Word) :=
  (List.range (l.length / 8)).map (fun k =>
    let e := l.drop (8 * k)
    (leNat (e.take 2), BitVec.ofNat 32 (leNat ((e.drop 4).take 4))))

/-- The entries of the ownership table (R71). -/
def parseOwn (l : List Byte) : List Own :=
  (wordsOfBytes l).map (fun w => let n := w.toNat; ⟨n % 16, n / 16 % 1024, n / 2 ^ 14 % 256, false⟩)

/-- An ownership entry with a bit of [31:22] set. -/
def badOwnBits (l : List Byte) : Bool := (wordsOfBytes l).any (fun w => w.toNat / 2 ^ 22 ≠ 0)

def parseImage (rd : FlashRead) (b signer : Nat) : Image :=
  let u (o n : Nat) : Nat := readLe rd (b + o) n
  let own := (payload rd b 6 0).getD []
  { role := u 0x10 1 == 1, blevel := u 0x11 1, secver := imgSecver rd b, debug := u 0x13 1 % 2 == 1
    ovlFmt := u 0x14 2, ovlHash := BitVec.ofNat 64 (u 0x18 8), build := BitVec.ofNat 32 (u 0x20 4)
    defaults := parseDefaults ((payload rd b 4 0).getD [])
    windows := (List.range 64).filterMap (fun w => (payload rd b 5 w).map (fun l => (w, wordsOfBytes l)))
    own := parseOwn own, badOwn := badOwnBits own, migr := (payload rd b 7 0).getD []
    loops := (List.range 16).filter (fun n => (payload rd b 1 n).isSome), signer := signer }

/-! ### The default value of a field, before any register holds it -/

/-- What the image's defaults give a field of an instance. -/
def defaultField (d : List (Nat × Word)) (fl : Fld) (i : Nat) : Nat :=
  match d.reverse.find? (fun p => p.1 = fl.addr i) with
  | some p => fl.get p.2
  | none => 0

/-- The clusters in use (R418): those that own a phase in use. -/
def defaultClusters (d : List (Nat × Word)) : List Nat :=
  (List.range 16).filter (fun n => (List.range 48).any (fun p =>
    defaultField d F.PH_CFG_USED p == 1 && defaultField d F.PH_CFG_CLUSTER p == n))

/-- A required block is missing (R62): supervisor and service-core programs, register defaults and the ownership table, and
for each cluster in use a loop program and gain tables, for each battery instance in use its voltage table. -/
def missingBlock (rd : FlashRead) (b : Nat) : Bool :=
  let has (t i : Nat) : Bool := (payload rd b t i).isSome
  let d := parseDefaults ((payload rd b 4 0).getD [])
  !(has 2 0 && has 3 0 && has 4 0 && has 6 0)
    || (defaultClusters d).any (fun n => !(has 1 n && has 5 n))
    || (List.range 6).any (fun i => defaultField d F.BAT_CFG_EN i == 1 && !has 5 (16 + i))

/-! ### Signature (R64, R400) -/

/-- The key-table entry that the key's hash equals, revoked entries apart. -/
def State.keyEntry (s : State) (key : List Byte) : Option Nat :=
  let h := BitVec.ofNat 256 (beNat (sha256 key))
  (List.range 4).find? (fun k => (s.nvm.keys.toList.getD k none) == some h && !s.nvm.revoked.getLsbD k)

/-- Step 5 of R65: the code, and the entry that signed. -/
def State.signatureCode (s : State) (rd : FlashRead) (b : Nat) : Nat × Nat :=
  let len := imgLen rd b
  let at' := b + len - 4096
  let key := readBytes rd at' 64
  match s.keyEntry key with
  | none => (0x0B, 0)
  | some k =>
    let v (o : Nat) : Nat := beNat (readBytes rd (at' + o) 32)
    if ecdsaOk (sha256 (readBytes rd b (len - 4096))) (v 0) (v 32) (v 64) (v 96) then (0, k)
    else (0x0C, k)

/-- Steps 2 to 6 of R65 on a slot: the code, 0 for a pass, and the entry that signed it. -/
def State.slotCode (s : State) (rd : FlashRead) (slot : Bool) : Nat × Nat :=
  let b := slotBase slot
  let h := headerCode rd b ((s.reg 0).toNat % 65536)
  if h ≠ 0 then (h, 0)
  else if !directoryOk rd b then (0x07, 0)
  else if blocksCode rd b ≠ 0 then (blocksCode rd b, 0)
  else if missingBlock rd b then (0x0A, 0)
  else
    let g := s.signatureCode rd b
    if g.1 ≠ 0 then g
    else if imgSecver rd b < s.nvm.boot.arb.toNat then (0x0D, g.2)
    else (0, g.2)

end Sys2Proof.Machine
end

