-- ==== Sys2Proof/Machine/Phases.lean ====
section
/-! DEFINITION. The phase units' commands (05_phase_units.md R99 to R122): frames and placement, the high interval, current
sense, the ceilings, Fox trips and the pre-start check. -/

namespace Sys2Proof.Machine

/-! ### Sense, demand and thresholds -/

/-- The divisor of a cluster's sense gain g: 1, 4 or 10 (R134); 3 is reserved and read as 10. -/
def State.gDiv (s : State) (n : Fin 16) : Nat :=
  match s.f F.CL_CFG_SGAIN n with | 0 => 1 | 1 => 4 | _ => 10

/-- The calibrated current of a converter code, in mA (R181), with the values in force. -/
def State.calCurrent (s : State) (p : Fin 48) (code : Nat) : Rat :=
  let c := (s.ph.get p).calF
  let ks : Nat := match s.phCluster p with | some n => (s.cl.get n).ksF | none => 32768
  ((code : Rat) - 512 - (c.2 : Rat) / 16) * 500000 / (s.f F.PH_GAIN_GCS p : Rat) * (c.1 : Rat) / 32768 * (ks : Rat) / 32768

/-- The longest on-time of a cluster in fine steps (R102, R124). -/
def State.maxOn (s : State) (n : Fin 16) : Nat := 64 * s.f F.CL_FSW_MAXON n * s.f F.CL_FSW_PERIOD n / 256

/-- I_dem of an active phase (R152): mA, or fine steps in direct duty mode. -/
def State.demand (s : State) (n : Fin 16) (p : Fin 48) : Rat :=
  let u : Int := s.fS F.CL_IOUT_U n
  let trim : Int := s.trim n (s.order p)
  if s.fB F.CL_FSW_DIRECT n then (clampI 0 (s.maxOn n) (u + trim) : Rat)
  else ((u + (s.cl.get n).lwAdder : Int) : Rat) / (Nat.max 1 (s.f F.CL_PHSTAT_M n) : Rat) + (10 * trim : Int)

/-- IPEAK in mA. -/
def State.ipeak (s : State) (p : Fin 48) : Nat := 100 * s.f F.PH_LIMIT_IPEAK p

/-- The demand stands clamped to IPEAK (R114); in direct duty mode IPEAK is the threshold itself (R103). -/
def State.atPeak (s : State) (p : Fin 48) : Bool :=
  match s.phCluster p with
  | none => false
  | some n => s.fB F.CL_FSW_DIRECT n || decide ((s.ipeak p : Rat) < s.demand n p)

/-- CODE of the peak comparator (R111): rounded half up, limited to 0 to 4,095. -/
def State.peakCode (s : State) (n : Fin 16) (p : Fin 48) : Int :=
  let i : Rat := if s.fB F.CL_FSW_DIRECT n then s.ipeak p else min (s.demand n p) (s.ipeak p)
  clampI 0 4095 (roundUp ((s.f F.PH_GAIN_GCS p : Rat) * i / 500000))

/-- RAMP in steps of 250 uV, `k` CDAC cycles after the on-edge (R112). -/
def rampSteps (slope k : Nat) : Nat := Nat.min 1023 (slope * k / 256)

/-- The scheduled on-edge of an active phase after the frame start, in fine steps, rounded half up (R100). -/
def evenPlace (k m period : Nat) : Nat := (2 * k * 64 * period + m) / (2 * m)

def fixedPlace (ofs period : Nat) : Nat := (2 * ofs * 64 * period + 256) / 512

/-! ### Frames (R99, R100) -/

/-- The calibration values in force change at the frame start (R181). -/
def State.loadCal (s : State) (n : Fin 16) : State :=
  let s := s.updCl n (fun c => { c with ksF := s.f F.CL_KSCALE_KSCALE n })
  s.each (s.clPhases n) (fun s p => s.updPh p (fun u => { u with calF := (s.f F.PH_CAL_GREL p, s.fS F.PH_CAL_ZERO p) }))

/-- The placement of the active phases in increasing ORDER (R100). -/
def State.placePhases (s : State) (n : Fin 16) : State :=
  let act := s.activePhases n
  let m := act.length
  s.each (act.zip (List.range m)) (fun s pk =>
    let v := if s.fB F.CL_FSW_INTLV n then fixedPlace (s.f F.PH_CFG_OFS pk.1) (s.f F.CL_FSW_PERIOD n)
      else evenPlace pk.2 m (s.f F.CL_FSW_PERIOD n)
    s.updPh pk.1 (fun u => { u with place := v }))

/-- A ratio-step measurement counts frames, and drops its candidate after the first RSPER of them (R183). -/
def State.rsFrame (s : State) (n : Fin 16) : State :=
  match (s.cl.get n).rsRun with
  | none => s
  | some r =>
    let s := s.updCl n (fun c => { c with rsRun := some { r with frames := r.frames + 1 } })
    if r.frames + 1 = s.f F.CL_RSCFG_RSPER n && (s.activePos n).contains r.pos then
      let m := s.f F.CL_PHSTAT_M n
      (s.updCl n (fun c => { c with rsDrop := some r.pos })).setActive n (m - 1)
    else s

/-- FRAME_START: the calibration values, the phase count and the placement take effect. -/
def execFrameStart (n : Fin 16) (s : State) : Host.Outcome State Fault Refusal :=
  if !(s.cl.get n).ticking then .next s
  else
    let s := s.loadCal n
    if s.switching n then
      let s := s.rsFrame n
      let m := Nat.min (s.cl.get n).mNext (s.nAv n)
      let s := if m = s.f F.CL_PHSTAT_M n then s else s.setActive n m
      .next (s.placePhases n)
    else .next s

/-! ### The high interval (R102 to R107, R113) -/

/-- An on-edge: the output goes high, the ramp restarts, blanking opens. -/
def State.startHigh (s : State) (p : Fin 48) : State :=
  let b := s.f F.PH_BLANK_BLANK p != 0
  s.updPh p (fun u => { u with out := .high, onDeferred := false, minOffDone := false, blanking := b, dem := false, demRun := 0 })

/-- An off edge: low, or mid where the phase has left the active set (R105, R153). -/
def State.endHigh (s : State) (p : Fin 48) : State :=
  let out := if s.fB F.PH_STAT_ACTIVE p then PwmLevel.low else PwmLevel.mid
  s.updPh p (fun u => { u with out := out, blanking := false })

/-- The cluster's on request at one phase (R104): at once where the output is low or mid and MINOFF has elapsed,
otherwise at the end of its MINOFF. -/
def State.onRequestAt (s : State) (p : Fin 48) : State :=
  let u := s.ph.get p
  if !s.fB F.PH_STAT_ACTIVE p || u.foxHold || u.out == .high then s
  else if u.minOffDone then s.startHigh p
  else s.updPh p (fun u => { u with onDeferred := true })

def State.onRequest (s : State) (n : Fin 16) : State := s.each (s.activePhases n) State.onRequestAt

/-- A demanded on-time below 15 ns (768 fine steps) gives no high interval (R103). -/
def State.tooShort (s : State) (p : Fin 48) : Bool :=
  match s.phCluster p with
  | none => false
  | some n => s.fB F.CL_FSW_DIRECT n && decide (s.demand n p < 768)

/-- ON_EDGE: a scheduled on-edge, or the end of MINOFF for a deferred one; `minOff`: MINOFF has elapsed.  It is absorbed
inside a high interval and during a Fox hold (R104, R121). -/
def execOnEdge (p : Fin 48) (minOff : Bool) (s : State) : Host.Outcome State Fault Refusal :=
  let u := s.ph.get p
  if !s.fB F.PH_STAT_ACTIVE p || u.foxHold || u.out == .high then .next s
  else if s.tooShort p then .next (s.updPh p (fun u => { u with out := .low, dem := false, onDeferred := false }))
  else if minOff || u.minOffDone then .next (s.startHigh p)
  else .next (s.updPh p (fun u => { u with onDeferred := true }))

/-- The peak comparator ends the high interval (R111, R114). -/
def State.peakEnd (s : State) (p : Fin 48) : State :=
  let s := s.when (s.atPeak p) (fun s =>
    ((s.setB F.PH_STAT_PKLIM p true).incF F.PH_CNT_PKCNT p).updPh p (fun u => { u with pkBal := true }))
  s.endHigh p

/-- BLANKING_END: a crossing already present trips the comparator (R113, R121). -/
def execBlankingEnd (p : Fin 48) (crossing : Bool) (s : State) : Host.Outcome State Fault Refusal :=
  let u := s.ph.get p
  if !u.blanking then .next s
  else
    let s := s.updPh p (fun u => { u with blanking := false })
    .next (s.when (crossing && u.out == .high) (fun s => s.peakEnd p))

/-- PEAK_TRIP: after blanking. -/
def execPeakTrip (p : Fin 48) (s : State) : Host.Outcome State Fault Refusal :=
  let u := s.ph.get p
  if u.out == .high && !u.blanking then .next (s.peakEnd p) else .next s

/-- MAXON_END: the maximum on-time, which sets MAXON; in direct duty mode the on-time that the loop engine set, which sets
it only where it is the maximum (R102, R103). -/
def execMaxonEnd (p : Fin 48) (s : State) : Host.Outcome State Fault Refusal :=
  if (s.ph.get p).out ≠ .high then .next s
  else
    let short := match s.phCluster p with
      | none => false
      | some n => s.fB F.CL_FSW_DIRECT n && decide (s.demand n p < (s.maxOn n : Rat))
    .next ((s.when (!short) (fun s => s.setB F.PH_STAT_MAXON p true)).endHigh p)

/-! ### Samples (R107, R110, R181) -/

/-- Diode emulation applies: DEM, or a pre-biased soft start (R107, R139). -/
def State.demOn (s : State) (p : Fin 48) : Bool :=
  s.fB F.PH_CFG_DEM p || (match s.phCluster p with
    | some n => (s.cl.get n).run == .softStart && s.fB F.CL_SS_PREBIAS n
    | none => false)

/-- Two consecutive samples below IZC take a low output to the mid level. -/
def State.diode (s : State) (p : Fin 48) (i : Rat) : State :=
  let below := decide (i < ((100 * s.fS F.PH_GAIN_IZC p : Int) : Rat))
  let run := if below then (s.ph.get p).demRun + 1 else 0
  let go := s.demOn p && s.fB F.PH_STAT_ACTIVE p && (s.ph.get p).out == .low && decide (2 ≤ run)
  s.updPh p (fun u => { u with demRun := run, out := if go then .mid else u.out, dem := u.dem || go })

/-- Three consecutive samples at the end of the span: ISRANGE, PH_ISRANGE and, for an active phase, its removal
(R110, R161 case 1). -/
def State.rangeCheck (s : State) (p : Fin 48) (code : Nat) : State :=
  if code ≠ 0 && code ≠ 4095 then (s.updPh p (fun u => { u with rangeRun := 0 })).lower (Src.phIsrange p)
  else
    let run := (s.ph.get p).rangeRun + 1
    let s := s.updPh p (fun u => { u with rangeRun := run })
    if run = 3 && s.fB F.PH_CFG_USED p then
      let s := (s.setB F.PH_STAT_ISRANGE p true).raise (Src.phIsrange p)
      match s.phCluster p, s.fB F.PH_STAT_ACTIVE p with
      | some n, true => s.removePhase n p 2 (Src.phSense p)
      | _, _ => s
    else s

/-- PHASE_SAMPLE. -/
def execPhaseSample (p : Fin 48) (code : BitVec 12) (s : State) : Host.Outcome State Fault Refusal :=
  let s := s.setF F.PH_IRAW_CODE p code.toNat
  let i := s.calCurrent p code.toNat
  let add (a : Rat × Nat) : Rat × Nat := (a.1 + i, a.2 + 1)
  let s := s.updPh p (fun u => { u with iCal := i, updAcc := add u.updAcc, balAcc := add u.balAcc })
  .next ((s.diode p i).rangeCheck p code.toNat)

/-- AVERAGE_CEILING_EXCEEDED (R114). -/
def execAverageCeilingExceeded (p : Fin 48) (s : State) : Host.Outcome State Fault Refusal :=
  if s.fB F.PH_STAT_ACTIVE p then .next ((s.setB F.PH_STAT_OCAVG p true).raise (Src.phOcavg p)) else .next s

/-! ### Fox trips (R116, R117) -/

/-- FOX_TRIP: outside FOXBLK; `recent`: the phase's trips within the last 1 ms, this one included. -/
def execFoxTrip (p : Fin 48) (recent : BitVec 4) (s : State) : Host.Outcome State Fault Refusal :=
  if !s.fB F.PH_CFG_USED p then .next s
  else
    let s := s.updPh p (fun u => { u with out := .mid, foxHold := true, blanking := false, onDeferred := false, dem := false })
    let s := ((s.setB F.PH_STAT_FOX p true).incF F.PH_CNT_FOXCNT p).raise (Src.phFox p)
    let s := match s.phCluster p with
      | some n => s.when ((s.cl.get n).run == ClusterRun.checking) (fun s =>
          s.updCl n (fun c => { c with pscFox := c.pscFox.or (some p.val) }))
      | none => s
    if !s.fB F.PH_FOX_FOXMODE p || s.f F.PH_FOX_FOXMAX p ≤ recent.toNat then
      let s := (s.setB F.PH_STAT_FOXLAT p true).updPh p (fun u => { u with foxLeft := 0 })
      match s.phCluster p with
      | some n => .next (s.removePhase n p 5 (Src.phFox p))
      | none => .next s
    else .next (s.updPh p (fun u => { u with foxLeft := s.f F.PH_FOX_FOXHOLD p }))

/-- FOX_HOLD_END: a retried hold ends; the phase rejoins at its next on-edge. -/
def execFoxHoldEnd (p : Fin 48) (s : State) : Host.Outcome State Fault Refusal :=
  if (s.ph.get p).foxHold && !s.fB F.PH_STAT_FOXLAT p then
    .next (s.updPh p (fun u => { u with foxHold := false, foxLeft := 0 }))
  else .next s

/-! ### Delay lines (R101, R122) -/

/-- DELAY_LINE_CALIBRATION: the lines found outside ±1 tap. -/
def execDelayLineCalibration (bad : BitVec 48) (s : State) : Host.Outcome State Fault Refusal :=
  let l := phases.filter (fun (p : Fin 48) => bad.getLsbD p && s.fB F.PH_CFG_USED p)
  .next ((s.setB F.CLK_DLCAL_OK 0 l.isEmpty).each l (fun s p => s.raise (Src.phLane p)))

/-! ### The pre-start check (R118 to R120) -/

/-- Every cluster of every region downstream of a cluster's region. -/
def State.downClusters (s : State) (n : Fin 16) : List (Fin 16) :=
  clusters.filter (fun (k : Fin 16) => (s.downOf n).any (fun x => s.fBit F.RG_CFG_CLMASK x k))

/-- PRESTART_CHECK_FAIL: `mean`: the phase whose mean current exceeds 10% of its IPEAK, the largest of several; `vmax` in mV,
`vbus` in mV, `us` the time from window start to failure. -/
def execPrestartCheckFail (n : Fin 16) (mean : Option (Fin 48)) (vmax : BitVec 16) (vbus : BitVec 20) (us : BitVec 32)
    (s : State) : Host.Outcome State Fault Refusal :=
  if (s.cl.get n).run ≠ .checking then .next s
  else
    let phase : Option Nat := (mean.map Fin.val).or (s.cl.get n).pscFox
    let tsenf := s.fB F.CL_TSENV_FLT n
    let feed := s.isHv n && (match s.region n with | some x => s.f F.RG_CFG_UPSRC x == 0x10 | none => false)
    let s := s.clOff n
    let s := (((s.setF F.CL_PSCSTAT_RESULT n 2).setF F.CL_PSCSTAT_PHASE n (phase.getD 0x3F)).setB
      F.CL_PSCSTAT_TSENF n tsenf).setF F.CL_PSCSTAT_VMAX n vmax.toNat
    let s := s.each (n :: s.downClusters n) (fun s k => s.setB F.CL_PSCSTAT_REFUSED k true)
    let s := match phase with | some p => s.setB F.PH_STAT_HSSHORT (p % 48) true | none => s
    let s := s.raise (Src.clHsshort n)
    let s := s.recordSrc (Src.clHsshort n) 0
      [item n, item (phase.getD 0x3F), item tsenf.toNat, item vmax.toNat, item vbus.toNat, item us.toNat]
    .next (s.when feed (fun s => { s.allGatesOff with power := { s.power with feedsBarred := true } }))

/-- PRESTART_CHECK_PASS: the window closes with a pass; it stays open while the upstream source is not good. -/
def execPrestartCheckPass (n : Fin 16) (vmax : BitVec 16) (s : State) : Host.Outcome State Fault Refusal :=
  if (s.cl.get n).run = .checking && s.srcGood n then
    .next (((s.setF F.CL_PSCSTAT_RESULT n 1).setF F.CL_PSCSTAT_VMAX n vmax.toNat).updCl n (fun c => { c with run := .delay }))
  else .next s

end Sys2Proof.Machine
end

