-- ==== Sys2Proof/Machine/Loop.lean ====
section
/-! DEFINITION. The loop engines' commands (06_loop_engines.md R123 to R149): soft start, the voltage-loop update with its
outer loops, set-points, lead warnings and injection; with the phase count (R153, R154), rotation (R157) and the
checkpoint (R165) that an update also carries. -/

namespace Sys2Proof.Machine

/-! ### The error and the gain (R125, R127) -/

/-- e and whether the coarse path gave it.  An update always has its fine codes; none stands for the coarse path. -/
def loopError (vref : Nat) (fine : List (BitVec 12)) (coarse : BitVec 10) : Int × Bool :=
  if fine = [] || fine.any (fun c => c.toNat = 0 || c.toNat = 4095) then
    (clampI (-32767) 32767 (roundAway ((vref : Rat) / 2 - 32 * (coarse.toNat : Rat))), true)
  else (clampI (-32767) 32767 (roundAway (2048 - meanI (fine.map (fun c => (c.toNat : Int))))), false)

/-- The gain of a table `t` at |e|, in 1/256 mA per LSB (R127). -/
def gainAt (t : Nat → Nat) (sp mag : Nat) : Int :=
  let d := 2 ^ sp
  if 63 * d ≤ mag then 16 * (t 63 : Int)
  else
    let j := mag / d
    let r := mag - j * d
    roundAway (16 * (t j : Rat) + 16 * ((t (j + 1) : Rat) - (t j : Rat)) * (r : Rat) / (d : Rat))

/-- The gain that an update uses: the undershoot table for e ≥ 0, the overshoot table below (R129). -/
def State.loopGain (s : State) (n : Fin 16) (e : Int) : Int :=
  let base := 0x4000 + 0x100 * n.val + (if 0 ≤ e then 0 else 64)
  gainAt (fun j => (s.reg (base + j)).toNat % 65536) (s.f F.CL_GCFG_SP n) e.natAbs

/-- The clamp of u (R124, R125). -/
def State.uLo (s : State) (n : Fin 16) : Int :=
  if s.fB F.CL_FSW_DIRECT n then 0 else 100 * s.fS F.CL_IRLIM_IRMIN n

def State.uHi (s : State) (n : Fin 16) : Int :=
  if s.fB F.CL_FSW_DIRECT n then s.maxOn n else 100 * s.f F.CL_IRLIM_IRMAX n

/-! ### Sums of phase currents -/

/-- The mean of a phase's samples since the last update; the latest sample where none arrived. -/
def PhaseSt.updMean (u : PhaseSt) : Rat := if u.updAcc.2 = 0 then u.iCal else u.updAcc.1 / (u.updAcc.2 : Rat)

/-- The sum of the cluster's phase currents over the update's samples, in mA. -/
def State.iSumNow (s : State) (n : Fin 16) : Rat := sumQ ((s.clPhases n).map (fun p => (s.ph.get p).updMean))

/-- The base samples of the phases, and the next update's accumulators (R188). -/
def State.phaseBase (s : State) (n : Fin 16) : State :=
  s.each (s.clPhases n) (fun s p => s.updPh p (fun u =>
    { u with telAcc := (u.telAcc.1 + u.updMean, u.telAcc.2 + 1), updAcc := (0, 0) }))

/-- The base sample of the cluster (R188): voltage in uV output-referred, current in mA, power in mW. -/
def State.telBase (s : State) (n : Fin 16) (v i : Rat) : State :=
  s.updCl n (fun c => { c with
    telV := (c.telV.1 + v, c.telV.2 + 1), telI := c.telI + i, telP := c.telP + v * i / 1000000 })

/-! ### Lead warnings in the update (R143, R144) -/

/-- A disturbing event during an injection run (R148). -/
def State.disturb (s : State) (n : Fin 16) : State :=
  s.when (s.fB F.CL_INJ_EN n) (fun s => s.setB F.CL_INJ_DISTURB n true)

/-- lw and its flag. -/
def State.setLw (s : State) (n : Fin 16) (v : Int) : State :=
  (s.updCl n (fun c => { c with
    lw := v, lwWin := if v = 0 then 0 else c.lwWin, lwRamp := if v = 0 then 0 else c.lwRamp
    lwCfg := if v = 0 then none else c.lwCfg })).setB F.CL_LEADSTAT_ACTIVE n (v != 0)

/-- A warning ended as false (R144): counted, and its pin suspended after LWSUSP in a row. -/
def State.falseWarning (s : State) (n : Fin 16) : State :=
  let s := s.incF F.CL_LEADSTAT_LWFALSE n
  let k : Fin 4 := Fin.ofNat 4 (s.cl.get n).lwPin
  let run := (s.cl.get n).falseRun.get k + 1
  let s := s.updCl n (fun c => { c with falseRun := c.falseRun.set k run })
  let lim := s.f F.CL_LEAD2_LWSUSP n
  if lim ≠ 0 && lim ≤ run then
    let s := s.updCl n (fun c => { c with suspMask := c.suspMask ||| BitVec.ofNat 4 (2 ^ k.val) })
    (s.setB F.CL_LEADSTAT_SUSP n true).raise (Src.clLwfalse n)
  else s

/-- The first outcome of R143 that holds; it answers what a confirmation adds to acc. -/
def State.leadStep (s : State) (n : Fin 16) (e : Int) (iLoad : Rat) : State × Int :=
  let c := s.cl.get n
  let cfg := c.lwCfg.getD (0, 0, 0)
  if c.lw = 0 then (s, 0)
  else if e < -4 * (cfg.2.2 : Int) then
    (((s.setLw n 0).falseWarning n).setB F.CL_LEADSTAT_ABRT n true, 0)
  else if c.lwRamp ≠ 0 then
    let left := c.lwRamp - 1
    let s := s.updCl n (fun c => { c with lwRamp := left })
    (s.setLw n (roundAway ((c.lwFrom * left : Int) / (Nat.max 1 (s.f F.CL_LEAD2_LWRAMP n) : Rat))), 0)
  else if s.f F.CL_CFG_UPER n ≤ c.lwWin then
    if (s.f F.CL_LEAD_LWMATCH n : Rat) / 256 * c.lw ≤ iLoad - c.lwRef then
      let s := (s.setLw n 0).incF F.CL_LEADSTAT_LWOK n
      let s := s.updCl n (fun d => { d with falseRun := d.falseRun.set (c.lwPin % 4) 0 (Nat.mod_lt _ (by decide)) })
      (s, c.lw * 2 ^ 20)
    else (s.updCl n (fun c => { c with lwWin := c.lwWin - s.f F.CL_CFG_UPER n }), 0)
  else
    let r := s.f F.CL_LEAD2_LWRAMP n
    let s := s.falseWarning n
    if r = 0 then (s.setLw n 0, 0)
    else (s.updCl n (fun c => { c with lwWin := 0, lwRamp := r, lwFrom := c.lw }), 0)

/-! ### Injection (R146 to R148) -/

/-- The taps of the PRBS register of a length (R146): the exponents of its feedback polynomial. -/
def prbsTaps : Nat → List Nat
  | 9 => [9, 5]
  | 10 => [10, 7]
  | 11 => [11, 9]
  | 12 => [12, 11, 10, 4]
  | 13 => [13, 12, 11, 8]
  | 14 => [14, 13, 12, 2]
  | _ => [15, 14]

/-- One step of the register; the chip is its last stage (log entry 25). -/
def prbsNext (len r : Nat) : Nat :=
  let bit := ((prbsTaps len).map (fun k => r / 2 ^ (k - 1) % 2)).foldl (· + ·) 0 % 2
  (r * 2 + bit) % 2 ^ len

/-- Releasing the diagnostic partition with the injection. -/
def State.injEnd (s : State) (n : Fin 16) : State :=
  ((s.setB F.CL_INJ_EN n false).unclaim 4 2 9).updCl n (fun c => { c with injV := 0, injI := 0, injStarted := false })

/-- The signal of the present update. -/
def State.injSet (s : State) (n : Fin 16) (v : Int) : State :=
  if s.fB F.CL_INJ_POINT n then s.updCl n (fun c => { c with injI := v, injV := 0 })
  else s.updCl n (fun c => { c with injV := v, injI := 0 })

/-- Advancing the injection by one update. -/
def State.injStep (s : State) (n : Fin 16) : State :=
  if !s.fB F.CL_INJ_EN n then s
  else
    let c := s.cl.get n
    let amp : Int := s.f F.CL_INJAMP_AMP n
    if s.fB F.CL_INJ_MODE n then
      let len := s.f F.CL_INJ_PRBSLEN n
      let last := c.chip + 1 ≥ s.f F.CL_INJ_CHIP n
      let v := if c.prbs / 2 ^ (len - 1) % 2 = 1 then amp else -amp
      (s.updCl n (fun c => { c with
        prbs := if last then prbsNext len c.prbs else c.prbs, chip := if last then 0 else c.chip + 1 })).injSet n v
    else
      let t := c.injPhase.toNat + (s.reg (F.CL_INJFREQ_FW.addr n)).toNat
      let wrap := decide (2 ^ 32 ≤ t)
      let per := if wrap && c.injStarted then c.injPer + 1 else c.injPer
      let s := s.updCl n (fun c => { c with
        injPhase := BitVec.ofNat 32 t, injPer := per, injStarted := c.injStarted || wrap })
      if wrap && c.injStarted && per = s.f F.CL_INJAMP_NCYC n then (s.injEnd n).setB F.CL_INJ_DONE n true
      else s.injSet n (roundAway ((amp * fxSin t : Int) / (fxOne : Rat)))

/-- A response signal of R147. -/
def signal (code : Nat) (e : Int) (vref : Nat) (u : Int) (icl : Rat) : Int :=
  match code with
  | 0 => e
  | 1 => vref
  | 2 => u
  | _ => roundAway (icl / 100)

/-- Writing one word of the diagnostic partition (R322: 16,384 words, wrapping). -/
def State.diagWrite (s : State) (w : Word) : State :=
  let i := s.f F.CAP_DIAG_WIDX
  let s := { s with stream := { s.stream with diag := Sparse.put (fun _ => (0 : Word)) i w s.stream.diag } }
  let s := s.when (decide (16384 ≤ i + 1)) (fun s => s.setB F.CAP_DIAG_WRAP 0 true)
  s.setF F.CAP_DIAG_WIDX 0 ((i + 1) % 16384)

/-- The responses of an update: accumulated in a sine run, written out raw with a PRBS. -/
def State.respond (s : State) (n : Fin 16) (e : Int) (vref : Nat) (u : Int) (icl : Rat) : State :=
  if !s.fB F.CL_INJ_EN n then s
  else
    let a := signal (s.f F.CL_INJ_SIGA n) e vref u icl
    let b := signal (s.f F.CL_INJ_SIGB n) e vref u icl
    if s.fB F.CL_INJ_MODE n then (s.diagWrite (BitVec.ofInt 32 a)).diagWrite (BitVec.ofInt 32 b)
    else if (s.cl.get n).injStarted then
      let ph := (s.cl.get n).injPhase.toNat
      let co := toQ15 (fxCos ph)
      let si := toQ15 (fxSin ph)
      s.updCl n (fun c => { c with
        resA := (c.resA.1 + a * co, c.resA.2 + a * si), resB := (c.resB.1 + b * co, c.resB.2 + b * si) })
    else s

/-! ### vramp: transitions, soft start, soft stop (R135, R136, R138, R139, R250) -/

/-- A transition begins, or turns: D updates long; BLKTM marks it and the windows are blanked (R135, R136, R253). -/
def State.beginTransition (s : State) (n : Fin 16) (tgt : Nat) : State :=
  let s := s.updCl n (fun c => { c with sForce := tgt })
  let dist := ((tgt * 65536 : Nat) - ((s.cl.get n).vramp : Int)).natAbs
  let d := ceilDiv (4 * dist) (65536 * s.f F.CL_VSLEW_SLEW n)
  if d = 0 then s.setB F.CL_VSTAT_TRANS n false
  else
    let s := (s.setB F.CL_VSTAT_TRANS n true).disturb n
    if s.fB F.CL_VSLEW_BLKEN n then
      let k : Fin 32 := Fin.ofNat 32 (s.f F.CL_VSLEW_BLKTM n)
      let s := s.updTm k (fun t => { t with load := some 0, armA := true, fireA := false })
      let s := (s.setReg (F.TM_CMPA_CMPA.addr k) (BitVec.ofNat 32 (ceilDiv (d * s.f F.CL_CFG_UPER n) 4))).setB
        F.TM_CTRL_RUN k true
      (s.setB F.CL_WSTAT_BLANKED n true).updCl n (fun c => { c with blankM := false })
    else s

/-- The step per update of a soft start of `d` codes (R138), in 1/65,536 code, rounded as R125 rounds. -/
def softStep (d uper sstime : Nat) : Int := roundAway (((d * 65536 * uper : Nat) : Rat) / ((40000 * sstime : Nat) : Rat))

/-- Moving `v` towards `t` by at most `d`. -/
def approach (v t d : Nat) : Nat := if v < t then Nat.min t (v + d) else Nat.max t (v - d)

/-- A newly accepted S (R135, R139): the first update after it acts on it. -/
def State.takeSet (s : State) (n : Fin 16) : State :=
  let tgt := s.f F.CL_VSET_S n
  if tgt = (s.cl.get n).sForce then s
  else match (s.cl.get n).run with
    | .on => s.beginTransition n tgt
    | .softStart => s.updCl n (fun c => { c with sForce := tgt })
    | _ => s

/-- One step of vramp. -/
def State.advanceRamp (s : State) (n : Fin 16) : State :=
  let c := s.cl.get n
  let t := c.sForce * 65536
  match c.run with
  | .on =>
    if s.fB F.CL_VSTAT_TRANS n then
      let v := approach c.vramp t (s.f F.CL_VSLEW_SLEW n * 16384)
      (s.updCl n (fun c => { c with vramp := v })).setB F.CL_VSTAT_TRANS n (v != t)
    else s
  | .softStart =>
    let left := c.ssLeft - 1
    let v := if t < c.vramp || (left = 0 && c.sForce = c.ssTarget) then t else approach c.vramp t c.step.natAbs
    let s := s.updCl n (fun c => { c with vramp := v, ssLeft := left })
    if v = t && left = 0 then
      ((s.setB F.CL_VSTAT_SSRUN n false).setB F.CL_VSTAT_SSDONE n true).updCl n
        (fun c => { c with run := .on, outCount := 0, iSum := 0 })
    else s
  | .softStop => s.updCl n (fun c => { c with vramp := c.vramp - Nat.max 1 c.step.natAbs })
  | _ => s

/-- SOFT_START_BEGIN (R138): SSDLY after the check has passed; `out` is the output in set-point codes, which a pre-biased
start takes. -/
def execSoftStartBegin (n : Fin 16) (out : BitVec 16) (s : State) : Host.Outcome State Fault Refusal :=
  if (s.cl.get n).run ≠ .delay then .next s
  else
    let tgt := s.f F.CL_VSET_S n
    let v0 := if s.fB F.CL_SS_PREBIAS n then Nat.min tgt out.toNat else 0
    let uper := s.f F.CL_CFG_UPER n
    let s := s.updCl n (fun c => { c with
      run := .softStart, acc := 0, ePrev := 0, lw := 0, lwAdder := 0, lwWin := 0, lwRamp := 0, lwCfg := none, lwNew := false
      llDrop := 0, capDrop := 0, vramp := v0 * 65536, step := softStep (tgt - v0) uper (s.f F.CL_SS_SSTIME n)
      ssLeft := Nat.max 1 (ceilDiv (40000 * s.f F.CL_SS_SSTIME n) uper), ssTarget := tgt, sForce := tgt
      outCount := 0, iSum := 0, dropTime := 0, holdLeft := 0, boundRun := 0 })
    let s := ((s.setB F.CL_VSTAT_SSRUN n true).setB F.CL_VSTAT_SSDONE n false).setB F.CL_VSTAT_CAPACT n false
    let s := (s.setB F.CL_VSTAT_TRANS n false).setB F.CL_PHSTAT_HOLDALL n false
    let s := s.setF F.CL_VSTAT_VREFEFF n (clampI 0 65535 ((v0 : Int) + s.fS F.CL_TRIM_TRIM n)).toNat
    let s := s.setActive n (s.nAv n)
    .next (s.setF F.CL_ROT_PTR n ((s.activePos n).headD 0))

/-! ### The outer loops (R137) -/

/-- The outer loops, in every Nth update from SSDONE on. -/
def State.outerLoops (s : State) (n : Fin 16) (vref : Nat) : State :=
  let c := s.cl.get n
  let big := 2 ^ s.f F.CL_CFG_OUTDIV n
  if c.run ≠ .on then s
  else if c.outCount + 1 < big then s.updCl n (fun c => { c with outCount := c.outCount + 1 })
  else
    let icl := c.iSum / (big : Rat)
    let g : Rat := s.gDiv n
    let ll := roundAway ((s.f F.CL_LL_RLL n : Rat) * icl / 1000 / g / 25)
    let tgt := s.fS F.CL_TRIM_TARGET n
    let tr := s.fS F.CL_TRIM_TRIM n
    let tr := if tr < tgt then tr + 1 else if tgt < tr then tr - 1 else tr
    let lim : Rat := 100 * (s.f F.CL_CAP_CAPVAL n : Rat)
    let x := if s.fB F.CL_CAP_CAPSEL n then (vref : Rat) * 25 / 1000000 * g * icl else icl
    let cap := if !s.fB F.CL_CAP_CAPEN n then 0
      else if lim < x then Nat.min (s.f F.CL_CAP_CAPMAX n) (c.capDrop + s.f F.CL_CAP_CAPSTEP n)
      else if x < 99 / 100 * lim then c.capDrop - s.f F.CL_CAP_CAPSTEP n
      else c.capDrop
    let s := (s.setS F.CL_TRIM_TRIM n tr).updCl n (fun c => { c with outCount := 0, iSum := 0, llDrop := ll, capDrop := cap })
    let s := s.setB F.CL_VSTAT_CAPACT n (cap != 0)
    s.when (cap != 0) (fun s => s.disturb n)

/-! ### Phase count, all-phases response and rotation (R153, R154, R157) -/

/-- The all-phases response: every available phase active at once, with the cluster's on request. -/
def State.allPhases (s : State) (n : Fin 16) : State :=
  let s := s.updCl n (fun c => { c with
    rsRun := none, rsDrop := none, rsAgain := none, dropTime := 0, holdLeft := s.f F.CL_PHCNT2_APHOLD n })
  ((s.setActive n (s.nAv n)).setB F.CL_PHSTAT_HOLDALL n true).onRequest n

/-- m_next of R153. -/
def State.phaseCount (s : State) (n : Fin 16) : State :=
  let c := s.cl.get n
  let nav := s.nAv n
  let m := s.f F.CL_PHSTAT_M n
  let minPh := Nat.min (s.f F.CL_PHCNT_MINPH n) nav
  let r : Nat × Nat :=
    if s.fB F.CL_PHSTAT_HOLDALL n then (nav, c.dropTime)
    else
      let add := Nat.min nav (c.iLast / ((100 * s.f F.CL_PHCNT_IADD n : Nat) : Rat)).ceil.toNat
      if m < add then (add, 0)
      else if c.iLast < (((m - 1) * s.f F.CL_PHCNT_IDROP n * 100 : Nat) : Rat) && minPh < m then
        if c.rsDrop.isSome then (m, c.dropTime)
        else
          let t := c.dropTime + s.f F.CL_CFG_UPER n
          if 400 * s.f F.CL_PHCNT2_DROPT n ≤ t then (m - 1, 0) else (m, t)
      else (m, 0)
  s.updCl n (fun c => { c with mNext := Nat.max r.1 minPh, dropTime := r.2 })

/-- The end of the all-phases hold: lw is 0 and APHOLD updates have passed without a further trigger. -/
def State.holdStep (s : State) (n : Fin 16) : State :=
  let c := s.cl.get n
  if !s.fB F.CL_PHSTAT_HOLDALL n then s
  else if c.holdLeft ≤ 1 && c.lw = 0 then
    (s.updCl n (fun c => { c with holdLeft := 0 })).setB F.CL_PHSTAT_HOLDALL n false
  else s.updCl n (fun c => { c with holdLeft := c.holdLeft - 1 })

/-- A detected step of a rotation cluster: a single-phase on request, and the pointer moves on. -/
def State.rotate (s : State) (n : Fin 16) (single : Bool) : State :=
  let act := s.activePos n
  let p := s.f F.CL_ROT_PTR n
  let s := if single then (match s.posPhase n p with | some q => s.onRequestAt q | none => s) else s
  s.setF F.CL_ROT_PTR n ((act.find? (fun k => p < k)).getD (act.headD 0))

/-- What an update decides about the phases. -/
def State.updatePhases (s : State) (n : Fin 16) (e ePrev : Int) : State :=
  if (s.cl.get n).run ≠ .on && (s.cl.get n).run ≠ .softStop then s
  else
    let apthr : Int := s.f F.CL_PHCNT2_APTHR n
    let trig := apthr ≠ 0 && apthr ≤ e
    let starts := trig && !s.fB F.CL_PHSTAT_HOLDALL n
    let rot : Int := s.f F.CL_ROT_ROTTHR n
    let detected := s.fB F.CL_BAL_ROT n &&
      (((rot ≠ 0 && rot ≤ e && ePrev < rot) || starts) || (s.cl.get n).lwNew)
    let s := if trig then s.allPhases n else s.holdStep n
    let s := s.when detected (fun s => s.rotate n (!trig))
    (s.updCl n (fun c => { c with lwNew := false })).phaseCount n

/-! ### The checkpoint (R133, R165) -/

def bitsAt (l : List (Nat × Nat × Nat)) : Word :=
  l.foldl (fun w p => w ||| BitVec.ofNat 32 ((p.2.2 % 2 ^ p.2.1) * 2 ^ p.1)) 0

def lowWord (v : Int) : Word := BitVec.ofInt 32 v
def highWord (v : Int) : Word := BitVec.ofInt 32 (v / 2 ^ 32)
def nat16 (v : Int) : Nat := (v % 65536).toNat

/-- Words 0 to 30 of the checkpoint frame; word 31 is their CRC-32, which holds by construction. -/
def State.checkpoint (s : State) (n : Fin 16) : List Word :=
  let c := s.cl.get n
  let uper := Nat.max 1 (s.f F.CL_CFG_UPER n)
  let step : Int := if s.fB F.CL_VSTAT_TRANS n then
      (if c.vramp ≤ c.sForce * 65536 then 16384 * s.f F.CL_VSLEW_SLEW n else -(16384 * s.f F.CL_VSLEW_SLEW n : Int))
    else c.step
  [c.seqNo, c.acc.setWidth 32,
   bitsAt [(0, 16, c.acc.toNat / 2 ^ 32), (16, 16, nat16 c.ePrev)],
   bitsAt [(0, 16, c.vramp / 65536), (16, 16, c.vramp % 65536)],
   lowWord step,
   bitsAt [(0, 16, nat16 (s.fS F.CL_TRIM_TRIM n)), (16, 10, c.capDrop)],
   bitsAt [(0, 16, nat16 c.llDrop), (16, 16, nat16 (c.lw / 100))],
   bitsAt [(0, 16, c.lwWin / uper), (16, 16, nat16 (roundAway (c.lwRef / 100)))],
   c.injPhase,
   bitsAt [(0, 16, c.prbs), (16, 8, c.chip), (24, 6, c.lwRamp)],
   lowWord c.resA.1, highWord c.resA.1, lowWord c.resA.2, highWord c.resA.2,
   lowWord c.resB.1, highWord c.resB.1, lowWord c.resB.2, highWord c.resB.2]
  ++ (List.range 8).map (fun j => s.reg (F.CL_BTRIM_TLO.addr n + j))
  ++ [bitsAt [(0, 16, s.f F.CL_PHSTAT_ACTMASK n), (16, 16, s.f F.CL_PHREM_REMMASK n)],
   bitsAt [(0, 4, s.f F.CL_ROT_PTR n), (4, 12, c.holdLeft), (16, 16, c.dropTime / 400)],
   s.reg (F.CL_IOUT_U.addr n),
   bitsAt [(0, 1, s.f F.CL_VSTAT_SSRUN n), (1, 1, s.f F.CL_VSTAT_TRANS n), (2, 1, (decide (c.lw ≠ 0)).toNat),
     (3, 3, s.f F.CL_LEADSTAT_CLASS n), (6, 1, s.f F.CL_INJ_EN n), (7, 1, s.f F.CL_VSTAT_SSDONE n), (16, 16, c.injPer)],
   bitsAt [(0, 16, c.sForce)]]

/-- The published word P of R133. -/
def boundWord (acc : BitVec 48) : Int := acc.toInt / 2 ^ 16

/-- Writing the checkpoint: frame A when SEQ is even, frame B when it is odd; the integrator bound counts (R133), and
LE16 under check has passed one more (R170). -/
def State.writeCheckpoint (s : State) (n : Fin 16) : State :=
  let s := s.updCl n (fun c => { c with seqNo := c.seqNo + 1 })
  let fr : Frame := ⟨s.checkpoint n, true⟩
  let above := s.fB F.CL_GCFG_BEN n && decide (16000 * s.f F.CL_GCFG_BOUND n < (boundWord (s.cl.get n).acc).natAbs)
  let s := s.updCl n (fun c => { c with
    frameA := if c.seqNo.getLsbD 0 then c.frameA else some fr, frameB := if c.seqNo.getLsbD 0 then some fr else c.frameB
    boundRun := if above then c.boundRun + 1 else 0 })
  if s.f F.LE16_STAT_STATE = 1 && s.f F.LE16_STAT_CL = n.val then
    let k := (s.cl.get n).spareRun + 1
    (s.updCl n (fun c => { c with spareRun := k })).when (decide (5 ≤ k)) (fun s => s.setF F.LE16_STAT_STATE 0 2)
  else s

/-! ### LOOP_UPDATE -/

/-- A loop engine serves the cluster: its own, or LE16 after a takeover (R167, R170). -/
def State.engineOk (s : State) (n : Fin 16) : Bool :=
  !(s.cl.get n).leFailed
    || ((s.f F.LE16_STAT_STATE = 1 || s.f F.LE16_STAT_STATE = 2) && s.f F.LE16_STAT_CL = n.val)

/-- The update of a cluster that switches (R125). -/
def State.loopStep (s : State) (n : Fin 16) (fine : List (BitVec 12)) (coarse : BitVec 10) : State :=
  let s := s.takeSet n
  let i := s.iSumNow n
  let vref := s.f F.CL_VSTAT_VREFEFF n
  let er := loopError vref fine coarse
  let e := er.1
  let ePrev := if (s.cl.get n).noKick then e else (s.cl.get n).ePrev
  let s := (s.setB F.CL_LSTAT_COARSE n er.2).setS F.CL_ERR_E n e
  -- the currents of this update, and the lead-warning estimate
  let iLoad := i - 200 * (s.f F.CL_COUT_COUT n : Rat) * ((ePrev - e : Int) : Rat) * (s.gDiv n : Rat)
    / (Nat.max 1 (s.f F.CL_CFG_UPER n) : Rat)
  let s := s.updCl n (fun c => { c with iLast := i, iSum := c.iSum + i, iLoad := iLoad, noKick := false })
  let ls := s.leadStep n e iLoad
  let s := ls.1.injStep n
  -- acc, u and its issue
  let c := s.cl.get n
  let sum := c.acc.toInt + s.f F.CL_GAIN_KI n * e + ls.2
  let acc := BitVec.ofInt 48 sum
  let wrapped := acc.toInt ≠ sum
  let u : Rat := (s.loopGain n e * e : Int) / (256 : Rat) + ((s.f F.CL_GAIN_KD n : Int) * (e - ePrev) : Int) / (16 : Rat)
    + (acc.toInt : Rat) / (2 ^ 20 : Nat) + ((c.lw + c.injI : Int) : Rat)
  let u := clampI (s.uLo n) (s.uHi n) (roundAway u)
  let s := (s.setS F.CL_IOUT_U n u).updCl n (fun c => { c with acc := acc, ePrev := e, lwAdder := 0 })
  let s := s.when wrapped (fun s => (s.setB F.CL_LSTAT_WRAP n true).disturb n)
  let s := s.when (u == s.uHi n) (fun s => (s.setB F.CL_LSTAT_CLAMPH n true).disturb n)
  let s := s.when (u == s.uLo n) (fun s => (s.setB F.CL_LSTAT_CLAMPL n true).disturb n)
  let s := s.updatePhases n e ePrev
  -- telemetry's base sample, with the reference that e was taken against
  let g : Rat := s.gDiv n
  let v : Rat := if er.2 then (coarse.toNat : Rat) * 1600 * g
    else (((vref : Int) - s.fS F.CL_TRIM_TARGET n : Int) * 25 - (e : Rat) * 50) * g
  let s := (s.telBase n v i).phaseBase n
  -- vramp, the outer loops and the set-point step
  let s := (s.advanceRamp n).outerLoops n vref
  let c := s.cl.get n
  let vr := clampI 0 65535
    (roundAway ((c.vramp : Rat) / 65536) + s.fS F.CL_TRIM_TRIM n - c.llDrop - (c.capDrop : Int) + c.injV)
  let s := (s.setF F.CL_VSTAT_VREFEFF n vr.toNat).respond n e vr.toNat u i
  let s := s.writeCheckpoint n
  if (s.cl.get n).run = .softStop && (s.cl.get n).vramp = 0 then s.clOff n else s

/-- LOOP_UPDATE: the latest fine codes and the latest coarse code.  While the cluster does not switch, its update instants
continue unused: the checkpoint's SEQ counts, and telemetry takes the coarse path (R124, R165, R188). -/
def execLoopUpdate (n : Fin 16) (fine : List (BitVec 12)) (coarse : BitVec 10) (s : State) :
    Host.Outcome State Fault Refusal :=
  if !(s.cl.get n).ticking || !s.engineOk n then .next s
  else if s.switching n then .next (s.loopStep n fine coarse)
  else
    let s := (s.telBase n ((coarse.toNat : Rat) * 1600 * (s.gDiv n : Rat)) (s.iSumNow n)).phaseBase n
    .next (s.writeCheckpoint n)

/-! ### VSET_WRITE (R134) -/

/-- The range of S for a cluster's kind and gain. -/
def State.vsetOk (s : State) (n : Fin 16) (v : Nat) : Bool :=
  decide (10000 ≤ v) && (match s.f F.CL_CFG_SGAIN n with
    | 0 => decide (v ≤ 64000)
    | 1 => decide (v ≤ 65000)
    | _ => decide (v ≤ 65535))

/-! ### Lead warnings (R141, R142) -/

/-- The class of a pulse of `w` LOOP cycles of 2.5 ns: 0 for a glitch, 8 for an invalid one. -/
def leadClass (w : Nat) : Nat := if w < 4 then 0 else if 60 ≤ w then 8 else (w + 4) / 8

/-- The cluster that a LEAD pin is assigned to (R140). -/
def State.leadCluster (s : State) (pin : Fin 4) : Option (Fin 16) :=
  clusters.find? (fun n => s.fBit F.CL_LEAD_PINS n pin)

/-- A decoded class is acted on: lw goes to the reference adder, the window opens, every phase is brought on. -/
def State.leadAct (s : State) (n : Fin 16) (pin : Fin 4) (cls : Nat) : State :=
  let c := s.cl.get n
  let cfg : Nat × Nat × Nat := (s.f F.CL_LEAD_LWSTEP n, s.f F.CL_LEAD_LWWIN n, s.f F.CL_LEAD2_LWABORT n)
  let new : Int := (cls * cfg.1 * 100 : Nat)
  let fresh := decide (c.lw = 0) || decide (s.f F.CL_LEADSTAT_CLASS n < cls)
  let lw := if fresh then new else c.lw
  let used := if fresh then cfg else c.lwCfg.getD cfg
  let s := s.updCl n (fun c => { c with
    lw := lw, lwAdder := c.lwAdder + (lw - c.lw), lwCfg := some used, lwWin := used.2.1 * 40, lwRamp := 0
    lwRef := c.iLoad, lwPin := pin.val, lwNew := true })
  let s := (s.setF F.CL_LEADSTAT_CLASS n cls).setB F.CL_LEADSTAT_ACTIVE n (lw != 0)
  (s.disturb n).allPhases n

/-- LEAD_WARNING_PULSE: on an assigned pin, of `w` LOOP cycles.  Ignored while the cluster is off or in soft start, and on a
suspended pin (R149). -/
def execLeadWarningPulse (pin : Fin 4) (w : BitVec 16) (s : State) : Host.Outcome State Fault Refusal :=
  match s.leadCluster pin with
  | none => .next s
  | some n =>
    let run := (s.cl.get n).run
    if !(run == .on || run == .softStop) || (s.cl.get n).suspMask.getLsbD pin then .next s
    else match leadClass w.toNat with
      | 0 => .next s
      | 8 => .next (s.setB F.CL_LEADSTAT_INVALID n true)
      | c => .next (s.leadAct n pin c)

/-- LEAD_SUSPEND_CLEAR: a host's 1 to SUSP ends the suspension; the runs of false warnings begin anew. -/
def leadSuspendClear (n : Fin 16) (s : State) : State × Nat :=
  ((s.setB F.CL_LEADSTAT_SUSP n false).updCl n (fun c => { c with suspMask := 0, falseRun := Vector.replicate 4 0 }), Code.ok)

/-! ### INJECTION_ENABLE (R146 to R148) -/

/-- Every parameter of the injection lies in its range: AMP for its point; for a sine its frequency and NCYC; for a PRBS
its length and chip. -/
def State.injRangeOk (s : State) (n : Fin 16) (v : Word) : Bool :=
  let amp := s.f F.CL_INJAMP_AMP n
  let fw := (s.reg (F.CL_INJFREQ_FW.addr n)).toNat
  let uper := s.f F.CL_CFG_UPER n
  let ampOk := decide (1 ≤ amp) && (F.CL_INJ_POINT.get v = 1 || decide (amp ≤ 1024))
  if F.CL_INJ_MODE.get v = 1 then
    ampOk && decide (9 ≤ F.CL_INJ_PRBSLEN.get v) && decide (1 ≤ F.CL_INJ_CHIP.get v)
  else
    ampOk && decide (1 ≤ s.f F.CL_INJAMP_NCYC n) && decide (100 * 2 ^ 32 * uper ≤ fw * 400000000)
      && decide (fw * 400000000 ≤ 1000000 * 2 ^ 32 * uper) && decide (fw ≤ 2 ^ 30)

/-- The fields of CLn_INJ that a write sets beside EN: MODE to SIGB; 1 clears ABORT and DISTURB. -/
def State.injFields (s : State) (n : Fin 16) (v : Word) : State :=
  let old := s.reg (F.CL_INJ_EN.addr n)
  let w := (old &&& ~~~(0x7FFFE#32)) ||| (v &&& 0x7FFFE#32)
  s.setReg (F.CL_INJ_EN.addr n) (w &&& ~~~(v &&& 0x300000#32))

/-- A write of CLn_INJ: setting EN claims the diagnostic partition and starts; what does not allow it leaves EN at 0 and
applies nothing; clearing EN ends the injection. -/
def injWrite (n : Fin 16) (v : Word) (s : State) : State × Nat :=
  let on := s.fB F.CL_INJ_EN n
  if F.CL_INJ_EN.get v = 0 then ((if on then s.injEnd n else s).injFields n v, Code.ok)
  else if on then (s.injFields n v, Code.ok)
  else if s.owner 4 2 ≠ 0 then (s.resBusy 4 2, Code.resBusy)
  else if s.dev ≠ .run || (s.cl.get n).run ≠ .on || !s.fB F.CL_VSTAT_SSDONE n then (s, Code.state)
  else if !s.injRangeOk n v then (s, Code.range)
  else
    let s := (s.claim 4 2 9).injFields n v
    let s := ((s.setB F.CL_INJ_EN n true).setB F.CL_INJ_DONE n false).setF F.CAP_DIAG_WIDX 0 0
    ((s.setB F.CAP_DIAG_WRAP 0 false).updCl n (fun c => { c with
      injPhase := 0, injStarted := false, injPer := 0, prbs := 2 ^ F.CL_INJ_PRBSLEN.get v - 1, chip := 0
      resA := (0, 0), resB := (0, 0) }), Code.ok)

end Sys2Proof.Machine
end

