-- ==== Sys2Proof/Machine/Checks.lean ====
section
/-! DEFINITION. The checks of BOOT's steps 7 and 8 and of a commit (03_start_and_configuration_image.md R65, R71, R418; R351), over a
state that holds the values to be checked. -/

namespace Sys2Proof.Machine

/-! ### Units in use (R418) -/

/-- A cluster that owns at least one phase in use. -/
def State.clInUse (s : State) (n : Nat) : Bool := s.nCfg (Fin.ofNat 16 n) != 0

/-- The unit that a word belongs to is in use; words of no unit always count. -/
def State.inUse (s : State) (a : Nat) : Bool :=
  if 0x110 ≤ a && a < 0x120 then s.clInUse (a - 0x110)
  else if 0x400 ≤ a && a < 0xA00 then s.fB F.PH_CFG_USED ((a - 0x400) / 0x20)
  else if 0x1000 ≤ a && a < 0x2000 then s.clInUse ((a - 0x1000) / 0x100)
  else if 0x2100 ≤ a && a < 0x2200 then s.f F.RG_CFG_CLMASK ((a - 0x2100) / 0x40) != 0
  else if 0x2210 ≤ a && a < 0x2230 then decide (a - 0x2210 < s.f F.SEQ_CFG_NSTEP)
  else if 0x2400 ≤ a && a < 0x2460 then s.fB F.FEED_CFG_EN ((a - 0x2400) / 0x20)
  else if 0x2600 ≤ a && a < 0x2780 then s.fB F.BAT_CFG_EN ((a - 0x2600) / 0x40)
  else if 0x2810 ≤ a && a < 0x2814 then s.fB F.THR_CFG_EN (a - 0x2810)
  else if 0x2A00 ≤ a && a < 0x2B00 then s.owner 2 ((a - 0x2A00) / 8) != 0
  else if 0x2D00 ≤ a && a < 0x2E00 then s.owner 3 ((a - 0x2D00) / 4) != 0
  else if 0x3000 ≤ a && a < 0x3020 then s.fB F.FLD_CFG_EN ((a - 0x3000) / 0x10)
  else if 0x3040 ≤ a && a < 0x3070 then s.fB F.RKM_CFG_EN ((a - 0x3040) / 4)
  else if 0x3100 ≤ a && a < 0x3108 then s.fB F.LNK_CFG_EN 0
  else if 0x4000 ≤ a && a < 0x5000 then s.clInUse ((a - 0x4000) / 0x100)
  else if 0x5000 ≤ a && a < 0x5600 then s.fB F.BAT_CFG_EN ((a - 0x5000) / 0x100)
  else true

/-- A field that the image's register defaults supply (R73, R406): one whose Reset column says so, or one that a host write
stores. -/
def FieldRow.fromImage (r : FieldRow) : Bool := r.image || r.acc.stored

/-- Every field that the image supplies lies within its range. -/
def imageInRange (a : Nat) (v : Word) : Bool :=
  (regFields a).all (fun r => !r.fromImage || (decide (r.mn ≤ r.fld.get v) && decide (r.fld.get v ≤ r.mx)))

/-! ### Range and cross-field checks -/

/-- A check: the words it reads, whether it is a cross-field check (R340), and whether it holds. -/
structure Check where
  addrs : List Nat
  cross : Bool
  ok : Bool
  deriving Repr

/-- A signed 16-bit word of a table. -/
def State.word16 (s : State) (a : Nat) : Int := toSigned 16 ((s.reg a).toNat % 65536)

/-- The words of a phase's checks: R109, the unique ORDER, and the two of R116. -/
def State.phaseChecks (s : State) (p : Fin 48) : List Check :=
  let a := F.PH_CFG_USED.addr p
  if !s.fB F.PH_CFG_USED p then [] else
  [⟨[a, F.DEV_IREF_EN.addr (s.f F.PH_CFG_IREFSEL p)], true, s.fB F.DEV_IREF_EN (s.f F.PH_CFG_IREFSEL p)⟩,
   ⟨[a], true, phases.all (fun (q : Fin 48) => q == p || !s.fB F.PH_CFG_USED q || s.f F.PH_CFG_CLUSTER q != s.f F.PH_CFG_CLUSTER p
      || s.f F.PH_CFG_ORDER q != s.f F.PH_CFG_ORDER p)⟩,
   ⟨[F.PH_LIMIT_IPEAK.addr p, F.PH_FOX_FOXTHR.addr p], true,
      decide (10 * s.f F.PH_LIMIT_IPEAK p ≤ 8 * s.f F.PH_FOX_FOXTHR p)⟩,
   ⟨[F.PH_GAIN_GCS.addr p, F.PH_FOX_FOXTHR.addr p], true,
      decide (s.f F.PH_GAIN_GCS p * s.f F.PH_FOX_FOXTHR p ≤ 17920000)⟩]

/-- The room of R133 between the bound and the wrap. -/
def State.boundRoom (s : State) (n : Fin 16) : Bool :=
  decide ((s.f F.CL_GCFG_BCNT n + ceilDiv 400 (s.f F.CL_CFG_UPER n)) * s.f F.CL_GAIN_KI n * 32767 * 1000
    + s.f F.CL_GCFG_BOUND n * 1000 * 2 ^ 20 ≤ 134217728 * 2 ^ 20)

/-- The cluster frequency that CLK_ALIGN asks for is the cluster's own, 800 MHz / PERIOD (R86). -/
def State.alignOk (s : State) (n : Fin 16) : Bool :=
  let k := s.f F.CLK_ALIGN_FACTOR n + 1
  let q := s.f F.CLK_CFG_SYNC_NOM 0 * 1000 * s.f F.CL_FSW_PERIOD n
  match s.f F.CLK_ALIGN_MODE n with
  | 0 => true
  | 1 => q * k == 800000000
  | _ => q == 800000000 * k

/-- The checks of a cluster in use. -/
def State.clusterChecks (s : State) (n : Fin 16) : List Check :=
  if !s.clInUse n then [] else
  let c := 0x1000 + 0x100 * n.val
  let fsw := c + 0x40
  let mp := s.f F.CL_FSW_MAXON n * s.f F.CL_FSW_PERIOD n
  [⟨[c], true, (s.f F.CL_CFG_KIND n == 1) == (s.f F.CL_CFG_SGAIN n == 2)⟩,
   ⟨[c, fsw], true, !s.fB F.CL_FSW_DIRECT n || s.isHv n⟩,
   ⟨[c, c + 1], false, s.vsetOk n (s.f F.CL_VSET_S n)⟩,
   ⟨[fsw], true, decide (mp + 256 * s.f F.CL_FSW_MINOFF n ≤ 256 * s.f F.CL_FSW_PERIOD n) && decide (3072 ≤ mp)⟩,
   ⟨[0x100, 0x110 + n.val, fsw], true, s.alignOk n⟩,
   ⟨[c, c + 8, c + 9], true, !s.fB F.CL_GCFG_BEN n || s.boundRoom n⟩,
   ⟨[c + 0xA], true, decide (s.fS F.CL_IRLIM_IRMIN n < (s.f F.CL_IRLIM_IRMAX n : Int))⟩,
   ⟨[c + 0x20], true, decide (s.f F.CL_PHCNT_IDROP n < s.f F.CL_PHCNT_IADD n)⟩,
   ⟨[c, c + 0x22, fsw], true, !s.fB F.CL_BAL_ROT n
      || (!s.fB F.CL_FSW_DIRECT n && !s.isHv n && s.f F.CL_BAL_KBAL n == 0)⟩,
   ⟨[c + 0x60, c + 0x61], true, decide (s.f F.CL_WIN_VOFF n < s.f F.CL_WIN_UV n) && decide (s.f F.CL_WIN_UV n < s.f F.CL_WIN_OV n)
      && decide (s.f F.CL_WIN_OV n ≤ s.f F.CL_WFLT_FOV n)⟩,
   ⟨[c + 0x70], true, decide (s.f F.CL_THCFG_THTHR n < s.f F.CL_THCFG_THSD n)
      && decide (s.f F.CL_THCFG_TREARM n < s.f F.CL_THCFG_THTHR n)⟩]

/-- The checks of a feed in use: FEEDf_WIN, and R208. -/
def State.feedChecks (s : State) (f : Fin 3) : List Check :=
  if !s.fB F.FEED_CFG_EN f then [] else
  [⟨[F.FEED_WIN_UVF.addr f], true, decide (s.f F.FEED_WIN_UVF f < s.f F.FEED_WIN_UVR f)
      && decide (s.f F.FEED_WIN_UVR f < s.f F.FEED_WIN_OV f)⟩,
   ⟨[F.FEED_CFG_ILIM.addr f, F.FEED_TCFG_RSH.addr f], true,
      decide (s.f F.FEED_CFG_FOXMUL f * s.f F.FEED_CFG_ILIM f * s.f F.FEED_TCFG_RSH f ≤ 64000000)⟩]

/-- INP_PRIO names each feed exactly once (R203). -/
def State.prioOk (s : State) : Bool :=
  (List.range 3).all (fun (f : Nat) => [s.f F.INP_PRIO_P0, s.f F.INP_PRIO_P1, s.f F.INP_PRIO_P2].contains f)

/-- A list that does not rise. -/
def notRising : List Nat → Bool
  | a :: b :: l => decide (b ≤ a) && notRising (b :: l)
  | _ => true

/-- A list that rises strictly. -/
def rising : List Int → Bool
  | a :: b :: l => decide (a < b) && rising (b :: l)
  | _ => true

/-- The thresholds of the bus ladder fall with k (R215). -/
def State.ladderOk (s : State) : Bool :=
  notRising ((List.range 5).map (fun (k : Nat) => s.f F.INP_LAD_VTHR k))
    && notRising (((List.range 5).map (fun (k : Nat) => s.f F.INP_LAD_ETHR k)).filter (· != 0))

/-- An HV cluster whose region has a downstream region (R273). -/
def State.hvAbove (s : State) (n : Fin 16) : Bool := s.isHv n && !(s.downOf n).isEmpty

/-- The table of R224: temperatures rise strictly, and no row falls. -/
def State.ocvOk (s : State) (i : Nat) : Bool :=
  rising ((List.range 5).map (fun (t : Nat) => s.word16 (0x5000 + 0x100 * i + t)))
    && (List.range 5).all (fun (t : Nat) =>
      notRising ((List.range 33).map (fun (j : Nat) => (s.reg (0x5008 + 0x100 * i + 33 * t + j)).toNat % 65536)).reverse)

/-- The checks of a battery instance in use (BATi_VLIM, R224, R226, R246). -/
def State.batChecks (s : State) (i : Fin 6) : List Check :=
  if !s.fB F.BAT_CFG_EN i then [] else
  let b := 0x2600 + 0x40 * i.val
  [⟨[b], true, s.shelf || i.val == 0⟩,
   ⟨[b + 1], true, decide (s.f F.BAT_VLIM_VCUT i < s.f F.BAT_VLIM_VEMPTY i)⟩,
   ⟨[0x5000 + 0x100 * i.val], true, s.ocvOk i⟩,
   ⟨[b + 0x12], true, (List.range 5).all (fun (k : Nat) => f32Ok (s.reg (b + 0x12 + k)))
      && decide ((s.reg (b + 0x15)).toNat % 2 ^ 31 ≠ 0)⟩]

/-! ### The sequence program (R247) -/

/-- The clusters that a step's object names in the program's checks. -/
def State.progClusters (s : State) (k : Nat) : List (Fin 16) :=
  if s.f F.SEQ_STEP_OBJ k = 1 then [Fin.ofNat 16 (s.f F.SEQ_STEP_INDEX k)]
  else if s.f F.SEQ_STEP_OBJ k = 2 then (s.rgClusters (s.f F.SEQ_STEP_INDEX k)).filter (fun n => s.clInUse n) else []

/-- The step that names a cluster. -/
def State.progStep (s : State) (n : Fin 16) : Option Nat :=
  (List.range (s.f F.SEQ_CFG_NSTEP)).find? (fun k => (s.progClusters k).contains n)

/-- A PGIN ball that a step waits on is listed with owner 0x02. -/
def State.pginOk (s : State) (k : Nat) : Bool := s.owner 1 (216 + k % 8) == 2

/-- The rules of one step below NSTEP. -/
def State.stepOk (s : State) (k : Nat) : Bool :=
  match s.f F.SEQ_STEP_OBJ k with
  | 1 => true
  | 2 => decide (s.f F.SEQ_STEP_INDEX k < 4)
  | 3 => decide (s.f F.SEQ_STEP_INDEX k < 8) && (!s.fB F.SEQ_STEP_PGW k || s.pginOk (s.f F.SEQ_STEP_PGSEL k))
  | 4 => decide (s.f F.SEQ_STEP_INDEX k < 8) && s.pginOk (s.f F.SEQ_STEP_INDEX k)
  | 5 => true
  | _ => false

/-- The step that starts the HV cluster a cluster's region is fed from comes before the cluster's own (R247). -/
def State.fedFirst (s : State) (n : Fin 16) : Bool :=
  match s.region n, s.progStep n with
  | some x, some k =>
    let up := s.f F.RG_CFG_UPSRC x
    16 ≤ up || (match s.progStep (Fin.ofNat 16 up) with | some j => decide (j < k) | none => false)
  | _, _ => true

def State.programOk (s : State) : Bool :=
  let ks := List.range (s.f F.SEQ_CFG_NSTEP)
  ks.all (fun k => s.stepOk k)
    && clusters.all (fun (n : Fin 16) => !s.clInUse n || ((ks.filter (fun k => (s.progClusters k).contains n)).length == 1 && s.fedFirst n))

/-! ### The whole list -/

/-- A rotation cluster in use; no more than four (R156). -/
def State.rotOk (s : State) : Bool :=
  decide ((clusters.filter (fun (n : Fin 16) => s.clInUse n && s.fB F.CL_BAL_ROT n)).length ≤ 4)

/-- Every cross-field and whole-setting check, over the values a state holds. -/
def State.checks (s : State) : List Check :=
  phases.flatMap s.phaseChecks ++ clusters.flatMap s.clusterChecks ++ feeds3.flatMap s.feedChecks
    ++ (List.finRange 6).flatMap s.batChecks
    ++ ((List.range 12).filter (fun (k : Nat) => s.fB F.RKM_CFG_EN k)).map (fun (k : Nat) =>
      ⟨[F.RKM_CFG_PGSRC.addr k], false, decide (s.f F.RKM_CFG_PGSRC k < 12)⟩)
    ++ [⟨(List.range 16).map (fun (n : Nat) => F.CL_BAL_ROT.addr n), true, s.rotOk⟩,
        ⟨[0x2460], false, s.prioOk⟩,
        ⟨(List.range 5).map (fun (k : Nat) => 0x2466 + k), true, s.ladderOk⟩,
        ⟨[0x246B], true, clusters.all (fun (n : Fin 16) => !s.fBit F.INP_LADCFG_SHEDMASK 0 n || !s.hvAbove n)⟩,
        ⟨[0x3100], true, !s.fB F.LNK_CFG_EN 0 || !s.fB F.LNK_CFG_MCAP 0 || s.shelf⟩,
        ⟨0x2200 :: (List.range 32).map (fun (k : Nat) => 0x2210 + k), true, s.programOk⟩]

/-- The refusal that a set of changed words meets (R348, R351): a range, with the word that fails, or a check, with the lowest
word that it reads. -/
def State.checkChanged (s : State) (changed : List Nat) : Option (Nat × Nat) :=
  match changed.find? (fun a => s.inUse a && !inRange a (s.reg a)) with
  | some a => some (Code.range, a)
  | none =>
    match s.checks.find? (fun c => !c.ok && c.addrs.any changed.contains) with
    | some c => some (if c.cross then Code.xfield else Code.range, c.addrs.foldl Nat.min (c.addrs.headD 0))
    | none => none

/-! ### The tables of an image (R62, R120, R270, R273, R361, R362) -/

/-- A reserved slot of the fault-source numbering (R268, R300, R326, R376, R401). -/
def reservedSrc (k : Nat) : Bool :=
  (0x20A ≤ k && k < 0x220) || (0x231 ≤ k && k < 0x240)
    || (0x240 ≤ k && k < 0x258 && 6 ≤ k % 8) || (0x25C ≤ k && k < 0x260)
    || (0x260 ≤ k && k < 0x290 && k % 8 == 7) || (0x29E ≤ k && k < 0x2A0)
    || (0x2A4 ≤ k && k < 0x2A8) || (0x2AC ≤ k && k < 0x2B0) || (0x2B8 ≤ k && k < 0x2C0) || (0x2C3 ≤ k && k < 0x2C8)
    || (0x2CE ≤ k && k < 0x2D0) || 0x2D6 ≤ k

/-- The cluster that a source belongs to: the window, loop, thermal and engine sources. -/
def srcCluster (k : Nat) : Option (Fin 16) :=
  if (0x120 ≤ k && k < 0x200) || (0x220 ≤ k && k < 0x230) then some (Fin.ofNat 16 k) else none

/-- The reaction set of a source passes R120 and R273. -/
def State.reactOk (s : State) (k : Nat) : Bool :=
  let a := 0x5800 + k
  (!reservedSrc k || s.reg a == 0)
    && (match srcCluster k with
      | some n => !(F.REACT_SHED.get (s.reg a) == 1 && F.REACT_PKG.get (s.reg a) == 0 && s.hvAbove n)
      | none => true)
    && (!(0x150 ≤ k && k < 0x160) ||
      (let n : Fin 16 := Fin.ofNat 16 k
       !s.clInUse n || s.isHv n
        || (match s.region n with | some x => decide (16 ≤ s.f F.RG_CFG_UPSRC x) | none => true)
        || F.REACT_SEQOFF.get (s.reg a) == 1 || F.REACT_SAFE.get (s.reg a) == 1))

/-- The bits of a window word that the image supplies. -/
def imageBits (a : Nat) : Word := (regFields a).foldl (fun w r => if r.image then w ||| r.fld.mask else w) 0

/-- The windows that R408 lists. -/
def windowListed (w : Nat) : Bool := w ≤ 21 || (24 ≤ w && w ≤ 32)

/-- A window of the image: listed, and no bit outside the fields the image supplies. -/
def windowOk (w : Nat × List Word) : Bool :=
  windowListed w.1 && (w.2.zip (List.range 256)).all (fun p => p.1 &&& ~~~(imageBits (0x4000 + 0x100 * w.1 + p.2)) == 0)

/-- The bits of a register that some field holds. -/
def fieldBits (a : Nat) : Word := (regFields a).foldl (fun w r => w ||| r.fld.mask) 0

/-- A register-defaults entry names a register and sets no RSVD bit (R418). -/
def defaultOk (p : Nat × Word) : Bool := (regRow p.1).isSome && p.2 &&& ~~~(fieldBits p.1) == 0

/-! ### Poll lists (R361, R362) -/

/-- The cells or sensors an entry carries. -/
def State.pollCells (s : State) (b : Fin 2) (e : Nat) : List Nat :=
  (List.range (s.poll b F.POLL1_B_COUNT e / 2)).map (· + s.poll b F.POLL1_B_FIRST e)

/-- The rules of one enabled entry: KIND against PROTO and the role, its counts, its instance. -/
def State.pollOk (s : State) (b : Fin 2) (e : Nat) : Bool :=
  if s.poll b F.POLL1_A_EN e = 0 then true else
  let kind := s.poll b F.POLL1_A_KIND e
  let proto := s.poll b F.POLL1_A_PROTO e
  let count := s.poll b F.POLL1_B_COUNT e
  let inst := s.poll b F.POLL1_B_INST e
  let first := s.poll b F.POLL1_B_FIRST e
  (match kind with
    | 0 => decide (proto ≤ 4)
    | 1 | 2 => proto == 2 && count % 2 == 0 && inst < 6
    | 3 => proto == 2 && inst < 6
    | 4 => proto == 1 && !s.shelf
    | 5 => proto == 1
    | 6 | 7 | 8 => proto == 1 && s.shelf && inst < 12
    | 9 | 10 | 11 => proto == 1 && s.shelf && inst < 6
    | 12 => proto == 3 && s.shelf && inst < 6
    | 13 => proto == 4 && s.shelf && inst < 12
    | _ => false)
  && (proto != 2 || (1 ≤ count && count ≤ 32))
  && (kind != 3 || count == 4)
  && (kind == 1 || kind == 2 || first == 0)
  && (kind != 2 || first + count / 2 ≤ 24)

/-- The kind 0x1 entries of an instance carry cells 0 to NCELL - 1, each exactly once; an instance with none carries no
cell. -/
def State.cellsOk (s : State) (i : Nat) : Bool :=
  let cells := (List.finRange 2).flatMap (fun b => (List.range 64).flatMap (fun e =>
    if s.poll b F.POLL1_A_EN e = 1 && s.poll b F.POLL1_A_KIND e = 1 && s.poll b F.POLL1_B_INST e = i then s.pollCells b e else []))
  cells.isEmpty || (cells.length == s.f F.BAT_CFG_NCELL i && (List.range (s.f F.BAT_CFG_NCELL i)).all cells.contains)

def State.pollsOk (s : State) : Bool :=
  (List.finRange 2).all (fun b => !s.fB F.FLD_CFG_EN b || (List.range 64).all (fun e => s.pollOk b e))
    && (List.range 6).all (fun i => !s.fB F.BAT_CFG_EN i || s.cellsOk i)

/-! ### Ownership and topology (R65 step 7) -/

/-- A ball that can be assigned (R71): EXT, PGIN, THR, LEAD, SYNC_IN, SYNC_OUT. -/
def assignable (i : Nat) : Bool := (208 ≤ i && i < 224) || (227 ≤ i && i < 231) || (234 ≤ i && i < 240)

/-- An entry of the ownership table in itself. -/
def ownOk (o : Own) : Bool :=
  o.owner ≤ 0x10 && (match o.cls with
    | 1 => assignable o.idx
    | 2 => decide (o.idx < 32)
    | 3 => decide (o.idx < 64)
    | 4 => decide (o.idx < 3)
    | 5 => decide (o.idx < 256)
    | 6 => o.idx == 0
    | _ => false)

/-- The ball that RKMk_CFG.PGSRC names: PGIN0 to PGIN7, then LEAD0 to LEAD3. -/
def pgBall (k : Nat) : Nat := if k < 8 then 216 + k else 226 + k

/-- What the register defaults and tables drive or program is listed with its feature (R71, R136, R140, R247, R295, R304, R361,
R374, LNK_CFG.EN). -/
def State.drivenOk (s : State) : Bool :=
  (List.range (s.f F.SEQ_CFG_NSTEP)).all (fun k => s.f F.SEQ_STEP_OBJ k != 3 || s.owner 1 (208 + s.f F.SEQ_STEP_INDEX k % 8) == 2)
    && clusters.all (fun (n : Fin 16) => !s.clInUse n || !s.fB F.CL_VSLEW_BLKEN n || s.owner 2 (s.f F.CL_VSLEW_BLKTM n) == 2)
    && (List.range 4).all (fun (k : Nat) =>
      let ns := clusters.filter (fun (n : Fin 16) => s.clInUse n && s.fBit F.CL_LEAD_PINS n k)
      ns.isEmpty || (ns.length == 1 && s.owner 1 (234 + k) == 0xF && ns.all (fun (n : Fin 16) => !s.fB F.CL_FSW_DIRECT n)))
    && (List.range 4).all (fun (k : Nat) => !s.fB F.THR_CFG_EN k || s.owner 1 (227 + k) == 5)
    && (List.range 64).all (fun (k : Nat) => s.owner 3 k == 0 || s.owner 3 k == 6 || s.owner 3 k == 8)
    && (List.range 64).all (fun (k : Nat) => s.f F.CH_CFG_MODE k == 0 || s.owner 3 k == 6 || s.owner 3 k == 8)
    && (List.range 32).all (fun (k : Nat) => !s.fB F.TM_CTRL_RUN k || s.owner 2 k != 0)
    && (!s.fB F.CAP_CFG_SEN 0 || s.owner 4 0 == 7)
    && (List.finRange 2).all (fun b => !s.fB F.FLD_CFG_EN b || (List.range 64).all (fun e =>
      s.poll b F.POLL1_A_EN e == 0 || s.owner 5 (128 * b.val + s.poll b F.POLL1_A_ADDR e) == 0xA + b.val))
    && (List.range 12).all (fun (k : Nat) => !s.fB F.RKM_CFG_EN k || s.owner 1 (pgBall (s.f F.RKM_CFG_PGSRC k)) == 0xC)
    && (!s.fB F.LNK_CFG_EN 0 || s.owner 6 0 == 0xC)
    && (!s.fB F.CLK_CFG_REFSEL 0 || s.owner 1 238 == 0xD)
    && (s.f F.CLK_CFG_SOSRC == 0 || s.owner 1 239 == 0xD)

/-- Step 7's first half: 0x0E. -/
def State.ownershipOk (s : State) (badOwn : Bool) : Bool :=
  !badOwn && s.img.own.all ownOk && allPairs (fun a b => !(a.cls == b.cls && a.idx == b.idx)) s.img.own
    && clusters.all (fun (n : Fin 16) => ((List.range 4).filter (fun (x : Nat) => s.fBit F.RG_CFG_CLMASK x n)).length ≤ 1)
    && s.drivenOk

/-- The region of the cluster that feeds a region. -/
def State.upRegion (s : State) (x : Fin 4) : Option (Fin 4) :=
  if s.f F.RG_CFG_UPSRC x < 16 then s.region (Fin.ofNat 16 (s.f F.RG_CFG_UPSRC x)) else none

/-- Following UPSRC from a region for `n` steps ends at a region that no cluster feeds. -/
def State.upEnds (s : State) : Nat → Fin 4 → Bool
  | 0, _ => false
  | n + 1, x => match s.upRegion x with | none => true | some y => State.upEnds s n y

/-- Step 7's second half: 0x0F. -/
def State.topologyOk (s : State) : Bool :=
  (List.finRange 4).all (fun (x : Fin 4) =>
    let up := s.f F.RG_CFG_UPSRC x
    s.f F.RG_CFG_CLMASK x == 0 || up == 0x10 || up == 0x11
      || (decide (up < 16) && (let n : Fin 16 := Fin.ofNat 16 up
          s.isHv n && s.clInUse n && (s.region n).isSome && !s.fBit F.RG_CFG_CLMASK x up && s.upEnds 5 x)))

/-! ### Steps 7 and 8 -/

/-- The first word addresses of the register blocks: every word that an index row names below the windows. -/
def blockAddrs : List Nat :=
  ((mapDev ++ mapClk ++ mapSupv ++ mapPh ++ mapCl1 ++ mapCl2 ++ mapCl3 ++ mapRgn ++ mapFeed ++ mapBat ++ mapThm ++ mapTm ++ mapCap
    ++ mapOwl ++ mapFld ++ mapHst).flatMap
    (fun r => (List.range r.count).flatMap (fun i => (List.range r.words).map (fun k => r.base + r.stride * i + k))))

/-- Step 8: 0x10. -/
def State.rangesOk (s : State) (im : Image) : Bool :=
  im.defaults.all defaultOk && im.windows.all windowOk
    && blockAddrs.all (fun a => !s.inUse a || imageInRange a (s.reg a))
    && s.checks.all (·.ok) && (List.range 768).all (fun k => s.reactOk k) && s.pollsOk

/-- The registers that the image's defaults and tables give, over the silicon reset values (R73). -/
def imageWord (a : Nat) (old v : Word) : Word :=
  (regFields a).foldl (fun w r => if r.fromImage then r.fld.insert w (r.fld.get v) else w) old

/-- A state whose registers hold an image's values and whose role, level and ownership are the image's: what the checks
read. -/
def State.candidate (s : State) (im : Image) : State :=
  let s := { s with
    regs := []
    img := { s.img with role := im.role, blevel := im.blevel, own := im.own, defaults := im.defaults, ovlHash := im.ovlHash, signer := im.signer } }
  let s := im.defaults.foldl (fun t p => if p.1 < 0x4000 then t.setReg p.1 (imageWord p.1 (t.reg p.1) p.2) else t) s
  im.windows.foldl (fun t w => (w.2.zip (List.range 256)).foldl (fun t p =>
    let a := 0x4000 + 0x100 * w.1 + p.2
    t.setReg a (imageWord a (t.reg a) p.1)) t) s

/-- Steps 7 and 8 on an image: the code, 0 for a pass. -/
def State.valuesCode (s : State) (im : Image) : Nat :=
  let c := s.candidate im
  if !c.ownershipOk im.badOwn then 0x0E
  else if !c.topologyOk then 0x0F
  else if !c.rangesOk im then 0x10
  else 0

end Sys2Proof.Machine
end

