-- ==== Sys2Proof/Machine/Overlay.lean ====
section
/-! DEFINITION. Calibration and overlay (03_start_and_configuration_image.md R73 to R77): BOOT's step 9, over a state whose registers
hold the image's values. -/

namespace Sys2Proof.Machine

/-! ### Calibration (R73, R181) -/

/-- The calibration area's value of a calibration register: PHn_CAL whole, KSCALE of CLn_KSCALE. -/
def State.layCalib (s : State) (p : Nat × Word) : State :=
  if 0x400 ≤ p.1 && p.1 < 0xA00 && p.1 % 0x20 = 0x11 then s.setReg p.1 p.2
  else if 0x1000 ≤ p.1 && p.1 < 0x2000 && p.1 % 0x100 = 0x59 then
    s.setReg p.1 (F.CL_KSCALE_KSCALE.insert (s.reg p.1) (F.CL_KSCALE_KSCALE.get p.2))
  else s

def State.layCalibs (s : State) : State := s.nvm.calib.foldl State.layCalib s

/-! ### Entries (R77) -/

/-- A register with an RWS field. -/
def isRws (a : Nat) : Bool := (regFields a).any (fun r => r.acc = .rws)

/-- A word with its RWS fields taken from another. -/
def mergeRws (a : Nat) (old v : Word) : Word :=
  (regFields a).foldl (fun w r => if r.acc = .rws then r.fld.insert w (r.fld.get v) else w) old

/-- The range check of a register as it stands. -/
def State.rangeOkAt (s : State) (a : Nat) : Bool :=
  !s.inUse a || (inRange a (s.reg a) && s.checks.all (fun c => c.cross || c.ok || !c.addrs.contains a))

/-- One overlay entry: applied, or skipped and counted. -/
def State.layEntry (s : State) (p : Nat × Word) : State :=
  let t := s.setReg p.1 (mergeRws p.1 (s.reg p.1) p.2)
  if isRws p.1 && t.rangeOkAt p.1 then t else s.incF F.IMG_OVLSTAT_SKIPCNT 0

/-! ### Migration (R76) -/

/-- A rule of a migration rule set. -/
structure MigRule where
  old : Nat
  new : Nat
  op : Nat
  arg : Nat
  mask : Word
  deriving DecidableEq, Repr

def parseRule (l : List Byte) : MigRule :=
  ⟨leNat (l.take 2), leNat ((l.drop 2).take 2), leNat ((l.drop 4).take 1), leNat ((l.drop 5).take 1),
   BitVec.ofNat 32 (leNat ((l.drop 8).take 4))⟩

/-- The rules of the first rule set of the migration block for a format and a hash; at most as many sets are looked at as the
first argument allows. -/
def ruleSet (fmt : Nat) (hash : BitVec 64) : Nat → List Byte → Option (List MigRule)
  | 0, _ => none
  | n + 1, l =>
    if l.length < 16 then none
    else
      let count := leNat ((l.drop 12).take 4)
      if leNat (l.take 2) = fmt && BitVec.ofNat 64 (leNat ((l.drop 4).take 8)) = hash then
        some ((List.range (Nat.min count (l.length / 12))).map (fun k => parseRule (l.drop (16 + 12 * k))))
      else ruleSet fmt hash n (l.drop (16 + 12 * count))

/-- The operation of a rule on an old value; none where it is dropped (log entry 58). -/
def MigRule.apply (r : MigRule) (v : Word) : Option Word :=
  match r.op with
  | 0 => some v
  | 2 => some (v <<< r.arg)
  | 3 => some (v.sshiftRight r.arg)
  | 4 => some (BitVec.ofInt 32 (roundAway ((v.toInt : Rat) * (r.arg : Rat) / 256)))
  | _ => none

/-- A bank's value of a register. -/
def Bank.val (b : Bank) (a : Nat) : Option Word := (b.entries.find? (fun p => p.1 = a)).map (·.2)

/-- The migrated entries: each rule's result merged into its new register under MASK, over the image's default. -/
def State.migrate (s : State) (b : Bank) (rules : List MigRule) : List (Nat × Word) :=
  rules.foldl (fun acc r =>
    match (b.val r.old).bind r.apply with
    | none => acc
    | some v =>
      let cur := ((acc.find? (fun p => p.1 = r.new)).map (·.2)).getD (s.reg r.new)
      let w := (cur &&& ~~~r.mask) ||| (v &&& r.mask)
      if acc.any (fun p => p.1 = r.new) then acc.map (fun p => if p.1 = r.new then (p.1, w) else p) else acc ++ [(r.new, w)]) []

/-! ### Choosing a bank (R75) -/

/-- What becomes of a bank under an image. -/
inductive BankUse where
  | direct | migrate (rules : List MigRule) | otherHash | newer
  deriving DecidableEq, Repr

def bankUse (im : Image) (b : Bank) : BankUse :=
  if im.ovlFmt < b.fmt.toNat then .newer
  else if b.fmt.toNat = im.ovlFmt then (if b.hash = im.ovlHash then .direct else .otherHash)
  else match ruleSet b.fmt.toNat b.hash 64 im.migr with
    | some r => .migrate r
    | none => .otherHash

/-- The valid banks in decreasing order of SEQ. -/
def State.bankOrder (s : State) : List (Fin 2 × Bank) :=
  match s.nvm.banks.get 0, s.nvm.banks.get 1 with
  | some a, some b => if a.seq < b.seq then [(1, b), (0, a)] else [(0, a), (1, b)]
  | some a, none => [(0, a)]
  | none, some b => [(1, b)]
  | none, none => []

/-- Laying a bank's entries over the image's values: the whole overlay is discarded where a check fails. -/
def State.layBank (s : State) (im : Image) (k : Fin 2) (b : Bank) (rules : Option (List MigRule)) : State :=
  let entries := match rules with | some r => s.migrate b r | none => b.entries
  let t := entries.foldl State.layEntry s
  let skip := t.f F.IMG_OVLSTAT_SKIPCNT
  if t.checks.all (·.ok) then
    let t := ((t.setF F.IMG_OVLSTAT_BANK 0 k).setB F.IMG_OVLSTAT_NONE 0 false).setReg 0x3305 b.seq
    if rules.isSome then
      let t := { t with img := { t.img with
        migrBank := some ⟨BitVec.ofNat 16 im.ovlFmt, b.seq + 1, im.ovlHash, entries⟩ } }
      (t.setB F.IMG_OVLSTAT_MIGRATED 0 true).setB F.IMG_OVLSTAT_MIGR_PEND 0 true
    else t
  else ((s.setF F.IMG_OVLSTAT_SKIPCNT 0 skip).setB F.IMG_OVLSTAT_OVL_XFAIL 0 true).setB F.IMG_OVLSTAT_NONE 0 true

/-- Examining the valid banks: the first that can be used is applied. -/
def State.useBanks (s : State) (im : Image) : List (Fin 2 × Bank) → State
  | [] => s.setB F.IMG_OVLSTAT_NONE 0 true
  | (k, b) :: l =>
    match bankUse im b with
    | .direct => s.layBank im k b none
    | .migrate r => s.layBank im k b (some r)
    | .otherHash => State.useBanks (s.setB F.IMG_OVLSTAT_OVL_HASH 0 true) im l
    | .newer => State.useBanks (s.setB F.IMG_OVLSTAT_OVL_NEWER 0 true) im l

/-- Step 9 of R65. -/
def State.layOverlay (s : State) (im : Image) : State :=
  let s := s.layCalibs
  let s := s.setB F.IMG_OVLSTAT_OVL_TORN 0 (s.nvm.torn != 0)
  s.useBanks im s.bankOrder

/-! ### OVERLAY_MIGRATION_WRITE (R77) -/

/-- Writing a bank (R74); it is then valid. -/
def State.putBank (s : State) (k : Fin 2) (b : Bank) : State :=
  { s with nvm := { s.nvm with banks := s.nvm.banks.set k (some b), torn := BitVec.ofNat 2 (setBitN s.nvm.torn.toNat k false) } }

/-- A store that a loss of power, a reset or stage L2 cuts short leaves its bank torn (R356). -/
def NvmSt.dropStore (n : NvmSt) : NvmSt :=
  match n.storing with
  | some (k, _) => { n with storing := none, banks := n.banks.set k none, torn := BitVec.ofNat 2 (setBitN n.torn.toNat k true) }
  | none => n

/-- The migrated overlay goes to the bank beside its source. -/
def execOverlayMigrationWrite (s : State) : Host.Outcome State Fault Refusal :=
  match s.img.migrBank with
  | none => .next s
  | some b =>
    if s.fB F.IMG_OVLSTAT_MIGR_PEND && s.dev != .boot && s.nvmOpen then
      let s := s.putBank (if s.f F.IMG_OVLSTAT_BANK = 0 then 1 else 0) b
      .next ({ s with img := { s.img with migrBank := none } }.setB F.IMG_OVLSTAT_MIGR_PEND 0 false)
    else .next s

end Sys2Proof.Machine
end

