-- ==== Sys2Proof/Machine/OwlOps.lean ====
section
/-! DEFINITION. Triggering a snapshot (R389), which the first-fault record, the host and nothing else do. -/

namespace Sys2Proof.Machine

/-- A channel owned by the snapshots is running (R389). -/
def State.snapChannel (s : State) : Bool :=
  (List.finRange 64).any (fun k => s.owner 3 k == 8 && s.fB F.CH_STAT_RUN k)

/-- A trigger is lost and counted: no channel, a snapshot already being taken, every slot in use, or a clear
running (R389, R402). -/
def State.snapRefused (s : State) : Bool :=
  !s.snapChannel || s.fB F.OWL_SNAPST_BUSY || 32 ≤ s.f F.OWL_SNAPST_USED || s.fB F.OWL_STAT_CLRBUSY

/-- A snapshot trigger (R389): 1 first fault, 2 host. -/
def State.snapTrigger (s : State) (trig : Nat) : State :=
  if s.snapRefused then s.incF F.OWL_LOST_SNAPS 0
  else
    let s := s.setB F.OWL_SNAPST_BUSY 0 true
    { s with owl := { s.owl with snapTrig := some trig, snapFrozen := false, snapAt := (s.nowUs, s.clk.tmr) } }

end Sys2Proof.Machine
end

