-- ==== Sys2Proof/Machine/Owl.lean ====
section
/-! DEFINITION. The Owl recorder (17_recorder_and_update.md R379 to R393): the NVM event log, snapshots and the authorised
clear. -/

namespace Sys2Proof.Machine

/-! ### Event records in NVM (R383 to R387) -/

/-- The 16 words of a record. -/
def OwlRec.words (r : OwlRec) : List Word :=
  let p := r.payload.take 10
  let w : List Word := [BitVec.ofNat 32 (r.type % 256 + 256 * p.length), r.seq, r.ms.setWidth 32,
    BitVec.ofNat 32 (r.ms.toNat / 2 ^ 32 + 65536 * (r.us % 1024)), r.pcyc] ++ p ++ List.replicate (10 - p.length) 0
  w ++ [crcWords w]

/-- What an event slot holds; none where it is free. -/
def State.owlSlot (s : State) (k : Nat) : Option OwlSlot := (s.owl.slots.find? (fun p => p.1 = k)).map (·.2)

/-- Writing an event slot. -/
def State.putSlot (s : State) (k : Nat) (v : OwlSlot) : State :=
  { s with owl := { s.owl with slots := s.owl.slots.filter (fun p => p.1 != k) ++ [(k, v)] } }

/-- The overflow record of R386, in slot 4,095; it takes a SEQ of its own. -/
def State.overflowRecord (s : State) : State :=
  let ms := (s.owl.firstLost.getD 0).toNat
  let r : OwlRec := ⟨0x0B, s.reg 0x2E02, s.clk.ms, s.clk.us, s.nvm.timeSlot.2,
    [item (s.f F.OWL_LOST_EVENTS), item (ms % 2 ^ 32), item (ms / 2 ^ 32), item (s.f F.OWL_LOST_SNAPS)]⟩
  let s := ((s.putSlot 4095 (.words r.words)).setReg 0x2E02 (s.reg 0x2E02 + 1)).setB F.OWL_STAT_OVFW 0 true
  { s with owl := { s.owl with ovfChanged := false } }

/-- A record is lost to fullness: the first loss raises OWL_FULL and writes the overflow record (R386). -/
def State.lostFull (s : State) : State :=
  let s := s.incF F.OWL_LOST_EVENTS 0
  let s := { s with owl := { s.owl with ovfChanged := true } }
  if s.owl.firstLost.isSome then s
  else (({ s with owl := { s.owl with firstLost := some s.clk.ms } }).raise Src.owlFull).overflowRecord

/-- The slot that a write takes becomes used; the log is full once slots 0 to 4,094 are. -/
def State.advanceNext (s : State) : State :=
  let n := s.f F.OWL_STAT_NEXT + 1
  (s.setF F.OWL_STAT_NEXT 0 n).setB F.OWL_STAT_FULL 0 (4095 ≤ n)

/-- One try at writing a record: its read-back passes, or the slot is marked bad. -/
def State.tryRecord (s : State) (r : OwlRec) (fails : Bool) : State × Bool :=
  if s.fB F.OWL_STAT_FULL then (s.lostFull, true)
  else
    let k := s.f F.OWL_STAT_NEXT
    if fails then (((s.putSlot k .bad).advanceNext).raise Src.nvmWfail, false)
    else ((s.putSlot k (.words r.words)).advanceNext, true)

/-- RECORD_NVM_WRITE: the oldest staged record; which of its at most two tries fail their read-back (R387).  It waits while a
clear runs (R392), and nothing is written past stage L4 (R26). -/
def execRecordNvmWrite (fail1 fail2 : Bool) (s : State) : Host.Outcome State Fault Refusal :=
  if !s.nvmOpen || s.fB F.OWL_STAT_CLRBUSY then .next s
  else match s.owl.staging with
    | [] => .next s
    | r :: rest =>
      let s := { s with owl := { s.owl with staging := rest } }
      let t := s.tryRecord r fail1
      let s := if t.2 then t.1 else (t.1.tryRecord r fail2).1
      .next s.evalHdone

/-- OVERFLOW_RECORD_REWRITE: an hour has passed and the count has changed. -/
def execOverflowRecordRewrite (s : State) : Host.Outcome State Fault Refusal :=
  .next (s.when (s.nvmOpen && s.fB F.OWL_STAT_OVFW && s.owl.ovfChanged) State.overflowRecord)

/-- Writing a time slot (R379). -/
def State.writeTimeSlot (s : State) : State :=
  s.when s.nvmOpen (fun s => { s with nvm := { s.nvm with timeSlot := (s.clk.ms, s.nvm.timeSlot.2) } })

/-- TIME_SLOT_WRITE: every 6 minutes of operating time. -/
def execTimeSlotWrite (s : State) : Host.Outcome State Fault Refusal := .next s.writeTimeSlot

/-! ### Reading the log (R388) -/

/-- Sixteen free words: what a torn slot reads. -/
def State.drawWords (s : State) : Nat → State × List Word
  | 0 => (s, [])
  | n + 1 =>
    let r := s.draw
    let t := State.drawWords r.2 n
    (t.1, r.1.setWidth 32 :: t.2)

/-- The words and state of a slot at a latch.  `writing`: the record that takes this slot is being written. -/
def State.readSlot (s : State) (k : Nat) (writing : Bool) : State × List Word × Nat :=
  match s.owlSlot k with
  | some (.words w) => (s, w, 1)
  | some .torn => let r := s.drawWords 16; (r.1, r.2, 3)
  | some .bad => let r := s.drawWords 15; (r.1, 0 :: r.2, 3)
  | none =>
    if writing && k == s.f F.OWL_STAT_NEXT && s.owl.staging != [] && !s.fB F.OWL_STAT_CLRBUSY then
      let r := s.drawWords 16
      (r.1, r.2, 2)
    else (s, List.replicate 16 0xFFFFFFFF#32, 0)

/-- A write of OWL_IDX. -/
def owlIdxWrite (v : Word) (writing : Bool) (s : State) : State × Nat :=
  let k := F.OWL_IDX_IDX.get v
  let r := s.readSlot k writing
  let s := (r.1.setF F.OWL_IDX_IDX 0 k).setF F.OWL_IDX_STATE 0 r.2.2
  (s.setRegs ((List.range 16).map (fun j => (0x2E10 + j, r.2.1.getD j 0))), Code.ok)

/-! ### Snapshots (R389, R390) -/

def State.owlRefuse (s : State) (code : Nat) : State × Nat := (s.setB F.OWL_STAT_CMD_REF 0 true, code)

/-- SNAP. -/
def owlSnap (confirm : BitVec 16) (s : State) : State × Nat :=
  if confirm.toNat ≠ confirmKey then s.owlRefuse Code.range else ((s.accepted 0x2E04 2).snapTrigger 2, Code.ok)

/-- SNAPSHOT_FREEZE: POST after the trigger. -/
def execSnapshotFreeze (s : State) : Host.Outcome State Fault Refusal :=
  if s.owl.snapTrig.isSome then .next { s with owl := { s.owl with snapFrozen := true } } else .next s

/-- The newest whole packets whose total fits in 1,008 words, in PSEQ order, from packets given newest first. -/
def newestFit : Nat → List (List Word) → List (List Word)
  | _, [] => []
  | room, p :: l => if p.length ≤ room then newestFit (room - p.length) l ++ [p] else []

/-- The 1,024 words of a snapshot. -/
def State.snapWords (s : State) (trig : Nat) : List Word :=
  let ps := newestFit 1008 s.stream.snap.reverse
  let body := ps.flatten
  let at' := s.owl.snapAt
  let ms := at'.1 / 1000
  let first := match ps with | (h :: _) :: _ => h.toNat / 65536 % 4096 | _ => 0
  let head : List Word := [0x50414E53#32, s.reg 0x2E02, item (ms % 2 ^ 32), item (ms / 2 ^ 32 + 65536 * (at'.1 % 1000)),
    s.nvm.timeSlot.2, item (trig + 256 * (if trig = 1 then s.f F.SUPV_FF_FFSRC else 0x3FF)), at'.2.setWidth 32,
    item (at'.2.toNat / 2 ^ 32), item (first + 4096 * ps.length), item body.length, 0, 0, 0, 0, 0]
  let tail := body ++ List.replicate (1008 - body.length) 0
  head ++ [crcWords (head ++ tail)] ++ tail

/-- SNAPSHOT_COPY_COMPLETE: the snapshot takes the next free slot, its record is written, and staging is emptied. -/
def execSnapshotCopyComplete (s : State) : Host.Outcome State Fault Refusal :=
  match s.owl.snapTrig with
  | none => .next s
  | some t =>
    if !s.owl.snapFrozen then .next s
    else
      let w := s.snapWords t
      let idx := s.f F.OWL_SNAPST_USED
      let s := s.when s.nvmOpen (fun s =>
        let s := { s with owl := { s.owl with snapshots := s.owl.snapshots ++ [Vector.ofFn (fun j => w.getD j 0)] } }
        (s.setF F.OWL_SNAPST_USED 0 (idx + 1)).record 7 [item idx, item t])
      let s := { s with
        owl := { s.owl with snapTrig := none, snapFrozen := false }
        stream := { s.stream with snap := [], snapOpen := [] } }
      .next (s.setB F.OWL_SNAPST_BUSY 0 false)

/-- A read of OWL_SNAPD: the word that OWL_SNAPA names, which advances; a slot not in use is erased. -/
def State.snapRead (s : State) : State × Word :=
  let k := s.f F.OWL_SNAPA_SNAP
  let j := s.f F.OWL_SNAPA_WORD
  let w := match s.owl.snapshots[k]? with
    | some v => v.toList.getD j 0
    | none => 0xFFFFFFFF#32
  (s.setF F.OWL_SNAPA_WORD 0 ((j + 1) % 1024), w)

/-! ### Clearing (R391 to R393) -/

/-- The token that Yelost computes (R391), as the four words of OWL_CLRTOK: the first 16 bytes of the MAC. -/
def State.clearToken (s : State) : List Word :=
  wordsOfBytes ((hmac256 s.nvm.svcKey (leBytes 8 s.nvm.serial.toNat ++ leBytes 4 (s.reg 0x2E05).toNat)).take 16)

/-- CLEAR (R391 to R393). -/
def owlClear (confirm : BitVec 16) (s : State) : State × Nat :=
  if confirm.toNat ≠ confirmKey then s.owlRefuse Code.range
  else if s.dev != .standby && s.dev != .run then s.owlRefuse Code.state
  else if s.fB F.OWL_STAT_CLRBUSY then s.owlRefuse Code.busy
  else if 4 ≤ s.owl.fails then s.owlRefuse Code.state
  else if s.clearToken = s.owl.tok.toList then
    let n := s.reg 0x2E05 + 1
    let s := (s.accepted 0x2E04 1).setReg 0x2E05 n
    let s := s.when s.nvmOpen (fun s =>
      { s with nvm := { s.nvm with clear := (n, s.reg 0x2E02) }, owl := { s.owl with clrPend := true } })
    ((s.setReg 0x2E02 (s.reg 0x2E02 + 1)).setB F.OWL_STAT_CLRBUSY 0 true, Code.ok)
  else
    let k := s.owl.fails + 1
    let s := ({ s with owl := { s.owl with fails := k } }).setB F.OWL_STAT_TOKFAIL 0 true
    ((s.raise Src.owlClrfail).record 9 [s.reg 0x2E05, item k]).owlRefuse Code.token

/-- Steps 2 to 4 of R392: the areas are erased, the clear record takes slot 0 with the SEQ that the clear slot holds, and the
pending flag falls. -/
def State.finishClear (s : State) : State :=
  let o := s.owl
  let seq := s.nvm.clear.2
  let r : OwlRec := ⟨8, seq, s.clk.ms, s.clk.us, s.nvm.timeSlot.2,
    [s.reg 0x2E05 - 1, seq - 1, item (o.slots.filter (fun p => match p.2 with | .words _ => true | _ => false)).length,
     item o.snapshots.length, item o.tsd.length]⟩
  let s := { s with owl := { o with
    slots := [(0, .words r.words)], snapshots := [], tsd := [], clrPend := false, firstLost := none, ovfChanged := false } }
  let s := ((s.setReg 0x2E01 0).setReg 0x2806 0).setF F.OWL_SNAPST_USED 0 0
  let s := (s.setF F.OWL_STAT_NEXT 0 1).setB F.OWL_STAT_FULL 0 false
  (s.setB F.OWL_STAT_OVFW 0 false).setB F.OWL_STAT_CLRBUSY 0 false

/-- CLEAR_COMPLETE. -/
def execClearComplete (s : State) : Host.Outcome State Fault Refusal :=
  .next (s.when (s.fB F.OWL_STAT_CLRBUSY && s.owl.clrPend && s.nvmOpen && s.f F.DEV_PWRSTAT_LSTAGE < 2) State.finishClear)

end Sys2Proof.Machine
end

