-- ==== Sys2Proof/Machine/Boot.lean ====
section
/-! DEFINITION. Entering BOOT, BOOT itself and its outcome (03_start_and_configuration_image.md R65 to R69, R78; R31, R36, R44; R379,
R397 to R399). -/

namespace Sys2Proof.Machine

/-! ### The conditions of BOOT (R44, R45) -/

/-- The conditions of R44, with RESET# released. -/
def State.bootReady (s : State) : Bool :=
  s.power.powered && s.power.v5Good && s.power.railsOk && s.power.rootLocked && s.power.vddioLatched && !s.power.resetLow

/-! ### What a BOOT keeps (R283, R50, R381) -/

/-- Words kept whole: the NVM controller's counts always, the first-fault record with the power state while V5 stays above
2.5 V. -/
def keptAddr (cold : Bool) (a : Nat) : Bool :=
  a == 0x2E01 || a == 0x2E02 || a == 0x2E05 || a == 0x2806 || a == 0x3315
    || (!cold && (a == 0x21 || (0x208 ≤ a && a ≤ 0x20B) || (0x220 ≤ a && a ≤ 0x236) || (0x5B00 ≤ a && a < 0x5E00)))

/-- Fields kept of words whose other fields reset. -/
def keptFields (cold : Bool) : List Fld :=
  [F.OWL_STAT_NEXT, F.OWL_STAT_FULL, F.OWL_STAT_OVFW, F.OWL_SNAPST_USED, F.INP_SEAT_SEAT1, F.INP_SEAT_SEAT2]
    ++ if cold then [] else [F.SUPV_STAT_FFOPEN, F.SUPV_STAT_HDONE, F.INP_SEAT_SEATOK, F.IMG_BOOTSTAT_SLOT]

/-- Copying fields from another state. -/
def State.copyFields (s t : State) (l : List Fld) : State := s.each l (fun s fl => s.setF fl 0 (t.f fl))

/-- The words of an event slot that is written whole. -/
def OwlSlot.whole : OwlSlot → Option (List Word)
  | .words w => some w
  | _ => none

/-- The next SEQ as the NVM shows it: past every slot, and not below the clear slot's. -/
def State.nextSeq (s : State) : Word :=
  BitVec.ofNat 32 (s.owl.slots.foldl (fun m p => match p.2.whole with | some w => Nat.max m ((w.getD 1 0).toNat + 1) | none => m)
    s.nvm.clear.2.toNat)

/-- The lost counts, and the time of the first loss, that the overflow record holds (R386). -/
def State.restoreLost (s : State) : State :=
  match (s.owlSlot 4095).bind OwlSlot.whole with
  | some w =>
    let s := (s.setF F.OWL_LOST_EVENTS 0 (w.getD 5 0).toNat).setF F.OWL_LOST_SNAPS 0 (w.getD 8 0).toNat
    { s with owl := { s.owl with firstLost := some (BitVec.ofNat 48 ((w.getD 6 0).toNat + 2 ^ 32 * (w.getD 7 0).toNat)) } }
  | none => { s.setReg 0x2E01 0 with owl := { s.owl with firstLost := none } }

/-- Operating milliseconds at an entry to BOOT (R379). -/
def NvmSt.restoredMs (n : NvmSt) : BitVec 48 :=
  match n.lastGasp with
  | some g => if n.timeSlot.1 < g.1 then g.1 else n.timeSlot.1
  | none => n.timeSlot.1

/-- A die reads 135 °C or more, so that BOOT waits (R19). -/
def State.hotRead (s : State) : Bool :=
  decide (135 * 128 ≤ s.fS F.DEV_TEMP_TCTL) || decide (135 * 128 ≤ s.fS F.DEV_TEMP_TSNS)

/-- The state of a reset or an entry to BOOT: every output as R36 gives, all logic reset, and what NVM, the sense die and the balls
keep.  RELOAD keeps the root clock and the lane calibration (R78). -/
def State.bootClear (s : State) (cold reload : Bool) : State :=
  { pending := s.pending
    freeIdx := s.freeIdx
    flash := s.flash
    regs := s.regs.filter (fun p => keptAddr cold p.1 || (reload && (p.1 == 0x101 || p.1 == 0x102)))
    pins := { en := s.pins.en, pgin := s.pins.pgin, lead := s.pins.lead, syncIn := s.pins.syncIn }
    power := { s.power with
      dieHot := false, hotWait := s.hotRead && !cold, tempRead := !cold, heartbeatLost := false, safeGatesOff := false,
      feedsBarred := false }
    tap := { s.tap with halted := false, frozen := false, freezeIn := 0 }
    clk := if reload then { s.clk with tmr := 0, opTicks := 0, us := 0, usBoot := 0, sub := 0, ms := s.nvm.restoredMs }
      else { ms := s.nvm.restoredMs }
    ph := if reload then Vector.ofFn (fun p => ({ laneFail := (s.ph.get p).laneFail } : PhaseSt)) else Vector.replicate 48 {}
    sup := if cold then {} else { hist := s.sup.hist, ffBase := s.sup.ffBase }
    owl := { s.owl with
      staging := if cold then [] else s.owl.staging
      tok := Vector.replicate 4 0, fails := 0, snapTrig := none, snapFrozen := false, snapAt := (0, 0) }
    nvm := s.nvm.dropStore }

/-- The same with the fields kept of registers that reset otherwise, and the boot stage at its start. -/
def State.bootBase (s : State) (cold reload : Bool) : State :=
  let t := (((s.bootClear cold reload).copyFields s (keptFields cold)).when (s.hotRead && !cold) (fun t =>
    t.setB F.IMG_BOOTSTAT_HOTWAIT 0 true)).setF F.DEV_PWRSTAT_LSTAGE 0 0
  if cold then ((t.setF F.DEV_PWRSTAT_IOMODE 0 (s.f F.DEV_PWRSTAT_IOMODE)).setReg 0x2E02 t.nextSeq).restoreLost else t

/-! ### The boot record (R397 to R399) -/

/-- The update registers that show the boot record. -/
def State.showBootRec (s : State) : State :=
  let b := s.nvm.boot
  let s := (((s.setB F.UPD_STAT_ACTIVE 0 b.active).setB F.UPD_STAT_PEND 0 b.pend.isSome).setB F.UPD_STAT_TRIAL 0 b.trial).setF
    F.UPD_STAT_TRIES 0 b.tries
  let s := ((s.setB F.UPD_BOOTREC_PRIOR 0 b.prior).setB F.UPD_BOOTREC_PVALID 0 b.pvalid).setB F.UPD_BOOTREC_PSLOT 0 (b.pend.getD false)
  s.setF F.UPD_BOOTREC_ARBCNT 0 b.arb.toNat

/-- Writing the boot record. -/
def State.setBootRec (s : State) (g : BootRec → BootRec) : State :=
  { s with nvm := { s.nvm with boot := g s.nvm.boot } }.showBootRec

/-- SECVER in the header of a slot. -/
def State.slotSecver (s : State) (b : Bool) : Nat := imgSecver (s.flashRead []) (slotBase b)

/-- A record of type 0x0A (R384): sub-code, slot, SECVER, ARBCNT and UPD_STAT. -/
def State.updRecord (s : State) (sub : Nat) (slot : Bool) (secver : Nat) : State :=
  s.record 0x0A [item sub, item slot.toNat, item secver, item s.nvm.boot.arb.toNat, s.reg 0x3310]

/-- What an entry to BOOT does to the boot record: activation of a pending slot at a cold start or RESTART, otherwise one
more try of a trial. -/
def State.activate (s : State) (cause : Nat) : State :=
  match s.nvm.boot.pend with
  | some p =>
    if cause = 0 || cause = 3 then
      (s.setBootRec (fun b => { b with
        active := p, prior := b.active, pvalid := true, pend := none, trial := true, tries := 0, trialT := 0 })).updRecord 2 p (s.slotSecver p)
    else if s.nvm.boot.trial then s.setBootRec (fun b => { b with tries := Nat.min 3 (b.tries + 1) }) else s.showBootRec
  | none => if s.nvm.boot.trial then s.setBootRec (fun b => { b with tries := Nat.min 3 (b.tries + 1) }) else s.showBootRec

/-- Leaving the present state for BOOT, or for a reset held before it. -/
def State.leaveForBoot (s : State) : State := if s.dev == .boot then s else s.enter .boot

/-- Entering BOOT with a cause of R50; a cold start counts a power cycle and writes a time slot (R379). -/
def State.enterBoot (s : State) (cause : Nat) : State :=
  let s := (s.leaveForBoot.bootBase (cause == 0) (cause == 4)).setF F.DEV_PWRSTAT_BCAUSE 0 cause
  let s := { s with power := { s.power with booted := true } }
  let s := if cause = 0 then { s with nvm := { s.nvm with timeSlot := (s.clk.ms, s.nvm.timeSlot.2 + 1) } } else s
  s.activate cause

/-! ### Trying the slots (R65, R67, R68, R78) -/

/-- Step 1 of R65. -/
def flashCode : Option FlashId → Nat
  | none => 0x01
  | some i =>
    if i.dens.isNone || (match i.dummy with | some d => !(4 ≤ d.toNat && d.toNat ≤ 10) | none => true) then 0x02 else 0

/-- Steps 1 to 8 on a slot: the code, and the image where it is accepted. -/
def State.trySlot (s : State) (i : BootInput) (slot : Bool) : Nat × Option Image :=
  if flashCode i.flash ≠ 0 then (flashCode i.flash, none)
  else
    let rd := s.flashRead i.noise
    let c := s.slotCode rd slot
    if c.1 ≠ 0 then (c.1, none)
    else
      let im := parseImage rd (slotBase slot) c.2
      let v := s.valuesCode im
      if v ≠ 0 then (v, none) else (0, some im)

/-- The slot tried first: the one that is running for RELOAD, the slot of the boot record otherwise; the third BOOT of a
trial tries PRIOR first. -/
def State.firstSlot (s : State) : Bool :=
  let b := s.nvm.boot
  if b.trial && b.tries = 3 then b.prior
  else if s.f F.DEV_PWRSTAT_BCAUSE = 4 then s.f F.IMG_BOOTSTAT_SLOT = 1
  else b.active

/-! ### What BOOT leaves (R406) -/

/-- The registers and units that NVM restores (R212, R241, R243, R292, R379, R381). -/
def State.restoreNvm (s : State) : State :=
  let n := s.nvm.state
  let s := s.each feeds3 (fun s f =>
    (s.setB F.FEED_STAT_TRIPLAT f (n.trip.getLsbD f)).setF F.FEED_STAT_CAUSE f (n.cause.get f).toNat)
  let s := ((s.setB F.INP_SEAT_RESEATPEND 0 n.reseat).setF F.INP_RETRY_REMAIN 0 n.remain.toNat).setB F.INP_RETRY_RUNNING 0 (n.remain != 0)
  let s := (s.setB F.BAT_DMSTAT_DMFLAG 0 n.dmFlag).setB F.BAT_DMSTAT_DMHOLD 0 n.dmFlag
  let s := s.setF F.THM_TSD_TSDMASK 0 n.tsd.toNat
  let s := s.each clusters (fun s k => (s.setB F.CL_THSTAT_TSD k (n.tsd.getLsbD k)).updCl k (fun c => { c with
    tsdTook := if n.tsd.getLsbD k then BitVec.ofNat 16 (maskOf ((s.offSet k).map Fin.val)) else 0 }))
  let s := (s.setReg 0x2E20 s.nvm.timeSlot.2).setF F.UPD_TRIALT_T 0 s.nvm.boot.trialT
  s.showBootRec

/-- The starting state of a battery instance (R226, R238). -/
def State.startBat (s : State) (i : Fin 6) : State :=
  let u (n : Nat) : Rat := (n : Rat) / 100000
  let p0 := ratOfF32 (s.reg (F.BAT_P0V_P0V.addr i))
  let s := s.updBat i (fun b => { b with
    q := 10 * s.f F.BAT_CFG_QDES i, r0 := u (s.f F.BAT_IMP_R0 i), r10 := u (s.f F.BAT_IMP_R10 i), r1 := u (s.f F.BAT_RC1_R i)
    p := #v[4 / 100, 0, 0, p0, 0, p0] })
  s.setB F.BAT_STAT_UNRESTORED i true

/-- Phases in use whose lane failed, and the largest skew (R16, R122); RELOAD performs no lane calibration (R78). -/
def State.lanes (s : State) (i : BootInput) : State :=
  if s.f F.DEV_PWRSTAT_BCAUSE = 4 then s
  else
    let s := s.setF F.CLK_DLCAL_SKEWMAX 0 i.skew.toNat
    s.each phases (fun s p => s.when (i.lanes.getLsbD p && s.fB F.PH_CFG_USED p) (fun s =>
      (s.updPh p (fun u => { u with laneFail := true })).raise (Src.phLane p)))

/-- Image-owned channels with a mode begin (R304). -/
def State.beginChannels (s : State) : State :=
  s.each (List.finRange 64) (fun s n => s.when (s.f F.CH_CFG_MODE n != 0) (fun s => s.chBegin n))

/-- A reseat that completed during BOOT (R211), after the restore. -/
def State.reseatAtBoot (s : State) : State :=
  let counts := !s.shelf || s.fB F.DEV_ONOFF_CFG_SEAT_USE
  let s := s.when (s.inp.reseatBoot && counts && s.anyTrip) (fun s =>
    let s := (s.setB F.INP_SEAT_RESEATPEND 0 true).saveState
    s.when (s.f F.INP_RETRY_REMAIN == 0) State.clearTrips)
  { s with inp := { s.inp with reseatBoot := false } }

/-- The entry to STANDBY from BOOT, common to an accepted image and to recovery: the history, the records of the slots that
failed (R68) and of the boot (R384), the open first-fault record's HDONE (R282), and the start rule (R34). -/
def State.enterStandby (s : State) (failed : List (Bool × Nat)) : State :=
  let s := { s.enter .standby with clk := { s.clk with tmr := 0 } }
  let s := s.setB F.SUPV_STAT_HDONE 0 (s.fB F.SUPV_STAT_FFOPEN)
  let s := s.each failed (fun s p => s.record 6 [item p.1.toNat, item p.2])
  let s := s.record 5 [s.reg 0x21, s.reg 0x3300, s.reg 0x3301]
  let s := s.when s.owl.clrPend State.finishClear
  let s := s.setB F.BAT_DMSTAT_WOKE 0 (s.f F.DEV_PWRSTAT_BCAUSE == 5)
  (s.reseatAtBoot.evalBen).evalOnreq

/-- IMG_BOOTSTAT and IMG_FLASH, as both outcomes report them. -/
def State.bootReport (s : State) (i : BootInput) (slot : Nat) (fallback : Bool) (errA errB : Nat) : State :=
  let s := ((s.setF F.IMG_BOOTSTAT_SLOT 0 slot).setB F.IMG_BOOTSTAT_FALLBACK 0 fallback).setB F.IMG_BOOTSTAT_NOIMG 0 (slot == 3)
  let s := ((s.setF F.IMG_BOOTSTAT_ERR_A 0 errA).setF F.IMG_BOOTSTAT_ERR_B 0 errB).setF F.IMG_BOOTSTAT_RETRIES 0 (Nat.min 15 i.rereads.toNat)
  let s := match i.flash with
    | some d => ((s.setF F.IMG_FLASH_JEDEC 0 d.jedec.toNat).setF F.IMG_FLASH_DUMMY 0 ((d.dummy.getD 0).toNat)).setF
        F.IMG_FLASH_DENS 0 ((d.dens.getD 0).toNat)
    | none => s
  s.setF F.IMG_INFO_ARBCNT 0 s.nvm.boot.arb.toNat

/-- The voltage of an address strap as a level (R38). -/
def strapLevel (mv : Nat) : Nat := if mv < 250 then 0 else if mv < 800 then 1 else if mv ≤ 1500 then 2 else 3

/-- Laying the words that a BOOT keeps over an image's values. -/
def State.layKept (s t : State) : State :=
  (t.regs.foldl (fun s p => if p.1 = 0x2461 then s else s.setReg p.1 p.2) s).copyFields t
    [F.INP_SEAT_SEATOK, F.INP_SEAT_SEAT1, F.INP_SEAT_SEAT2]

/-- An accepted image runs from `slot`. -/
def State.runImage (s : State) (i : BootInput) (im : Image) (slot fallback : Bool) (errA errB : Nat) (failed : List (Bool × Nat)) :
    State :=
  let t := ((s.candidate im).layOverlay im).layKept s
  let t := t.bootReport i slot.toNat fallback errA errB
  let t := ((t.setB F.IMG_BOOTSTAT_DEBUG_EN 0 im.debug).setF F.IMG_INFO_OVL_FMT 0 im.ovlFmt).setF F.IMG_INFO_SECVER 0 im.secver
  let t := (t.setReg 0x3302 im.build).setB F.DEV_STATE_ROLE 0 im.role
  let t := t.setF F.DEV_STATE_BLEVEL 0 im.blevel
  let t := t.setF F.LNK_CFG_PROTMAX 0 (if im.blevel = 3 then 2 else 1)
  let t := (t.restoreNvm.each (List.finRange 6) State.startBat).lanes i
  let t := t.each clusters (fun t n => (t.setB F.CL_INJ_EN n false).when (t.clInUse n) (fun t => t.evalOlim n))
  let t := t.beginChannels
  let t := { t with pins := { t.pins with fpwr := BitVec.ofNat 2 ((t.fB F.FLD_CFG_EN 0).toNat + 2 * (t.fB F.FLD_CFG_EN 1).toNat) } }
  let t := t.when (t.fB F.LNK_CFG_EN) (fun t => t.setF F.LNK_STAT_STATE 0 1)
  let t := t.when (slot != t.nvm.boot.active) (fun t =>
    ((t.setBootRec (fun b => { b with active := slot, trial := false })).raise Src.updFallback).updRecord 4 slot im.secver)
  t.enterStandby failed

/-- Recovery STANDBY (R69). -/
def State.recover (s : State) (i : BootInput) (errA errB : Nat) (failed : List (Bool × Nat)) : State :=
  let s := (s.bootReport i 3 false errA errB).restoreNvm
  (s.setB F.IMG_OVLSTAT_NONE 0 true).enterStandby failed

/-- BOOT_COMPLETE (R65 to R69): the slot tried first, the other one once, or recovery. -/
def execBootComplete (i : BootInput) (s : State) : Host.Outcome State Fault Refusal :=
  if s.dev != .boot || !s.bootReady || s.power.hotWait || s.f F.DEV_PWRSTAT_LSTAGE != 0 then .next s
  else
    let s := s.when (s.f F.DEV_PWRSTAT_BCAUSE != 4) (fun s =>
      s.setF F.DEV_PWRSTAT_STRAP 0 (4 * strapLevel i.adr1.toNat + strapLevel i.adr0.toNat))
    let a := s.firstSlot
    let err (slot : Bool) (ca cb : Nat) : Nat := if slot = a then ca else cb
    let r := s.trySlot i a
    match r.2 with
    | some im => .next (s.runImage i im a false (err false 0 0xFF) (err true 0 0xFF) [])
    | none =>
      let q := s.trySlot i (!a)
      match q.2 with
      | some im => .next (s.runImage i im (!a) true (err false r.1 0) (err true r.1 0) [(a, r.1)])
      | none => .next (s.recover i (err false r.1 q.1) (err true r.1 q.1) [(a, r.1), (!a, q.1)])

end Sys2Proof.Machine
end

