-- ==== Sys2Proof/Machine/Clock.lean ====
section
/-! DEFINITION. The root reference and its watchers (04_time_base_sync_timers.md R79 to R86): SYNC_IN edges, missing periods,
alignment, XIN loss, and the clock monitor. -/

namespace Sys2Proof.Machine

/-- The resource index of the SYNC_IN ball (R71). -/
def syncInBall : Nat := 238

/-- An edge meets both conditions of R81: high and low times of at least 50 ns, and 0.75 to 1.25 nominal periods after the
edge accepted before it, where there is one. -/
def State.edgeOk (s : State) (hi lo gap : Nat) : Bool :=
  let nom := s.f F.CLK_CFG_SYNC_NOM
  50 ≤ hi && 50 ≤ lo && nom != 0 &&
    ((s.clk.qualCount == 0 && !s.clk.qualified) || (3000000 ≤ 4 * gap * nom && 4 * gap * nom ≤ 5000000))

/-- The root may follow SYNC_IN (R80), qualification apart. -/
def State.mayFollow (s : State) : Bool :=
  s.dev != .boot && s.fB F.CLK_CFG_REFSEL && s.owner 1 syncInBall == 0x0D

/-- Bit n: the edge numbered `c` since qualification is an alignment edge of CLn (R86). -/
def State.alignEdges (s : State) (c : Nat) : BitVec 16 :=
  BitVec.ofNat 16 (maskOf ((clusters.filter (fun (n : Fin 16) =>
    s.f F.CLK_ALIGN_MODE n == 1
      || (s.f F.CLK_ALIGN_MODE n == 2 && c % (s.f F.CLK_ALIGN_FACTOR n + 1) == 0))).map Fin.val))

/-- The root follows SYNC_IN (R80, R82): steering begins, and ALIGNED reads 0 until it ends. -/
def State.followSync (s : State) (ppm : Int) : State :=
  let s := { s with clk := { s.clk with steering := true } }
  ((s.setF F.CLK_STAT_SRC 0 1).setB F.CLK_STAT_ALIGNED 0 false).setS F.CLK_STAT_PPM 0 ppm

/-- An accepted edge of a SYNC_IN that is not qualified (R80): the sixteenth in a row within 1,000 ppm qualifies it. -/
def State.edgeQualify (s : State) (ppm : Int) : State :=
  let s := s.when (s.f F.CLK_STAT_SRC == 2 && s.clk.qualCount == 0) (fun s => s.setB F.CLK_STAT_ALIGNED 0 false)
  let k := if ppm < -10000 || 10000 < ppm then 0 else s.clk.qualCount + 1
  if k < 16 then { s with clk := { s.clk with qualCount := k } }
  else
    let s := { s with clk := { s.clk with qualCount := 16, qualified := true, alignCount := 0 } }
    (s.lower Src.syncLoss).when s.mayFollow (fun s => s.followSync ppm)

/-- An accepted edge of a qualified SYNC_IN (R81, R86); one whose frequency lies outside 1,000 ppm is not accepted (R80). -/
def State.edgeFollow (s : State) (ppm : Int) : State :=
  if ppm < -10000 || 10000 < ppm then s
  else
    let c := s.clk.alignCount + 1
    let s := { s with clk := { s.clk with alignCount := c, alignEdge := s.alignEdges c, missing := 0 } }
    if s.f F.CLK_STAT_SRC = 1 then
      ({ s with clk := { s.clk with steering := true } }).setS F.CLK_STAT_PPM 0 ppm
    else s.when s.mayFollow (fun s => s.followSync ppm)

/-- SYNC_EDGE (R80 to R82, R86): a rising edge with its high and low times and the time since the edge accepted before it,
in ns, and the measured frequency against SYNC_NOM in 0.1 ppm. -/
def execSyncEdge (hi lo gap : BitVec 32) (ppm : Int) (s : State) : Host.Outcome State Fault Refusal :=
  if !s.edgeOk hi.toNat lo.toNat gap.toNat then .next s
  else
    let s := { s with clk := { s.clk with missing := 0, alignEdge := 0 } }
    .next (if s.clk.qualified then s.edgeFollow ppm else s.edgeQualify ppm)

/-- SYNC_MISSING_PERIOD (R81, R83): steering stops; the fourth missing period in a row begins holdover, or leaves the root
free-running where XIN is lost. -/
def execSyncMissingPeriod (s : State) : Host.Outcome State Fault Refusal :=
  if !s.clk.qualified then .next { s with clk := { s.clk with qualCount := 0, steering := false } }
  else
    let m := s.clk.missing + 1
    let s := { s with clk := { s.clk with missing := m, steering := false, alignEdge := 0 } }
    if m < 4 then .next s
    else
      let s := { s with clk := { s.clk with qualified := false, qualCount := 0, missing := 0 } }
      if s.f F.CLK_STAT_SRC ≠ 1 then .next s
      else
        let s := s.setS F.CLK_STAT_PPM 0 0
        let s := if s.clk.xinDead then s.setF F.CLK_STAT_SRC 0 3
          else (s.setF F.CLK_STAT_SRC 0 2).setB F.CLK_STAT_HOLDOVER 0 true
        .next (s.raise Src.syncLoss)

/-- SYNC_ALIGNED (R82): every aligned cluster's phase-0 edge lies within 2 ns of its target. -/
def execSyncAligned (s : State) : Host.Outcome State Fault Refusal :=
  .next (s.when (s.f F.CLK_STAT_SRC == 1 && s.clk.steering) (fun s => s.setB F.CLK_STAT_ALIGNED 0 true))

/-- XIN_LOSS (R83): a root on XIN or in holdover free-runs; one that follows SYNC_IN goes on following it. -/
def execXinLoss (s : State) : Host.Outcome State Fault Refusal :=
  let s := ({ s with clk := { s.clk with xinDead := true } }).setB F.CLK_STAT_XINLOSS 0 true
  let s := s.when (s.f F.CLK_STAT_SRC != 1) (fun s => s.setF F.CLK_STAT_SRC 0 3)
  .next (s.raise Src.xinLoss)

/-- CLOCK_MONITOR_WINDOW (R84): a count outside 376 to 424 raises CLK_MON and forces safe-off. -/
def execClockMonitorWindow (count : BitVec 16) (s : State) : Host.Outcome State Fault Refusal :=
  if s.dev == .boot then .next s
  else if count.toNat < 376 || 424 < count.toNat then .next (s.raise Src.clkMon).safeOff
  else .next (s.lower Src.clkMon)

end Sys2Proof.Machine
end

