-- ==== Sys2Proof/Machine/ClusterPhases.lean ====
section
/-! DEFINITION. The cluster's phase commands (07_phases_within_a_cluster.md R155 to R170): balance, the slow overload limit,
the phase monitor, and the takeover of a failed loop engine by LE16. -/

namespace Sys2Proof.Machine

/-! ### Balance (R155) -/

/-- A phase's mean current over the 16 frame periods: in 10 mA, or 100 mA in direct duty mode. -/
def State.balCurrent (s : State) (n : Fin 16) (p : Fin 48) : Rat :=
  let u := s.ph.get p
  let mean := if u.balAcc.2 = 0 then u.iCal else u.balAcc.1 / (u.balAcc.2 : Rat)
  mean / (if s.fB F.CL_FSW_DIRECT n then 100 else 10)

/-- The trims of the balance step. -/
def State.balance (s : State) (n : Fin 16) : State :=
  let act := s.activePhases n
  let mean := meanQ (act.map (s.balCurrent n))
  let k : Rat := s.f F.CL_BAL_KBAL n
  let raw := act.map (fun p => (s.order p, s.trim n (s.order p) + roundAway (k * (mean - s.balCurrent n p) / 65536)))
  let t := roundAway (meanI (raw.map Prod.snd))
  let lim : Int := 10 * s.f F.CL_BAL_TRIMMAX n
  s.each raw (fun s p => s.setTrim n p.1 (clampI (-lim) lim (p.2 - t)))

/-- BALANCE_STEP: every 16 frame periods; skipped in soft start, in an all-phases hold, after PKLIM or a removal within the
periods (R155, R171). -/
def execBalanceStep (n : Fin 16) (s : State) : Host.Outcome State Fault Refusal :=
  let due := s.switching n && !s.fB F.CL_BAL_ROT n && s.f F.CL_BAL_KBAL n != 0
  let skip := (s.cl.get n).run == .softStart || s.fB F.CL_PHSTAT_HOLDALL n || (s.cl.get n).balSkip
    || (s.activePhases n).any (fun p => (s.ph.get p).pkBal)
  let s := if due && !skip then s.balance n else s
  let s := s.updCl n (fun c => { c with balSkip := false })
  .next (s.each (s.clPhases n) (fun s p => s.updPh p (fun u => { u with balAcc := (0, 0), pkBal := false })))

/-! ### The slow overload limit (R159) -/

/-- OVERLOAD_COMPARE: the sum of the cluster's latest samples against OLIM_eff; IOUT_OC_WARNING latches as CAPREQ rises
(R338). -/
def execOverloadCompare (n : Fin 16) (s : State) : Host.Outcome State Fault Refusal :=
  let sum := sumQ ((s.clPhases n).map (fun p => (s.ph.get p).iCal))
  let lim : Rat := 100 * (s.f F.CL_OLSTAT_OLIMEFF n : Rat)
  let above := if lim < sum then (s.cl.get n).olOver + 1 else 0
  let under := if sum < 95 / 100 * lim then (s.cl.get n).olUnder + 1 else 0
  let s := s.updCl n (fun c => { c with olOver := Nat.min 4 above, olUnder := Nat.min 16 under })
  if 4 ≤ above then
    let s := s.when (!s.fB F.CL_OLSTAT_CAPREQ n) (fun s => s.latch F.HST_PSTAT_IOUT n 0x20)
    .next (s.setB F.CL_OLSTAT_CAPREQ n true)
  else if 16 ≤ under then .next ((s.setB F.CL_OLSTAT_CAPREQ n false).lower (Src.clOverload n))
  else .next s

/-- OVERLOAD_TIMEOUT: CAPREQ has stood for OLT. -/
def execOverloadTimeout (n : Fin 16) (s : State) : Host.Outcome State Fault Refusal :=
  if s.fB F.CL_OLSTAT_CAPREQ n then .next ((s.setB F.CL_OLSTAT_OVLD n true).raise (Src.clOverload n)) else .next s

/-! ### The phase monitor (R160, R161) -/

/-- PHASE_MONITOR_FRAME: by ORDER position, the phases that met both conditions of R160 in this frame (`open'`), and those
whose high interval ended at the maximum on-time (`atMax`) or by its comparator (`byCmp`). -/
def execPhaseMonitorFrame (n : Fin 16) (open' atMax byCmp : BitVec 16) (s : State) : Host.Outcome State Fault Refusal :=
  let judge (s : State) (k : Nat) : State :=
    match s.posPhase n k with
    | none => s
    | some p =>
      let other := (s.activePos n).any (fun j => j != k && byCmp.getLsbD j)
      let o := if open'.getLsbD k then (s.ph.get p).openRun + 1 else 0
      let m := if atMax.getLsbD k && other then (s.ph.get p).stuckRun + 1 else 0
      let s := s.updPh p (fun u => { u with openRun := o, stuckRun := m })
      if 3 ≤ o then s.removePhase n p 1 (Src.phOpen p)
      else if 8 ≤ m then s.removePhase n p 3 (Src.phSense p)
      else s
  .next (s.each (s.activePos n) judge)

/-! ### Takeover (R166 to R170) -/

/-- A 64-bit signed value from its two words. -/
def int64Of (lo hi : Word) : Int := toSigned 64 (lo.toNat + 2 ^ 32 * hi.toNat)

/-- Bits of a word. -/
def wbits (w : Word) (lo n : Nat) : Nat := w.toNat / 2 ^ lo % 2 ^ n

/-- Loading a frame into LE16 and advancing it by the missed updates (R167).  The masks come from the phase monitor; lw and
its window come from the reference adder where a warning was decoded since the frame. -/
def State.loadFrame (s : State) (n : Fin 16) (w : List Word) (missed : Nat) : State :=
  let g (k : Nat) : Word := w.getD k 0
  let c := s.cl.get n
  let uper := Nat.max 1 (s.f F.CL_CFG_UPER n)
  let adder := c.lwNew
  let lwRamp := wbits (g 9) 24 6 - missed
  let lw : Int := if adder then c.lw else
    if wbits (g 9) 24 6 = 0 then 100 * (wbits (g 6) 16 16 : Int)
    else roundAway (100 * (wbits (g 6) 16 16 : Rat) * (lwRamp : Rat) / (wbits (g 9) 24 6 : Rat))
  let vr := (g 3).toNat % 65536 * 65536 + (g 3).toNat / 65536
  let tgt := wbits (g 30) 0 16
  let move := missed * (toSigned 32 (g 4).toNat).natAbs
  let ramping := wbits (g 29) 0 1 = 1 || wbits (g 29) 1 1 = 1
  let s := s.updCl n (fun c => { c with
    acc := BitVec.ofNat 48 ((g 1).toNat + 2 ^ 32 * wbits (g 2) 0 16)
    ePrev := toSigned 16 (wbits (g 2) 16 16), noKick := true
    vramp := if ramping then approach vr (tgt * 65536) move else vr
    step := if wbits (g 29) 0 1 = 1 then toSigned 32 (g 4).toNat else c.step
    ssLeft := Nat.max 1 (c.ssLeft - missed), sForce := tgt
    capDrop := wbits (g 5) 16 10, llDrop := toSigned 16 (wbits (g 6) 0 16)
    lw := lw, lwWin := if adder then c.lwWin else wbits (g 7) 0 16 * uper - missed * uper
    lwRef := if adder then c.lwRef else 100 * (toSigned 16 (wbits (g 7) 16 16) : Rat)
    lwRamp := if adder then c.lwRamp else lwRamp, lwFrom := if adder then c.lwFrom else lw
    injPhase := BitVec.ofNat 32 ((g 8).toNat + missed * (s.reg (F.CL_INJFREQ_FW.addr n)).toNat)
    prbs := wbits (g 9) 0 16, chip := wbits (g 9) 16 8, injPer := wbits (g 29) 16 16
    resA := (int64Of (g 10) (g 11), int64Of (g 12) (g 13)), resB := (int64Of (g 14) (g 15), int64Of (g 16) (g 17))
    holdLeft := wbits (g 27) 4 12, dropTime := 400 * wbits (g 27) 16 16
    seqNo := g 0 + BitVec.ofNat 32 missed, spareRun := 0 })
  let s := s.setF F.CL_TRIM_TRIM n (wbits (g 5) 0 16)
  let s := s.each (s.activePos n) (fun s k =>
    s.setTrim n k (toSigned 16 ((trimFld k).get (g (18 + k / 2)))))
  ((s.setReg (F.CL_IOUT_U.addr n) (g 28)).setF F.CL_ROT_PTR n (wbits (g 27) 0 4)).fixPtr n

/-- The newest valid frame that passed, and whether it is the slot's older one; where a plausibility check failed, the
newest frame is the one that failed it. -/
def ClusterSt.pickFrame (c : ClusterSt) (slotBad plausible : Bool) : Option (Frame × Bool) :=
  if slotBad then none
  else
    let odd := c.seqNo.getLsbD 0
    let new := if odd then c.frameB else c.frameA
    let old := if odd then c.frameA else c.frameB
    match new, old with
    | some f, o => if plausible && f.passed then some (f, false) else o.bind (fun g => if g.passed then some (g, true) else none)
    | none, o => o.bind (fun g => if g.passed then some (g, true) else none)

/-- The spare has failed (R170): the phase units keep the last references that passed, and LE_SPAREFAIL shuts the cluster
down by its sequenced power-down (R272). -/
def State.spareFail (s : State) (n : Fin 16) (cause : Nat) : State :=
  let s := ((s.setF F.LE16_STAT_STATE 0 3).setF F.LE16_STAT_CL 0 n).setF F.LE16_STAT_CAUSE 0 cause
  let s := (s.updCl n (fun c => { c with leFailed := true })).injAbort n
  (s.raise Src.leSparefail).recordSrc Src.leSparefail 0 [item n, s.reg 0x2000, s.reg 0x2001]

/-- The takeover of a cluster by the cold spare. -/
def State.takeover (s : State) (n : Fin 16) (cause : Nat) (f : Frame) (old : Bool) (missed gap : Nat) : State :=
  let s := s.updCl n (fun c => { c with leFailed := true, rsRun := none, rsAgain := none })
  let s := if (s.cl.get n).rsDrop.isSome then
      let m := s.f F.CL_PHSTAT_M n
      s.updCl n (fun c => { c with rsDrop := none, mNext := m + 1 })
    else s
  let s := (s.loadFrame n f.words missed).injAbort n
  let s := (((s.setF F.LE16_STAT_STATE 0 1).setF F.LE16_STAT_CL 0 n).setF F.LE16_STAT_CAUSE 0 cause).setB
    F.LE16_STAT_OLDFRAME 0 old
  let s := (s.setF F.LE16_STAT_MISSED 0 (Nat.min 63 missed)).setF F.LE16_STAT_GAP 0 gap
  s.setReg 0x2001 (f.words.getD 0 0)

/-- The failure of CLn's engine, LE16's where it serves CLn: `code` 1 ECC, 2 heartbeat, 3 to 5 P1 to P3; `slotBad`: its mirror
slot holds an uncorrectable ECC error; `missed` updates and the `gap` in LOOP cycles.  While the cluster is off P2 and P3
do not apply (R166). -/
def State.engineFailure (s : State) (n : Fin 16) (code : Nat) (slotBad : Bool) (missed gap : Nat) : State :=
  if 4 ≤ code && !s.switching n then s
  else
    let st := s.f F.LE16_STAT_STATE
    if (st = 1 || st = 2) && s.f F.LE16_STAT_CL = n.val then s.spareFail n code
    else if (s.cl.get n).leFailed then s
    else if st ≠ 0 then
      -- a further failure after a takeover: no spare is left
      let s := (s.updCl n (fun c => { c with leFailed := true })).injAbort n
      (s.raise (Src.leFail n)).recordSrc (Src.leFail n) 0 [item n, s.reg 0x2000, s.reg 0x2001]
    else match (s.cl.get n).pickFrame slotBad (code < 3) with
      | none => s.spareFail n code
      | some (f, old) =>
        let s := s.takeover n code f old missed gap
        (s.raise (Src.leFail n)).recordSrc (Src.leFail n) 0 [item n, s.reg 0x2000, s.reg 0x2001]

/-- LOOP_ENGINE_FAILURE: two channels see it; the cause is counted from 0. -/
def execLoopEngineFailure (n : Fin 16) (cause : Fin 5) (slotBad : Bool) (missed gap : BitVec 16) (s : State) :
    Host.Outcome State Fault Refusal :=
  .next (s.engineFailure n (cause.val + 1) slotBad missed.toNat gap.toNat)

end Sys2Proof.Machine
end

