-- ==== Sys2Proof/Machine/Sequencer.lean ====
section
/-! DEFINITION. The sequencer's and the windows' commands (11_sequencing.md R247 to R259) and EN (R33, R211). -/

namespace Sys2Proof.Machine

/-! ### EN (R33, R211) -/

/-- EN_CHANGE: the filtered level, and for a rising change the milliseconds EN was low. -/
def execEnChange (level : Bool) (lowMs : BitVec 16) (s : State) : Host.Outcome State Fault Refusal :=
  let rise := level && !s.pins.en
  let s := { s with pins := { s.pins with en := level } }
  let s := s.when (rise && s.fB F.DEV_ONOFF_CFG_EN_USE && decide (1 ≤ lowMs.toNat) && s.dev != .boot) State.clearTrips
  .next s.evalOnreq

/-! ### Steps -/

/-- Power-up at a step boundary (R247, R255): a pending off is taken, otherwise the next step starts, or the device
enters RUN with PWRGD asserted (R31, R254). -/
def State.nextUp (s : State) (k : Nat) : State :=
  if s.fB F.SEQ_STAT_PENDOFF then s.seqdnEntry
  else if k + 1 < s.f F.SEQ_CFG_NSTEP then s.stepUp (k + 1)
  else
    let s := { s with seq := { s.seq with stepOpen := false } }
    let s := (s.setB F.SEQ_STAT_ACTIVE 0 false).enter .run
    let s := { s with pins := { s.pins with pwrgd := true }, seq := { s.seq with pwrgdWait := false } }
    (s.evalPwrgd).evalBen

/-- Power-down at a step boundary. -/
def State.nextDown (s : State) (k : Nat) : State :=
  let s := { s with seq := { s.seq with stepOpen := false } }
  if k = 0 then s.seqdnEnd else s.seqdnFrom (k - 1)

/-- The comparators and inputs as the sequencer samples them at a decision: the clusters within their windows, those
below VOFF, and the filtered PGIN levels. -/
def State.sample (s : State) (inwin below : BitVec 16) (pgin : BitVec 8) : State :=
  let s := { s with pins := { s.pins with pgin := pgin } }
  s.each clusters (fun s n => (s.setB F.CL_WSTAT_INWIN n (inwin.getLsbD n)).setB F.CL_WSTAT_BELOW n (below.getLsbD n))

/-- The step in progress of the main program is complete. -/
def State.stepComplete (s : State) : State :=
  let k := s.f F.SEQ_STAT_STEP
  match s.dev with
  | .sequp => if s.seq.stepOpen && s.upDone k then (s.seqDecide k 0 2).nextUp k else s
  | .seqdn => if s.seq.stepOpen && s.downDone k then ((s.seqDecide k 1 2).setB F.SEQ_STAT_HELD 0 false).nextDown k else s
  | _ => s

/-- The step in progress of a partial shutdown is complete (R251). -/
def State.subComplete (s : State) : State :=
  match s.seq.subStep with
  | some k => if s.subDone k then ((s.seqDecide k 1 2).setB F.SEQ_STAT_HELD 0 false).subFrom k else s
  | none => s

/-- SEQ_STEP_COMPLETE (R247, R250, R251): of the main program, or of a partial shutdown (`part`). -/
def execSeqStepComplete (part : Bool) (inwin below : BitVec 16) (pgin : BitVec 8) (s : State) :
    Host.Outcome State Fault Refusal :=
  let s := s.sample inwin below pgin
  .next (if part then s.subComplete else s.stepComplete)

/-- A timeout or failure with TOACT = 0 (R248): forced on. -/
def State.forceOn (s : State) (k dir : Nat) : State :=
  (s.setB F.SEQ_STAT_TOFORCED 0 true).seqDecide k dir 4

/-- SEQ_STEP_TIMEOUT (R248): the step in progress times out or fails.  Completion wins where both hold in one evaluation
(R260); a delay has no timeout.  With an off request pending the boundary takes it and UPFAIL is not set (log
entry 21). -/
def execSeqStepTimeout (part : Bool) (s : State) : Host.Outcome State Fault Refusal :=
  if part then
    match s.seq.subStep with
    | none => .next s
    | some k =>
      if s.subDone k then .next s.subComplete
      else if s.f F.SEQ_STEP_OBJ k = 5 then .next s
      else
        let s := s.raise Src.seqTimeout
        .next (if s.fB F.SEQ_STEP_TOACT k then (s.seqDecide k 1 3).setB F.SEQ_STAT_HELD 0 true
          else (s.forceOn k 1).subFrom k)
  else
    let k := s.f F.SEQ_STAT_STEP
    if !s.seq.stepOpen || s.f F.SEQ_STEP_OBJ k = 5 then .next s
    else match s.dev with
      | .sequp =>
        if s.upDone k then .next s.stepComplete
        else
          let s := s.raise Src.seqTimeout
          if s.fB F.SEQ_STEP_TOACT k then
            let s := s.seqDecide k 0 3
            if s.fB F.SEQ_STAT_PENDOFF then .next s.seqdnEntry
            else .next (s.setB F.SEQ_STAT_UPFAIL 0 true).seqdnEntry
          else .next ((s.forceOn k 0).nextUp k)
      | .seqdn =>
        if s.downDone k then .next s.stepComplete
        else
          let s := s.raise Src.seqTimeout
          .next (if s.fB F.SEQ_STEP_TOACT k then (s.seqDecide k 1 3).setB F.SEQ_STAT_HELD 0 true
            else (s.forceOn k 1).nextDown k)
      | _ => .next s

/-! ### SEQ_CTRL -/

/-- A command of SEQ_CTRL is refused, with CMD_REF. -/
def State.seqRefuse (s : State) (code : Nat) : State × Nat := (s.setB F.SEQ_CTRL_CMD_REF 0 true, code)

/-- FORCE (R248, R260): accepted only while HELD = 1; the next power-down step runs. -/
def seqForce (confirm : BitVec 16) (s : State) : State × Nat :=
  if confirm.toNat ≠ confirmKey then s.seqRefuse Code.range
  else if !s.fB F.SEQ_STAT_HELD then s.seqRefuse Code.state
  else
    let s := (s.accepted 0x2203 1).setB F.SEQ_STAT_HELD 0 false
    match s.seq.subStep with
    | some k => ((s.seqDecide k 1 4).subFrom k, Code.ok)
    | none =>
      let k := s.f F.SEQ_STAT_STEP
      (if s.dev == .seqdn then (s.seqDecide k 1 4).nextDown k else s, Code.ok)

/-- SFPULSE (R259): accepted in STANDBY and RUN. -/
def seqSfpulse (confirm : BitVec 16) (s : State) : State × Nat :=
  if confirm.toNat ≠ confirmKey then s.seqRefuse Code.range
  else if s.dev == .standby || s.dev == .run then ((s.accepted 0x2203 2).sysfltDrive, Code.ok)
  else s.seqRefuse Code.state

/-! ### The windows (R252, R253) -/

/-- A window comparator's filter completes: its flag and source, once per condition. -/
def State.winFault (s : State) (n : Fin 16) (flag : Fld) (src : Nat) : State :=
  let s := s.when (!s.srcBit src) (fun s => s.setB flag n true)
  ((s.setB F.CL_WSTAT_INWIN n false).raise src).evalPwrgd

/-- CL_UV: armed from SSDONE until the cluster begins to turn off, and not while blanked. -/
def execClUv (n : Fin 16) (s : State) : Host.Outcome State Fault Refusal :=
  if (s.cl.get n).run == .on && !s.fB F.CL_WSTAT_BLANKED n then .next (s.winFault n F.CL_WSTAT_UVF (Src.clUv n))
  else .next s

/-- CL_OV: armed while PENn is high, and not while blanked. -/
def execClOv (n : Fin 16) (s : State) : Host.Outcome State Fault Refusal :=
  if s.pins.pen.getLsbD n && !s.fB F.CL_WSTAT_BLANKED n then .next (s.winFault n F.CL_WSTAT_OVF (Src.clOv n))
  else .next s

/-- CL_FOV: armed while PENn is high; never blanked. -/
def execClFov (n : Fin 16) (s : State) : Host.Outcome State Fault Refusal :=
  if s.pins.pen.getLsbD n then .next (s.winFault n F.CL_WSTAT_FOVF (Src.clFov n)) else .next s

/-- WINDOW_BLANK_END (R253): BLKX after the BLKTM match. -/
def execWindowBlankEnd (n : Fin 16) (s : State) : Host.Outcome State Fault Refusal :=
  if (s.cl.get n).blankM then
    .next ((s.setB F.CL_WSTAT_BLANKED n false).updCl n (fun c => { c with blankM := false })).evalPwrgd
  else .next s

/-- PWRGD_RETURN (R254): every cluster of PGMASK has been within its window for 1 ms. -/
def execPwrgdReturn (s : State) : Host.Outcome State Fault Refusal :=
  if s.dev == .run && s.seq.pwrgdWait &&
      clusters.all (fun n => !s.fBit F.SEQ_CFG_PGMASK 0 n ||
        ((s.cl.get n).run != .off && s.fB F.CL_WSTAT_INWIN n)) then
    .next { s with pins := { s.pins with pwrgd := true }, seq := { s.seq with pwrgdWait := false } }
  else .next s

/-- MIN_OFF_TIME_EXPIRY (R256). -/
def execMinOffTimeExpiry (s : State) : Host.Outcome State Fault Refusal :=
  if s.fB F.SEQ_STAT_OFFLAT then
    .next ((s.setB F.SEQ_STAT_OFFLAT 0 false).setB F.SEQ_STAT_PENDON 0 false).evalStart
  else .next s

/-! ### Short during soft start (R258) -/

/-- SOFT_START_SHORT: `out` is the coarse output in codes of 1.6 mV.  The cluster is off as by CLOFF, but the latch is
SSSHORT, so that it can restart. -/
def execSoftStartShort (n : Fin 16) (out : BitVec 12) (s : State) : Host.Outcome State Fault Refusal :=
  if (s.cl.get n).run ≠ .softStart then .next s
  else
    let vramp := (s.cl.get n).vramp / 65536
    let u := s.reg (F.CL_IOUT_U.addr n)
    let s := s.each (s.offSet n) State.clOff
    let s := (s.raise (Src.clSsshort n)).recordSrc (Src.clSsshort n) 0 [item n, item vramp, item out.toNat, u]
    let s := s.incF F.CL_WSTAT_HICCNT n
    if s.fB F.CL_SEQC_SSRETRY n && s.f F.CL_WSTAT_HICCNT n < s.f F.CL_SEQC_HICN n then
      .next (s.updCl n (fun c => { c with hicWait := true }))
    else .next (s.setB F.CL_WSTAT_SSSHORT n true)

/-- HICCUP_RESTART: HICT after the detection. -/
def execHiccupRestart (n : Fin 16) (s : State) : Host.Outcome State Fault Refusal :=
  if (s.cl.get n).hicWait && (s.dev == .sequp || s.dev == .run) then
    .next ((s.updCl n (fun c => { c with hicWait := false })).clStart n)
  else .next s

/-! ### SYSFLT# (R259) -/

/-- SYSFLT_IN: another device holds the line low for SFFLT, or 2 us beyond the device's own release. -/
def execSysfltIn (s : State) : Host.Outcome State Fault Refusal :=
  if s.dev == .boot || s.fB F.SEQ_STAT_SFDRV then .next s
  else
    let s := { s with seq := { s.seq with sfOther := true } }
    .next ((s.setB F.SEQ_STAT_SFLOW 0 true).raise Src.sysfltIn)

/-- The line reads high: the conditions on it end, and with SFSTART = 1 the latch that forbids start. -/
def State.lineHigh (s : State) : State :=
  let s := { s with seq := { s.seq with sfOther := false } }
  (((s.setB F.SEQ_STAT_SFLOW 0 false).lower Src.sysfltIn).lower Src.sysfltStuck).evalStart

/-- SYSFLT_HOLD_END: the device releases the ball; `low`: another device holds the line low. -/
def execSysfltHoldEnd (low : Bool) (s : State) : Host.Outcome State Fault Refusal :=
  if !s.fB F.SEQ_STAT_SFDRV then .next s
  else
    let s := (s.setB F.SEQ_STAT_SFDRV 0 false).setB F.SEQ_STAT_SFLOW 0 low
    let s := { s with seq := { s.seq with sfHold := false, sfOther := low } }
    .next ((if low then s else s.lineHigh).evalHdone)

/-- SYSFLT_STUCK: the line has stayed low for SFSTUCK. -/
def execSysfltStuck (s : State) : Host.Outcome State Fault Refusal :=
  if s.dev == .boot || !s.fB F.SEQ_STAT_SFLOW then .next s
  else .next ((s.setB F.SEQ_STAT_SFSTK 0 true).raise Src.sysfltStuck)

/-- SYSFLT_LINE_RELEASE: another device releases the line; it reads high where this device does not drive it. -/
def execSysfltLineRelease (s : State) : Host.Outcome State Fault Refusal :=
  if s.fB F.SEQ_STAT_SFDRV then .next { s with seq := { s.seq with sfOther := false } } else .next s.lineHigh

end Sys2Proof.Machine
end

