-- ==== Sys2Proof/Machine/Supervisor.lean ====
section
/-! DEFINITION. The supervisor (12_supervisor_and_faults.md): vote frames, the voter, reaction sets and their execution, the
first-fault record, wire faults, ACK and SAFE. -/

namespace Sys2Proof.Machine

/-! ### Reaction sets (R270 to R272) -/

/-! The action bits of a reaction entry. -/
namespace Act
def log := 0x01
def alert := 0x02
def seqoff := 0x20
def safe := 0x40
def pkg := 0x100
/-- SHED, CLOFF, SEQOFF, SAFE or SYSFLT: what makes a raise a fault (R279). -/
def fault := 0xF8
end Act

/-- The actions the device adds whatever the image holds (R272). -/
def addedActions (src : Nat) : Nat :=
  if src = Src.clkMon then Act.safe
  else if src = Src.supDisagree || src = Src.hostSafe then Act.safe ||| Act.log
  else if 0x240 ≤ src && src < 0x258 && (src % 8 = 3 || src % 8 = 4) then Act.seqoff ||| Act.pkg
  else if src = Src.fcWire then Act.log
  else 0

/-- The cluster that LE_SPAREFAIL, or LE_FAIL after a takeover, shuts down alone (R170, R272). -/
def State.leShut (s : State) (src : Nat) : Option Nat :=
  if src = Src.leSparefail then some (s.f F.LE16_STAT_CL)
  else if 0x220 ≤ src && src < 0x230 && s.f F.LE16_STAT_STATE != 0 && s.f F.LE16_STAT_CL != src - 0x220
    then some (src - 0x220)
  else none

/-- The reaction set of a source: the image's entry with what the device adds. -/
def State.actions (s : State) (src : Nat) : Nat :=
  ((s.reg (0x5800 + src)).toNat % 512 ||| addedActions src) ||| (if (s.leShut src).isSome then Act.seqoff else 0)

/-- What a source belongs to (R270). -/
inductive Scope where
  | phase (p : Fin 48)
  | cluster (n : Fin 16)
  | region (x : Fin 4)
  | package
  deriving DecidableEq, Repr

def scopeOf (src : Nat) : Scope :=
  if src < 0x120 then .phase (Fin.ofNat 48 src)
  else if src < 0x200 then .cluster (Fin.ofNat 16 src)
  else if src < 0x208 then .region (Fin.ofNat 4 src)
  else if 0x220 ≤ src && src < 0x230 then .cluster (Fin.ofNat 16 src)
  else .package

/-- The targets of one action of a source, in the numbering of the vote frame (R262, R270, R271): action bits 2 CAP,
3 SHED, 4 CLOFF, 5 SEQOFF, 6 SAFE, 7 SYSFLT. -/
def State.targets (s : State) (src bit : Nat) : List Nat :=
  let rg (n : Fin 16) : List Nat := match s.region n with | some x => [1 + x.val] | none => []
  if 6 ≤ bit then [0]
  else if bit = 5 && (s.leShut src).isSome && !((s.reg (0x5800 + src)).toNat.testBit 5) then
    (s.leShut src).toList.map (5 + ·)
  else if (s.actions src).testBit 8 then [0]
  else match scopeOf src with
    | .phase p => if bit = 3 then [21 + p.val] else match s.phCluster p with
      | none => []
      | some n => if bit = 4 then [5 + n.val] else rg n
    | .cluster n => if bit = 3 || bit = 4 then [5 + n.val] else rg n
    | .region x => [1 + x.val]
    | .package => [0]

/-- The six target sets that a source's actions ask for. -/
def State.srcActs (s : State) (src : Nat) : Vector (BitVec 69) 6 :=
  Vector.ofFn (fun j => if (s.actions src).testBit (j.val + 2)
    then BitVec.ofNat 69 (maskOf (s.targets src (j.val + 2))) else 0)

def orActs (a b : Vector (BitVec 69) 6) : Vector (BitVec 69) 6 := Vector.ofFn (fun j => a.get j ||| b.get j)
def noActs : Vector (BitVec 69) 6 := Vector.replicate 6 0

/-- The target sets due in this evaluation: of every raise not yet taken, and of CAP while it is held (R269). -/
def State.dueActs (s : State) : Vector (BitVec 69) 6 :=
  let a := s.sup.pend.foldl (fun a r => orActs a (s.srcActs r.src)) noActs
  s.sup.capHeld.foldl (fun a h => a.set 0 (a.get 0 ||| (s.srcActs h.1).get 0)) a

/-! ### SUPERVISOR_EVALUATION (R262, R133) -/

/-- The integrator bound as the channels judge it (R133). -/
def State.evalBound (s : State) : State :=
  s.each clusters (fun s n =>
    let above := s.fB F.CL_GCFG_BEN n && s.f F.CL_GCFG_BCNT n ≤ (s.cl.get n).boundRun
    (s.when (above && !s.srcBit (Src.clIbound n)) (fun s => s.setB F.CL_LSTAT_IBND n true)).follow
      (Src.clIbound n) above)

/-- A frame with the bits that a disturbance of its channel has turned over. -/
def flipActs (a : Vector (BitVec 69) 6) (flips : List (Fin 6 × Nat)) : Vector (BitVec 69) 6 :=
  flips.foldl (fun a p => a.set p.1 (a.get p.1 ^^^ BitVec.ofNat 69 (2 ^ (p.2 % 69)))) a

/-- A channel is fenced (R264). -/
def State.fenced (s : State) (c : Nat) : Bool := s.fBit F.SUPV_STAT_FENCED 0 c

/-- Every channel that is not fenced computes its decisions from the same status word and sends its frame; an ECC error
or a wire fault on one of its pairs makes its frame not valid (R262, R263, R267). -/
def execSupervisorEvaluation (a b c : ChanInput) (s : State) : Host.Outcome State Fault Refusal :=
  let s := s.evalBound
  let due := s.dueActs
  let frame (k : Nat) (i : ChanInput) : List VoteFrame :=
    if s.fenced k then []
    else [⟨k, i.inTime && !s.sup.eccBad.getLsbD k && !s.sup.wireBad.getLsbD k, flipActs due i.flips, s.seq.dec⟩]
  .next { s with sup := { s.sup with frames := frame 0 a ++ frame 1 b ++ frame 2 c, eccBad := 0, wireBad := 0 } }

/-! ### The voter (R263 to R265) -/

/-- The bits that at least two of the frames carry. -/
def majority (l : List (BitVec 69)) : BitVec 69 :=
  (l.foldl (fun (acc : BitVec 69 × BitVec 69) x => (acc.1 ||| x, acc.2 ||| (acc.1 &&& x))) (0, 0)).2

def votedActs (l : List VoteFrame) : Vector (BitVec 69) 6 :=
  Vector.ofFn (fun j => majority (l.map (fun f => f.acts.get j)))

def votedDec (l : List VoteFrame) : BitVec 9 :=
  (l.foldl (fun (acc : BitVec 9 × BitVec 9) f => (acc.1 ||| f.dec, acc.2 ||| (acc.1 &&& f.dec))) (0, 0)).2

/-- Safe-off that the voter or the sense die forces, with SUP_DISAGREE (R264 to R266). -/
def State.disagree (s : State) : State := (s.raise Src.supDisagree).safeOff

def outvFld : Nat → Fld
  | 0 => F.SUPV_OUTV_OUTA
  | 1 => F.SUPV_OUTV_OUTB
  | _ => F.SUPV_OUTV_OUTC

/-- Out-votes of an evaluation in three-channel mode: counts, fencing, or SAFE where two channels would reach their third
in a row (R264). -/
def State.judgeChannels (s : State) (acts : Vector (BitVec 69) 6) (dec : BitVec 9) : State :=
  let out (k : Nat) : Bool := !(s.sup.frames.any (fun f => f.chan = k && f.valid && f.acts = acts && f.dec = dec))
  let s := s.each (List.finRange 3) (fun s k =>
    let r := if out k then (s.sup.outRun.get k) + 1 else 0
    let s := { s with sup := { s.sup with outRun := s.sup.outRun.set k r } }
    s.when (out k) (fun s => s.incF (outvFld k) 0))
  match (List.finRange 3).filter (fun k => 3 ≤ s.sup.outRun.get k) with
  | [] => s
  | [k] =>
    let s := (s.setFBit F.SUPV_STAT_FENCED 0 k true).setB F.SUPV_STAT_MODE2 0 true
    (s.histAdd (histCode 4 k)).raise Src.supFence
  | _ => s.disagree

/-! ### The first-fault record (R279 to R282) -/

/-- Opening a record for a raise (R279). -/
def State.ffOpen (s : State) (r : Raise) (acts : Nat) : State :=
  let s := s.setRegs ((List.range 23).map (fun j => (0x220 + j, 0)))
  let s := s.setReg 0x20B 0
  let s := (s.setB F.SUPV_STAT_FFOPEN 0 true).setB F.SUPV_STAT_HDONE 0 false
  let s := ((s.setF F.SUPV_FF_FFSRC 0 r.src).setF F.SUPV_FF_FFSTATE 0 r.st).setF F.SUPV_FF_FFACT 0 acts
  let s := ((s.setF F.SUPV_FFTL_MSLO 0 r.ms.toNat).setF F.SUPV_FFTH_MSHI 0 (r.ms.toNat / 2 ^ 32)).setF F.SUPV_FFTH_US 0 r.us
  let s := { s with sup := { s.sup with ffBase := r.ms.toNat * 1000 + r.us, actsOpen := [] } }
  let snap := s.fB F.OWL_SNAPCFG_AUTO && !s.snapRefused
  let idx := if snap then s.f F.OWL_SNAPST_USED else 0xFF
  let s := s.when (s.fB F.OWL_SNAPCFG_AUTO) (fun s => s.snapTrigger 1)
  s.record 2 [s.reg 0x208, s.reg 0x209, s.reg 0x20A, item idx]

/-- Merging a further fault (R281). -/
def State.ffMerge (s : State) (r : Raise) : State :=
  let known := s.fBit F.SUPV_FFMAP_FFMAP (r.src / 32) (r.src % 32)
  let s := (s.setFBit F.SUPV_FFMAP_FFMAP (r.src / 32) (r.src % 32) true).incF F.SUPV_FFCNT_MCNT 0
  let s := s.setB F.SUPV_STAT_HDONE 0 false
  s.when (!known) (fun s =>
    (s.incF F.SUPV_FFCNT_MSRC 0).setF F.SUPV_FTT_T r.src
      (Nat.min 0xFFFFFFFE (r.ms.toNat * 1000 + r.us - s.sup.ffBase)))

/-- One executed raise: the history queue, LOG and ALERT, and the first-fault record (R271, R279 to R281).  The actions of
a fault are kept until each is complete (R282). -/
def State.takeRaise (s : State) (r : Raise) : State :=
  let acts := s.actions r.src
  let s := s.histAdd (histCode 0 r.src)
  let fault := acts &&& Act.fault != 0
  let s := if !fault then s else if s.fB F.SUPV_STAT_FFOPEN then s.ffMerge r else s.ffOpen r (acts % 256)
  let seq := (s.reg 0x2E02).toNat
  let s := s.when (acts.testBit 0) (fun s => s.recordSrc r.src 0 [])
  let s := s.when (acts.testBit 1) (fun s => s.setB F.SUPV_STAT_ALRT 0 true)
  if !fault then s
  else
    let opens := ([3, 4, 5, 6, 7].filter (fun b => acts.testBit b)).flatMap
      (fun b => (s.targets r.src b).map (fun t => (⟨b, t⟩ : OpenAct)))
    let opens := (if acts.testBit 0 then [(⟨0, seq⟩ : OpenAct)] else []) ++ opens
    { s with sup := { s.sup with actsOpen := s.sup.actsOpen ++ opens } }

/-! ### Carrying out the executed frame (R271, R274) -/

/-- The targets of one action in an executed frame, as region, cluster and phase lists; `0` is the package. -/
def actTargets (b : BitVec 69) : List Nat := bitsOf 69 b.toNat

def State.doCloff (s : State) (ts : List Nat) : State :=
  s.each ts (fun s t =>
    if t = 0 then s.each clusters State.clCloff
    else if t < 5 then s.each (s.rgClusters (t - 1)) State.clCloff
    else if t < 21 then s.clCloff (Fin.ofNat 16 (t - 5))
    else s)

/-- A cluster shed by a reaction: off, with a soft stop where SOFTOFF = 1, and marked (R271). -/
def State.shedCluster (s : State) (n : Fin 16) : State :=
  (s.clTurnOff n).setFBit F.SUPV_CLLAT_SHEDCL 0 n true

def State.doShed (s : State) (ts : List Nat) : State :=
  s.each ts (fun s t =>
    if t = 0 then s.each (clusters.filter (fun (n : Fin 16) => s.fBit F.INP_LADCFG_SHEDMASK 0 n)) State.shedCluster
    else if t < 5 then s.each (s.rgClusters (t - 1)) State.shedCluster
    else if t < 21 then s.shedCluster (Fin.ofNat 16 (t - 5))
    else s.shedPhase (Fin.ofNat 48 (t - 21)))

/-- SEQOFF: of the package it supersedes that of a region (R274); it aborts the injection of its clusters (R148). -/
def State.doSeqoff (s : State) (ts : List Nat) : State :=
  if ts = [] then s
  else if ts.contains 0 then (s.each clusters State.injAbort).packageOff
  else
    let xs := s.downClosure ((List.finRange 4).filter (fun x => ts.contains (1 + x.val)))
    let ns := clusters.filter (fun (n : Fin 16) => ts.contains (5 + n.val))
    let down := ns.flatMap (fun n => if s.isHv n then s.downOf n else [])
    let s := s.each (ns ++ clusters.filter (fun (n : Fin 16) => xs.any (fun x => s.fBit F.RG_CFG_CLMASK x n))) State.injAbort
    s.partialOff ns (xs ++ down) true

/-- The executed frame's actions in the order of R32 and R274: SAFE supersedes every other action but SYSFLT; CLOFF,
SHED and SEQOFF have no effect in STANDBY or DORMOUSE (R285). -/
def State.carryOut (s : State) (acts : Vector (BitVec 69) 6) : State :=
  let s := s.when (acts.get 5 != 0) State.sysfltDrive
  if acts.get 4 ≠ 0 then s.safeOff
  else if s.dev == .sequp || s.dev == .run || s.dev == .seqdn then
    ((s.doCloff (actTargets (acts.get 2))).doShed (actTargets (acts.get 1))).doSeqoff (actTargets (acts.get 3))
  else s

/-- CAP is held from the raise until its source clears, and for at least 1 ms (R271). -/
def State.holdCap (s : State) (rs : List Raise) : State :=
  let now := s.nowUs
  let new := (rs.filter (fun r => (s.actions r.src).testBit 2)).map (fun r => (r.src, r.ms.toNat * 1000 + r.us))
  let kept := s.sup.capHeld.filter (fun h => s.srcBit h.1 || now < h.2 + 1000)
  { s with sup := { s.sup with capHeld := kept.filter (fun h => !new.any (·.1 == h.1)) ++ new } }

/-- A capping request of the reactions stands for a region (R271). -/
def State.capByReaction (s : State) (x : Fin 4) : Bool :=
  s.sup.capHeld.any (fun h => let b := (s.srcActs h.1).get 0; b.getLsbD 0 || b.getLsbD (1 + x.val))

/-- Insertion by source index: of two faults in one evaluation the lower index comes first (R285). -/
def insertRaise (r : Raise) : List Raise → List Raise
  | [] => [r]
  | q :: l => if r.src < q.src then r :: q :: l else q :: insertRaise r l

/-- The raises in the order in which they are taken: those that are no faults, then the faults by index. -/
def State.raiseOrder (s : State) (rs : List Raise) : List Raise :=
  let isFault (r : Raise) := s.actions r.src &&& Act.fault != 0
  rs.filter (fun r => !isFault r) ++ (rs.filter isFault).foldl (fun l r => insertRaise r l) []

/-- VOTE_WINDOW_CLOSE (R263 to R265): the majority bits of the valid frames are executed and the reaction actions carried
out; in two-channel mode both frames must be valid and equal, otherwise SAFE with SUP_DISAGREE; fewer than two valid
frames force SAFE too (R285). -/
def voteWindowClose (s : State) : State :=
  let valid := s.sup.frames.filter (·.valid)
  let acts := votedActs valid
  let dec := votedDec valid
  let rs := s.sup.pend
  let enough := 2 ≤ valid.length
  let s := { s with sup := { s.sup with pend := [] }, seq := { s.seq with dec := 0 } }
  let s := s.holdCap rs
  let s := s.when enough (fun s => s.each (s.raiseOrder rs) State.takeRaise)
  let s := s.when enough (fun s => s.carryOut acts)
  let s := if s.fB F.SUPV_STAT_MODE2 then
      (if enough && valid.all (fun f => f.acts = acts && f.dec = dec) then s else s.disagree)
    else
      let s := s.judgeChannels acts dec
      s.when (!enough) State.disagree
  let s := s.each rs (fun s r => s.when (!heldSource r.src && !(s.sup.pend.any (·.src == r.src))) (fun s => s.setSrcBit r.src false))
  let s := { s with sup := { s.sup with frames := [] } }
  (s.evalHdone).evalAlert

def execVoteWindowClose (s : State) : Host.Outcome State Fault Refusal :=
  if s.sup.frames = [] then .next s else .next (voteWindowClose s)

/-- VOTER_WATCHDOG (R266): the sense die forces safe-off on its own authority and SUP_DISAGREE is raised. -/
def execVoterWatchdog (s : State) : Host.Outcome State Fault Refusal :=
  if s.dev == .boot then .next s else .next s.disagree

/-! ### Wire faults (R267) -/

/-- The consequence of a wire fault for its pair. -/
def State.wirePair (s : State) (pair : Nat) : State :=
  if pair < 0x2E0 then s.raise pair
  else if 0x300 ≤ pair && pair < 0x330 && (pair % 16) < 8 then
    { s with sup := { s.sup with wireBad := s.sup.wireBad ||| BitVec.ofNat 3 (2 ^ ((pair - 0x300) / 16)) } }
  else if pair = 0x341 then ({ s with power := { s.power with heartbeatLost := true } }).safeOff
  else if 0x340 ≤ pair && pair ≤ 0x344 then s.safeOff
  else s

/-- WIRE_FAULT: a pair's wires agree on two samples.  `fresh`: the pair has been free of the fault for 1 ms, or never
had it, so FC_WIRE is raised again. -/
def execWireFault (pair : BitVec 10) (fresh : Bool) (s : State) : Host.Outcome State Fault Refusal :=
  if s.dev == .boot then .next s
  else
    let s := ((s.setB F.SUPV_STAT_WIREF 0 true).setF F.SUPV_WIRE_PAIR 0 pair.toNat).incF F.SUPV_WIRE_WCNT 0
    let s := s.when fresh (fun s => (s.histAdd (histCode 5 pair.toNat)).raise Src.fcWire)
    .next (s.wirePair pair.toNat)

/-! ### SUPV_CTRL (R282, R284) -/

/-- A command of SUPV_CTRL is refused, with CMD_REF. -/
def State.supvRefuse (s : State) (code : Nat) : State × Nat := (s.setB F.SUPV_STAT_CMD_REF 0 true, code)

/-- ACK (R282): accepted only while FFOPEN = 1 and HDONE = 1. -/
def supvAck (confirm : BitVec 16) (s : State) : State × Nat :=
  if confirm.toNat ≠ confirmKey then s.supvRefuse Code.range
  else
    let s := s.evalHdone
    if s.fB F.SUPV_STAT_FFOPEN && s.fB F.SUPV_STAT_HDONE then
      let s := s.setB F.SUPV_STAT_FFOPEN 0 false
      ((s.record 3 [s.reg 0x20B]).accepted 0x0201 1, Code.ok)
    else s.supvRefuse Code.state

/-- SAFE (R284): HOST_SAFE is raised; refused in SAFE, and in BOOT, where the ports do not answer. -/
def supvSafe (confirm : BitVec 16) (s : State) : State × Nat :=
  if confirm.toNat ≠ confirmKey then s.supvRefuse Code.range
  else if s.dev == .safe || s.dev == .boot then s.supvRefuse Code.state
  else ((s.accepted 0x0201 2).raise Src.hostSafe, Code.ok)

/-! ### The dies -/

/-- HEARTBEAT_LOSS (R18, R277): the control die is dead until the next BOOT; safe-off, and no record or history entry. -/
def execHeartbeatLoss (s : State) : Host.Outcome State Fault Refusal :=
  let h := s.sup.hist
  let s := ({ s with power := { s.power with heartbeatLost := true } }).safeOff
  .next { s with sup := { s.sup with hist := h } }

/-- SAFE_FEED_GATE_OFF (R276): 5 ms after the entry to SAFE the gates are turned off and held off. -/
def execSafeFeedGateOff (s : State) : Host.Outcome State Fault Refusal :=
  if s.dev == .safe then .next { s.allGatesOff with power := { s.power with safeGatesOff := true } } else .next s

end Sys2Proof.Machine
end

