-- ==== Sys2Proof/Machine/Txn.lean ====
section
/-! DEFINITION. Transactions and the store (15_host_ports_transactions.md R349 to R356).  The shadows of a transaction are taken in
HostWrite.lean, which also lays them down at the commit tick. -/

namespace Sys2Proof.Machine

def txnTimeoutSrc : Nat := 0x2C8
def storeFailSrc : Nat := 0x2CD

/-- A port as TXN_STATUS.PORT names it. -/
def portNum : Port → Nat
  | .twoWire => 0
  | .stream => 1

/-- TXN_STATUS.STATE: 0 idle, 1 open, 2 checking, 3 waiting for the commit tick. -/
def State.txnState (s : State) : Nat := s.f F.TXN_STATUS_STATE

/-- A port owns the transaction that is open, checking or waiting. -/
def State.txnOwner (s : State) (p : Port) : Bool := s.txnState != 0 && s.f F.TXN_STATUS_PORT == (portNum p)

/-- The next token of the 8-bit count, 0x00 skipped. -/
def nextToken (t : BitVec 8) : BitVec 8 := if t = 255 then 1 else t + 1

/-- Opening a transaction for a port. -/
def State.openTxn (s : State) (p : Port) : State :=
  let t := s.txn.tokenNext
  let s := { s with txn := { s.txn with shadows := [], tokenNext := nextToken t, single := none } }
  let s := ((s.setF F.TXN_STATUS_STATE 0 1).setF F.TXN_STATUS_PORT 0 (portNum p)).setB F.TXN_STATUS_OVF 0 false
  (s.setF F.TXN_STATUS_TOKEN 0 t.toNat).setF F.TXN_STATUS_COUNT 0 0

/-- The end of a transaction: the shadows go, and RESULT says how it ended. -/
def State.endTxn (s : State) (result : Nat) : State :=
  let s := { s with txn := { s.txn with shadows := [], single := none } }
  let s := (s.setF F.TXN_STATUS_STATE 0 0).setF F.TXN_STATUS_RESULT 0 result
  (s.setF F.TXN_STATUS_TOKEN 0 0).setF F.TXN_STATUS_COUNT 0 0

/-- BEGIN (R349). -/
def txnBegin (p : Port) (s : State) : State × Nat :=
  if s.txnState ≠ 0 then (s, Code.busy) else ((s.accepted 0x10 1).openTxn p, Code.ok)

/-- COMMIT and ROLLBACK need the right token of an open transaction (R351). -/
def txnToken (token : BitVec 8) (cmd : Nat) (g : State → State) (s : State) : State × Nat :=
  if 2 ≤ s.txnState then (s, Code.state)
  else if s.txnState = 0 || s.f F.TXN_STATUS_TOKEN ≠ token.toNat then (s, Code.token)
  else (g (s.accepted 0x10 cmd), Code.ok)

/-- What a commit begins: the checks, or with OVF the end (R350, R351). -/
def State.commitTxn (s : State) : State := if s.fB F.TXN_STATUS_OVF then s.endTxn 5 else s.setF F.TXN_STATUS_STATE 0 2

def txnCommit (token : BitVec 8) : State → State × Nat := txnToken token 2 State.commitTxn

/-- ROLLBACK (R353). -/
def txnRollback (token : BitVec 8) : State → State × Nat := txnToken token 3 (fun s => s.endTxn 7)

/-- TXN_TIMEOUT (R353): TMO has passed since BEGIN without a COMMIT. -/
def execTxnTimeout (s : State) : Host.Outcome State Fault Refusal :=
  .next (s.when (s.txnState == 1) (fun s => (s.endTxn 6).raise txnTimeoutSrc))

/-- A register over the running set with the shadows laid over it (R351). -/
def State.layShadows (s : State) : State :=
  s.txn.shadows.foldr (fun p (t : State) => t.setReg p.1 (mergeStored p.1 (t.reg p.1) p.2)) s

/-! ### The store (R355, R356) -/

/-- Every register with an RWS field, in address order. -/
def rwsAddrs : List Nat := (List.range 0x6200).filter isRws

/-- The bank a store writes and its SEQ: the one that does not hold the highest valid SEQ. -/
def State.storeTarget (s : State) : Fin 2 × Word :=
  match s.bankOrder with
  | [] => (0, 1)
  | (k, b) :: _ => (if k = 0 then 1 else 0, b.seq + 1)

/-- Why a store is refused; 0 where it is not. -/
def State.storeRefusal (s : State) : Nat :=
  if s.noImg || 2 ≤ s.f F.DEV_PWRSTAT_LSTAGE then Code.state
  else if s.txnState ≠ 0 || s.fB F.STORE_STAT_BUSY || s.fB F.IMG_OVLSTAT_MIGR_PEND || s.f F.UPD_STAT_SESSION ≠ 0 then Code.busy
  else Code.ok

/-- The start of a store: the running values are taken at once. -/
def State.startStore (s : State) : State :=
  let t := s.storeTarget
  let b : Bank := ⟨BitVec.ofNat 16 (s.f F.IMG_INFO_OVL_FMT), t.2, s.img.ovlHash, rwsAddrs.map (fun a => (a, s.reg a))⟩
  { s with nvm := { s.nvm with storing := some (t.1, b) } }.setB F.STORE_STAT_BUSY 0 true

/-- A store asked for, by any of its three ways; a refusal sets CMD_REF. -/
def storeBegin (s : State) : State × Nat :=
  let c := s.storeRefusal
  if c ≠ Code.ok then (s.setB F.STORE_STAT_CMD_REF 0 true, c) else (s.startStore, Code.ok)

/-- STORE of STORE_CTRL. -/
def storeCommand (confirm : BitVec 16) (s : State) : State × Nat :=
  if confirm.toNat ≠ confirmKey then (s.setB F.STORE_STAT_CMD_REF 0 true, Code.range)
  else
    let r := storeBegin s
    if r.2 = Code.ok then (r.1.accepted 0x18 1, Code.ok) else r

/-- STORE_COMPLETE: whether the bank reads back as written. -/
def execStoreComplete (ok : Bool) (s : State) : Host.Outcome State Fault Refusal :=
  match s.nvm.storing with
  | none => .next s
  | some (k, b) =>
    let s := s.setB F.STORE_STAT_BUSY 0 false
    if ok then
      let s := { s with nvm := { s.nvm with storing := none } }.putBank k b
      .next (((s.setB F.STORE_STAT_DONE 0 true).setF F.STORE_STAT_BANK 0 k).setReg 0x1A b.seq)
    else
      let s := { s with nvm := s.nvm.dropStore }
      let s := (s.setB F.STORE_STAT_FAIL 0 true).setF F.HST_STAT_CML 0 (s.f F.HST_STAT_CML ||| 0x10)
      .next (s.raise storeFailSrc)

end Sys2Proof.Machine
end

