-- ==== Sys2Proof/Machine/Power.lean ====
section
/-! DEFINITION. Supplies, resets, the own-supply ladder, die temperatures and ECC (01_levels_and_blocks.md R18, R19, R24;
02_balls_supplies_ratings.md R39, R44 to R50), and the commands of DEV_CTRL that enter BOOT (R31, R78). -/

namespace Sys2Proof.Machine

/-! ### Power-up and reset (R39, R44, R45) -/

/-- BOOT follows as soon as the conditions of R44 hold: a power-up's first, or one with cause `warm`. -/
def State.bootIfReady (s : State) (warm : Nat) : State :=
  if s.bootReady then s.enterBoot (if s.power.booted then warm else 0) else s

/-- POWER_UP: V5 rises from below 2.5 V.  What only power keeps is lost; the VDDIO mode is latched anew. -/
def execPowerUp (s : State) : Host.Outcome State Fault Refusal :=
  let t := { s with dev := .boot }.bootBase true false
  let t := t.setF F.DEV_PWRSTAT_IOMODE 0 0
  .next { t with power := { resetLow := s.power.resetLow, powered := true, v5Good := true, railsOk := true, rootLocked := true } }

/-- VDDIO_MODE_LATCH: true for 3.3 V. -/
def execVddioModeLatch (v33 : Bool) (s : State) : Host.Outcome State Fault Refusal :=
  if !s.power.powered || s.power.vddioLatched then .next s
  else
    let s := { s with power := { s.power with vddioLatched := true } }.setB F.DEV_PWRSTAT_IOMODE 0 v33
    .next (s.bootIfReady 0)

/-- RESET_ASSERT: every output goes to its state of R36, and the logic is held reset. -/
def execResetAssert (s : State) : Host.Outcome State Fault Refusal :=
  let s := { s with power := { s.power with resetLow := true } }
  .next (s.when s.power.powered (fun s => s.leaveForBoot.bootBase false false))

/-- RESET_RELEASE. -/
def execResetRelease (s : State) : Host.Outcome State Fault Refusal :=
  if s.power.resetLow then .next ({ s with power := { s.power with resetLow := false } }.bootIfReady 2) else .next s

/-! ### RELOAD and RESTART (R31, R69, R78) -/

def State.devRefuse (s : State) (code : Nat) : State × Nat := (s.setB F.DEV_STATE_CMD_REF 0 true, code)

/-- A store, a migration write or an update session is in progress (R78, R241). -/
def State.nvmBusy (s : State) : Bool :=
  s.fB F.STORE_STAT_BUSY || s.fB F.IMG_OVLSTAT_MIGR_PEND || s.f F.UPD_STAT_SESSION != 0

/-- A command of DEV_CTRL: its confirm key, its states, and what must not be in progress. -/
def devCommand (confirm : BitVec 16) (cmd : Nat) (ok : Bool) (g : State → State) (s : State) : State × Nat :=
  if confirm.toNat ≠ confirmKey then s.devRefuse Code.range
  else if !ok then s.devRefuse Code.state
  else if s.nvmBusy then s.devRefuse Code.busy
  else (g (s.accepted 4 cmd), Code.ok)

/-- RELOAD: in STANDBY, recovery apart. -/
def devReload (confirm : BitVec 16) (s : State) : State × Nat :=
  devCommand confirm 1 (s.dev == .standby && !s.noImg) (fun s => s.enterBoot 4) s

/-- RESTART: in STANDBY or SAFE. -/
def devRestart (confirm : BitVec 16) (s : State) : State × Nat :=
  devCommand confirm 2 (s.dev == .standby || s.dev == .safe) (fun s => s.enterBoot 3) s

/-! ### Die temperatures (R19) -/

/-- DIE_TEMP_READING: both dies, in 1/128 C.  The first reading of a BOOT says whether BOOT started hot; later ones can only
end the wait (log entry 70). -/
def execDieTempReading (tctl tsns : BitVec 16) (s : State) : Host.Outcome State Fault Refusal :=
  if !s.power.powered || s.power.resetLow then .next s
  else
    let s := (s.setF F.DEV_TEMP_TCTL 0 tctl.toNat).setF F.DEV_TEMP_TSNS 0 tsns.toNat
    let hot (c : Int) : Bool := decide (c * 128 ≤ tctl.toInt) || decide (c * 128 ≤ tsns.toInt)
    let s := if s.dev == .boot then
        let wait := hot 135 && (s.power.hotWait || !s.power.tempRead)
        ({ s with power := { s.power with hotWait := wait, tempRead := true } }).when wait (fun s => s.setB F.IMG_BOOTSTAT_HOTWAIT 0 true)
      else s.when (hot 140 && !s.power.dieHot) (fun s =>
        ({ s with power := { s.power with dieHot := true } }.raise Src.dieHot).capSuspend)
    .next (s.when (hot 150) State.safeOff)

/-- DIE_HOT_RESUME. -/
def execDieHotResume (s : State) : Host.Outcome State Fault Refusal :=
  if s.power.dieHot then
    let s := { s with power := { s.power with dieHot := false } }.lower Src.dieHot
    .next (if 1 ≤ s.f F.DEV_PWRSTAT_LSTAGE then s else s.capResume)
  else .next s

/-! ### ECC (R24, R324) -/

/-- The consequence of an uncorrectable error. -/
def State.eccBadAt (s : State) : EccAt → State
  | .corrected => s
  | .engine n slotBad missed gap =>
    if n.val < 16 then s.engineFailure (Fin.ofNat 16 n.val) 1 slotBad missed.toNat gap.toNat
    else if s.f F.LE16_STAT_STATE = 1 || s.f F.LE16_STAT_STATE = 2 then
      s.engineFailure (Fin.ofNat 16 (s.f F.LE16_STAT_CL)) 1 slotBad missed.toNat gap.toNat
    else s
  | .channel k => { s with sup := { s.sup with eccBad := BitVec.ofNat 3 (setBitN s.sup.eccBad.toNat k true) } }
  | .service => s.raise Src.svcEcc
  | .ring n i => s.ringEcc n i.toNat
  | .fifo pseq => s.fifoEcc pseq
  | .snap k => s.snapEcc k.toNat
  | .mirror n b => s.updCl n (fun c => if b then { c with frameB := none } else { c with frameA := none })
  | .staging k => { s with owl := { s.owl with staging := s.owl.staging.eraseIdx k.toNat } }.raise Src.memEcc
  | .buffer => s.raise Src.memEcc

/-- ECC_ERROR: counted, and the consequence of the memory it lies in. -/
def execEccError (e : EccAt) (s : State) : Host.Outcome State Fault Refusal :=
  if e = .corrected then .next (s.incF F.DEV_ECC_CORR 0)
  else .next ((s.incF F.DEV_ECC_UNCORR 0).eccBadAt e)

/-! ### Supplies and the own-supply ladder (R46 to R49, R382) -/

/-- SUPPLY_MEASURE: V5 in 1 mV and VIN in 10 mV. -/
def execSupplyMeasure (v5 vin : BitVec 16) (s : State) : Host.Outcome State Fault Refusal :=
  if !s.power.powered || s.power.resetLow then .next s
  else .next ((s.setF F.DEV_SUPPLY_V5 0 v5.toNat).setF F.DEV_SUPPLY_VIN 0 vin.toNat)

/-- The last gasp at L2 (R382): its slot, its event record, and the retry time. -/
def State.lastGasp (s : State) : State :=
  let s := { s with nvm := { s.nvm with lastGasp := some (s.clk.ms, s.clk.us, s.nvm.timeSlot.2) } }
  s.saveState.record 4 [s.clk.ms.setWidth 32, item (s.clk.ms.toNat / 2 ^ 32 + 65536 * s.clk.us), s.nvm.timeSlot.2,
    item (s.f F.INP_RETRY_REMAIN), s.reg 0x20, item s.dev.code, item (s.f F.DEV_PWRSTAT_LSTAGE)]

/-- A transaction open, checking or waiting ends without effect (R353): a result. -/
def State.dropTxn (s : State) (result : Nat) : State := if s.txnState = 0 then s else s.endTxn result

/-- A running store is abandoned at L2 (R356). -/
def State.abandonStore (s : State) : State := { s.setB F.STORE_STAT_BUSY 0 false with nvm := s.nvm.dropStore }

/-- The action of stage `k` (1 to 4) outside BOOT. -/
def State.stageAct (s : State) (k : Nat) : State :=
  match k with
  | 1 => s.stopClose
  | 2 => (s.abandonStore).lastGasp
  | 3 => ((s.dropTxn 7).packageOff)
  | _ => s.safeOff

/-- Stage `k` is reached: LSTAGE, the history (R280), then its action; in BOOT nothing else changes (R47). -/
def State.stage (s : State) (k : Nat) : State :=
  let s := s.setF F.DEV_PWRSTAT_LSTAGE 0 k
  if s.dev == .boot then s else (s.histAdd (histCode 6 (k + 8))).stageAct k

/-- L5: reset, with the core supply gone until V5 recovers. -/
def State.stage5 (s : State) : State :=
  let s := s.leaveForBoot.bootBase false false
  { s with power := { s.power with v5Good := false, railsOk := false, rootLocked := false } }

/-- OWN_SUPPLY_LADDER_STAGE: V5 falls through the threshold of stage `k` + 1; the action of every stage crossed is taken, in
order. -/
def execOwnSupplyLadderStage (k : Fin 5) (s : State) : Host.Outcome State Fault Refusal :=
  if !s.power.powered || s.power.resetLow then .next s
  else
    let from' := s.f F.DEV_PWRSTAT_LSTAGE
    let s := { s with power := { s.power with v5Good := false } }
    let s := s.each ((List.range (Nat.min 4 (k.val + 1))).filter (fun j => from' ≤ j)) (fun s j => s.stage (j + 1))
    .next (s.when (k == 4) State.stage5)

/-- FORCED_L5: after L3 or L4, V5 has stood at or above 4.85 V for 10 ms. -/
def execForcedL5 (s : State) : Host.Outcome State Fault Refusal :=
  if s.power.powered && s.power.railsOk && !s.power.resetLow && 3 ≤ s.f F.DEV_PWRSTAT_LSTAGE then
    let s := { s with power := { s.power with v5Good := true } }
    .next (s.bootIfReady 1)
  else .next s

/-- LADDER_RECOVERY: V5 is back above its release level: BOOT after an L5 reset; in BOOT after L1 or L2, BOOT again. -/
def execLadderRecovery (s : State) : Host.Outcome State Fault Refusal :=
  if !s.power.powered || s.power.v5Good then .next s
  else
    let down := !s.power.railsOk
    let s := { s with power := { s.power with v5Good := true, railsOk := true, rootLocked := true } }
    let l := s.f F.DEV_PWRSTAT_LSTAGE
    if down then .next (s.bootIfReady 1)
    else if s.dev == .boot && l < 3 then .next (s.setF F.DEV_PWRSTAT_LSTAGE 0 0)
    else .next s

end Sys2Proof.Machine
end

