-- ==== Sys2Proof/Machine/Dormouse.lean ====
section
/-! DEFINITION. Dormouse mode (10_battery_estimator.md R241 to R243). -/

namespace Sys2Proof.Machine

/-- Setting or clearing DMFLAG in the counter area. -/
def State.setDmFlag (s : State) (b : Bool) : State := (s.setB F.BAT_DMSTAT_DMFLAG 0 b).saveState

/-- z, SOCREP, Q and the equivalent full cycles of instance 0, in the units of their registers. -/
def State.dormouseItems (s : State) : List Word :=
  let b := s.bat.get 0
  [itemI (roundAway (b.z * 10000)), item (s.f F.BAT_SOC_SOCREP 0), item (b.q / 10), item b.efc]

/-- DORMOUSE: DEV_CTRL command 0x03 (R241). -/
def devDormouse (confirm : BitVec 16) (s : State) : State × Nat :=
  let ok := s.dev == .standby && !s.noImg && !s.shelf && !s.fB F.INP_HOLDCAP_HSRC && s.fB F.BAT_CFG_EN
  devCommand confirm 3 ok (fun s =>
    let s := { s with pins := { s.pins with bchg := false, ben := false } }
    let s := (s.recordSrc 0x3FF 1 s.dormouseItems).setDmFlag true
    (s.enter .dormouse).evalBen) s

/-- A wake: DMFLAG is cleared, and BOOT follows with cause 0x5. -/
def State.wake (s : State) : State := (s.setDmFlag false).enterBoot 5

/-- WAKE: BAT_DMCTRL command 0x01, accepted only in DORMOUSE. -/
def batWake (confirm : BitVec 16) (s : State) : State × Nat :=
  if confirm.toNat ≠ confirmKey then (s, Code.range)
  else if s.dev != .dormouse then (s, Code.state)
  else ((s.accepted 0x2780 1).wake, Code.ok)

/-- DORMOUSE_BUS_WAKE: after a dip below UVF, an input of FEED A or B has stayed above its UVR for 2 s. -/
def execDormouseBusWake (s : State) : Host.Outcome State Fault Refusal := .next (s.when (s.dev == .dormouse) State.wake)

/-- DMHOLD_CLEAR: an input of FEED A or B has stayed above its UVR for 2 s since the entry to STANDBY (R243). -/
def execDmholdClear (s : State) : Host.Outcome State Fault Refusal :=
  if s.dev == .boot || !s.fB F.BAT_DMSTAT_DMHOLD then .next s
  else
    let s := (s.setB F.BAT_DMSTAT_DMHOLD 0 false).setB F.BAT_DMSTAT_WOKE 0 true
    let s := (s.setDmFlag false).recordSrc 0x3FF 2 []
    .next (s.evalBen).evalStart

end Sys2Proof.Machine
end

