-- ==== Sys2Proof/Machine/Feeds.lean ====
section
/-! DEFINITION. The feeds' commands (09_feeds_insertion_breaker.md R199 to R218): seating, inrush, qualification, transfers,
trips and their clearing, the unseat shutdown, the bus ladder and the leak check. -/

namespace Sys2Proof.Machine

/-! ### Transfers -/

/-- A feed loses its qualification at once (R202). -/
def State.unqualify (s : State) (f : Fin 3) : State :=
  s.setB F.FEED_STAT_QUAL f false

/-- The conducting feed, in the board role. -/
def State.conducting (s : State) : Option (Fin 3) := feeds3.find? (fun f => s.gate f == .conducting)

/-- Feed `f` stands higher than `g` in the order P0, P1, P2 (R203). -/
def State.standsHigher (s : State) (f g : Fin 3) : Bool :=
  s.prioOrder.findIdx (· == f) < s.prioOrder.findIdx (· == g)

/-- A trigger that moves the board away from `f`: at once, or after the running transfer (R204, R219).  The rack-shelf
role has no transfer (R217). -/
def State.leaveFeed (s : State) (f : Fin 3) : State :=
  if s.shelf then s
  else if s.inp.xfer == .idle then (if s.gate f == .conducting then s.startTransfer f else s)
  else { s with inp := { s.inp with queuedTrig := s.inp.queuedTrig.or (some f.val) } }

/-- Feed `f` has completed RETT (R203): a transfer to it from a lower feed. -/
def State.returnTo (s : State) (f : Fin 3) : State :=
  if s.shelf || s.f F.INP_PRIO_PIN ≠ 3 || !s.feedOk f then s
  else if s.inp.xfer == .idle then
    match s.conducting with
    | some c => if s.standsHigher f c then s.startTransfer c else s
    | none => s
  else { s with inp := { s.inp with queuedTrig := s.inp.queuedTrig.or (some (4 + f.val)) } }

/-- A write of PIN takes effect (R203, R204). -/
def State.applyPin (s : State) (pin : Nat) : State :=
  let s := s.setF F.INP_PRIO_PIN 0 pin
  if s.shelf then s
  else
    match s.conducting, feeds3.find? (fun f => f.val = pin && s.feedOk f) with
    | some c, some f => if c = f then s else s.startTransfer c
    | none, _ => s.evalFeedSel
    | _, _ => s

/-- What waited for a transfer to end (R219): the second trigger, then the PIN write. -/
def State.afterTransfer (s : State) : State :=
  let trig := s.inp.queuedTrig
  let pin := s.inp.queuedPin
  let s := { s with inp := { s.inp with queuedTrig := none, queuedPin := none } }
  let s := match trig with
    | some t =>
      if t < 4 then s.leaveFeed (Fin.ofNat 3 t) else s.returnTo (Fin.ofNat 3 (t - 4))
    | none => s
  match pin with
  | some p =>
    if s.inp.xfer == .idle then s.applyPin p else { s with inp := { s.inp with queuedPin := some p } }
  | none => s

/-- A transfer ends with no feed (R205). -/
def State.noFeed (s : State) : State :=
  let s := { s with inp := { s.inp with xfer := .idle, old := none } }
  let s := ((s.setB F.INP_STAT_XFER 0 false).setB F.INP_STAT_NOFEED 0 true).raise Src.feedNone
  (s.evalVbusq).afterTransfer

/-! ### Seating (R199, R211, R213) -/

/-- SEAT_QUALIFIED: both balls have read seated for 100 ms.  A reseat after a trip sets RESEATPEND (in BOOT: on the entry
to STANDBY); in the rack-shelf role only with SEAT_USE = 1 (R217). -/
def execSeatQualified (s : State) : Host.Outcome State Fault Refusal :=
  if s.fB F.INP_SEAT_SEATOK then .next s
  else
    let s := ((s.setB F.INP_SEAT_SEATOK 0 true).setB F.INP_SEAT_SEAT1 0 true).setB F.INP_SEAT_SEAT2 0 true
    let counts := !s.shelf || s.fB F.DEV_ONOFF_CFG_SEAT_USE
    if s.dev == .boot then .next { s with inp := { s.inp with reseatBoot := true } }
    else
      let s := s.when (counts && s.anyTrip) (fun s =>
        let s := (s.setB F.INP_SEAT_RESEATPEND 0 true).saveState
        s.when (s.f F.INP_RETRY_REMAIN == 0) State.clearTrips)
      .next ((s.evalBen).evalFeedSel).evalOnreq

/-- The unseat shutdown (R213): GA and GB are turned off and HOLD is connected where it is qualified. -/
def State.unseatStart (s : State) : State :=
  let s := { s with inp := { s.inp with unseat := true } }
  let busy := feeds3.filter (fun f => f.val < 2 && (s.gate f == .inrush || s.gate f == .conducting || s.gate f == .charging))
  match busy with
  | f :: _ => { s.startTransfer f with inp := { (s.startTransfer f).inp with queuedTrig := none } }
  | [] =>
    if s.inp.xfer == .waitOff || s.inp.xfer == .deadTime then { s with inp := { s.inp with old := none } } else s

/-- SEAT_LOSS: a ball has read high for 250 ns; `seat1`, `seat2`: what the balls now read (seated). -/
def execSeatLoss (seat1 seat2 : Bool) (s : State) : Host.Outcome State Fault Refusal :=
  let was := s.fB F.INP_SEAT_SEATOK
  let s := ((s.setB F.INP_SEAT_SEATOK 0 false).setB F.INP_SEAT_SEAT1 0 seat1).setB F.INP_SEAT_SEAT2 0 seat2
  if !was then .next s
  else if s.dev == .boot then .next { s with inp := { s.inp with reseatBoot := false } }
  else
    let s := s.raise Src.seatLoss
    let s := s.when (!s.shelf && (s.dev == .sequp || s.dev == .run || s.dev == .seqdn)) State.unseatStart
    .next (s.evalBen).evalOnreq

/-- UNSEAT_TIMEOUT (R213): every cluster still on is turned off at once, GH is turned off and BEN driven low. -/
def execUnseatTimeout (s : State) : Host.Outcome State Fault Refusal :=
  if !s.inp.unseat then .next s
  else
    let s := (s.each clusters State.clOff).allGatesOff
    .next { s with inp := { s.inp with unseat := false } }.evalBen

/-! ### Inrush and VBUS (R201) -/

/-- A gate is conducting: CONDUCT and, in the board role, SEL. -/
def State.conductNow (s : State) (f : Fin 3) : State :=
  let s := (s.setGate f .conducting).setB F.FEED_STAT_CONDUCT f true
  let s := s.when (!s.shelf) (fun s => s.setF F.INP_STAT_SEL 0 f)
  (s.evalHold).evalBen

/-- INRUSH_COMPLETE. -/
def execInrushComplete (f : Fin 3) (s : State) : Host.Outcome State Fault Refusal :=
  if s.gate f == .inrush then .next (s.conductNow f) else .next s

/-- VBUS_QUALIFIED: 1 ms within the conducting feed's window. -/
def execVbusQualified (s : State) : Host.Outcome State Fault Refusal :=
  if s.conducting.isSome then .next (s.setB F.INP_STAT_VBUSQ 0 true) else .next s

/-- INRUSH_TIMEOUT: a trip with CAUSE 3.  `amps` is the shunt current in mA, `vbus` VBUS in mV (R210's record). -/
def execInrushTimeout (f : Fin 3) (amps : Int) (vbus : BitVec 20) (s : State) : Host.Outcome State Fault Refusal :=
  if s.gate f == .inrush then .next (s.feedTrip f 3 amps vbus.toNat) else .next s

/-! ### Qualification and selection (R202, R203) -/

/-- HOLD's further condition: the pack contactor closed through BEN, or a capacitor bank; the rack-shelf role's HOLD is
the battery-shelf connection, whose contactor BEN does not drive (R217, R244). -/
def State.holdReady (s : State) : Bool := s.fB F.INP_HOLDCAP_HSRC || (s.bat.get 0).benLong || s.shelf

/-- FEED_QUALIFIED: QUALT without interruption. -/
def execFeedQualified (f : Fin 3) (s : State) : Host.Outcome State Fault Refusal :=
  if s.fB F.FEED_CFG_EN f && !s.fB F.FEED_STAT_TRIPLAT f && (f.val != 2 || s.holdReady) then
    let s := s.setB F.FEED_STAT_QUAL f true
    let s := s.when (f.val < 2) (fun s => s.setB F.INP_STAT_B5LAT 0 false)
    .next (s.evalFeedSel).evalStart
  else .next s

/-- FEED_QUALIFICATION_LOSS, of a feed that is not conducting. -/
def execFeedQualificationLoss (f : Fin 3) (s : State) : Host.Outcome State Fault Refusal :=
  if s.gate f == .conducting then .next s else .next (s.unqualify f)

/-- RETURN_DELAY_EXPIRY: `f` has been qualified and higher than the conducting feed for RETT. -/
def execReturnDelayExpiry (f : Fin 3) (s : State) : Host.Outcome State Fault Refusal := .next (s.returnTo f)

/-- FEED_PIN_WRITE: a host's write of PIN; during a transfer it waits (R219). -/
def feedPinWrite (pin : BitVec 2) (s : State) : State × Nat :=
  if s.inp.xfer == .idle then (s.applyPin pin.toNat, Code.ok)
  else ({ s with inp := { s.inp with queuedPin := some pin.toNat } }, Code.ok)

/-! ### Transfer triggers and the transfer (R204 to R206) -/

/-- The feed conducts, or its gate charges at the end of a transfer. -/
def State.carries (s : State) (f : Fin 3) : Bool := s.gate f == .conducting || s.gate f == .charging

/-- FEED_UV. -/
def execFeedUv (f : Fin 3) (s : State) : Host.Outcome State Fault Refusal :=
  if s.carries f then
    .next ((((s.setB F.FEED_STAT_UV f true).raise (Src.feedUv f)).unqualify f).leaveFeed f)
  else .next s

/-- FEED_OV. -/
def execFeedOv (f : Fin 3) (s : State) : Host.Outcome State Fault Refusal :=
  if s.carries f then
    .next ((((s.setB F.FEED_STAT_OV f true).raise (Src.feedOv f)).unqualify f).leaveFeed f)
  else .next s

/-- FEED_REV. -/
def execFeedRev (f : Fin 3) (s : State) : Host.Outcome State Fault Refusal :=
  if s.carries f then .next (((s.setB F.FEED_STAT_REV f true).raise (Src.feedRev f)).leaveFeed f) else .next s

/-- The feed whose gate is being discharged. -/
def State.leaving (s : State) : Option (Fin 3) := feeds3.find? (fun f => s.gate f == .discharging)

/-- TRANSFER_GATE_OFF: the old gate is confirmed off. -/
def execTransferGateOff (s : State) : Host.Outcome State Fault Refusal :=
  if s.inp.xfer == .waitOff then
    let s := match s.leaving with | some f => s.setGate f .off | none => s
    .next { s with inp := { s.inp with xfer := .deadTime } }
  else .next s

/-- TRANSFER_DEAD_TIME_END: the selected feed, chosen afresh without the old one, is charged; or none is left. -/
def execTransferDeadTimeEnd (s : State) : Host.Outcome State Fault Refusal :=
  if s.inp.xfer == .deadTime then
    match s.selected s.inp.old with
    | some f => .next { s.setGate f .charging with inp := { s.inp with xfer := .charging } }
    | none => .next s.noFeed
  else .next s

/-- TRANSFER_COMPLETE: the new gate conducts; `gap` in 10 ns. -/
def execTransferComplete (gap : BitVec 16) (s : State) : Host.Outcome State Fault Refusal :=
  match s.inp.xfer, feeds3.find? (fun f => s.gate f == .charging) with
  | .charging, some f =>
    let s := { s with inp := { s.inp with xfer := .idle, old := none } }
    let s := (((s.setB F.INP_STAT_XFER 0 false).setF F.INP_STAT_LASTGAP 0 gap.toNat).incF F.INP_XCNT_XCNT 0).conductNow f
    .next s.afterTransfer
  | _, _ => .next s

/-- FEED_GATE (R206): 300 ns without confirmation; the new gate waits. -/
def execFeedGate (s : State) : Host.Outcome State Fault Refusal :=
  match s.inp.xfer, s.leaving with
  | .waitOff, some f => .next ((s.setB F.FEED_STAT_GATEF f true).raise (Src.feedGate f))
  | _, _ => .next s

/-- GATE_CONFIRM_TIMEOUT (R206): 10 us without confirmation: no feed is turned on, and the old feed trips with CAUSE 4. -/
def execGateConfirmTimeout (amps : Int) (vbus : BitVec 20) (s : State) : Host.Outcome State Fault Refusal :=
  match s.inp.xfer, s.leaving with
  | .waitOff, some f => .next ((s.setB F.FEED_STAT_GATEF f true).feedTrip f 4 amps vbus.toNat)
  | _, _ => .next s

/-! ### The breaker (R208 to R210) -/

/-- CURRENT_LIMIT_ENTRY: INLIM reads 1, and IIN_OC_WARNING latches on the feed's page (R338). -/
def execCurrentLimitEntry (f : Fin 3) (s : State) : Host.Outcome State Fault Refusal :=
  if s.gate f == .inrush || s.carries f then
    .next ((s.setB F.FEED_STAT_INLIM f true).latch F.HST_PSTAT_INPUT (16 + f) 0x02)
  else .next s

/-- FAULT_TIMER_CLEAR: INLIM has read 0 for 1 ms. -/
def execFaultTimerClear (f : Fin 3) (s : State) : Host.Outcome State Fault Refusal :=
  .next (s.setB F.FEED_STAT_INLIM f false)

/-- FAULT_TIMER_TRIP: CAUSE 1. -/
def execFaultTimerTrip (f : Fin 3) (amps : Int) (vbus : BitVec 20) (s : State) : Host.Outcome State Fault Refusal :=
  if s.fB F.FEED_STAT_INLIM f then .next (s.feedTrip f 1 amps vbus.toNat) else .next s

/-- FEED_FOX: CAUSE 2, armed whenever the gate is not off. -/
def execFeedFox (f : Fin 3) (amps : Int) (vbus : BitVec 20) (s : State) : Host.Outcome State Fault Refusal :=
  if s.gate f == .off then .next s else .next (s.feedTrip f 2 amps vbus.toNat)

/-! ### Clearing trips (R211, R212) -/

/-- TOGGLE: accepted in STANDBY; elsewhere refused with CMDREF. -/
def inpToggle (confirm : BitVec 16) (s : State) : State × Nat :=
  if confirm.toNat ≠ confirmKey then (s.setB F.INP_STAT_CMDREF 0 true, Code.range)
  else if s.dev == .standby then (((s.accepted 0x2463 1).clearTrips).evalStart, Code.ok)
  else (s.setB F.INP_STAT_CMDREF 0 true, Code.state)

/-- RETRY_TIMER_EXPIRY: the value 0 is written to NVM, and the latch clears if RESEATPEND is set. -/
def execRetryTimerExpiry (s : State) : Host.Outcome State Fault Refusal :=
  if s.fB F.INP_RETRY_RUNNING && s.dev != .boot then
    let s := ((s.setF F.INP_RETRY_REMAIN 0 0).setB F.INP_RETRY_RUNNING 0 false).saveState
    .next (s.when (s.fB F.INP_SEAT_RESEATPEND) (fun s => s.clearTrips.evalStart))
  else .next s

/-- RETRY_TIMER_SAVE: every 10 minutes while the timer counts. -/
def execRetryTimerSave (s : State) : Host.Outcome State Fault Refusal :=
  if s.fB F.INP_RETRY_RUNNING then .next s.saveState else .next s

/-! ### The bus ladder (R214, R215) -/

/-- A stage's own action on entry. -/
def State.ladderAct (s : State) (k : Nat) : State :=
  match k with
  | 3 => s.each (clusters.filter (fun (n : Fin 16) => s.fBit F.INP_LADCFG_SHEDMASK 0 n && (s.cl.get n).run != .off))
      (fun s n => ((s.clTurnOff n).setFBit F.SUPV_CLLAT_SHEDCL 0 n true).updCl n (fun c => { c with b3Shed := true }))
  | 5 => (s.setB F.INP_STAT_B5LAT 0 true).packageOff
  | _ => s

/-- BUS_LADDER_ENTRY: stage `k + 1` and every stage below it that is not active enter in one evaluation.  `energy`: by the
hold-energy condition.  The stages act through BSTAGE (B1 BCHG, B2 budgets, B4 density). -/
def execBusLadderEntry (k : Fin 5) (s : State) : Host.Outcome State Fault Refusal :=
  let st := k.val + 1
  let now := s.f F.INP_STAT_BSTAGE
  if s.shelf || st ≤ now then .next s
  else
    let s := (s.setF F.INP_STAT_BSTAGE 0 st).raise Src.busLadder
    let s := s.each ((List.range 5).map (· + 1) |>.filter (fun j => now < j && j ≤ st))
      (fun s j => (s.histAdd (histCode 6 j)).ladderAct j)
    .next s.evalBen

/-- The power-up step of a cluster (R215, R247); 32 where it has none. -/
def State.stepOf (s : State) (n : Fin 16) : Nat :=
  (List.range (s.f F.SEQ_CFG_NSTEP)).findIdx (fun k => (s.stepClusters k).contains n)

/-- On the release of B3 the shed clusters are started again in the order of their power-up steps. -/
def State.releaseB3 (s : State) : State :=
  let order := (List.range 33).flatMap (fun k => clusters.filter (fun n => (s.cl.get n).b3Shed && s.stepOf n == k))
  s.each order (fun s n =>
    let s := s.updCl n (fun c => { c with b3Shed := false })
    if (s.dev == .sequp || s.dev == .run) && !s.clBarred n && (s.cl.get n).run == .off then s.clStart n
    else s)

/-- BUS_LADDER_RELEASE: the deepest stage's release conditions have held for 10 ms; B5 never releases. -/
def execBusLadderRelease (s : State) : Host.Outcome State Fault Refusal :=
  let now := s.f F.INP_STAT_BSTAGE
  if now = 0 || now = 5 then .next s
  else
    let s := s.setF F.INP_STAT_BSTAGE 0 (now - 1)
    .next (s.when (now == 3) State.releaseB3).evalBen

/-! ### Leak (R218) -/

/-- FEED_LEAK: VBUS above 5 V for 10 ms with every gate off, in STANDBY. -/
def execFeedLeak (s : State) : Host.Outcome State Fault Refusal :=
  if s.dev == .standby && !s.gateBusy then
    .next { (s.setB F.INP_STAT_LEAK 0 true).raise Src.feedLeak with inp := { s.inp with leakBar := true } }
  else .next s

/-- FEED_LEAK_CLEAR: VBUS below 2 V. -/
def execFeedLeakClear (s : State) : Host.Outcome State Fault Refusal :=
  if s.inp.leakBar then .next ({ s.lower Src.feedLeak with inp := { s.inp with leakBar := false } }).evalStart
  else .next s

end Sys2Proof.Machine
end

