-- ==== Sys2Proof/Machine/Ring.lean ====
section
/-! DEFINITION. The Lempin ring and the rack (16_field_buses_and_ring.md R366 to R377): frames, start-up and mastership, breaks,
and the rack budget. -/

namespace Sys2Proof

/-- Payload byte `k` of a ring frame. -/
def RingFrame.b (f : RingFrame) (k : Nat) : Nat := (f.pay.toList.getD k 0).toNat

/-- Payload bytes `k` and `k + 1`, low byte first. -/
def RingFrame.h (f : RingFrame) (k : Nat) : Nat := f.b k + 256 * f.b (k + 1)

end Sys2Proof

namespace Sys2Proof.Machine

/-! ### Frames (R367 to R369) -/

/-- The 14 data bytes of a frame. -/
def frameBytes (type prot src dst : Nat) (bcast : Bool) (seq : Nat) (pay : List Byte) : List Byte :=
  let l := [BitVec.ofNat 8 (type * 16 + prot * 4), BitVec.ofNat 8 src, BitVec.ofNat 8 (dst + 64 * bcast.toNat),
    BitVec.ofNat 8 seq] ++ pay
  l ++ leBytes 2 (crc16 l).toNat

/-- The bytes of a received frame. -/
def ringBytes (f : RingFrame) (type : Nat) : List Byte :=
  frameBytes type f.prot.toNat f.src.toNat f.dst.toNat f.bcast f.seq.toNat f.pay.toList

/-- A device that takes part in the ring (R360, R370): EN = 1, in STANDBY or a later state, not in recovery. -/
def State.ringOn (s : State) : Bool := s.fB F.LNK_CFG_EN && s.dev != .boot && !s.noImg

/-- The master, where it sends: in SAFE it stops (R377). -/
def State.isMaster (s : State) : Bool := s.ringOn && s.f F.LNK_STAT_STATE == 5 && s.dev != .safe

/-- A member that holds an address. -/
def State.isMember (s : State) : Bool := s.ringOn && s.f F.LNK_STAT_STATE != 5 && s.fB F.LNK_STAT_ADDRV

/-- The device's own ring protocol, before enumeration has found the ring's. -/
def State.ownProt (s : State) : Nat := if s.f F.LNK_STAT_PROT = 0 then s.f F.LNK_CFG_PROTMAX else s.f F.LNK_STAT_PROT

/-- Inserting a frame of its own. -/
def State.send (s : State) (type dst : Nat) (bcast : Bool) (pay : List Byte) : State :=
  let r := s.ring
  let fr := frameBytes type s.ownProt (s.f F.LNK_STAT_ADDR) dst bcast r.seq.toNat (pay ++ List.replicate (8 - pay.length) 0)
  { s with ring := { r with sent := r.sent ++ [fr], seq := r.seq + 1 } }

/-- A ring command begins: what the last one sent and forwarded is over. -/
def State.ringBegin (s : State) : State := { s with ring := { s.ring with sent := [], fwd := [] } }

/-- Forwarding a received frame cut-through (R369): not the device's own, and nothing while its input is down. -/
def State.forward (s : State) (type : Nat) (f : RingFrame) : State :=
  if !s.ring.rxUp || (s.fB F.LNK_STAT_ADDRV && f.src.toNat == s.f F.LNK_STAT_ADDR) then s
  else { s with ring := { s.ring with fwd := s.ring.fwd ++ [ringBytes f type] } }

/-- Receiving a frame: nothing where the device takes no part or its receiver is down. -/
def State.receive (s : State) (type : Nat) (f : RingFrame) (g : State → State) : State :=
  let s := s.ringBegin
  if s.ringOn && s.ring.rxUp then g (s.forward type f) else s

/-! ### The ring order (R33, R371, R375) -/

/-- The ring order in force. -/
def State.setOrder (s : State) (o : RingOrder) : State :=
  let s := { s with ring := { s.ring with orderRx := o } }
  (s.setF F.LNK_STAT_RORDER 0 (match o with | .none => 0 | .on => 1 | .off => 2)).evalOnreq

/-! ### Link (R366, R372) -/

/-- RING_LINK_UP. -/
def execRingLinkUp (s : State) : Host.Outcome State Fault Refusal :=
  if !s.ringOn || s.ring.rxUp then .next s
  else
    let s := { s with ring := { s.ring with rxUp := true } }
    let s := s.when (s.f F.LNK_STAT_STATE < 2) (fun s => s.setF F.LNK_STAT_STATE 0 2)
    .next ((s.lower Src.lnkDown).lower Src.lnkBreak)

/-- BREAK from a member whose input is down (R368). -/
def State.sendBreak (s : State) : State := s.send 0xB 0 false [BitVec.ofNat 8 (s.f F.LNK_STAT_ADDR)]

/-- RING_LINK_DOWN: with the code violations seen. -/
def execRingLinkDown (viol : BitVec 16) (s : State) : Host.Outcome State Fault Refusal :=
  if !s.ringOn || !s.ring.rxUp then .next s
  else
    let s := s.ringBegin
    let member := s.isMember
    let s := ({ s with ring := { s.ring with rxUp := false } }).incF F.LNK_ERR_CODEV 0 viol.toNat
    let s := (s.when (s.f F.LNK_STAT_STATE != 5) (fun s => s.setF F.LNK_STAT_STATE 0 1)).raise Src.lnkDown
    .next (s.when member (fun s => ((s.setB F.LNK_STAT_BREAKF 0 true).raise Src.lnkBreak).sendBreak))

/-- BREAK_SEND: every 10 us while a member's input is down. -/
def execBreakSend (s : State) : Host.Outcome State Fault Refusal :=
  if s.isMember && !s.ring.rxUp then .next s.ringBegin.sendBreak else .next s

/-! ### Claim and enumeration (R370, R371) -/

/-- The payload of the device's own CLAIM: MPRI, 0 and the low 48 bits of the serial number. -/
def State.claimPay (s : State) : List Byte :=
  [BitVec.ofNat 8 (s.f F.LNK_CFG_MPRI), 0] ++ leBytes 6 (s.nvm.serial.toNat % 2 ^ 48)

/-- A claim ranks above the device's own: a higher MPRI, or the same with a lower serial number. -/
def State.claimAbove (s : State) (f : RingFrame) : Bool :=
  let own := s.f F.LNK_CFG_MPRI
  own < f.b 0 || (f.b 0 == own && decide (leNat (f.pay.toList.drop 2) < s.nvm.serial.toNat % 2 ^ 48))

/-- RING_CLAIM: an MCAP device has seen no BEACON for 1 ms. -/
def execRingClaim (s : State) : Host.Outcome State Fault Refusal :=
  if s.ringOn && s.shelf && s.fB F.LNK_CFG_MCAP && s.ring.rxUp && s.f F.LNK_STAT_STATE != 5 && s.dev != .safe then
    let s := (s.ringBegin.setF F.LNK_STAT_STATE 0 3).setB F.LNK_STAT_ADDRV 0 false
    let s := { s with ring := { s.ring with claimHi := false } }
    .next (s.send 3 0 true s.claimPay)
  else .next s

/-- A new master is seen by a node that saw the old one (R371). -/
def State.masterChange (s : State) : State :=
  let chg := s.ring.hadMaster && s.ring.claimSeen
  let s := { s with ring := { s.ring with claimSeen := false } }
  s.when chg (fun s => s.raise Src.lnkMchg)

/-- The node table at an enumeration: no node has reported, and those below `nodes` are reachable. -/
def State.nodesReset (s : State) (nodes : Nat) : State :=
  s.each (List.range 64) (fun s p => (s.setB F.NODE_A_REACH p (p < nodes)).setB F.NODE_A_RPTD p false)

/-- The master sends ENUM with NEXT = 1. -/
def State.startEnum (s : State) : State := s.send 2 0 true [1, BitVec.ofNat 8 (s.f F.LNK_CFG_PROTMAX)]

/-- CLAIM received: a claimant yields to a higher one, and becomes master when its own returns with no higher seen. -/
def execClaim (f : RingFrame) (s : State) : Host.Outcome State Fault Refusal :=
  let s := s.ringBegin
  if !s.ringOn || !s.ring.rxUp then .next s
  else if s.f F.LNK_STAT_STATE = 3 && f.pay.toList == s.claimPay then
    if s.ring.claimHi then .next s
    else
      let s := ((s.setF F.LNK_STAT_STATE 0 5).setF F.LNK_STAT_ADDR 0 0).setB F.LNK_STAT_ADDRV 0 true
      let s := { s with ring := { s.ring with claimSeen := true, freeze := false, lost := false, token := 0 } }
      let s := (s.masterChange.lower Src.lnkMlost).setOrder .none
      .next ({ s with ring := { s.ring with hadMaster := true } }).startEnum
  else
    let s := { s with ring := { s.ring with claimSeen := true } }
    let s := s.forward 3 f
    .next (s.when (s.f F.LNK_STAT_STATE == 3 && s.claimAbove f) (fun s =>
      ({ s with ring := { s.ring with claimHi := true } }).setF F.LNK_STAT_STATE 0 2))

/-- The ENUM that a member sends on (R370): store-and-forward, NEXT + 1 and the lower protocol. -/
def State.enumOn (s : State) (f : RingFrame) : State :=
  let pay : List Byte := [BitVec.ofNat 8 (f.b 0 + 1), BitVec.ofNat 8 (Nat.min (f.b 1) (s.f F.LNK_CFG_PROTMAX))]
    ++ List.replicate 6 0
  let fr := frameBytes 2 f.prot.toNat f.src.toNat f.dst.toNat f.bcast f.seq.toNat pay
  { s with ring := { s.ring with sent := s.ring.sent ++ [fr] } }

/-- ENUM received: the master's returns, a member takes its address, or there is none left to take. -/
def execEnum (f : RingFrame) (s : State) : Host.Outcome State Fault Refusal :=
  let s := s.ringBegin
  if !s.ringOn || !s.ring.rxUp then .next s
  else if s.f F.LNK_STAT_STATE = 5 then
    let nodes := Nat.min 64 (f.b 0)
    let s := ((s.setF F.LNK_STAT_NODES 0 nodes).setF F.LNK_STAT_PROT 0 (f.b 1)).nodesReset nodes
    .next (s.follow Src.lnkNodes (64 < f.b 0))
  else
    let s := s.masterChange
    if 1 ≤ f.b 0 && f.b 0 ≤ 63 then
      let s := (s.setF F.LNK_STAT_ADDR 0 (f.b 0)).setB F.LNK_STAT_ADDRV 0 true
      .next ((s.when (s.f F.LNK_STAT_STATE != 4) (fun s => s.setF F.LNK_STAT_STATE 0 2)).enumOn f)
    else .next ((s.setB F.LNK_STAT_ADDRV 0 false).forward 2 f)

/-! ### Running (R370, R371) -/

/-- BEACON_SEND: the next TOKEN. -/
def execBeaconSend (s : State) : Host.Outcome State Fault Refusal :=
  if !s.isMaster then .next s
  else
    let s := s.ringBegin
    let n := s.f F.LNK_STAT_NODES
    let t := if s.ring.token + 1 < n then s.ring.token + 1 else if 2 ≤ n then 1 else 0
    let s := { s with ring := { s.ring with token := t, beacons := s.ring.beacons + 1 } }
    .next (s.send 1 0 true ([BitVec.ofNat 8 t, BitVec.ofNat 8 n, BitVec.ofNat 8 (s.f F.LNK_STAT_PROT),
      BitVec.ofNat 8 (s.f F.LNK_STAT_CLOSED)] ++ leBytes 4 s.ring.beacons.toNat))

/-- The REPORT of a member that holds the token (R368). -/
def State.sendReport (s : State) : State :=
  s.send 0xA 0 false (leBytes 2 (s.f F.THM_BRDSTAT_PWR) ++ leBytes 2 (s.f F.THM_BRD_BRD_BUD)
    ++ [BitVec.ofNat 8 s.dev.code, BitVec.ofNat 8 (s.f F.THM_BRDSTAT_OVER + 2 * s.f F.THM_RACK_RVALID)])

/-- BEACON received.  `steady`: BEACONs have now come for 1 ms.  `rt`: at the master, its round trip in 0.1 ns. -/
def execBeacon (f : RingFrame) (steady : Bool) (rt : BitVec 32) (s : State) : Host.Outcome State Fault Refusal :=
  .next (s.receive 1 f (fun s =>
    if s.f F.LNK_STAT_STATE = 5 then
      let n := s.f F.LNK_STAT_NODES
      let s := s.setB F.LNK_STAT_CLOSED 0 true
      if n = 0 then s else { s with ring := { s.ring with hopd := rt.toNat / n } }
    else if !s.fB F.LNK_STAT_ADDRV then s
    else
      let s := (s.setF F.LNK_STAT_STATE 0 4).setF F.LNK_STAT_NODES 0 (f.b 1)
      let s := (s.setF F.LNK_STAT_PROT 0 (f.b 2)).setF F.LNK_STAT_CLOSED 0 (f.b 3 % 2)
      let s := { s with ring := { s.ring with hadMaster := true } }
      let s := s.when (s.ring.lost && steady) (fun s =>
        ({ s with ring := { s.ring with lost := false } }).lower Src.lnkMlost)
      s.when (f.b 0 == s.f F.LNK_STAT_ADDR) State.sendReport))

/-- MASTER_LOST: a member has received no BEACON for 100 us. -/
def execMasterLost (s : State) : Host.Outcome State Fault Refusal :=
  if s.isMember && !s.ring.lost then
    let s := { s with ring := { s.ring with lost := true } }
    let s := ((s.setB F.LNK_STAT_MLOST 0 true).raise Src.lnkMlost).setB F.THM_RACK_RVALID 0 false
    .next (s.setOrder .none)
  else .next s

/-- A frame reaches the member: addressed to it, or broadcast to a range that holds its address; not while the master
counts as lost (R371). -/
def State.addressed (s : State) (first last : Nat) : Bool :=
  s.isMember && !s.ring.lost && first ≤ s.f F.LNK_STAT_ADDR && s.f F.LNK_STAT_ADDR ≤ last

/-- BUDGET received (R371, R373). -/
def execBudget (f : RingFrame) (s : State) : Host.Outcome State Fault Refusal :=
  .next (s.receive 4 f (fun s =>
    s.when (s.addressed f.dst.toNat f.dst.toNat) (fun s => (s.setF F.THM_RACK_RBUD 0 (f.h 0)).setB F.THM_RACK_RVALID 0 true)))

/-- CAPORD received (R373): under protocol 1 RDENS is ignored (R368); RDENS above 0 raises RK_ORDER (R299). -/
def execCapord (f : RingFrame) (s : State) : Host.Outcome State Fault Refusal :=
  .next (s.receive 5 f (fun s =>
    s.when (s.addressed (f.b 0) (f.b 1)) (fun s =>
      let s := s.setF F.THM_RACK_RBUD 0 (s.f F.THM_RACK_RBUD * f.h 2 / 256)
      let dens := f.h 4 % 512
      s.when (s.f F.LNK_STAT_PROT == 2) (fun s =>
        (s.setF F.THM_RACK_RDENS 0 dens).when (dens != 0) (fun s => s.raise Src.brdCapsat)))))

/-- ONOFF received (R368, R375); order 3 is not named and changes nothing. -/
def execOnoff (f : RingFrame) (s : State) : Host.Outcome State Fault Refusal :=
  .next (s.receive 6 f (fun s =>
    s.when (s.addressed (f.b 0) (f.b 1)) (fun s =>
      match f.b 2 with
      | 0 => s.setOrder .none
      | 1 => s.setOrder .on
      | 2 => s.setOrder .off
      | _ => s)))

/-- BUSSTATE received. -/
def execBusstate (f : RingFrame) (s : State) : Host.Outcome State Fault Refusal :=
  .next (s.receive 7 f (fun s => { s with ring := { s.ring with bus := {
    segA := BitVec.ofNat 16 (f.h 0), segB := BitVec.ofNat 16 (f.h 2), rects := BitVec.ofNat 8 (f.b 4)
    soc := BitVec.ofNat 8 (f.b 5), hold := f.b 6 % 2 == 1 } } }))

/-- TIME received under protocol 2 (R373): the master's count plus address x HOPD, less the local count. -/
def execTime (f : RingFrame) (s : State) : Host.Outcome State Fault Refusal :=
  .next (s.receive 8 f (fun s =>
    s.when (s.isMember && s.f F.LNK_STAT_PROT == 2) (fun s =>
      let m : Int := leNat (f.pay.toList.take 6)
      let hop := roundAway (((s.f F.LNK_STAT_ADDR * f.h 6 : Nat) : Rat) / 100)
      s.setReg (F.LNK_TOFS_TOFS.addr 0) (BitVec.ofInt 32 (m + hop - (s.clk.tmr.toNat : Int))))))

/-- SHARE received under protocol 2 (R373): a rack-shelf member writes a changed reference to its rectifiers. -/
def execShare (f : RingFrame) (s : State) : Host.Outcome State Fault Refusal :=
  .next (s.receive 9 f (fun s =>
    s.when (s.isMember && s.f F.LNK_STAT_PROT == 2 && s.shelf && s.ring.share.toNat != f.h 0) (fun s =>
      ({ s with ring := { s.ring with share := BitVec.ofNat 16 (f.h 0) } }).queueWrites 0xD none)))

/-- REPORT received at the master. -/
def execReport (f : RingFrame) (s : State) : Host.Outcome State Fault Refusal :=
  .next (s.receive 0xA f (fun s =>
    s.when (s.f F.LNK_STAT_STATE == 5) (fun s =>
      let p := f.src.toNat
      ((s.setB F.NODE_A_RPTD p true).setF F.NODE_B_PWR p (f.h 0)).setF F.NODE_B_LBUD p (f.h 2))))

/-- BREAK received at the master (R372). -/
def execRingBreak (f : RingFrame) (s : State) : Host.Outcome State Fault Refusal :=
  .next (s.receive 0xB f (fun s =>
    s.when (s.f F.LNK_STAT_STATE == 5) (fun s =>
      let p := f.b 0
      let s := ((s.setF F.LNK_STAT_BRKPOS 0 p).setB F.LNK_STAT_BRKV 0 true).setB F.LNK_STAT_CLOSED 0 false
      s.each (List.range 64) (fun s k => s.when (p ≤ k) (fun s => s.setB F.NODE_A_REACH k false)))))

/-- RING_OPEN_TIMEOUT: the master's ring is open with no BREAK for 100 us. -/
def execRingOpenTimeout (s : State) : Host.Outcome State Fault Refusal :=
  if s.f F.LNK_STAT_STATE = 5 && !s.fB F.LNK_STAT_BRKV then
    .next (({ s with ring := { s.ring with freeze := true } }).setB F.LNK_STAT_CLOSED 0 false)
  else .next s

/-- RING_REENUMERATE: the master has received its own BEACONs for 1 ms. -/
def execRingReenumerate (s : State) : Host.Outcome State Fault Refusal :=
  if s.isMaster && (s.fB F.LNK_STAT_BRKV || s.ring.freeze) then
    let s := (s.ringBegin.setB F.LNK_STAT_BRKV 0 false).setF F.LNK_STAT_BRKPOS 0 0
    .next ({ s with ring := { s.ring with freeze := false } }).startEnum
  else .next s

/-- RING_FRAME_DISCARD (R367, R376): discarded, counted and still forwarded.  `within`: the discards of the last 1 ms, this
one included. -/
def execRingFrameDiscard (raw : List Byte) (within : BitVec 8) (s : State) : Host.Outcome State Fault Refusal :=
  let s := s.ringBegin
  if !s.ringOn || !s.ring.rxUp then .next s
  else
    let s := ({ s with ring := { s.ring with fwd := [raw] } }).incF F.LNK_ERR_CRC 0
    .next (s.when (within == 16) (fun s => s.raise Src.lnkCrc))

/-! ### The rack budget (R374) -/

/-- RB in 10 W over the modules online. -/
def State.rackBudget (s : State) : Nat :=
  let sum := ((List.range 12).filter (fun k => s.fB F.RKM_STAT_ONLINE k)).foldl (fun n k => n + s.f F.RKM_CFG_RATING k) 0
  sum * s.f F.LNK_RKCFG_RKMARG / 2560 + (if s.gate 2 == .conducting then s.f F.LNK_RKCFG_BATALLOW else 0)

/-- The modules online, counted in LNK_RKBUD. -/
def State.countOnline (s : State) : State :=
  s.setF F.LNK_RKBUD_ONLINE 0 ((List.range 12).filter (fun k => s.fB F.RKM_STAT_ONLINE k)).length

/-- The nodes of the ring. -/
def State.ringNodes (s : State) : List Nat := List.range (Nat.min 64 (s.f F.LNK_STAT_NODES))

/-- The budgets of R374: A is RB less the reported BRD_BUD of every unreachable node; the master's own node takes its share
at once (log entry 30). -/
def State.allocate (s : State) : State :=
  if s.ring.freeze then s
  else
    let lost := (s.ringNodes.filter (fun p => !s.fB F.NODE_A_REACH p)).foldl (fun n p => n + s.f F.NODE_B_LBUD p) 0
    let a := s.f F.LNK_RKBUD_RB * 10 - lost
    let ps := s.ringNodes.filter (fun p => s.fB F.NODE_A_REACH p && s.f F.NODE_A_W p != 0)
    let w := ps.foldl (fun n p => n + s.f F.NODE_A_W p) 0
    s.each ps (fun s p =>
      let b := Nat.min 65535 (a * s.f F.NODE_A_W p / w)
      let s := s.setF F.NODE_A_RBUD p b
      if p = 0 then (s.setF F.THM_RACK_RBUD 0 b).setB F.THM_RACK_RVALID 0 true
      else s.send 4 p false (leBytes 2 b))

/-- A CAPORD to addresses 1 to 63. -/
def State.sendCapord (s : State) (scale dens : Nat) : State :=
  let n := s.ring.order + 1
  let d := if s.f F.LNK_STAT_PROT = 2 then dens else 0
  ({ s with ring := { s.ring with order := n } }).send 5 0 true
    ([1, 63] ++ leBytes 2 scale ++ leBytes 2 d ++ leBytes 2 n.toNat)

/-- The lowest undervoltage threshold of the feeds in use, in 10 mV. -/
def State.lowUvf (s : State) : Option Nat :=
  (feeds3.filter (fun (f : Fin 3) => s.fB F.FEED_CFG_EN f)).foldl (fun (m : Option Nat) (f : Fin 3) =>
    match m with | none => some (s.f F.FEED_WIN_UVF f) | some v => some (Nat.min v (s.f F.FEED_WIN_UVF f))) none

/-- A bus-bar segment below the lowest UVF sends a CAPORD with the RDENS of LNK_ORDER, once per fall (R374). -/
def State.segmentCheck (s : State) : State :=
  let low := match s.lowUvf with
    | none => false
    | some uvf => [0, 1].any (fun f => s.fB F.FEED_CFG_EN f && decide (s.fS F.FEED_V_V f < (uvf : Int) * 100000))
  let was := s.ring.segLow
  let s := { s with ring := { s.ring with segLow := low } }
  s.when (low && !was) (fun s => s.sendCapord 256 (s.f F.LNK_ORDER_RDENS))

/-- RACK_BUDGET_COMPUTE: `pg` is what the modules' power-good balls read after their filter; a module comes online here, and
goes offline by RECTIFIER_OFFLINE. -/
def execRackBudgetCompute (pg : BitVec 12) (s : State) : Host.Outcome State Fault Refusal :=
  if !s.shelf || !s.ringOn then .next s
  else
    let s := s.ringBegin
    let s := s.each ((List.range 12).filter (fun k => s.fB F.RKM_CFG_EN k && pg.getLsbD k)) (fun s k =>
      (s.setB F.RKM_STAT_PG k true).setB F.RKM_STAT_ONLINE k
        (!s.fB F.RKM_STAT_STALE k && !(s.f F.RKM_STAT_STATUS k).testBit 6))
    let s := s.countOnline
    let s := s.when ((List.range 12).all (fun k => !s.fB F.RKM_CFG_EN k || s.fB F.RKM_STAT_ONLINE k)) (fun s => s.lower Src.rkRect)
    if s.isMaster then .next (((s.setF F.LNK_RKBUD_RB 0 s.rackBudget).segmentCheck).allocate) else .next s

/-- A module goes offline (R374): RK_RECT, and at the master the new RB, a scaling CAPORD where RB falls, and the new
budgets. -/
def State.rectOffline (s : State) (k : Nat) : State :=
  if !s.fB F.RKM_STAT_ONLINE k then s
  else
    let s := ((s.setB F.RKM_STAT_ONLINE k false).setB F.RKM_STAT_LOSTF k true).countOnline
    let s := (s.lower Src.rkRect).raise Src.rkRect
    if !s.isMaster then s
    else
      let old := s.f F.LNK_RKBUD_RB
      let new := s.rackBudget
      let s := s.setF F.LNK_RKBUD_RB 0 new
      (s.when (new < old) (fun s => s.sendCapord (256 * new / old) 0)).allocate

/-- RECTIFIER_OFFLINE: a module's power-good ball has read low over its filter. -/
def execRectifierOffline (k : Fin 12) (s : State) : Host.Outcome State Fault Refusal :=
  if s.shelf && s.fB F.RKM_CFG_EN k then .next ((s.ringBegin.setB F.RKM_STAT_PG k false).rectOffline k) else .next s

/-- MASTER_PERIODIC_SEND (R368): 0 ONOFF, 1 BUSSTATE, 2 TIME, 3 SHARE; the last two under protocol 2 only.  The SOCREP of the
battery shelf as a whole is stated nowhere and is a free value (log entry 31). -/
def execMasterPeriodicSend (kind : Fin 4) (s : State) : Host.Outcome State Fault Refusal :=
  if !s.isMaster then .next s
  else
    let s := s.ringBegin
    match kind.val with
    | 0 => .next (s.send 6 0 true [BitVec.ofNat 8 (s.f F.LNK_ORDER_FIRST), BitVec.ofNat 8 (s.f F.LNK_ORDER_LAST),
        BitVec.ofNat 8 (s.f F.LNK_ORDER_ORDER)])
    | 1 =>
      let seg (f : Nat) : Nat := satU 16 (s.fS F.FEED_V_V f / 10000)
      let r := s.draw
      .next (r.2.send 7 0 true (leBytes 2 (seg 0) ++ leBytes 2 (seg 1) ++ [BitVec.ofNat 8 (s.f F.LNK_RKBUD_ONLINE),
        r.1.setWidth 8, BitVec.ofNat 8 (s.gate 2 == .conducting).toNat, 0]))
    | 2 => .next (s.when (s.f F.LNK_STAT_PROT == 2) (fun s =>
        s.send 8 0 true (leBytes 6 s.clk.tmr.toNat ++ leBytes 2 s.ring.hopd)))
    | _ => .next (s.when (s.f F.LNK_STAT_PROT == 2) (fun s =>
        s.send 9 0 true (leBytes 2 (s.f F.LNK_RKVSET_RKVSET))))

/-- A write of LNK_ORDER (R374, R378): ORDER 3 and an RDENS above 256 are refused; at the master a changed RDENS goes out in a
CAPORD (log entry 32). -/
def lnkOrderWrite (v : Word) (s : State) : State × Nat :=
  if F.LNK_ORDER_ORDER.get v = 3 || 256 < F.LNK_ORDER_RDENS.get v then (s, Code.range)
  else
    let old := s.f F.LNK_ORDER_RDENS
    let s := s.hostStore 0x3104 v
    let d := F.LNK_ORDER_RDENS.get v
    (s.when (s.isMaster && (d != old || d != 0)) (fun s => s.ringBegin.sendCapord 256 d), Code.ok)

end Sys2Proof.Machine
end

