-- ==== Sys2Proof/Machine/FieldBus.lean ====
section
/-! DEFINITION. The field buses F1 and F2 (16_field_buses_and_ring.md R360 to R365, R377): polling, results and their consumers,
arbitration, and the cure of a hung bus. -/

namespace Sys2Proof.Machine

/-- What bus `b` holds beside its registers. -/
def State.bu (s : State) (b : Fin 2) : BusSt := s.bus.get b

/-- The bus works (R360, R365): in use, not disabled, no cure, in STANDBY, SEQUP, RUN or SEQDN, not in recovery. -/
def State.busLive (s : State) (b : Fin 2) : Bool :=
  s.fB F.FLD_CFG_EN b && !s.fB F.FLD_STAT_DISABLED b && (s.bu b).cure == .none && !s.noImg
    && (s.dev == .standby || s.dev == .sequp || s.dev == .run || s.dev == .seqdn)

/-! ### Starting a transaction (R363) -/

/-- When entry `e` falls due, in ms: an entry that has not started since BOOT is due at once. -/
def BusSt.dueAt (u : BusSt) (e : Nat) : Nat := ((u.due.find? (fun p => p.1 = e)).map (·.2)).getD 0

/-- The polled entry whose due time is oldest, the lower number first. -/
def State.nextPoll (s : State) (b : Fin 2) : Option Nat :=
  let now := s.clk.ms.toNat
  let due := (List.range 64).filter (fun (e : Nat) => s.pollOn b e && s.poll b F.POLL1_A_PERIOD e != 0 && (s.bu b).dueAt e ≤ now)
  due.foldl (fun (m : Option Nat) e => match m with
    | none => some e
    | some k => if (s.bu b).dueAt e < (s.bu b).dueAt k then some e else some k) none

/-- The transaction of entry `e` starts. -/
def State.startPoll (s : State) (b : Fin 2) (e : Nat) : State :=
  let s := (s.setB F.FLD_STAT_BUSY b true).setF F.FLD_STAT_LASTADDR b (s.poll b F.POLL1_A_ADDR e)
  let at' := s.clk.ms.toNat + s.poll b F.POLL1_A_PERIOD e
  s.updBus b (fun u => { u with
    cur := some e, lost := 0, due := (e, at') :: u.due.filter (fun p => p.1 != e), onDemand := u.onDemand.filter (· != e) })

/-- FIELD_BUS_POLL. -/
def execFieldBusPoll (b : Fin 2) (s : State) : Host.Outcome State Fault Refusal :=
  if !s.busLive b || (s.bu b).cur.isSome || (s.bu b).waitStop then .next s
  else
    match (s.bu b).onDemand with
    | e :: _ => .next (s.startPoll b e)
    | [] => match s.nextPoll b with
      | some e => .next (s.startPoll b e)
      | none => .next s

/-! ### Results and consumers (R361, R362) -/

/-- The bytes of the last good transaction of an entry. -/
def State.block (s : State) (p : Fin 2 × Nat) : Option (List Byte) :=
  ((s.bu p.1).blocks.find? (fun q => q.1 = p.2)).map (·.2)

/-- Two-byte values of a block, low byte first. -/
def pairs (l : List Byte) : List Nat := (List.range (l.length / 2)).map (fun k => leNat ((l.drop (2 * k)).take 2))

/-- The cells of an instance once every one of its kind 0x1 entries has data: the lowest and the highest, mV. -/
def State.takeCells (s : State) (i : Fin 6) : State :=
  let bs := (s.pollsOf 1 (some i)).map s.block
  if bs.any Option.isNone then s
  else
    match (bs.flatMap (fun b => pairs (b.getD []))) with
    | [] => s
    | v :: l => s.updBat i (fun u => { u with cells := some (l.foldl Nat.min v, l.foldl Nat.max v) })

/-- The highest cell temperature of an instance, from 0.1 C. -/
def State.takeTemps (s : State) (i : Fin 6) : State :=
  match ((s.pollsOf 2 (some i)).filterMap s.block).flatMap (fun l => (pairs l).map (toSigned 16)) with
  | [] => s
  | v :: l => s.updBat i (fun u => { u with tCell := roundAway (((l.foldl (fun a b => if a < b then b else a) v) * 256 : Int) / 10) })

/-- A module's STATUS_WORD: its entry is no longer stale, and OFF takes the module offline (R374). -/
def State.takeStatus (s : State) (k w : Nat) : State :=
  let s := (s.setF F.RKM_STAT_STATUS k w).setB F.RKM_STAT_STALE k false
  s.when (w.testBit 6) (fun s => s.rectOffline k)

/-- The consumer of a good transaction's data. -/
def State.consume (s : State) (b : Fin 2) (e : Nat) (data : List Byte) : State :=
  let inst := s.poll b F.POLL1_B_INST e
  let i : Fin 6 := Fin.ofNat 6 inst
  let w := leNat (data.take 2)
  match s.poll b F.POLL1_A_KIND e with
  | 0x1 => s.takeCells i
  | 0x2 => s.takeTemps i
  | 0x3 => s.updBat i (fun u => { u with packId := BitVec.ofNat 32 (leNat (data.take 4)) })
  | 0x4 => s.updBat 0 (fun u => { u with chargerDone := w.testBit 0 })
  | 0x6 => s.takeStatus inst w
  | 0x7 => s.setReg (F.RKM_I_I.addr inst) (BitVec.ofInt 32 (roundAway (ofLinear11 w * 10000)))
  | 0x8 =>
    let e' := (Config.rkVoutExp inst).toInt
    s.setReg (F.RKM_V_V.addr inst) (BitVec.ofInt 32 (roundAway ((w : Rat) * pow2 e' * 1000000)))
  | 0xB => (s.updBat i (fun u => { u with tb := roundAway (ofLinear11 w * 256) })).evalHot i
  | _ => s

/-- The kinds that R363 watches. -/
def staleKind (k : Nat) : Bool := (1 ≤ k && k ≤ 3) || (6 ≤ k && k ≤ 0xB)

/-- The watched entries of a battery instance. -/
def State.moduleEntries (s : State) (i : Nat) : List (Fin 2 × Nat) :=
  [1, 2, 3, 9, 0xA, 0xB].flatMap (fun k => s.pollsOf k (some i))

/-- A battery module all of whose entries are stale (R375). -/
def State.moduleLost (s : State) : Bool :=
  s.shelf && (List.range 6).any (fun i => let l := s.moduleEntries i
    !l.isEmpty && l.all (fun p => (s.bu p.1).stale.getLsbD p.2))

/-- RK_BATM and FLD_STALE follow the stale spells (R363, R375). -/
def State.followStale (s : State) : State :=
  let s := s.each (List.finRange 2) (fun s (b : Fin 2) => s.when ((s.bu b).stale == 0) (fun s => s.lower (Src.fldStale b)))
  s.follow Src.rkBatm s.moduleLost

/-- The result of the transaction in progress, in word 129 + 2e, and its end. -/
def State.endPoll (s : State) (b : Fin 2) (e code : Nat) : State :=
  let s := (s.setF (pollFld b F.POLL1_R_RES) e code).setB F.FLD_STAT_BUSY b false
  s.updBus b (fun u => { u with cur := none, lost := 0 })

/-- FIELD_BUS_TRANSACTION_DONE: `r` is 0 where every byte was acknowledged and the PEC is right, 1 or 2 where the address or a
later byte was not acknowledged, 3 where the PEC is wrong; a block of another length than COUNT is result 6. -/
def execFieldBusTransactionDone (b : Fin 2) (r : Fin 4) (data : List Byte) (s : State) :
    Host.Outcome State Fault Refusal :=
  match (s.bu b).cur with
  | none => .next s
  | some e =>
    let read := s.poll b F.POLL1_A_PROTO e ≤ 2
    let code := if r.val = 0 && s.poll b F.POLL1_A_PROTO e = 2 && data.length ≠ s.poll b F.POLL1_B_COUNT e then 6
      else if r.val = 3 then 4 else r.val
    let s := s.endPoll b e code
    if code = 1 ∨ code = 2 then
      .next (((s.incF F.FLD_CNT_NACK b).setB F.FLD_STAT_NACKF b true).raise (Src.fldNack b))
    else if code ≠ 0 then .next s
    else
      let s := s.setF (pollFld b F.POLL1_R_AGE) e 0
      let s := s.when read (fun s => s.setF (pollFld b F.POLL1_D_DATA) e (leNat (data.take 4)))
      let s := s.updBus b (fun u => { u with
        blocks := (e, data) :: u.blocks.filter (fun q => q.1 != e), stale := u.stale &&& ~~~(BitVec.ofNat 64 (2 ^ e)) })
      let s := s.when read (fun s => s.consume b e data)
      .next s.followStale

/-- FIELD_BUS_STALE: the entry shows 3 x PERIOD without a good transaction; once per stale spell (R363).  The cells of a
stale kind 0x1 entry are no longer fresh (R362); a rectifier's status gone stale takes it offline (R374). -/
def execFieldBusStale (b : Fin 2) (e : Fin 64) (s : State) : Host.Outcome State Fault Refusal :=
  if !s.busLive b || !s.pollOn b e || s.poll b F.POLL1_A_PERIOD e = 0 || !staleKind (s.poll b F.POLL1_A_KIND e)
      || (s.bu b).stale.getLsbD e then .next s
  else
    let s := s.updBus b (fun u => { u with stale := u.stale ||| BitVec.ofNat 64 (2 ^ e.val) })
    let s := ((s.setB F.FLD_STAT_STALEF b true).lower (Src.fldStale b)).raise (Src.fldStale b)
    let k := s.poll b F.POLL1_B_INST e
    let s := s.when (s.poll b F.POLL1_A_KIND e == 6 && k < 12) (fun s => (s.setB F.RKM_STAT_STALE k true).rectOffline k)
    .next s.followStale

/-! ### Arbitration (R364) -/

/-- FIELD_BUS_ARB_LOST: the first attempt and eight retries lost in a row give the transaction up with result 3. -/
def execFieldBusArbLost (b : Fin 2) (s : State) : Host.Outcome State Fault Refusal :=
  match (s.bu b).cur with
  | none => .next s
  | some e =>
    if (s.bu b).waitStop then .next s
    else
      let s := s.incF F.FLD_CNT_ARBLOST b
      let k := (s.bu b).lost + 1
      let s := s.updBus b (fun u => { u with lost := k, waitStop := true })
      if k ≤ 8 then .next s
      else
        let s := (s.endPoll b e 3).incF F.FLD_CNT_ARBFAIL b
        .next ((s.setB F.FLD_STAT_ARBF b true).raise (Src.fldArb b))

/-- FIELD_BUS_RETRY: a stop and the bus-free time have passed. -/
def execFieldBusRetry (b : Fin 2) (s : State) : Host.Outcome State Fault Refusal :=
  if (s.bu b).cure == .none then .next (s.updBus b (fun u => { u with waitStop := false })) else .next s

/-! ### Hung buses (R365, R377) -/

/-- A cure begins: FbPWR low, and its report, with the line held (0 SDA, 1 SCL, 2 none). -/
def State.cureBus (s : State) (b : Fin 2) (line : Nat) : State :=
  let s := { s with pins := { s.pins with fpwr := s.pins.fpwr &&& ~~~(BitVec.ofNat 2 (2 ^ b.val)) } }
  let s := ((s.setB F.FLD_STAT_PWROFF b true).setB F.FLD_STAT_HANGF b true).incF F.FLD_CNT_HANGS b
  let s := s.updBus b (fun u => { u with cure := .powerOff, hangMs := (s.clk.ms.toNat :: u.hangMs).take 3 })
  (s.raise (Src.fldHang b)).recordSrc (Src.fldHang b) 0 [item b, item line, item (s.f F.FLD_STAT_LASTADDR b)]

/-- The transaction that a hang interrupts: one that waits for its retry restarts its count after the cure (R377); any other
ends with result 5. -/
def State.hangCur (s : State) (b : Fin 2) : State :=
  match (s.bu b).cur with
  | none => s
  | some e => if (s.bu b).waitStop then s.updBus b (fun u => { u with lost := 0 }) else s.endPoll b e 5

/-- FIELD_BUS_HANG: a line has stayed low for 25 ms; the fourth hang within 10 s of the first of three cures disables the bus
in place of a fourth cure. -/
def execFieldBusHang (b : Fin 2) (scl : Bool) (s : State) : Host.Outcome State Fault Refusal :=
  if !s.busLive b then .next s
  else
    let s := s.hangCur b
    let many : Bool := match (s.bu b).hangMs with
      | [_, _, t] => decide (s.clk.ms.toNat ≤ t + 10000)
      | _ => false
    if many then
      .next ((s.setB F.FLD_STAT_DISABLED b true).setB F.FLD_STAT_BUSY b false |>.updBus b (fun u => { u with
        cur := none, waitStop := false }))
    else .next (s.cureBus b scl.toNat)

/-- FIELD_BUS_POWER_RESTORE: 200 ms of the cure have passed; in BOOT the supply stays off (R36). -/
def execFieldBusPowerRestore (b : Fin 2) (s : State) : Host.Outcome State Fault Refusal :=
  if (s.bu b).cure == .powerOff && s.dev != .boot then
    let s := { s with pins := { s.pins with fpwr := s.pins.fpwr ||| BitVec.ofNat 2 (2 ^ b.val) } }
    .next ((s.setB F.FLD_STAT_PWROFF b false).updBus b (fun u => { u with cure := .wait }))
  else .next s

/-- FIELD_BUS_RESUME: 10 ms later. -/
def execFieldBusResume (b : Fin 2) (s : State) : Host.Outcome State Fault Refusal :=
  if (s.bu b).cure == .wait then .next (s.updBus b (fun u => { u with cure := .none, waitStop := false })) else .next s

/-- PWRCYCLE: a cure, and the bus re-enabled. -/
def fldPwrcycle (b : Fin 2) (confirm : BitVec 16) (s : State) : State × Nat :=
  if confirm.toNat ≠ confirmKey then (s, Code.range)
  else
    let s := (s.hangCur b).setB F.FLD_STAT_DISABLED b false
    ((s.accepted (0x3003 + 16 * b.val) 1).cureBus b 2, Code.ok)

/-- A millisecond passes: the ages of the results (R361). -/
def State.agePolls (s : State) : State :=
  s.each (List.finRange 2) (fun s (b : Fin 2) =>
    s.when (s.fB F.FLD_CFG_EN b) (fun s => s.each (List.range 64) (fun s e =>
      s.when (s.pollOn b e) (fun s => s.incF (pollFld b F.POLL1_R_AGE) e))))

end Sys2Proof.Machine
end

