-- ==== Sys2Proof/Machine/Precision.lean ====
section
/-! DEFINITION. The precision converters, telemetry and calibration (08_precision_sensing_telemetry.md R173 to R194).  The reads of
latched and min and max registers stand with the host ports. -/

namespace Sys2Proof.Machine

/-! ### Feed telemetry and energy (R173, R188, R193) -/

/-- A voltage sense in mV from the HV converter's mean code, corrected under R177: VBA, VBB, VHLD, VBUS 20 mV; VIB0,
VIB1 5 mV. -/
def State.hvMv (s : State) (k : Fin 6) (code : Rat) : Rat :=
  code * (if k.val < 4 then 20 else 5) * s.prec.hvGain.get k

/-- The sense that a shunt's power takes its voltage from: the feed's own input, or what AUXSRC names for ISX. -/
def State.feedSense (s : State) (f : Fin 4) : Option (Fin 6) :=
  match f.val with
  | 0 => some 0
  | 1 => some 1
  | 2 => some 2
  | _ => match s.f F.FEED_TCFG_AUXSRC 3 with
    | 0 => some 3
    | 1 => some 4
    | 2 => some 5
    | _ => none

/-- A shunt current in mA: the code less the stored offset, in 9.765625 nV, over RSH in 0.1 uOhm. -/
def State.shuntMa (s : State) (f : Fin 4) (code : BitVec 24) : Rat :=
  ((code.toInt - s.fS F.FEED_AZ_OFFSET f : Int) : Rat) * 9765625 / 100000 / (s.f F.FEED_TCFG_RSH f : Rat)

/-- A feed's window: telemetry base samples, and the window's energy (1 mW over 250 us is 0.25 uJ). -/
def State.feedWindow (s : State) (f : Fin 4) (code : BitVec 24) (v : Vector Rat 6) : State :=
  let volt : Rat := match s.feedSense f with | some k => s.hvMv k (v.get k) | none => 0
  let amp := s.shuntMa f code
  let p := volt * amp / 1000
  s.updFd f (fun u => { u with
    tel := (u.tel.1 + volt, u.tel.2.1 + amp, u.tel.2.2.1 + p, u.tel.2.2.2 + 1), energy := u.energy + p / 4
    azRun := u.azRun.map (fun a => (a.1 + 1, a.2 + code.toInt)) })

/-- The remaining hold energy (R216): the estimator's held value, or the capacitor bank's. -/
def State.holdEnergy (s : State) (vhld : Rat) : Nat :=
  if s.fB F.INP_HOLDCAP_HSRC then
    let v := vhld / 1000
    let m : Rat := (s.f F.INP_HOLDCAP_VHMIN : Rat) / 10
    if v < m then 0 else ((s.f F.INP_HOLDCAP_CHOLD : Rat) / 10000 * (v * v - m * m) / 2).floor.toNat
  else (s.reg (F.BAT_ERES_ERES.addr 0)).toNat

/-- Latching a snapshot's result (R175). -/
def State.snapLatch (s : State) (k : Fin 8) (v : Int) (slot : Nat) : State :=
  match s.prec.snapPend.get k with
  | none => s
  | some o =>
    let s := { s with prec := { s.prec with snapPend := s.prec.snapPend.set k none } }
    let s := s.when (s.fB F.PREC_SNAPT_VALID k) (fun s => s.setB F.PREC_SNAPT_OVR k true)
    let s := s.setReg (F.PREC_SNAP_SNAP.addr k) (BitVec.ofInt 32 v)
    let s := if k.val < 4 then s.setF F.PREC_SNAPT_OFS k o else s.setF F.PREC_SNAPT_CH k slot
    s.setB F.PREC_SNAPT_VALID k true

/-- A snapshot request at a timer match (R175): the first of a window or slot counts. -/
def State.snapRequest (s : State) (k : Fin 8) : State :=
  let o := s.clk.tmr.toNat % 25000
  { s with prec := { s.prec with snapPend := s.prec.snapPend.set k ((s.prec.snapPend.get k).or (some o)) } }

/-- PRECISION_WINDOW: the results of PC0 to PC3, and the HV converters' means over the same window in their own codes
(VBA, VBB, VHLD, VBUS, VIB0, VIB1). -/
def execPrecisionWindow (i : Vector (BitVec 24) 4) (v : Vector Rat 6) (s : State) : Host.Outcome State Fault Refusal :=
  if s.dev == .boot then .next s
  else
    let s := s.each (List.finRange 4) (fun s f =>
      (s.snapLatch (Fin.ofNat 8 f) ((i.get f).toInt - s.fS F.FEED_AZ_OFFSET f) 0).feedWindow f (i.get f) v)
    let s := { s with inp := { s.inp with vbus := (s.hvMv 3 (v.get 3)).floor.toNat } }
    .next (s.when (!s.shelf) (fun s => s.setReg (F.INP_EHOLD_EHOLD.addr 0) (BitVec.ofNat 32 (s.holdEnergy (s.hvMv 2 (v.get 2))))))

/-! ### Multiplexed slots and references (R174, R176 to R178) -/

/-- A cluster's precision result at the sense input in uV (122.0703125 nV per LSB). -/
def precUv (code : Int) : Rat := (code : Rat) * 125 / 1024

/-- A cluster's result: PRECV, and D for the trim where it qualifies. -/
def State.clusterResult (s : State) (n : Fin 16) (code : Int) (fast : Rat) (clean : Bool) : State :=
  let v := precUv code
  let s := s.setReg (F.CL_PRECV_PRECV.addr n) (BitVec.ofInt 32 (roundAway (v * (s.gDiv n : Rat))))
  if clean && !s.fB F.PREC_STAT_REFBAD then
    s.updCl n (fun c => { c with trimD := ((v / 25 - fast) :: c.trimD).take 16, trimNew := c.trimNew + 1 })
  else s

/-- A high-voltage sense: its gain correction moves one sixteenth of the way; below 10% of the span it is kept (R177). -/
def State.hvResult (s : State) (k : Fin 6) (code : Int) (hv : Rat) : State :=
  if code * 10 < 2 ^ 24 || hv ≤ 0 then s
  else
    -- both spans hold 2^24 precision LSB and 2^12 HV codes
    let ratio := (code : Rat) / 4096 / hv
    let g := s.prec.hvGain.get k
    { s with prec := { s.prec with hvGain := s.prec.hvGain.set k (g + (ratio - g) / 16) } }

/-- The bandgap against the zener (R176). -/
def State.refResult (s : State) (ref : Rat) : State :=
  let ppm := (ref / s.nvm.refRatio - 1) * 1000000
  let l := (ppm :: s.prec.refRes).take 16
  let d := roundAway (meanQ l)
  let s := ({ s with prec := { s.prec with refRes := l } }).setS F.PREC_STAT_REFDIFF 0 (satS 16 d)
  if 100 < d.natAbs then
    let s := ({ s with prec := { s.prec with refOk := 0 } }).setB F.PREC_STAT_REFBAD 0 true
    let s := (s.setB F.PREC_STAT_REFDRIFT 0 true).raise Src.refDrift
    s.each clusters (fun s n => s.setB F.CL_CALSTAT_ACCNG n true)
  else if s.fB F.PREC_STAT_REFBAD then
    let k := if d.natAbs < 80 then s.prec.refOk + 1 else 0
    let s := { s with prec := { s.prec with refOk := k } }
    s.when (decide (16 ≤ k)) (fun s => (s.setB F.PREC_STAT_REFBAD 0 false).lower Src.refDrift)
  else s

/-- PRECISION_SLOT_RESULT: slot 0 to 5, the codes of PC4 to PC7, the fast path's means over the same conversion (vref_eff -
2 x e for a cluster, the HV converter's code for a high-voltage sense), which conversions were free of R178's
conditions, and the bandgap to zener ratio (slot 5 of PC6). -/
def execPrecisionSlotResult (slot : Fin 6) (r : Vector (BitVec 24) 4) (fast : Vector Rat 4) (clean : BitVec 4) (ref : Rat)
    (s : State) : Host.Outcome State Fault Refusal :=
  if s.dev == .boot then .next s
  else
    let off := s.prec.muxOff
    let code (j : Fin 4) : Int := ((r.get j).toNat : Int) - off
    let s := s.each (List.finRange 4) (fun s j =>
      let s := s.snapLatch (Fin.ofNat 8 (4 + j)) (code j) slot
      if slot.val < 4 then s.clusterResult (Fin.ofNat 16 (4 * j + slot)) (code j) (fast.get j) (clean.getLsbD j)
      else if slot.val = 4 then s.hvResult (Fin.ofNat 6 j) (code j) (fast.get j)
      else match j.val with
        | 0 => s.hvResult 4 (code j) (fast.get j)
        | 1 => s.hvResult 5 (code j) (fast.get j)
        | 2 => s.refResult ref
        | _ => { s with prec := { s.prec with muxOff := (r.get j).toNat } })
    .next s

/-- The trim target of one cluster (R178, R179). -/
def State.trimTarget (s : State) (n : Fin 16) : State :=
  let c := s.cl.get n
  if s.fB F.CL_TLCFG_TRIMEN n && s.dev == .run && c.run == .on && c.trimNew != 0 then
    let lim : Int := s.f F.CL_TLCFG_TRIMLIM n
    let t := clampI (-lim) lim (-(roundAway (meanQ c.trimD)))
    let s := (s.setS F.CL_TRIM_TARGET n t).updCl n (fun c => { c with trimNew := 0 })
    if t.natAbs = lim.toNat then (s.setB F.CL_CALSTAT_TRIMSAT n true).raise (Src.clTrimlim n)
    else s.lower (Src.clTrimlim n)
  else s

/-- TRIM_TARGET_UPDATE: every 1 ms; every TARGET is held while REFBAD = 1 (R176). -/
def execTrimTargetUpdate (s : State) : Host.Outcome State Fault Refusal :=
  if s.fB F.PREC_STAT_REFBAD then .next s else .next (s.each clusters State.trimTarget)

/-! ### Phase-current calibration (R180 to R184) -/

/-- ZERO_LEARN_WINDOW: the mean of (code - 512) over a window at mid; discarded where a Fox hold overlaps it, and held
under REFBAD (R195). -/
def execZeroLearnWindow (p : Fin 48) (mean : Rat) (fox : Bool) (s : State) : Host.Outcome State Fault Refusal :=
  let u := s.ph.get p
  if u.out ≠ .mid || u.foxHold || fox || s.fB F.PREC_STAT_REFBAD then .next s
  else
    let z := s.fS F.PH_CAL_ZERO p
    .next (s.setS F.PH_CAL_ZERO p (satS 16 (z + roundAway ((16 * mean - z) / 8))))

/-- The candidate of the next ratio-step measurement (R182). -/
def State.rsCandidate (s : State) (n : Fin 16) : Option Nat :=
  let av := bitsOf 16 (s.avMask n)
  match (s.cl.get n).rsAgain with
  | some k => some k
  | none => (av.find? (fun k => (s.cl.get n).rsCand ≤ k)).or av.head?

/-- The conditions of R182 that the state shows. -/
def State.rsAllowed (s : State) (n : Fin 16) : Bool :=
  let c := s.cl.get n
  s.f F.DEV_STATE_BLEVEL == 3 && s.fB F.CL_TLCFG_RSEN n && !s.fB F.CL_FSW_DIRECT n && s.dev == .run && c.run == .on
    && !s.fB F.CL_VSTAT_TRANS n && !s.fB F.CL_PHSTAT_HOLDALL n && !s.fB F.CL_VSTAT_CAPACT n && c.lw == 0
    && !s.fB F.CL_INJ_EN n && !(s.f F.LE16_STAT_STATE == 1 && s.f F.LE16_STAT_CL == n.val)
    && decide (3 ≤ s.f F.CL_PHSTAT_M n) && c.rsRun.isNone

/-- RATIO_STEP_START: due; `steady`: u stayed within RSTOL and no phase set PKLIM for 10 ms; `late`: a repeat could not start
within 100 ms, so the first result is discarded (R195). -/
def execRatioStepStart (n : Fin 16) (steady late : Bool) (s : State) : Host.Outcome State Fault Refusal :=
  let s := if late then s.updCl n (fun c => { c with rsAgain := none }) else s
  if !s.rsAllowed n || !steady then .next s
  else match s.rsCandidate n with
    | none => .next s
    | some k =>
      let s := s.updCl n (fun c => { c with rsCand := (k + 1) % 16 })
      match s.posPhase n k with
      | none => .next s
      | some p =>
        if (s.activePos n).contains k && decide ((s.ipeak p : Rat) / 10 ≤ (s.ph.get p).iCal) then
          .next (s.updCl n (fun c => { c with
            rsRun := some ⟨k, 0, c.rsAgain.isSome, false⟩, rsAgain := none }))
        else .next s

/-- Scaling every GREL of the available phases to a mean of 32,768 (R183). -/
def State.renormGrel (s : State) (n : Fin 16) : State :=
  let ps := (s.clPhases n).filter (fun p => (s.avMask n).testBit (s.order p))
  let mean := meanQ (ps.map (fun (p : Fin 48) => (s.f F.PH_CAL_GREL p : Rat)))
  s.each ps (fun s p => s.setF F.PH_CAL_GREL p (satU 16 (roundAway ((s.f F.PH_CAL_GREL p : Rat) * 32768 / mean))))

/-- An accepted measurement (R183). -/
def State.rsAccept (s : State) (n : Fin 16) (p : Fin 48) (r : Rat) : State :=
  let g : Rat := s.f F.PH_CAL_GREL p
  let g := s.f F.PH_CAL_GREL p + roundAway ((g / r - g) / (2 ^ s.f F.CL_RSCFG_RSAVG n : Nat))
  ((s.setF F.PH_CAL_GREL p (satU 16 g)).incF F.PH_RSSTAT_RSCNT p).renormGrel n

/-- RATIO_STEP_COMPLETE: the means of R183; the candidate rejoins at the next frame start.  A departure beyond SNSDEV is
repeated, and the repeat decides (R184). -/
def execRatioStepComplete (n : Fin 16) (a b0 u0 b1 u1 : Rat) (s : State) : Host.Outcome State Fault Refusal :=
  match (s.cl.get n).rsRun with
  | none => .next s
  | some run =>
    let dropped := (s.cl.get n).rsDrop.isSome
    let m := s.f F.CL_PHSTAT_M n
    let s := s.updCl n (fun c => { c with
      rsRun := none, rsDrop := none, mNext := if dropped then m + 1 else c.mNext })
    let tol : Rat := (s.f F.CL_RSCFG_RSTOL n : Rat) / 10000 * absQ u0
    match s.posPhase n run.pos with
    | none => .next s
    | some p =>
      if tol < absQ (u1 - u0) || run.abandoned || !dropped || b1 = b0 then .next s
      else
        let r := a / (b1 - b0)
        let s := s.setS F.PH_RSSTAT_LASTDEV p (satS 16 (roundAway ((r - 1) * 10000)))
        if (s.f F.CL_PHFAIL_SNSDEV n : Rat) / 1000 < absQ (r - 1) then
          if run.again then .next (s.removePhase n p 4 (Src.phSense p))
          else .next (s.updCl n (fun c => { c with rsAgain := some run.pos }))
        else .next (s.rsAccept n p r)

/-! ### Energy balance (R185, R186) -/

/-- The clusters whose power a source feeds: 16 is the feed bus. -/
def State.ebMembers (s : State) (src : Fin 17) : List (Fin 16) :=
  clusters.filter (fun n => match s.region n with | some x => s.f F.RG_CFG_UPSRC x == src.val | none => false)

def dotQ (a b : List Rat) : Rat := sumQ (List.zipWith (· * ·) a b)

/-- One step of recursive least squares with forgetting `lam`. -/
def rlsStep (lam : Rat) (theta : List Rat) (cov : List (List Rat)) (phi : List Rat) (y : Rat) :
    List Rat × List (List Rat) :=
  let pf := cov.map (fun row => dotQ row phi)
  let den := lam + dotQ phi pf
  let k := pf.map (· / den)
  let err := y - dotQ phi theta
  (List.zipWith (fun t g => t + g * err) theta k,
   List.zipWith (fun row g => List.zipWith (fun c q => (c - g * q) / lam) row pf) cov k)

/-- The fit before its first point: k from KSCALE, the rest free (log entry 10). -/
def State.ebStart (s : State) (src : Fin 17) (ns : List (Fin 16)) : EbSt :=
  let size := 2 * ns.length + 1
  { theta := ns.map (fun (n : Fin 16) => (s.f F.CL_KSCALE_KSCALE n : Rat) / 32768)
      ++ (List.range (ns.length + 1)).map (Config.ebInit src)
    cov := (List.range size).map (fun i => (List.range size).map (fun j => Config.ebStart src i j)) }

/-- The conditions of R185 that the state shows. -/
def State.ebQualified (s : State) (src : Fin 17) (ns : List (Fin 16)) : Bool :=
  s.dev == .run && !s.pins.bchg && s.inp.xfer == .idle && s.f F.INP_STAT_BSTAGE == 0 && !s.fB F.PREC_STAT_REFBAD
    && ns.all (fun n => (s.cl.get n).run == .on && s.fB F.CL_VSTAT_SSDONE n) && !ns.isEmpty
    && (src.val == 16 || s.fB F.CL_CALSTAT_SETTLED src)

/-- A point taken by one member cluster. -/
def State.ebTake (s : State) (n : Fin 16) (k : Rat) : State :=
  let s := s.incF F.CL_CALSTAT_NPTS n
  let pts := s.f F.CL_CALSTAT_NPTS n
  let unc := (Config.ebUnc n pts).toNat
  let settled := decide (s.f F.EB_CFG_EBMIN ≤ pts) && decide (unc < 100)
  let s := (s.setF F.CL_KSCALE_UNC n unc).setB F.CL_CALSTAT_SETTLED n settled
  if settled then s.setF F.CL_KSCALE_KSCALE n (satU 16 (roundAway (32768 * k))) else s

/-- ENERGY_BALANCE_POINT: a qualified 1 s point of a source: its input power, the ISX power, and each cluster's power and
current with KSCALE = 32,768. -/
def execEnergyBalancePoint (src : Fin 17) (ps px : Rat) (pc ic : Vector Rat 16) (s : State) :
    Host.Outcome State Fault Refusal :=
  let ns := s.ebMembers src
  if !s.ebQualified src ns then .next s
  else
    let fit := if (s.eb.get src).theta = [] then s.ebStart src ns else s.eb.get src
    let phi := ns.map (fun n => pc.get n) ++ ns.map (fun n => ic.get n * ic.get n) ++ [1]
    let lam := expNeg (1 / ((3600 * s.f F.EB_CFG_EBTAU : Nat) : Rat))
    let r := rlsStep lam fit.theta fit.cov phi (ps - px)
    let s := { s with eb := s.eb.set src ⟨r.1, r.2⟩ }
    .next (s.each (ns.zip r.1) (fun s q => s.ebTake q.1 q.2))

/-- The calibration registers that the service core writes (R186): KSCALE, GREL and ZERO, the loss coefficients. -/
def calAddrs : List Nat :=
  clusters.flatMap (fun n => [0x1059 + 0x100 * n.val, 0x1073 + 0x100 * n.val, 0x1074 + 0x100 * n.val, 0x1075 + 0x100 * n.val])
    ++ phases.map (fun p => 0x411 + 0x20 * p.val)

/-- Writing the calibration area. -/
def State.saveCal (s : State) : State :=
  if s.nvmOpen then
    { s with nvm := { s.nvm with calib := calAddrs.map (fun a =>
        (a, if 0x1000 ≤ a && a % 0x100 = 0x59 then s.reg a &&& 0xFFFF#32 else s.reg a)) } }
  else s

/-- CALIBRATION_SAVE: after 24 hours of RUN, and at each completed SEQDN. -/
def execCalibrationSave (s : State) : Host.Outcome State Fault Refusal := .next s.saveCal

/-! ### Telemetry blocks (R188 to R190, R193) -/

/-- Keeping the lowest or highest block mean in a min or max register. -/
def State.holdMin (s : State) (a : Nat) (v : Int) : State := if v < (s.reg a).toInt then s.setReg a (BitVec.ofInt 32 v) else s
def State.holdMax (s : State) (a : Nat) (v : Int) : State := if (s.reg a).toInt < v then s.setReg a (BitVec.ofInt 32 v) else s

/-- TELEMETRY_BLOCK: 2^AVGK base samples are complete: the register takes their mean, and min and max follow. -/
def telCluster (n : Fin 16) (s : State) : State :=
  let c := s.cl.get n
  if c.telV.2 < 2 ^ s.f F.CL_TLCFG_AVGK n then s
  else
    let k : Rat := c.telV.2
    let v := roundAway (c.telV.1 / k)
    let i := roundAway (c.telI * 10 / k)
    let p := roundAway (c.telP / k)
    let b := 0x1000 + 0x100 * n.val
    let s := s.setRegs [(b + 0x51, BitVec.ofInt 32 v), (b + 0x52, BitVec.ofInt 32 i), (b + 0x53, BitVec.ofInt 32 p)]
    let s := (((s.holdMin (b + 0x55) v).holdMax (b + 0x56) v).holdMax (b + 0x57) i).holdMax (b + 0x58) p
    s.updCl n (fun c => { c with telV := (0, 0), telI := 0, telP := 0 })

def telPhase (p : Fin 48) (s : State) : State :=
  let u := s.ph.get p
  let k := match s.phCluster p with | some n => s.f F.CL_TLCFG_AVGK n | none => 0
  if u.telAcc.2 < 2 ^ k || s.phCluster p = none then s
  else
    let s := s.setReg (F.PH_ITEL_ITEL.addr p) (BitVec.ofInt 32 (roundAway (u.telAcc.1 * 10 / (u.telAcc.2 : Rat))))
    s.updPh p (fun u => { u with telAcc := (0, 0) })

def telFeed (f : Fin 4) (s : State) : State :=
  let t := (s.fd.get f).tel
  if t.2.2.2 < 2 ^ s.f F.FEED_TCFG_AVGK f then s
  else
    let k : Rat := t.2.2.2
    let v := roundAway (t.1 * 1000 / k)
    let i := roundAway (t.2.1 * 10 / k)
    let p := roundAway (t.2.2.1 / k)
    let b := 0x2480 + 0x10 * f.val
    let s := s.setRegs [(b + 1, BitVec.ofInt 32 v), (b + 2, BitVec.ofInt 32 i), (b + 3, BitVec.ofInt 32 p)]
    let s := (((s.holdMin (b + 6) v).holdMax (b + 7) v).holdMax (b + 8) i).holdMax (b + 9) p
    s.updFd f (fun u => { u with tel := (0, 0, 0, 0) })

def execTelemetryBlock (u : TelUnit) (s : State) : Host.Outcome State Fault Refusal :=
  match u with
  | .cluster n => .next (telCluster n s)
  | .phase p => .next (telPhase p s)
  | .feed f => .next (telFeed f s)

/-- ENERGY_CLEAR: a write of 1 to CLR. -/
def energyClear (f : Fin 4) (s : State) : State × Nat := (s.updFd f (fun u => { u with energy := 0 }), Code.ok)

/-- What lets a shunt converter auto-zero: its gates off, and BCHG low for ISH. -/
def State.azQuiet (s : State) (f : Fin 3) : Bool := s.gate f == .off && !(f.val = 2 && s.pins.bchg)

/-- AUTO_ZERO_START: AZEN, 1 s of quiet, 10 minutes since the last; AZDONE no longer holds. -/
def execAutoZeroStart (f : Fin 3) (s : State) : Host.Outcome State Fault Refusal :=
  if s.fB F.FEED_TCFG_AZEN f && s.azQuiet f then
    .next ((s.setB F.FEED_AZ_AZDONE f false).updFd (feed4 f) (fun u => { u with azRun := some (0, 0) }))
  else .next s

/-- AUTO_ZERO_COMPLETE: after 16 windows the mean is the offset; abandoned where a gate has turned on or BCHG risen. -/
def execAutoZeroComplete (f : Fin 3) (s : State) : Host.Outcome State Fault Refusal :=
  match (s.fd.get (feed4 f)).azRun with
  | none => .next s
  | some (k, sum) =>
    let s1 := s.updFd (feed4 f) (fun u => { u with azRun := none })
    if !s.azQuiet f then .next s1
    else if k < 16 then .next s
    else .next ((s1.setS F.FEED_AZ_OFFSET f (roundAway ((sum : Rat) / (k : Rat)))).setB F.FEED_AZ_AZDONE f true)

end Sys2Proof.Machine
end

