-- ==== Sys2Proof/Machine/Timers.lean ====
section
/-! DEFINITION. The general timers (04_time_base_sync_timers.md R87 to R98): host writes, the global writes, the LATE
check, linked pairs, and the count on a TMR tick.  A match's action stands in TimerMatch.lean. -/

namespace Sys2Proof.Machine

/-- The other timer of a pair TM2k, TM2k+1. -/
def timerMate (n : Fin 32) : Fin 32 := Fin.ofNat 32 (if n.val % 2 = 0 then n.val + 1 else n.val - 1)

/-- The timer is one of a linked pair (R92). -/
def State.linked (s : State) (n : Fin 32) : Bool := s.fB F.TM_CTRL_LINK (n.val - n.val % 2)

/-- The high timer of a linked pair. -/
def State.linkedHigh (s : State) (n : Fin 32) : Bool := n.val % 2 = 1 && s.linked n

/-- Owned by a feature other than the host timers (R88). -/
def State.tmForeign (s : State) (n : Fin 32) : Bool := s.owner 2 n != 0 && s.owner 2 n != 0x0E

/-- The claim that a host write to a TMn register makes (R88, R72): the timer, and in a linked pair both. -/
def State.tmClaim (s : State) (n : Fin 32) : State × Nat :=
  if s.tmForeign n then (s.resBusy 2 n, Code.resBusy)
  else if s.linked n && s.tmForeign (timerMate n) then (s.resBusy 2 (timerMate n), Code.resBusy)
  else
    let s := s.claim 2 n 0x0E
    (s.when (s.linked n) (fun s => s.claim 2 (timerMate n) 0x0E), Code.ok)

/-- A timer's registers at their reset values, and what it holds beside them (R88). -/
def State.tmReset (s : State) (n : Fin 32) : State :=
  ({ s with tm := s.tm.set n {} }).setRegs
    ((List.range 5).map (fun k => (0x2A00 + 8 * n.val + k, regReset (0x2A00 + 8 * n.val + k))))

/-- RELEASE ends a host claim (R88). -/
def timerRelease (n : Fin 32) (s : State) : State × Nat :=
  if s.tmForeign n then (s.resBusy 2 n, Code.resBusy)
  else
    let one (t : State) (k : Fin 32) := (t.tmReset k).unclaim 2 k 0x0E
    (if s.linked n then one (one s (timerMate n)) n else one s n, Code.ok)

/-- A write of TMn_CTRL (R88): the claim, the control fields; LINK of an odd timer ignores the write, and a new link
claims the mate. -/
def timerCtrlWrite (n : Fin 32) (v : Word) (s : State) : State × Nat :=
  if F.TM_CTRL_RELEASE.get v = 1 then timerRelease n s
  else
    let link := F.TM_CTRL_LINK.get v = 1 && n.val % 2 = 0
    if link && s.tmForeign (timerMate n) then (s.resBusy 2 (timerMate n), Code.resBusy)
    else
      let r := s.tmClaim n
      if r.2 ≠ Code.ok then r
      else
        let s := r.1.when link (fun s => s.claim 2 (timerMate n) 0x0E)
        let w := F.TM_CTRL_RELEASE.insert (F.TM_CTRL_LINK.insert v link.toNat) 0
        (s.setReg (0x2A00 + 8 * n.val) (w &&& 0xFFFF3FFF#32), Code.ok)

/-- A write of TMn_CNT (R87): the value loads at the next tick; in a linked pair the low word is held until the high
word is written (R92). -/
def timerCntWrite (n : Fin 32) (v : Word) (s : State) : State × Nat :=
  let r := s.tmClaim n
  if r.2 ≠ Code.ok then r
  else
    let s := r.1
    if s.linked n && n.val % 2 = 0 then (s.updTm n (fun t => { t with hold := some v }), Code.ok)
    else if s.linked n then
      let s := s.updTm (timerMate n) (fun t => { t with load := t.hold, hold := none })
      (s.updTm n (fun t => { t with load := some v }), Code.ok)
    else (s.updTm n (fun t => { t with load := some v }), Code.ok)

/-- The count of a timer, of 64 bits for a linked pair. -/
def State.tmCount (s : State) (n : Fin 32) : Nat :=
  let e := n.val - n.val % 2
  if s.linked n then s.f F.TM_CNT_CNT e + 2 ^ 32 * s.f F.TM_CNT_CNT (e + 1) else s.f F.TM_CNT_CNT n

def cmpFld : Cmp → Fld
  | .a => F.TM_CMPA_CMPA
  | .b => F.TM_CMPB_CMPB

/-- The compare value of a timer, of 64 bits for a linked pair. -/
def State.tmCompare (s : State) (n : Fin 32) (c : Cmp) : Nat :=
  let e := n.val - n.val % 2
  if s.linked n then s.f (cmpFld c) e + 2 ^ 32 * s.f (cmpFld c) (e + 1) else s.f (cmpFld c) n

/-- The arming of a compare after a write (R90, R91): LATE when (C − V) lies below LATEWIN, and then as LATEACT
directs; LATEACT 3 is reserved and acts as arm (log entry 18). -/
def State.tmArm (s : State) (n : Fin 32) (c : Cmp) : State :=
  let n : Fin 32 := if s.linked n then Fin.ofNat 32 (n.val - n.val % 2) else n
  let w := if s.linked n then 2 ^ 64 else 2 ^ 32
  let d := (s.tmCount n + w - s.tmCompare n c % w) % w
  let late := d < s.f F.TM_CTRL_LATEWIN n
  let act := if late then s.f F.TM_CTRL_LATEACT n else 0
  let s := s.when late (fun s => s.setFBit F.TM_LATE_LATE 0 n true)
  s.updTm n (fun t => match c with
    | .a => { t with armA := act != 1, fireA := act == 2 }
    | .b => { t with armB := act != 1, fireB := act == 2 })

/-- A write of a compare register (R90), held for a linked pair until its high word (R92). -/
def timerCompareWrite (n : Fin 32) (c : Cmp) (v : Word) (s : State) : State × Nat :=
  let r := s.tmClaim n
  if r.2 ≠ Code.ok then r
  else
    let s := r.1
    if s.linked n && n.val % 2 = 0 then
      (s.updTm n (fun t => match c with
        | .a => { t with holdA := some v }
        | .b => { t with holdB := some v }), Code.ok)
    else if s.linked n then
      let e := timerMate n
      let held := match c with | .a => (s.tm.get e).holdA | .b => (s.tm.get e).holdB
      let s := match held with | some lo => s.setReg ((cmpFld c).addr e) lo | none => s
      let s := s.updTm e (fun t => match c with
        | .a => { t with holdA := none }
        | .b => { t with holdB := none })
      ((s.setReg ((cmpFld c).addr n) v).tmArm n c, Code.ok)
    else ((s.setReg ((cmpFld c).addr n) v).tmArm n c, Code.ok)

/-- The resource that an action names (R96): a timer, or a capture channel. -/
def actionTarget (act tgt : Nat) : Option (Nat × Nat) :=
  if 6 ≤ act && act ≤ 9 then some (2, tgt) else if act = 4 || act = 5 then some (3, tgt) else none

/-- A write of TMn_ACT (R96, R307): refused with RES_BUSY where a target timer is not owned by the same owner, or a
target channel is owned neither by it nor by host capture. -/
def timerActWrite (n : Fin 32) (v : Word) (s : State) : State × Nat :=
  let r := s.tmClaim n
  if r.2 ≠ Code.ok then r
  else
    let bad (act tgt : Nat) : Option (Nat × Nat) := (actionTarget act tgt).filter (fun t =>
      (t.1 = 2 && 32 ≤ t.2) || !(r.1.owner t.1 t.2 == 0x0E || (t.1 = 3 && r.1.owner t.1 t.2 == 6)))
    match (bad (F.TM_ACT_ACTA.get v) (F.TM_ACT_TGTA.get v)).or (bad (F.TM_ACT_ACTB.get v) (F.TM_ACT_TGTB.get v)) with
    | some t => (s.resBusy t.1 t.2, Code.resBusy)
    | none => (r.1.setReg (0x2A04 + 8 * n.val) (v &&& 0x03FF03FF#32), Code.ok)

/-- The timers that a global write acts on: the named ones, but for the odd timer of a linked pair (R89). -/
def State.tmNamed (s : State) (mask : Word) : List (Fin 32) :=
  timers.filter (fun n => mask.toNat.testBit n && !s.linkedHigh n)

/-- A global write (R89): refused as a whole where a named timer belongs to another feature. -/
def timerGlobal (mask : Word) (g : State → Fin 32 → State) (s : State) : State × Nat :=
  match (s.tmNamed mask).find? (fun n => s.tmForeign n) with
  | some n => (s.resBusy 2 n, Code.resBusy)
  | none => (s.each (s.tmNamed mask) g, Code.ok)

def timerGstart (mask : Word) : State → State × Nat := timerGlobal mask (fun s n => s.setB F.TM_CTRL_RUN n true)

def timerGstop (mask : Word) : State → State × Nat := timerGlobal mask (fun s n => s.setB F.TM_CTRL_RUN n false)

/-- Loading 0, over a linked pair's both words. -/
def State.tmClear (s : State) (n : Fin 32) : State :=
  let s := s.updTm n (fun t => { t with load := some 0 })
  s.when (s.linked n) (fun s => s.updTm (timerMate n) (fun t => { t with load := some 0 }))

def timerGclr (mask : Word) : State → State × Nat := timerGlobal mask State.tmClear

/-! ### The tick -/

/-- The level of a gate source (R95); none for a code that names no source. -/
def State.gateLevel (s : State) (src : Nat) : Option Bool :=
  if src < 8 then some (s.pins.pgin.getLsbD src)
  else if src < 0x0C then some (s.pins.lead.getLsbD (src - 8))
  else if src = 0x0C then some s.pins.syncIn
  else if src = 0x0D then some s.pins.en
  else if 0x10 ≤ src && src < 0x18 then some (s.pins.ext.getLsbD (src - 0x10))
  else if 0x20 ≤ src && src < 0x30 then some (s.fB F.CL_WSTAT_INWIN (src - 0x20))
  else if src = 0x30 then some (s.dev == .run)
  else if src = 0x31 then some (s.fB F.DEV_STATE_HOLD)
  else none

/-- The timers a debug halt can freeze (R98): those of owners 0x02 to 0x05, 0x0C and 0x0D never freeze. -/
def State.tmFreezes (s : State) (n : Fin 32) : Bool :=
  s.tap.frozen && s.fB F.TM_CTRL_FRZ n && !([2, 3, 4, 5, 0x0C, 0x0D].contains (s.owner 2 n))

/-- A timer counts in this tick (R87, R95, R98).  The gate acts at the level it has (log entry 19). -/
def State.tmCounts (s : State) (n : Fin 32) : Bool :=
  s.fB F.TM_CTRL_RUN n && !s.tmFreezes n &&
    (!s.fB F.TM_CTRL_GATE_EN n || s.gateLevel (s.f F.TM_CTRL_GATE_SRC n) == some (s.fB F.TM_CTRL_GATE_LVL n))

/-- One TMR tick of one timer or linked pair (R87, R90): a load takes effect and is no match; otherwise the count
advances.  It answers the compares that match in this tick, CMPA first (R97). -/
def State.tmTick (s : State) (n : Fin 32) : State × List (Fin 32 × Cmp) :=
  if s.linkedHigh n then (s, [])
  else
    let t := s.tm.get n
    let fires := (if t.fireA then [(n, Cmp.a)] else []) ++ (if t.fireB then [(n, Cmp.b)] else [])
    let s := s.updTm n (fun t => { t with
      armA := t.armA && !t.fireA, armB := t.armB && !t.fireB, fireA := false, fireB := false })
    let m := timerMate n
    let link := s.linked n
    match t.load with
    | some v =>
      let s := (s.setReg (F.TM_CNT_CNT.addr n) v).updTm n (fun t => { t with load := none })
      (if link then
        match (s.tm.get m).load with
        | some h => (s.setReg (F.TM_CNT_CNT.addr m) h).updTm m (fun t => { t with load := none })
        | none => s
       else s, fires)
    | none =>
      if s.tmCounts n then
        let w := if link then 2 ^ 64 else 2 ^ 32
        let c := (s.tmCount n + 1) % w
        let s := s.setReg (F.TM_CNT_CNT.addr n) (BitVec.ofNat 32 c)
        let s := s.when link (fun s => s.setReg (F.TM_CNT_CNT.addr m) (BitVec.ofNat 32 (c / 2 ^ 32)))
        (s, fires ++ (if t.armA && !t.fireA && c = s.tmCompare n .a then [(n, Cmp.a)] else [])
          ++ (if t.armB && !t.fireB && c = s.tmCompare n .b then [(n, Cmp.b)] else []))
      else (s, fires)

end Sys2Proof.Machine
end

