-- ==== Sys2Proof/Machine/TimerMatch.lean ====
section
/-! DEFINITION. Timer matches and their actions (R96, R97, R253), the host's timer writes as commands, and the linked-read rule
of R93. -/

namespace Sys2Proof.Machine

/-- The action code and target of a compare (R96): reserved codes act as 0. -/
def State.tmAction (s : State) (n : Fin 32) (c : Cmp) : Nat × Nat :=
  let p := match c with
    | .a => (s.f F.TM_ACT_ACTA n, s.f F.TM_ACT_TGTA n)
    | .b => (s.f F.TM_ACT_ACTB n, s.f F.TM_ACT_TGTB n)
  if p.1 < 0xA then p else (0, p.2)

/-- The timer that a start, stop or reset addresses: of a linked pair, the even one. -/
def State.tmHead (s : State) (t : Nat) : Fin 32 :=
  let n := Fin.ofNat 32 t
  if s.linkedHigh n then timerMate n else n

/-- The action of a match (R96). -/
def State.tmAct (s : State) (code tgt : Nat) : State :=
  match code with
  | 2 => s.evalAlert
  | 3 => s.when (tgt < 8) (fun s => s.snapRequest (Fin.ofNat 8 tgt))
  | 4 => s.trigger (Fin.ofNat 64 tgt)
  | 5 => s.streamRequest (Fin.ofNat 64 tgt)
  | 6 => s.setB F.TM_CTRL_RUN (s.tmHead tgt) true
  | 7 => s.setB F.TM_CTRL_RUN (s.tmHead tgt) false
  | 8 => s.tmClear (s.tmHead tgt)
  | 9 => (s.tmClear (s.tmHead tgt)).setB F.TM_CTRL_RUN (s.tmHead tgt) true
  | _ => s

/-- The match flag of a compare. -/
def matchFld : Cmp → Fld
  | .a => F.TM_MATCHA_MATCHA
  | .b => F.TM_MATCHB_MATCHB

/-- A match of the timer that ends a blank window (R136, R253): the window's extra time begins, and the timer stops. -/
def State.blankMatch (s : State) (n : Fin 32) : State :=
  s.each clusters (fun s k =>
    if s.fB F.CL_VSLEW_BLKEN k && s.fB F.CL_WSTAT_BLANKED k && s.f F.CL_VSLEW_BLKTM k == n.val then
      (s.updCl k (fun c => { c with blankM := true })).setB F.TM_CTRL_RUN n false
    else s)

/-- TIMER_MATCH (R96): the flag, unless the code is 0, and the action. -/
def execTimerMatch (n : Fin 32) (c : Cmp) (s : State) : Host.Outcome State Fault Refusal :=
  let n := s.tmHead n
  let a := s.tmAction n c
  let s := s.when (a.1 != 0) (fun s => s.setFBit (matchFld c) 0 n true)
  .next ((s.tmAct a.1 a.2).when (c == .a) (fun s => s.blankMatch n))

/-! ### The host's writes as commands (R87 to R92, R96) -/

end Sys2Proof.Machine
end

