-- ==== Sys2Proof/Machine/Thermal.lean ====
section
/-! DEFINITION. The thermal model, thermal shutdown, woodpecker trains and capping (13_thermal_and_capping.md R287 to
R301). -/

namespace Sys2Proof.Machine

/-- A temperature in 1/128 C, signed, 16 bits. -/
def temp128 (t : Rat) : Int := satS 16 (roundAway (128 * t))

/-! ### Thermal shutdown (R292 to R294) -/

/-- The thermal-shutdown record of R294: words 0 to 14, and their CRC. -/
def State.tsdRecord (s : State) (n : Fin 16) (cause : Nat) : List Word :=
  let c := s.cl.get n
  let hp := s.f F.CL_THSTAT_HOTPH n
  let ph : Fin 48 := Fin.ofNat 48 hp
  let two (lo hi : Int) : Word := BitVec.ofNat 32 (ofSigned 16 lo + 65536 * ofSigned 16 hi)
  let th (k : Fin 4) : Int := temp128 ((s.ph.get ph).theta.get k)
  let ms := s.clk.ms.toNat
  let temps (j : Nat) : Word := BitVec.ofNat 32 (sumI ((List.range 4).map (fun k =>
    (satU 8 (roundAway ((s.fS F.CL_TTEMP_TTEMP (4 * j + k) : Rat) / 128) + 64) * 256 ^ k : Nat)))).toNat
  let w : List Word := [0x54534452#32, s.nvm.timeSlot.2, BitVec.ofNat 32 ms,
    BitVec.ofNat 32 (ms / 2 ^ 32 + 65536 * s.f F.THM_TSDCNT_STORED),
    BitVec.ofNat 32 (n.val + 16 * (hp % 64) + 1024 * cause + 4096 * s.dev.code),
    two (temp128 c.tHot) (s.fS F.CL_TTEMP_TTEMP n),
    two (temp128 c.baseC) (satS 16 (roundAway ((s.ph.get ph).iCal / 100))),
    two (th 0) (th 1), two (th 2) (th 3),
    BitVec.ofNat 32 (Nat.min 65535 (s.f F.PH_PLOSS_PLOSS ph) + 65536 * satU 16 (roundAway (c.vin * 100))),
    temps 0, temps 1, temps 2, temps 3,
    two (s.fS F.DEV_TEMP_TCTL) (s.fS F.DEV_TEMP_TSNS)]
  w ++ [crcWords w]

/-- Storing the record, or counting it where all 32 slots are in use; the NVM takes no write from stage L4 (R26). -/
def State.storeTsd (s : State) (n : Fin 16) (cause : Nat) : State :=
  if 32 ≤ s.f F.THM_TSDCNT_STORED then s.incF F.THM_TSDCNT_LOST 0
  else if s.nvmOpen then
    ({ s with owl := { s.owl with tsd := s.owl.tsd ++ [s.tsdRecord n cause] } }).incF F.THM_TSDCNT_STORED 0
  else s

/-- Thermal shutdown (R292), once while the latch stands: off as by CLOFF with the clusters it takes down, the latch,
TH_SHUT and the record; the cluster's thermal request ends (R301). -/
def State.thermalShutdown (s : State) (n : Fin 16) (cause : Nat) : State :=
  if s.fBit F.THM_TSD_TSDMASK 0 n then s
  else
    let set := s.offSet n
    let s := s.storeTsd n cause
    let s := s.each set State.clOff
    let s := (((s.setFBit F.THM_TSD_TSDMASK 0 n true).setB F.CL_THSTAT_TSD n true).setB F.CL_THSTAT_TSDF n true).updCl n
      (fun c => { c with dReq := 0, tsdTook := BitVec.ofNat 16 (maskOf ((set.filter (· != n)).map Fin.val)) })
    (s.raise (Src.thShut n)).saveState

/-- A TSD latch clears (R293): in RUN the cluster and those it took down start again in the order of their power-up
steps, but for one that another latch holds. -/
def State.tsdClear (s : State) (n : Fin 16) : State :=
  if !s.fBit F.THM_TSD_TSDMASK 0 n then s
  else
    let took := (s.cl.get n).tsdTook
    let s := ((s.setFBit F.THM_TSD_TSDMASK 0 n false).setB F.CL_THSTAT_TSD n false).lower (Src.thShut n)
    let s := (s.updCl n (fun c => { c with tsdTook := 0 })).saveState
    if s.dev == .run then
      let back (k : Fin 16) : Bool := k == n || took.getLsbD k
      let order := (List.range 33).flatMap (fun j => clusters.filter (fun k => back k && s.stepOf k == j))
      s.each order (fun s k => s.when ((s.cl.get k).run == .off && !s.clBarred k && !s.fBit F.SUPV_CLLAT_SHEDCL 0 k
        && s.nCfg k != 0) (fun s => s.clStart k))
    else s

/-- The cluster's temperatures both lie below a level in C; a temperature that does not exist yet does not exceed it. -/
def State.tempsBelow (s : State) (n : Fin 16) (lim : Nat) : Bool :=
  decide ((s.cl.get n).tHot < lim) && (match (s.cl.get n).tGood with | some t => decide (t < lim) | none => true)

/-! ### TSEN (R287) -/

/-- The end of a cluster's out-of-range spell, and its start. -/
def State.tsenRange (s : State) (n : Fin 16) (inRange : Bool) : State :=
  let s := s.updCl n (fun c => { c with
    tsenLow := if inRange then 0 else Nat.min 3 (c.tsenLow + 1)
    tsenOk := if inRange && s.fB F.CL_TSENV_BAD n then c.tsenOk + 1 else 0 })
  if !s.fB F.CL_TSENV_BAD n then
    s.when ((s.cl.get n).tsenLow == 3) (fun s => (s.setB F.CL_TSENV_BAD n true).raise (Src.thTsenbad n))
  else
    s.when ((s.cl.get n).tsenOk == 10) (fun s =>
      ((s.setB F.CL_TSENV_BAD n false).lower (Src.thTsenbad n)).updCl n (fun c => { c with tsenOk := 0 }))

/-- A good reading: the cluster temperature, the first of which is base_c, and cause 2 of R292. -/
def State.tsenGood (s : State) (n : Fin 16) (t : Rat) : State :=
  let hot := if (s.f F.CL_THCFG_THSD n : Rat) ≤ t then (s.cl.get n).tsenHot + 1 else 0
  let s := s.updCl n (fun c => { c with
    tGood := some t, tsenLast := true, tsenHot := Nat.min 2 hot, baseSet := true
    baseC := if c.baseSet then c.baseC else t })
  let s := (s.setS F.CL_TTEMP_TTEMP n (temp128 t)).setS F.CL_VIN_BASE n (temp128 (s.cl.get n).baseC)
  s.when (2 ≤ hot) (fun s => s.thermalShutdown n
    (if (s.f F.CL_THCFG_THSD n : Rat) ≤ (s.cl.get n).tHot then 3 else 2))

/-- TSEN_READING: `code` in steps of 0.625 mV. -/
def execTsenReading (n : Fin 16) (code : BitVec 12) (s : State) : Host.Outcome State Fault Refusal :=
  let mv : Rat := (code.toNat : Rat) * 5 / 8
  let s := s.setF F.CL_TSENV_V n (roundAway mv).toNat
  if s.nCfg n = 0 then .next s
  else
    let atFault := decide ((s.f F.CL_TSENCFG_FLTV n : Rat) * 5 / 2 ≤ mv)
    let s := s.when (!atFault && s.fB F.CL_TSENV_FLT n) (fun s =>
      (s.setB F.CL_TSENV_FLT n false).lower (Src.thTsenf n))
    let inRange := decide (100 ≤ mv)
    let s := s.tsenRange n inRange
    if inRange && !atFault && !s.fB F.CL_TSENV_BAD n then
      .next (s.tsenGood n ((mv - s.f F.CL_TSENCFG_TOFS n) * 10 / (s.f F.CL_TSENCFG_TSLP n : Rat)))
    else .next (s.updCl n (fun c => { c with tsenLast := false, tsenHot := 0 }))

/-- TSEN_FAULT_LEVEL: the comparator, armed while PENn is high. -/
def execTsenFaultLevel (n : Fin 16) (s : State) : Host.Outcome State Fault Refusal :=
  if s.pins.pen.getLsbD n then .next ((s.setB F.CL_TSENV_FLT n true).raise (Src.thTsenf n)) else .next s

/-! ### The model (R288 to R291) -/

/-- The loss of a phase in W from its mean current in A, duty and count of high intervals over the step, and V_IN in V. -/
def State.phaseLoss (s : State) (n : Fin 16) (amps duty : Rat) (highs : Nat) (vin : Rat) : Rat :=
  if highs = 0 then 0
  else
    let a := absQ amps
    let k (f : Fld) : Rat := s.f f n
    k F.CL_LOSS0_K0 / 1000 + k F.CL_LOSS0_K1 / 1000 * a + k F.CL_LOSS1_K2 / 100000 * a * a * (1 + k F.CL_LOSS1_KD / 16 * duty)
      + (highs : Rat) * 10000 * ((k F.CL_LOSS2_KS1 * vin * a + k F.CL_LOSS2_KS0 * vin * vin) / 100000000000)

/-- V_IN of a cluster in V, of the means of VBUS, VIB0 and VIB1. -/
def State.clVin (s : State) (n : Fin 16) (vin : Vector Rat 3) : Rat :=
  match s.f F.CL_VIN_VINSEL n with
  | 0 => vin.get 0
  | 1 => vin.get 1
  | 2 => vin.get 2
  | _ => (s.f F.CL_VIN_VINX n : Rat) / 100

/-- T_ph of a phase in C. -/
def State.phTemp (s : State) (n : Fin 16) (p : Fin 48) : Rat :=
  (s.cl.get n).baseC + sumQ (s.ph.get p).theta.toList

/-- One pole of R289 over a step of 100 us. -/
def fosterStep (theta r tau loss : Rat) : Rat :=
  let a := expNeg (1 / 10 / tau)
  theta * a + r * (1 - a) * loss

/-- The step of one phase. -/
def State.modelPhase (s : State) (n : Fin 16) (p : Fin 48) (loss : Rat) : State :=
  let pole (k : Fin 4) : Rat × Rat :=
    let w := s.reg (F.CL_FOSTER_R.addr n + k.val)
    ((F.CL_FOSTER_R.get w : Rat) / 1000, (F.CL_FOSTER_TAU.get w : Rat))
  let s := s.updPh p (fun u => { u with
    theta := Vector.ofFn (fun (k : Fin 4) => fosterStep (u.theta.get k) (pole k).1 (pole k).2 loss) })
  let s := s.setF F.PH_PLOSS_PLOSS p (satU 32 (roundAway (loss * 1000)))
  let t := temp128 (s.phTemp n p)
  (s.setS F.PH_TMOD_TMOD p t).holdMax (F.PH_TPK_TPK.addr p) t

/-- Hot or not, and the density (R291); a hot cluster is judged by the present thresholds (R301). -/
def State.throttle (s : State) (n : Fin 16) : State :=
  let c := s.cl.get n
  let t := match c.tGood with | some g => if c.tHot < g then g else c.tHot | none => c.tHot
  let thr : Int := s.f F.CL_THCFG_THTHR n
  let was := s.fB F.CL_THSTAT_THROT n
  let hot := decide ((thr : Rat) ≤ t) || (was && decide ((thr : Rat) - 2 ≤ t))
  let d := clampI 0 256 ((s.f F.CL_THCFG_TGAIN n : Int) * (1 + (t - (thr : Rat)).floor))
  let s := s.updCl n (fun c => { c with dReq := if hot && !s.fBit F.THM_TSD_TSDMASK 0 n then d.toNat else 0 })
  let s := s.setB F.CL_THSTAT_THROT n hot
  let s := s.when (hot && !was) (fun s => (s.setB F.CL_THSTAT_THROTF n true).raise (Src.thThrot n))
  s.when (!hot) (fun s => s.lower (Src.thThrot n))

/-- The model step of one cluster. -/
def State.modelCluster (s : State) (n : Fin 16) (obs : List (Fin 48 × Rat × Rat × Nat)) (vin : Vector Rat 3) : State :=
  let v := s.clVin n vin
  let s := s.each (s.clPhases n) (fun s p =>
    s.modelPhase n p (match obs.find? (fun o => o.1 == p) with
      | some o => s.phaseLoss n o.2.1 o.2.2.1 o.2.2.2 v
      | none => 0))
  match s.clPhases n with
  | [] => s
  | p :: l =>
    let hp := l.foldl (fun q r => if s.phTemp n q < s.phTemp n r then r else q) p
    let th := s.phTemp n hp
    let s := s.updCl n (fun c => { c with tHot := th, vin := v })
    let s := (s.setS F.CL_THSTAT_THOT n (temp128 th)).setF F.CL_THSTAT_HOTPH n hp
    let s := s.when (decide ((s.f F.CL_THCFG_THSD n : Rat) ≤ th)) (fun s =>
      s.thermalShutdown n (if (s.cl.get n).tsenHot == 2 then 3 else 1))
    s.throttle n

/-- THERMAL_MODEL_STEP: `obs`: for each phase with a high interval in the step its mean current in A, measured duty and
number of high intervals; `vin`: the means of VBUS, VIB0 and VIB1 in V. -/
def execThermalModelStep (obs : List (Fin 48 × Rat × Rat × Nat)) (vin : Vector Rat 3) (s : State) :
    Host.Outcome State Fault Refusal :=
  .next (s.each clusters (fun s n => s.modelCluster n obs vin))

/-- THERMAL_ANCHOR (R290): every cluster whose latest reading is good. -/
def execThermalAnchor (s : State) : Host.Outcome State Fault Refusal :=
  .next (s.each clusters (fun s n =>
    match (s.cl.get n).tsenLast && !s.fB F.CL_TSENV_FLT n, (s.cl.get n).tGood with
    | true, some t =>
      let s := s.updCl n (fun c => { c with baseC := c.baseC + clampQ (-2) 2 ((t - c.tHot) / 4) })
      s.setS F.CL_VIN_BASE n (temp128 (s.cl.get n).baseC)
    | _, _ => s))

/-! ### Clearing the latch (R293) -/

/-- TSDCLR of THM_CTRL. -/
def thmTsdclr (n : Fin 16) (confirm : BitVec 16) (s : State) : State × Nat :=
  if confirm.toNat ≠ confirmKey then (s.setB F.THM_TSD_CMD_REF 0 true, Code.range)
  else if s.tempsBelow n (s.f F.CL_THCFG_THSD n) then ((s.accepted 0x2804 1).tsdClear n, Code.ok)
  else (s.setB F.THM_TSD_CMD_REF 0 true, Code.state)

/-- TSD_AUTO_CLEAR: 60 s below TREARM without interruption. -/
def execTsdAutoClear (n : Fin 16) (s : State) : Host.Outcome State Fault Refusal :=
  if s.tempsBelow n (s.f F.CL_THCFG_TREARM n) then .next (s.tsdClear n) else .next s

/-! ### Densities (R295, R297) -/

/-- Output k serves cluster n. -/
def State.servesCl (s : State) (k : Fin 4) (n : Fin 16) : Bool :=
  s.fB F.THR_CFG_EN k && (if s.fB F.THR_CFG_KIND k then s.f F.THR_CFG_TARGET k == n.val
    else match s.region n with | some x => s.f F.THR_CFG_TARGET k == x.val | none => false)

/-- Output k serves region x. -/
def State.servesRg (s : State) (k : Fin 4) (x : Fin 4) : Bool :=
  s.fB F.THR_CFG_EN k && (if s.fB F.THR_CFG_KIND k then s.fBit F.RG_CFG_CLMASK x (s.f F.THR_CFG_TARGET k)
    else s.f F.THR_CFG_TARGET k == x.val)

/-- The density in force on an output and its source (R297); of equal requests the source named first in R297 counts
(log entry 28). -/
def State.density (s : State) (k : Fin 4) : Nat × Nat :=
  let dmax := s.f F.THR_CFG_DMAX k
  if !s.fB F.THR_CFG_EN k then (0, 0)
  else if 4 ≤ s.f F.INP_STAT_BSTAGE then (dmax, if dmax = 0 then 0 else 6)
  else
    let rg := ((List.finRange 4).filter (fun x => s.servesRg k x)).foldl (fun (d : Nat) (x : Fin 4) => Nat.max d (s.f F.RG_CAPST_REQ x)) 0
    let th := (clusters.filter (fun n => s.servesCl k n)).foldl (fun d n => Nat.max d (s.cl.get n).dReq) 0
    let rack := if s.fB F.THM_RACK_RVALID then s.f F.THM_RACK_RDENS else 0
    let best := [(rg, 1), (th, 2), (s.f F.THM_BRDSTAT_REQ, 3), (rack, 4), (s.f F.THR_DEN_MAN k, 5)].foldl
      (fun (b : Nat × Nat) r => if b.1 < r.1 then r else b) (0, 0)
    (Nat.min dmax best.1, if Nat.min dmax best.1 = 0 then 0 else best.2)

/-! ### Trains (R296) -/

/-- Trains run in SEQUP, RUN and SEQDN, on an output in use. -/
def State.trainsRun (s : State) (k : Fin 4) : Bool :=
  (s.dev == .sequp || s.dev == .run || s.dev == .seqdn) && s.fB F.THR_CFG_EN k

/-- The accumulator has reached 256 x PW. -/
def State.pauseDue (s : State) (k : Fin 4) : Bool :=
  s.trainsRun k && s.f F.THR_CFG_PW k != 0 && decide (256 * s.f F.THR_CFG_PW k ≤ (s.thr.get k).acc)

/-- The ball of an output. -/
def State.setThr (s : State) (k : Fin 4) (b : Bool) : State :=
  { s with pins := { s.pins with thr := BitVec.ofNat 4 (setBitN s.pins.thr.toNat k b) } }

/-- WOODPECKER_PAUSE_START. -/
def execWoodpeckerPauseStart (k : Fin 4) (s : State) : Host.Outcome State Fault Refusal :=
  if s.pauseDue k && !s.pins.thr.getLsbD k then
    .next ((s.setThr k true).updThr k (fun t => { t with
      acc := t.acc - 256 * s.f F.THR_CFG_PW k, pauseLeft := s.f F.THR_CFG_PW k }))
  else .next s

/-- WOODPECKER_PAUSE_END. -/
def execWoodpeckerPauseEnd (k : Fin 4) (s : State) : Host.Outcome State Fault Refusal :=
  if s.pins.thr.getLsbD k && (s.thr.get k).pauseLeft == 0 then .next (s.setThr k false) else .next s

/-- The train generator's tick: the accumulator takes the density and a pause runs; with D = 0 the accumulator is
cleared. -/
def State.trainTick (s : State) (k : Fin 4) : State :=
  if !s.trainsRun k then s
  else
    let d := (s.density k).1
    s.updThr k (fun t => { t with acc := if d = 0 then 0 else t.acc + d, pauseLeft := t.pauseLeft - 1 })

/-- What the tick brings about on an output: a pause ends, a pause starts. -/
def State.trainEvents (s : State) (k : Fin 4) : Bool × Bool :=
  let ends := s.pins.thr.getLsbD k && (s.thr.get k).pauseLeft == 0
  (ends, s.pauseDue k && (!s.pins.thr.getLsbD k || ends))

/-! ### Capping (R298, R299) -/

/-- The clusters of a controller: a region's, or for the board (index 4) those of the regions fed by the feed bus. -/
def State.capClusters (s : State) (c : Fin 5) : List (Fin 16) :=
  if c.val < 4 then s.rgClusters c.val
  else ((List.finRange 4).filter (fun (x : Fin 4) => s.f F.RG_CFG_UPSRC x == 0x10 || s.f F.RG_CFG_UPSRC x == 0x11)).flatMap
    (fun x => s.rgClusters x.val)

/-- A controller's fields: request and over flag; starting density, rise, fall and saturation time. -/
def capReqFld (c : Fin 5) : Fld × Nat := if c.val < 4 then (F.RG_CAPST_REQ, c.val) else (F.THM_BRDSTAT_REQ, 0)
def capOverFld (c : Fin 5) : Fld × Nat := if c.val < 4 then (F.RG_CAPST_OVER, c.val) else (F.THM_BRDSTAT_OVER, 0)

def State.capCfg (s : State) (c : Fin 5) : Nat × Nat × Nat × Nat :=
  if c.val < 4 then (s.f F.RG_CAPC_CAPD0 c, s.f F.RG_CAPC_KUP c, s.f F.RG_CAPC_KDN c, s.f F.RG_CAPC_CAPSAT c)
  else (s.f F.THM_CAPCFG_CAPD0, s.f F.THM_CAPCFG_KUP, s.f F.THM_CAPCFG_KDN, s.f F.THM_CAPCFG_CAPSAT)

/-- The budget in force, in W. -/
def State.capBudget (s : State) (c : Fin 5) : Nat :=
  if c.val < 4 then (if 2 ≤ s.f F.INP_STAT_BSTAGE then s.f F.RG_BUD_HBUD c else s.f F.RG_BUD_BUD c)
  else if s.fB F.THM_RACK_RVALID then Nat.min (s.f F.THM_BRD_BRD_BUD) (s.f F.THM_RACK_RBUD)
  else s.f F.THM_BRD_BRD_BUD

/-- The power of a cluster in mW: the current of R159 times vref_eff x 25 uV / g. -/
def State.clPower (s : State) (n : Fin 16) : Rat :=
  sumQ ((s.clPhases n).map (fun p => (s.ph.get p).iCal)) * (s.f F.CL_VSTAT_VREFEFF n : Rat) * 25 / 1000000 * (s.gDiv n : Rat)

/-- The outputs that a controller's request reaches. -/
def State.capOutputs (s : State) (c : Fin 5) : List (Fin 4) :=
  (List.finRange 4).filter (fun k => if h : c.val < 4 then s.servesRg k ⟨c.val, h⟩ else s.fB F.THR_CFG_EN k)

/-- A member asserts CAPREQ, or a CAP action is held. -/
def State.capAsked (s : State) (c : Fin 5) : Bool :=
  (s.capClusters c).any (fun n => s.fB F.CL_OLSTAT_CAPREQ n)
    || (if h : c.val < 4 then s.capByReaction ⟨c.val, h⟩
        else s.sup.capHeld.any (fun h => ((s.srcActs h.1).get 0).getLsbD 0))

def capSrc (c : Fin 5) : Nat := if c.val < 4 then Src.rgCap c else Src.brdCap
def capSatSrc (c : Fin 5) : Nat := if c.val < 4 then Src.rgCapsat c else Src.brdCapsat

/-- Storing a controller's request; at 0 the condition of its RG_CAP or BRD_CAP has ended. -/
def State.setReq (s : State) (c : Fin 5) (v : Nat) : State :=
  let s := s.setF (capReqFld c).1 (capReqFld c).2 v
  s.when (v == 0) (fun s => s.lower (capSrc c))

/-- The start of an over condition (R298, 1). -/
def State.capBegin (s : State) (c : Fin 5) : State :=
  let req := s.f (capReqFld c).1 (capReqFld c).2
  let s := s.when (req == 0) (fun s =>
    (s.when (c.val < 4) (fun s => s.setB F.RG_CAPST_CAPF c true)).raise (capSrc c))
  s.setF (capReqFld c).1 (capReqFld c).2 (Nat.max req (s.capCfg c).1)

/-- One controller's estimate. -/
def State.capEstimate (s : State) (c : Fin 5) : State :=
  let ns := s.capClusters c
  let pw := sumQ (ns.map s.clPower)
  let bud := s.capBudget c
  let run := if bud != 0 && decide ((bud : Rat) * 1000 < pw) then (s.cap.get c).overRun + 1 else 0
  let acc := (s.cap.get c).pwrAcc
  let acc := (acc.1 + pw, acc.2 + 1)
  let s := s.when (acc.2 == 12500) (fun s =>
    let w := satU 16 (roundAway (acc.1 / 12500 / 1000))
    if c.val < 4 then s.setF F.RG_PWR_PWR c w else s.setF F.THM_BRDSTAT_PWR 0 w)
  let s := s.updCap c (fun k => { k with
    power := pw, overRun := Nat.min 4 run, pwrAcc := if acc.2 == 12500 then (0, 0) else acc })
  if ns.all (fun n => (s.cl.get n).run == .off) then
    (s.setReq c 0).setB (capOverFld c).1 (capOverFld c).2 false
  else
    let above := 4 ≤ run || s.capAsked c
    let was := s.fB (capOverFld c).1 (capOverFld c).2
    (s.when (above && !was) (fun s => s.capBegin c)).setB (capOverFld c).1 (capOverFld c).2 above

/-- POWER_ESTIMATE: the four regions, then the board. -/
def execPowerEstimate (s : State) : Host.Outcome State Fault Refusal :=
  .next (s.each (List.finRange 5) State.capEstimate)

/-- The saturation of a controller (R298, 3). -/
def State.capSaturate (s : State) (c : Fin 5) (sat : Bool) : State :=
  let lim := 10 * (s.capCfg c).2.2.2
  let t := if sat then Nat.min (lim + 1) ((s.cap.get c).satTicks + 1) else 0
  let s := s.updCap c (fun k => { k with satTicks := t })
  let s := s.when (sat && t == lim) (fun s =>
    (s.when (c.val < 4) (fun s => s.setB F.RG_CAPST_SATF c true)).raise (capSatSrc c))
  s.when (!sat && decide (c.val < 4)) (fun s => s.lower (capSatSrc c))

/-- CAPPING_CONTROL_STEP of a region's controller, or of the board's (index 4). -/
def execCappingControlStep (c : Fin 5) (s : State) : Host.Outcome State Fault Refusal :=
  let req := s.f (capReqFld c).1 (capReqFld c).2
  let above := s.fB (capOverFld c).1 (capOverFld c).2
  let bud := s.capBudget c
  let low := bud == 0 || decide ((s.cap.get c).power < 97 / 100 * (bud * 1000 : Nat))
  let s := if above then s.setReq c (Nat.min 256 (req + (s.capCfg c).2.1))
    else if low && !s.capAsked c then s.setReq c (req - (s.capCfg c).2.2.1)
    else s
  let req := s.f (capReqFld c).1 (capReqFld c).2
  .next (s.capSaturate c (above && (s.capOutputs c).all (fun k => decide (s.f F.THR_CFG_DMAX k ≤ req))))

end Sys2Proof.Machine
end

