-- ==== Sys2Proof/Machine/Views.lean ====
section
/-! DEFINITION. Reading a register at a port: the words that show other state, the linked reads of 64-bit counters (R93), what a
read clears (R7, R175, R189), and the reads with rows of their own. -/

namespace Sys2Proof.Machine

/-! ### Ports -/

/-- A port takes part: the two-wire port while awake and until stage L3, the stream port until stage L1 and outside DIE_HOT;
neither in BOOT or with the control die taken as dead (R18, R19, R46, R332). -/
def State.portLive (s : State) : Port → Bool
  | .twoWire => s.dev != .boot && s.f F.DEV_PWRSTAT_LSTAGE < 3 && !s.power.heartbeatLost && s.fB F.HST_STAT_AWAKE
  | .stream => s.dev != .boot && s.f F.DEV_PWRSTAT_LSTAGE < 1 && !s.power.heartbeatLost && !s.power.dieHot

/-- The registers that recovery STANDBY serves (R69). -/
def State.served (s : State) (a : Nat) : Bool :=
  !s.noImg || a == 0 || a == 1 || a == 4 || a == 0x21 || (0x3300 ≤ a && a ≤ 0x3306)

/-- A word as a port's answer: its bytes on the two-wire port, one data word on the stream port. -/
def State.answerWord (s : State) (p : Port) (w : Word) : State :=
  match p with
  | .twoWire => { s with port := { s.port with resp := wordBytes w, nack := false } }
  | .stream => { s with port := { s.port with sStatus := 0, sAux := 1, sData := [w], sMarks := [] } }

/-! ### 64-bit counters (R93) -/

/-- The word address of a counter's low word. -/
def counterLow : Counter64 → Nat
  | .acc n => 0x100C + 0x100 * n.val
  | .response n k => 0x1018 + 0x100 * n.val + 2 * k.val
  | .timer k => 0x2A01 + 0x10 * k.val
  | .energy f => 0x2484 + 0x10 * f.val
  | .capture => 0x2C0C
  | .operating => 0x2E0E

/-- The live words of a counter, low and high. -/
def State.counterWords (s : State) (c : Counter64) : Word × Word :=
  let split (v : Int) : Word × Word := (BitVec.ofInt 32 v, BitVec.ofInt 32 (v / 2 ^ 32))
  match c with
  | .acc n => split (s.cl.get n).acc.toInt
  | .response n k =>
    let u := s.cl.get n
    split (match k.val with | 0 => u.resA.1 | 1 => u.resA.2 | 2 => u.resB.1 | _ => u.resB.2)
  | .timer k => (s.reg (F.TM_CNT_CNT.addr (2 * k)), s.reg (F.TM_CNT_CNT.addr (2 * k + 1)))
  | .energy f => split (s.fd.get f).energy.floor
  | .capture => split s.clk.tmr.toNat
  | .operating => (s.clk.ms.setWidth 32, item (s.clk.ms.toNat / 2 ^ 32 + 65536 * s.clk.us))

/-- The counter that a word address reads, and whether as its high word. -/
def State.counterAt (s : State) (a : Nat) : Option (Counter64 × Bool) :=
  let k := a % 0x100
  if 0x1000 ≤ a && a < 0x2000 then
    let n : Fin 16 := Fin.ofNat 16 ((a - 0x1000) / 0x100)
    if k = 0x0C || k = 0x0D then some (.acc n, k = 0x0D)
    else if 0x18 ≤ k && k < 0x20 then some (.response n (Fin.ofNat 4 ((k - 0x18) / 2)), k % 2 = 1)
    else none
  else if 0x2A00 ≤ a && a < 0x2B00 && a % 8 = 1 then
    let n : Fin 32 := Fin.ofNat 32 ((a - 0x2A00) / 8)
    if s.linked n then some (.timer (Fin.ofNat 16 (n.val / 2)), n.val % 2 = 1) else none
  else if 0x2480 ≤ a && a < 0x24C0 && (a % 16 = 4 || a % 16 = 5) then some (.energy (Fin.ofNat 4 ((a - 0x2480) / 16)), a % 16 = 5)
  else if a = 0x2C0C || a = 0x2C0D then some (.capture, a = 0x2C0D)
  else if a = 0x2E0E || a = 0x2E0F then some (.operating, a = 0x2E0F)
  else none

def portReader : Port → Reader
  | .twoWire => .twoWire
  | .stream => .stream

/-- A reader's snapshot of a counter's high word; 0 before the first read of the low word. -/
def State.snapshot (s : State) (r : Reader) (c : Counter64) : Word :=
  ((s.port.snaps.find? (fun x => x.1.1 = r && x.1.2 = (counterLow c))).map (·.2)).getD 0

/-- A read of the low word: it is returned, and the reader's snapshot takes the high word. -/
def State.readLow (s : State) (r : Reader) (c : Counter64) : State × Word :=
  let w := s.counterWords c
  let others := s.port.snaps.filter (fun x => !(x.1.1 = r && x.1.2 = (counterLow c)))
  ({ s with port := { s.port with snaps := others ++ [((r, (counterLow c)), w.2)] } }, w.1)

/-! ### Words that show other state -/

/-- Entry `k` of the history queue, oldest first, the newest in entry 31 (R280). -/
def State.histEntry (s : State) (k : Nat) : Word × Word :=
  let n := s.sup.hist.length
  if k + n < 32 then (0xFFFFFFFF, 0xFFFFFFFF) else s.sup.hist.getD (k + n - 32) (0xFFFFFFFF, 0xFFFFFFFF)

/-- A register as a read shows it, side effects apart. -/
def State.view (s : State) (a : Nat) : Word :=
  let w := s.reg a
  if a = 1 then F.DEV_STATE_STATE.insert w s.dev.code
  else if a = 2 then (if s.shelf then w else F.DEV_ONOFF_CFG_SEAT_USE.insert w 1)
  else if 0x280 ≤ a && a < 0x2C0 then
    let e := s.histEntry ((a - 0x280) / 2)
    if a % 2 = 0 then e.1 else e.2
  else if 0x1000 ≤ a && a < 0x2000 && a % 0x100 = 0x7B then
    F.CL_VIN_BASE.insert w (ofSigned 16 (satS 16 (roundAway ((s.cl.get (Fin.ofNat 16 ((a - 0x1000) / 0x100))).baseC * 128))))
  else if a = 0x2480 || a = 0x2490 || a = 0x24A0 then F.FEED_TCFG_AUXSRC.insert w 3
  else if 0x2600 ≤ a && a < 0x2780 && a % 0x40 = 0x0D then
    let b := s.bat.get (Fin.ofNat 6 ((a - 0x2600) / 0x40))
    F.BAT_TEMP_TCELL.insert (F.BAT_TEMP_TB.insert w (ofSigned 16 b.tb)) (ofSigned 16 b.tCell)
  else if 0x2818 ≤ a && a < 0x281C then
    let d := s.density (Fin.ofNat 4 (a - 0x2818))
    F.THR_DEN_SRC.insert (F.THR_DEN_D.insert w d.1) d.2
  else if a = 0x2C0E then F.CAP_LOAD_RATE.insert w (roundAway s.capLoad).toNat
  else if 0x2D00 ≤ a && a < 0x2E00 && a % 4 = 3 then
    F.CH_STAT_FILL.insert w (s.ch.get (Fin.ofNat 64 ((a - 0x2D00) / 4))).fill
  else w

/-- A register as a port sees it: the owner of a transaction reads its shadows (R350) and the token (R349). -/
def State.seen (s : State) (p : Port) (a : Nat) : Word :=
  let w := s.view a
  if a = 0x11 then (if s.txnOwner p then w else F.TXN_STATUS_TOKEN.insert w 0)
  else if s.txnOwner p then
    match s.txn.shadows.find? (fun x => x.1 = a) with
    | some x => mergeStored a w x.2
    | none => w
  else w

/-! ### Reads -/

/-- A word with its RC fields cleared; a min or max register clears to the value of R189, which is its reset value. -/
def clearRc (a : Nat) (w : Word) : Word :=
  (regFields a).foldl (fun w r => if r.acc = .rc then r.fld.insert w r.reset else w) w

/-- What a read leaves behind: RC fields cleared, and VALID of a snapshot that is read (R175). -/
def State.afterRead (s : State) (a : Nat) : State :=
  let s := s.when ((regFields a).any (fun r => r.acc = .rc)) (fun s => s.setReg a (clearRc a (s.reg a)))
  s.when (0x24C0 ≤ a && a < 0x24D0 && a % 2 = 0) (fun s => s.setB F.PREC_SNAPT_VALID ((a - 0x24C0) / 2) false)

/-- A port's read of a word. -/
def State.readWord (s : State) (p : Port) (a : Nat) : State × Word :=
  if !s.served a then (s.refuse p Code.unsupported a, 0)
  else if a = 0x2C04 then let r := s.fifodRead; (r.1, r.2.1)
  else if a = 0x2C0B then s.diagRead
  else if a = 0x2E0D then s.snapRead
  else match s.counterAt a with
    | some (c, false) => s.readLow (portReader p) c
    | some (c, true) => (s, s.snapshot (portReader p) c)
    | none => (s.afterRead a, s.seen p a)

/-- A read of one register as a command of its own: the word is the port's answer. -/
def State.readReg (s : State) (p : Port) (a : Nat) : State :=
  if s.portLive p then let r := s.readWord p a; r.1.answerWord p r.2 else s

/-- LINKED_LOW_READ. -/
def execLinkedLowRead (r : Reader) (c : Counter64) (s : State) : Host.Outcome State Fault Refusal :=
  match r with
  | .twoWire => .next (s.readReg .twoWire (counterLow c))
  | .stream => .next (s.readReg .stream (counterLow c))
  | .service => .next (match s.counterAt (counterLow c) with | some (d, false) => (s.readLow .service d).1 | _ => s)

/-- PREC_SNAP_READ. -/
def execPrecSnapRead (p : Port) (k : Fin 8) (s : State) : Host.Outcome State Fault Refusal := .next (s.readReg p (0x24C0 + 2 * k.val))

/-- The word address of a min or max register. -/
def minMaxAddr : MinMax → Nat
  | .cluster n k => 0x1055 + 0x100 * n.val + k.val
  | .phase p => F.PH_TPK_TPK.addr p
  | .feed f k => 0x2486 + 0x10 * f.val + k.val

/-- MINMAX_READ. -/
def execMinmaxRead (p : Port) (m : MinMax) (s : State) : Host.Outcome State Fault Refusal := .next (s.readReg p (minMaxAddr m))

/-- FIFO_READ: a read of CAP_FIFOD. -/
def execFifoRead (p : Port) (s : State) : Host.Outcome State Fault Refusal := .next (s.readReg p 0x2C04)

/-- DIAG_READ: a read of CAP_DIAGD. -/
def execDiagRead (p : Port) (s : State) : Host.Outcome State Fault Refusal := .next (s.readReg p 0x2C0B)

/-- SNAPSHOT_READ: a read of OWL_SNAPD. -/
def execSnapshotRead (p : Port) (s : State) : Host.Outcome State Fault Refusal := .next (s.readReg p 0x2E0D)

end Sys2Proof.Machine
end

