-- ==== Sys2Proof/Machine/StreamFrames.lean ====
section
/-! DEFINITION. Stream frames (15_host_ports_transactions.md R344 to R346): what every frame has in common, its CRC, its LEN and the
refusal of a frame. -/

namespace Sys2Proof.Machine

def streamCrcSrc : Nat := 0x2CC

/-- Which way a frame carries data (R344). -/
inductive FrameData where
  | none | write | read
  deriving DecidableEq, Repr

/-- The bytes of the host part that its CRC covers. -/
def streamBytes (cmd : Nat) (kind : FrameData) (f : StreamFrame) : List Byte :=
  [BitVec.ofNat 8 cmd] ++ leBytes 2 f.addr.toNat ++ leBytes 2 f.len.toNat ++ (if kind = .write then f.data.flatMap wordBytes else [])

/-- The device part of a frame. -/
def State.answerFrame (s : State) (status : Nat) (aux : Word) (data : List Word) (marks : List Bool) : State :=
  { s with port := { s.port with sStatus := BitVec.ofNat 8 status, sAux := aux, sData := data, sMarks := marks } }

/-- What a refused frame sends: the code and AUX; a read sends its full length of zeros (R345). -/
def State.answerRefused (s : State) (cmd : Nat) (kind : FrameData) (f : StreamFrame) (code : Nat) (aux : Word) : State :=
  let n := if kind = .read then f.len.toNat else 0
  s.answerFrame code aux (List.replicate n 0) (if cmd = 3 then List.replicate n false else [])

/-- A frame refused as a whole (R340). -/
def State.refuseFrame (s : State) (cmd : Nat) (kind : FrameData) (f : StreamFrame) (code : Nat) : State :=
  (s.refuse .stream code (0xF000 + cmd)).answerRefused cmd kind f code 0

/-- A frame's LEN: 1 to 512 where it carries data, otherwise 0. -/
def frameLenOk (kind : FrameData) (f : StreamFrame) : Bool :=
  if kind = .none then f.len == 0 else 1 ≤ f.len.toNat && f.len.toNat ≤ 512

/-- A frame: discarded where CS# ended it early, refused where its CRC or LEN is wrong, or where recovery STANDBY does not serve
the command (R69); otherwise `g`. -/
def State.frame (s : State) (cmd : Nat) (kind : FrameData) (rec : Bool) (f : StreamFrame) (g : State → State) : State :=
  if !s.portLive .stream || f.early || (kind = .write && f.data.length ≠ f.len.toNat) then s
  else if crc16 (streamBytes cmd kind f) ≠ f.crc then
    ((s.incF F.HST_ERRCNT_SCRC 0).raise streamCrcSrc).refuseFrame cmd kind f Code.crc
  else if s.noImg && !rec then s.refuseFrame cmd kind f Code.unsupported
  else if !frameLenOk kind f then s.refuseFrame cmd kind f Code.range
  else g s

end Sys2Proof.Machine
end

