-- ==== Sys2Proof/Machine/Update.lean ====
section
/-! DEFINITION. Field update and the trial of an image (17_recorder_and_update.md R394 to R400). -/

namespace Sys2Proof.Machine

/-! ### The session (R394) -/

/-- The slot that the boot record does not name as active. -/
def State.inactiveSlot (s : State) : Bool := !s.nvm.boot.active

/-- UPD_STAT.SESSION: 0 closed, 1 open, 2 programming, 3 verifying. -/
def State.session (s : State) : Nat := s.f F.UPD_STAT_SESSION

/-- The end of a session, with its result. -/
def State.endSession (s : State) (result : Nat) : State :=
  ({ s with upd := {} }.setF F.UPD_STAT_SESSION 0 0).setF F.UPD_STAT_RESULT 0 result

/-- A session frame: refused with BUSY while the device programs or verifies, and with STATE where no session is open. -/
def State.sessionFrame (s : State) (cmd : Nat) (opens : Bool) (f : StreamFrame) (g : State → State) : State :=
  s.frame cmd .write true f (fun s =>
    if 2 ≤ s.session then s.refuseFrame cmd .write f Code.busy
    else if s.session = 0 && !opens then s.refuseFrame cmd .write f Code.state
    else g s)

/-- UPOPEN: a session opens, and any pending activation is cleared. -/
def execUpopen (f : StreamFrame) (s : State) : Host.Outcome State Fault Refusal :=
  .next (s.sessionFrame 0x10 true f (fun s =>
    if f.addr ≠ 0 || f.len ≠ 1 || f.data.headD 0 ≠ 0xCA10 then s.refuseFrame 0x10 .write f Code.range
    else if !(s.dev == .standby || s.dev == .sequp || s.dev == .run || s.dev == .seqdn) || s.fB F.UPD_STAT_TRIAL then
      s.refuseFrame 0x10 .write f Code.state
    else
      let s := { s with upd := {} }.setBootRec (fun b => { b with pend := none })
      let s := (s.setReg 0x3311 0).setF F.UPD_STAT_SESSION 0 1
      s.answerFrame Code.ok (item s.inactiveSlot.toNat) [] []))

/-- The staged data of a unit. -/
def State.unit (s : State) (k : Nat) : Option (List Word) := (s.upd.units.find? (fun p => p.1 = k)).map (·.2)

/-- UPWRITE: a unit of 2 KB is staged. -/
def execUpwrite (f : StreamFrame) (s : State) : Host.Outcome State Fault Refusal :=
  .next (s.sessionFrame 0x11 false f (fun s =>
    let k := f.addr.toNat
    if 2048 ≤ k || f.len ≠ 512 then s.refuseFrame 0x11 .write f Code.range
    else
      let s := { s with upd := { s.upd with units := s.upd.units.filter (fun (p : Nat × List Word) => p.1 != k) ++ [(k, f.data)] } }
      s.answerFrame Code.ok (item ((s.unit (k - k % 2)).isSome.toNat + (s.unit (k - k % 2 + 1)).isSome.toNat)) [] []))

/-- A block that fails is counted, and raises UPD_BLKFAIL (R395). -/
def State.blockFails (s : State) (result : Nat) : State :=
  (((s.setF F.UPD_STAT_RESULT 0 result).incF F.UPD_BLOCKS_FAILED 0).raise Src.updBlkfail)

/-- UPBLOCK: the CRC of the staged block against the host's; programming follows, and its result is open until it ends. -/
def execUpblock (f : StreamFrame) (s : State) : Host.Outcome State Fault Refusal :=
  .next (s.sessionFrame 0x12 false f (fun s =>
    let k := f.addr.toNat
    if 2048 ≤ k || k % 2 = 1 || f.len ≠ 1 then s.refuseFrame 0x12 .write f Code.range
    else match s.unit k, s.unit (k + 1) with
      | some a, some b =>
        if crcWords (a ++ b) ≠ f.data.headD 0 then (s.blockFails 0x22).answerFrame Code.ok 0x22 [] []
        else
          let r := s.draw
          let s := { r.2 with upd := { r.2.upd with block := some (k / 2) } }.setF F.UPD_STAT_SESSION 0 2
          s.answerFrame Code.ok (r.1.setWidth 8 |>.setWidth 32) [] []
      | _, _ => (s.setF F.UPD_STAT_RESULT 0 0x25).answerFrame Code.ok 0x25 [] []))

/-! ### Programming (R395) -/

/-- Writing bytes to the configuration flash. -/
def State.flashWrite (s : State) (a : Nat) (l : List Byte) : State :=
  { s with flash := (l.zip (List.range l.length)).foldl (fun fl p => Sparse.put (fun _ => 0xFF#8) (a + p.2) p.1 fl) s.flash }

/-- The first flash address of a block of the inactive slot. -/
def State.blockBase (s : State) (b : Nat) : Nat := slotBase s.inactiveSlot + 4096 * b

/-- UPDATE_BLOCK_COMPLETE: 0 the read-back passes; 1 it fails twice; 2 the flash does not respond.  What a sector that failed
holds is free.  From stage L4 the block is lost (R402). -/
def execUpdateBlockComplete (r : Fin 3) (s : State) : Host.Outcome State Fault Refusal :=
  match s.upd.block with
  | none => .next s
  | some b =>
    if s.session ≠ 2 || !s.nvmOpen then .next s
    else
      let words := (s.unit (2 * b)).getD [] ++ (s.unit (2 * b + 1)).getD []
      let a := s.blockBase b
      let s := { s with upd := { s.upd with block := none } }.setF F.UPD_STAT_SESSION 0 1
      if r = 0 then .next (((s.flashWrite a (words.flatMap wordBytes)).incF F.UPD_BLOCKS_DONE 0).setF F.UPD_STAT_RESULT 0 0)
      else
        let q := s.drawWords 1024
        .next ((q.1.flashWrite a (q.2.flatMap wordBytes)).blockFails (if r = 1 then 0x23 else 0x24))

/-! ### Verification (R396) -/

/-- UPCLOSE: 1 begins the verification, whose result is open until it ends; 0 abandons the session. -/
def execUpclose (f : StreamFrame) (s : State) : Host.Outcome State Fault Refusal :=
  .next (s.sessionFrame 0x13 false f (fun s =>
    let v := f.data.headD 0
    if f.addr ≠ 0 || f.len ≠ 1 || 1 < v.toNat then s.refuseFrame 0x13 .write f Code.range
    else if v = 0 then (s.endSession 0).answerFrame Code.ok 0 [] []
    else
      let r := s.draw
      (r.2.setF F.UPD_STAT_SESSION 0 3).answerFrame Code.ok (r.1.setWidth 8 |>.setWidth 32) [] []))

/-- What verification finds: steps 2 to 6 of R65, and SECVER against the running image's. -/
def State.verifyCode (s : State) (noise : List (Nat × Byte)) : Nat :=
  let rd := s.flashRead noise
  let c := (s.slotCode rd s.inactiveSlot).1
  if c ≠ 0 then c
  else if imgSecver rd (slotBase s.inactiveSlot) < s.f F.IMG_INFO_SECVER then 0x0D
  else 0

/-- UPDATE_VERIFY_COMPLETE, with the bytes that read other than as stored. -/
def execUpdateVerifyComplete (noise : List (Nat × Byte)) (s : State) : Host.Outcome State Fault Refusal :=
  if s.session ≠ 3 || !s.nvmOpen then .next s
  else
    let c := s.verifyCode noise
    let k := s.inactiveSlot
    let s := s.endSession c
    if c ≠ 0 then .next (s.raise Src.updVfail)
    else .next ((s.setBootRec (fun b => { b with pend := some k })).updRecord 1 k (s.slotSecver k))

/-- UPDATE_SESSION_TIMEOUT: 60 s without a session frame. -/
def execUpdateSessionTimeout (s : State) : Host.Outcome State Fault Refusal :=
  .next (s.when (s.session == 1) (fun s => s.endSession 0x2A))

/-! ### The trial (R399, R400) -/

/-- The SHA-256 that UPD_KEYENk holds. -/
def State.keyen (s : State) (k : Nat) : List Byte :=
  (List.range 8).flatMap (fun w => wordBytes (s.reg (0x3320 + 8 * (k - 1) + w)))

/-- Key-table entry `k` takes the image's key where it is empty. -/
def State.enrolKey (s : State) (k : Fin 4) : State :=
  let h := s.keyen k
  if k ≠ 0 && (s.nvm.keys.get k).isNone && h.any (· != 0) then
    { s with nvm := { s.nvm with keys := s.nvm.keys.set k (some (BitVec.ofNat 256 (beNat h))) } }
  else s

/-- Entries 1 to 3 named in UPD_KEYREV are revoked, but for the one that signed the running image. -/
def State.revokeKeys (s : State) : State :=
  let m := (List.range 4).filter (fun k => s.nvm.revoked.getLsbD k || (k != 0 && k != s.img.signer && s.fBit F.UPD_KEYREV_REV 0 (k - 1)))
  { s with nvm := { s.nvm with revoked := BitVec.ofNat 4 (maskOf m) } }

/-- UPD_KEYSTAT. -/
def State.showKeys (s : State) : State :=
  (s.setF F.UPD_KEYSTAT_ENROLLED 0 (maskOf ((List.finRange 4).filterMap (fun k => (s.nvm.keys.get k).map (fun _ => k.val))))).setF
    F.UPD_KEYSTAT_REVOKED 0 s.nvm.revoked.toNat

/-- The confirmation of a trial. -/
def State.confirmTrial (s : State) : State :=
  let v := s.f F.IMG_INFO_SECVER
  let s := s.setBootRec (fun b => { b with arb := BitVec.ofNat 8 (Nat.max b.arb.toNat v), trial := false })
  let s := s.setF F.IMG_INFO_ARBCNT 0 s.nvm.boot.arb.toNat
  let s := ((s.each (List.finRange 4) State.enrolKey).revokeKeys).showKeys
  s.updRecord 3 s.nvm.boot.active v

/-- A command of UPD_CTRL is refused, with CMD_REF. -/
def State.updRefuse (s : State) (code : Nat) : State × Nat := (s.setB F.UPD_STAT_CMD_REF 0 true, code)

/-- CONFIRM. -/
def updConfirm (confirm : BitVec 16) (s : State) : State × Nat :=
  if confirm.toNat ≠ confirmKey then s.updRefuse Code.range
  else if !s.fB F.UPD_STAT_TRIAL then s.updRefuse Code.state
  else ((s.accepted 0x3313 1).confirmTrial, Code.ok)

/-- CANCEL. -/
def updCancel (confirm : BitVec 16) (s : State) : State × Nat :=
  if confirm.toNat ≠ confirmKey then s.updRefuse Code.range
  else match s.nvm.boot.pend with
    | none => s.updRefuse Code.state
    | some k =>
      let s := (s.accepted 0x3313 2).setBootRec (fun b => { b with pend := none })
      (s.updRecord 5 k (s.slotSecver k), Code.ok)

/-- TRIAL_TIME_EXPIRY: TRIALT has reached 3,600 s. -/
def execTrialTimeExpiry (s : State) : Host.Outcome State Fault Refusal :=
  .next (s.when (s.fB F.UPD_STAT_TRIAL && 3600 ≤ s.f F.UPD_TRIALT_T) State.confirmTrial)

/-- TRIAL_TIME_SAVE. -/
def execTrialTimeSave (s : State) : Host.Outcome State Fault Refusal :=
  .next (s.when (s.fB F.UPD_STAT_TRIAL && s.nvmOpen) (fun s =>
    { s with nvm := { s.nvm with boot := { s.nvm.boot with trialT := s.f F.UPD_TRIALT_T } } }))

end Sys2Proof.Machine
end

