-- ==== Sys2Proof/Machine/HostWrite.lean ====
section
/-! DEFINITION. A host write of a register (15_host_ports_transactions.md R348 to R354): what may write, the shadows of a transaction,
the checks, and the meaning of the word.  Every command register and every register whose write does more than set its fields is
named here with the operation of its chapter. -/

namespace Sys2Proof.Machine

/-! ### Kinds of register -/

/-- A register that a transaction shadows: one with RW, RWS or RWT fields. -/
def hasStored (a : Nat) : Bool := (regFields a).any (fun r => r.acc.stored)

/-- A register with an RWT field. -/
def hasRwt (a : Nat) : Bool := (regFields a).any (fun r => r.acc = .rwt)

/-! ### Effects of a write beside its fields -/

/-- What follows a changed word at once: the levels that other chapters derive from it. -/
def State.afterWrite (s : State) (a : Nat) : State :=
  let n : Fin 16 := Fin.ofNat 16 ((a - 0x1000) / 0x100)
  if a = 2 then s.evalOnreq
  else if a = 0x200 || a = 0x2B03 || a = 0x2B04 || a = 0x2C01 then s.evalAlert
  else if 0x1000 ≤ a && a < 0x2000 && a % 0x100 = 0x24 then s.evalOlim n
  else if 0x1000 ≤ a && a < 0x2000 && a % 0x100 = 0x50 then
    let s := s.updCl n (fun c => { c with telV := (0, 0), telI := 0, telP := 0 })
    s.each (phases.filter (fun p => s.phCluster p = some n)) (fun s p => s.updPh p (fun u => { u with telAcc := (0, 0) }))
  else if a = 0x2200 then s.evalPwrgd
  else if a = 0x2201 then s.evalStart
  else if a = 0x2460 then s.evalFeedSel
  else if 0x2480 ≤ a && a < 0x24C0 && a % 16 = 0 then
    s.updFd (Fin.ofNat 4 ((a - 0x2480) / 16)) (fun u => { u with tel := (0, 0, 0, 0) })
  else if a = 0x3107 then s.queueWrites 0xD none
  else s

/-- A write that is no more than its fields (R348): the range and cross-field checks that read the register, then the word. -/
def storeChecked (a : Nat) (v : Word) (s : State) : State × Nat :=
  if hasRwt a then (s, Code.rwt)
  else
    let t := s.hostStore a v
    match if hasStored a then t.checkChanged [a] else none with
    | some c => (s, c.1)
    | none => (t.afterWrite a, Code.ok)

/-! ### Registers whose write does more -/

/-- A write of INP_PRIO: PIN moves the board (R203), the other fields are stored. -/
def prioWrite (v : Word) (s : State) : State × Nat :=
  let r := storeChecked 0x2460 (F.INP_PRIO_PIN.insert v (s.f F.INP_PRIO_PIN)) s
  if r.2 ≠ Code.ok then r else feedPinWrite (BitVec.ofNat 2 (F.INP_PRIO_PIN.get v)) r.1

/-- Doing something after a write that was carried out. -/
def thenDo (r : State × Nat) (b : Bool) (g : State → State × Nat) : State × Nat := if r.2 = Code.ok && b then g r.1 else r

/-- A write of BATi_CTRL: REST where it changes, then UVCLR, SNAP and RESTORE. -/
def batCtrlWrite (i : Fin 6) (v : Word) (s : State) : State × Nat :=
  let on := F.BAT_CTRL_REST.get v = 1
  let r := if on = s.fB F.BAT_CTRL_REST i then (s, Code.ok) else batRest i on s
  let r := thenDo r (F.BAT_CTRL_UVCLR.get v = 1) (batUvclr i)
  let r := thenDo r (F.BAT_CTRL_SNAP.get v = 1) (batSnap i)
  thenDo r (F.BAT_CTRL_RESTORE.get v = 1) (batRestore i)

/-- A write of FEEDf_TCFG. -/
def feedTcfgWrite (f : Fin 4) (v : Word) (s : State) : State × Nat :=
  thenDo (storeChecked (0x2480 + 16 * f.val) v s) (F.FEED_TCFG_CLR.get v = 1) (energyClear f)

/-- A write of CLn_LEADSTAT: its flags, and with SUSP the end of the suspension (R144). -/
def leadStatWrite (n : Fin 16) (v : Word) (s : State) : State × Nat :=
  thenDo (storeChecked (0x1013 + 0x100 * n.val) v s) (F.CL_LEADSTAT_SUSP.get v = 1) (leadSuspendClear n)

/-- A write of word `k` of timer `n`. -/
def timerWrite (n : Fin 32) (k : Nat) (v : Word) (s : State) : State × Nat :=
  match k with
  | 0 => timerCtrlWrite n v s
  | 1 => timerCntWrite n v s
  | 2 => timerCompareWrite n .a v s
  | 3 => timerCompareWrite n .b v s
  | 4 => timerActWrite n v s
  | _ => (s, Code.ok)

/-- A write of word `k` of channel `n`. -/
def channelWrite (n : Fin 64) (k : Nat) (v : Word) (s : State) : State × Nat :=
  match k with
  | 0 => chOwned n (chSrcWrite n v) s
  | 1 => chOwned n (chCfgWrite n v) s
  | _ => storeChecked (0x2D00 + 4 * n.val + k) v s

/-- A word of OWL_CLRTOK. -/
def clrtokWrite (k : Fin 4) (v : Word) (s : State) : State × Nat := ({ s with owl := { s.owl with tok := s.owl.tok.set k v } }, Code.ok)

/-! ### Command registers -/

/-- A write of TXN_CTRL. -/
def txnCtrlWrite (p : Port) (v : Word) (s : State) : State × Nat :=
  match F.TXN_CTRL_CMD.get v with
  | 1 => txnBegin p s
  | 2 => txnCommit (BitVec.ofNat 8 (F.TXN_CTRL_TOKEN.get v)) s
  | 3 => txnRollback (BitVec.ofNat 8 (F.TXN_CTRL_TOKEN.get v)) s
  | _ => (s, Code.range)

/-- The low byte of a command word, and its CONFIRM. -/
def cmdOf (v : Word) : Nat := v.toNat % 256
def confirmOf (v : Word) : BitVec 16 := (v >>> 16).setWidth 16

/-- A command word. -/
def cmdWord (cmd : Nat) (confirm : BitVec 16) : Word := BitVec.ofNat 32 (cmd + 65536 * confirm.toNat)

/-- A write of a command register: the command it names, or a refusal with CMD_REF. -/
def commandWrite (p : Port) (a : Nat) (v : Word) (s : State) : Option (State × Nat) :=
  let c := cmdOf v
  let k := confirmOf v
  if a = 0x0004 then some (match c with
    | 1 => devReload k s
    | 2 => devRestart k s
    | 3 => devDormouse k s
    | _ => s.devRefuse Code.range)
  else if a = 0x0010 then some (txnCtrlWrite p v s)
  else if a = 0x0018 then some (if c = 1 then storeCommand k s else (s.setB F.STORE_STAT_CMD_REF 0 true, Code.range))
  else if a = 0x0201 then some (match c with
    | 1 => supvAck k s
    | 2 => supvSafe k s
    | _ => s.supvRefuse Code.range)
  else if a = 0x2203 then
    let s := s.hostStore a v
    some (match c with
    | 1 => seqForce k s
    | 2 => seqSfpulse k s
    | _ => s.seqRefuse Code.range)
  else if a = 0x2463 then some (if c = 1 then inpToggle k s else inpToggle 0 s)
  else if a = 0x2780 then some (if c = 1 then batWake k s else (s, Code.range))
  else if a = 0x2804 then some (if c = 1 then thmTsdclr (Fin.ofNat 16 (F.THM_CTRL_CL.get v)) k s else thmTsdclr 0 0 s)
  else if a = 0x2B00 then some (timerGstart v s)
  else if a = 0x2B01 then some (timerGstop v s)
  else if a = 0x2B02 then some (timerGclr v s)
  else if a = 0x2C03 then some (match c with
    | 1 => capFlush s
    | 2 => capMark s
    | 3 => capRewind s
    | 4 => capRelease s
    | _ => s.capRefuse Code.range)
  else if a = 0x2C05 || a = 0x2C06 then some (capTrigger (a = 0x2C06) v s)
  else if a = 0x2C07 || a = 0x2C08 then some (capRequest (a = 0x2C08) v s)
  else if a = 0x2E04 then some (match c with
    | 1 => owlClear k s
    | 2 => owlSnap k s
    | _ => s.owlRefuse Code.range)
  else if 0x2E08 ≤ a && a < 0x2E0C then some (clrtokWrite (Fin.ofNat 4 (a - 0x2E08)) v s)
  else if a = 0x3003 || a = 0x3013 then some (if c = 1 then fldPwrcycle (Fin.ofNat 2 ((a - 0x3003) / 16)) k s else (s, Code.range))
  else if a = 0x3313 then some (match c with
    | 1 => updConfirm k s
    | 2 => updCancel k s
    | _ => s.updRefuse Code.range)
  else none

/-- A register with stored fields whose write does more than set them. -/
def specialReg (a : Nat) : Bool :=
  (0x1000 ≤ a && a < 0x2000 && a % 0x100 = 0x14) || a = 0x2460 || (0x2480 ≤ a && a < 0x24C0 && a % 16 = 0)
    || (0x2600 ≤ a && a < 0x2780 && a % 0x40 = 7) || (0x2A00 ≤ a && a < 0x2B00) || a = 0x2C00
    || (0x2D00 ≤ a && a < 0x2E00 && a % 4 < 2) || a = 0x2E03 || a = 0x3104

/-- The write of such a register. -/
def specialWrite (a : Nat) (v : Word) (s : State) : State × Nat :=
  if !inRange a v then (s, Code.range)
  else if a < 0x2000 then injWrite (Fin.ofNat 16 ((a - 0x1000) / 0x100)) v s
  else if a = 0x2460 then prioWrite v s
  else if a < 0x2600 then feedTcfgWrite (Fin.ofNat 4 ((a - 0x2480) / 16)) v s
  else if a < 0x2800 then batCtrlWrite (Fin.ofNat 6 ((a - 0x2600) / 0x40)) v s
  else if a < 0x2B00 then timerWrite (Fin.ofNat 32 ((a - 0x2A00) / 8)) (a % 8) v s
  else if a = 0x2C00 then capCfgWrite v s
  else if a < 0x2E00 then channelWrite (Fin.ofNat 64 ((a - 0x2D00) / 4)) (a % 4) v s
  else if a = 0x2E03 then owlIdxWrite v false s
  else lnkOrderWrite v s

/-- The meaning of a word written to a register, outside a transaction. -/
def route (p : Port) (a : Nat) (v : Word) (s : State) : State × Nat :=
  match commandWrite p a v s with
  | some r => r
  | none =>
    if specialReg a then specialWrite a v s
    else if 0x1000 ≤ a && a < 0x2000 && a % 0x100 = 0x13 then leadStatWrite (Fin.ofNat 16 ((a - 0x1000) / 0x100)) v s
    else storeChecked a v s

/-! ### Shadows (R350) -/

/-- A range check that reads one word fails. -/
def State.rangeFails (s : State) (a : Nat) : Bool :=
  s.inUse a && (!inRange a (s.reg a) || s.checks.any (fun c => !c.cross && !c.ok && c.addrs.contains a))

/-- The WO and W1C parts of a write inside a transaction act at once. -/
def actAtOnce (a : Nat) (v : Word) (s : State) : State × Nat :=
  let s := s.setReg a (clearOnes a (s.reg a) v)
  if 0x2A00 ≤ a && a < 0x2B00 && a % 8 = 0 && F.TM_CTRL_RELEASE.get v = 1 then timerRelease (Fin.ofNat 32 ((a - 0x2A00) / 8)) s
  else if 0x2480 ≤ a && a < 0x24C0 && a % 16 = 0 && F.FEED_TCFG_CLR.get v = 1 then energyClear (Fin.ofNat 4 ((a - 0x2480) / 16)) s
  else if 0x2600 ≤ a && a < 0x2780 && a % 0x40 = 7 then
    let i : Fin 6 := Fin.ofNat 6 ((a - 0x2600) / 0x40)
    batCtrlWrite i (F.BAT_CTRL_REST.insert v (s.f F.BAT_CTRL_REST i)) s
  else (s, Code.ok)

/-- A write that goes to a shadow: counted, range-checked at once, and refused from the 257th. -/
def shadowWrite (a : Nat) (v : Word) (s : State) : State × Nat :=
  let k := s.f F.TXN_STATUS_COUNT
  let w := mergeStored a 0 v
  let t := s.layShadows
  if 256 ≤ k then (s.setB F.TXN_STATUS_OVF 0 true, Code.overflow)
  else if (t.setReg a (mergeStored a (t.reg a) v)).rangeFails a then (s, Code.range)
  else
    let others := s.txn.shadows.filter (fun x => x.1 != a)
    actAtOnce a v ({ s with txn := { s.txn with shadows := (a, w) :: others } }.setF F.TXN_STATUS_COUNT 0 (k + 1))

/-! ### The write as a whole -/

/-- What forbids a write of a register by a port, before its value counts: recovery STANDBY (R69), DORMOUSE (R242), or a
transaction of the other port or past its COMMIT (R350); 0 where nothing does. -/
def State.writeBarred (s : State) (p : Port) (a : Nat) (v : Word) : Nat :=
  if !s.served a then Code.unsupported
  else if s.dev == .dormouse && a != 0x2780 && !(a == 0x0201 && cmdOf v == 2) then Code.state
  else if hasStored a && s.txnState != 0 && !(s.txnOwner p && s.txnState == 1) then Code.busy
  else Code.ok

/-- A write of a register: barred, shadowed, or carried out by `g`. -/
def gated (p : Port) (a : Nat) (v : Word) (g : State → State × Nat) (s : State) : State × Nat :=
  let c := s.writeBarred p a v
  if c ≠ Code.ok then (s, c)
  else if hasStored a && s.txnState = 1 then shadowWrite a v s
  else g s

/-- A write of a register through a port, its refusal not yet recorded. -/
def writeWord (p : Port) (a : Nat) (v : Word) : State → State × Nat := gated p a v (route p a v)

/-- A host write as a command of its own: nothing where the port takes no part. -/
def State.hostDo (s : State) (p : Port) (a : Nat) (v : Word) (g : State → State × Nat) : State :=
  if s.portLive p then s.byPort p a (gated p a v g) else s

/-! ### The end of a transaction (R351, R352) -/

/-- The claims that shadows make, in order: the first that is refused, with IMG_RESSTAT as the refusal leaves it. -/
def claimsFail (s : State) : List (Nat × Word) → Option (Nat × Word)
  | [] => none
  | x :: l =>
    if specialReg x.1 then
      let r := specialWrite x.1 x.2 s
      if r.2 = Code.resBusy then some (x.1, r.1.reg 0x3306) else claimsFail r.1 l
    else claimsFail s l

/-- The shadows in order of arrival. -/
def State.shadowList (s : State) : List (Nat × Word) := s.txn.shadows.reverse

/-- A commit that fails: RESULT and TXN_FAIL; the PMBus write of R354 is refused. -/
def State.failTxn (s : State) (result code addr : Nat) : State :=
  let one := s.txn.single
  let s := (s.endTxn result).setF F.TXN_FAIL_ADDR 0 addr
  match one with
  | some k => s.refuse .twoWire code k
  | none => s

/-- TXN_CHECKS_COMPLETE. -/
def execTxnChecksComplete (s : State) : Host.Outcome State Fault Refusal :=
  if s.txnState ≠ 2 then .next s
  else match s.layShadows.checkChanged (s.shadowList.map (·.1)) with
    | some c => .next (s.failTxn (if c.1 = Code.range then 2 else 3) c.1 c.2)
    | none =>
      match claimsFail s s.shadowList with
      | some c => .next ((s.setReg 0x3306 c.2).failTxn 4 Code.resBusy c.1)
      | none => .next { s.setF F.TXN_STATUS_STATE 0 3 with txn := { s.txn with passTick := s.clk.tmr } }

/-- Every shadow is copied into the running registers together; then each takes effect as its chapter says. -/
def State.copyShadows (s : State) : State :=
  let l := s.shadowList
  let plain := l.filter (fun x => !specialReg x.1)
  let s := plain.foldl (fun (t : State) x => t.hostStore x.1 x.2) s
  let s := plain.foldl (fun (t : State) x => t.afterWrite x.1) s
  (l.filter (fun x => specialReg x.1)).foldl (fun (t : State) x => (specialWrite x.1 x.2 t).1) s

/-- COMMIT_TICK: a multiple of 1,000 ticks, in a later TMR cycle than the checks. -/
def execCommitTick (s : State) : Host.Outcome State Fault Refusal :=
  if s.txnState = 3 && s.clk.tmr.toNat % 1000 = 0 && s.clk.tmr != s.txn.passTick then .next ((s.copyShadows).endTxn 1) else .next s

/-! ### The host's writes as commands -/

/-- REGISTER_WRITE. -/
def execRegisterWrite (p : Port) (a : BitVec 16) (v : Word) (s : State) : Host.Outcome State Fault Refusal :=
  .next (s.hostDo p a.toNat v (route p a.toNat v))

/-- BEGIN. -/
def execBegin (p : Port) (s : State) : Host.Outcome State Fault Refusal := .next (s.hostDo p 0x10 1 (txnBegin p))

/-- COMMIT. -/
def execCommit (p : Port) (token : BitVec 8) (s : State) : Host.Outcome State Fault Refusal :=
  .next (s.hostDo p 0x10 2 (txnCommit token))

/-- ROLLBACK. -/
def execRollback (p : Port) (token : BitVec 8) (s : State) : Host.Outcome State Fault Refusal :=
  .next (s.hostDo p 0x10 3 (txnRollback token))

/-- STORE. -/
def execStore (p : Port) (confirm : BitVec 16) (s : State) : Host.Outcome State Fault Refusal :=
  .next (s.hostDo p 0x18 (cmdWord 1 confirm) (storeCommand confirm))

def execReload (p : Port) (confirm : BitVec 16) (s : State) : Host.Outcome State Fault Refusal :=
  .next (s.hostDo p 4 (cmdWord 1 confirm) (devReload confirm))

def execRestart (p : Port) (confirm : BitVec 16) (s : State) : Host.Outcome State Fault Refusal :=
  .next (s.hostDo p 4 (cmdWord 2 confirm) (devRestart confirm))

def execDormouse (p : Port) (confirm : BitVec 16) (s : State) : Host.Outcome State Fault Refusal :=
  .next (s.hostDo p 4 (cmdWord 3 confirm) (devDormouse confirm))

def execAck (p : Port) (confirm : BitVec 16) (s : State) : Host.Outcome State Fault Refusal :=
  .next (s.hostDo p 0x0201 (cmdWord 1 confirm) (supvAck confirm))

def execSafe (p : Port) (confirm : BitVec 16) (s : State) : Host.Outcome State Fault Refusal :=
  .next (s.hostDo p 0x0201 (cmdWord 2 confirm) (supvSafe confirm))

def execForce (p : Port) (confirm : BitVec 16) (s : State) : Host.Outcome State Fault Refusal :=
  .next (s.hostDo p 0x2203 (cmdWord 1 confirm) (seqForce confirm))

def execSfpulse (p : Port) (confirm : BitVec 16) (s : State) : Host.Outcome State Fault Refusal :=
  .next (s.hostDo p 0x2203 (cmdWord 2 confirm) (seqSfpulse confirm))

def execToggle (p : Port) (confirm : BitVec 16) (s : State) : Host.Outcome State Fault Refusal :=
  .next (s.hostDo p 0x2463 (cmdWord 1 confirm) (inpToggle confirm))

def execWake (p : Port) (confirm : BitVec 16) (s : State) : Host.Outcome State Fault Refusal :=
  .next (s.hostDo p 0x2780 (cmdWord 1 confirm) (batWake confirm))

def execTsdclr (p : Port) (n : Fin 16) (confirm : BitVec 16) (s : State) : Host.Outcome State Fault Refusal :=
  .next (s.hostDo p 0x2804 (cmdWord (1 + 256 * n.val) confirm) (thmTsdclr n confirm))

def execOwlSnap (p : Port) (confirm : BitVec 16) (s : State) : Host.Outcome State Fault Refusal :=
  .next (s.hostDo p 0x2E04 (cmdWord 2 confirm) (owlSnap confirm))

def execClear (p : Port) (confirm : BitVec 16) (s : State) : Host.Outcome State Fault Refusal :=
  .next (s.hostDo p 0x2E04 (cmdWord 1 confirm) (owlClear confirm))

def execPwrcycle (p : Port) (b : Fin 2) (confirm : BitVec 16) (s : State) : Host.Outcome State Fault Refusal :=
  .next (s.hostDo p (0x3003 + 16 * b.val) (cmdWord 1 confirm) (fldPwrcycle b confirm))

def execConfirm (p : Port) (confirm : BitVec 16) (s : State) : Host.Outcome State Fault Refusal :=
  .next (s.hostDo p 0x3313 (cmdWord 1 confirm) (updConfirm confirm))

def execCancel (p : Port) (confirm : BitVec 16) (s : State) : Host.Outcome State Fault Refusal :=
  .next (s.hostDo p 0x3313 (cmdWord 2 confirm) (updCancel confirm))

def execFlush (p : Port) (s : State) : Host.Outcome State Fault Refusal := .next (s.hostDo p 0x2C03 1 capFlush)
def execMark (p : Port) (s : State) : Host.Outcome State Fault Refusal := .next (s.hostDo p 0x2C03 2 capMark)
def execRewind (p : Port) (s : State) : Host.Outcome State Fault Refusal := .next (s.hostDo p 0x2C03 3 capRewind)
def execRelease (p : Port) (s : State) : Host.Outcome State Fault Refusal := .next (s.hostDo p 0x2C03 4 capRelease)

def execTmGstart (p : Port) (mask : Word) (s : State) : Host.Outcome State Fault Refusal :=
  .next (s.hostDo p 0x2B00 mask (timerGstart mask))

def execTmGstop (p : Port) (mask : Word) (s : State) : Host.Outcome State Fault Refusal :=
  .next (s.hostDo p 0x2B01 mask (timerGstop mask))

def execTmGclr (p : Port) (mask : Word) (s : State) : Host.Outcome State Fault Refusal :=
  .next (s.hostDo p 0x2B02 mask (timerGclr mask))

/-- CAPTURE_TRIGGER: a write of CAP_TRIG0 or CAP_TRIG1. -/
def execCaptureTrigger (p : Port) (hi : Bool) (mask : Word) (s : State) : Host.Outcome State Fault Refusal :=
  .next (s.hostDo p (0x2C05 + hi.toNat) mask (capTrigger hi mask))

/-- STREAM_REQUEST: a write of CAP_SREQ0 or CAP_SREQ1. -/
def execStreamRequest (p : Port) (hi : Bool) (mask : Word) (s : State) : Host.Outcome State Fault Refusal :=
  .next (s.hostDo p (0x2C07 + hi.toNat) mask (capRequest hi mask))

/-- A write of a register that is named by its own row and not by a command register: the same as REGISTER_WRITE. -/
def State.hostReg (s : State) (p : Port) (a : Nat) (v : Word) : State := s.hostDo p a v (route p a v)

/-- VSET_WRITE: a write of CLn_VSET. -/
def execVsetWrite (p : Port) (n : Fin 16) (v : BitVec 16) (s : State) : Host.Outcome State Fault Refusal :=
  .next (s.hostReg p (0x1001 + 0x100 * n.val) (v.setWidth 32))

/-- LEAD_SUSPEND_CLEAR: a write of 1 to CLn_LEADSTAT.SUSP. -/
def execLeadSuspendClear (p : Port) (n : Fin 16) (s : State) : Host.Outcome State Fault Refusal :=
  .next (s.hostDo p (0x1013 + 0x100 * n.val) 0x10 (leadSuspendClear n))

/-- INJECTION_ENABLE: a write of CLn_INJ. -/
def execInjectionEnable (p : Port) (n : Fin 16) (v : Word) (s : State) : Host.Outcome State Fault Refusal :=
  .next (s.hostDo p (0x1014 + 0x100 * n.val) v (specialWrite (0x1014 + 0x100 * n.val) v))

/-- FEED_PIN_WRITE: a write of INP_PRIO that changes PIN alone. -/
def execFeedPinWrite (p : Port) (pin : BitVec 2) (s : State) : Host.Outcome State Fault Refusal :=
  .next (s.hostDo p 0x2460 (F.INP_PRIO_PIN.insert (s.seen p 0x2460) pin.toNat) (feedPinWrite pin))

/-- ENERGY_CLEAR: a write of 1 to FEEDf_TCFG.CLR. -/
def execEnergyClear (p : Port) (f : Fin 4) (s : State) : Host.Outcome State Fault Refusal :=
  .next (s.hostDo p (0x2480 + 16 * f.val) (F.FEED_TCFG_CLR.insert (s.seen p (0x2480 + 16 * f.val)) 1) (energyClear f))

/-- BATi_CTRL with one of its bits. -/
def State.batWord (s : State) (p : Port) (i : Fin 6) (fl : Fld) : Word := fl.insert (s.seen p (0x2607 + 0x40 * i.val)) 1

def execBatRestWrite (p : Port) (i : Fin 6) (on : Bool) (s : State) : Host.Outcome State Fault Refusal :=
  .next (s.hostDo p (0x2607 + 0x40 * i.val) (item on.toNat) (batRest i on))

def execUvclr (p : Port) (i : Fin 6) (s : State) : Host.Outcome State Fault Refusal :=
  .next (s.hostDo p (0x2607 + 0x40 * i.val) (s.batWord p i F.BAT_CTRL_UVCLR) (batUvclr i))

def execSnap (p : Port) (i : Fin 6) (s : State) : Host.Outcome State Fault Refusal :=
  .next (s.hostDo p (0x2607 + 0x40 * i.val) (s.batWord p i F.BAT_CTRL_SNAP) (batSnap i))

def execRestore (p : Port) (i : Fin 6) (s : State) : Host.Outcome State Fault Refusal :=
  .next (s.hostDo p (0x2607 + 0x40 * i.val) (s.batWord p i F.BAT_CTRL_RESTORE) (batRestore i))

/-- CHANNEL_CONFIG_WRITE: CHn_CFG (`cfg`) or CHn_SRC. -/
def execChannelConfigWrite (p : Port) (n : Fin 64) (cfg : Bool) (v : Word) (s : State) : Host.Outcome State Fault Refusal :=
  .next (s.hostDo p (0x2D00 + cfg.toNat + 4 * n.val) v (chOwned n (if cfg then chCfgWrite n v else chSrcWrite n v)))

/-- STREAM_ENABLE_WRITE: a write of CAP_CFG. -/
def execStreamEnableWrite (p : Port) (v : Word) (s : State) : Host.Outcome State Fault Refusal :=
  .next (s.hostDo p 0x2C00 v (capCfgWrite v))

/-- OWL_IDX_WRITE; `writing`: the record that takes the slot is being written. -/
def execOwlIdxWrite (p : Port) (v : Word) (writing : Bool) (s : State) : Host.Outcome State Fault Refusal :=
  .next (s.hostDo p 0x2E03 v (owlIdxWrite v writing))

def execLnkOrderWrite (p : Port) (v : Word) (s : State) : Host.Outcome State Fault Refusal :=
  .next (s.hostDo p 0x3104 v (lnkOrderWrite v))

def execTimerCtrlWrite (p : Port) (n : Fin 32) (v : Word) (s : State) : Host.Outcome State Fault Refusal :=
  .next (s.hostDo p (0x2A00 + 8 * n.val) v (timerCtrlWrite n v))

/-- TIMER_RELEASE: a write of 1 to TMn_CTRL.RELEASE. -/
def execTimerRelease (p : Port) (n : Fin 32) (s : State) : Host.Outcome State Fault Refusal :=
  .next (s.hostDo p (0x2A00 + 8 * n.val) (F.TM_CTRL_RELEASE.insert (s.seen p (0x2A00 + 8 * n.val)) 1) (timerRelease n))

def execTimerCntWrite (p : Port) (n : Fin 32) (v : Word) (s : State) : Host.Outcome State Fault Refusal :=
  .next (s.hostDo p (0x2A01 + 8 * n.val) v (timerCntWrite n v))

def execTimerCompareWrite (p : Port) (n : Fin 32) (c : Cmp) (v : Word) (s : State) : Host.Outcome State Fault Refusal :=
  .next (s.hostDo p ((cmpFld c).addr n) v (timerCompareWrite n c v))

def execTimerActWrite (p : Port) (n : Fin 32) (v : Word) (s : State) : Host.Outcome State Fault Refusal :=
  .next (s.hostDo p (0x2A04 + 8 * n.val) v (timerActWrite n v))

end Sys2Proof.Machine
end

