-- ==== Sys2Proof/Machine/TwoWire.lean ====
section
/-! DEFINITION. The two-wire port (15_host_ports_transactions.md R329 to R335, R340, R341): sleep, resets, the alert response, and
what every PMBus transaction has in common.  `port.resp` holds the bytes that the device sent in the last transaction, `port.nack`
whether it left a byte of it unacknowledged. -/

namespace Sys2Proof.Machine

def scltoSrc : Nat := 0x2C9
def sdarelSrc : Nat := 0x2CA
def pecSrc : Nat := 0x2CB

/-- The port exists for the bus: not in BOOT, nor from ladder stage L3, nor with the control die taken as dead (R18, R19, R46). -/
def State.portUp (s : State) : Bool := s.dev != .boot && s.f F.DEV_PWRSTAT_LSTAGE < 3 && !s.power.heartbeatLost

/-- The port's address byte of a write (R329). -/
def State.addrByte (s : State) : Byte := BitVec.ofNat 8 (2 * (0x40 + s.f F.DEV_PWRSTAT_STRAP))

/-- What the port did in the transaction: the bytes it sent, and whether it acknowledged every byte of the host. -/
def State.twAnswer (s : State) (ack : Bool) (l : List Byte) : State := { s with port := { s.port with resp := l, nack := !ack } }

/-- Bytes that the spec does not state: free values (log entry 8). -/
def State.freeBytes (s : State) : Nat → List Byte × State
  | 0 => ([], s)
  | k + 1 =>
    let r := s.draw
    let t := r.2.freeBytes k
    (r.1.setWidth 8 :: t.1, t.2)

/-- A read's answer `l` with its PEC; the host clocks as many bytes as it asks for, and what it reads past the PEC is free. -/
def State.twRead (s : State) (code : Nat) (w : Wire) (l : List Byte) : State :=
  let a := s.addrByte
  let l := l ++ [crc8 ([a, BitVec.ofNat 8 code, a + 1] ++ l)]
  let r := s.freeBytes (w.clocks.toNat - l.length)
  r.2.twAnswer true ((l ++ r.1).take w.clocks.toNat)

/-! ### Pages (R335, R336, R342) -/

/-- The pages that a command reaches: any, or those of clusters and feeds. -/
structure PageSet where
  any : Bool := false
  cl : Bool := false
  feed : Bool := false
  deriving DecidableEq, Repr

/-- The pages of clusters in use, CL0 to CL7 at level 1, and of enabled feeds. -/
def State.pagesOf (s : State) (k : PageSet) : List Nat :=
  (if k.cl then (List.range (if s.img.blevel = 1 then 8 else 16)).filter (fun n => s.clInUse n) else [])
    ++ (if k.feed then ((List.range 3).filter (fun f => s.fB F.FEED_CFG_EN f)).map (· + 16) else [])

/-- The pages that a transaction acts on: every one to which a write at PAGE 0xFF applies, otherwise the present page. -/
def State.pagesNow (s : State) (k : PageSet) (read : Bool) : List Nat :=
  let p := s.port.page.toNat
  if p = 0xFF then (if read then [] else s.pagesOf k) else (s.pagesOf k).filter (· == p)

/-! ### A transaction -/

/-- A PMBus command as R336 lists it: its code, whether it reads and writes, how many bytes a write carries (none: a block), its
pages, and whether recovery STANDBY serves it. -/
structure PmCmd where
  code : Nat
  reads : Bool := false
  writes : Bool := false
  size : Option Nat := none
  pages : PageSet := { any := true }
  window : Bool := false
  deriving DecidableEq, Repr

/-- A refusal of a PMBus command, recorded under its code (R340). -/
def State.pmRefuse (s : State) (c : PmCmd) (code : Nat) : State := s.refuse .twoWire code (0xF000 + c.code)

/-- The command is not acknowledged at its command byte (R340). -/
def State.pmUnsupported (s : State) (c : PmCmd) : State := (s.pmRefuse c Code.unsupported).twAnswer false []

/-- The data bytes of a write and its PEC, where its count is right (R334); a block's count byte must agree with the bytes sent. -/
def splitPec (c : PmCmd) (l : List Byte) : Option (List Byte × Option Byte) :=
  let skip := match c.size with | some _ => 0 | none => 1
  let n := match c.size with | some n => n | none => (l.headD 0).toNat + 1
  if l.length = n then some (l.drop skip, none)
  else if l.length = n + 1 then some ((l.take n).drop skip, l.getLast?)
  else none

/-- A write's data, checked (R334): a wrong count is refused with RANGE; a wrong PEC, or none with PECREQ, discards the write. -/
def State.twWrite (s : State) (c : PmCmd) (w : Wire) (g : List Byte → State → State × Nat) : State :=
  match splitPec c w.data with
  | none => (s.pmRefuse c Code.range).twAnswer true []
  | some (d, p) =>
    let good := match p with
      | none => !s.fB F.HST_CFG_PECREQ
      | some b => b == crc8 ([s.addrByte, BitVec.ofNat 8 c.code] ++ w.data.dropLast)
    if good then
      let r := g d s
      (r.1.pmRefuse c r.2).twAnswer true []
    else ((((s.incF F.HST_ERRCNT_PEC 0).raise pecSrc).pmRefuse c Code.pec)).twAnswer p.isNone []

/-- The port is asleep: it does not acknowledge the address byte, and wakes (R332). -/
def State.twWake (s : State) : State := (s.setB F.HST_STAT_AWAKE 0 true).twAnswer false []

/-- A transaction that carries a PMBus command: `rd` answers a read, `wr` carries out a write of its data bytes. -/
def State.wire (s : State) (c : PmCmd) (w : Wire) (rd : State → State) (wr : List Byte → State → State × Nat) : State :=
  if !s.portUp then s.twAnswer false []
  else if !s.fB F.HST_STAT_AWAKE then s.twWake
  else if s.noImg && !c.window then s.pmUnsupported c
  else if !c.pages.any && (s.pagesNow c.pages w.read).isEmpty then s.pmUnsupported c
  else if w.read then
    if c.reads && w.data.isEmpty then rd s
    else (s.pmRefuse c Code.unsupported).twAnswer true (List.replicate w.clocks.toNat 0xFF)
  else if !c.writes then (s.pmRefuse c Code.unsupported).twAnswer true []
  else s.twWrite c w (fun d s => if s.dev == .dormouse && !c.window && c.code != 0 then (s, Code.state) else wr d s)

/-- A command that only reads a value of `n` bytes. -/
def State.wireRead (s : State) (c : PmCmd) (w : Wire) (n : Nat) (v : State → Nat) : State :=
  s.wire { c with reads := true } w (fun s => s.twRead c.code w (leBytes n (v s))) (fun _ s => (s, Code.ok))

/-- A command that only reads a block: its count, then its bytes. -/
def State.wireBlock (s : State) (c : PmCmd) (w : Wire) (l : State → List Byte) : State :=
  s.wire { c with reads := true } w (fun s => let b := l s; s.twRead c.code w (BitVec.ofNat 8 b.length :: b)) (fun _ s => (s, Code.ok))

/-! ### Sleep and resets (R332, R333) -/

/-- TWO_WIRE_WAKE. -/
def execTwoWireWake (s : State) : Host.Outcome State Fault Refusal :=
  .next (if s.portUp && !s.fB F.HST_STAT_AWAKE then s.twWake else s)

/-- TWO_WIRE_SLEEP: 100 ms without an addressed transaction, in STANDBY or DORMOUSE. -/
def execTwoWireSleep (s : State) : Host.Outcome State Fault Refusal :=
  .next (if s.dev == .standby || s.dev == .dormouse then s.setB F.HST_STAT_AWAKE 0 false else s)

/-- A port reset: the transaction in progress is discarded, and the source raised, which latches STATUS_CML bit 1. -/
def State.portReset (s : State) (cnt : Fld) (src : Nat) : State :=
  if !s.portUp then s
  else
    let s := ((s.incF cnt 0).setF F.HST_STAT_CML 0 (s.f F.HST_STAT_CML ||| 0x02)).raise src
    { s with port := { s.port with resp := [] } }

/-- SCL_TIMEOUT. -/
def execSclTimeout (s : State) : Host.Outcome State Fault Refusal := .next (s.portReset F.HST_ERRCNT_SCLTO scltoSrc)

/-- SDA_RELEASE. -/
def execSdaRelease (s : State) : Host.Outcome State Fault Refusal := .next (s.portReset F.HST_ERRCNT_SDAREL sdarelSrc)

/-! ### The alert response (R341) -/

/-- ALERT_RESPONSE: `won`: the device won the arbitration; `clocks`: the bytes that the host clocks. -/
def execAlertResponse (won : Bool) (clocks : BitVec 8) (s : State) : Host.Outcome State Fault Refusal :=
  if !s.portUp then .next (s.twAnswer false [])
  else if !s.fB F.HST_STAT_AWAKE then .next s.twWake
  else if !s.fB F.HST_ALERT_PEND then .next (s.twAnswer false [])
  else if won then
    let b := s.addrByte + 1
    let l := [b, crc8 [0x19, b]]
    let s := (s.setB F.HST_ALERT_PEND 0 false).setB F.HST_STAT_ALERTL 0 false
    let r := s.freeBytes (clocks.toNat - 2)
    .next (r.2.twAnswer true ((l ++ r.1).take clocks.toNat))
  else .next (s.twAnswer true [])

end Sys2Proof.Machine
end

