-- ==== Sys2Proof/WellFormed.lean ====
section
/-! DEFINITION. What the operands of a command satisfy beyond their types: facts of the wire or of the outside that one command
cannot contradict. -/

namespace Sys2Proof

/-- No value twice. -/
def distinct {α : Type} [DecidableEq α] : List α → Bool
  | [] => true
  | x :: l => !l.contains x && distinct l

/-- A write clocks no bytes for the device to send. -/
def Wire.wf (w : Wire) : Bool := w.read || w.clocks == 0

/-- A write frame carries LEN words of data (R344). -/
def StreamFrame.wfWrite (f : StreamFrame) : Bool := f.data.length == f.len.toNat

/-- A frame of another command carries no data from the host (R344). -/
def StreamFrame.wfBare (f : StreamFrame) : Bool := f.data == []

/-- The bits that a disturbance turns over are bits of a vote frame (R263). -/
def ChanInput.wf (c : ChanInput) : Bool := c.flips.all (fun x => decide (x.2 < 69))

/-- The codes that R336 and R342 give to the two-wire port, and R345 to the stream port. -/
def knownCode (p : Port) (k : Nat) : Bool :=
  match p with
  | .twoWire => [0x00, 0x01, 0x03, 0x15, 0x19, 0x20, 0x21, 0x27, 0x40, 0x44, 0x46, 0x78, 0x79, 0x7A, 0x7B, 0x7C, 0x7D, 0x7E, 0x88,
      0x89, 0x8B, 0x8C, 0x8D, 0x96, 0x97, 0x98, 0x99, 0x9A, 0x9B, 0x9E, 0xD0, 0xD1].contains k
  | .stream => (1 ≤ k && k ≤ 5) || (0x10 ≤ k && k ≤ 0x13)

/-- A command's operands fit together. -/
def Instr.wellFormed : Instr → Bool
  | .powerUp => true
  | .vddioModeLatch _ => true
  | .resetAssert => true
  | .resetRelease => true
  | .bootComplete i => distinct (i.noise.map (·.1))
  | .overlayMigrationWrite => true
  | .reload _ _ => true
  | .restart _ _ => true
  | .dormouse _ _ => true
  | .enChange _ _ => true
  | .dieTempReading _ _ => true
  | .dieHotResume => true
  | .heartbeatLoss => true
  | .safeFeedGateOff => true
  | .eccError _ => true
  | .supplyMeasure _ _ => true
  | .ownSupplyLadderStage _ => true
  | .forcedL5 => true
  | .extest => true
  | .idcode => true
  | .samplePreload cells => decide (cells.length ≤ 115)
  | .clamp => true
  | .highz => true
  | .debug _ => true
  | .bypass _ => true
  | .syncEdge _ _ _ _ => true
  | .syncMissingPeriod => true
  | .syncAligned => true
  | .xinLoss => true
  | .clockMonitorWindow _ => true
  | .timerMatch _ _ => true
  | .timerCtrlWrite _ _ _ => true
  | .timerRelease _ _ => true
  | .timerCntWrite _ _ _ => true
  | .timerCompareWrite _ _ _ _ => true
  | .timerActWrite _ _ _ => true
  | .tmGstart _ _ => true
  | .tmGstop _ _ => true
  | .tmGclr _ _ => true
  | .linkedLowRead _ _ => true
  | .frameStart _ => true
  | .onEdge _ _ => true
  | .blankingEnd _ _ => true
  | .peakTrip _ => true
  | .maxonEnd _ => true
  | .phaseSample _ _ => true
  | .averageCeilingExceeded _ => true
  | .foxTrip _ _ => true
  | .foxHoldEnd _ => true
  | .delayLineCalibration _ => true
  | .prestartCheckFail _ _ _ _ _ => true
  | .prestartCheckPass _ _ => true
  | .softStartBegin _ _ => true
  | .loopUpdate _ _ _ => true
  | .vsetWrite _ _ _ => true
  | .leadWarningPulse _ _ => true
  | .leadSuspendClear _ _ => true
  | .injectionEnable _ _ _ => true
  | .balanceStep _ => true
  | .overloadCompare _ => true
  | .overloadTimeout _ => true
  | .phaseMonitorFrame _ _ _ _ => true
  | .loopEngineFailure _ _ _ _ _ => true
  | .precisionWindow _ _ => true
  | .precisionSlotResult _ _ _ _ _ => true
  | .precSnapRead _ _ => true
  | .trimTargetUpdate => true
  | .zeroLearnWindow _ _ _ => true
  | .ratioStepStart _ _ _ => true
  | .ratioStepComplete _ _ _ _ _ _ => true
  | .energyBalancePoint _ _ _ _ _ => true
  | .calibrationSave => true
  | .telemetryBlock _ => true
  | .minmaxRead _ _ => true
  | .energyClear _ _ => true
  | .autoZeroStart _ => true
  | .autoZeroComplete _ => true
  | .seatQualified => true
  | .seatLoss _ _ => true
  | .unseatTimeout => true
  | .inrushComplete _ => true
  | .vbusQualified => true
  | .inrushTimeout _ _ _ => true
  | .feedQualified _ => true
  | .returnDelayExpiry _ => true
  | .feedUv _ => true
  | .feedOv _ => true
  | .feedRev _ => true
  | .transferGateOff => true
  | .transferDeadTimeEnd => true
  | .transferComplete _ => true
  | .feedGate => true
  | .gateConfirmTimeout _ _ => true
  | .faultTimerTrip _ _ _ => true
  | .feedFox _ _ _ => true
  | .toggle _ _ => true
  | .retryTimerExpiry => true
  | .retryTimerSave => true
  | .feedPinWrite _ _ => true
  | .busLadderEntry _ => true
  | .busLadderRelease => true
  | .feedLeak => true
  | .estimatorStep _ _ _ _ _ => true
  | .bthReading _ _ => true
  | .impedanceStep _ _ _ _ _ => true
  | .batRestWrite _ _ _ => true
  | .restComplete _ _ => true
  | .contactorSettled => true
  | .packUvCut _ => true
  | .uvclr _ _ => true
  | .snap _ _ => true
  | .restore _ _ => true
  | .wake _ _ => true
  | .dormouseBusWake => true
  | .dmholdClear => true
  | .seqStepComplete _ _ _ _ => true
  | .seqStepTimeout _ => true
  | .force _ _ => true
  | .sfpulse _ _ => true
  | .clUv _ => true
  | .clOv _ => true
  | .clFov _ => true
  | .windowBlankEnd _ => true
  | .pwrgdReturn => true
  | .minOffTimeExpiry => true
  | .softStartShort _ _ => true
  | .hiccupRestart _ => true
  | .sysfltIn => true
  | .sysfltHoldEnd _ => true
  | .sysfltStuck => true
  | .supervisorEvaluation a b c => a.wf && b.wf && c.wf
  | .voteWindowClose => true
  | .voterWatchdog => true
  | .wireFault _ _ => true
  | .ack _ _ => true
  | .safe _ _ => true
  | .tsenReading _ _ => true
  | .tsenFaultLevel _ => true
  | .thermalModelStep obs _ => distinct (obs.map (·.1)) && obs.all (fun o => decide (0 ≤ o.2.2.1) && decide (o.2.2.1 ≤ 1))
  | .thermalAnchor => true
  | .tsdclr _ _ _ => true
  | .tsdAutoClear _ => true
  | .woodpeckerPauseStart _ => true
  | .woodpeckerPauseEnd _ => true
  | .powerEstimate => true
  | .cappingControlStep _ => true
  | .captureSample _ _ => true
  | .captureTrigger _ _ _ => true
  | .streamRequest _ _ _ => true
  | .laneTakeBlock _ => true
  | .tailTimeout _ => true
  | .recordComplete _ => true
  | .packetWordWrite => true
  | .fifoRead _ => true
  | .flush _ => true
  | .mark _ => true
  | .rewind _ => true
  | .release _ => true
  | .channelConfigWrite _ _ _ _ => true
  | .streamEnableWrite _ _ => true
  | .diagRead _ => true
  | .twoWireWake => true
  | .twoWireSleep => true
  | .sclTimeout => true
  | .sdaRelease => true
  | .page w => w.wf
  | .operation w => w.wf
  | .clearFaults w => w.wf
  | .storeUserAll w => w.wf
  | .capability w => w.wf
  | .voutMode w => w.wf
  | .voutCommand w => w.wf
  | .voutTransitionRate w => w.wf
  | .voutOvFaultLimit w => w.wf
  | .voutUvFaultLimit w => w.wf
  | .ioutOcFaultLimit w => w.wf
  | .statusByte w => w.wf
  | .statusWord w => w.wf
  | .statusVout w => w.wf
  | .statusIout w => w.wf
  | .statusInput w => w.wf
  | .statusTemperature w => w.wf
  | .statusCml w => w.wf
  | .readVin w => w.wf
  | .readIin w => w.wf
  | .readVout w => w.wf
  | .readIout w => w.wf
  | .readTemperature1 w => w.wf
  | .readPout w => w.wf
  | .readPin w => w.wf
  | .pmbusRevision w => w.wf
  | .mfrId w => w.wf
  | .mfrModel w => w.wf
  | .mfrRevision w => w.wf
  | .mfrSerial w => w.wf
  | .mfrWinAddr w => w.wf
  | .mfrWinData w => w.wf
  | .mfrFifoData w => w.wf
  | .mfrFifoCtrl w => w.wf
  | .mfrFifoStat w => w.wf
  | .unsupportedCommand p code => !knownCode p code.toNat
  | .alertResponse _ _ => true
  | .rdreg f => f.wfBare
  | .wrreg f => f.wfWrite
  | .rdfifo f => f.wfBare
  | .fifoctl f => f.wfBare
  | .streamStore f => f.wfBare
  | .registerWrite _ _ _ => true
  | .begin _ => true
  | .commit _ _ => true
  | .rollback _ _ => true
  | .txnChecksComplete => true
  | .commitTick => true
  | .txnTimeout => true
  | .store _ _ => true
  | .storeComplete _ => true
  | .fieldBusPoll _ => true
  | .fieldBusTransactionDone _ _ data => decide (data.length ≤ 32)
  | .fieldBusStale _ _ => true
  | .fieldBusArbLost _ => true
  | .fieldBusRetry _ => true
  | .fieldBusHang _ _ => true
  | .fieldBusPowerRestore _ => true
  | .fieldBusResume _ => true
  | .pwrcycle _ _ _ => true
  | .ringLinkUp => true
  | .ringLinkDown _ => true
  | .ringClaim => true
  | .claim _ => true
  | .enum _ => true
  | .beaconSend => true
  | .beacon _ _ _ => true
  | .budget _ => true
  | .capord _ => true
  | .onoff _ => true
  | .busstate _ => true
  | .time _ => true
  | .share _ => true
  | .report _ => true
  | .ringBreak _ => true
  | .breakSend => true
  | .masterPeriodicSend _ => true
  | .masterLost => true
  | .ringOpenTimeout => true
  | .ringReenumerate => true
  | .rackBudgetCompute _ => true
  | .rectifierOffline _ => true
  | .lnkOrderWrite _ _ => true
  | .timeSlotWrite => true
  | .recordNvmWrite _ _ => true
  | .overflowRecordRewrite => true
  | .owlIdxWrite _ _ _ => true
  | .owlSnap _ _ => true
  | .snapshotFreeze => true
  | .snapshotCopyComplete => true
  | .snapshotRead _ => true
  | .clear _ _ => true
  | .clearComplete => true
  | .upopen f => f.wfWrite
  | .upwrite f => f.wfWrite
  | .upblock f => f.wfWrite
  | .updateBlockComplete _ => true
  | .upclose f => f.wfWrite
  | .updateVerifyComplete noise => distinct (noise.map (·.1))
  | .updateSessionTimeout => true
  | .confirm _ _ => true
  | .cancel _ _ => true
  | .trialTimeExpiry => true
  | .trialTimeSave => true
  | .ladderRecovery => true
  | .sysfltLineRelease => true
  | .feedLeakClear => true
  | .feedQualificationLoss _ => true
  | .currentLimitEntry _ => true
  | .faultTimerClear _ => true
  | .ringFrameDiscard _ _ => true

end Sys2Proof
end

