-- ==== Sys2Proof/Machine/PMBus.lean ====
section
/-! DEFINITION. The PMBus commands (15_host_ports_transactions.md R335 to R342). -/

namespace Sys2Proof.Machine

/-- A write's data as a number, least significant byte first. -/
def leData : List Byte → Nat
  | [] => 0
  | b :: l => b.toNat + 256 * leData l

def onClusters : PageSet := { cl := true }
def onFeeds : PageSet := { feed := true }
def onBoth : PageSet := { cl := true, feed := true }

/-- The present page as a cluster. -/
def State.pageCl (s : State) : Fin 16 := Fin.ofNat 16 s.port.page.toNat

/-- The present page is a feed's. -/
def State.onFeedPage (s : State) : Bool := 16 ≤ s.port.page.toNat

/-- The present page as a feed. -/
def State.pageFeed (s : State) : Nat := s.port.page.toNat - 16

/-! ### PAGE, OPERATION, CLEAR_FAULTS, STORE_USER_ALL -/

/-- PAGE (R335). -/
def execPage (w : Wire) (s : State) : Host.Outcome State Fault Refusal :=
  .next (s.wire { code := 0x00, reads := true, writes := true, size := some 1 } w
    (fun s => s.twRead 0x00 w [s.port.page])
    (fun d s =>
      let v := leData d
      if v = 0xFF || (s.pagesOf onBoth).contains v then
        ({ s with port := { s.port with page := BitVec.ofNat 8 v } }, Code.ok)
      else (s, Code.range)))

/-- OPERATION off on a cluster page (R257). -/
def operationOff (n : Fin 16) (s : State) : State × Nat :=
  if s.dev != .run then (s, Code.state)
  else if s.hvAbove n then (s, Code.xfield)
  else if s.fB F.CL_SEQC_OPOFF n then (s, Code.ok)
  else ((s.setB F.CL_SEQC_OPOFF n true).clusterSeqoff n false, Code.ok)

/-- OPERATION on on a cluster page (R257): the off is taken back, and a cluster that is off, or that is stopping softly,
starts again through its pre-start check. -/
def operationOn (n : Fin 16) (s : State) : State × Nat :=
  let r := (s.cl.get n).run
  if s.dev != .run then (s, Code.state)
  else if r != .off && r != .softStop && !s.fB F.CL_SEQC_OPOFF n then (s, Code.ok)
  else if s.clBarred n || !s.srcGood n then (s, Code.state)
  else
    let s := { s with seq := { s.seq with subset := s.seq.subset &&& ~~~(BitVec.ofNat 16 (2 ^ n.val)) } }
    let s := (s.when (r == .softStop) (fun s => s.clOff n)).setB F.CL_SEQC_OPOFF n false
    ((s.when (r == .off || r == .softStop) (fun s => s.clStart n)), Code.ok)

/-- OPERATION (R336): the package's on PAGE 0xFF (R33), otherwise one cluster's. -/
def execOperation (w : Wire) (s : State) : Host.Outcome State Fault Refusal :=
  let pkg := s.port.page = 0xFF && !w.read
  .next (s.wire
    { code := 0x01, reads := true, writes := true, size := some 1, pages := if pkg then { any := true } else onClusters } w
    (fun s => s.twRead 0x01 w [if s.fB F.CL_SEQC_OPOFF s.pageCl then 0x00 else 0x80])
    (fun d s =>
      let v := leData d
      if v ≠ 0x80 && v ≠ 0x40 && v ≠ 0x00 then (s, Code.range)
      else if pkg then ({ s with oper := v = 0x80 }.evalOnreq, Code.ok)
      else if v = 0x80 then operationOn s.pageCl s else operationOff s.pageCl s))

/-- The status bits of a page cleared (R338). -/
def State.clearStatus (s : State) (p : Nat) : State := s.setReg (F.HST_PSTAT_VOUT.addr p) 0

/-- CLEAR_FAULTS. -/
def execClearFaults (w : Wire) (s : State) : Host.Outcome State Fault Refusal :=
  .next (s.wire { code := 0x03, writes := true, size := some 0 } w id
    (fun _ s =>
      let s := s.each (if s.port.page = 0xFF then List.range 19 else [s.port.page.toNat]) State.clearStatus
      ({ s with port := { s.port with busyLatch := false } }.setF F.HST_STAT_CML 0 0, Code.ok)))

/-- STORE_USER_ALL (R355). -/
def execStoreUserAll (w : Wire) (s : State) : Host.Outcome State Fault Refusal :=
  .next (s.wire { code := 0x15, writes := true, size := some 0 } w id (fun _ s => storeBegin s))

/-! ### Formats -/

/-- CAPABILITY. -/
def execCapability (w : Wire) (s : State) : Host.Outcome State Fault Refusal :=
  .next (s.wireRead { code := 0x19 } w 1 (fun _ => 0xD0))

/-- The LINEAR16 exponent of a cluster (R192). -/
def State.voutExp (s : State) (n : Fin 16) : Int := match s.f F.CL_CFG_SGAIN n with | 0 => -15 | 1 => -13 | _ => -11

/-- VOUT_MODE. -/
def execVoutMode (w : Wire) (s : State) : Host.Outcome State Fault Refusal :=
  .next (s.wireRead { code := 0x20, pages := onClusters } w 1 (fun s => ofSigned 5 (s.voutExp s.pageCl)))

/-- PMBUS_REVISION. -/
def execPmbusRevision (w : Wire) (s : State) : Host.Outcome State Fault Refusal :=
  .next (s.wireRead { code := 0x98 } w 1 (fun s => if s.img.blevel = 1 then 0x33 else 0x44))

/-- MFR_ID: "CALJO". -/
def execMfrId (w : Wire) (s : State) : Host.Outcome State Fault Refusal :=
  .next (s.wireBlock { code := 0x99 } w (fun _ => [0x43, 0x41, 0x4C, 0x4A, 0x4F]))

/-- MFR_MODEL: "NZ7648", or "NZ5624" at level 1. -/
def execMfrModel (w : Wire) (s : State) : Host.Outcome State Fault Refusal :=
  .next (s.wireBlock { code := 0x9A } w (fun s =>
    if s.img.blevel = 1 then [0x4E, 0x5A, 0x35, 0x36, 0x32, 0x34] else [0x4E, 0x5A, 0x37, 0x36, 0x34, 0x38]))

/-- MFR_REVISION: the letter of DEV_ID[15:0]. -/
def execMfrRevision (w : Wire) (s : State) : Host.Outcome State Fault Refusal :=
  .next (s.wireBlock { code := 0x9B } w (fun s => [BitVec.ofNat 8 (0x40 + s.f F.DEV_ID_ID % 65536)]))

/-- MFR_SERIAL. -/
def execMfrSerial (w : Wire) (s : State) : Host.Outcome State Fault Refusal :=
  .next (s.wireBlock { code := 0x9E } w (fun s => leBytes 8 s.nvm.serial.toNat))

/-! ### Limits and set-points (R337, R354) -/

/-- A number that a PMBus command writes: the field of a page that it reaches, the conversion of a written word, and of a read. -/
structure PmNum where
  fld : Nat → Fld × Nat
  toCode : State → Nat → Nat → Int
  ofCode : State → Nat → Nat → Nat

/-- The writes of several pages, all or none (R336): the code of the first that is refused, with OVF where it overflowed. -/
def allWrites (l : List (Nat × Word)) (g : Nat → Word → State → State × Nat) (s : State) : State × Nat :=
  let r := l.foldl (fun (r : State × Nat) x => if r.2 = Code.ok then g x.1 x.2 r.1 else r) (s, Code.ok)
  if r.2 = Code.ok then r else (s.when (r.2 = Code.overflow) (fun s => s.setB F.TXN_STATUS_OVF 0 true), r.2)

/-- A write of RWT fields with no transaction open is a transaction of its own, committed at once (R354). -/
def oneWrite (c : PmCmd) (l : List (Nat × Word)) (s : State) : State × Nat :=
  let r := allWrites l shadowWrite (s.openTxn .twoWire)
  if r.2 = Code.ok then
    ({ r.1 with txn := { r.1.txn with single := some (0xF000 + c.code) } }.commitTxn, Code.ok)
  else (s, r.2)

/-- A written word, on every page that it reaches. -/
def numWrite (c : PmCmd) (m : PmNum) (d : List Byte) (s : State) : State × Nat :=
  let items := (s.pagesNow c.pages false).map (fun p => (m.fld p, m.toCode s p (leData d)))
  if items.any (fun x => decide (x.2 < 0) || decide ((2 : Int) ^ x.1.1.w ≤ x.2)) then (s, Code.range)
  else
    let words := items.map (fun x =>
      let a := x.1.1.addr x.1.2
      (a, x.1.1.insert (s.seen .twoWire a) x.2.toNat))
    if s.txnState = 0 && words.any (fun x => hasRwt x.1) then oneWrite c words s
    else allWrites words (writeWord .twoWire) s

/-- A command that reads or writes such a number. -/
def State.wireNum (s : State) (code : Nat) (k : PageSet) (w : Wire) (m : PmNum) : State :=
  let c : PmCmd := { code := code, reads := true, writes := true, size := some 2, pages := k }
  s.wire c w
    (fun s =>
      let p := s.port.page.toNat
      let f := m.fld p
      s.twRead code w (leBytes 2 (m.ofCode s p (f.1.get (s.seen .twoWire (f.1.addr f.2))))))
    (numWrite c m)

/-- A voltage in V as a LINEAR16 word of a cluster, and back. -/
def State.lin16 (s : State) (p : Nat) (v : Rat) : Nat := linear16 (s.voutExp (Fin.ofNat 16 p)) v
def State.ofLin16 (s : State) (p w : Nat) : Rat := (w : Rat) * pow2 (s.voutExp (Fin.ofNat 16 p))

/-- The gain divisor 1/g of a page's cluster. -/
def State.gPage (s : State) (p : Nat) : Rat := (s.gDiv (Fin.ofNat 16 p) : Nat)

/-- A cluster voltage in codes of `u` µV at the sense input. -/
def voltNum (fl : Fld) (u : Rat) : PmNum where
  fld := fun p => (fl, p)
  toCode := fun s p w => roundAway (s.ofLin16 p w * 1000000 / s.gPage p / u)
  ofCode := fun s p v => s.lin16 p ((v : Rat) * u * s.gPage p / 1000000)

/-- VOUT_COMMAND. -/
def execVoutCommand (w : Wire) (s : State) : Host.Outcome State Fault Refusal :=
  .next (s.wireNum 0x21 onClusters w (voltNum F.CL_VSET_S 25))

/-- VOUT_TRANSITION_RATE: mV/µs against codes an update of UPER ticks of 2.5 ns. -/
def execVoutTransitionRate (w : Wire) (s : State) : Host.Outcome State Fault Refusal :=
  .next (s.wireNum 0x27 onClusters w {
    fld := fun p => (F.CL_VSLEW_SLEW, p)
    toCode := fun s p v => roundAway (ofLinear11 v * (s.f F.CL_CFG_UPER p : Rat) * 2 / 5 / s.gPage p)
    ofCode := fun s p v => linear11 ((v : Rat) * 5 * s.gPage p / 2 / (s.f F.CL_CFG_UPER p : Rat)) })

/-- VOUT_OV_FAULT_LIMIT. -/
def execVoutOvFaultLimit (w : Wire) (s : State) : Host.Outcome State Fault Refusal :=
  .next (s.wireNum 0x40 onClusters w (voltNum F.CL_WIN_OV 1600))

/-- VOUT_UV_FAULT_LIMIT. -/
def execVoutUvFaultLimit (w : Wire) (s : State) : Host.Outcome State Fault Refusal :=
  .next (s.wireNum 0x44 onClusters w (voltNum F.CL_WIN_UV 1600))

/-- IOUT_OC_FAULT_LIMIT. -/
def execIoutOcFaultLimit (w : Wire) (s : State) : Host.Outcome State Fault Refusal :=
  .next (s.wireNum 0x46 onBoth w {
    fld := fun p => if p < 16 then (F.CL_OL_OLIM, p) else (F.FEED_CFG_ILIM, p - 16)
    toCode := fun _ _ v => roundAway (ofLinear11 v * 10)
    ofCode := fun _ _ v => linear11 ((v : Rat) / 10) })

/-! ### Status (R338) -/

/-- STATUS_WORD of a page; its low byte is STATUS_BYTE. -/
def State.statusWord (s : State) (p : Nat) : Nat :=
  let w := (s.reg (F.HST_PSTAT_VOUT.addr p)).toNat
  let vout := w % 256
  let iout := w / 256 % 256
  let inp := w / 65536 % 256
  let temp := w / 16777216
  let cml := s.f F.HST_STAT_CML
  let run := (s.cl.get (Fin.ofNat 16 p)).run
  let off := if p < 16 then run == .off || run == .checking || run == .delay else !s.fB F.FEED_STAT_CONDUCT (p - 16)
  let bad := if p < 16 then off || !s.fB F.CL_WSTAT_INWIN p else off
  let none := vout % 128 != 0 || iout % 128 != 0 || setBitN inp 4 false != 0 || (bad && !off)
  none.toNat + 2 * (cml != 0).toNat + 4 * (temp != 0).toNat + 8 * (inp.testBit 4).toNat + 16 * (iout.testBit 7).toNat
    + 32 * (vout.testBit 7).toNat + 64 * off.toNat + 128 * s.port.busyLatch.toNat
    + 0x800 * bad.toNat + 0x2000 * (inp != 0).toNat + 0x4000 * (iout != 0).toNat + 0x8000 * (vout != 0).toNat

/-- STATUS_BYTE. -/
def execStatusByte (w : Wire) (s : State) : Host.Outcome State Fault Refusal :=
  .next (s.wireRead { code := 0x78, pages := onBoth } w 1 (fun s => s.statusWord s.port.page.toNat))

/-- STATUS_WORD. -/
def execStatusWord (w : Wire) (s : State) : Host.Outcome State Fault Refusal :=
  .next (s.wireRead { code := 0x79, pages := onBoth } w 2 (fun s => s.statusWord s.port.page.toNat))

/-- One status byte of HST_PSTATp: a written 1 clears its bit. -/
def State.wireStatus (s : State) (code : Nat) (k : PageSet) (w : Wire) (fl : Fld) : State :=
  let c : PmCmd := { code := code, reads := true, writes := true, size := some 1, pages := k }
  s.wire c w (fun s => s.twRead code w [BitVec.ofNat 8 (s.f fl s.port.page.toNat)])
    (fun d s => (s.each (s.pagesNow k false) (fun s p => s.setF fl p (s.f fl p &&& (255 - leData d))), Code.ok))

/-- STATUS_VOUT. -/
def execStatusVout (w : Wire) (s : State) : Host.Outcome State Fault Refusal :=
  .next (s.wireStatus 0x7A onClusters w F.HST_PSTAT_VOUT)

/-- STATUS_IOUT. -/
def execStatusIout (w : Wire) (s : State) : Host.Outcome State Fault Refusal :=
  .next (s.wireStatus 0x7B onClusters w F.HST_PSTAT_IOUT)

/-- STATUS_INPUT. -/
def execStatusInput (w : Wire) (s : State) : Host.Outcome State Fault Refusal :=
  .next (s.wireStatus 0x7C onFeeds w F.HST_PSTAT_INPUT)

/-- STATUS_TEMPERATURE. -/
def execStatusTemperature (w : Wire) (s : State) : Host.Outcome State Fault Refusal :=
  .next (s.wireStatus 0x7D onClusters w F.HST_PSTAT_TEMP)

/-- STATUS_CML. -/
def execStatusCml (w : Wire) (s : State) : Host.Outcome State Fault Refusal :=
  .next (s.wire { code := 0x7E, reads := true, writes := true, size := some 1 } w
    (fun s => s.twRead 0x7E w [BitVec.ofNat 8 (s.f F.HST_STAT_CML)])
    (fun d s => (s.setF F.HST_STAT_CML 0 (s.f F.HST_STAT_CML &&& (255 - leData d)), Code.ok)))

/-! ### Readings (R190 to R192) -/

/-- A reading in LINEAR11. -/
def State.wireLin11 (s : State) (code : Nat) (k : PageSet) (w : Wire) (v : State → Rat) : State :=
  s.wireRead { code := code, pages := k } w 2 (fun s => linear11 (v s))

/-- READ_VIN: the V_IN that the thermal model last used for a cluster; FEEDf_V. -/
def execReadVin (w : Wire) (s : State) : Host.Outcome State Fault Refusal :=
  .next (s.wireLin11 0x88 onBoth w (fun s =>
    if s.onFeedPage then (s.fS F.FEED_V_V s.pageFeed : Rat) / 1000000
    else s.clVin s.pageCl (Vector.replicate 3 (s.cl.get s.pageCl).vin)))

/-- READ_IIN. -/
def execReadIin (w : Wire) (s : State) : Host.Outcome State Fault Refusal :=
  .next (s.wireLin11 0x89 onFeeds w (fun s => (s.fS F.FEED_I_I s.pageFeed : Rat) / 10000))

/-- READ_VOUT. -/
def execReadVout (w : Wire) (s : State) : Host.Outcome State Fault Refusal :=
  .next (s.wireRead { code := 0x8B, pages := onClusters } w 2 (fun s =>
    s.lin16 s.pageCl ((s.fS F.CL_TVOUT_TVOUT s.pageCl : Rat) / 1000000)))

/-- READ_IOUT. -/
def execReadIout (w : Wire) (s : State) : Host.Outcome State Fault Refusal :=
  .next (s.wireLin11 0x8C onClusters w (fun s => (s.fS F.CL_TIOUT_TIOUT s.pageCl : Rat) / 10000))

/-- READ_TEMPERATURE_1. -/
def execReadTemperature1 (w : Wire) (s : State) : Host.Outcome State Fault Refusal :=
  .next (s.wireLin11 0x8D onClusters w (fun s => (s.fS F.CL_TTEMP_TTEMP s.pageCl : Rat) / 128))

/-- READ_POUT. -/
def execReadPout (w : Wire) (s : State) : Host.Outcome State Fault Refusal :=
  .next (s.wireLin11 0x96 onClusters w (fun s => (s.fS F.CL_TPOUT_TPOUT s.pageCl : Rat) / 1000))

/-- READ_PIN. -/
def execReadPin (w : Wire) (s : State) : Host.Outcome State Fault Refusal :=
  .next (s.wireLin11 0x97 onFeeds w (fun s => (s.fS F.FEED_P_P s.pageFeed : Rat) / 1000))

/-! ### The window (R339) -/

/-- MFR_WIN_ADDR. -/
def execMfrWinAddr (w : Wire) (s : State) : Host.Outcome State Fault Refusal :=
  .next (s.wire { code := 0xD0, reads := true, writes := true, size := some 2, window := true } w
    (fun s => s.twRead 0xD0 w (leBytes 2 (s.f F.HST_WADDR_ADDR)))
    (fun d s => (s.setF F.HST_WADDR_ADDR 0 (leData d), Code.ok)))

/-- The window address after `k` words, with WINC. -/
def State.winNext (s : State) (k : Nat) : State :=
  s.when (s.fB F.HST_CFG_WINC) (fun s => s.setF F.HST_WADDR_ADDR 0 ((s.f F.HST_WADDR_ADDR + k) % 65536))

/-- Words written in increasing address order up to the first refusal, which is recorded at its word; a word that takes the port
down (an entry to BOOT) is the last. -/
def winWrite : List Byte → Nat → State → State
  | b0 :: b1 :: b2 :: b3 :: l, a, s =>
    let a := a % 65536
    let r := writeWord .twoWire a (BitVec.ofNat 32 (leData [b0, b1, b2, b3])) s
    if r.2 ≠ Code.ok then r.1.refuse .twoWire r.2 a else if r.1.portLive .twoWire then winWrite l (a + 1) r.1 else r.1
  | _, _, s => s

/-- `k` words read from `a` upwards. -/
def winRead : Nat → Nat → State → State × List Byte
  | 0, _, s => (s, [])
  | k + 1, a, s =>
    let r := s.readWord .twoWire (a % 65536)
    let t := winRead k (a + 1) r.1
    (t.1, wordBytes r.2 ++ t.2)

/-- MFR_WIN_DATA.  On a read the bytes clocked are the count byte, the words, and the PEC where one more is clocked. -/
def execMfrWinData (w : Wire) (s : State) : Host.Outcome State Fault Refusal :=
  let c : PmCmd := { code := 0xD1, reads := true, writes := true, window := true }
  .next (s.wire c w
    (fun s =>
      let n := w.clocks.toNat - 1
      let k := n / 4
      if 1 ≤ k && k ≤ 8 && n % 4 ≤ 1 then
        let r := winRead k (s.f F.HST_WADDR_ADDR) s
        (r.1.winNext k).twRead 0xD1 w (BitVec.ofNat 8 (4 * k) :: r.2)
      else
        let r := (s.pmRefuse c Code.range).freeBytes w.clocks.toNat
        r.2.twAnswer true r.1)
    (fun d s =>
      if d.length % 4 = 0 && 4 ≤ d.length && d.length ≤ 32 then
        let t := winWrite d (s.f F.HST_WADDR_ADDR) s
        (if t.portLive .twoWire then t.winNext (d.length / 4) else t, Code.ok)
      else (s, Code.range)))

/-! ### Behaviour level 1 (R342) -/

/-- A command of level 1 alone. -/
def State.level1 (s : State) (c : PmCmd) (g : State → State) : State :=
  if s.portUp && s.fB F.HST_STAT_AWAKE && s.img.blevel ≠ 1 then s.pmUnsupported c else g s

/-- Up to `k` words of the FIFO, ending with an end mark: the bytes, and the end mark of the last word. -/
def fifoBlock : Nat → State → State × List Byte × Bool
  | 0, s => (s, [], false)
  | k + 1, s =>
    let r := s.fifoPop
    if r.2.2 || k = 0 then (r.1, wordBytes r.2.1, r.2.2)
    else
      let t := fifoBlock k r.1
      (t.1, wordBytes r.2.1 ++ t.2.1, t.2.2)

/-- MFR_FIFO_DATA. -/
def execMfrFifoData (w : Wire) (s : State) : Host.Outcome State Fault Refusal :=
  let c : PmCmd := { code := 0xE0, reads := true }
  .next (s.level1 c (fun s => s.wire c w
    (fun s =>
      if s.f F.CAP_FSTAT_PKT_WAIT = 0 then s.fifoPop.1.twRead 0xE0 w [1, 0]
      else
        let r := fifoBlock 7 s
        r.1.twRead 0xE0 w (BitVec.ofNat 8 (r.2.1.length + 1) :: r.2.1 ++ [BitVec.ofNat 8 r.2.2.toNat]))
    (fun _ s => (s, Code.ok))))

/-- MFR_FIFO_CTRL. -/
def execMfrFifoCtrl (w : Wire) (s : State) : Host.Outcome State Fault Refusal :=
  let c : PmCmd := { code := 0xE1, writes := true, size := some 1 }
  .next (s.level1 c (fun s => s.wire c w id (fun d s =>
    match leData d with
    | 2 => capMark s
    | 3 => capRewind s
    | 4 => capRelease s
    | _ => s.capRefuse Code.range)))

/-- MFR_FIFO_STAT. -/
def execMfrFifoStat (w : Wire) (s : State) : Host.Outcome State Fault Refusal :=
  let c : PmCmd := { code := 0xE2, reads := true }
  .next (s.level1 c (fun s => s.wireRead c w 2 (fun s => s.f F.CAP_FSTAT_PKT_WAIT)))

/-! ### Commands that the device does not have (R340) -/

/-- The codes of R336, and at level 1 of R342. -/
def State.pmKnown (s : State) (k : Nat) : Bool := knownCode .twoWire k || (s.img.blevel = 1 && 0xE0 ≤ k && k ≤ 0xE2)

/-- UNSUPPORTED_COMMAND: a command byte that the two-wire port does not know, or an unknown CMD of a stream frame; a code that is
known goes by its own command. -/
def execUnsupportedCommand (p : Port) (code : Byte) (s : State) : Host.Outcome State Fault Refusal :=
  match p with
  | .twoWire =>
    if !s.portUp then .next (s.twAnswer false [])
    else if !s.fB F.HST_STAT_AWAKE then .next s.twWake
    else if s.pmKnown code.toNat then .next s
    else .next (s.pmUnsupported { code := code.toNat })
  | .stream =>
    if !s.portLive .stream || knownCode .stream code.toNat then .next s
    else .next ((s.refuse .stream Code.unsupported (0xF000 + code.toNat)).answerFrame Code.unsupported 0 [] [])

end Sys2Proof.Machine
end

