-- ==== Sys2Proof/Machine/StreamPort.lean ====
section
/-! DEFINITION. The stream port's own frames (15_host_ports_transactions.md R345, R346).  Update.lean has the pass-through frames. -/

namespace Sys2Proof.Machine

/-- The word addresses that a frame names, upwards from ADDR. -/
def frameAddrs (f : StreamFrame) : List Nat := (List.range f.len.toNat).map (fun k => (f.addr.toNat + k) % 65536)

/-- Words read one after another. -/
def State.readWords (s : State) : List Nat → State × List Word
  | [] => (s, [])
  | a :: l =>
    let r := s.readWord .stream a
    let t := r.1.readWords l
    (t.1, r.2 :: t.2)

/-- RDREG: in recovery STANDBY one word that is not served refuses the frame (R69). -/
def execRdreg (f : StreamFrame) (s : State) : Host.Outcome State Fault Refusal :=
  .next (s.frame 0x01 .read true f (fun s =>
    match (frameAddrs f).find? (fun a => !s.served a) with
    | some a => (s.refuse .stream Code.unsupported a).answerRefused 0x01 .read f Code.unsupported 0
    | none =>
      let r := s.readWords (frameAddrs f)
      r.1.answerFrame Code.ok (item r.2.length) r.2 []))

/-- Words written one after another up to the first refusal, or to an entry to BOOT: the state, the code and address of the refusal, and how many were
applied. -/
def writeWords : List (Nat × Word) → Nat → State → State × Nat × Nat × Nat
  | [], n, s => (s, Code.ok, 0, n)
  | (a, w) :: l, n, s =>
    let r := writeWord .stream a w s
    if r.2 ≠ Code.ok then (r.1, r.2, a, n)
    else if r.1.portLive .stream then writeWords l (n + 1) r.1
    else (r.1, Code.ok, 0, n + 1)

/-- WRREG. -/
def execWrreg (f : StreamFrame) (s : State) : Host.Outcome State Fault Refusal :=
  .next (s.frame 0x02 .write true f (fun s =>
    let r := writeWords ((frameAddrs f).zip f.data) 0 s
    if r.1.portLive .stream then (r.1.refuse .stream r.2.1 r.2.2.1).answerFrame r.2.1 (item r.2.2.2) [] [] else r.1))

/-- `k` slots of the stream FIFO: their words and end marks, and how many carried a word. -/
def fifoSlots : Nat → State → State × List (Word × Bool) × Nat
  | 0, s => (s, [], 0)
  | k + 1, s =>
    let found := s.f F.CAP_FSTAT_PKT_WAIT != 0
    let r := s.fifoPop
    let t := fifoSlots k r.1
    (t.1, r.2 :: t.2.1, t.2.2 + found.toNat)

/-- RDFIFO. -/
def execRdfifo (f : StreamFrame) (s : State) : Host.Outcome State Fault Refusal :=
  .next (s.frame 0x03 .read false f (fun s =>
    if f.addr ≠ 0 then s.refuseFrame 0x03 .read f Code.range
    else
      let r := fifoSlots f.len.toNat s
      r.1.answerFrame Code.ok (item (r.2.2 + 65536 * r.1.f F.CAP_FSTAT_PKT_WAIT)) (r.2.1.map (·.1)) (r.2.1.map (·.2))))

/-- A frame that carries a command without data: refused in DORMOUSE (R242). -/
def State.commandFrame (s : State) (cmd : Nat) (f : StreamFrame) (g : State → State × Nat) : State :=
  s.frame cmd .none false f (fun s =>
    let r := if s.dev == .dormouse then (s, Code.state) else g s
    (r.1.refuse .stream r.2 (0xF000 + cmd)).answerFrame r.2 0 [] [])

/-- FIFOCTL: ADDR[7:0] is a command of CAP_FCTRL. -/
def execFifoctl (f : StreamFrame) (s : State) : Host.Outcome State Fault Refusal :=
  .next (s.commandFrame 0x04 f (fun s =>
    match f.addr.toNat % 256 with
    | 1 => capFlush s
    | 2 => capMark s
    | 3 => capRewind s
    | 4 => capRelease s
    | _ => s.capRefuse Code.range))

/-- STREAM_STORE: ADDR is the confirm key. -/
def execStreamStore (f : StreamFrame) (s : State) : Host.Outcome State Fault Refusal :=
  .next (s.commandFrame 0x05 f (fun s =>
    if f.addr.toNat ≠ confirmKey then (s.setB F.STORE_STAT_CMD_REF 0 true, Code.range) else storeBegin s))

end Sys2Proof.Machine
end

