-- ==== Sys2Proof/Machine/Tap.lean ====
section
/-! DEFINITION. The test access port (02_balls_supplies_ratings.md R55, R56; 03_start_and_configuration_image.md R70; 04_time_base_sync_timers.md
R98), and what the scanned balls show while it drives them. -/

namespace Sys2Proof.Machine

/-- What IDCODE reads on revision B (R55). -/
def idcode : Word := 0x27648A4B

/-- An instruction is loaded: a code and the instruction it selects.  A halted service core is released unless a debug
instruction is loaded (log entry 60); the FRZ timers follow 30 ns later (R98). -/
def State.tapLoad (s : State) (code : BitVec 8) (inst : TapInst) : State :=
  let halt := inst == .debug
  { s with tap := { s.tap with
      ir := code, inst := inst, forcedMid := false, halted := halt
      freezeIn := if halt == s.tap.halted then s.tap.freezeIn else 3 } }

/-- EXTEST, CLAMP and HIGHZ are accepted only in STANDBY or SAFE; refused, they select BYPASS (R55, R56). -/
def State.tapDrive (s : State) (code : BitVec 8) (inst : TapInst) : State :=
  s.tapLoad code (if s.dev == .standby || s.dev == .safe then inst else .bypass)

def execExtest (s : State) : Host.Outcome State Fault Refusal := .next (s.tapDrive 0x00 .extest)
def execIdcode (s : State) : Host.Outcome State Fault Refusal := .next (s.tapLoad 0x01 .idcode)

/-- SAMPLE_PRELOAD: the boundary register after the scan, in ball order (input, output and control cell in bits 0, 1, 2): what
was sampled, or shifted in; 115 balls, 0 where the scan gave none. -/
def execSamplePreload (cells : List (BitVec 3)) (s : State) : Host.Outcome State Fault Refusal :=
  let s := s.tapLoad 0x02 .samplePreload
  .next { s with tap := { s.tap with boundary := (List.range 115).map (fun k => cells.getD k 0) } }

def execClamp (s : State) : Host.Outcome State Fault Refusal := .next (s.tapDrive 0x04 .clamp)
def execHighz (s : State) : Host.Outcome State Fault Refusal := .next (s.tapDrive 0x05 .highz)

/-- DEBUG: one of the codes 0x80 to 0x8F, accepted only while DEBUG_EN reads 1 (R70). -/
def execDebug (k : BitVec 4) (s : State) : Host.Outcome State Fault Refusal :=
  .next (s.tapLoad (0x80#8 ||| k.setWidth 8) (if s.fB F.IMG_BOOTSTAT_DEBUG_EN then .debug else .bypass))

/-- BYPASS, and every code that selects it. -/
def execBypass (code : BitVec 8) (s : State) : Host.Outcome State Fault Refusal := .next (s.tapLoad code .bypass)

/-- A TMR cycle of the freeze delay (R98). -/
def State.freezeTick (s : State) : State :=
  match s.tap.freezeIn with
  | 0 => s
  | n + 1 => { s with tap := { s.tap with freezeIn := n, frozen := if n = 0 then s.tap.halted else s.tap.frozen } }

/-! ### What the scanned balls show (R36, R55, R56) -/

/-- The cells of a ball in the boundary register. -/
def State.cells (s : State) (k : Nat) : BitVec 3 := s.tap.boundary.getD k 0

/-- The level of ball PWMp: the test port's while it drives, the phase unit's otherwise; mid after a safe-off forced under
a test instruction. -/
def State.pwmBall (s : State) (p : Fin 48) : PwmLevel :=
  let c := s.cells p.val
  if s.tap.forcedMid then .mid
  else match s.tap.inst with
    | .extest | .clamp => if c.getLsbD 2 then (if c.getLsbD 1 then .high else .low) else .mid
    | .highz => .mid
    | _ => (s.ph.get p).out

/-- A two-level output ball at place `k` of the boundary register, whose own level is `own`; none at high impedance. -/
def State.outBall (s : State) (k : Nat) (own : Bool) : Option Bool :=
  let c := s.cells k
  match s.tap.inst with
  | .extest | .clamp => if c.getLsbD 2 then some (c.getLsbD 1) else none
  | .highz => none
  | _ => some own

/-- Balls PENn and EXTk. -/
def State.penBall (s : State) (n : Fin 16) : Option Bool := s.outBall (48 + n) (s.pins.pen.getLsbD n)
def State.extBall (s : State) (k : Fin 8) : Option Bool := s.outBall (64 + k) (s.pins.ext.getLsbD k)

end Sys2Proof.Machine
end

