-- ==== Sys2Proof/Machine/Tick.lean ====
section
/-! DEFINITION. A TMR tick (10 ns), which is what the block does while no command waits (DESIGN CHOICE, log entry 1): the counts of
time, the general timers, the train generators and SRDY advance, and what the tick brings about by itself (timer matches, a
commit tick, pauses, the expiries of the 1 s counters) is put in the queue as the command that carries it out.  Everything whose
instant depends on an analogue quantity or on a delay that no register counts comes from outside as a command. -/

namespace Sys2Proof.Machine

/-- The clocks run: powered, out of reset, with a BOOT entered since the supply rose. -/
def State.clocksRun (s : State) : Bool := s.bootReady && s.power.booted && !s.power.heartbeatLost

/-- Putting commands at the end of the queue. -/
def State.enqueue (s : State) (l : List Instr) : State := { s with pending := s.pending ++ l }

/-! ### The counts of operating time (R212, R280, R379, R399) -/

/-- A microsecond passes. -/
def State.usTick (s : State) : State :=
  let c := s.clk
  let s := { s with clk := { c with
    us := if c.us + 1 < 1000 then c.us + 1 else 0
    ms := if c.us + 1 < 1000 then c.ms else c.ms + 1
    usBoot := c.usBoot + 1
    sub := if c.sub + 1 < 1000000 then c.sub + 1 else 0 } }
  s.when (c.us + 1 = 1000) State.agePolls

/-- A second passes: the retry timer from STANDBY onwards, the trial time in STANDBY, SEQUP, RUN and SEQDN. -/
def State.secondTick (s : State) : State :=
  let s := s.when (s.fB F.INP_RETRY_RUNNING && s.dev != .boot) (fun s =>
    let r := s.f F.INP_RETRY_REMAIN - 1
    (s.setF F.INP_RETRY_REMAIN 0 r).enqueue (if r = 0 then [.retryTimerExpiry] else []))
  s.when (s.fB F.UPD_STAT_TRIAL && s.f F.UPD_TRIALT_T < 3600
      && (s.dev == .standby || s.dev == .sequp || s.dev == .run || s.dev == .seqdn)) (fun s =>
    let t := s.f F.UPD_TRIALT_T + 1
    (s.setF F.UPD_TRIALT_T 0 t).enqueue (if t = 3600 then [.trialTimeExpiry] else []))

/-- A tick of the counts of time. -/
def State.timeTick (s : State) : State :=
  if s.clk.opTicks + 1 < 100 then { s with clk := { s.clk with opTicks := s.clk.opTicks + 1 } }
  else
    let s := { s with clk := { s.clk with opTicks := 0 } }.usTick
    s.when (s.clk.sub = 0) State.secondTick

/-! ### The TMR domain from STANDBY onwards -/

/-- The timers' tick.  Their matches are carried out with stops last (R97). -/
def State.timersTick (s : State) : State :=
  let r := timers.foldl (fun (r : State × List (Fin 32 × Cmp)) n => let t := r.1.tmTick n; (t.1, r.2 ++ t.2)) (s, [])
  let stops (m : Fin 32 × Cmp) : Bool := (r.1.tmAction m.1 m.2).1 == 7
  let l := r.2.filter (fun m => !stops m) ++ r.2.filter stops
  r.1.enqueue (l.map (fun m => Instr.timerMatch m.1 m.2))

/-- The train generators' tick (R296). -/
def State.trainsTick (s : State) : State :=
  s.each (List.finRange 4) (fun s k =>
    let s := s.trainTick k
    let e := s.trainEvents k
    s.enqueue ((if e.1 then [Instr.woodpeckerPauseEnd k] else []) ++ (if e.2 then [Instr.woodpeckerPauseStart k] else [])))

/-- The internal TMR count (R173) and the commit tick (R352). -/
def State.countTick (s : State) : State :=
  let s := { s with clk := { s.clk with tmr := s.clk.tmr + 1 } }
  s.when (s.txnState = 3 && s.clk.tmr.toNat % 1000 = 0 && s.clk.tmr != s.txn.passTick) (fun s => s.enqueue [.commitTick])

/-- One TMR tick of the block. -/
def State.tick (s : State) : State :=
  if !s.clocksRun then s
  else
    let s := s.timeTick
    if s.dev == .boot then s else s.countTick.freezeTick.srdyTick.timersTick.trainsTick

end Sys2Proof.Machine
end

