-- ==== Sys2Proof/Machine/Dispatch.lean ====
section
/-! DEFINITION. The meaning of each command: one arm per constructor, one call of its meaning. -/

namespace Sys2Proof.Machine

def exec (i : Instr) (s : State) : Host.Outcome State Fault Refusal :=
  match i with
  | .powerUp => Sys2Proof.Machine.execPowerUp s
  | .vddioModeLatch v33 => Sys2Proof.Machine.execVddioModeLatch v33 s
  | .resetAssert => Sys2Proof.Machine.execResetAssert s
  | .resetRelease => Sys2Proof.Machine.execResetRelease s
  | .bootComplete j => Sys2Proof.Machine.execBootComplete j s
  | .overlayMigrationWrite => Sys2Proof.Machine.execOverlayMigrationWrite s
  | .reload p confirm => Sys2Proof.Machine.execReload p confirm s
  | .restart p confirm => Sys2Proof.Machine.execRestart p confirm s
  | .dormouse p confirm => Sys2Proof.Machine.execDormouse p confirm s
  | .enChange level lowMs => Sys2Proof.Machine.execEnChange level lowMs s
  | .dieTempReading tctl tsns => Sys2Proof.Machine.execDieTempReading tctl tsns s
  | .dieHotResume => Sys2Proof.Machine.execDieHotResume s
  | .heartbeatLoss => Sys2Proof.Machine.execHeartbeatLoss s
  | .safeFeedGateOff => Sys2Proof.Machine.execSafeFeedGateOff s
  | .eccError e => Sys2Proof.Machine.execEccError e s
  | .supplyMeasure v5 vin => Sys2Proof.Machine.execSupplyMeasure v5 vin s
  | .ownSupplyLadderStage k => Sys2Proof.Machine.execOwnSupplyLadderStage k s
  | .forcedL5 => Sys2Proof.Machine.execForcedL5 s
  | .extest => Sys2Proof.Machine.execExtest s
  | .idcode => Sys2Proof.Machine.execIdcode s
  | .samplePreload cells => Sys2Proof.Machine.execSamplePreload cells s
  | .clamp => Sys2Proof.Machine.execClamp s
  | .highz => Sys2Proof.Machine.execHighz s
  | .debug k => Sys2Proof.Machine.execDebug k s
  | .bypass code => Sys2Proof.Machine.execBypass code s
  | .syncEdge hi lo gap ppm => Sys2Proof.Machine.execSyncEdge hi lo gap ppm s
  | .syncMissingPeriod => Sys2Proof.Machine.execSyncMissingPeriod s
  | .syncAligned => Sys2Proof.Machine.execSyncAligned s
  | .xinLoss => Sys2Proof.Machine.execXinLoss s
  | .clockMonitorWindow count => Sys2Proof.Machine.execClockMonitorWindow count s
  | .timerMatch n c => Sys2Proof.Machine.execTimerMatch n c s
  | .timerCtrlWrite p n v => Sys2Proof.Machine.execTimerCtrlWrite p n v s
  | .timerRelease p n => Sys2Proof.Machine.execTimerRelease p n s
  | .timerCntWrite p n v => Sys2Proof.Machine.execTimerCntWrite p n v s
  | .timerCompareWrite p n c v => Sys2Proof.Machine.execTimerCompareWrite p n c v s
  | .timerActWrite p n v => Sys2Proof.Machine.execTimerActWrite p n v s
  | .tmGstart p mask => Sys2Proof.Machine.execTmGstart p mask s
  | .tmGstop p mask => Sys2Proof.Machine.execTmGstop p mask s
  | .tmGclr p mask => Sys2Proof.Machine.execTmGclr p mask s
  | .linkedLowRead r c => Sys2Proof.Machine.execLinkedLowRead r c s
  | .frameStart n => Sys2Proof.Machine.execFrameStart n s
  | .onEdge p minOff => Sys2Proof.Machine.execOnEdge p minOff s
  | .blankingEnd p crossing => Sys2Proof.Machine.execBlankingEnd p crossing s
  | .peakTrip p => Sys2Proof.Machine.execPeakTrip p s
  | .maxonEnd p => Sys2Proof.Machine.execMaxonEnd p s
  | .phaseSample p code => Sys2Proof.Machine.execPhaseSample p code s
  | .averageCeilingExceeded p => Sys2Proof.Machine.execAverageCeilingExceeded p s
  | .foxTrip p recent => Sys2Proof.Machine.execFoxTrip p recent s
  | .foxHoldEnd p => Sys2Proof.Machine.execFoxHoldEnd p s
  | .delayLineCalibration bad => Sys2Proof.Machine.execDelayLineCalibration bad s
  | .prestartCheckFail n mean vmax vbus us => Sys2Proof.Machine.execPrestartCheckFail n mean vmax vbus us s
  | .prestartCheckPass n vmax => Sys2Proof.Machine.execPrestartCheckPass n vmax s
  | .softStartBegin n out => Sys2Proof.Machine.execSoftStartBegin n out s
  | .loopUpdate n fine coarse => Sys2Proof.Machine.execLoopUpdate n fine coarse s
  | .vsetWrite p n v => Sys2Proof.Machine.execVsetWrite p n v s
  | .leadWarningPulse pin w => Sys2Proof.Machine.execLeadWarningPulse pin w s
  | .leadSuspendClear p n => Sys2Proof.Machine.execLeadSuspendClear p n s
  | .injectionEnable p n v => Sys2Proof.Machine.execInjectionEnable p n v s
  | .balanceStep n => Sys2Proof.Machine.execBalanceStep n s
  | .overloadCompare n => Sys2Proof.Machine.execOverloadCompare n s
  | .overloadTimeout n => Sys2Proof.Machine.execOverloadTimeout n s
  | .phaseMonitorFrame n opened atMax byCmp => Sys2Proof.Machine.execPhaseMonitorFrame n opened atMax byCmp s
  | .loopEngineFailure n cause slotBad missed gap => Sys2Proof.Machine.execLoopEngineFailure n cause slotBad missed gap s
  | .precisionWindow j v => Sys2Proof.Machine.execPrecisionWindow j v s
  | .precisionSlotResult slot r fast clean ref => Sys2Proof.Machine.execPrecisionSlotResult slot r fast clean ref s
  | .precSnapRead p k => Sys2Proof.Machine.execPrecSnapRead p k s
  | .trimTargetUpdate => Sys2Proof.Machine.execTrimTargetUpdate s
  | .zeroLearnWindow p mean fox => Sys2Proof.Machine.execZeroLearnWindow p mean fox s
  | .ratioStepStart n steady late => Sys2Proof.Machine.execRatioStepStart n steady late s
  | .ratioStepComplete n a b0 u0 b1 u1 => Sys2Proof.Machine.execRatioStepComplete n a b0 u0 b1 u1 s
  | .energyBalancePoint src ps px pc ic => Sys2Proof.Machine.execEnergyBalancePoint src ps px pc ic s
  | .calibrationSave => Sys2Proof.Machine.execCalibrationSave s
  | .telemetryBlock u => Sys2Proof.Machine.execTelemetryBlock u s
  | .minmaxRead p m => Sys2Proof.Machine.execMinmaxRead p m s
  | .energyClear p f => Sys2Proof.Machine.execEnergyClear p f s
  | .autoZeroStart f => Sys2Proof.Machine.execAutoZeroStart f s
  | .autoZeroComplete f => Sys2Proof.Machine.execAutoZeroComplete f s
  | .seatQualified => Sys2Proof.Machine.execSeatQualified s
  | .seatLoss seat1 seat2 => Sys2Proof.Machine.execSeatLoss seat1 seat2 s
  | .unseatTimeout => Sys2Proof.Machine.execUnseatTimeout s
  | .inrushComplete f => Sys2Proof.Machine.execInrushComplete f s
  | .vbusQualified => Sys2Proof.Machine.execVbusQualified s
  | .inrushTimeout f amps vbus => Sys2Proof.Machine.execInrushTimeout f amps vbus s
  | .feedQualified f => Sys2Proof.Machine.execFeedQualified f s
  | .returnDelayExpiry f => Sys2Proof.Machine.execReturnDelayExpiry f s
  | .feedUv f => Sys2Proof.Machine.execFeedUv f s
  | .feedOv f => Sys2Proof.Machine.execFeedOv f s
  | .feedRev f => Sys2Proof.Machine.execFeedRev f s
  | .transferGateOff => Sys2Proof.Machine.execTransferGateOff s
  | .transferDeadTimeEnd => Sys2Proof.Machine.execTransferDeadTimeEnd s
  | .transferComplete gap => Sys2Proof.Machine.execTransferComplete gap s
  | .feedGate => Sys2Proof.Machine.execFeedGate s
  | .gateConfirmTimeout amps vbus => Sys2Proof.Machine.execGateConfirmTimeout amps vbus s
  | .faultTimerTrip f amps vbus => Sys2Proof.Machine.execFaultTimerTrip f amps vbus s
  | .feedFox f amps vbus => Sys2Proof.Machine.execFeedFox f amps vbus s
  | .toggle p confirm => Sys2Proof.Machine.execToggle p confirm s
  | .retryTimerExpiry => Sys2Proof.Machine.execRetryTimerExpiry s
  | .retryTimerSave => Sys2Proof.Machine.execRetryTimerSave s
  | .feedPinWrite p pin => Sys2Proof.Machine.execFeedPinWrite p pin s
  | .busLadderEntry k => Sys2Proof.Machine.execBusLadderEntry k s
  | .busLadderRelease => Sys2Proof.Machine.execBusLadderRelease s
  | .feedLeak => Sys2Proof.Machine.execFeedLeak s
  | .estimatorStep j amps volts steady fresh => Sys2Proof.Machine.execEstimatorStep j amps volts steady fresh s
  | .bthReading j code => Sys2Proof.Machine.execBthReading j code s
  | .impedanceStep j di vpre v1ms v10ms => Sys2Proof.Machine.execImpedanceStep j di vpre v1ms v10ms s
  | .batRestWrite p j on => Sys2Proof.Machine.execBatRestWrite p j on s
  | .restComplete j volts => Sys2Proof.Machine.execRestComplete j volts s
  | .contactorSettled => Sys2Proof.Machine.execContactorSettled s
  | .packUvCut j => Sys2Proof.Machine.execPackUvCut j s
  | .uvclr p j => Sys2Proof.Machine.execUvclr p j s
  | .snap p j => Sys2Proof.Machine.execSnap p j s
  | .restore p j => Sys2Proof.Machine.execRestore p j s
  | .wake p confirm => Sys2Proof.Machine.execWake p confirm s
  | .dormouseBusWake => Sys2Proof.Machine.execDormouseBusWake s
  | .dmholdClear => Sys2Proof.Machine.execDmholdClear s
  | .seqStepComplete part inwin below pgin => Sys2Proof.Machine.execSeqStepComplete part inwin below pgin s
  | .seqStepTimeout part => Sys2Proof.Machine.execSeqStepTimeout part s
  | .force p confirm => Sys2Proof.Machine.execForce p confirm s
  | .sfpulse p confirm => Sys2Proof.Machine.execSfpulse p confirm s
  | .clUv n => Sys2Proof.Machine.execClUv n s
  | .clOv n => Sys2Proof.Machine.execClOv n s
  | .clFov n => Sys2Proof.Machine.execClFov n s
  | .windowBlankEnd n => Sys2Proof.Machine.execWindowBlankEnd n s
  | .pwrgdReturn => Sys2Proof.Machine.execPwrgdReturn s
  | .minOffTimeExpiry => Sys2Proof.Machine.execMinOffTimeExpiry s
  | .softStartShort n out => Sys2Proof.Machine.execSoftStartShort n out s
  | .hiccupRestart n => Sys2Proof.Machine.execHiccupRestart n s
  | .sysfltIn => Sys2Proof.Machine.execSysfltIn s
  | .sysfltHoldEnd low => Sys2Proof.Machine.execSysfltHoldEnd low s
  | .sysfltStuck => Sys2Proof.Machine.execSysfltStuck s
  | .supervisorEvaluation a b c => Sys2Proof.Machine.execSupervisorEvaluation a b c s
  | .voteWindowClose => Sys2Proof.Machine.execVoteWindowClose s
  | .voterWatchdog => Sys2Proof.Machine.execVoterWatchdog s
  | .wireFault pair fresh => Sys2Proof.Machine.execWireFault pair fresh s
  | .ack p confirm => Sys2Proof.Machine.execAck p confirm s
  | .safe p confirm => Sys2Proof.Machine.execSafe p confirm s
  | .tsenReading n code => Sys2Proof.Machine.execTsenReading n code s
  | .tsenFaultLevel n => Sys2Proof.Machine.execTsenFaultLevel n s
  | .thermalModelStep obs vin => Sys2Proof.Machine.execThermalModelStep obs vin s
  | .thermalAnchor => Sys2Proof.Machine.execThermalAnchor s
  | .tsdclr p n confirm => Sys2Proof.Machine.execTsdclr p n confirm s
  | .tsdAutoClear n => Sys2Proof.Machine.execTsdAutoClear n s
  | .woodpeckerPauseStart k => Sys2Proof.Machine.execWoodpeckerPauseStart k s
  | .woodpeckerPauseEnd k => Sys2Proof.Machine.execWoodpeckerPauseEnd k s
  | .powerEstimate => Sys2Proof.Machine.execPowerEstimate s
  | .cappingControlStep c => Sys2Proof.Machine.execCappingControlStep c s
  | .captureSample n raw => Sys2Proof.Machine.execCaptureSample n raw s
  | .captureTrigger p hi mask => Sys2Proof.Machine.execCaptureTrigger p hi mask s
  | .streamRequest p hi mask => Sys2Proof.Machine.execStreamRequest p hi mask s
  | .laneTakeBlock l => Sys2Proof.Machine.execLaneTakeBlock l s
  | .tailTimeout n => Sys2Proof.Machine.execTailTimeout n s
  | .recordComplete l => Sys2Proof.Machine.execRecordComplete l s
  | .packetWordWrite => Sys2Proof.Machine.execPacketWordWrite s
  | .fifoRead p => Sys2Proof.Machine.execFifoRead p s
  | .flush p => Sys2Proof.Machine.execFlush p s
  | .mark p => Sys2Proof.Machine.execMark p s
  | .rewind p => Sys2Proof.Machine.execRewind p s
  | .release p => Sys2Proof.Machine.execRelease p s
  | .channelConfigWrite p n cfg v => Sys2Proof.Machine.execChannelConfigWrite p n cfg v s
  | .streamEnableWrite p v => Sys2Proof.Machine.execStreamEnableWrite p v s
  | .diagRead p => Sys2Proof.Machine.execDiagRead p s
  | .twoWireWake => Sys2Proof.Machine.execTwoWireWake s
  | .twoWireSleep => Sys2Proof.Machine.execTwoWireSleep s
  | .sclTimeout => Sys2Proof.Machine.execSclTimeout s
  | .sdaRelease => Sys2Proof.Machine.execSdaRelease s
  | .page w => Sys2Proof.Machine.execPage w s
  | .operation w => Sys2Proof.Machine.execOperation w s
  | .clearFaults w => Sys2Proof.Machine.execClearFaults w s
  | .storeUserAll w => Sys2Proof.Machine.execStoreUserAll w s
  | .capability w => Sys2Proof.Machine.execCapability w s
  | .voutMode w => Sys2Proof.Machine.execVoutMode w s
  | .voutCommand w => Sys2Proof.Machine.execVoutCommand w s
  | .voutTransitionRate w => Sys2Proof.Machine.execVoutTransitionRate w s
  | .voutOvFaultLimit w => Sys2Proof.Machine.execVoutOvFaultLimit w s
  | .voutUvFaultLimit w => Sys2Proof.Machine.execVoutUvFaultLimit w s
  | .ioutOcFaultLimit w => Sys2Proof.Machine.execIoutOcFaultLimit w s
  | .statusByte w => Sys2Proof.Machine.execStatusByte w s
  | .statusWord w => Sys2Proof.Machine.execStatusWord w s
  | .statusVout w => Sys2Proof.Machine.execStatusVout w s
  | .statusIout w => Sys2Proof.Machine.execStatusIout w s
  | .statusInput w => Sys2Proof.Machine.execStatusInput w s
  | .statusTemperature w => Sys2Proof.Machine.execStatusTemperature w s
  | .statusCml w => Sys2Proof.Machine.execStatusCml w s
  | .readVin w => Sys2Proof.Machine.execReadVin w s
  | .readIin w => Sys2Proof.Machine.execReadIin w s
  | .readVout w => Sys2Proof.Machine.execReadVout w s
  | .readIout w => Sys2Proof.Machine.execReadIout w s
  | .readTemperature1 w => Sys2Proof.Machine.execReadTemperature1 w s
  | .readPout w => Sys2Proof.Machine.execReadPout w s
  | .readPin w => Sys2Proof.Machine.execReadPin w s
  | .pmbusRevision w => Sys2Proof.Machine.execPmbusRevision w s
  | .mfrId w => Sys2Proof.Machine.execMfrId w s
  | .mfrModel w => Sys2Proof.Machine.execMfrModel w s
  | .mfrRevision w => Sys2Proof.Machine.execMfrRevision w s
  | .mfrSerial w => Sys2Proof.Machine.execMfrSerial w s
  | .mfrWinAddr w => Sys2Proof.Machine.execMfrWinAddr w s
  | .mfrWinData w => Sys2Proof.Machine.execMfrWinData w s
  | .mfrFifoData w => Sys2Proof.Machine.execMfrFifoData w s
  | .mfrFifoCtrl w => Sys2Proof.Machine.execMfrFifoCtrl w s
  | .mfrFifoStat w => Sys2Proof.Machine.execMfrFifoStat w s
  | .unsupportedCommand p code => Sys2Proof.Machine.execUnsupportedCommand p code s
  | .alertResponse won clocks => Sys2Proof.Machine.execAlertResponse won clocks s
  | .rdreg f => Sys2Proof.Machine.execRdreg f s
  | .wrreg f => Sys2Proof.Machine.execWrreg f s
  | .rdfifo f => Sys2Proof.Machine.execRdfifo f s
  | .fifoctl f => Sys2Proof.Machine.execFifoctl f s
  | .streamStore f => Sys2Proof.Machine.execStreamStore f s
  | .registerWrite p a v => Sys2Proof.Machine.execRegisterWrite p a v s
  | .begin p => Sys2Proof.Machine.execBegin p s
  | .commit p token => Sys2Proof.Machine.execCommit p token s
  | .rollback p token => Sys2Proof.Machine.execRollback p token s
  | .txnChecksComplete => Sys2Proof.Machine.execTxnChecksComplete s
  | .commitTick => Sys2Proof.Machine.execCommitTick s
  | .txnTimeout => Sys2Proof.Machine.execTxnTimeout s
  | .store p confirm => Sys2Proof.Machine.execStore p confirm s
  | .storeComplete ok => Sys2Proof.Machine.execStoreComplete ok s
  | .fieldBusPoll b => Sys2Proof.Machine.execFieldBusPoll b s
  | .fieldBusTransactionDone b r data => Sys2Proof.Machine.execFieldBusTransactionDone b r data s
  | .fieldBusStale b e => Sys2Proof.Machine.execFieldBusStale b e s
  | .fieldBusArbLost b => Sys2Proof.Machine.execFieldBusArbLost b s
  | .fieldBusRetry b => Sys2Proof.Machine.execFieldBusRetry b s
  | .fieldBusHang b scl => Sys2Proof.Machine.execFieldBusHang b scl s
  | .fieldBusPowerRestore b => Sys2Proof.Machine.execFieldBusPowerRestore b s
  | .fieldBusResume b => Sys2Proof.Machine.execFieldBusResume b s
  | .pwrcycle p b confirm => Sys2Proof.Machine.execPwrcycle p b confirm s
  | .ringLinkUp => Sys2Proof.Machine.execRingLinkUp s
  | .ringLinkDown viol => Sys2Proof.Machine.execRingLinkDown viol s
  | .ringClaim => Sys2Proof.Machine.execRingClaim s
  | .claim f => Sys2Proof.Machine.execClaim f s
  | .enum f => Sys2Proof.Machine.execEnum f s
  | .beaconSend => Sys2Proof.Machine.execBeaconSend s
  | .beacon f steady rt => Sys2Proof.Machine.execBeacon f steady rt s
  | .budget f => Sys2Proof.Machine.execBudget f s
  | .capord f => Sys2Proof.Machine.execCapord f s
  | .onoff f => Sys2Proof.Machine.execOnoff f s
  | .busstate f => Sys2Proof.Machine.execBusstate f s
  | .time f => Sys2Proof.Machine.execTime f s
  | .share f => Sys2Proof.Machine.execShare f s
  | .report f => Sys2Proof.Machine.execReport f s
  | .ringBreak f => Sys2Proof.Machine.execRingBreak f s
  | .breakSend => Sys2Proof.Machine.execBreakSend s
  | .masterPeriodicSend kind => Sys2Proof.Machine.execMasterPeriodicSend kind s
  | .masterLost => Sys2Proof.Machine.execMasterLost s
  | .ringOpenTimeout => Sys2Proof.Machine.execRingOpenTimeout s
  | .ringReenumerate => Sys2Proof.Machine.execRingReenumerate s
  | .rackBudgetCompute pg => Sys2Proof.Machine.execRackBudgetCompute pg s
  | .rectifierOffline k => Sys2Proof.Machine.execRectifierOffline k s
  | .lnkOrderWrite p v => Sys2Proof.Machine.execLnkOrderWrite p v s
  | .timeSlotWrite => Sys2Proof.Machine.execTimeSlotWrite s
  | .recordNvmWrite fail1 fail2 => Sys2Proof.Machine.execRecordNvmWrite fail1 fail2 s
  | .overflowRecordRewrite => Sys2Proof.Machine.execOverflowRecordRewrite s
  | .owlIdxWrite p v writing => Sys2Proof.Machine.execOwlIdxWrite p v writing s
  | .owlSnap p confirm => Sys2Proof.Machine.execOwlSnap p confirm s
  | .snapshotFreeze => Sys2Proof.Machine.execSnapshotFreeze s
  | .snapshotCopyComplete => Sys2Proof.Machine.execSnapshotCopyComplete s
  | .snapshotRead p => Sys2Proof.Machine.execSnapshotRead p s
  | .clear p confirm => Sys2Proof.Machine.execClear p confirm s
  | .clearComplete => Sys2Proof.Machine.execClearComplete s
  | .upopen f => Sys2Proof.Machine.execUpopen f s
  | .upwrite f => Sys2Proof.Machine.execUpwrite f s
  | .upblock f => Sys2Proof.Machine.execUpblock f s
  | .updateBlockComplete r => Sys2Proof.Machine.execUpdateBlockComplete r s
  | .upclose f => Sys2Proof.Machine.execUpclose f s
  | .updateVerifyComplete noise => Sys2Proof.Machine.execUpdateVerifyComplete noise s
  | .updateSessionTimeout => Sys2Proof.Machine.execUpdateSessionTimeout s
  | .confirm p confirm => Sys2Proof.Machine.execConfirm p confirm s
  | .cancel p confirm => Sys2Proof.Machine.execCancel p confirm s
  | .trialTimeExpiry => Sys2Proof.Machine.execTrialTimeExpiry s
  | .trialTimeSave => Sys2Proof.Machine.execTrialTimeSave s
  | .ladderRecovery => Sys2Proof.Machine.execLadderRecovery s
  | .sysfltLineRelease => Sys2Proof.Machine.execSysfltLineRelease s
  | .feedLeakClear => Sys2Proof.Machine.execFeedLeakClear s
  | .feedQualificationLoss f => Sys2Proof.Machine.execFeedQualificationLoss f s
  | .currentLimitEntry f => Sys2Proof.Machine.execCurrentLimitEntry f s
  | .faultTimerClear f => Sys2Proof.Machine.execFaultTimerClear f s
  | .ringFrameDiscard raw within => Sys2Proof.Machine.execRingFrameDiscard raw within s

end Sys2Proof.Machine
end

