-- ==== Sys2Proof/Safety.lean ====
section
/-! DEFINITION. What counts as a sound state and a completed command, in the terms that statements use. -/

namespace Sys2Proof.Machine

/-- What an unlisted byte of the configuration flash reads as: erased (log entry 6). -/
def flashReset (_ : Nat) : Byte := 0xFF

/-- The registers and the flash stand in their canonical forms: addresses strictly rising, no entry equal to what an unlisted
address reads. -/
def State.canonical (s : State) : Prop := Sparse.wf regReset s.regs = true ∧ Sparse.wf flashReset s.flash = true

/-- A command completes in a state: it answers a next state, and `P` holds of that. -/
def completes (c : Instr) (s : State) (P : State → Prop) : Prop := ∃ t, exec c s = .next t ∧ P t

/-- A host's write through a port acts at once: the port takes part, the device is neither in recovery STANDBY (R69) nor in
DORMOUSE (R242), and no transaction is open, checking or waiting (R350). -/
def State.hostOpen (s : State) (p : Port) : Prop :=
  s.portLive p = true ∧ s.noImg = false ∧ s.dev ≠ .dormouse ∧ s.txnState = 0

/-- Nothing but registers differs between two states, and of these only the words listed. -/
def State.onlyRegs (s t : State) (l : List Nat) : Prop := { t with regs := s.regs } = s ∧ ∀ a, a ∉ l → t.reg a = s.reg a

/-- The words that the raise of a source changes (R269, R338): SUPV_SRC0 to SUPV_SRC22 and the pages' HST_PSTAT. -/
def reportWord (a : Nat) : Bool := (0x0240 ≤ a && a < 0x0257) || (0x3210 ≤ a && a < 0x3223)

/-- Nothing but registers and the raises that await an evaluation differs, and of the registers only the words listed and those
that a raise changes. -/
def State.reportsOnly (s t : State) (l : List Nat) : Prop :=
  { t with regs := s.regs, sup := { t.sup with pend := s.sup.pend } } = s ∧
    ∀ a, a ∉ l → reportWord a = false → t.reg a = s.reg a

/-- The same with event records: staging, their next SEQ and the lost count may differ too (R385). -/
def State.recordsOnly (s t : State) (l : List Nat) : Prop :=
  { t with regs := s.regs, sup := { t.sup with pend := s.sup.pend }, owl := { t.owl with staging := s.owl.staging } } = s ∧
    ∀ a, a ∉ 0x2E01 :: 0x2E02 :: l → reportWord a = false → t.reg a = s.reg a

/-- Every output ball stands as R36 gives it for reset; the input balls are as they were. -/
def State.outputsReset (s t : State) : Prop :=
  t.pins = { en := s.pins.en, pgin := s.pins.pgin, lead := s.pins.lead, syncIn := s.pins.syncIn }

/-- The two-wire port takes a transaction as a PMBus command: it exists for the bus, is awake, and the device is not in recovery
STANDBY (R69, R332). -/
def State.wireOpen (s : State) : Prop := s.portUp = true ∧ s.fB F.HST_STAT_AWAKE = true ∧ s.noImg = false

/-- A read transaction that clocks at most `n` bytes. -/
def Wire.asks (w : Wire) (n : Nat) : Prop := w.read = true ∧ w.data = [] ∧ w.clocks.toNat ≤ n

/-- The device sent `l` with its PEC, as far as the host clocked, and nothing else changed (R334, R340). -/
def State.sent (s t : State) (code : Nat) (w : Wire) (l : List Byte) : Prop :=
  t = { s with port := { s.port with
    resp := (l ++ [crc8 ([s.addrByte, BitVec.ofNat 8 code, s.addrByte + 1] ++ l)]).take w.clocks.toNat, nack := false } }

/-- A write transaction of the bytes `d` that the device accepts: with the right PEC, or without one where PECREQ = 0 (R334); outside
DORMOUSE (R242). -/
def State.takes (s : State) (code : Nat) (w : Wire) (d : List Byte) : Prop :=
  s.dev ≠ .dormouse ∧ w.read = false ∧ (w.data = d ∧ s.fB F.HST_CFG_PECREQ = false ∨
    w.data = d ++ [crc8 ([s.addrByte, BitVec.ofNat 8 code] ++ d)])

/-- The state after a write transaction with no refusal: every byte acknowledged, none sent. -/
def State.acked (s : State) : State := { s with port := { s.port with resp := [], nack := false } }

/-- The stream port carries out a frame: it takes part, the frame was not cut short, its data are as long as LEN says, and its CRC is
right (R344, R345); the device is not in recovery STANDBY (R69). -/
def State.takesFrame (s : State) (cmd : Nat) (kind : FrameData) (f : StreamFrame) : Prop :=
  s.portLive .stream = true ∧ s.noImg = false ∧ f.early = false ∧ (kind = .write → f.data.length = f.len.toNat) ∧
    crc16 (streamBytes cmd kind f) = f.crc

/-- BOOT reads the address straps, but for a RELOAD (R38, R78). -/
def State.strapped (s : State) (i : BootInput) : State :=
  if s.f F.DEV_PWRSTAT_BCAUSE = 4 then s else s.setF F.DEV_PWRSTAT_STRAP 0 (4 * strapLevel i.adr1.toNat + strapLevel i.adr0.toNat)

/-- A refusal with code `code` at address `a` (R340): the port's HST_REFx holds both, a STATUS_CML bit is set, and of the other
registers only those listed may have changed. -/
def State.refused (s t : State) (p : Port) (code a : Nat) (l : List Nat) : Prop :=
  (t.f F.HST_STAT_CML).testBit (if code = 1 then 7 else if code = 9 then 5 else 6) = true ∧
    match p with
    | .twoWire => t.f F.HST_REF0_CODE = code ∧ t.f F.HST_REF0_ADDR = a ∧
      s.onlyRegs t (F.HST_STAT_CML.addr 0 :: F.HST_REF0_CODE.addr 0 :: l)
    | .stream => t.f F.HST_REF1_CODE = code ∧ t.f F.HST_REF1_ADDR = a ∧
      s.onlyRegs t (F.HST_STAT_CML.addr 0 :: F.HST_REF1_CODE.addr 0 :: l)

/-! ### Outputs in SAFE and in BOOT -/

/-- Every output that safe-off puts in its safe state stands there (R254, R276): every phase unit's output at the mid level and none
active, every cluster off, and PEN, EXT, PWRGD, BEN and BCHG low. -/
def State.safeOutputs (s : State) : Prop :=
  s.pins.pen = 0 ∧ s.pins.ext = 0 ∧ s.pins.pwrgd = false ∧ s.pins.ben = false ∧ s.pins.bchg = false ∧
    (∀ n, (s.cl.get n).run = .off) ∧ ∀ p : Fin 48, (s.ph.get p).out = .mid ∧ s.fB F.PH_STAT_ACTIVE p = false

/-- Every output stands as R36 gives it until STANDBY: the output balls at reset, every phase unit's output at the mid level, every
cluster off, and the gates off. -/
def State.bootOutputs (s : State) : Prop :=
  s.outputsReset s ∧ (∀ n, (s.cl.get n).run = .off) ∧
    (∀ p : Fin 48, (s.ph.get p).out = .mid ∧ s.fB F.PH_STAT_ACTIVE p = false) ∧ ∀ f : Fin 3, s.gate f = .off

/-! ### References that the spec's words give for a code -/

/-- One bit of the CRC-32 of R63, as the reflected input gives it: the unreflected register, most significant bit first, with the
polynomial 0x04C1_1DB7. -/
def crcRefBit (c : Word) (b : Bool) : Word := if c.getLsbD 31 != b then (c <<< 1) ^^^ 0x04C11DB7#32 else c <<< 1

/-- The CRC-32 of R63 in its own words: each byte least significant bit first, initial value 0xFFFF_FFFF, the output reflected, final
exclusive-or 0xFFFF_FFFF. -/
def crcRef (l : List Byte) : Word :=
  ((l.flatMap (fun b => (List.range 8).map b.getLsbD)).foldl crcRefBit 0xFFFFFFFF#32).reverse ^^^ 0xFFFFFFFF#32

/-! ### A decoder of the compressed blocks (R311, R312) -/

/-- The number that bits spell, most significant first. -/
def ofBits (l : List Bool) : Nat := l.foldl (fun n b => 2 * n + b.toNat) 0

/-- The sample that 16 bits spell. -/
def ofBits16 (l : List Bool) : Int := toSigned 16 (ofBits l)

/-- The residual of a zig-zag number. -/
def unzigzag (z : Nat) : Int := if z % 2 = 0 then (z / 2 : Nat) else -((z + 1) / 2 : Nat)

/-- One bits read until a zero or until `n` have been read: how many, whether a zero ended them, and the bits that follow. -/
def readOnes : Nat → List Bool → Nat × Bool × List Bool
  | 0, l => (0, false, l)
  | _ + 1, [] => (0, false, [])
  | _ + 1, false :: l => (0, true, l)
  | n + 1, true :: l => let r := readOnes n l; (r.1 + 1, r.2)

/-- One sample from its code, and the bits that follow. -/
def readSample (k q : Nat) (p : Int) (l : List Bool) : Int × List Bool :=
  if k = 15 then (ofBits16 (l.take 16), l.drop 16)
  else
    let r := readOnes (Nat.min 256 (2 ^ (16 - k))) l
    if r.2.1 then (p + unzigzag (r.1 * 2 ^ k + ofBits (r.2.2.take k)) * (2 ^ q : Nat), r.2.2.drop k)
    else (ofBits16 (r.2.2.take 16), r.2.2.drop 16)

/-- The `n` samples of a block from sample `i` on, given the two before it. -/
def readTail (k q : Nat) (p2 : Bool) : Nat → Nat → Int → Int → List Bool → List Int
  | 0, _, _, _, _ => []
  | n + 1, i, y1, y2, l =>
    let r := readSample k q (predict p2 i y1 y2) l
    r.1 :: readTail k q p2 n (i + 1) r.1 y1 r.2

/-- The samples of a block of `n` from its first sample, which its header carries, and its payload bits. -/
def readBlock (k q : Nat) (p2 : Bool) (n : Nat) (first : Int) (l : List Bool) : List Int :=
  first :: readTail k q p2 (n - 1) 1 first first l

/-- The confirm key of every command register. -/
def key : BitVec 16 := 0xCA10

end Sys2Proof.Machine
end

