-- ==== Sys2Proof/Certificates/Slice0/Obligations.lean ====
section
/-! DEFINITION. The statements about the model: the commands of each family complete with the effect of their rules (the first 35),
the rules that hold of every command and of every step, and the codes the spec defines by numbers. -/

open Sys2Proof Sys2Proof.Machine

/-- SUPPLY AND RESET. POWER_UP leaves BOOT begun with every output at reset and the VDDIO mode not latched (R44); the
latch stores the mode, and begins the first BOOT where it was the last condition (R39); RESET# low puts every output
at reset, and its release begins BOOT with cause 2 (R45, R50); L5 resets, and the recovery or the forced end of the
ladder begins BOOT with cause 1 (R47). The clauses rest on the readings of log entries 14, 67 and 68. -/
def Obligations.SupplyAndResetCommandsComplete : Prop :=
  (∀ s, completes .powerUp s (fun t => t.dev = .boot ∧ s.outputsReset t ∧ t.f F.DEV_PWRSTAT_IOMODE = 0 ∧
    t.f F.DEV_PWRSTAT_LSTAGE = 0 ∧ t.power.powered = true ∧ t.power.v5Good = true ∧ t.power.railsOk = true ∧
    t.power.rootLocked = true ∧ t.power.vddioLatched = false ∧ t.power.resetLow = s.power.resetLow ∧
    t.pending = s.pending ∧ t.flash = s.flash ∧ t.owl.slots = s.owl.slots ∧ t.nvm.state = s.nvm.state ∧
    ∀ a ∈ ([0x2E05, 0x2806, 0x3315] : List Nat), t.reg a = s.reg a)) ∧
  (∀ s (v : Bool), s.power.powered = true → s.power.vddioLatched = false → (s.power.v5Good && s.power.railsOk && s.power.rootLocked) = true →
    s.power.resetLow = false → s.power.booted = false → completes (.vddioModeLatch v) s (fun t =>
      t.dev = .boot ∧ t.fB F.DEV_PWRSTAT_IOMODE = v ∧ t.f F.DEV_PWRSTAT_BCAUSE = 0 ∧ t.power.vddioLatched = true ∧
      t.nvm.timeSlot.2 = s.nvm.timeSlot.2 + 1)) ∧
  (∀ s (v : Bool), s.power.powered = true → s.power.vddioLatched = false → s.power.v5Good = false → completes (.vddioModeLatch v) s (fun t =>
    t.fB F.DEV_PWRSTAT_IOMODE = v ∧
    State.onlyRegs { s with power := { s.power with vddioLatched := true } } t [F.DEV_PWRSTAT_IOMODE.addr 0])) ∧
  (∀ s, s.power.powered = true → completes .resetAssert s (fun t => t.dev = .boot ∧ t.power.resetLow = true ∧ s.outputsReset t ∧
    t.f F.DEV_PWRSTAT_LSTAGE = 0 ∧ t.pending = s.pending ∧ t.flash = s.flash ∧ t.nvm = s.leaveForBoot.nvm.dropStore)) ∧
  (∀ s, s.power.resetLow = true → State.bootReady { s with power := { s.power with resetLow := false } } = true →
    s.power.booted = true → completes .resetRelease s (fun t => t.dev = .boot ∧ t.power.resetLow = false ∧
      t.f F.DEV_PWRSTAT_BCAUSE = 2 ∧ s.outputsReset t)) ∧
  (∀ s, s.power.powered = true → s.power.resetLow = false → completes (.ownSupplyLadderStage 4) s (fun t => t.dev = .boot ∧
    t.power.v5Good = false ∧ t.power.railsOk = false ∧ t.f F.DEV_PWRSTAT_LSTAGE = 0 ∧ t.flash = s.flash)) ∧
  (∀ s (k : Fin 5), s.power.powered = true → s.power.resetLow = false → s.dev = .boot → k < (4 : Fin 5) →
    completes (.ownSupplyLadderStage k) s (fun t =>
      t.f F.DEV_PWRSTAT_LSTAGE = Nat.max (k.val + 1) (s.f F.DEV_PWRSTAT_LSTAGE) ∧
      State.onlyRegs { s with power := { s.power with v5Good := false } } t [F.DEV_PWRSTAT_LSTAGE.addr 0])) ∧
  (∀ s, State.bootReady { s with power := { s.power with v5Good := true } } = true → 3 ≤ s.f F.DEV_PWRSTAT_LSTAGE →
    s.power.booted = true → completes .forcedL5 s (fun t => t.dev = .boot ∧ t.f F.DEV_PWRSTAT_BCAUSE = 1 ∧
      t.f F.DEV_PWRSTAT_LSTAGE = 0 ∧ s.outputsReset t)) ∧
  (∀ s, s.power.powered = true → s.power.v5Good = false → s.power.railsOk = false → s.power.vddioLatched = true →
    s.power.resetLow = false → s.power.booted = true → completes .ladderRecovery s (fun t => t.dev = .boot ∧
      t.f F.DEV_PWRSTAT_BCAUSE = 1 ∧ t.power.railsOk = true ∧ t.power.v5Good = true ∧ s.outputsReset t))

/-- DEV_CTRL, DORMOUSE AND ITS WAKES. In STANDBY, with the confirm key and no store, migration or update session in
progress, RELOAD begins BOOT with cause 4 and keeps the root clock's state (R78), RESTART begins BOOT with cause 3
(R31), and DORMOUSE enters the mode with BEN and BCHG low and DMFLAG set (R241). A wake clears DMFLAG and begins BOOT
with cause 5 (R242); DMHOLD ends with WOKE (R243). The clauses rest on the readings of log entries 22 and 66. -/
def Obligations.DeviceCommandsAndWakesComplete : Prop :=
  (∀ s (p : Port), s.hostOpen p → s.dev = .standby → s.nvmBusy = false → completes (.reload p key) s (fun t => t.dev = .boot ∧
    t.f F.DEV_PWRSTAT_BCAUSE = 4 ∧ s.outputsReset t ∧ t.clk.xinDead = s.clk.xinDead ∧ t.clk.qualified = s.clk.qualified ∧
    t.pending = s.pending ∧ t.flash = s.flash ∧ t.nvm.state = s.nvm.state)) ∧
  (∀ s (p : Port), s.hostOpen p → (s.dev = .standby ∨ s.dev = .safe) → s.nvmBusy = false → completes (.restart p key) s (fun t => t.dev = .boot ∧
    t.f F.DEV_PWRSTAT_BCAUSE = 3 ∧ s.outputsReset t ∧ t.pending = s.pending ∧ t.flash = s.flash)) ∧
  (∀ s (p : Port), s.hostOpen p → s.dev = .standby → s.nvmBusy = false → s.shelf = false → s.fB F.INP_HOLDCAP_HSRC = false →
    s.fB F.BAT_CFG_EN 0 = true → completes (.dormouse p key) s (fun t => t.dev = .dormouse ∧ t.pins.ben = false ∧ t.pins.bchg = false ∧
      t.fB F.BAT_DMSTAT_DMFLAG = true ∧ t.fB F.HST_STAT_AWAKE = false ∧
      (s.f F.DEV_PWRSTAT_LSTAGE < 4 → t.nvm.state.dmFlag = true) ∧ t.flash = s.flash)) ∧
  (∀ s (p : Port), s.portLive p = true → s.noImg = false → s.dev = .dormouse → completes (.wake p key) s (fun t => t.dev = .boot ∧
    t.f F.DEV_PWRSTAT_BCAUSE = 5 ∧ (s.f F.DEV_PWRSTAT_LSTAGE < 4 → t.nvm.state.dmFlag = false))) ∧
  (∀ s, s.dev = .dormouse → completes .dormouseBusWake s (fun t => t.dev = .boot ∧ t.f F.DEV_PWRSTAT_BCAUSE = 5 ∧
    (s.f F.DEV_PWRSTAT_LSTAGE < 4 → t.nvm.state.dmFlag = false))) ∧
  (∀ s, s.dev ≠ .boot → s.fB F.BAT_DMSTAT_DMHOLD = true → completes .dmholdClear s (fun t => t.fB F.BAT_DMSTAT_DMHOLD = false ∧
    t.fB F.BAT_DMSTAT_WOKE = true ∧ t.fB F.BAT_DMSTAT_DMFLAG = false ∧ (s.f F.DEV_PWRSTAT_LSTAGE < 4 → t.nvm.state.dmFlag = false)))

/-- EN, DIE TEMPERATURES, HEARTBEAT, ECC AND SUPPLIES. EN's level is taken and ONREQ follows it (R33); a reading is
shown, at 140 degrees suspends capture and raises DIE_HOT, and at 150 degrees forces SAFE (R19); a lost heartbeat
forces SAFE and leaves the history (R18); 5 ms into SAFE every gate is off (R276); ECC errors are counted (R24); the
supply measurements are shown (R49). The clauses rest on the readings of log entry 70. -/
def Obligations.PinAndWatchEventsComplete : Prop :=
  (∀ s (level : Bool) (lowMs : BitVec 16), completes (.enChange level lowMs) s (fun t => t.pins.en = level ∧ t.fB F.DEV_STATE_ONREQ =
    ((State.onreqVal { s with pins := { s.pins with en := level } }) && s.dev != .boot && !s.noImg))) ∧
  (∀ s (lowMs : BitVec 16), s.pins.en = false → s.fB F.DEV_ONOFF_CFG_EN_USE = true → 1 ≤ lowMs.toNat → s.dev ≠ .boot →
    completes (.enChange true lowMs) s (fun t => (∀ f : Fin 3, t.fB F.FEED_STAT_TRIPLAT f = false) ∧ t.f F.INP_RETRY_REMAIN = 0)) ∧
  (∀ s (tctl : BitVec 16) (tsns : BitVec 16), s.power.powered = true → s.power.resetLow = false → s.dev ≠ .boot → tctl.toInt < 140 * 128 → tsns.toInt < 140 * 128 →
    completes (.dieTempReading tctl tsns) s (fun t => t.fS F.DEV_TEMP_TCTL = tctl.toInt ∧ t.fS F.DEV_TEMP_TSNS = tsns.toInt ∧
      s.onlyRegs t [F.DEV_TEMP_TCTL.addr 0])) ∧
  (∀ s (tctl tsns : BitVec 16), s.power.powered = true → s.power.resetLow = false → s.dev ≠ .boot →
    (140 * 128 ≤ tctl.toInt ∨ 140 * 128 ≤ tsns.toInt) → tctl.toInt < 150 * 128 → tsns.toInt < 150 * 128 → s.power.dieHot = false →
    completes (.dieTempReading tctl tsns) s (fun t => t.power.dieHot = true ∧ t.srcBit Src.dieHot = true ∧
      t.stream.suspTick = some s.clk.tmr ∧ t.dev = s.dev ∧ t.pins = s.pins ∧ t.ph = s.ph ∧ t.cl = s.cl)) ∧
  (∀ s (tctl : BitVec 16) (tsns : BitVec 16), s.power.powered = true → s.power.resetLow = false → (150 * 128 ≤ tctl.toInt ∨ 150 * 128 ≤ tsns.toInt) →
    completes (.dieTempReading tctl tsns) s (fun t => t.dev = .safe ∧ (s.dev ≠ .safe → t.pins.pen = 0 ∧ t.pins.ext = 0 ∧
      t.pins.pwrgd = false ∧ t.pins.ben = false ∧ t.pins.bchg = false ∧ t.fB F.SEQ_STAT_SFDRV = true))) ∧
  (∀ s, s.power.dieHot = true → 1 ≤ s.f F.DEV_PWRSTAT_LSTAGE → completes .dieHotResume s (fun t => t.srcBit Src.dieHot = false ∧
    State.onlyRegs { s with power := { s.power with dieHot := false } } t [F.SUPV_SRC_SRC.addr (Src.dieHot / 32)])) ∧
  (∀ s, s.power.dieHot = true → s.f F.DEV_PWRSTAT_LSTAGE = 0 → completes .dieHotResume s (fun t => t.power.dieHot = false ∧
    t.stream.suspTick = none ∧ t.srcBit Src.dieHot = false)) ∧
  (∀ s, s.dev ≠ .safe → completes .heartbeatLoss s (fun t => t.dev = .safe ∧ t.power.heartbeatLost = true ∧
    t.sup.hist = s.sup.hist ∧ t.pins.pen = 0 ∧ t.pins.ext = 0 ∧ t.pins.pwrgd = false ∧ t.pins.ben = false ∧ t.pins.bchg = false ∧
    (∀ p : Fin 48, (t.ph.get p).out = .mid) ∧ (∀ n : Fin 16, (t.cl.get n).run = .off) ∧ t.fB F.SEQ_STAT_SFDRV = true)) ∧
  (∀ s, s.dev = .safe → completes .safeFeedGateOff s (fun t => t.power.safeGatesOff = true ∧ t.dev = .safe ∧
    (∀ f : Fin 3, t.gate f = .off ∧ t.fB F.FEED_STAT_CONDUCT f = false) ∧ t.fB F.INP_STAT_VBUSQ = false)) ∧
  (∀ s, completes (.eccError .corrected) s (fun t =>
    t.f F.DEV_ECC_CORR = Nat.min (2 ^ F.DEV_ECC_CORR.w - 1) (s.f F.DEV_ECC_CORR + 1) ∧ s.onlyRegs t [F.DEV_ECC_CORR.addr 0])) ∧
  (∀ s, completes (.eccError .service) s (fun t => t.srcBit Src.svcEcc = true ∧
    t.f F.DEV_ECC_UNCORR = Nat.min (2 ^ F.DEV_ECC_UNCORR.w - 1) (s.f F.DEV_ECC_UNCORR + 1) ∧ s.reportsOnly t [F.DEV_ECC_UNCORR.addr 0])) ∧
  (∀ s, completes (.eccError .buffer) s (fun t => t.srcBit Src.memEcc = true ∧
    t.f F.DEV_ECC_UNCORR = Nat.min (2 ^ F.DEV_ECC_UNCORR.w - 1) (s.f F.DEV_ECC_UNCORR + 1) ∧ s.reportsOnly t [F.DEV_ECC_UNCORR.addr 0])) ∧
  (∀ s (v5 : BitVec 16) (vin : BitVec 16), s.power.powered = true → s.power.resetLow = false → completes (.supplyMeasure v5 vin) s (fun t =>
    t.f F.DEV_SUPPLY_V5 = v5.toNat ∧ t.f F.DEV_SUPPLY_VIN = vin.toNat ∧ s.onlyRegs t [F.DEV_SUPPLY_V5.addr 0]))

/-- THE TEST ACCESS PORT. In STANDBY or SAFE, EXTEST, CLAMP and HIGHZ are loaded; in any other state they select
BYPASS (R55, R56). IDCODE, SAMPLE/PRELOAD and BYPASS are loaded in every state; a debug code halts the service core
where DEBUG_EN reads 1 and selects BYPASS otherwise (R70). None of them changes anything but the test port's own
state. The clauses rest on the readings of log entry 60. -/
def Obligations.TestPortInstructionsComplete : Prop :=
  (∀ s, completes .extest s (fun t => t.tap.inst = (if s.dev = .standby ∨ s.dev = .safe then .extest else .bypass) ∧ t.tap.ir = 0x00 ∧
    t.tap.halted = false ∧ t.tap.forcedMid = false ∧ t.tap.boundary = s.tap.boundary ∧ { t with tap := s.tap } = s)) ∧
  (∀ s, completes .clamp s (fun t => t.tap.inst = (if s.dev = .standby ∨ s.dev = .safe then .clamp else .bypass) ∧ t.tap.ir = 0x04 ∧
    t.tap.halted = false ∧ t.tap.forcedMid = false ∧ t.tap.boundary = s.tap.boundary ∧ { t with tap := s.tap } = s)) ∧
  (∀ s, completes .highz s (fun t => t.tap.inst = (if s.dev = .standby ∨ s.dev = .safe then .highz else .bypass) ∧ t.tap.ir = 0x05 ∧
    t.tap.halted = false ∧ t.tap.forcedMid = false ∧ t.tap.boundary = s.tap.boundary ∧ { t with tap := s.tap } = s)) ∧
  (∀ s, completes .idcode s (fun t => t.tap.inst = .idcode ∧ t.tap.ir = 0x01 ∧ t.tap.halted = false ∧
    t.tap.boundary = s.tap.boundary ∧ { t with tap := s.tap } = s)) ∧
  (∀ s cells, completes (.samplePreload cells) s (fun t => t.tap.inst = .samplePreload ∧ t.tap.ir = 0x02 ∧ t.tap.halted = false ∧
    (∀ k : Fin 115, t.cells k = cells.getD k 0) ∧ { t with tap := s.tap } = s)) ∧
  (∀ s (k : BitVec 4), completes (.debug k) s (fun t => t.tap.ir.toNat = 0x80 + k.toNat ∧ t.tap.boundary = s.tap.boundary ∧
    t.tap.inst = (if s.fB F.IMG_BOOTSTAT_DEBUG_EN then .debug else .bypass) ∧
    t.tap.halted = s.fB F.IMG_BOOTSTAT_DEBUG_EN ∧ { t with tap := s.tap } = s)) ∧
  (∀ s (code : BitVec 8), completes (.bypass code) s (fun t => t.tap.inst = .bypass ∧ t.tap.ir = code ∧ t.tap.halted = false ∧
    t.tap.boundary = s.tap.boundary ∧ { t with tap := s.tap } = s))

/-- THE ROOT REFERENCE. The sixteenth edge in a row qualifies SYNC_IN, and an edge of a qualified SYNC_IN that the
root follows shows its PPM (R80, R81); the fourth missing period in a row begins holdover, or free running where XIN
is lost (R81, R83); the end of steering sets ALIGNED (R82); a lost XIN leaves a root that does not follow SYNC_IN
free-running (R83); a count of the clock monitor outside 376 to 424 forces SAFE (R84). The clauses rest on the
readings of log entry 34. -/
def Obligations.RootReferenceEventsComplete : Prop :=
  (∀ s (hi lo gap : BitVec 32) (ppm : Int), s.edgeOk hi.toNat lo.toNat gap.toNat = true → s.clk.qualified = true → s.f F.CLK_STAT_SRC = 1 →
    -10000 ≤ ppm → ppm ≤ 10000 → completes (.syncEdge hi lo gap ppm) s (fun t => t.fS F.CLK_STAT_PPM = ppm ∧ t.clk.steering = true ∧
      t.clk.missing = 0 ∧ t.clk.alignCount = s.clk.alignCount + 1 ∧
      State.onlyRegs { s with clk := t.clk } t [F.CLK_STAT_PPM.addr 0])) ∧
  (∀ s (hi lo gap : BitVec 32) (ppm : Int), s.edgeOk hi.toNat lo.toNat gap.toNat = true → s.clk.qualified = false → s.clk.qualCount = 15 →
    -10000 ≤ ppm → ppm ≤ 10000 → completes (.syncEdge hi lo gap ppm) s (fun t => t.clk.qualified = true ∧
      t.srcBit Src.syncLoss = false ∧ (s.mayFollow = true → t.f F.CLK_STAT_SRC = 1 ∧ t.fB F.CLK_STAT_ALIGNED = false ∧
        t.fS F.CLK_STAT_PPM = ppm ∧ t.clk.steering = true) ∧ (s.mayFollow = false → t.f F.CLK_STAT_SRC = s.f F.CLK_STAT_SRC) ∧
      State.onlyRegs { s with clk := t.clk } t [F.CLK_STAT_SRC.addr 0, F.SUPV_SRC_SRC.addr (Src.syncLoss / 32)])) ∧
  (∀ s (hi : BitVec 32) (lo : BitVec 32) (gap : BitVec 32) (ppm : Int), s.edgeOk hi.toNat lo.toNat gap.toNat = false → completes (.syncEdge hi lo gap ppm) s (fun t => t = s)) ∧
  (∀ s, s.clk.qualified = true → 3 ≤ s.clk.missing → s.f F.CLK_STAT_SRC = 1 → completes .syncMissingPeriod s (fun t =>
    t.clk.qualified = false ∧ t.clk.steering = false ∧ t.fS F.CLK_STAT_PPM = 0 ∧ t.srcBit Src.syncLoss = true ∧
    t.f F.CLK_STAT_SRC = (if s.clk.xinDead then 3 else 2) ∧ (s.clk.xinDead = false → t.fB F.CLK_STAT_HOLDOVER = true) ∧
    State.reportsOnly { s with clk := t.clk } t [F.CLK_STAT_SRC.addr 0])) ∧
  (∀ s, s.clk.qualified = true → s.clk.missing < 3 → completes .syncMissingPeriod s (fun t =>
    t = { s with clk := { s.clk with missing := s.clk.missing + 1, steering := false, alignEdge := 0 } })) ∧
  (∀ s, s.f F.CLK_STAT_SRC = 1 → s.clk.steering = true → completes .syncAligned s (fun t => t.fB F.CLK_STAT_ALIGNED = true ∧
    t.f F.CLK_STAT_SRC = 1 ∧ s.onlyRegs t [F.CLK_STAT_ALIGNED.addr 0])) ∧
  (∀ s, completes .xinLoss s (fun t => t.fB F.CLK_STAT_XINLOSS = true ∧ t.clk.xinDead = true ∧ t.srcBit Src.xinLoss = true ∧
    t.f F.CLK_STAT_SRC = (if s.f F.CLK_STAT_SRC = 1 then 1 else 3) ∧
    State.reportsOnly { s with clk := { s.clk with xinDead := true } } t [F.CLK_STAT_SRC.addr 0])) ∧
  (∀ s (count : BitVec 16), s.dev ≠ .boot → 376 ≤ count.toNat → count.toNat ≤ 424 → completes (.clockMonitorWindow count) s (fun t =>
    t.srcBit Src.clkMon = false ∧ s.onlyRegs t [F.SUPV_SRC_SRC.addr (Src.clkMon / 32)])) ∧
  (∀ s (count : BitVec 16), s.dev ≠ .boot → (count.toNat < 376 ∨ 424 < count.toNat) → completes (.clockMonitorWindow count) s (fun t =>
    t.srcBit Src.clkMon = true ∧ t.dev = .safe ∧ (s.dev ≠ .safe → t.pins.pen = 0 ∧ t.pins.ext = 0 ∧ t.pins.pwrgd = false ∧
      (∀ n : Fin 16, (t.cl.get n).run = .off) ∧ t.fB F.SEQ_STAT_SFDRV = true)))

/-- TIMERS. For a timer of no other feature and in no pair: a write of its control word is stored; a count loads at
the next tick (R87); a compare is stored, and is armed unless the count has just passed it (R90, R91); an action word
is stored (R96); RELEASE returns every register to its reset value (R88). A linked pair takes both words of a count
together (R92). The clauses rest on the readings of log entry 18. -/
def Obligations.TimerWritesComplete : Prop :=
  (∀ s (p : Port) (n : Fin 32) (v : Word), s.hostOpen p → s.tmForeign n = false → s.linked n = false → F.TM_CTRL_RELEASE.get v = 0 → F.TM_CTRL_LINK.get v = 0 →
    completes (.timerCtrlWrite p n v) s (fun t => t.reg (F.TM_CTRL_RUN.addr n) = v &&& 0xFFFF3FFF ∧
      State.onlyRegs { s with img := t.img } t [F.TM_CTRL_RUN.addr n])) ∧
  (∀ s (p : Port) (n : Fin 32) (v : Word), s.hostOpen p → (∀ o ∈ s.img.own, ¬ (o.cls = 2 ∧ o.idx = n.val)) → s.linked n = false → F.TM_CTRL_RELEASE.get v = 0 →
    F.TM_CTRL_LINK.get v = 0 → completes (.timerCtrlWrite p n v) s (fun t => t.owner 2 n = 0x0E)) ∧
  (∀ s (p : Port) (n : Fin 32), s.hostOpen p → s.tmForeign n = false → s.linked n = false → completes (.timerRelease p n) s (fun t =>
    t.tm.get n = {} ∧ (∀ k : Fin 5, t.reg (0x2A00 + 8 * n.val + k.val) = regReset (0x2A00 + 8 * n.val + k.val)) ∧
    State.onlyRegs { s with img := t.img, tm := s.tm.set n {} } t ((List.range 5).map (fun k => 0x2A00 + 8 * n.val + k)))) ∧
  (∀ s (p : Port) (n : Fin 32) (v : Word), s.hostOpen p → s.tmForeign n = false → s.linked n = false → completes (.timerCntWrite p n v) s (fun t =>
    (t.tm.get n).load = some v ∧ { t with img := s.img, tm := s.tm } = s ∧ ∀ k, k ≠ n → t.tm.get k = s.tm.get k)) ∧
  (∀ s (p : Port) (n : Fin 32) (v : Word), s.hostOpen p → s.tmForeign n = false → s.tmForeign (timerMate n) = false → s.linkedHigh n = true →
    completes (.timerCntWrite p n v) s (fun t => (t.tm.get n).load = some v ∧
      (t.tm.get (timerMate n)).load = (s.tm.get (timerMate n)).hold ∧ { t with img := s.img, tm := s.tm } = s)) ∧
  (∀ s (p : Port) (n : Fin 32) (v : Word), s.hostOpen p → s.tmForeign n = false → s.linked n = false →
    (s.tmCount n + 2 ^ 32 - v.toNat) % 2 ^ 32 ≥ s.f F.TM_CTRL_LATEWIN n → completes (.timerCompareWrite p n .a v) s (fun t =>
      t.reg (F.TM_CMPA_CMPA.addr n) = v ∧ (t.tm.get n).armA = true ∧ (t.tm.get n).fireA = false ∧
      (t.tm.get n).armB = (s.tm.get n).armB ∧ State.onlyRegs { s with img := t.img, tm := t.tm } t [F.TM_CMPA_CMPA.addr n])) ∧
  (∀ s (p : Port) (n : Fin 32) (v : Word), s.hostOpen p → s.tmForeign n = false → s.linked n = false →
    (s.tmCount n + 2 ^ 32 - v.toNat) % 2 ^ 32 < s.f F.TM_CTRL_LATEWIN n → completes (.timerCompareWrite p n .b v) s (fun t =>
      t.reg (F.TM_CMPB_CMPB.addr n) = v ∧ (t.tm.get n).armB = (s.f F.TM_CTRL_LATEACT n != 1) ∧
      (t.tm.get n).fireB = (s.f F.TM_CTRL_LATEACT n == 2) ∧ t.fBit F.TM_LATE_LATE 0 n = true ∧
      State.onlyRegs { s with img := t.img, tm := t.tm } t [F.TM_CMPB_CMPB.addr n, F.TM_LATE_LATE.addr 0])) ∧
  (∀ s (p : Port) (n : Fin 32) (v : Word), s.hostOpen p → s.tmForeign n = false → s.linked n = false → F.TM_ACT_ACTA.get v < 4 → F.TM_ACT_ACTB.get v < 4 →
    completes (.timerActWrite p n v) s (fun t => t.reg (F.TM_ACT_ACTA.addr n) = v &&& 0x03FF03FF ∧
      State.onlyRegs { s with img := t.img } t [F.TM_ACT_ACTA.addr n]))

/-- TIMERS, GLOBAL WRITES AND MATCHES. A global write starts, stops or clears every timer named, the pair of a linked
one as one timer, and no other (R89). A match sets its flag where its action code is not 0, and starts, stops or
clears its target as the code says (R96). A read of a 64-bit counter's low word answers that word and keeps the high
word for its reader (R93). -/
def Obligations.TimerGlobalsMatchesAndLinkedReadsComplete : Prop :=
  (∀ s (p : Port) (mask : Word), s.hostOpen p → (∀ n ∈ s.tmNamed mask, s.tmForeign n = false) → completes (.tmGstart p mask) s (fun t =>
    (∀ n ∈ s.tmNamed mask, t.fB F.TM_CTRL_RUN n = true) ∧
    s.onlyRegs t ((s.tmNamed mask).map (fun (n : Fin 32) => F.TM_CTRL_RUN.addr n)))) ∧
  (∀ s (p : Port) (mask : Word), s.hostOpen p → (∀ n ∈ s.tmNamed mask, s.tmForeign n = false) → completes (.tmGstop p mask) s (fun t =>
    (∀ n ∈ s.tmNamed mask, t.fB F.TM_CTRL_RUN n = false) ∧
    s.onlyRegs t ((s.tmNamed mask).map (fun (n : Fin 32) => F.TM_CTRL_RUN.addr n)))) ∧
  (∀ s (p : Port) (mask : Word), s.hostOpen p → (∀ n ∈ s.tmNamed mask, s.tmForeign n = false) → completes (.tmGclr p mask) s (fun t =>
    (∀ n ∈ s.tmNamed mask, (t.tm.get n).load = some 0 ∧ (s.linked n = true → (t.tm.get (timerMate n)).load = some 0)) ∧
    (∀ n, n ∉ s.tmNamed mask → timerMate n ∉ s.tmNamed mask → t.tm.get n = s.tm.get n) ∧ { t with tm := s.tm } = s)) ∧
  (∀ s (n : Fin 32) (c : Cmp), s.linkedHigh n = false → (s.tmAction n c).1 ≠ 0 → completes (.timerMatch n c) s (fun t => t.fBit (matchFld c) 0 n = true)) ∧
  (∀ s (n : Fin 32), s.linkedHigh n = false → (s.tmAction n .b).1 = 0 → completes (.timerMatch n .b) s (fun t => t = s)) ∧
  (∀ s (n k : Fin 32), s.linkedHigh n = false → s.linkedHigh k = false → s.tmAction n .b = (6, k.val) → completes (.timerMatch n .b) s (fun t =>
    t.fB F.TM_CTRL_RUN k = true ∧ s.onlyRegs t [F.TM_MATCHB_MATCHB.addr 0, F.TM_CTRL_RUN.addr k])) ∧
  (∀ s (n k : Fin 32), s.linkedHigh n = false → s.linkedHigh k = false → s.tmAction n .b = (7, k.val) → completes (.timerMatch n .b) s (fun t =>
    t.fB F.TM_CTRL_RUN k = false ∧ s.onlyRegs t [F.TM_MATCHB_MATCHB.addr 0, F.TM_CTRL_RUN.addr k])) ∧
  (∀ s (n k : Fin 32), s.linkedHigh n = false → s.linkedHigh k = false → s.tmAction n .b = (8, k.val) → completes (.timerMatch n .b) s (fun t =>
    (t.tm.get k).load = some 0 ∧ State.onlyRegs { s with tm := t.tm } t [F.TM_MATCHB_MATCHB.addr 0])) ∧
  (∀ s (p : Port) (c : Counter64), s.portLive p = true → s.noImg = false → (∀ k, c = .timer k → s.linked (Fin.ofNat 32 (2 * k.val)) = true) →
    completes (.linkedLowRead (portReader p) c) s (fun t => t.snapshot (portReader p) c = (s.counterWords c).2 ∧
      (p = .twoWire → t.port.resp = wordBytes (s.counterWords c).1) ∧ (p = .stream → t.port.sData = [(s.counterWords c).1]) ∧
      { t with port := s.port } = s)) ∧
  (∀ s (c : Counter64), (∀ k, c = .timer k → s.linked (Fin.ofNat 32 (2 * k.val)) = true) → completes (.linkedLowRead .service c) s (fun t =>
    t.snapshot .service c = (s.counterWords c).2 ∧ { t with port := s.port } = s))

/-- PHASE EDGES. An on-edge begins a high interval, unless the output is high, held by a Fox hold, or MINOFF still
runs (R102 to R104, R121); blanking ends (R113); the peak comparator, and the longest on-time, end the interval, low
for an active phase and at the mid level for one that has left the active set (R102, R105, R111, R114). -/
def Obligations.PhaseEdgesComplete : Prop :=
  (∀ s (p : Fin 48) (minOff : Bool), s.fB F.PH_STAT_ACTIVE p = true → (s.ph.get p).foxHold = false → (s.ph.get p).out ≠ .high → s.tooShort p = false →
    (minOff = true ∨ (s.ph.get p).minOffDone = true) → completes (.onEdge p minOff) s (fun t => (t.ph.get p).out = .high ∧
      (t.ph.get p).blanking = (s.f F.PH_BLANK_BLANK p != 0) ∧ (t.ph.get p).minOffDone = false ∧
      (∀ q, q ≠ p → t.ph.get q = s.ph.get q) ∧ { t with ph := s.ph } = s)) ∧
  (∀ s (p : Fin 48), s.fB F.PH_STAT_ACTIVE p = true → (s.ph.get p).foxHold = false → (s.ph.get p).out ≠ .high → s.tooShort p = false →
    (s.ph.get p).minOffDone = false → completes (.onEdge p false) s (fun t => (t.ph.get p).onDeferred = true ∧
      (t.ph.get p).out = (s.ph.get p).out ∧ { t with ph := s.ph } = s)) ∧
  (∀ s (p : Fin 48) (minOff : Bool), (s.fB F.PH_STAT_ACTIVE p = false ∨ (s.ph.get p).foxHold = true ∨ (s.ph.get p).out = .high) →
    completes (.onEdge p minOff) s (fun t => t = s)) ∧
  (∀ s (p : Fin 48), (s.ph.get p).blanking = true → completes (.blankingEnd p false) s (fun t => (t.ph.get p).blanking = false ∧
    (t.ph.get p).out = (s.ph.get p).out ∧ (∀ q, q ≠ p → t.ph.get q = s.ph.get q) ∧ { t with ph := s.ph } = s)) ∧
  (∀ s (p : Fin 48), (s.ph.get p).out = .high → (s.ph.get p).blanking = false → completes (.peakTrip p) s (fun t =>
    (t.ph.get p).out = (if s.fB F.PH_STAT_ACTIVE p then .low else .mid) ∧ (s.atPeak p = true → t.fB F.PH_STAT_PKLIM p = true ∧
      t.f F.PH_CNT_PKCNT p = Nat.min (2 ^ F.PH_CNT_PKCNT.w - 1) (s.f F.PH_CNT_PKCNT p + 1)) ∧
    (s.atPeak p = false → { t with ph := s.ph } = s) ∧ (∀ q, q ≠ p → t.ph.get q = s.ph.get q) ∧
    State.onlyRegs { s with ph := t.ph } t [F.PH_STAT_PKLIM.addr p, F.PH_CNT_PKCNT.addr p])) ∧
  (∀ s (p : Fin 48) (n : Fin 16), (s.ph.get p).out = .high → s.phCluster p = some n → s.fB F.CL_FSW_DIRECT n = false → completes (.maxonEnd p) s (fun t =>
    (t.ph.get p).out = (if s.fB F.PH_STAT_ACTIVE p then .low else .mid) ∧ t.fB F.PH_STAT_MAXON p = true ∧
    (t.ph.get p).blanking = false ∧ (∀ q, q ≠ p → t.ph.get q = s.ph.get q) ∧
    State.onlyRegs { s with ph := t.ph } t [F.PH_STAT_MAXON.addr p])) ∧
  (∀ s (p : Fin 48) (n : Fin 16), (s.ph.get p).out = .high → s.phCluster p = some n → s.fB F.CL_FSW_DIRECT n = true → s.demand n p < s.maxOn n →
    completes (.maxonEnd p) s (fun t => (t.ph.get p).out = (if s.fB F.PH_STAT_ACTIVE p then .low else .mid) ∧
      { t with ph := s.ph } = s)) ∧
  (∀ s (p : Fin 48), (s.ph.get p).foxHold = true → s.fB F.PH_STAT_FOXLAT p = false → completes (.foxHoldEnd p) s (fun t =>
    (t.ph.get p).foxHold = false ∧ (t.ph.get p).foxLeft = 0 ∧ (∀ q, q ≠ p → t.ph.get q = s.ph.get q) ∧ { t with ph := s.ph } = s))

/-- PHASE SENSE AND FOX TRIPS. A sample shows its code and is calibrated with the values in force (R110, R181); an
exceeded average ceiling is latched and raised (R114); a Fox trip takes the output to the mid level and holds it,
counted, and latched or to be retried as FOXMODE says (R116, R117); a failed delay line is raised for each phase in
use (R101). -/
def Obligations.PhaseSenseAndFoxComplete : Prop :=
  (∀ s (p : Fin 48) (code : BitVec 12), code ≠ 0 → code ≠ 4095 → completes (.phaseSample p code) s (fun t => t.f F.PH_IRAW_CODE p = code.toNat ∧
    (t.ph.get p).iCal = s.calCurrent p code.toNat ∧ (t.ph.get p).rangeRun = 0 ∧
    (t.ph.get p).updAcc = ((s.ph.get p).updAcc.1 + s.calCurrent p code.toNat, (s.ph.get p).updAcc.2 + 1) ∧
    t.srcBit (Src.phIsrange p) = false ∧ (∀ q, q ≠ p → t.ph.get q = s.ph.get q) ∧
    State.onlyRegs { s with ph := t.ph } t [F.PH_IRAW_CODE.addr p, F.SUPV_SRC_SRC.addr (Src.phIsrange p / 32)])) ∧
  (∀ s (p : Fin 48), s.fB F.PH_STAT_ACTIVE p = true → completes (.averageCeilingExceeded p) s (fun t => t.fB F.PH_STAT_OCAVG p = true ∧
    t.srcBit (Src.phOcavg p) = true ∧ s.reportsOnly t [F.PH_STAT_OCAVG.addr p])) ∧
  (∀ s (p : Fin 48) (recent : BitVec 4) (n : Fin 16), s.phCluster p = some n → s.fB F.PH_FOX_FOXMODE p = true → recent.toNat < s.f F.PH_FOX_FOXMAX p →
    (s.cl.get n).run ≠ .checking → completes (.foxTrip p recent) s (fun t => (t.ph.get p).out = .mid ∧ (t.ph.get p).foxHold = true ∧
      (t.ph.get p).foxLeft = s.f F.PH_FOX_FOXHOLD p ∧ t.fB F.PH_STAT_FOX p = true ∧ t.srcBit (Src.phFox p) = true ∧
      t.f F.PH_CNT_FOXCNT p = Nat.min (2 ^ F.PH_CNT_FOXCNT.w - 1) (s.f F.PH_CNT_FOXCNT p + 1) ∧
      (∀ q, q ≠ p → t.ph.get q = s.ph.get q) ∧
      State.reportsOnly { s with ph := t.ph } t [F.PH_STAT_FOX.addr p, F.PH_CNT_FOXCNT.addr p])) ∧
  (∀ s (p : Fin 48) (recent : BitVec 4), s.fB F.PH_CFG_USED p = true → (s.fB F.PH_FOX_FOXMODE p = false ∨ s.f F.PH_FOX_FOXMAX p ≤ recent.toNat) →
    completes (.foxTrip p recent) s (fun t => (t.ph.get p).out = .mid ∧ (t.ph.get p).foxHold = true ∧
      t.fB F.PH_STAT_FOXLAT p = true ∧ t.fB F.PH_STAT_FOX p = true ∧ t.srcBit (Src.phFox p) = true)) ∧
  (∀ s (bad : BitVec 48), completes (.delayLineCalibration bad) s (fun t =>
    t.fB F.CLK_DLCAL_OK = phases.all (fun p => !(bad.getLsbD p && s.fB F.PH_CFG_USED p)) ∧
    (∀ p : Fin 48, bad.getLsbD p = true → s.fB F.PH_CFG_USED p = true → t.srcBit (Src.phLane p) = true) ∧
    s.reportsOnly t [F.CLK_DLCAL_OK.addr 0]))

/-- STARTING A CLUSTER. A frame start puts the calibration values, the phase count and the placement in force (R99,
R100, R181); a passed check waits for its delay and a failed one turns the cluster off, refused until BOOT (R118 to
R120); a soft start begins at 0, or at the output where it is pre-biased, with every available phase active (R138,
R139). The clauses rest on the readings of log entry 47. -/
def Obligations.ClusterStartCommandsComplete : Prop :=
  (∀ s (n : Fin 16), (s.cl.get n).ticking = true → (s.cl.get n).run = .off → completes (.frameStart n) s (fun t =>
    (t.cl.get n).ksF = s.f F.CL_KSCALE_KSCALE n ∧
    (∀ p ∈ s.clPhases n, t.ph.get p = { s.ph.get p with calF := (s.f F.PH_CAL_GREL p, s.fS F.PH_CAL_ZERO p) }) ∧
    (∀ p, p ∉ s.clPhases n → t.ph.get p = s.ph.get p) ∧ (∀ k, k ≠ n → t.cl.get k = s.cl.get k) ∧
    { t with cl := s.cl, ph := s.ph } = s)) ∧
  (∀ s (n : Fin 16), (s.cl.get n).ticking = true → (s.cl.get n).run = .on → (s.cl.get n).rsRun = none → (s.cl.get n).rsDrop = none →
    completes (.frameStart n) s (fun t => t.f F.CL_PHSTAT_M n = Nat.min (s.cl.get n).mNext (s.nAv n) ∧
      (∀ p ∈ s.clPhases n, (t.ph.get p).calF = (s.f F.PH_CAL_GREL p, s.fS F.PH_CAL_ZERO p)) ∧ t.pins = s.pins ∧
      (∀ k, k ≠ n → t.cl.get k = s.cl.get k))) ∧
  (∀ s (n : Fin 16), (s.cl.get n).ticking = true → (s.cl.get n).run = .on → (s.cl.get n).rsRun = none → (s.cl.get n).rsDrop = none →
    s.f F.CL_PHSTAT_M n = Nat.min (s.cl.get n).mNext (s.nAv n) → s.fB F.CL_FSW_INTLV n = false → completes (.frameStart n) s (fun t =>
      (∀ q ∈ (s.activePhases n).zipIdx, (t.ph.get q.1).place = evenPlace q.2 (s.activePhases n).length (s.f F.CL_FSW_PERIOD n)) ∧
      { t with cl := s.cl, ph := s.ph } = s)) ∧
  (∀ s (n : Fin 16) (vmax : BitVec 16), (s.cl.get n).run = .checking → s.srcGood n = true → completes (.prestartCheckPass n vmax) s (fun t =>
    (t.cl.get n).run = .delay ∧ t.f F.CL_PSCSTAT_RESULT n = 1 ∧ t.f F.CL_PSCSTAT_VMAX n = vmax.toNat ∧
    (∀ k, k ≠ n → t.cl.get k = s.cl.get k) ∧ State.onlyRegs { s with cl := t.cl } t [F.CL_PSCSTAT_RESULT.addr n])) ∧
  (∀ s (n : Fin 16) mean vmax vbus us, (s.cl.get n).run = .checking → completes (.prestartCheckFail n mean vmax vbus us) s (fun t =>
    (t.cl.get n).run = .off ∧ t.pins.pen.getLsbD n = false ∧ t.f F.CL_PSCSTAT_RESULT n = 2 ∧ t.f F.CL_PSCSTAT_VMAX n = vmax.toNat ∧
    t.fB F.CL_PSCSTAT_REFUSED n = true ∧ (∀ k ∈ s.downClusters n, t.fB F.CL_PSCSTAT_REFUSED k = true) ∧
    t.srcBit (Src.clHsshort n) = true ∧ (∀ p, mean = some p → t.f F.CL_PSCSTAT_PHASE n = p.val ∧ t.fB F.PH_STAT_HSSHORT p = true))) ∧
  (∀ s (n : Fin 16) (out : BitVec 16), (s.cl.get n).run = .delay → (s.cl.get n).rsDrop = none → completes (.softStartBegin n out) s (fun t =>
    (t.cl.get n).run = .softStart ∧ (t.cl.get n).acc = 0 ∧ t.fB F.CL_VSTAT_SSRUN n = true ∧ t.fB F.CL_VSTAT_SSDONE n = false ∧
    (t.cl.get n).vramp = 65536 * (if s.fB F.CL_SS_PREBIAS n then Nat.min (s.f F.CL_VSET_S n) out.toNat else 0) ∧
    t.f F.CL_PHSTAT_M n = s.nAv n ∧ (t.cl.get n).lw = 0 ∧ (∀ k, k ≠ n → t.cl.get k = s.cl.get k) ∧
    t.pins = s.pins ∧ { t with regs := s.regs, cl := s.cl, ph := s.ph } = s))

/-- THE LOOP. An update whose cluster does not switch counts its checkpoint and changes no register but LE16's (R124,
R165); one in regulation, with no warning, injection or transition, computes e, acc and u by R125 to R130. A set-point
in range is stored (R134, R135). A lead warning of class 1 to 7 loads lw, opens its window and brings every phase on
(R141, R142, R154); an invalid pulse is flagged; a host's 1 to SUSP hears the pins again (R144); an injection is
enabled where R146 allows it. The clauses rest on the readings of log entries 9 and 49. -/
def Obligations.LoopCommandsComplete : Prop :=
  (∀ s (n : Fin 16) fine coarse, (s.cl.get n).ticking = true → s.engineOk n = true → (s.cl.get n).run = .off →
    completes (.loopUpdate n fine coarse) s (fun t => (t.cl.get n).seqNo = (s.cl.get n).seqNo + 1 ∧ (t.cl.get n).acc = (s.cl.get n).acc ∧
      ((t.cl.get n).seqNo.getLsbD 0 = false → (t.cl.get n).frameA.isSome = true ∧ (t.cl.get n).frameB = (s.cl.get n).frameB) ∧
      ((t.cl.get n).seqNo.getLsbD 0 = true → (t.cl.get n).frameB.isSome = true ∧ (t.cl.get n).frameA = (s.cl.get n).frameA) ∧
      (∀ k, k ≠ n → t.cl.get k = s.cl.get k) ∧ State.onlyRegs { s with cl := t.cl, ph := t.ph } t [F.LE16_STAT_STATE.addr 0])) ∧
  (∀ s (n : Fin 16) fine coarse, (s.cl.get n).ticking = true → s.engineOk n = true → (s.cl.get n).run = .on → s.f F.CL_VSET_S n = (s.cl.get n).sForce →
    s.fB F.CL_VSTAT_TRANS n = false → (s.cl.get n).lw = 0 → s.fB F.CL_INJ_EN n = false → (s.cl.get n).noKick = false →
    completes (.loopUpdate n fine coarse) s (fun t =>
      let e := (loopError (s.f F.CL_VSTAT_VREFEFF n) fine coarse).1
      let acc := BitVec.ofInt 48 ((s.cl.get n).acc.toInt + s.f F.CL_GAIN_KI n * e)
      t.fS F.CL_ERR_E n = e ∧ (t.cl.get n).ePrev = e ∧ (t.cl.get n).acc = acc ∧
      t.fS F.CL_IOUT_U n = clampI (s.uLo n) (s.uHi n) (roundAway ((s.loopGain n e * e : Int) / (256 : Rat) +
        ((s.f F.CL_GAIN_KD n : Int) * (e - (s.cl.get n).ePrev) : Int) / (16 : Rat) + (acc.toInt : Rat) / (2 ^ 20 : Nat) +
        ((s.cl.get n).injI : Rat))) ∧ (t.cl.get n).run = .on)) ∧
  (∀ s (p : Port) (n : Fin 16) (v : BitVec 16), s.hostOpen p → State.checkChanged (s.hostStore (F.CL_VSET_S.addr n) (v.setWidth 32)) [F.CL_VSET_S.addr n] = none →
    completes (.vsetWrite p n v) s (fun t => t.f F.CL_VSET_S n = v.toNat ∧ s.onlyRegs t [F.CL_VSET_S.addr n])) ∧
  (∀ s (pin : Fin 4) (w : BitVec 16) (n : Fin 16), s.leadCluster pin = some n → (s.cl.get n).run = .on → (s.cl.get n).suspMask.getLsbD pin = false → (s.cl.get n).lw = 0 →
    4 ≤ w.toNat → w.toNat < 60 → completes (.leadWarningPulse pin w) s (fun t =>
      (t.cl.get n).lw = (leadClass w.toNat * s.f F.CL_LEAD_LWSTEP n * 100 : Nat) ∧ t.f F.CL_LEADSTAT_CLASS n = leadClass w.toNat ∧
      (t.cl.get n).lwWin = s.f F.CL_LEAD_LWWIN n * 40 ∧ (t.cl.get n).lwRef = (s.cl.get n).iLoad ∧
      t.fB F.CL_PHSTAT_HOLDALL n = true ∧ (∀ k, k ≠ n → t.cl.get k = s.cl.get k) ∧ t.pins = s.pins)) ∧
  (∀ s (pin : Fin 4) (w : BitVec 16) (n : Fin 16), s.leadCluster pin = some n → (s.cl.get n).run = .on → (s.cl.get n).suspMask.getLsbD pin = false → 60 ≤ w.toNat →
    completes (.leadWarningPulse pin w) s (fun t => t.fB F.CL_LEADSTAT_INVALID n = true ∧ s.onlyRegs t [F.CL_LEADSTAT_INVALID.addr n])) ∧
  (∀ s (p : Port) (n : Fin 16), s.hostOpen p → completes (.leadSuspendClear p n) s (fun t => t.fB F.CL_LEADSTAT_SUSP n = false ∧
    (t.cl.get n).suspMask = 0 ∧ (t.cl.get n).falseRun = Vector.replicate 4 0 ∧ (∀ k, k ≠ n → t.cl.get k = s.cl.get k) ∧
    State.onlyRegs { s with cl := t.cl } t [F.CL_LEADSTAT_SUSP.addr n])) ∧
  (∀ s (p : Port) (n : Fin 16) (v : Word), s.hostOpen p → inRange (F.CL_INJ_EN.addr n) v = true → F.CL_INJ_EN.get v = 1 → s.fB F.CL_INJ_EN n = false →
    (∀ o ∈ s.img.own, ¬ (o.cls = 4 ∧ o.idx = 2)) → s.dev = .run → (s.cl.get n).run = .on → s.fB F.CL_VSTAT_SSDONE n = true →
    s.injRangeOk n v = true → completes (.injectionEnable p n v) s (fun t => t.fB F.CL_INJ_EN n = true ∧ t.fB F.CL_INJ_DONE n = false ∧
      t.owner 4 2 = 9 ∧ (t.cl.get n).injPhase = 0 ∧ (t.cl.get n).injPer = 0 ∧ t.f F.CAP_DIAG_WIDX = 0 ∧
      (∀ k, k ≠ n → t.cl.get k = s.cl.get k) ∧
      State.onlyRegs { s with cl := t.cl, img := t.img } t [F.CL_INJ_EN.addr n, F.CAP_DIAG_WIDX.addr 0])) ∧
  (∀ s (p : Port) (n : Fin 16) (v : Word), s.hostOpen p → inRange (F.CL_INJ_EN.addr n) v = true → F.CL_INJ_EN.get v = 0 → s.fB F.CL_INJ_EN n = false →
    completes (.injectionEnable p n v) s (fun t => t.fB F.CL_INJ_EN n = false ∧ t.f F.CL_INJ_PRBSLEN n = F.CL_INJ_PRBSLEN.get v ∧
      s.onlyRegs t [F.CL_INJ_EN.addr n]))

/-- PHASES WITHIN A CLUSTER. A balance step moves the trims only, within TRIMMAX, and begins new accumulations (R155);
the slow overload limit asks for capping at the fourth sum above OLIM_eff and ends at the sixteenth below 95% of it
(R159); a third frame with both open conditions removes the phase (R160, R162); an engine's failure is taken over from
its frame by LE16, or fails the spare (R166 to R170). The clauses rest on the readings of log entries 16 and 72. -/
def Obligations.PhaseGroupCommandsComplete : Prop :=
  (∀ s (n : Fin 16), completes (.balanceStep n) s (fun t => (t.cl.get n).balSkip = false ∧
    (∀ p ∈ s.clPhases n, (t.ph.get p).balAcc = (0, 0) ∧ (t.ph.get p).pkBal = false) ∧
    (∀ p, p ∉ s.clPhases n → t.ph.get p = s.ph.get p) ∧ (∀ k, k ≠ n → t.cl.get k = s.cl.get k) ∧
    State.onlyRegs { s with cl := t.cl, ph := t.ph } t ((List.range 8).map (fun j => F.CL_BTRIM_TLO.addr n + j)))) ∧
  (∀ s (n : Fin 16), (s.cl.get n).run = .on → s.fB F.CL_BAL_ROT n = false → s.f F.CL_BAL_KBAL n ≠ 0 → s.fB F.CL_PHSTAT_HOLDALL n = false →
    (s.cl.get n).balSkip = false → (∀ p ∈ s.activePhases n, (s.ph.get p).pkBal = false) → completes (.balanceStep n) s (fun t =>
      ∀ p ∈ s.activePhases n, (t.trim n (s.order p)).natAbs ≤ 10 * s.f F.CL_BAL_TRIMMAX n)) ∧
  (∀ s (n : Fin 16), (s.cl.get n).olOver = 3 → 100 * (s.f F.CL_OLSTAT_OLIMEFF n : Rat) < sumQ ((s.clPhases n).map (fun p => (s.ph.get p).iCal)) →
    completes (.overloadCompare n) s (fun t => t.fB F.CL_OLSTAT_CAPREQ n = true ∧ (t.cl.get n).olOver = 4 ∧
      (s.fB F.CL_OLSTAT_CAPREQ n = false → (t.f F.HST_PSTAT_IOUT n).testBit 5 = true) ∧
      State.onlyRegs { s with cl := t.cl } t [F.CL_OLSTAT_CAPREQ.addr n, F.HST_PSTAT_IOUT.addr n])) ∧
  (∀ s (n : Fin 16), (s.cl.get n).olUnder = 15 →
    sumQ ((s.clPhases n).map (fun p => (s.ph.get p).iCal)) < 95 / 100 * (100 * (s.f F.CL_OLSTAT_OLIMEFF n : Rat)) →
    completes (.overloadCompare n) s (fun t => t.fB F.CL_OLSTAT_CAPREQ n = false ∧ t.srcBit (Src.clOverload n) = false ∧
      State.onlyRegs { s with cl := t.cl } t [F.CL_OLSTAT_CAPREQ.addr n, F.SUPV_SRC_SRC.addr (Src.clOverload n / 32)])) ∧
  (∀ s (n : Fin 16), s.fB F.CL_OLSTAT_CAPREQ n = true → completes (.overloadTimeout n) s (fun t => t.fB F.CL_OLSTAT_OVLD n = true ∧
    t.srcBit (Src.clOverload n) = true ∧ s.reportsOnly t [F.CL_OLSTAT_OVLD.addr n])) ∧
  (∀ s (n : Fin 16) (byCmp : BitVec 16), completes (.phaseMonitorFrame n 0 0 byCmp) s (fun t =>
    (∀ p ∈ s.activePhases n, (t.ph.get p).openRun = 0 ∧ (t.ph.get p).stuckRun = 0) ∧
    (∀ p, p ∉ s.activePhases n → t.ph.get p = s.ph.get p) ∧ { t with ph := s.ph } = s)) ∧
  (∀ s (n : Fin 16) (k : Nat) (p : Fin 48), s.activePos n = [k] → s.posPhase n k = some p → (s.ph.get p).openRun = 2 → s.fBit F.CL_PHREM_REMMASK n k = false →
    completes (.phaseMonitorFrame n (BitVec.ofNat 16 (2 ^ k)) 0 0) s (fun t => t.fBit F.CL_PHREM_REMMASK n k = true ∧
      t.fB F.PH_STAT_ACTIVE p = false ∧ (t.ph.get p).out = .mid ∧ t.f F.CL_PHREM_CAUSE n = 1 ∧ t.srcBit (Src.phOpen p) = true)) ∧
  (∀ s (n : Fin 16) (cause : Fin 5) (slotBad : Bool) (missed gap : BitVec 16) (fr : Frame) (old : Bool), s.f F.LE16_STAT_STATE = 0 → (s.cl.get n).leFailed = false → cause < (2 : Fin 5) →
    (s.cl.get n).pickFrame slotBad true = some (fr, old) → completes (.loopEngineFailure n cause slotBad missed gap) s (fun t =>
      t.f F.LE16_STAT_STATE = 1 ∧ t.f F.LE16_STAT_CL = n.val ∧ t.f F.LE16_STAT_CAUSE = cause.val + 1 ∧
      t.fB F.LE16_STAT_OLDFRAME = old ∧ (t.cl.get n).leFailed = true ∧ t.srcBit (Src.leFail n) = true ∧
      t.f F.LE16_STAT_GAP = gap.toNat ∧ (∀ k, k ≠ n → t.cl.get k = s.cl.get k) ∧ t.pins = s.pins)) ∧
  (∀ s (n : Fin 16) (cause : Fin 5) (slotBad : Bool) (missed : BitVec 16) (gap : BitVec 16), s.f F.LE16_STAT_STATE = 0 → (s.cl.get n).leFailed = false → cause < (2 : Fin 5) →
    (s.cl.get n).pickFrame slotBad true = none → completes (.loopEngineFailure n cause slotBad missed gap) s (fun t =>
      t.f F.LE16_STAT_STATE = 3 ∧ t.f F.LE16_STAT_CL = n.val ∧ (t.cl.get n).leFailed = true ∧ t.srcBit Src.leSparefail = true ∧
      (∀ k, k ≠ n → t.cl.get k = s.cl.get k) ∧ t.pins = s.pins))

/-- PRECISION SENSING. A window adds each shunt's power to its energy and shows VBUS and the hold energy (R173, R193,
R216); a slot's results become PRECV of their clusters (R174), and slot 5 takes the path's offset; TARGET follows the
mean of the qualified results within TRIMLIM (R178); a mid-level window moves ZERO one eighth of the way (R180); a
ratio step starts and completes by R182 and R183; a qualified point joins its source's fit alone (R185); the
calibration area takes the calibration registers (R186). The clauses rest on the readings of log entries 9 and 10. -/
def Obligations.PrecisionCommandsComplete : Prop :=
  (∀ s i v, s.dev ≠ .boot → completes (.precisionWindow i v) s (fun t =>
    (∀ f : Fin 4, (t.fd.get f).energy = (s.fd.get f).energy +
      (match s.feedSense f with | some k => s.hvMv k (v.get k) | none => 0) * s.shuntMa f (i.get f) / 1000 / 4) ∧
    t.inp = { s.inp with vbus := (s.hvMv 3 (v.get 3)).floor.toNat } ∧
    State.onlyRegs { s with fd := t.fd, prec := t.prec, inp := t.inp } t
      (F.INP_EHOLD_EHOLD.addr 0 :: (List.range 4).flatMap (fun k => [F.PREC_SNAP_SNAP.addr k, F.PREC_SNAPT_VALID.addr k])))) ∧
  (∀ s slot r fast clean ref, s.dev ≠ .boot → slot < (4 : Fin 6) → completes (.precisionSlotResult slot r fast clean ref) s (fun t =>
    (∀ j : Fin 4, t.reg (F.CL_PRECV_PRECV.addr (4 * j.val + slot.val)) = BitVec.ofInt 32 (roundAway (precUv ((r.get j).toNat - s.prec.muxOff) *
      (s.gDiv (Fin.ofNat 16 (4 * j.val + slot.val)) : Rat)))) ∧
    State.onlyRegs { s with cl := t.cl, prec := t.prec } t ((List.range 4).flatMap (fun j =>
      [F.CL_PRECV_PRECV.addr (4 * j + slot.val), F.PREC_SNAP_SNAP.addr (4 + j), F.PREC_SNAPT_VALID.addr (4 + j)])))) ∧
  (∀ s r fast clean ref, s.dev ≠ .boot → completes (.precisionSlotResult 5 r fast clean ref) s (fun t =>
    t.prec.muxOff = (r.get 3).toNat)) ∧
  (∀ s, s.fB F.PREC_STAT_REFBAD = false → completes .trimTargetUpdate s (fun t =>
    (∀ n : Fin 16, (s.fB F.CL_TLCFG_TRIMEN n && s.dev == .run && (s.cl.get n).run == .on && (s.cl.get n).trimNew != 0) = true →
      t.fS F.CL_TRIM_TARGET n = clampI (-(s.f F.CL_TLCFG_TRIMLIM n : Int)) (s.f F.CL_TLCFG_TRIMLIM n)
        (-(roundAway (meanQ (s.cl.get n).trimD))) ∧ (t.cl.get n).trimNew = 0) ∧
    (∀ n : Fin 16, (s.fB F.CL_TLCFG_TRIMEN n && s.dev == .run && (s.cl.get n).run == .on && (s.cl.get n).trimNew != 0) = false →
      t.f F.CL_TRIM_TARGET n = s.f F.CL_TRIM_TARGET n ∧ t.cl.get n = s.cl.get n) ∧
    State.reportsOnly { s with cl := t.cl } t (clusters.flatMap (fun (n : Fin 16) => [F.CL_TRIM_TARGET.addr n, F.CL_CALSTAT_TRIMSAT.addr n])))) ∧
  (∀ s (p : Fin 48) (mean : Rat), (s.ph.get p).out = .mid → (s.ph.get p).foxHold = false → s.fB F.PREC_STAT_REFBAD = false →
    completes (.zeroLearnWindow p mean false) s (fun t => t.fS F.PH_CAL_ZERO p =
      satS 16 (s.fS F.PH_CAL_ZERO p + roundAway ((16 * mean - s.fS F.PH_CAL_ZERO p) / 8)) ∧ s.onlyRegs t [F.PH_CAL_ZERO.addr p])) ∧
  (∀ s (n : Fin 16) (k : Nat) (p : Fin 48), s.rsAllowed n = true → s.rsCandidate n = some k → s.posPhase n k = some p → k ∈ s.activePos n →
    (s.ipeak p : Rat) / 10 ≤ (s.ph.get p).iCal → completes (.ratioStepStart n true false) s (fun t =>
      (t.cl.get n).rsRun = some ⟨k, 0, (s.cl.get n).rsAgain.isSome, false⟩ ∧ (∀ j, j ≠ n → t.cl.get j = s.cl.get j) ∧
      { t with cl := s.cl } = s)) ∧
  (∀ s (n : Fin 16) (a b0 u0 b1 u1 : Rat) (run : RsRun) (p : Fin 48), (s.cl.get n).rsRun = some run → (s.cl.get n).rsDrop.isSome = true → run.abandoned = false →
    s.posPhase n run.pos = some p → b1 ≠ b0 → absQ (u1 - u0) ≤ (s.f F.CL_RSCFG_RSTOL n : Rat) / 10000 * absQ u0 →
    absQ (a / (b1 - b0) - 1) ≤ (s.f F.CL_PHFAIL_SNSDEV n : Rat) / 1000 → completes (.ratioStepComplete n a b0 u0 b1 u1) s (fun t =>
      t.fS F.PH_RSSTAT_LASTDEV p = satS 16 (roundAway ((a / (b1 - b0) - 1) * 10000)) ∧
      t.f F.PH_RSSTAT_RSCNT p = Nat.min (2 ^ F.PH_RSSTAT_RSCNT.w - 1) (s.f F.PH_RSSTAT_RSCNT p + 1) ∧ (t.cl.get n).rsRun = none ∧
      (t.cl.get n).rsDrop = none ∧ (t.cl.get n).mNext = s.f F.CL_PHSTAT_M n + 1 ∧ (∀ j, j ≠ n → t.cl.get j = s.cl.get j) ∧
      State.onlyRegs { s with cl := t.cl } t (F.PH_RSSTAT_LASTDEV.addr p :: (s.clPhases n).map (fun (q : Fin 48) => F.PH_CAL_GREL.addr q)))) ∧
  (∀ s (src : Fin 17) (ps px : Rat) (pc ic : Vector Rat 16), s.ebQualified src (s.ebMembers src) = true → (s.eb.get src).theta = [] →
    completes (.energyBalancePoint src ps px pc ic) s (fun t => (∀ n ∈ s.ebMembers src,
      t.f F.CL_CALSTAT_NPTS n = Nat.min (2 ^ F.CL_CALSTAT_NPTS.w - 1) (s.f F.CL_CALSTAT_NPTS n + 1)) ∧
      (t.eb.get src).theta.length = 2 * (s.ebMembers src).length + 1 ∧ (∀ k, k ≠ src → t.eb.get k = s.eb.get k) ∧
      State.onlyRegs { s with eb := t.eb } t ((s.ebMembers src).flatMap (fun (n : Fin 16) =>
        [F.CL_CALSTAT_NPTS.addr n, F.CL_KSCALE_KSCALE.addr n])))) ∧
  (∀ s, s.f F.DEV_PWRSTAT_LSTAGE < 4 → completes .calibrationSave s (fun t =>
    (∀ p : Fin 48, (F.PH_CAL_GREL.addr p, s.reg (F.PH_CAL_GREL.addr p)) ∈ t.nvm.calib) ∧
    { t with nvm := { t.nvm with calib := s.nvm.calib } } = s))

/-- TELEMETRY AND AUTO-ZERO. A complete block of base samples puts its mean into the telemetry registers and begins
the next one (R188); reading a min or max register answers it and clears it (R189); a read snapshot is answered and no
longer valid (R175); CLR clears the energy (R193); an auto-zero starts with AZDONE 0 and stores the mean of its
sixteen windows (R193). -/
def Obligations.TelemetryCommandsComplete : Prop :=
  (∀ s (n : Fin 16), 2 ^ s.f F.CL_TLCFG_AVGK n ≤ (s.cl.get n).telV.2 → completes (.telemetryBlock (.cluster n)) s (fun t =>
    t.reg (F.CL_TVOUT_TVOUT.addr n) = BitVec.ofInt 32 (roundAway ((s.cl.get n).telV.1 / ((s.cl.get n).telV.2 : Rat))) ∧
    t.reg (F.CL_TIOUT_TIOUT.addr n) = BitVec.ofInt 32 (roundAway ((s.cl.get n).telI * 10 / ((s.cl.get n).telV.2 : Rat))) ∧
    t.reg (F.CL_TPOUT_TPOUT.addr n) = BitVec.ofInt 32 (roundAway ((s.cl.get n).telP / ((s.cl.get n).telV.2 : Rat))) ∧
    (t.cl.get n).telV = (0, 0) ∧ (∀ k, k ≠ n → t.cl.get k = s.cl.get k) ∧
    State.onlyRegs { s with cl := t.cl } t ((List.range 8).map (fun k => F.CL_TVOUT_TVOUT.addr n + k)))) ∧
  (∀ s (n : Fin 16), (s.cl.get n).telV.2 < 2 ^ s.f F.CL_TLCFG_AVGK n → completes (.telemetryBlock (.cluster n)) s (fun t => t = s)) ∧
  (∀ s (p : Fin 48) (n : Fin 16), s.phCluster p = some n → 2 ^ s.f F.CL_TLCFG_AVGK n ≤ (s.ph.get p).telAcc.2 → completes (.telemetryBlock (.phase p)) s (fun t =>
    t.reg (F.PH_ITEL_ITEL.addr p) = BitVec.ofInt 32 (roundAway ((s.ph.get p).telAcc.1 * 10 / ((s.ph.get p).telAcc.2 : Rat))) ∧
    (t.ph.get p).telAcc = (0, 0) ∧ State.onlyRegs { s with ph := t.ph } t [F.PH_ITEL_ITEL.addr p])) ∧
  (∀ s (f : Fin 4), 2 ^ s.f F.FEED_TCFG_AVGK f ≤ (s.fd.get f).tel.2.2.2 → completes (.telemetryBlock (.feed f)) s (fun t =>
    t.reg (F.FEED_V_V.addr f) = BitVec.ofInt 32 (roundAway ((s.fd.get f).tel.1 * 1000 / ((s.fd.get f).tel.2.2.2 : Rat))) ∧
    t.reg (F.FEED_I_I.addr f) = BitVec.ofInt 32 (roundAway ((s.fd.get f).tel.2.1 * 10 / ((s.fd.get f).tel.2.2.2 : Rat))) ∧
    t.reg (F.FEED_P_P.addr f) = BitVec.ofInt 32 (roundAway ((s.fd.get f).tel.2.2.1 / ((s.fd.get f).tel.2.2.2 : Rat))) ∧
    (t.fd.get f).tel = (0, 0, 0, 0) ∧ (t.fd.get f).energy = (s.fd.get f).energy ∧
    State.onlyRegs { s with fd := t.fd } t ((List.range 9).map (fun k => F.FEED_V_V.addr f + k)))) ∧
  (∀ s (m : MinMax), s.portLive .twoWire = true → s.noImg = false → completes (.minmaxRead .twoWire m) s (fun t =>
    t.port.resp = wordBytes (s.seen .twoWire (minMaxAddr m)) ∧ t.reg (minMaxAddr m) = clearRc (minMaxAddr m) (s.reg (minMaxAddr m)) ∧
    State.onlyRegs { s with port := t.port } t [minMaxAddr m])) ∧
  (∀ s (m : MinMax), s.portLive .stream = true → s.noImg = false → completes (.minmaxRead .stream m) s (fun t =>
    t.port.sStatus = 0 ∧ t.port.sData = [s.seen .stream (minMaxAddr m)] ∧
    t.reg (minMaxAddr m) = clearRc (minMaxAddr m) (s.reg (minMaxAddr m)) ∧ State.onlyRegs { s with port := t.port } t [minMaxAddr m])) ∧
  (∀ s (p : Port) (k : Fin 8), s.portLive p = true → s.noImg = false → completes (.precSnapRead p k) s (fun t => t.fB F.PREC_SNAPT_VALID k = false ∧
    (p = .twoWire → t.port.resp = wordBytes (s.seen p (F.PREC_SNAP_SNAP.addr k))) ∧
    (p = .stream → t.port.sData = [s.seen p (F.PREC_SNAP_SNAP.addr k)]) ∧
    State.onlyRegs { s with port := t.port } t [F.PREC_SNAPT_VALID.addr k])) ∧
  (∀ s (p : Port) (f : Fin 4), s.hostOpen p → completes (.energyClear p f) s (fun t => (t.fd.get f).energy = 0 ∧
    (∀ k, k ≠ f → t.fd.get k = s.fd.get k) ∧ { t with fd := s.fd } = s)) ∧
  (∀ s (f : Fin 3), s.fB F.FEED_TCFG_AZEN f = true → s.azQuiet f = true → completes (.autoZeroStart f) s (fun t =>
    t.fB F.FEED_AZ_AZDONE f = false ∧ (t.fd.get (feed4 f)).azRun = some (0, 0) ∧
    State.onlyRegs { s with fd := t.fd } t [F.FEED_AZ_AZDONE.addr f])) ∧
  (∀ s (f : Fin 3) (k : Nat) (sum : Int), (s.fd.get (feed4 f)).azRun = some (k, sum) → s.azQuiet f = true → 16 ≤ k → completes (.autoZeroComplete f) s (fun t =>
    t.fB F.FEED_AZ_AZDONE f = true ∧ t.f F.FEED_AZ_OFFSET f = ofSigned F.FEED_AZ_OFFSET.w (roundAway ((sum : Rat) / (k : Rat))) ∧
    (t.fd.get (feed4 f)).azRun = none ∧ State.onlyRegs { s with fd := t.fd } t [F.FEED_AZ_AZDONE.addr f]))

/-- SEATING, QUALIFICATION AND INRUSH. Qualified seating is shown, and with no retry time left clears the trip latches
(R199, R211); a lost seat is raised and takes ONREQ away in the board role (R33, R213); the unseat shutdown ends with
every cluster and gate off (R213); a complete inrush conducts (R201); VBUS is qualified while a feed conducts (R201);
a feed qualifies, and loses its qualification while it does not conduct (R202). The clauses rest on the readings of
log entry 23. -/
def Obligations.SeatingAndQualificationComplete : Prop :=
  (∀ s, s.fB F.INP_SEAT_SEATOK = false → s.dev = .boot → completes .seatQualified s (fun t => t.fB F.INP_SEAT_SEATOK = true ∧
    t.inp.reseatBoot = true ∧ State.onlyRegs { s with inp := { s.inp with reseatBoot := true } } t [F.INP_SEAT_SEATOK.addr 0])) ∧
  (∀ s, s.fB F.INP_SEAT_SEATOK = false → s.dev ≠ .boot → completes .seatQualified s (fun t => t.fB F.INP_SEAT_SEATOK = true ∧
    t.fB F.INP_SEAT_SEAT1 = true ∧ t.fB F.INP_SEAT_SEAT2 = true ∧ (s.shelf = false → s.f F.INP_RETRY_REMAIN = 0 →
      ∀ f : Fin 3, t.fB F.FEED_STAT_TRIPLAT f = false))) ∧
  (∀ s (a : Bool) (b : Bool), s.fB F.INP_SEAT_SEATOK = true → s.dev = .boot → completes (.seatLoss a b) s (fun t => t.fB F.INP_SEAT_SEATOK = false ∧
    t.fB F.INP_SEAT_SEAT1 = a ∧ t.fB F.INP_SEAT_SEAT2 = b ∧
    State.onlyRegs { s with inp := { s.inp with reseatBoot := false } } t [F.INP_SEAT_SEATOK.addr 0])) ∧
  (∀ s (a : Bool) (b : Bool), s.fB F.INP_SEAT_SEATOK = true → s.dev ≠ .boot → s.shelf = false → completes (.seatLoss a b) s (fun t =>
    t.fB F.INP_SEAT_SEATOK = false ∧ t.fB F.INP_SEAT_SEAT1 = a ∧ t.fB F.INP_SEAT_SEAT2 = b ∧ t.srcBit Src.seatLoss = true ∧
    t.fB F.DEV_STATE_ONREQ = false)) ∧
  (∀ s, s.inp.unseat = true → completes .unseatTimeout s (fun t => t.inp.unseat = false ∧ (∀ n : Fin 16, (t.cl.get n).run = .off) ∧
    (∀ f : Fin 3, t.gate f = .off ∧ t.fB F.FEED_STAT_CONDUCT f = false) ∧ t.inp.xfer = .idle ∧ t.fB F.INP_STAT_VBUSQ = false)) ∧
  (∀ s (f : Fin 3), s.gate f = .inrush → completes (.inrushComplete f) s (fun t => t.gate f = .conducting ∧ t.fB F.FEED_STAT_CONDUCT f = true ∧
    (s.shelf = false → t.f F.INP_STAT_SEL = f.val) ∧ (∀ g, g ≠ f → t.gate g = s.gate g) ∧
    State.onlyRegs { s with fd := t.fd, bat := t.bat, pins := { s.pins with ben := t.pins.ben, bchg := t.pins.bchg } } t
      [F.FEED_STAT_CONDUCT.addr f, F.INP_STAT_SEL.addr 0, F.DEV_STATE_HOLD.addr 0, F.FEED_STAT_QUAL.addr 2,
        F.BAT_STAT_RESTING.addr 0, F.BAT_CTRL_REST.addr 0])) ∧
  (∀ s, s.conducting.isSome = true → completes .vbusQualified s (fun t => t.fB F.INP_STAT_VBUSQ = true ∧
    s.onlyRegs t [F.INP_STAT_VBUSQ.addr 0])) ∧
  (∀ s (f : Fin 3), s.fB F.FEED_CFG_EN f = true → s.fB F.FEED_STAT_TRIPLAT f = false → f < (2 : Fin 3) → completes (.feedQualified f) s (fun t =>
    t.fB F.FEED_STAT_QUAL f = true)) ∧
  (∀ s, s.fB F.FEED_CFG_EN 2 = true → s.fB F.FEED_STAT_TRIPLAT 2 = false → s.fB F.INP_HOLDCAP_HSRC = true →
    completes (.feedQualified 2) s (fun t => t.fB F.FEED_STAT_QUAL 2 = true)) ∧
  (∀ s (f : Fin 3), s.gate f ≠ .conducting → completes (.feedQualificationLoss f) s (fun t => t.fB F.FEED_STAT_QUAL f = false ∧
    s.onlyRegs t [F.FEED_STAT_QUAL.addr f]))

/-- TRANSFERS. In the board role a return, an undervoltage, an overvoltage or a reverse current of the conducting feed
turns its gate off and begins a transfer (R203 to R205); the old gate off, the dead time and the new gate follow in
turn (R205); a gate that does not confirm is raised (R206); a write of PIN moves the board, or waits for the transfer
(R203, R219). The clauses rest on the readings of log entry 53. -/
def Obligations.FeedTransfersComplete : Prop :=
  (∀ s (f c : Fin 3), s.shelf = false → s.inp.xfer = .idle → s.f F.INP_PRIO_PIN = 3 → s.feedOk f = true → s.conducting = some c →
    s.standsHigher f c = true → completes (.returnDelayExpiry f) s (fun t => t.gate c = .discharging ∧ t.inp.xfer = .waitOff ∧
      t.inp.old = some c.val ∧ t.fB F.INP_STAT_XFER = true ∧ t.f F.INP_STAT_SEL = 3 ∧ t.fB F.FEED_STAT_CONDUCT c = false ∧
      State.onlyRegs { s with fd := t.fd, inp := t.inp } t [F.FEED_STAT_CONDUCT.addr c, F.FEED_CNT_XAWAY.addr c, F.INP_STAT_SEL.addr 0,
        F.DEV_STATE_HOLD.addr 0])) ∧
  (∀ s (f : Fin 3), s.gate f = .conducting → s.shelf = false → s.inp.xfer = .idle → completes (.feedUv f) s (fun t => t.fB F.FEED_STAT_UV f = true ∧
    t.srcBit (Src.feedUv f) = true ∧ t.fB F.FEED_STAT_QUAL f = false ∧ t.gate f = .discharging ∧ t.inp.xfer = .waitOff ∧
    t.inp.old = some f.val ∧ State.reportsOnly { s with fd := t.fd, inp := t.inp } t [F.FEED_STAT_UV.addr f, F.FEED_CNT_XAWAY.addr f,
      F.INP_STAT_SEL.addr 0, F.DEV_STATE_HOLD.addr 0])) ∧
  (∀ s (f : Fin 3), s.gate f = .conducting → s.shelf = false → s.inp.xfer = .idle → completes (.feedOv f) s (fun t => t.fB F.FEED_STAT_OV f = true ∧
    t.srcBit (Src.feedOv f) = true ∧ t.fB F.FEED_STAT_QUAL f = false ∧ t.gate f = .discharging ∧ t.inp.xfer = .waitOff ∧
    t.inp.old = some f.val ∧ State.reportsOnly { s with fd := t.fd, inp := t.inp } t [F.FEED_STAT_UV.addr f, F.FEED_CNT_XAWAY.addr f,
      F.INP_STAT_SEL.addr 0, F.DEV_STATE_HOLD.addr 0])) ∧
  (∀ s (f : Fin 3), s.gate f = .conducting → s.shelf = false → s.inp.xfer = .idle → completes (.feedRev f) s (fun t => t.fB F.FEED_STAT_REV f = true ∧
    t.srcBit (Src.feedRev f) = true ∧ t.fB F.FEED_STAT_QUAL f = s.fB F.FEED_STAT_QUAL f ∧ t.gate f = .discharging ∧
    t.inp.xfer = .waitOff ∧ t.inp.old = some f.val ∧ State.reportsOnly { s with fd := t.fd, inp := t.inp } t [F.FEED_STAT_UV.addr f,
      F.FEED_CNT_XAWAY.addr f, F.INP_STAT_SEL.addr 0, F.DEV_STATE_HOLD.addr 0])) ∧
  (∀ s (f : Fin 3), s.inp.xfer = .waitOff → s.leaving = some f → completes .transferGateOff s (fun t => t.gate f = .off ∧ t.inp.xfer = .deadTime ∧
    t.inp.old = s.inp.old ∧ (∀ g, g ≠ f → t.gate g = s.gate g) ∧ { t with fd := s.fd, inp := s.inp } = s)) ∧
  (∀ s (f : Fin 3), s.inp.xfer = .deadTime → s.selected s.inp.old = some f → completes .transferDeadTimeEnd s (fun t => t.gate f = .charging ∧
    t.inp.xfer = .charging ∧ (∀ g, g ≠ f → t.gate g = s.gate g) ∧ { t with fd := s.fd, inp := s.inp } = s)) ∧
  (∀ s, s.inp.xfer = .deadTime → s.selected s.inp.old = none → s.inp.queuedTrig = none → s.inp.queuedPin = none →
    completes .transferDeadTimeEnd s (fun t => t.fB F.INP_STAT_NOFEED = true ∧ t.fB F.INP_STAT_XFER = false ∧
      t.srcBit Src.feedNone = true ∧ t.inp.xfer = .idle ∧ t.inp.old = none ∧
      State.reportsOnly { s with inp := t.inp } t [F.INP_STAT_NOFEED.addr 0])) ∧
  (∀ s (gap : BitVec 16) (f : Fin 3), s.inp.xfer = .charging → feeds3.find? (fun g => s.gate g == .charging) = some f → s.inp.queuedTrig = none →
    s.inp.queuedPin = none → completes (.transferComplete gap) s (fun t => t.gate f = .conducting ∧ t.inp.xfer = .idle ∧
      t.inp.old = none ∧ t.fB F.INP_STAT_XFER = false ∧ t.f F.INP_STAT_LASTGAP = gap.toNat ∧ t.fB F.FEED_STAT_CONDUCT f = true ∧
      t.f F.INP_XCNT_XCNT = Nat.min (2 ^ F.INP_XCNT_XCNT.w - 1) (s.f F.INP_XCNT_XCNT + 1) ∧
      (s.shelf = false → t.f F.INP_STAT_SEL = f.val))) ∧
  (∀ s (f : Fin 3), s.inp.xfer = .waitOff → s.leaving = some f → completes .feedGate s (fun t => t.fB F.FEED_STAT_GATEF f = true ∧
    t.srcBit (Src.feedGate f) = true ∧ s.reportsOnly t [F.FEED_STAT_GATEF.addr f])) ∧
  (∀ s (p : Port) (pin : BitVec 2), s.hostOpen p → s.inp.xfer = .idle → completes (.feedPinWrite p pin) s (fun t => t.f F.INP_PRIO_PIN = pin.toNat)) ∧
  (∀ s (p : Port) (pin : BitVec 2), s.hostOpen p → s.inp.xfer ≠ .idle → completes (.feedPinWrite p pin) s (fun t =>
    t = { s with inp := { s.inp with queuedPin := some pin.toNat } }))

/-- THE BREAKER. A trip turns the gate off, latches with its cause, and starts the retry time, kept in NVM (R201,
R206, R208 to R210, R212); TOGGLE in STANDBY, and the retry time's end after a reseat, clear every latch (R211, R212);
current limit is shown, and its fault timer clears (R208). The clauses rest on the readings of log entry 20. -/
def Obligations.BreakerCommandsComplete : Prop :=
  (∀ s (f : Fin 3) (amps : Int) (vbus : BitVec 20), s.gate f = .inrush → completes (.inrushTimeout f amps vbus) s (fun t => t.gate f = .off ∧
    t.fB F.FEED_STAT_TRIPLAT f = true ∧ t.f F.FEED_STAT_CAUSE f = 3 ∧ t.fB F.FEED_STAT_QUAL f = false ∧
    t.f F.INP_RETRY_REMAIN = s.f F.INP_RETRY_RETRYT ∧ t.fB F.INP_RETRY_RUNNING = true ∧ t.srcBit (Src.feedTrip f) = true ∧
    (s.f F.DEV_PWRSTAT_LSTAGE < 4 → t.nvm.state.trip.getLsbD f = true ∧ (t.nvm.state.cause.get f).toNat = 3))) ∧
  (∀ s (f : Fin 3) (amps : Int) (vbus : BitVec 20), s.fB F.FEED_STAT_INLIM f = true → completes (.faultTimerTrip f amps vbus) s (fun t => t.gate f = .off ∧
    t.fB F.FEED_STAT_TRIPLAT f = true ∧ t.f F.FEED_STAT_CAUSE f = 1 ∧ t.fB F.FEED_STAT_INLIM f = false ∧
    t.f F.INP_RETRY_REMAIN = s.f F.INP_RETRY_RETRYT ∧ t.srcBit (Src.feedTrip f) = true ∧
    (s.f F.DEV_PWRSTAT_LSTAGE < 4 → t.nvm.state.trip.getLsbD f = true))) ∧
  (∀ s (f : Fin 3) (amps : Int) (vbus : BitVec 20), s.gate f ≠ .off → completes (.feedFox f amps vbus) s (fun t => t.gate f = .off ∧
    t.fB F.FEED_STAT_TRIPLAT f = true ∧ t.f F.FEED_STAT_CAUSE f = 2 ∧ t.inp.xfer = .idle ∧ t.fB F.INP_STAT_XFER = false ∧
    t.srcBit (Src.feedFox f) = true ∧ t.f F.FEED_CNT_TRIPS f = Nat.min (2 ^ F.FEED_CNT_TRIPS.w - 1) (s.f F.FEED_CNT_TRIPS f + 1) ∧
    (s.f F.DEV_PWRSTAT_LSTAGE < 4 → t.nvm.state.trip.getLsbD f = true))) ∧
  (∀ s (f : Fin 3) (amps : Int) (vbus : BitVec 20), s.inp.xfer = .waitOff → s.leaving = some f → completes (.gateConfirmTimeout amps vbus) s (fun t =>
    t.gate f = .off ∧ t.fB F.FEED_STAT_GATEF f = true ∧ t.fB F.FEED_STAT_TRIPLAT f = true ∧ t.f F.FEED_STAT_CAUSE f = 4 ∧
    t.inp.xfer = .idle ∧ t.srcBit (Src.feedTrip f) = true)) ∧
  (∀ s (p : Port), s.hostOpen p → s.dev = .standby → completes (.toggle p key) s (fun t => (∀ f : Fin 3, t.fB F.FEED_STAT_TRIPLAT f = false) ∧
    t.f F.INP_RETRY_REMAIN = 0 ∧ t.fB F.INP_RETRY_RUNNING = false ∧ t.fB F.INP_SEAT_RESEATPEND = false ∧
    (s.f F.DEV_PWRSTAT_LSTAGE < 4 → t.nvm.state.trip = 0))) ∧
  (∀ s, s.fB F.INP_RETRY_RUNNING = true → s.dev ≠ .boot → completes .retryTimerExpiry s (fun t => t.f F.INP_RETRY_REMAIN = 0 ∧
    t.fB F.INP_RETRY_RUNNING = false ∧ (s.fB F.INP_SEAT_RESEATPEND = true → ∀ f : Fin 3, t.fB F.FEED_STAT_TRIPLAT f = false) ∧
    (s.fB F.INP_SEAT_RESEATPEND = false → State.onlyRegs { s with nvm := t.nvm } t [F.INP_RETRY_REMAIN.addr 0]))) ∧
  (∀ s, s.fB F.INP_RETRY_RUNNING = true → s.f F.DEV_PWRSTAT_LSTAGE < 4 → completes .retryTimerSave s (fun t =>
    t.nvm.state.remain.toNat = s.f F.INP_RETRY_REMAIN ∧ { t with nvm := { t.nvm with state := s.nvm.state } } = s)) ∧
  (∀ s (f : Fin 3), s.gate f = .conducting → completes (.currentLimitEntry f) s (fun t => t.fB F.FEED_STAT_INLIM f = true ∧
    (t.f F.HST_PSTAT_INPUT (16 + f.val)).testBit 1 = true ∧
    s.onlyRegs t [F.FEED_STAT_INLIM.addr f, F.HST_PSTAT_INPUT.addr (16 + f.val)])) ∧
  (∀ s (f : Fin 3), completes (.faultTimerClear f) s (fun t => t.fB F.FEED_STAT_INLIM f = false ∧ s.onlyRegs t [F.FEED_STAT_INLIM.addr f]))

/-- THE BUS LADDER AND THE LEAK CHECK. In the board role a deeper stage is shown and raised (R214); its release shows
the stage above (R215); a leak in STANDBY bars the start until VBUS is low (R218). -/
def Obligations.LadderAndLeakCommandsComplete : Prop :=
  (∀ s (k : Fin 5), s.shelf = false → s.f F.INP_STAT_BSTAGE ≤ k.val → completes (.busLadderEntry k) s (fun t =>
    t.f F.INP_STAT_BSTAGE = k.val + 1 ∧ t.srcBit Src.busLadder = true)) ∧
  (∀ s, s.shelf = false → s.f F.INP_STAT_BSTAGE = 0 → completes (.busLadderEntry 1) s (fun t =>
    t.f F.INP_STAT_BSTAGE = 2 ∧ t.cl = s.cl ∧ t.dev = s.dev ∧ t.ph = s.ph ∧ t.fd = s.fd ∧ t.seq = s.seq ∧
    t.pins = { s.pins with ben := t.pins.ben, bchg := t.pins.bchg })) ∧
  (∀ s, 1 ≤ s.f F.INP_STAT_BSTAGE → s.f F.INP_STAT_BSTAGE < 5 → completes .busLadderRelease s (fun t =>
    t.f F.INP_STAT_BSTAGE = s.f F.INP_STAT_BSTAGE - 1 ∧ (s.f F.INP_STAT_BSTAGE ≠ 3 → t.cl = s.cl ∧ t.ph = s.ph) ∧ t.dev = s.dev)) ∧
  (∀ s, s.dev = .standby → s.gateBusy = false → completes .feedLeak s (fun t => t.fB F.INP_STAT_LEAK = true ∧
    t.srcBit Src.feedLeak = true ∧ t.startBarred = true ∧
    State.reportsOnly { s with inp := { s.inp with leakBar := true } } t [F.INP_STAT_LEAK.addr 0])) ∧
  (∀ s, s.inp.leakBar = true → completes .feedLeakClear s (fun t => t.inp.leakBar = false ∧ t.srcBit Src.feedLeak = false)) ∧
  (∀ s, s.inp.leakBar = true → s.dev ≠ .standby → completes .feedLeakClear s (fun t =>
    State.onlyRegs { s with inp := { s.inp with leakBar := false } } t [F.SUPV_SRC_SRC.addr (Src.feedLeak / 32)]))

/-- THE BATTERY. A step counts charge and shows the estimate, the reference age counting (R225, R228, R232); a reading
in range gives T_B and one out of range three times the default (R222); a step of current moves R0 by one sixteenth
(R227); a rest is granted, and completes as a reference point (R230); the contactor counts as closed (R231); UVLAT is
set and cleared (R235); SNAP writes the state block with its CRC (R239); RESTORE is taken or refused with its code
(R240). The clauses rest on the readings of log entries 26, 27 and 52. -/
def Obligations.BatteryCommandsComplete : Prop :=
  (∀ s (i : Fin 6) (amps : Rat) (volts : Rat) (steady : Bool) (fresh : Bool), s.fB F.BAT_CFG_EN i = true → s.dev ≠ .boot → s.estSkip i = true →
    completes (.estimatorStep i amps volts steady fresh) s (fun t => (t.bat.get i).z = (s.bat.get i).z ∧
      (t.bat.get i).charge = (s.bat.get i).charge ∧ (t.bat.get i).refAgeMs = (s.bat.get i).refAgeMs + 100 ∧
      t.f F.BAT_STAT_REFAGE i = Nat.min 65535 (((s.bat.get i).refAgeMs + 100) / 3600000) ∧ t.dev = s.dev ∧ t.cl = s.cl ∧ t.fd = s.fd)) ∧
  (∀ s (i : Fin 6) (amps : Rat) (volts : Rat) (steady : Bool) (fresh : Bool), s.fB F.BAT_CFG_EN i = true → s.dev ≠ .boot → s.estSkip i = false → (s.bat.get i).restorePend = false →
    completes (.estimatorStep i amps volts steady fresh) s (fun t => (t.bat.get i).charge = (s.bat.get i).charge + amps / 10 ∧
      (t.bat.get i).started = true ∧ (t.bat.get i).impAge = (s.bat.get i).impAge + 100 ∧
      t.fS F.BAT_CAP_Z i = satS 16 (roundAway ((t.bat.get i).z * 10000)) ∧
      t.f F.BAT_CAP_Q i = Nat.min 65535 ((t.bat.get i).q / 10) ∧ (∀ k, k ≠ i → k ≠ 0 → t.bat.get k = s.bat.get k) ∧ t.dev = s.dev ∧
      t.cl = s.cl ∧ t.fd = s.fd)) ∧
  (∀ s (i : Fin 6) (code : BitVec 12), 40 ≤ code.toNat → code.toNat ≤ 4000 → s.fB F.BAT_STAT_THFLT i = false → completes (.bthReading i code) s (fun t =>
    (t.bat.get i).tb = s.bthTemp i code.toNat ∧ (t.bat.get i).thBad = 0 ∧ t.fB F.BAT_STAT_THFLT i = false ∧
    t.srcBit (Src.batTh i) = false)) ∧
  (∀ s (i : Fin 6) (code : BitVec 12), (code.toNat < 40 ∨ 4000 < code.toNat) → (s.bat.get i).thBad = 2 → completes (.bthReading i code) s (fun t =>
    (t.bat.get i).tb = s.fS F.BAT_TWIN_TDEF i * 256 ∧ t.fB F.BAT_STAT_THFLT i = true ∧ t.srcBit (Src.batTh i) = true)) ∧
  (∀ s (i : Fin 6) (di : Rat) (vpre : Rat) (v1ms : Rat) (v10ms : Option Rat), s.fB F.BAT_STAT_RESTING i = false → s.inp.xfer = .idle → di ≠ 0 →
    (s.f F.BAT_STEP_ZSTEP i : Rat) ≤ absQ di * 10 → completes (.impedanceStep i di vpre v1ms v10ms) s (fun t =>
      (t.bat.get i).r0 = (s.bat.get i).r0 + ((vpre - v1ms) / (s.nCell i * di) - (s.bat.get i).r0) / 16 ∧
      (t.bat.get i).impAge = 0 ∧ (t.bat.get i).impEver = true ∧ t.f F.BAT_IMP_R0 i = satU 16 (roundAway ((t.bat.get i).r0 * 100000)) ∧
      (∀ k, k ≠ i → t.bat.get k = s.bat.get k) ∧
      State.onlyRegs { s with bat := t.bat } t [F.BAT_IMP_R0.addr i, F.BAT_RC1_R.addr i])) ∧
  (∀ s (p : Port) (i : Fin 6), s.hostOpen p → completes (.batRestWrite p i false) s (fun t => t.fB F.BAT_STAT_RESTING i = false ∧
    t.fB F.BAT_CTRL_REST i = false ∧ State.onlyRegs { s with bat := t.bat, pins := { s.pins with ben := t.pins.ben, bchg := t.pins.bchg } } t
      [F.BAT_STAT_RESTING.addr i, F.BAT_CTRL_REST.addr i, F.BAT_STAT_RESTING.addr 0, F.BAT_CTRL_REST.addr 0, F.FEED_STAT_QUAL.addr 2])) ∧
  (∀ s (p : Port) (i : Fin 6), s.hostOpen p → i ≠ 0 → completes (.batRestWrite p i true) s (fun t => t.fB F.BAT_STAT_RESTING i = true ∧
    t.fB F.BAT_CTRL_REST i = true)) ∧
  (∀ s (i : Fin 6) (volts : Rat), s.fB F.BAT_STAT_RESTING i = true → completes (.restComplete i volts) s (fun t => t.fB F.BAT_STAT_RESTING i = false ∧
    (t.bat.get i).z = s.ocvInv i (volts / s.nCell i) (s.modelTemp i) ∧ (t.bat.get i).refAgeMs = 0 ∧ t.f F.BAT_STAT_LASTREF i = 2 ∧
    t.fB F.BAT_STAT_RESTREQ i = false)) ∧
  (∀ s, s.pins.ben = true → s.benLevel = true → s.shelf = false → completes .contactorSettled s (fun t =>
    (t.bat.get 0).benLong = true ∧ t.pins.ben = true ∧ (∀ k, k ≠ 0 → t.bat.get k = s.bat.get k) ∧ t.dev = s.dev)) ∧
  (∀ s (i : Fin 6), s.fB F.BAT_CFG_EN i = true → completes (.packUvCut i) s (fun t => t.fB F.BAT_STAT_UVLAT i = true ∧
    t.srcBit (Src.batUvcut i) = true ∧ (s.shelf = false → i = 0 → t.pins.ben = false))) ∧
  (∀ s (p : Port) (i : Fin 6), s.hostOpen p → completes (.uvclr p i) s (fun t => t.fB F.BAT_STAT_UVLAT i = false ∧ t.srcBit (Src.batUvcut i) = false)) ∧
  (∀ s (p : Port) (i : Fin 6), s.hostOpen p → completes (.snap p i) s (fun t =>
    (∀ k : Fin 31, t.sblk i k = (s.blockWords i).getD k 0) ∧ t.sblk i 31 = crcWords (s.blockWords i) ∧
    s.onlyRegs t ((List.range 32).map (fun k => sblkBase i + k)))) ∧
  (∀ s (p : Port) (i : Fin 6), s.hostOpen p → s.restoreCode i = 0 → completes (.restore p i) s (fun t => (t.bat.get i).restorePend = true ∧
    (∀ k, k ≠ i → t.bat.get k = s.bat.get k) ∧ { t with bat := s.bat } = s)) ∧
  (∀ s (p : Port) (i : Fin 6), s.hostOpen p → s.restoreCode i ≠ 0 → completes (.restore p i) s (fun t => t.f F.BAT_STAT_RESTREJ i = s.restoreCode i ∧
    s.onlyRegs t [F.BAT_STAT_RESTREJ.addr i]))

/-- THE SEQUENCER'S STEPS. A complete power-up step starts the next, and the last enters RUN with PWRGD asserted
unless a cluster of PGMASK is bad (R31, R247, R254); a pending off deasserts PWRGD (R255); a complete power-down step
starts the one below, and step 0 ends in STANDBY with OFFLAT (R250, R256); a partial shutdown ends after its lowest
step (R251). A timeout sets UPFAIL, forces the step on, or holds (R248); FORCE runs the next step (R248). The clauses
rest on the readings of log entry 21. -/
def Obligations.SequencerStepsComplete : Prop :=
  (∀ s (inwin : BitVec 16) (below : BitVec 16) (pgin : BitVec 8), s.dev = .sequp → s.seq.stepOpen = true → (s.sample inwin below pgin).upDone (s.f F.SEQ_STAT_STEP) = true →
    s.fB F.SEQ_STAT_PENDOFF = false → s.f F.SEQ_STAT_STEP + 1 < s.f F.SEQ_CFG_NSTEP → s.f F.SEQ_STAT_STEP < 31 →
    completes (.seqStepComplete false inwin below pgin) s (fun t => t.f F.SEQ_STAT_STEP = s.f F.SEQ_STAT_STEP + 1 ∧
      t.f F.SEQ_STAT_HIGHEST = Nat.max (s.f F.SEQ_STAT_STEP + 1) (s.f F.SEQ_STAT_HIGHEST) ∧ t.seq.stepOpen = true ∧ t.dev = .sequp ∧
      t.pins.pgin = pgin ∧ (s.f F.SEQ_STEP_OBJ (s.f F.SEQ_STAT_STEP + 1) = 3 →
        t.pins.ext.getLsbD (s.f F.SEQ_STEP_INDEX (s.f F.SEQ_STAT_STEP + 1) % 8) = true) ∧ t.fd = s.fd)) ∧
  (∀ s (inwin : BitVec 16) (below : BitVec 16) (pgin : BitVec 8), s.dev = .sequp → s.seq.stepOpen = true → (s.sample inwin below pgin).upDone (s.f F.SEQ_STAT_STEP) = true →
    s.fB F.SEQ_STAT_PENDOFF = false → s.f F.SEQ_CFG_NSTEP ≤ s.f F.SEQ_STAT_STEP + 1 →
    completes (.seqStepComplete false inwin below pgin) s (fun t => t.dev = .run ∧ t.fB F.SEQ_STAT_ACTIVE = false ∧
      t.seq.stepOpen = false ∧ t.fB F.HST_STAT_AWAKE = true ∧ t.pins.pwrgd = !t.pwrgdBad ∧ t.cl = s.cl ∧ t.ph = s.ph ∧ t.fd = s.fd)) ∧
  (∀ s (inwin : BitVec 16) (below : BitVec 16) (pgin : BitVec 8), s.dev = .sequp → s.seq.stepOpen = true → (s.sample inwin below pgin).upDone (s.f F.SEQ_STAT_STEP) = true →
    s.fB F.SEQ_STAT_PENDOFF = true → completes (.seqStepComplete false inwin below pgin) s (fun t => t.pins.pwrgd = false ∧
      t.fB F.SEQ_STAT_PENDOFF = false)) ∧
  (∀ s (inwin : BitVec 16) (below : BitVec 16) (pgin : BitVec 8), s.dev = .seqdn → s.seq.stepOpen = true → (s.sample inwin below pgin).downDone (s.f F.SEQ_STAT_STEP) = true →
    1 ≤ s.f F.SEQ_STAT_STEP → s.skipDown (s.f F.SEQ_STAT_STEP - 1) = false → completes (.seqStepComplete false inwin below pgin) s (fun t =>
      t.f F.SEQ_STAT_STEP = s.f F.SEQ_STAT_STEP - 1 ∧ t.fB F.SEQ_STAT_HELD = false ∧ t.seq.stepOpen = true ∧ t.dev = .seqdn ∧
      t.fd = s.fd)) ∧
  (∀ s (inwin : BitVec 16) (below : BitVec 16) (pgin : BitVec 8), s.dev = .seqdn → s.seq.stepOpen = true → (s.sample inwin below pgin).downDone 0 = true →
    s.f F.SEQ_STAT_STEP = 0 → s.f F.SEQ_CFG_TOFFMIN ≠ 0 → completes (.seqStepComplete false inwin below pgin) s (fun t =>
      t.dev = .standby ∧ t.fB F.SEQ_STAT_OFFLAT = true ∧ t.fB F.SEQ_STAT_ACTIVE = false ∧ t.seq.stepOpen = false ∧
      t.fB F.HST_STAT_AWAKE = false ∧ (s.shelf = false → ∀ f : Fin 3, t.gate f = .off))) ∧
  (∀ s (inwin below : BitVec 16) (pgin : BitVec 8) (k : Nat), s.seq.subStep = some k → (s.sample inwin below pgin).subDone k = true →
    (∀ j : Fin 32, s.inSubset j = false) → k ≤ 32 → completes (.seqStepComplete true inwin below pgin) s (fun t => t.seq.subset = 0 ∧
      t.seq.subRg = 0 ∧ t.seq.subStep = none ∧ t.fB F.SEQ_STAT_HELD = false ∧ t.dev = s.dev ∧ t.cl = s.cl)) ∧
  (∀ s, s.dev = .sequp → s.seq.stepOpen = true → s.f F.SEQ_STEP_OBJ (s.f F.SEQ_STAT_STEP) ≠ 5 → s.upDone (s.f F.SEQ_STAT_STEP) = false →
    s.fB F.SEQ_STEP_TOACT (s.f F.SEQ_STAT_STEP) = true → s.fB F.SEQ_STAT_PENDOFF = false → completes (.seqStepTimeout false) s (fun t =>
      t.fB F.SEQ_STAT_UPFAIL = true ∧ t.srcBit Src.seqTimeout = true ∧ t.pins.pwrgd = false ∧ t.dev ≠ .sequp)) ∧
  (∀ s, s.dev = .sequp → s.seq.stepOpen = true → s.f F.SEQ_STEP_OBJ (s.f F.SEQ_STAT_STEP) ≠ 5 → s.upDone (s.f F.SEQ_STAT_STEP) = false →
    s.fB F.SEQ_STEP_TOACT (s.f F.SEQ_STAT_STEP) = false → s.fB F.SEQ_STAT_PENDOFF = false →
    s.f F.SEQ_STAT_STEP + 1 < s.f F.SEQ_CFG_NSTEP → s.f F.SEQ_STAT_STEP < 31 → completes (.seqStepTimeout false) s (fun t =>
      t.fB F.SEQ_STAT_TOFORCED = true ∧ t.srcBit Src.seqTimeout = true ∧ t.f F.SEQ_STAT_STEP = s.f F.SEQ_STAT_STEP + 1 ∧
      t.dev = .sequp)) ∧
  (∀ s, s.dev = .seqdn → s.seq.stepOpen = true → s.f F.SEQ_STEP_OBJ (s.f F.SEQ_STAT_STEP) ≠ 5 → s.downDone (s.f F.SEQ_STAT_STEP) = false →
    s.fB F.SEQ_STEP_TOACT (s.f F.SEQ_STAT_STEP) = true → completes (.seqStepTimeout false) s (fun t => t.fB F.SEQ_STAT_HELD = true ∧
      t.srcBit Src.seqTimeout = true ∧ State.reportsOnly { s with
        seq := { s.seq with dec := t.seq.dec }, sup := { s.sup with hist := t.sup.hist } } t [F.SEQ_STAT_HELD.addr 0])) ∧
  (∀ s, s.dev = .seqdn → s.seq.stepOpen = true → s.f F.SEQ_STEP_OBJ (s.f F.SEQ_STAT_STEP) ≠ 5 → s.downDone (s.f F.SEQ_STAT_STEP) = false →
    s.fB F.SEQ_STEP_TOACT (s.f F.SEQ_STAT_STEP) = false → 1 ≤ s.f F.SEQ_STAT_STEP → s.skipDown (s.f F.SEQ_STAT_STEP - 1) = false →
    completes (.seqStepTimeout false) s (fun t => t.fB F.SEQ_STAT_TOFORCED = true ∧ t.srcBit Src.seqTimeout = true ∧
      t.f F.SEQ_STAT_STEP = s.f F.SEQ_STAT_STEP - 1 ∧ t.dev = .seqdn)) ∧
  (∀ s (k : Nat), s.seq.subStep = some k → s.subDone k = false → s.f F.SEQ_STEP_OBJ k ≠ 5 → s.fB F.SEQ_STEP_TOACT k = true →
    completes (.seqStepTimeout true) s (fun t => t.fB F.SEQ_STAT_HELD = true ∧ t.srcBit Src.seqTimeout = true ∧
      State.reportsOnly { s with seq := { s.seq with dec := t.seq.dec }, sup := { s.sup with hist := t.sup.hist } } t
        [F.SEQ_STAT_HELD.addr 0])) ∧
  (∀ s (p : Port), s.hostOpen p → s.fB F.SEQ_STAT_HELD = true → s.dev = .seqdn → s.seq.subStep = none → 1 ≤ s.f F.SEQ_STAT_STEP →
    s.skipDown (s.f F.SEQ_STAT_STEP - 1) = false → completes (.force p key) s (fun t => t.fB F.SEQ_STAT_HELD = false ∧
      t.f F.SEQ_STAT_STEP = s.f F.SEQ_STAT_STEP - 1 ∧ t.dev = .seqdn ∧ t.fd = s.fd)) ∧
  (∀ s (p : Port) (k : Nat), s.hostOpen p → s.fB F.SEQ_STAT_HELD = true → s.seq.subStep = some k → (∀ j : Fin 32, s.inSubset j = false) → k ≤ 32 →
    completes (.force p key) s (fun t => t.fB F.SEQ_STAT_HELD = false ∧ t.seq.subStep = none ∧ t.seq.subset = 0 ∧
      State.onlyRegs { s with seq := t.seq, sup := { s.sup with hist := t.sup.hist } } t [F.SEQ_STAT_HELD.addr 0]))

/-- THE WINDOWS, RESTARTS AND SYSFLT#. An armed window comparator flags and raises its source and the live bit reads 0
(R252, R253); the blanking ends; PWRGD returns (R254); TOFFMIN ends, and with an on request and no latch SEQUP is
entered (R34, R256); a short in soft start is off, counted, and latched or waits for its hiccup (R258); SYSFLT# is
read, held, stuck and released (R259). The clauses rest on the readings of log entry 51. -/
def Obligations.WindowsRestartsAndSysfltComplete : Prop :=
  (∀ s (n : Fin 16), (s.cl.get n).run = .on → s.fB F.CL_WSTAT_BLANKED n = false → s.srcBit (Src.clUv n) = false → completes (.clUv n) s (fun t =>
    t.fB F.CL_WSTAT_UVF n = true ∧ t.fB F.CL_WSTAT_INWIN n = false ∧ t.srcBit (Src.clUv n) = true ∧
    (t.f F.HST_PSTAT_VOUT n).testBit 4 = true ∧ State.reportsOnly { s with
      pins := { s.pins with pwrgd := t.pins.pwrgd }, seq := { s.seq with pwrgdWait := t.seq.pwrgdWait } } t [F.CL_WSTAT_UVF.addr n])) ∧
  (∀ s (n : Fin 16), s.pins.pen.getLsbD n = true → s.fB F.CL_WSTAT_BLANKED n = false → s.srcBit (Src.clOv n) = false → completes (.clOv n) s (fun t =>
    t.fB F.CL_WSTAT_OVF n = true ∧ t.fB F.CL_WSTAT_INWIN n = false ∧ t.srcBit (Src.clOv n) = true ∧
    (t.f F.HST_PSTAT_VOUT n).testBit 7 = true ∧ State.reportsOnly { s with
      pins := { s.pins with pwrgd := t.pins.pwrgd }, seq := { s.seq with pwrgdWait := t.seq.pwrgdWait } } t [F.CL_WSTAT_OVF.addr n])) ∧
  (∀ s (n : Fin 16), s.pins.pen.getLsbD n = true → s.srcBit (Src.clFov n) = false → completes (.clFov n) s (fun t =>
    t.fB F.CL_WSTAT_FOVF n = true ∧ t.fB F.CL_WSTAT_INWIN n = false ∧ t.srcBit (Src.clFov n) = true ∧
    (t.f F.HST_PSTAT_VOUT n).testBit 7 = true ∧ State.reportsOnly { s with
      pins := { s.pins with pwrgd := t.pins.pwrgd }, seq := { s.seq with pwrgdWait := t.seq.pwrgdWait } } t [F.CL_WSTAT_FOVF.addr n])) ∧
  (∀ s (n : Fin 16), (s.cl.get n).blankM = true → completes (.windowBlankEnd n) s (fun t => t.fB F.CL_WSTAT_BLANKED n = false ∧
    (t.cl.get n).blankM = false ∧ (∀ k, k ≠ n → t.cl.get k = s.cl.get k) ∧ State.onlyRegs { s with
      cl := t.cl, pins := { s.pins with pwrgd := t.pins.pwrgd }, seq := { s.seq with pwrgdWait := t.seq.pwrgdWait } } t [F.CL_WSTAT_BLANKED.addr n])) ∧
  (∀ s, s.dev = .run → s.seq.pwrgdWait = true → (∀ n : Fin 16, s.fBit F.SEQ_CFG_PGMASK 0 n = true →
    (s.cl.get n).run ≠ .off ∧ s.fB F.CL_WSTAT_INWIN n = true) → completes .pwrgdReturn s (fun t => t = { s with
      pins := { s.pins with pwrgd := true }, seq := { s.seq with pwrgdWait := false } })) ∧
  (∀ s, s.fB F.SEQ_STAT_OFFLAT = true → s.dev ≠ .standby → completes .minOffTimeExpiry s (fun t => t.fB F.SEQ_STAT_OFFLAT = false ∧
    t.fB F.SEQ_STAT_PENDON = false ∧ s.onlyRegs t [F.SEQ_STAT_OFFLAT.addr 0])) ∧
  (∀ s, s.fB F.SEQ_STAT_OFFLAT = true → s.dev = .standby → s.fB F.DEV_STATE_ONREQ = true →
    (s.setB F.SEQ_STAT_OFFLAT 0 false).startBarred = false → completes .minOffTimeExpiry s (fun t => t.fB F.SEQ_STAT_OFFLAT = false ∧
      t.dev = .sequp ∧ t.fB F.SEQ_STAT_ACTIVE = true ∧ t.f F.SEQ_STAT_STEP = 0 ∧ t.fB F.SEQ_STAT_DIR = false)) ∧
  (∀ s (n : Fin 16) (out : BitVec 12), (s.cl.get n).run = .softStart → s.fB F.CL_SEQC_SSRETRY n = false → completes (.softStartShort n out) s (fun t =>
    (t.cl.get n).run = .off ∧ t.fB F.CL_WSTAT_SSSHORT n = true ∧ t.srcBit (Src.clSsshort n) = true ∧ t.pins.pen.getLsbD n = false ∧
    t.f F.CL_WSTAT_HICCNT n = Nat.min (2 ^ F.CL_WSTAT_HICCNT.w - 1) (s.f F.CL_WSTAT_HICCNT n + 1) ∧ t.dev = s.dev)) ∧
  (∀ s (n : Fin 16) (out : BitVec 12), (s.cl.get n).run = .softStart → s.fB F.CL_SEQC_SSRETRY n = true → s.f F.CL_WSTAT_HICCNT n + 1 < s.f F.CL_SEQC_HICN n →
    s.f F.CL_WSTAT_HICCNT n + 1 < 2 ^ F.CL_WSTAT_HICCNT.w →
    completes (.softStartShort n out) s (fun t => (t.cl.get n).run = .off ∧ (t.cl.get n).hicWait = true ∧
      t.fB F.CL_WSTAT_SSSHORT n = s.fB F.CL_WSTAT_SSSHORT n ∧ t.f F.CL_WSTAT_HICCNT n = s.f F.CL_WSTAT_HICCNT n + 1 ∧ t.dev = s.dev)) ∧
  (∀ s (n : Fin 16), (s.cl.get n).hicWait = true → s.dev = .run ∨ s.dev = .sequp → s.nAv n ≠ 0 →
    (∀ p : Fin 48, (s.ph.get p).laneFail = false) → completes (.hiccupRestart n) s (fun t => (t.cl.get n).run = .checking ∧
      (t.cl.get n).hicWait = false ∧ t.pins.pen.getLsbD n = true ∧ t.f F.CL_PSCSTAT_RESULT n = 3 ∧
      (∀ k, k ≠ n → (t.cl.get k).run = (s.cl.get k).run))) ∧
  (∀ s, s.dev ≠ .boot → s.fB F.SEQ_STAT_SFDRV = false → completes .sysfltIn s (fun t => t.fB F.SEQ_STAT_SFLOW = true ∧
    t.srcBit Src.sysfltIn = true ∧ State.reportsOnly { s with seq := { s.seq with sfOther := true } } t [F.SEQ_STAT_SFLOW.addr 0])) ∧
  (∀ s, s.fB F.SEQ_STAT_SFDRV = true → completes (.sysfltHoldEnd true) s (fun t => t.fB F.SEQ_STAT_SFDRV = false ∧
    t.fB F.SEQ_STAT_SFLOW = true ∧ t.seq.sfHold = false ∧ t.seq.sfOther = true ∧ t.dev = s.dev ∧ t.cl = s.cl)) ∧
  (∀ s, s.fB F.SEQ_STAT_SFDRV = true → s.dev ≠ .standby → completes (.sysfltHoldEnd false) s (fun t => t.fB F.SEQ_STAT_SFDRV = false ∧
    t.fB F.SEQ_STAT_SFLOW = false ∧ t.srcBit Src.sysfltIn = false ∧ t.srcBit Src.sysfltStuck = false ∧ t.seq.sfHold = false ∧
    t.dev = s.dev ∧ t.cl = s.cl)) ∧
  (∀ s, s.dev ≠ .boot → s.fB F.SEQ_STAT_SFLOW = true → completes .sysfltStuck s (fun t => t.fB F.SEQ_STAT_SFSTK = true ∧
    t.srcBit Src.sysfltStuck = true ∧ s.reportsOnly t [F.SEQ_STAT_SFSTK.addr 0])) ∧
  (∀ s, s.fB F.SEQ_STAT_SFDRV = false → s.dev ≠ .standby → completes .sysfltLineRelease s (fun t => t.fB F.SEQ_STAT_SFLOW = false ∧
    t.srcBit Src.sysfltIn = false ∧ t.srcBit Src.sysfltStuck = false ∧ State.onlyRegs { s with seq := { s.seq with sfOther := false } } t
      [F.SEQ_STAT_SFLOW.addr 0, F.SUPV_SRC_SRC.addr (Src.sysfltIn / 32), F.SUPV_SRC_SRC.addr (Src.sysfltStuck / 32)])) ∧
  (∀ s, s.fB F.SEQ_STAT_SFDRV = true → completes .sysfltLineRelease s (fun t => t = { s with seq := { s.seq with sfOther := false } })) ∧
  (∀ s (p : Port), s.hostOpen p → s.dev = .standby ∨ s.dev = .run → completes (.sfpulse p key) s (fun t => t.fB F.SEQ_STAT_SFDRV = true ∧
    t.fB F.SEQ_STAT_SFLOW = true ∧ t.seq.sfHold = true ∧ State.onlyRegs { s with
      seq := { s.seq with sfHold := true }, sup := { s.sup with hist := t.sup.hist } } t [F.SEQ_STAT_SFDRV.addr 0]))

/-- THE SUPERVISOR. Each channel that is not fenced sends one frame of the same decisions (R262, R263, R267). Where
fewer than two frames are valid, or two channels differ in two-channel mode, the device enters SAFE with SUP_DISAGREE
(R263 to R265); a voted SAFE enters SAFE (R274); a logged event makes one record and ends (R269, R271); a fault opens
the first-fault record (R279). The voter's watchdog forces SAFE (R266); a wire fault is counted and shown (R267); ACK
closes the record (R282); SAFE raises HOST_SAFE (R284). The clauses rest on the readings of log entries 13 and 15. -/
def Obligations.SupervisorCommandsComplete : Prop :=
  (∀ s (a : ChanInput) (b : ChanInput) (c : ChanInput), completes (.supervisorEvaluation a b c) s (fun t => (∀ k : Fin 3, s.fenced k = true →
      ∀ f ∈ t.sup.frames, f.chan ≠ k.val) ∧
    (s.fenced 0 = false → (⟨0, a.inTime && !s.sup.eccBad.getLsbD 0 && !s.sup.wireBad.getLsbD 0,
      flipActs t.dueActs a.flips, s.seq.dec⟩ : VoteFrame) ∈ t.sup.frames) ∧
    (s.fenced 1 = false → (⟨1, b.inTime && !s.sup.eccBad.getLsbD 1 && !s.sup.wireBad.getLsbD 1,
      flipActs t.dueActs b.flips, s.seq.dec⟩ : VoteFrame) ∈ t.sup.frames) ∧
    (s.fenced 2 = false → (⟨2, c.inTime && !s.sup.eccBad.getLsbD 2 && !s.sup.wireBad.getLsbD 2,
      flipActs t.dueActs c.flips, s.seq.dec⟩ : VoteFrame) ∈ t.sup.frames) ∧
    t.sup.frames.length ≤ 3 ∧ t.sup.eccBad = 0 ∧ t.sup.wireBad = 0 ∧
    State.reportsOnly { s with sup := { s.sup with frames := t.sup.frames, eccBad := 0, wireBad := 0 } } t
      (clusters.map (fun (n : Fin 16) => F.CL_LSTAT_IBND.addr n)))) ∧
  (∀ s, s.sup.frames ≠ [] → (s.sup.frames.filter (·.valid)).length ≤ 1 → completes .voteWindowClose s (fun t => t.dev = .safe ∧
    t.srcBit Src.supDisagree = true ∧ t.sup.frames = [])) ∧
  (∀ s (f g : VoteFrame), s.sup.frames = [f, g] → f.valid = true → g.valid = true → f.acts ≠ g.acts ∨ f.dec ≠ g.dec →
    s.fB F.SUPV_STAT_MODE2 = true → completes .voteWindowClose s (fun t => t.dev = .safe ∧ t.srcBit Src.supDisagree = true ∧
      t.sup.frames = [])) ∧
  (∀ s (f g : VoteFrame), s.sup.frames = [f, g] → f.valid = true → g.valid = true → f.acts = g.acts → f.acts.get 4 ≠ 0 →
    completes .voteWindowClose s (fun t => t.dev = .safe ∧ t.sup.frames = [])) ∧
  (∀ s (r : Raise) (d : BitVec 9), s.sup.frames = [⟨0, true, noActs, d⟩, ⟨1, true, noActs, d⟩, ⟨2, true, noActs, d⟩] → s.sup.pend = [r] →
    heldSource r.src = false → s.actions r.src = 1 → s.fB F.SUPV_STAT_MODE2 = false → s.owl.staging.length < 256 → r.src < 0x2D6 →
    completes .voteWindowClose s (fun t => t.owl.staging = s.owl.staging ++ [⟨1, s.reg 0x2E02, s.clk.ms, s.clk.us, s.nvm.timeSlot.2,
      [BitVec.ofNat 32 (r.src + s.dev.code * 65536)]⟩] ∧ t.reg 0x2E02 = s.reg 0x2E02 + 1 ∧ t.srcBit r.src = false ∧
      t.sup.pend = [] ∧ t.sup.frames = [] ∧ t.seq.dec = 0 ∧ t.dev = s.dev ∧ t.cl = s.cl ∧ t.ph = s.ph ∧ t.fd = s.fd ∧ t.pins = s.pins ∧
      t.fB F.SUPV_STAT_FFOPEN = s.fB F.SUPV_STAT_FFOPEN)) ∧
  (∀ s (f g : VoteFrame) (r : Raise), s.sup.frames = [f, g] → f.valid = true → g.valid = true → s.sup.pend = [r] → s.actions r.src &&& 0xF8 ≠ 0 →
    s.fB F.SUPV_STAT_FFOPEN = false → r.src < 0x2D6 → r.st < 8 → completes .voteWindowClose s (fun t =>
      t.fB F.SUPV_STAT_FFOPEN = true ∧ t.f F.SUPV_FF_FFSRC = r.src ∧ t.f F.SUPV_FF_FFSTATE = r.st ∧
      t.f F.SUPV_FF_FFACT = s.actions r.src % 256 ∧ t.reg 0x20B = 0 ∧ t.sup.frames = [])) ∧
  (∀ s, s.dev ≠ .boot → s.dev ≠ .safe → completes .voterWatchdog s (fun t => t.dev = .safe ∧ t.srcBit Src.supDisagree = true ∧
    t.pins.pen = 0 ∧ t.pins.ext = 0 ∧ t.pins.pwrgd = false ∧ t.pins.ben = false ∧ t.pins.bchg = false ∧
    t.fB F.SEQ_STAT_SFDRV = true ∧ (∀ n : Fin 16, (t.cl.get n).run = .off) ∧ (∀ p : Fin 48, (t.ph.get p).out = .mid) ∧ t.fd = s.fd)) ∧
  (∀ s (pair : BitVec 10) (fresh : Bool), s.dev ≠ .boot → completes (.wireFault pair fresh) s (fun t => t.fB F.SUPV_STAT_WIREF = true ∧
    t.f F.SUPV_WIRE_PAIR = pair.toNat ∧
    t.f F.SUPV_WIRE_WCNT = Nat.min (2 ^ F.SUPV_WIRE_WCNT.w - 1) (s.f F.SUPV_WIRE_WCNT + 1) ∧
    (fresh = true → t.srcBit Src.fcWire = true) ∧ (pair.toNat < 0x2E0 → t.srcBit pair.toNat = true) ∧
    (pair = 0x341 → t.power.heartbeatLost = true ∧ t.dev = .safe) ∧ (pair.toNat < 0x340 → t.dev = s.dev ∧ t.cl = s.cl ∧ t.ph = s.ph))) ∧
  (∀ s (p : Port), s.hostOpen p → s.fB F.SUPV_STAT_FFOPEN = true → s.evalHdone.fB F.SUPV_STAT_HDONE = true → completes (.ack p key) s (fun t =>
    t.fB F.SUPV_STAT_FFOPEN = false ∧ State.recordsOnly { s with sup := { s.sup with hist := t.sup.hist, actsOpen := [] } } t
      [F.SUPV_STAT_FFOPEN.addr 0, F.OWL_LOST_EVENTS.addr 0])) ∧
  (∀ s (p : Port), s.hostOpen p → s.dev ≠ .safe → s.dev ≠ .boot → completes (.safe p key) s (fun t => t.srcBit Src.hostSafe = true ∧
    State.reportsOnly { s with sup := { s.sup with hist := t.sup.hist } } t []))

/-- TEMPERATURE. A good reading is the cluster's temperature (R287); at the second at or above THSD the cluster shuts
down with its latch and source (R292); the third out of range is shown (R287); the comparator flags (R287); the model
follows its poles (R288, R289); the anchor moves base_c by at most 2 C (R290); a latch clears below its level (R293).
The clauses rest on the readings of log entry 63. -/
def Obligations.TemperatureCommandsComplete : Prop :=
  (∀ s (n : Fin 16) (code : BitVec 12), s.nCfg n = 0 → completes (.tsenReading n code) s (fun t =>
    t.f F.CL_TSENV_V n = (roundAway ((code.toNat : Rat) * 5 / 8)).toNat ∧ s.onlyRegs t [F.CL_TSENV_V.addr n])) ∧
  (∀ s (n : Fin 16) (code : BitVec 12), s.nCfg n ≠ 0 → 160 ≤ code.toNat → (code.toNat : Rat) * 5 / 8 < (s.f F.CL_TSENCFG_FLTV n : Rat) * 5 / 2 →
    s.fB F.CL_TSENV_BAD n = false →
    ((code.toNat : Rat) * 5 / 8 - s.f F.CL_TSENCFG_TOFS n) * 10 / (s.f F.CL_TSENCFG_TSLP n : Rat) < (s.f F.CL_THCFG_THSD n : Rat) →
    completes (.tsenReading n code) s (fun t => t.f F.CL_TSENV_V n = (roundAway ((code.toNat : Rat) * 5 / 8)).toNat ∧
      (t.cl.get n).tGood = some (((code.toNat : Rat) * 5 / 8 - s.f F.CL_TSENCFG_TOFS n) * 10 / (s.f F.CL_TSENCFG_TSLP n : Rat)) ∧
      t.fS F.CL_TTEMP_TTEMP n =
        temp128 (((code.toNat : Rat) * 5 / 8 - s.f F.CL_TSENCFG_TOFS n) * 10 / (s.f F.CL_TSENCFG_TSLP n : Rat)) ∧
      (t.cl.get n).tsenLast = true ∧ (t.cl.get n).tsenHot = 0 ∧ t.fB F.CL_TSENV_FLT n = false ∧
      (t.cl.get n).run = (s.cl.get n).run ∧ (∀ k, k ≠ n → t.cl.get k = s.cl.get k) ∧
      State.onlyRegs { s with cl := t.cl } t [F.CL_TSENV_V.addr n, F.CL_TTEMP_TTEMP.addr n, F.CL_VIN_BASE.addr n,
        F.SUPV_SRC_SRC.addr (Src.thTsenf n / 32)])) ∧
  (∀ s (n : Fin 16) (code : BitVec 12), s.nCfg n ≠ 0 → 160 ≤ code.toNat → (code.toNat : Rat) * 5 / 8 < (s.f F.CL_TSENCFG_FLTV n : Rat) * 5 / 2 →
    s.fB F.CL_TSENV_BAD n = false →
    (s.f F.CL_THCFG_THSD n : Rat) ≤ ((code.toNat : Rat) * 5 / 8 - s.f F.CL_TSENCFG_TOFS n) * 10 / (s.f F.CL_TSENCFG_TSLP n : Rat) →
    (s.cl.get n).tsenHot = 1 → s.fBit F.THM_TSD_TSDMASK 0 n = false → s.srcBit (Src.thShut n) = false →
    completes (.tsenReading n code) s (fun t => t.fBit F.THM_TSD_TSDMASK 0 n = true ∧ t.fB F.CL_THSTAT_TSD n = true ∧
      t.fB F.CL_THSTAT_TSDF n = true ∧ t.srcBit (Src.thShut n) = true ∧ (t.cl.get n).run = .off ∧ (t.cl.get n).dReq = 0 ∧
      (t.f F.HST_PSTAT_TEMP n).testBit 7 = true ∧ t.dev = s.dev)) ∧
  (∀ s (n : Fin 16) (code : BitVec 12), s.nCfg n ≠ 0 → code.toNat < 160 → s.fB F.CL_TSENV_BAD n = false → (s.cl.get n).tsenLow = 2 →
    completes (.tsenReading n code) s (fun t => t.fB F.CL_TSENV_BAD n = true ∧ t.srcBit (Src.thTsenbad n) = true ∧
      (t.cl.get n).tsenLast = false ∧ (t.cl.get n).tGood = (s.cl.get n).tGood ∧ t.dev = s.dev)) ∧
  (∀ s (n : Fin 16), s.pins.pen.getLsbD n = true → completes (.tsenFaultLevel n) s (fun t => t.fB F.CL_TSENV_FLT n = true ∧
    t.srcBit (Src.thTsenf n) = true ∧ s.reportsOnly t [F.CL_TSENV_FLT.addr n])) ∧
  (∀ s obs vin (n : Fin 16) (p : Fin 48), s.phCluster p = some n → completes (.thermalModelStep obs vin) s (fun t =>
    t.fS F.PH_TMOD_TMOD p = temp128 ((s.cl.get n).baseC + sumQ (t.ph.get p).theta.toList) ∧ (t.cl.get n).vin = s.clVin n vin ∧
    (∀ k : Fin 4, (obs.find? (fun o => o.1 == p)) = none → (t.ph.get p).theta.get k = ((s.ph.get p).theta.get k) * expNeg (1 / 10 /
      (F.CL_FOSTER_TAU.get (s.reg (F.CL_FOSTER_R.addr n + k.val)) : Rat))) ∧
    t.fS F.CL_THSTAT_THOT n = temp128 (t.cl.get n).tHot ∧ t.dev = s.dev ∧ t.fd = s.fd)) ∧
  (∀ s (n : Fin 16) (T : Rat), (s.cl.get n).tsenLast = true → s.fB F.CL_TSENV_FLT n = false → (s.cl.get n).tGood = some T →
    completes .thermalAnchor s (fun t => (t.cl.get n).baseC = (s.cl.get n).baseC + clampQ (-2) 2 ((T - (s.cl.get n).tHot) / 4) ∧
      t.fS F.CL_VIN_BASE n = temp128 (t.cl.get n).baseC ∧
      (∀ k : Fin 16, (s.cl.get k).tsenLast = false → t.cl.get k = s.cl.get k) ∧
      State.onlyRegs { s with cl := t.cl } t (clusters.map (fun (k : Fin 16) => F.CL_VIN_BASE.addr k)))) ∧
  (∀ s (p : Port) (n : Fin 16), s.hostOpen p → s.tempsBelow n (s.f F.CL_THCFG_THSD n) = true → s.fBit F.THM_TSD_TSDMASK 0 n = true → s.dev ≠ .run →
    completes (.tsdclr p n key) s (fun t => t.fBit F.THM_TSD_TSDMASK 0 n = false ∧ t.fB F.CL_THSTAT_TSD n = false ∧
      t.srcBit (Src.thShut n) = false ∧ (s.nvmOpen = true → t.nvm.state.tsd.getLsbD n = false) ∧ State.onlyRegs { s with
        cl := t.cl, nvm := t.nvm, sup := { s.sup with hist := t.sup.hist } } t [F.THM_TSD_TSDMASK.addr 0, F.CL_THSTAT_TSD.addr n,
          F.SUPV_SRC_SRC.addr (Src.thShut n / 32)])) ∧
  (∀ s (n : Fin 16), s.tempsBelow n (s.f F.CL_THCFG_TREARM n) = true → s.fBit F.THM_TSD_TSDMASK 0 n = true → s.dev ≠ .run →
    completes (.tsdAutoClear n) s (fun t => t.fBit F.THM_TSD_TSDMASK 0 n = false ∧ t.fB F.CL_THSTAT_TSD n = false ∧
      t.srcBit (Src.thShut n) = false ∧ State.onlyRegs { s with cl := t.cl, nvm := t.nvm } t [F.THM_TSD_TSDMASK.addr 0,
        F.CL_THSTAT_TSD.addr n, F.SUPV_SRC_SRC.addr (Src.thShut n / 32)]))

/-- WOODPECKER AND CAPPING. A due pause raises its ball and ends when its time has run (R295, R296); an estimate keeps
each controller's power, opens an over condition at the fourth excess, and with every cluster off asks for nothing
(R298); a control step adds KUP while over and takes KDN below 97 % of the budget (R298). The clauses rest on the
readings of log entries 56 and 57. -/
def Obligations.WoodpeckerAndCappingComplete : Prop :=
  (∀ s (k : Fin 4), s.pauseDue k = true → s.pins.thr.getLsbD k = false → completes (.woodpeckerPauseStart k) s (fun t =>
    t.pins.thr.getLsbD k = true ∧ (t.thr.get k).acc = (s.thr.get k).acc - 256 * s.f F.THR_CFG_PW k ∧
    (t.thr.get k).pauseLeft = s.f F.THR_CFG_PW k ∧ (∀ j, j ≠ k → t.thr.get j = s.thr.get j ∧ t.pins.thr.getLsbD j = s.pins.thr.getLsbD j) ∧
    t = { s with thr := t.thr, pins := { s.pins with thr := t.pins.thr } })) ∧
  (∀ s (k : Fin 4), s.pins.thr.getLsbD k = true → (s.thr.get k).pauseLeft = 0 → completes (.woodpeckerPauseEnd k) s (fun t =>
    t.pins.thr.getLsbD k = false ∧ (∀ j, j ≠ k → t.pins.thr.getLsbD j = s.pins.thr.getLsbD j) ∧
    t = { s with pins := { s.pins with thr := t.pins.thr } })) ∧
  (∀ s (c : Fin 5), completes .powerEstimate s (fun t => (t.cap.get c).power = sumQ ((s.capClusters c).map s.clPower) ∧
    ((∀ n ∈ s.capClusters c, (s.cl.get n).run = .off) → t.f (capReqFld c).1 (capReqFld c).2 = 0 ∧
      t.fB (capOverFld c).1 (capOverFld c).2 = false) ∧
    (s.capBudget c ≠ 0 → (s.capBudget c : Rat) * 1000 < sumQ ((s.capClusters c).map s.clPower) → (s.cap.get c).overRun = 3 →
      (∃ n ∈ s.capClusters c, (s.cl.get n).run ≠ .off) → s.fB (capOverFld c).1 (capOverFld c).2 = false →
      s.f (capReqFld c).1 (capReqFld c).2 = 0 → t.fB (capOverFld c).1 (capOverFld c).2 = true ∧
        t.f (capReqFld c).1 (capReqFld c).2 = (s.capCfg c).1 ∧ t.srcBit (capSrc c) = true) ∧
    t.dev = s.dev ∧ t.cl = s.cl ∧ t.ph = s.ph ∧ t.fd = s.fd)) ∧
  (∀ s (c : Fin 5), s.fB (capOverFld c).1 (capOverFld c).2 = true → completes (.cappingControlStep c) s (fun t =>
    t.f (capReqFld c).1 (capReqFld c).2 = Nat.min 256 (s.f (capReqFld c).1 (capReqFld c).2 + (s.capCfg c).2.1) ∧
    { t with regs := s.regs, sup := s.sup, cap := s.cap } = s)) ∧
  (∀ s (c : Fin 5), s.fB (capOverFld c).1 (capOverFld c).2 = false → s.capAsked c = false → s.capBudget c = 0 ∨
      (s.cap.get c).power < (97 / 100 : Rat) * ((s.capBudget c * 1000 : Nat) : Rat) → completes (.cappingControlStep c) s (fun t =>
    t.f (capReqFld c).1 (capReqFld c).2 = s.f (capReqFld c).1 (capReqFld c).2 - (s.capCfg c).2.2.1 ∧ (t.cap.get c).satTicks = 0 ∧
    { t with regs := s.regs, cap := s.cap } = s))

/-- CAPTURE. A running channel's sample joins its ring with its tick, is counted as lost where the ring is full, or is
decimated (R305 to R308); triggers and stream requests begin a run (R307); a lane takes a ready ring (R309) and hands
its record to the open packet (R313, R316); the packet's words enter the FIFO and its end mark completes it (R317,
R318); the words are read in order (R317); FLUSH, MARK, REWIND and RELEASE move the FIFO (R319, R320); a channel is
configured, enabled and ended (R304, R306); SEN claims the FIFO (R304, R316); CAP_DIAGD is read (R322). The clauses
rest on the readings of log entry 59. -/
def Obligations.CaptureCommandsComplete : Prop :=
  (∀ s (n : Fin 64) (raw : BitVec 16), mode s n = 1 → s.capStopped = false → s.fB F.CH_STAT_WAIT n = false → s.f F.CH_CFG_DEC n ≤ 1 → s.fB F.CH_CFG_AVG n = false →
    s.f F.CH_SRC_CLASS n ≠ 13 → (s.ch.get n).fill < 1024 → (s.ch.get n).dropPend = 0 → (s.ch.get n).left = none →
    completes (.captureSample n raw) s (fun t => (t.ch.get n).ring = (s.ch.get n).ring ++
        [.sample (BitVec.ofInt 16 (s.capValue n raw)) s.clk.tmr] ∧ (t.ch.get n).decAcc = (0, 0) ∧
      (∀ k, k ≠ n → t.ch.get k = s.ch.get k) ∧ { t with ch := s.ch } = s)) ∧
  (∀ s (n : Fin 64) (raw : BitVec 16), mode s n = 1 → s.capStopped = false → s.fB F.CH_STAT_WAIT n = false → s.f F.CH_CFG_DEC n ≤ 1 →
    1024 ≤ (s.ch.get n).fill → (s.ch.get n).dropPend < 1000 → (s.ch.get n).left = none →
    completes (.captureSample n raw) s (fun t => (t.ch.get n).ring = (s.ch.get n).ring ∧
      (t.ch.get n).dropPend = (s.ch.get n).dropPend + 1 ∧ ((s.ch.get n).dropPend = 0 → (t.ch.get n).dropTs = s.clk.tmr) ∧
      (∀ k, k ≠ n → t.ch.get k = s.ch.get k) ∧ { t with ch := s.ch } = s)) ∧
  (∀ s (n : Fin 64) (raw : BitVec 16), mode s n = 1 → s.capStopped = false → (s.ch.get n).decAcc.2 + 1 < s.f F.CH_CFG_DEC n →
    completes (.captureSample n raw) s (fun t => (t.ch.get n).decAcc = ((s.ch.get n).decAcc.1 + s.capValue n raw, (s.ch.get n).decAcc.2 + 1) ∧
      (t.ch.get n).ring = (s.ch.get n).ring ∧ (∀ k, k ≠ n → t.ch.get k = s.ch.get k) ∧ { t with ch := s.ch } = s)) ∧
  (∀ s (p : Port) (hi : Bool) (mask : Word) (n : Fin 64), s.hostOpen p → (∀ k : Fin 64, s.owner 3 k = 0 ∨ s.owner 3 k = 6) → n.val / 32 = hi.toNat →
    mask.getLsbD (n.val % 32) = true → mode s n = 2 → s.fB F.CH_STAT_WAIT n = true → completes (.captureTrigger p hi mask) s (fun t =>
      t.fB F.CH_STAT_RUN n = true ∧ t.fB F.CH_STAT_WAIT n = false ∧
      (t.ch.get n).left = (if s.f F.CH_LEN_LEN n = 0 then none else some (s.f F.CH_LEN_LEN n)) ∧
      (∀ k : Fin 64, mask.getLsbD (k.val % 32) = false → t.ch.get k = s.ch.get k ∧ t.reg (0x2D03 + 4 * k.val) = s.reg (0x2D03 + 4 * k.val)) ∧
      { t with regs := s.regs, ch := s.ch } = s)) ∧
  (∀ s (p : Port) (hi : Bool) (mask : Word) (n : Fin 64), s.hostOpen p → (∀ k : Fin 64, s.owner 3 k = 0 ∨ s.owner 3 k = 6) → n.val / 32 = hi.toNat →
    mask.getLsbD (n.val % 32) = true → mode s n = 3 → s.fB F.CH_STAT_WAIT n = true → completes (.streamRequest p hi mask) s (fun t =>
      t.fB F.CH_STAT_RUN n = true ∧ t.fB F.CH_STAT_WAIT n = false ∧
      (t.ch.get n).left = (if s.f F.CH_LEN_LEN n = 0 then none else some (s.f F.CH_LEN_LEN n)) ∧
      (t.ch.get n).ring = (s.ch.get n).ring ∧ { t with regs := s.regs, ch := s.ch } = s)) ∧
  (∀ s (l : Fin 4) (n : Fin 64), (s.lane.get l).ch = none → s.capStopped = false → s.ready n = true → (∀ k : Fin 64, s.ready k = true → k = n) →
    (∀ j : Fin 4, (s.lane.get j).ch ≠ some n.val) → completes (.laneTakeBlock l) s (fun t => (t.lane.get l).ch = some n.val ∧
      (t.ch.get n).ring.length < (s.ch.get n).ring.length ∧ (∀ j, j ≠ l → t.lane.get j = s.lane.get j) ∧
      (∀ k, k ≠ n → t.ch.get k = s.ch.get k) ∧ { t with regs := s.regs, ch := s.ch, lane := s.lane, sup := s.sup } = s)) ∧
  (∀ s (n : Fin 64), s.fB F.CH_STAT_RUN n = true → (s.ch.get n).fill ≠ 0 → completes (.tailTimeout n) s (fun t => (t.ch.get n).tailDue = true ∧
    (t.ch.get n).ring = (s.ch.get n).ring ∧ (∀ k, k ≠ n → t.ch.get k = s.ch.get k) ∧ { t with ch := s.ch } = s)) ∧
  (∀ s (l : Fin 4) (c : Fin 64), (s.lane.get l).ch = some c.val → s.owner 3 c ≠ 8 → s.stream.out = [] → s.stream.openPkt = [] →
    (s.lane.get l).recd ≠ [] → (s.lane.get l).closeAfter = false → s.capStopped = false → completes (.recordComplete l) s (fun t =>
      t.stream.openPkt = s.stream.recQ.flatten ++ (s.lane.get l).recd ∧ t.stream.recQ = [] ∧ t.stream.pktMax = s.f F.CAP_CFG_PKTMAX ∧
      t.stream.out = [] ∧ (t.lane.get l).ch = none ∧ (t.lane.get l).last = c.val ∧ (∀ j, j ≠ l → t.lane.get j = s.lane.get j) ∧
      { t with lane := s.lane, stream := s.stream } = s)) ∧
  (∀ s (l : Fin 4) (c : Fin 64), (s.lane.get l).ch = some c.val → s.owner 3 c ≠ 8 → s.stream.out = [] → s.stream.openPkt = [] →
    (s.lane.get l).recd ≠ [] → (s.lane.get l).closeAfter = true → s.capStopped = false → completes (.recordComplete l) s (fun t =>
      t.stream.out = markEnd (packet s.stream.pseq.toNat (s.stream.recQ.flatten ++ (s.lane.get l).recd)) ∧ t.stream.openPkt = [] ∧
      t.stream.pseq = s.stream.pseq + 1 ∧ (t.lane.get l).ch = none ∧ { t with lane := s.lane, stream := s.stream } = s)) ∧
  (∀ s (x : Word × Bool) (r : List (Word × Bool)), s.stream.out = x :: r → s.stream.fifo.length < 65535 → s.stream.flushPend = false →
    completes .packetWordWrite s (fun t => t.stream.out = r ∧ t.stream.fifo = s.stream.fifo ++ [x] ∧
      t.f F.CAP_FLEVEL_WORDS = s.stream.fifo.length + 1 ∧ (x.2 = true → t.fB F.CAP_FSTAT_PKTF = true ∧
        t.f F.CAP_FSTAT_PKT_WAIT = Nat.min (2 ^ F.CAP_FSTAT_PKT_WAIT.w - 1) (s.f F.CAP_FSTAT_PKT_WAIT + 1)) ∧
      (x.2 = false → t.f F.CAP_FSTAT_PKT_WAIT = s.f F.CAP_FSTAT_PKT_WAIT ∧ t.pins = s.pins) ∧ t.cl = s.cl ∧ t.dev = s.dev)) ∧
  (∀ s (x : Word × Bool) (r : List (Word × Bool)), s.portLive .stream = true → s.noImg = false → s.f F.CAP_FSTAT_PKT_WAIT ≠ 0 → s.stream.rd = 0 → s.stream.fifo = x :: r →
    s.img.blevel ≠ 1 → completes (.fifoRead .stream) s (fun t => t.port.sData = [x.1] ∧ t.port.sStatus = 0 ∧ t.stream.fifo = r ∧
      t.fB F.CAP_FSTAT_LASTEM = x.2 ∧
      t.f F.CAP_FSTAT_PKT_WAIT = s.f F.CAP_FSTAT_PKT_WAIT - x.2.toNat ∧ t.stream.midRead = !x.2 ∧ t.cl = s.cl)) ∧
  (∀ s (p : Port), s.portLive p = true → s.noImg = false → s.f F.CAP_FSTAT_PKT_WAIT = 0 → completes (.fifoRead p) s (fun t =>
    t.fB F.CAP_FSTAT_UNDER = true ∧ t.fB F.CAP_FSTAT_LASTEM = false ∧
    State.onlyRegs { s with port := t.port } t [F.CAP_FSTAT_UNDER.addr 0])) ∧
  (∀ s (p : Port), s.hostOpen p → s.img.blevel ≠ 1 → s.stream.out = [] → s.stream.openPkt = [] → s.stream.midRead = false →
    completes (.flush p) s (fun t => t.stream.fifo = [] ∧ t.stream.flushPend = false ∧ t.f F.CAP_FSTAT_PKT_WAIT = 0 ∧
      t.f F.CAP_FLEVEL_WORDS = 0 ∧ t.fB F.CAP_FSTAT_FULL = false ∧ State.onlyRegs { s with
        stream := t.stream, sup := { s.sup with hist := t.sup.hist } } t [F.CAP_FSTAT_PKT_WAIT.addr 0, F.CAP_FLEVEL_WORDS.addr 0])) ∧
  (∀ s (p : Port), s.hostOpen p → s.img.blevel = 1 → s.atBoundary = true → completes (.mark p) s (fun t => t = { s with
    stream := { s.stream with mark := s.stream.rd }, sup := { s.sup with hist := t.sup.hist } })) ∧
  (∀ s (p : Port), s.hostOpen p → s.img.blevel = 1 → s.atBoundary = true → completes (.rewind p) s (fun t => State.onlyRegs { s with
    stream := { s.stream with rd := s.stream.mark }, sup := { s.sup with hist := t.sup.hist } } t [F.CAP_FSTAT_PKT_WAIT.addr 0])) ∧
  (∀ s (p : Port), s.hostOpen p → s.img.blevel = 1 → s.atBoundary = true → completes (.release p) s (fun t =>
    t.stream = { s.stream with fifo := s.stream.fifo.drop s.stream.rd, rd := 0, mark := 0 } ∧ t.cl = s.cl ∧ t.pins = s.pins)) ∧
  (∀ s (p : Port) (n : Fin 64) (v : Word), s.hostOpen p → s.owner 3 n = 0 → mode s n = 0 → inRange (0x2D00 + 4 * n.val) v = true →
    completes (.channelConfigWrite p n false v) s (fun t => t.f F.CH_SRC_CLASS n = F.CH_SRC_CLASS.get v ∧
      t.f F.CH_SRC_INDEX n = F.CH_SRC_INDEX.get v ∧ t.f F.CH_SRC_SHIFT n = F.CH_SRC_SHIFT.get v ∧
      s.onlyRegs t [F.CH_SRC_CLASS.addr n])) ∧
  (∀ s (p : Port) (n : Fin 64) (v : Word), s.hostOpen p → s.owner 3 n = 0 → mode s n = 0 → inRange (0x2D01 + 4 * n.val) v = true → F.CH_CFG_MODE.get v ≠ 0 →
    s.fB F.CAP_CFG_SEN = true → s.admits n (F.CH_CFG_DEC.get v) = true → completes (.channelConfigWrite p n true v) s (fun t =>
      mode t n = F.CH_CFG_MODE.get v ∧ t.f F.CH_CFG_DEC n = F.CH_CFG_DEC.get v ∧ t.owner 3 n = 6 ∧
      t.fB F.CH_STAT_RUN n = (F.CH_CFG_MODE.get v == 1) ∧ t.fB F.CH_STAT_WAIT n = (F.CH_CFG_MODE.get v != 1) ∧
      State.onlyRegs { s with ch := t.ch, img := { s.img with own := t.img.own } } t [F.CH_CFG_MODE.addr n, F.CH_STAT_RUN.addr n])) ∧
  (∀ s (p : Port) (n : Fin 64) (v : Word), s.hostOpen p → s.owner 3 n = 6 → mode s n ≠ 0 → inRange (0x2D01 + 4 * n.val) v = true → F.CH_CFG_MODE.get v = 0 →
    s.reg (0x2D01 + 4 * n.val) &&& 0x7FFFFFFC#32 = v &&& 0x7FFFFFFC#32 → completes (.channelConfigWrite p n true v) s (fun t =>
      mode t n = 0 ∧ t.fB F.CH_STAT_RUN n = false ∧ t.fB F.CH_STAT_WAIT n = false ∧ (t.ch.get n).left = none ∧
      State.onlyRegs { s with ch := t.ch, img := { s.img with own := t.img.own } } t [F.CH_CFG_MODE.addr n, F.CH_STAT_RUN.addr n])) ∧
  (∀ s (p : Port) (v : Word), s.hostOpen p → inRange 0x2C00 v = true → F.CAP_CFG_SEN.get v = 1 → s.fB F.CAP_CFG_SEN = false → s.owner 4 0 = 0 →
    completes (.streamEnableWrite p v) s (fun t => t.fB F.CAP_CFG_SEN = true ∧ t.stream.pseq = 0 ∧ t.owner 4 0 = 7 ∧
      t.f F.CAP_CFG_PKTMAX = F.CAP_CFG_PKTMAX.get v ∧ t.stream.fifo = s.stream.fifo ∧ t.ch = s.ch ∧ t.cl = s.cl)) ∧
  (∀ s, s.portLive .stream = true → s.noImg = false → completes (.diagRead .stream) s (fun t =>
    t.port.sData = [Sparse.get (fun _ => (0 : Word)) s.stream.diag (s.f F.CAP_DIAGA_RIDX)] ∧
    t.f F.CAP_DIAGA_RIDX = (s.f F.CAP_DIAGA_RIDX + 1) % 16384 ∧
    State.onlyRegs { s with port := t.port } t [F.CAP_DIAGA_RIDX.addr 0])) ∧
  (∀ s, s.portLive .twoWire = true → s.noImg = false → completes (.diagRead .twoWire) s (fun t =>
    t.port.resp = wordBytes (Sparse.get (fun _ => (0 : Word)) s.stream.diag (s.f F.CAP_DIAGA_RIDX)) ∧
    t.f F.CAP_DIAGA_RIDX = (s.f F.CAP_DIAGA_RIDX + 1) % 16384 ∧
    State.onlyRegs { s with port := t.port } t [F.CAP_DIAGA_RIDX.addr 0]))

/-- PMBUS READS. A read answers its value, least significant byte first, with the PEC of R334, as far as the host
clocks, and changes nothing: the page, the formats and identities, the set-points and limits (R337), the status bytes
(R338), and the telemetry in LINEAR11 and LINEAR16 (R190 to R192, R336); the FIFO level of R342. -/
def Obligations.PmbusReadsAnswer : Prop :=
  (∀ s (w : Wire), s.wireOpen → Wire.asks w 2 → completes (.page w) s (fun t =>
    s.sent t 0x00 w [s.port.page])) ∧
  (∀ s (w : Wire), s.wireOpen → Wire.asks w 2 → completes (.capability w) s (fun t =>
    s.sent t 0x19 w [0xD0])) ∧
  (∀ s (w : Wire), s.wireOpen → Wire.asks w 2 → completes (.pmbusRevision w) s (fun t =>
    s.sent t 0x98 w [if s.img.blevel = 1 then 0x33 else 0x44])) ∧
  (∀ s (w : Wire), s.wireOpen → Wire.asks w 7 → completes (.mfrId w) s (fun t =>
    s.sent t 0x99 w [5, 0x43, 0x41, 0x4C, 0x4A, 0x4F])) ∧
  (∀ s (w : Wire), s.wireOpen → s.img.blevel = 1 → Wire.asks w 8 → completes (.mfrModel w) s (fun t =>
    s.sent t 0x9A w [6, 0x4E, 0x5A, 0x35, 0x36, 0x32, 0x34])) ∧
  (∀ s (w : Wire), s.wireOpen → s.img.blevel ≠ 1 → Wire.asks w 8 → completes (.mfrModel w) s (fun t =>
    s.sent t 0x9A w [6, 0x4E, 0x5A, 0x37, 0x36, 0x34, 0x38])) ∧
  (∀ s (w : Wire), s.wireOpen → Wire.asks w 3 → completes (.mfrRevision w) s (fun t =>
    s.sent t 0x9B w [1, BitVec.ofNat 8 (0x40 + s.f F.DEV_ID_ID % 65536)])) ∧
  (∀ s (w : Wire), s.wireOpen → Wire.asks w 10 → completes (.mfrSerial w) s (fun t =>
    s.sent t 0x9E w (8 :: leBytes 8 s.nvm.serial.toNat))) ∧
  (∀ s (w : Wire), s.wireOpen → Wire.asks w 3 → completes (.mfrWinAddr w) s (fun t =>
    s.sent t 0xD0 w (leBytes 2 (s.f F.HST_WADDR_ADDR)))) ∧
  (∀ s (w : Wire), s.wireOpen → Wire.asks w 2 → completes (.statusCml w) s (fun t =>
    s.sent t 0x7E w [BitVec.ofNat 8 (s.f F.HST_STAT_CML)])) ∧
  (∀ s (w : Wire), s.wireOpen → (s.pagesOf onClusters).contains s.port.page.toNat = true → Wire.asks w 2 → completes (.operation w) s (fun t =>
    s.sent t 0x01 w [if s.fB F.CL_SEQC_OPOFF s.pageCl then 0x00 else 0x80])) ∧
  (∀ s (w : Wire), s.wireOpen → (s.pagesOf onClusters).contains s.port.page.toNat = true → Wire.asks w 2 → completes (.voutMode w) s (fun t =>
    s.sent t 0x20 w (leBytes 1 (ofSigned 5 (s.voutExp s.pageCl))))) ∧
  (∀ s (w : Wire), s.wireOpen → (s.pagesOf onClusters).contains s.port.page.toNat = true → Wire.asks w 3 → completes (.voutCommand w) s (fun t =>
    s.sent t 0x21 w (leBytes 2 (s.lin16 s.pageCl
      ((F.CL_VSET_S.get (s.seen .twoWire (F.CL_VSET_S.addr s.pageCl)) : Rat) * 25 * s.gPage s.pageCl / 1000000))))) ∧
  (∀ s (w : Wire), s.wireOpen → (s.pagesOf onClusters).contains s.port.page.toNat = true → Wire.asks w 3 → completes (.voutTransitionRate w) s (fun t =>
    s.sent t 0x27 w (leBytes 2 (linear11
      ((F.CL_VSLEW_SLEW.get (s.seen .twoWire (F.CL_VSLEW_SLEW.addr s.pageCl)) : Rat) * 5 * s.gPage s.pageCl / 2 /
        (s.f F.CL_CFG_UPER s.pageCl : Rat)))))) ∧
  (∀ s (w : Wire), s.wireOpen → (s.pagesOf onClusters).contains s.port.page.toNat = true → Wire.asks w 3 → completes (.voutOvFaultLimit w) s (fun t =>
    s.sent t 0x40 w (leBytes 2 (s.lin16 s.pageCl
      ((F.CL_WIN_OV.get (s.seen .twoWire (F.CL_WIN_OV.addr s.pageCl)) : Rat) * 1600 * s.gPage s.pageCl / 1000000))))) ∧
  (∀ s (w : Wire), s.wireOpen → (s.pagesOf onClusters).contains s.port.page.toNat = true → Wire.asks w 3 → completes (.voutUvFaultLimit w) s (fun t =>
    s.sent t 0x44 w (leBytes 2 (s.lin16 s.pageCl
      ((F.CL_WIN_UV.get (s.seen .twoWire (F.CL_WIN_UV.addr s.pageCl)) : Rat) * 1600 * s.gPage s.pageCl / 1000000))))) ∧
  (∀ s (w : Wire), s.wireOpen → (s.pagesOf onClusters).contains s.port.page.toNat = true → Wire.asks w 3 → completes (.ioutOcFaultLimit w) s (fun t =>
    s.sent t 0x46 w (leBytes 2 (linear11 ((F.CL_OL_OLIM.get (s.seen .twoWire (F.CL_OL_OLIM.addr s.pageCl)) : Rat) / 10))))) ∧
  (∀ s (w : Wire), s.wireOpen → (s.pagesOf onFeeds).contains s.port.page.toNat = true → Wire.asks w 3 → completes (.ioutOcFaultLimit w) s (fun t =>
    s.sent t 0x46 w (leBytes 2 (linear11
      ((F.FEED_CFG_ILIM.get (s.seen .twoWire (F.FEED_CFG_ILIM.addr s.pageFeed)) : Rat) / 10))))) ∧
  (∀ s (w : Wire), s.wireOpen → (s.pagesOf onClusters).contains s.port.page.toNat = true → Wire.asks w 2 → completes (.statusByte w) s (fun t =>
    s.sent t 0x78 w (leBytes 1 (s.statusWord s.port.page.toNat)))) ∧
  (∀ s (w : Wire), s.wireOpen → (s.pagesOf onClusters).contains s.port.page.toNat = true → Wire.asks w 3 → completes (.statusWord w) s (fun t =>
    s.sent t 0x79 w (leBytes 2 (s.statusWord s.port.page.toNat)))) ∧
  (∀ s (w : Wire), s.wireOpen → (s.pagesOf onFeeds).contains s.port.page.toNat = true → Wire.asks w 3 → completes (.statusWord w) s (fun t =>
    s.sent t 0x79 w (leBytes 2 (s.statusWord s.port.page.toNat)))) ∧
  (∀ s (w : Wire), s.wireOpen → (s.pagesOf onClusters).contains s.port.page.toNat = true → Wire.asks w 2 → completes (.statusVout w) s (fun t =>
    s.sent t 0x7A w [BitVec.ofNat 8 (s.f F.HST_PSTAT_VOUT s.port.page.toNat)])) ∧
  (∀ s (w : Wire), s.wireOpen → (s.pagesOf onClusters).contains s.port.page.toNat = true → Wire.asks w 2 → completes (.statusIout w) s (fun t =>
    s.sent t 0x7B w [BitVec.ofNat 8 (s.f F.HST_PSTAT_IOUT s.port.page.toNat)])) ∧
  (∀ s (w : Wire), s.wireOpen → (s.pagesOf onFeeds).contains s.port.page.toNat = true → Wire.asks w 2 → completes (.statusInput w) s (fun t =>
    s.sent t 0x7C w [BitVec.ofNat 8 (s.f F.HST_PSTAT_INPUT s.port.page.toNat)])) ∧
  (∀ s (w : Wire), s.wireOpen → (s.pagesOf onClusters).contains s.port.page.toNat = true → Wire.asks w 2 → completes (.statusTemperature w) s (fun t =>
    s.sent t 0x7D w [BitVec.ofNat 8 (s.f F.HST_PSTAT_TEMP s.port.page.toNat)])) ∧
  (∀ s (w : Wire), s.wireOpen → (s.pagesOf onFeeds).contains s.port.page.toNat = true → Wire.asks w 3 → completes (.readVin w) s (fun t =>
    s.sent t 0x88 w (leBytes 2 (linear11 ((s.fS F.FEED_V_V s.pageFeed : Rat) / 1000000))))) ∧
  (∀ s (w : Wire), s.wireOpen → (s.pagesOf onClusters).contains s.port.page.toNat = true → Wire.asks w 3 → completes (.readVin w) s (fun t =>
    s.sent t 0x88 w (leBytes 2 (linear11 (s.clVin s.pageCl (Vector.replicate 3 (s.cl.get s.pageCl).vin)))))) ∧
  (∀ s (w : Wire), s.wireOpen → (s.pagesOf onFeeds).contains s.port.page.toNat = true → Wire.asks w 3 → completes (.readIin w) s (fun t =>
    s.sent t 0x89 w (leBytes 2 (linear11 ((s.fS F.FEED_I_I s.pageFeed : Rat) / 10000))))) ∧
  (∀ s (w : Wire), s.wireOpen → (s.pagesOf onClusters).contains s.port.page.toNat = true → Wire.asks w 3 → completes (.readVout w) s (fun t =>
    s.sent t 0x8B w (leBytes 2 (s.lin16 s.pageCl ((s.fS F.CL_TVOUT_TVOUT s.pageCl : Rat) / 1000000))))) ∧
  (∀ s (w : Wire), s.wireOpen → (s.pagesOf onClusters).contains s.port.page.toNat = true → Wire.asks w 3 → completes (.readIout w) s (fun t =>
    s.sent t 0x8C w (leBytes 2 (linear11 ((s.fS F.CL_TIOUT_TIOUT s.pageCl : Rat) / 10000))))) ∧
  (∀ s (w : Wire), s.wireOpen → (s.pagesOf onClusters).contains s.port.page.toNat = true → Wire.asks w 3 → completes (.readTemperature1 w) s (fun t =>
    s.sent t 0x8D w (leBytes 2 (linear11 ((s.fS F.CL_TTEMP_TTEMP s.pageCl : Rat) / 128))))) ∧
  (∀ s (w : Wire), s.wireOpen → (s.pagesOf onClusters).contains s.port.page.toNat = true → Wire.asks w 3 → completes (.readPout w) s (fun t =>
    s.sent t 0x96 w (leBytes 2 (linear11 ((s.fS F.CL_TPOUT_TPOUT s.pageCl : Rat) / 1000))))) ∧
  (∀ s (w : Wire), s.wireOpen → (s.pagesOf onFeeds).contains s.port.page.toNat = true → Wire.asks w 3 → completes (.readPin w) s (fun t =>
    s.sent t 0x97 w (leBytes 2 (linear11 ((s.fS F.FEED_P_P s.pageFeed : Rat) / 1000))))) ∧
  (∀ s (w : Wire), s.wireOpen → s.img.blevel = 1 → Wire.asks w 3 → completes (.mfrFifoStat w) s (fun t =>
    s.sent t 0xE2 w (leBytes 2 (s.f F.CAP_FSTAT_PKT_WAIT))))

/-- PMBUS WRITES AND THE TWO-WIRE PORT. A write whose PEC is right sets the page (R335), turns the package or a
cluster on or off (R33, R257), clears status (R338), begins a store (R355), writes a set-point (R337) or opens the
transaction of its own that R354 gives a limit, moves the window and writes and reads through it (R339), and works the
FIFO at level 1 (R342). The port wakes, sleeps and is reset (R332, R333), answers an alert response (R341), and
refuses what it does not know (R340). The clauses rest on the readings of log entries 80, 88 and 89. -/
def Obligations.PmbusWritesAndPortEventsComplete : Prop :=
  (∀ s (w : Wire) (v : Byte), s.wireOpen → s.takes 0x00 w [v] → v = 0xFF ∨ (s.pagesOf onBoth).contains v.toNat = true → completes (.page w) s (fun t =>
    t.port.page = v ∧ t = { s.acked with port := { s.acked.port with page := v } })) ∧
  (∀ s (w : Wire), s.wireOpen → s.takes 0x01 w [0x80] → s.port.page = 0xFF → completes (.operation w) s (fun t => t.oper = true ∧
    t.fB F.DEV_STATE_ONREQ = State.onreqVal { s with oper := true } ∧ t.port.nack = false ∧ t.port.resp = [])) ∧
  (∀ s (w : Wire), s.wireOpen → s.takes 0x01 w [0x40] → s.port.page = 0xFF → s.dev ≠ .run → completes (.operation w) s (fun t => t.oper = false ∧
    t.fB F.DEV_STATE_ONREQ = State.onreqVal { s with oper := false } ∧ t.port.nack = false)) ∧
  (∀ s (w : Wire), s.wireOpen → s.takes 0x01 w [0x40] → (s.pagesOf onClusters).contains s.port.page.toNat = true → s.dev = .run →
    s.hvAbove s.pageCl = false → s.fB F.CL_SEQC_OPOFF s.pageCl = false → completes (.operation w) s (fun t =>
      t.fB F.CL_SEQC_OPOFF s.pageCl = true ∧ t.dev = .run ∧ t.port.nack = false ∧ t.oper = s.oper ∧ t.fd = s.fd)) ∧
  (∀ s (w : Wire), s.wireOpen → s.takes 0x01 w [0x80] → (s.pagesOf onClusters).contains s.port.page.toNat = true → s.dev = .run →
    (s.cl.get s.pageCl).run = .off → s.clBarred s.pageCl = false → s.srcGood s.pageCl = true → s.nAv s.pageCl ≠ 0 →
    (∀ p : Fin 48, (s.ph.get p).laneFail = false) → completes (.operation w) s (fun t => (t.cl.get s.pageCl).run = .checking ∧
      t.pins.pen.getLsbD s.pageCl = true ∧ t.fB F.CL_SEQC_OPOFF s.pageCl = false ∧ t.port.nack = false ∧ t.fd = s.fd)) ∧
  (∀ s (w : Wire), s.wireOpen → s.takes 0x03 w [] → s.port.page.toNat < 19 → completes (.clearFaults w) s (fun t =>
    t.reg (F.HST_PSTAT_VOUT.addr s.port.page.toNat) = 0 ∧ t.f F.HST_STAT_CML = 0 ∧ t.port.busyLatch = false ∧ State.onlyRegs { s.acked with
      port := { s.acked.port with busyLatch := false } } t [F.HST_PSTAT_VOUT.addr s.port.page.toNat, F.HST_STAT_CML.addr 0])) ∧
  (∀ s (w : Wire), s.wireOpen → s.takes 0x03 w [] → s.port.page = 0xFF → completes (.clearFaults w) s (fun t =>
    (∀ p : Fin 19, t.reg (F.HST_PSTAT_VOUT.addr p) = 0) ∧ t.f F.HST_STAT_CML = 0 ∧ t.port.busyLatch = false)) ∧
  (∀ s (w : Wire), s.wireOpen → s.takes 0x15 w [] → s.storeRefusal = 0 → completes (.storeUserAll w) s (fun t => t.fB F.STORE_STAT_BUSY = true ∧
    t.nvm.storing.isSome = true ∧ State.onlyRegs { s.acked with nvm := t.nvm } t [F.STORE_STAT_BUSY.addr 0])) ∧
  (∀ s (w : Wire) (x y : Byte), s.wireOpen → s.takes 0x21 w [x, y] → (s.pagesOf onClusters).contains s.port.page.toNat = true →
    s.txnState = 0 → roundAway (s.ofLin16 s.port.page.toNat (x.toNat + 256 * y.toNat) * 1000000 / s.gPage s.port.page.toNat / 25) < 65536 →
    ((s.hostStore (F.CL_VSET_S.addr s.port.page.toNat) (BitVec.ofInt 32 (roundAway (s.ofLin16 s.port.page.toNat
      (x.toNat + 256 * y.toNat) * 1000000 / s.gPage s.port.page.toNat / 25)))).checkChanged [F.CL_VSET_S.addr s.port.page.toNat]).isNone = true →
    completes (.voutCommand w) s (fun t => t.f F.CL_VSET_S s.port.page.toNat =
        (roundAway (s.ofLin16 s.port.page.toNat (x.toNat + 256 * y.toNat) * 1000000 / s.gPage s.port.page.toNat / 25)).toNat ∧
      s.acked.onlyRegs t [F.CL_VSET_S.addr s.port.page.toNat])) ∧
  (∀ s (w : Wire) (x y : Byte), s.wireOpen → s.takes 0x46 w [x, y] → (s.pagesOf onClusters).contains s.port.page.toNat = true →
    s.txnState = 0 → 0 ≤ roundAway (ofLinear11 (x.toNat + 256 * y.toNat) * 10) →
    roundAway (ofLinear11 (x.toNat + 256 * y.toNat) * 10) < 2 ^ F.CL_OL_OLIM.w →
    State.rangeFails (s.setReg (F.CL_OL_OLIM.addr s.port.page.toNat) (F.CL_OL_OLIM.insert (s.reg (F.CL_OL_OLIM.addr s.port.page.toNat))
      (roundAway (ofLinear11 (x.toNat + 256 * y.toNat) * 10)).toNat)) (F.CL_OL_OLIM.addr s.port.page.toNat) = false →
    completes (.ioutOcFaultLimit w) s (fun t => t.txnState = 2 ∧ t.txn.single = some 0xF046 ∧
      F.CL_OL_OLIM.get (t.seen .twoWire (F.CL_OL_OLIM.addr s.port.page.toNat)) =
        (roundAway (ofLinear11 (x.toNat + 256 * y.toNat) * 10)).toNat ∧
      t.reg (F.CL_OL_OLIM.addr s.port.page.toNat) = s.reg (F.CL_OL_OLIM.addr s.port.page.toNat) ∧ t.port.nack = false)) ∧
  (∀ s (w : Wire) (m : Byte), s.wireOpen → s.takes 0x7A w [m] → (s.pagesOf onClusters).contains s.port.page.toNat = true → completes (.statusVout w) s (fun t =>
    t.f F.HST_PSTAT_VOUT s.port.page.toNat = s.f F.HST_PSTAT_VOUT s.port.page.toNat &&& (255 - m.toNat) ∧
    s.acked.onlyRegs t [F.HST_PSTAT_VOUT.addr s.port.page.toNat])) ∧
  (∀ s (w : Wire) (m : Byte), s.wireOpen → s.takes 0x7B w [m] → (s.pagesOf onClusters).contains s.port.page.toNat = true → completes (.statusIout w) s (fun t =>
    t.f F.HST_PSTAT_IOUT s.port.page.toNat = s.f F.HST_PSTAT_IOUT s.port.page.toNat &&& (255 - m.toNat) ∧
    s.acked.onlyRegs t [F.HST_PSTAT_IOUT.addr s.port.page.toNat])) ∧
  (∀ s (w : Wire) (m : Byte), s.wireOpen → s.takes 0x7C w [m] → (s.pagesOf onFeeds).contains s.port.page.toNat = true → completes (.statusInput w) s (fun t =>
    t.f F.HST_PSTAT_INPUT s.port.page.toNat = s.f F.HST_PSTAT_INPUT s.port.page.toNat &&& (255 - m.toNat) ∧
    s.acked.onlyRegs t [F.HST_PSTAT_INPUT.addr s.port.page.toNat])) ∧
  (∀ s (w : Wire) (m : Byte), s.wireOpen → s.takes 0x7D w [m] → (s.pagesOf onClusters).contains s.port.page.toNat = true → completes (.statusTemperature w) s (fun t =>
    t.f F.HST_PSTAT_TEMP s.port.page.toNat = s.f F.HST_PSTAT_TEMP s.port.page.toNat &&& (255 - m.toNat) ∧
    s.acked.onlyRegs t [F.HST_PSTAT_TEMP.addr s.port.page.toNat])) ∧
  (∀ s (w : Wire) (m : Byte), s.wireOpen → s.takes 0x7E w [m] → completes (.statusCml w) s (fun t =>
    t.f F.HST_STAT_CML = s.f F.HST_STAT_CML &&& (255 - m.toNat) ∧ s.acked.onlyRegs t [F.HST_STAT_CML.addr 0])) ∧
  (∀ s (w : Wire) (x y : Byte), s.wireOpen → s.takes 0xD0 w [x, y] → completes (.mfrWinAddr w) s (fun t =>
    t.f F.HST_WADDR_ADDR = x.toNat + 256 * y.toNat ∧ s.acked.onlyRegs t [F.HST_WADDR_ADDR.addr 0])) ∧
  (∀ s (w : Wire), s.wireOpen → Wire.asks w 6 → 5 ≤ w.clocks.toNat → completes (.mfrWinData w) s (fun t =>
    t.port.resp.take 5 = 4 :: wordBytes (s.readWord .twoWire (s.f F.HST_WADDR_ADDR)).2 ∧ t.port.nack = false ∧
    t.port.resp.length = w.clocks.toNat ∧ (s.f F.HST_WADDR_ADDR < 0x1000 → s.fB F.HST_CFG_WINC = true →
      t.f F.HST_WADDR_ADDR = s.f F.HST_WADDR_ADDR + 1))) ∧
  (∀ s (w : Wire) (b0 b1 b2 b3 : Byte), s.wireOpen → s.takes 0xD1 w [4, b0, b1, b2, b3] → s.f F.HST_WADDR_ADDR = 0x2E08 → completes (.mfrWinData w) s (fun t =>
    t.owl.tok.get 0 = BitVec.ofNat 32 (leData [b0, b1, b2, b3]) ∧ t.port.nack = false ∧
    t.f F.HST_WADDR_ADDR = (if s.fB F.HST_CFG_WINC then 0x2E09 else 0x2E08) ∧
    (s.f F.DEV_PWRSTAT_LSTAGE = 0 → State.onlyRegs { s.acked with owl := { s.owl with tok := t.owl.tok } } t [F.HST_WADDR_ADDR.addr 0]))) ∧
  (∀ s (w : Wire) (x : Word) r, s.wireOpen → s.img.blevel = 1 → Wire.asks w 7 → 7 = w.clocks.toNat → s.f F.CAP_FSTAT_PKT_WAIT ≠ 0 →
    s.stream.fifo.drop s.stream.rd = (x, true) :: r → completes (.mfrFifoData w) s (fun t => t.port.resp.take 6 =
      5 :: wordBytes x ++ [1] ∧ t.stream.rd = s.stream.rd + 1 ∧ t.stream.fifo = s.stream.fifo ∧
      t.f F.CAP_FSTAT_PKT_WAIT = s.f F.CAP_FSTAT_PKT_WAIT - 1)) ∧
  (∀ s (w : Wire), s.wireOpen → s.img.blevel = 1 → s.takes 0xE1 w [2] → s.atBoundary = true → completes (.mfrFifoCtrl w) s (fun t =>
    t.stream = { s.stream with mark := s.stream.rd } ∧ t.regs = s.regs ∧ t.port = s.acked.port)) ∧
  (∀ s, s.portUp = true → s.fB F.HST_STAT_AWAKE = false → completes .twoWireWake s (fun t => t.fB F.HST_STAT_AWAKE = true ∧
    t.port.nack = true ∧ t.port.resp = [] ∧ State.onlyRegs { s with port := t.port } t [F.HST_STAT_AWAKE.addr 0])) ∧
  (∀ s, s.dev = .standby ∨ s.dev = .dormouse → completes .twoWireSleep s (fun t => t.fB F.HST_STAT_AWAKE = false ∧
    s.onlyRegs t [F.HST_STAT_AWAKE.addr 0])) ∧
  (∀ s, s.portUp = true → completes .sclTimeout s (fun t => (t.f F.HST_STAT_CML).testBit 1 = true ∧ t.srcBit 0x2C9 = true ∧
    t.f F.HST_ERRCNT_SCLTO = Nat.min (2 ^ F.HST_ERRCNT_SCLTO.w - 1) (s.f F.HST_ERRCNT_SCLTO + 1) ∧ t.port.resp = [] ∧
    State.reportsOnly { s with port := { s.port with resp := [] } } t [F.HST_ERRCNT_SCLTO.addr 0, F.HST_STAT_CML.addr 0])) ∧
  (∀ s, s.portUp = true → completes .sdaRelease s (fun t => (t.f F.HST_STAT_CML).testBit 1 = true ∧ t.srcBit 0x2CA = true ∧
    t.f F.HST_ERRCNT_SDAREL = Nat.min (2 ^ F.HST_ERRCNT_SDAREL.w - 1) (s.f F.HST_ERRCNT_SDAREL + 1) ∧ t.port.resp = [] ∧
    State.reportsOnly { s with port := { s.port with resp := [] } } t [F.HST_ERRCNT_SDAREL.addr 0, F.HST_STAT_CML.addr 0])) ∧
  (∀ s (clocks : BitVec 8), s.portUp = true → s.fB F.HST_STAT_AWAKE = true → s.fB F.HST_ALERT_PEND = true → clocks.toNat ≤ 2 →
    completes (.alertResponse true clocks) s (fun t => t.fB F.HST_ALERT_PEND = false ∧ t.fB F.HST_STAT_ALERTL = false ∧
      t.port.resp = ([s.addrByte + 1, crc8 [0x19, s.addrByte + 1]] : List Byte).take clocks.toNat ∧ t.port.nack = false ∧
      State.onlyRegs { s with port := t.port } t [F.HST_ALERT_PEND.addr 0, F.HST_STAT_ALERTL.addr 0])) ∧
  (∀ s (code : Byte), s.portUp = true → s.fB F.HST_STAT_AWAKE = true → s.pmKnown code.toNat = false →
    completes (.unsupportedCommand .twoWire code) s (fun t => t.port.nack = true ∧ t.port.resp = [] ∧ t.f F.HST_REF0_CODE = 1 ∧
      t.f F.HST_REF0_ADDR = 0xF000 + code.toNat ∧ (t.f F.HST_STAT_CML).testBit 7 = true ∧
      State.onlyRegs { s with port := t.port } t [F.HST_REF0_CODE.addr 0, F.HST_STAT_CML.addr 0])) ∧
  (∀ s (code : Byte), s.portLive .stream = true → knownCode .stream code.toNat = false →
    completes (.unsupportedCommand .stream code) s (fun t => t.port.sStatus = 1 ∧ t.f F.HST_REF1_CODE = 1 ∧
      t.f F.HST_REF1_ADDR = 0xF000 + code.toNat ∧ (t.f F.HST_STAT_CML).testBit 7 = true ∧
      State.onlyRegs { s with port := t.port } t [F.HST_REF1_CODE.addr 0, F.HST_STAT_CML.addr 0]))

/-- STREAM FRAMES. RDREG answers the words read, WRREG applies its words, RDFIFO answers the FIFO's words with their
end marks (R344 to R346); FIFOCTL carries out a command of CAP_FCTRL (R345); STREAM_STORE begins a store (R355). The
clauses rest on the readings of log entry 90. -/
def Obligations.StreamFramesComplete : Prop :=
  (∀ s (f : StreamFrame), s.takesFrame 0x01 .read f → f.len = 1 → completes (.rdreg f) s (fun t => t.port.sStatus = 0 ∧ t.port.sAux = 1 ∧
    t.port.sData = [(s.readWord .stream f.addr.toNat).2] ∧ t.port.sMarks = [] ∧ t.regs = (s.readWord .stream f.addr.toNat).1.regs ∧
    t.cl = s.cl ∧ t.pins = s.pins ∧ t.dev = s.dev)) ∧
  (∀ s (f : StreamFrame), s.takesFrame 0x01 .read f → 1 ≤ f.len.toNat → f.len.toNat ≤ 512 → completes (.rdreg f) s (fun t => t.port.sStatus = 0 ∧
    t.port.sData.length = f.len.toNat ∧ t.port.sAux = BitVec.ofNat 32 f.len.toNat ∧ t.cl = s.cl ∧ t.pins = s.pins ∧ t.dev = s.dev)) ∧
  (∀ s (v : Word) (f : StreamFrame), s.takesFrame 0x02 .write f → f.len = 1 → f.data = [v] → (writeWord .stream f.addr.toNat v s).2 = 0 →
    (writeWord .stream f.addr.toNat v s).1.portLive .stream = true → completes (.wrreg f) s (fun t =>
      t = (writeWord .stream f.addr.toNat v s).1.answerFrame 0 1 [] [])) ∧
  (∀ s (v : Word) (f : StreamFrame), s.takesFrame 0x02 .write f → f.len = 1 → f.data = [v] → s.hostOpen .stream → f.addr = 0x2E08 →
    completes (.wrreg f) s (fun t => t.owl.tok.get 0 = v ∧ t.port.sStatus = 0 ∧ t.port.sAux = 1 ∧ t.regs = s.regs)) ∧
  (∀ s (f : StreamFrame) (x : Word × Bool) (r : List (Word × Bool)), s.takesFrame 0x03 .read f → f.addr = 0 → f.len = 1 → s.f F.CAP_FSTAT_PKT_WAIT ≠ 0 → s.stream.rd = 0 → s.img.blevel ≠ 1 →
    s.stream.fifo = x :: r → completes (.rdfifo f) s (fun t => t.port.sStatus = 0 ∧ t.port.sData = [x.1] ∧ t.port.sMarks = [x.2] ∧
      t.stream.fifo = r ∧ t.f F.CAP_FSTAT_PKT_WAIT = s.f F.CAP_FSTAT_PKT_WAIT - x.2.toNat ∧ t.cl = s.cl ∧ t.pins = s.pins)) ∧
  (∀ s (f : StreamFrame), s.takesFrame 0x03 .read f → f.addr = 0 → f.len = 1 → s.f F.CAP_FSTAT_PKT_WAIT = 0 → completes (.rdfifo f) s (fun t =>
    t.port.sStatus = 0 ∧ t.port.sAux = 0 ∧ t.port.sData = [0] ∧ t.fB F.CAP_FSTAT_UNDER = true ∧
    State.onlyRegs { s with port := t.port } t [F.CAP_FSTAT_UNDER.addr 0])) ∧
  (∀ s (f : StreamFrame), s.takesFrame 0x04 .none f → f.len = 0 → s.dev ≠ .dormouse → f.addr.toNat % 256 = 1 → s.img.blevel ≠ 1 → s.stream.out = [] →
    s.stream.openPkt = [] → s.stream.midRead = false → completes (.fifoctl f) s (fun t => t.stream.fifo = [] ∧ t.port.sStatus = 0 ∧
      t.f F.CAP_FSTAT_PKT_WAIT = 0 ∧ t.f F.CAP_FLEVEL_WORDS = 0 ∧ State.onlyRegs { s with
        stream := t.stream, port := t.port, sup := { s.sup with hist := t.sup.hist } } t
        [F.CAP_FSTAT_PKT_WAIT.addr 0, F.CAP_FLEVEL_WORDS.addr 0])) ∧
  (∀ s (f : StreamFrame), s.takesFrame 0x04 .none f → f.len = 0 → s.dev ≠ .dormouse → f.addr.toNat % 256 = 2 → s.img.blevel = 1 → s.atBoundary = true →
    completes (.fifoctl f) s (fun t => t.stream = { s.stream with mark := s.stream.rd } ∧ t.port.sStatus = 0 ∧ t.regs = s.regs)) ∧
  (∀ s (f : StreamFrame), s.takesFrame 0x05 .none f → f.len = 0 → s.dev ≠ .dormouse → f.addr = 0xCA10 → s.storeRefusal = 0 → completes (.streamStore f) s (fun t =>
    t.fB F.STORE_STAT_BUSY = true ∧ t.nvm.storing.isSome = true ∧ t.port.sStatus = 0 ∧
    State.onlyRegs { s with nvm := t.nvm, port := t.port } t [F.STORE_STAT_BUSY.addr 0]))

/-- HOST WRITES, TRANSACTIONS AND THE STORE. A plain write stores the word and no other (R348); BEGIN opens a
transaction with the next token (R349); its owner's writes go to shadows and the running word stays (R350); COMMIT
begins the checks, which pass, or name the first failure and end it (R351); the commit tick copies the shadows (R352);
ROLLBACK and the timeout end it (R353); STORE begins a store, which completes in the other bank or fails (R355, R356).
The clauses rest on the readings of log entries 22, 79 and 83. -/
def Obligations.HostWritesTransactionsAndStoreComplete : Prop :=
  (∀ s (p : Port) (a : BitVec 16) (v : Word), s.hostOpen p → (commandWrite p a.toNat v s).isNone = true → specialReg a.toNat = false →
    (a.toNat < 0x1000 ∨ 0x2000 ≤ a.toNat ∨ a.toNat % 0x100 ≠ 0x13) →
    hasRwt a.toNat = false → ((s.hostStore a.toNat v).checkChanged [a.toNat]).isNone = true → completes (.registerWrite p a v) s (fun t =>
      t = (s.hostStore a.toNat v).afterWrite a.toNat)) ∧
  (∀ s (p : Port) (a : BitVec 16) (v : Word), s.portLive p = true → s.noImg = false → s.dev ≠ .dormouse → s.txnState = 1 → s.txnOwner p = true → hasStored a.toNat = true →
    s.f F.TXN_STATUS_COUNT < 256 → specialReg a.toNat = false →
    (s.layShadows.setReg a.toNat (mergeStored a.toNat (s.layShadows.reg a.toNat) v)).rangeFails a.toNat = false →
    completes (.registerWrite p a v) s (fun t => t.txn.shadows.head? = some (a.toNat, mergeStored a.toNat 0 v) ∧
      t.f F.TXN_STATUS_COUNT = s.f F.TXN_STATUS_COUNT + 1 ∧ t.txnState = 1 ∧
      t.reg a.toNat = clearOnes a.toNat (s.reg a.toNat) v ∧ State.onlyRegs { s with txn := t.txn } t
        [a.toNat, F.TXN_STATUS_COUNT.addr 0])) ∧
  (∀ s (p : Port), s.hostOpen p → completes (.begin p) s (fun t => t.txnState = 1 ∧ t.f F.TXN_STATUS_TOKEN = s.txn.tokenNext.toNat ∧
    t.txn.tokenNext = nextToken s.txn.tokenNext ∧ t.f F.TXN_STATUS_PORT = portNum p ∧ t.f F.TXN_STATUS_COUNT = 0 ∧ t.txn.shadows = [] ∧
    State.onlyRegs { s with txn := t.txn, sup := { s.sup with hist := t.sup.hist } } t [F.TXN_STATUS_STATE.addr 0])) ∧
  (∀ s (p : Port) (token : BitVec 8), s.portLive p = true → s.noImg = false → s.dev ≠ .dormouse → s.txnState = 1 → s.f F.TXN_STATUS_TOKEN = token.toNat →
    s.fB F.TXN_STATUS_OVF = false → completes (.commit p token) s (fun t => t.txnState = 2 ∧ t.txn = s.txn ∧
      State.onlyRegs { s with sup := { s.sup with hist := t.sup.hist } } t [F.TXN_STATUS_STATE.addr 0])) ∧
  (∀ s (p : Port) (token : BitVec 8), s.portLive p = true → s.noImg = false → s.dev ≠ .dormouse → s.txnState = 1 → s.f F.TXN_STATUS_TOKEN = token.toNat →
    s.fB F.TXN_STATUS_OVF = true → completes (.commit p token) s (fun t => t.txnState = 0 ∧ t.txn.shadows = [] ∧
      t.f F.TXN_STATUS_RESULT = 5)) ∧
  (∀ s (p : Port) (token : BitVec 8), s.portLive p = true → s.noImg = false → s.dev ≠ .dormouse → s.txnState = 1 → s.f F.TXN_STATUS_TOKEN = token.toNat →
    completes (.rollback p token) s (fun t => t.txnState = 0 ∧ t.txn.shadows = [] ∧ t.f F.TXN_STATUS_RESULT = 7 ∧
      State.onlyRegs { s with txn := t.txn, sup := { s.sup with hist := t.sup.hist } } t [F.TXN_STATUS_STATE.addr 0])) ∧
  (∀ s, s.txnState = 2 → (s.layShadows.checkChanged (s.shadowList.map (·.1))).isNone = true → (claimsFail s s.shadowList).isNone = true →
    completes .txnChecksComplete s (fun t => t.txnState = 3 ∧ t.txn.passTick = s.clk.tmr ∧ t.txn.shadows = s.txn.shadows ∧
      State.onlyRegs { s with txn := t.txn } t [F.TXN_STATUS_STATE.addr 0])) ∧
  (∀ s (c a : Nat), s.txnState = 2 → s.layShadows.checkChanged (s.shadowList.map (·.1)) = some (c, a) → s.txn.single.isNone = true →
    completes .txnChecksComplete s (fun t => t.txnState = 0 ∧ t.f F.TXN_STATUS_RESULT = (if c = 2 then 2 else 3) ∧
      t.txn.shadows = [] ∧ (a < 65536 → t.f F.TXN_FAIL_ADDR = a) ∧ State.onlyRegs { s with txn := t.txn } t
        [F.TXN_STATUS_STATE.addr 0, F.TXN_FAIL_ADDR.addr 0])) ∧
  (∀ s (a : Nat) (v : Word), s.txnState = 3 → s.clk.tmr.toNat % 1000 = 0 → s.clk.tmr ≠ s.txn.passTick → s.txn.shadows = [(a, v)] → specialReg a = false →
    completes .commitTick s (fun t => t = ((s.hostStore a v).afterWrite a).endTxn 1)) ∧
  (∀ s, s.txnState = 3 → s.clk.tmr.toNat % 1000 = 0 → s.clk.tmr ≠ s.txn.passTick → s.txn.shadows = [] → completes .commitTick s (fun t =>
    t.txnState = 0 ∧ t.f F.TXN_STATUS_RESULT = 1 ∧ t.f F.TXN_STATUS_TOKEN = 0 ∧
    State.onlyRegs { s with txn := t.txn } t [F.TXN_STATUS_STATE.addr 0])) ∧
  (∀ s, s.txnState = 1 → completes .txnTimeout s (fun t => t.txnState = 0 ∧ t.f F.TXN_STATUS_RESULT = 6 ∧ t.txn.shadows = [] ∧
    t.srcBit 0x2C8 = true ∧ State.reportsOnly { s with txn := t.txn } t [F.TXN_STATUS_STATE.addr 0])) ∧
  (∀ s (p : Port), s.hostOpen p → s.storeRefusal = 0 → completes (.store p key) s (fun t => t.fB F.STORE_STAT_BUSY = true ∧
    (t.nvm.storing.map (fun x => (x.1, x.2.seq, x.2.entries))) =
      some (s.storeTarget.1, s.storeTarget.2, rwsAddrs.map (fun a => (a, s.reg a))) ∧
    State.onlyRegs { s with nvm := t.nvm, sup := { s.sup with hist := t.sup.hist } } t [F.STORE_STAT_BUSY.addr 0])) ∧
  (∀ s (k : Fin 2) (b : Bank), s.nvm.storing = some (k, b) → completes (.storeComplete true) s (fun t => t.nvm.banks.get k = some b ∧
    t.nvm.torn.getLsbD k = false ∧ (∀ j, j ≠ k → t.nvm.banks.get j = s.nvm.banks.get j) ∧ t.nvm.storing = none ∧
    t.fB F.STORE_STAT_DONE = true ∧ t.fB F.STORE_STAT_BUSY = false ∧ t.f F.STORE_STAT_BANK = k.val ∧ t.reg 0x1A = b.seq ∧
    State.onlyRegs { s with nvm := t.nvm } t [F.STORE_STAT_BUSY.addr 0, 0x1A])) ∧
  (∀ s (k : Fin 2) (b : Bank), s.nvm.storing = some (k, b) → completes (.storeComplete false) s (fun t => t.nvm.banks.get k = none ∧
    t.nvm.torn.getLsbD k = true ∧ t.nvm.storing = none ∧ t.fB F.STORE_STAT_FAIL = true ∧ t.fB F.STORE_STAT_BUSY = false ∧
    (t.f F.HST_STAT_CML).testBit 4 = true ∧ t.srcBit 0x2CD = true ∧
    State.reportsOnly { s with nvm := t.nvm } t [F.STORE_STAT_BUSY.addr 0, F.HST_STAT_CML.addr 0]))

/-- THE FIELD BUSES. A due entry's transaction starts (R363); a good one stores its data, resets its age and ends its
stale spell, one not acknowledged is counted and raised (R361); a stale entry is raised once (R363); a lost
arbitration waits for a stop, and the ninth gives up (R364); a hang cuts the power for a cure, the fourth disables the
bus, and the power and the bus return (R365); PWRCYCLE cures a disabled bus (R377). The clauses rest on the readings
of log entries 36 and 37. -/
def Obligations.FieldBusCommandsComplete : Prop :=
  (∀ s (b : Fin 2) (e : Nat) (l : List Nat), s.busLive b = true → (s.bu b).cur = none → (s.bu b).waitStop = false → (s.bu b).onDemand = e :: l → e < 64 →
    completes (.fieldBusPoll b) s (fun t => (t.bu b).cur = some e ∧ (t.bu b).lost = 0 ∧ t.fB F.FLD_STAT_BUSY b = true ∧
      t.f F.FLD_STAT_LASTADDR b = s.poll b F.POLL1_A_ADDR e ∧ (∀ k, k ≠ b → t.bus.get k = s.bus.get k) ∧
      State.onlyRegs { s with bus := t.bus } t [F.FLD_STAT_BUSY.addr b])) ∧
  (∀ s (b : Fin 2) (e : Nat), s.busLive b = true → (s.bu b).cur = none → (s.bu b).waitStop = false → (s.bu b).onDemand = [] → s.nextPoll b = some e →
    completes (.fieldBusPoll b) s (fun t => (t.bu b).cur = some e ∧ (t.bu b).dueAt e = s.clk.ms.toNat + s.poll b F.POLL1_A_PERIOD e ∧
      t.fB F.FLD_STAT_BUSY b = true ∧ State.onlyRegs { s with bus := t.bus } t [F.FLD_STAT_BUSY.addr b])) ∧
  (∀ s (b : Fin 2) (e : Nat) (data : List Byte), (s.bu b).cur = some e → e < 64 → s.poll b F.POLL1_A_PROTO e ≠ 2 ∨ data.length = s.poll b F.POLL1_B_COUNT e →
    s.poll b F.POLL1_A_KIND e = 0 ∨ s.poll b F.POLL1_A_KIND e = 5 ∨ s.poll b F.POLL1_A_KIND e = 9 →
    completes (.fieldBusTransactionDone b 0 data) s (fun t => (t.bu b).cur = none ∧ (t.bu b).stale.getLsbD e = false ∧
      t.block (b, e) = some data ∧ t.f (pollFld b F.POLL1_R_RES) e = 0 ∧ t.f (pollFld b F.POLL1_R_AGE) e = 0 ∧
      (s.poll b F.POLL1_A_PROTO e ≤ 2 → t.f (pollFld b F.POLL1_D_DATA) e = leNat (data.take 4)) ∧ t.fB F.FLD_STAT_BUSY b = false ∧
      t.cl = s.cl ∧ t.bat = s.bat)) ∧
  (∀ s (b : Fin 2) (e : Nat) (r : Fin 4) (data : List Byte), (s.bu b).cur = some e → e < 64 → r = 1 ∨ r = 2 → completes (.fieldBusTransactionDone b r data) s (fun t =>
    (t.bu b).cur = none ∧ t.f (pollFld b F.POLL1_R_RES) e = r.val ∧ t.fB F.FLD_STAT_NACKF b = true ∧ t.srcBit (Src.fldNack b) = true ∧
    t.f F.FLD_CNT_NACK b = Nat.min (2 ^ F.FLD_CNT_NACK.w - 1) (s.f F.FLD_CNT_NACK b + 1) ∧ t.fB F.FLD_STAT_BUSY b = false ∧
    State.reportsOnly { s with bus := t.bus } t [(pollFld b F.POLL1_R_RES).addr e, F.FLD_STAT_BUSY.addr b, F.FLD_CNT_NACK.addr b])) ∧
  (∀ s (b : Fin 2) (e : Fin 64), s.busLive b = true → s.pollOn b e = true → s.poll b F.POLL1_A_PERIOD e ≠ 0 →
    staleKind (s.poll b F.POLL1_A_KIND e) = true → s.poll b F.POLL1_A_KIND e ≠ 6 → (s.bu b).stale.getLsbD e = false →
    completes (.fieldBusStale b e) s (fun t => (t.bu b).stale.getLsbD e = true ∧ t.fB F.FLD_STAT_STALEF b = true ∧
      t.srcBit (Src.fldStale b) = true ∧ State.reportsOnly { s with bus := t.bus } t [F.FLD_STAT_STALEF.addr b])) ∧
  (∀ s (b : Fin 2), (s.bu b).cur.isSome = true → (s.bu b).waitStop = false → (s.bu b).lost < 8 → completes (.fieldBusArbLost b) s (fun t =>
    (t.bu b).lost = (s.bu b).lost + 1 ∧ (t.bu b).waitStop = true ∧ (t.bu b).cur = (s.bu b).cur ∧
    t.f F.FLD_CNT_ARBLOST b = Nat.min (2 ^ F.FLD_CNT_ARBLOST.w - 1) (s.f F.FLD_CNT_ARBLOST b + 1) ∧
    State.onlyRegs { s with bus := t.bus } t [F.FLD_CNT_ARBLOST.addr b])) ∧
  (∀ s (b : Fin 2) (e : Nat), (s.bu b).cur = some e → e < 64 → (s.bu b).waitStop = false → (s.bu b).lost = 8 → completes (.fieldBusArbLost b) s (fun t =>
    (t.bu b).cur = none ∧ t.f (pollFld b F.POLL1_R_RES) e = 3 ∧ t.fB F.FLD_STAT_ARBF b = true ∧ t.srcBit (Src.fldArb b) = true ∧
    t.fB F.FLD_STAT_BUSY b = false ∧ t.f F.FLD_CNT_ARBFAIL b = Nat.min (2 ^ F.FLD_CNT_ARBFAIL.w - 1) (s.f F.FLD_CNT_ARBFAIL b + 1))) ∧
  (∀ s (b : Fin 2), (s.bu b).cure = .none → completes (.fieldBusRetry b) s (fun t => (t.bu b).waitStop = false ∧ (t.bu b).cur = (s.bu b).cur ∧
    (∀ k, k ≠ b → t.bus.get k = s.bus.get k) ∧ { t with bus := s.bus } = s)) ∧
  (∀ s (b : Fin 2) (scl : Bool), s.busLive b = true → (s.bu b).hangMs = [] → completes (.fieldBusHang b scl) s (fun t => (t.bu b).cure = .powerOff ∧
    t.pins.fpwr.getLsbD b = false ∧ t.fB F.FLD_STAT_PWROFF b = true ∧ t.fB F.FLD_STAT_HANGF b = true ∧ t.srcBit (Src.fldHang b) = true ∧
    (t.bu b).hangMs = [s.clk.ms.toNat] ∧ t.f F.FLD_CNT_HANGS b = Nat.min (2 ^ F.FLD_CNT_HANGS.w - 1) (s.f F.FLD_CNT_HANGS b + 1) ∧
    t.cl = s.cl ∧ t.dev = s.dev)) ∧
  (∀ s (b : Fin 2) (scl : Bool) (x y z : Nat), s.busLive b = true → (s.bu b).hangMs = [x, y, z] → s.clk.ms.toNat ≤ z + 10000 → completes (.fieldBusHang b scl) s (fun t =>
    t.fB F.FLD_STAT_DISABLED b = true ∧ (t.bu b).cure = .none ∧ (t.bu b).cur = none ∧ t.fB F.FLD_STAT_BUSY b = false ∧
    t.pins = s.pins ∧ t.f F.FLD_CNT_HANGS b = s.f F.FLD_CNT_HANGS b)) ∧
  (∀ s (b : Fin 2), (s.bu b).cure = .powerOff → s.dev ≠ .boot → completes (.fieldBusPowerRestore b) s (fun t => (t.bu b).cure = .wait ∧ t.pins.fpwr.getLsbD b = true ∧
    t.fB F.FLD_STAT_PWROFF b = false ∧ State.onlyRegs { s with bus := t.bus, pins := { s.pins with fpwr := t.pins.fpwr } } t
      [F.FLD_STAT_PWROFF.addr b])) ∧
  (∀ s (b : Fin 2), (s.bu b).cure = .wait → completes (.fieldBusResume b) s (fun t => (t.bu b).cure = .none ∧ (t.bu b).waitStop = false ∧
    (∀ k, k ≠ b → t.bus.get k = s.bus.get k) ∧ { t with bus := s.bus } = s)) ∧
  (∀ s (p : Port) (b : Fin 2), s.hostOpen p → completes (.pwrcycle p b key) s (fun t => t.fB F.FLD_STAT_DISABLED b = false ∧ (t.bu b).cure = .powerOff ∧
    t.pins.fpwr.getLsbD b = false ∧ t.fB F.FLD_STAT_PWROFF b = true ∧ t.srcBit (Src.fldHang b) = true ∧ t.cl = s.cl ∧ t.dev = s.dev))

/-- THE RING: LINK, MASTERSHIP AND BREAKS. The link comes up and goes down (R366, R372); a master-capable device
claims, yields to a higher claim, and becomes master on its own (R371); ENUM gives a member its address and tells the
master its nodes (R370); the beacon goes out with the next token, keeps a member running, and times the ring at the
master (R370); the periodic frames go out (R368); the master is lost, the ring opens, breaks and is enumerated again
(R371, R372). The clauses rest on the readings of log entry 38. -/
def Obligations.RingLinkAndMastershipComplete : Prop :=
  (∀ s, s.ringOn = true → s.ring.rxUp = false → completes .ringLinkUp s (fun t => t.ring = { s.ring with rxUp := true } ∧
    (s.f F.LNK_STAT_STATE < 2 → t.f F.LNK_STAT_STATE = 2) ∧ t.srcBit Src.lnkDown = false ∧ t.srcBit Src.lnkBreak = false ∧
    State.onlyRegs { s with ring := { s.ring with rxUp := true } } t [F.LNK_STAT_STATE.addr 0, F.SUPV_SRC_SRC.addr (Src.lnkDown / 32)])) ∧
  (∀ s (viol : BitVec 16), s.ringOn = true → s.ring.rxUp = true → completes (.ringLinkDown viol) s (fun t => t.ring.rxUp = false ∧
    (s.f F.LNK_STAT_STATE ≠ 5 → t.f F.LNK_STAT_STATE = 1) ∧ t.srcBit Src.lnkDown = true ∧
    t.f F.LNK_ERR_CODEV = Nat.min (2 ^ F.LNK_ERR_CODEV.w - 1) (s.f F.LNK_ERR_CODEV + viol.toNat) ∧
    (s.isMember = true → t.fB F.LNK_STAT_BREAKF = true ∧ t.srcBit Src.lnkBreak = true ∧ t.ring.sent.length = 1) ∧
    State.reportsOnly { s with ring := t.ring } t [F.LNK_STAT_STATE.addr 0, F.LNK_ERR_CODEV.addr 0])) ∧
  (∀ s, s.isMember = true → s.ring.rxUp = false → completes .breakSend s (fun t => t.ring.sent = [frameBytes 11 s.ownProt
    (s.f F.LNK_STAT_ADDR) 0 false s.ring.seq.toNat (BitVec.ofNat 8 (s.f F.LNK_STAT_ADDR) :: List.replicate 7 0)] ∧
    t.ring.seq = s.ring.seq + 1 ∧ { t with ring := s.ring } = s)) ∧
  (∀ s, s.ringOn = true → s.shelf = true → s.fB F.LNK_CFG_MCAP = true → s.ring.rxUp = true → s.f F.LNK_STAT_STATE ≠ 5 → s.dev ≠ .safe →
    completes .ringClaim s (fun t => t.f F.LNK_STAT_STATE = 3 ∧ t.fB F.LNK_STAT_ADDRV = false ∧ t.ring.claimHi = false ∧
      t.ring.sent = [frameBytes 3 s.ownProt (s.f F.LNK_STAT_ADDR) 0 true s.ring.seq.toNat s.claimPay] ∧
      State.onlyRegs { s with ring := t.ring } t [F.LNK_STAT_STATE.addr 0])) ∧
  (∀ s (f : RingFrame), s.ringOn = true → s.ring.rxUp = true → s.f F.LNK_STAT_STATE = 3 → f.pay.toList = s.claimPay → s.ring.claimHi = false →
    completes (.claim f) s (fun t => t.f F.LNK_STAT_STATE = 5 ∧ t.f F.LNK_STAT_ADDR = 0 ∧ t.fB F.LNK_STAT_ADDRV = true ∧
      t.ring.token = 0 ∧ t.ring.hadMaster = true ∧ t.ring.lost = false ∧ t.ring.orderRx = .none ∧ t.f F.LNK_STAT_RORDER = 0 ∧
      t.ring.sent.length = 1)) ∧
  (∀ s (f : RingFrame), s.ringOn = true → s.ring.rxUp = true → s.f F.LNK_STAT_STATE = 3 → f.pay.toList ≠ s.claimPay → s.claimAbove f = true →
    completes (.claim f) s (fun t => t.f F.LNK_STAT_STATE = 2 ∧ t.ring.claimHi = true ∧ t.ring.claimSeen = true ∧ t.ring.sent = [] ∧
      State.onlyRegs { s with ring := t.ring } t [F.LNK_STAT_STATE.addr 0])) ∧
  (∀ s (f : RingFrame), s.ringOn = true → s.ring.rxUp = true → s.f F.LNK_STAT_STATE = 5 → f.b 0 ≤ 64 → completes (.enum f) s (fun t =>
    t.f F.LNK_STAT_NODES = f.b 0 ∧ t.f F.LNK_STAT_PROT = f.b 1 % 4 ∧ t.srcBit Src.lnkNodes = false ∧
    (∀ p : Fin 64, t.fB F.NODE_A_REACH p = decide (p.val < f.b 0) ∧ t.fB F.NODE_A_RPTD p = false) ∧ t.dev = s.dev ∧ t.cl = s.cl)) ∧
  (∀ s (f : RingFrame), s.ringOn = true → s.ring.rxUp = true → s.f F.LNK_STAT_STATE ≠ 5 → 1 ≤ f.b 0 → f.b 0 ≤ 63 → completes (.enum f) s (fun t =>
    t.f F.LNK_STAT_ADDR = f.b 0 ∧ t.fB F.LNK_STAT_ADDRV = true ∧ (s.f F.LNK_STAT_STATE ≠ 4 → t.f F.LNK_STAT_STATE = 2) ∧
    t.ring.sent = [frameBytes 2 f.prot.toNat f.src.toNat f.dst.toNat f.bcast f.seq.toNat ([BitVec.ofNat 8 (f.b 0 + 1),
      BitVec.ofNat 8 (Nat.min (f.b 1) (s.f F.LNK_CFG_PROTMAX))] ++ List.replicate 6 0)] ∧ t.dev = s.dev ∧ t.cl = s.cl)) ∧
  (∀ s, s.isMaster = true → completes .beaconSend s (fun t => t.ring.token = (if s.ring.token + 1 < s.f F.LNK_STAT_NODES then s.ring.token + 1
      else if 2 ≤ s.f F.LNK_STAT_NODES then 1 else 0) ∧ t.ring.beacons = s.ring.beacons + 1 ∧ t.ring.seq = s.ring.seq + 1 ∧
    t.ring.sent.length = 1 ∧ { t with ring := s.ring } = s)) ∧
  (∀ s (f : RingFrame) (steady : Bool) (rt : BitVec 32), s.ringOn = true → s.ring.rxUp = true → s.f F.LNK_STAT_STATE = 5 → s.f F.LNK_STAT_NODES ≠ 0 →
    completes (.beacon f steady rt) s (fun t => t.fB F.LNK_STAT_CLOSED = true ∧ t.ring.hopd = rt.toNat / s.f F.LNK_STAT_NODES ∧
      State.onlyRegs { s with ring := t.ring } t [F.LNK_STAT_CLOSED.addr 0])) ∧
  (∀ s (f : RingFrame) (steady : Bool) (rt : BitVec 32), s.ringOn = true → s.ring.rxUp = true → s.f F.LNK_STAT_STATE ≠ 5 → s.fB F.LNK_STAT_ADDRV = true →
    completes (.beacon f steady rt) s (fun t => t.f F.LNK_STAT_STATE = 4 ∧ t.ring.hadMaster = true ∧
      (f.b 1 < 128 → t.f F.LNK_STAT_NODES = f.b 1) ∧ (steady = true → t.ring.lost = false) ∧
      (f.b 0 = s.f F.LNK_STAT_ADDR → t.ring.sent.length = 1) ∧ (f.b 0 ≠ s.f F.LNK_STAT_ADDR → t.ring.sent = []) ∧
      State.onlyRegs { s with ring := t.ring } t [F.LNK_STAT_STATE.addr 0, F.SUPV_SRC_SRC.addr (Src.lnkMlost / 32)])) ∧
  (∀ s, s.isMaster = true → completes (.masterPeriodicSend 0) s (fun t => t.ring.sent = [frameBytes 6 s.ownProt (s.f F.LNK_STAT_ADDR) 0 true
    s.ring.seq.toNat ([BitVec.ofNat 8 (s.f F.LNK_ORDER_FIRST), BitVec.ofNat 8 (s.f F.LNK_ORDER_LAST),
      BitVec.ofNat 8 (s.f F.LNK_ORDER_ORDER)] ++ List.replicate 5 0)] ∧ { t with ring := s.ring } = s)) ∧
  (∀ s (kind : Fin 4), s.isMaster = true → s.f F.LNK_STAT_PROT = 2 → completes (.masterPeriodicSend kind) s (fun t => t.ring.sent.length = 1 ∧
    t.ring.seq = s.ring.seq + 1 ∧ { t with ring := s.ring, freeIdx := s.freeIdx } = s)) ∧
  (∀ s, s.isMember = true → s.ring.lost = false → completes .masterLost s (fun t => t.ring.lost = true ∧ t.fB F.LNK_STAT_MLOST = true ∧
    t.srcBit Src.lnkMlost = true ∧ t.fB F.THM_RACK_RVALID = false ∧ t.ring.orderRx = .none ∧ t.f F.LNK_STAT_RORDER = 0)) ∧
  (∀ s, s.f F.LNK_STAT_STATE = 5 → s.fB F.LNK_STAT_BRKV = false → completes .ringOpenTimeout s (fun t => t.ring.freeze = true ∧
    t.fB F.LNK_STAT_CLOSED = false ∧ State.onlyRegs { s with ring := { s.ring with freeze := true } } t [F.LNK_STAT_CLOSED.addr 0])) ∧
  (∀ s, s.isMaster = true → s.fB F.LNK_STAT_BRKV = true ∨ s.ring.freeze = true → completes .ringReenumerate s (fun t =>
    t.ring.freeze = false ∧ t.fB F.LNK_STAT_BRKV = false ∧ t.f F.LNK_STAT_BRKPOS = 0 ∧ t.ring.sent = [frameBytes 2 s.ownProt
      (s.f F.LNK_STAT_ADDR) 0 true s.ring.seq.toNat ([1, BitVec.ofNat 8 (s.f F.LNK_CFG_PROTMAX)] ++ List.replicate 6 0)] ∧
    State.onlyRegs { s with ring := t.ring } t [F.LNK_STAT_BRKV.addr 0, F.LNK_STAT_BRKPOS.addr 0])) ∧
  (∀ s (f : RingFrame), s.ringOn = true → s.ring.rxUp = true → s.f F.LNK_STAT_STATE = 5 → f.b 0 < 64 → completes (.ringBreak f) s (fun t =>
    t.f F.LNK_STAT_BRKPOS = f.b 0 ∧ t.fB F.LNK_STAT_BRKV = true ∧ t.fB F.LNK_STAT_CLOSED = false ∧
    (∀ p : Fin 64, t.fB F.NODE_A_REACH p = (s.fB F.NODE_A_REACH p && decide (p.val < f.b 0))) ∧ t.cl = s.cl ∧ t.dev = s.dev))

/-- THE RING: THE RACK'S FRAMES AND BUDGETS. A member takes its budget and a cap order (R373), an on or off order
(R375), the bus bar's state (R368), the master's time and the shared reference (R373); the master takes reports
(R373); a discarded frame is counted and still forwarded (R367); the budget is computed and a rectifier goes offline
(R374); LNK_ORDER is written (R374). The clauses rest on the readings of log entries 29 and 30. -/
def Obligations.RackFramesAndBudgetComplete : Prop :=
  (∀ s (f : RingFrame), s.ring.rxUp = true → s.addressed f.dst.toNat f.dst.toNat = true → completes (.budget f) s (fun t =>
    t.f F.THM_RACK_RBUD = f.h 0 ∧ t.fB F.THM_RACK_RVALID = true ∧ t.ring.sent = [] ∧
    State.onlyRegs { s with ring := t.ring } t [F.THM_RACK_RBUD.addr 0, F.THM_RACK_RVALID.addr 0])) ∧
  (∀ s (f : RingFrame), s.ring.rxUp = true → s.addressed (f.b 0) (f.b 1) = true → s.f F.LNK_STAT_PROT = 2 → completes (.capord f) s (fun t =>
    t.f F.THM_RACK_RBUD = s.f F.THM_RACK_RBUD * f.h 2 / 256 % 65536 ∧ t.f F.THM_RACK_RDENS = f.h 4 % 512 ∧
    (f.h 4 % 512 ≠ 0 → t.srcBit Src.brdCapsat = true) ∧ State.reportsOnly { s with ring := t.ring } t
      [F.THM_RACK_RBUD.addr 0, F.THM_RACK_RDENS.addr 0])) ∧
  (∀ s (f : RingFrame), s.ring.rxUp = true → s.addressed (f.b 0) (f.b 1) = true → s.f F.LNK_STAT_PROT = 1 → completes (.capord f) s (fun t =>
    t.f F.THM_RACK_RBUD = s.f F.THM_RACK_RBUD * f.h 2 / 256 % 65536 ∧ t.f F.THM_RACK_RDENS = s.f F.THM_RACK_RDENS ∧
    State.onlyRegs { s with ring := t.ring } t [F.THM_RACK_RBUD.addr 0])) ∧
  (∀ s (f : RingFrame), s.ring.rxUp = true → s.addressed (f.b 0) (f.b 1) = true → f.b 2 = 2 → s.fB F.DEV_ONOFF_CFG_RING_USE = true →
    completes (.onoff f) s (fun t => t.ring.orderRx = .off ∧ t.f F.LNK_STAT_RORDER = 2 ∧ t.fB F.DEV_STATE_ONREQ = false)) ∧
  (∀ s (f : RingFrame), s.ring.rxUp = true → s.addressed (f.b 0) (f.b 1) = true → f.b 2 = 1 → completes (.onoff f) s (fun t =>
    t.ring.orderRx = .on ∧ t.f F.LNK_STAT_RORDER = 1)) ∧
  (∀ s (f : RingFrame), s.ringOn = true → s.ring.rxUp = true → completes (.busstate f) s (fun t => t.ring.bus = {
      segA := BitVec.ofNat 16 (f.h 0), segB := BitVec.ofNat 16 (f.h 2), rects := BitVec.ofNat 8 (f.b 4)
      soc := BitVec.ofNat 8 (f.b 5), hold := f.b 6 % 2 == 1 } ∧
    { t with ring := s.ring } = s)) ∧
  (∀ s (f : RingFrame), s.ring.rxUp = true → s.isMember = true → s.f F.LNK_STAT_PROT = 2 → completes (.time f) s (fun t =>
    t.reg (F.LNK_TOFS_TOFS.addr 0) = BitVec.ofInt 32 ((leNat (f.pay.toList.take 6) : Int) +
      roundAway (((s.f F.LNK_STAT_ADDR * f.h 6 : Nat) : Rat) / 100) - (s.clk.tmr.toNat : Int)) ∧
    State.onlyRegs { s with ring := t.ring } t [F.LNK_TOFS_TOFS.addr 0])) ∧
  (∀ s (f : RingFrame), s.ring.rxUp = true → s.isMember = true → s.f F.LNK_STAT_PROT = 2 → s.shelf = true → completes (.share f) s (fun t =>
    t.ring.share = BitVec.ofNat 16 (f.h 0) ∧ t.cl = s.cl ∧ t.dev = s.dev ∧ t.pins = s.pins)) ∧
  (∀ s (f : RingFrame), s.ringOn = true → s.ring.rxUp = true → s.f F.LNK_STAT_STATE = 5 → f.src.toNat < 64 → completes (.report f) s (fun t =>
    t.fB F.NODE_A_RPTD f.src.toNat = true ∧ t.f F.NODE_B_PWR f.src.toNat = f.h 0 ∧ t.f F.NODE_B_LBUD f.src.toNat = f.h 2 ∧
    State.onlyRegs { s with ring := t.ring } t [F.NODE_A_RPTD.addr f.src.toNat, F.NODE_B_PWR.addr f.src.toNat])) ∧
  (∀ s (raw : List Byte) (within : BitVec 8), s.ringOn = true → s.ring.rxUp = true → completes (.ringFrameDiscard raw within) s (fun t => t.ring.fwd = [raw] ∧
    t.ring.sent = [] ∧ t.f F.LNK_ERR_CRC = Nat.min (2 ^ F.LNK_ERR_CRC.w - 1) (s.f F.LNK_ERR_CRC + 1) ∧
    (within = 16 → t.srcBit Src.lnkCrc = true) ∧ State.reportsOnly { s with ring := t.ring } t [F.LNK_ERR_CRC.addr 0])) ∧
  (∀ s (pg : BitVec 12), s.shelf = true → s.ringOn = true → s.isMaster = false → completes (.rackBudgetCompute pg) s (fun t =>
    (∀ k : Fin 12, s.fB F.RKM_CFG_EN k = true → pg.getLsbD k = true → t.fB F.RKM_STAT_PG k = true ∧
      t.fB F.RKM_STAT_ONLINE k = (!s.fB F.RKM_STAT_STALE k && !(s.f F.RKM_STAT_STATUS k).testBit 6)) ∧
    t.f F.LNK_RKBUD_ONLINE = ((List.range 12).filter (fun k => t.fB F.RKM_STAT_ONLINE k)).length ∧ t.cl = s.cl ∧ t.dev = s.dev ∧
    t.pins = s.pins)) ∧
  (∀ s (pg : BitVec 12), s.shelf = true → s.isMaster = true → completes (.rackBudgetCompute pg) s (fun t =>
    t.f F.LNK_RKBUD_RB = t.rackBudget % 2 ^ F.LNK_RKBUD_RB.w ∧
    t.f F.LNK_RKBUD_ONLINE = ((List.range 12).filter (fun k => t.fB F.RKM_STAT_ONLINE k)).length ∧ t.cl = s.cl ∧ t.dev = s.dev)) ∧
  (∀ s (k : Fin 12), s.shelf = true → s.fB F.RKM_CFG_EN k = true → s.fB F.RKM_STAT_ONLINE k = true → completes (.rectifierOffline k) s (fun t =>
    t.fB F.RKM_STAT_PG k = false ∧ t.fB F.RKM_STAT_ONLINE k = false ∧ t.fB F.RKM_STAT_LOSTF k = true ∧ t.srcBit Src.rkRect = true ∧
    t.f F.LNK_RKBUD_ONLINE = ((List.range 12).filter (fun j => t.fB F.RKM_STAT_ONLINE j)).length ∧ t.cl = s.cl ∧ t.dev = s.dev)) ∧
  (∀ s (p : Port) (v : Word), s.hostOpen p → F.LNK_ORDER_ORDER.get v ≠ 3 → F.LNK_ORDER_RDENS.get v ≤ 256 → s.isMaster = false →
    completes (.lnkOrderWrite p v) s (fun t => t.f F.LNK_ORDER_ORDER = F.LNK_ORDER_ORDER.get v ∧
      t.f F.LNK_ORDER_RDENS = F.LNK_ORDER_RDENS.get v ∧ t.f F.LNK_ORDER_FIRST = F.LNK_ORDER_FIRST.get v ∧
      t.f F.LNK_ORDER_LAST = F.LNK_ORDER_LAST.get v ∧ s.onlyRegs t [F.LNK_ORDER_ORDER.addr 0])) ∧
  (∀ s (p : Port) (v : Word), s.hostOpen p → F.LNK_ORDER_ORDER.get v ≠ 3 → F.LNK_ORDER_RDENS.get v ≤ 256 → s.isMaster = true →
    F.LNK_ORDER_RDENS.get v ≠ s.f F.LNK_ORDER_RDENS → completes (.lnkOrderWrite p v) s (fun t =>
      t.f F.LNK_ORDER_RDENS = F.LNK_ORDER_RDENS.get v ∧ t.ring.sent.length = 1 ∧ t.ring.order = s.ring.order + 1 ∧
      State.onlyRegs { s with ring := t.ring } t [F.LNK_ORDER_ORDER.addr 0]))

/-- THE OWL RECORDER. The time slot is written (R379); the oldest staged record takes the next slot, or the one after
a bad one, or is counted where the log is full (R385 to R387); the overflow record is written again (R386); a slot is
read at OWL_IDX (R388); a snapshot is triggered, frozen, copied and read (R389, R390); CLEAR with the right token
begins and its completion empties the log; a wrong token is counted (R391 to R393). The clauses rest on the readings
of log entries 39, 40 and 42. -/
def Obligations.OwlRecorderCommandsComplete : Prop :=
  (∀ s, s.nvmOpen = true → completes .timeSlotWrite s (fun t => t.nvm.timeSlot = (s.clk.ms, s.nvm.timeSlot.2) ∧
    { t with nvm := { t.nvm with timeSlot := s.nvm.timeSlot } } = s)) ∧
  (∀ s (r : OwlRec) (rest : List OwlRec) (fail2 : Bool), s.nvmOpen = true → s.fB F.OWL_STAT_CLRBUSY = false → s.owl.staging = r :: rest → s.fB F.OWL_STAT_FULL = false →
    s.f F.OWL_STAT_NEXT < 4095 → completes (.recordNvmWrite false fail2) s (fun t => t.owl.staging = rest ∧
      t.owlSlot (s.f F.OWL_STAT_NEXT) = some (.words r.words) ∧ t.f F.OWL_STAT_NEXT = s.f F.OWL_STAT_NEXT + 1 ∧
      t.fB F.OWL_STAT_FULL = (s.f F.OWL_STAT_NEXT + 1 == 4095) ∧
      State.onlyRegs { s with owl := t.owl, sup := { s.sup with actsOpen := t.sup.actsOpen } } t
        [F.OWL_STAT_NEXT.addr 0, F.SUPV_STAT_HDONE.addr 0])) ∧
  (∀ s (r : OwlRec) (rest : List OwlRec), s.nvmOpen = true → s.fB F.OWL_STAT_CLRBUSY = false → s.owl.staging = r :: rest → s.fB F.OWL_STAT_FULL = false →
    s.f F.OWL_STAT_NEXT < 4094 → completes (.recordNvmWrite true false) s (fun t => t.owl.staging = rest ∧
      t.owlSlot (s.f F.OWL_STAT_NEXT) = some .bad ∧ t.owlSlot (s.f F.OWL_STAT_NEXT + 1) = some (.words r.words) ∧
      t.f F.OWL_STAT_NEXT = s.f F.OWL_STAT_NEXT + 2 ∧ t.srcBit Src.nvmWfail = true)) ∧
  (∀ s (r : OwlRec) (rest : List OwlRec) (fail1 fail2 : Bool), s.nvmOpen = true → s.fB F.OWL_STAT_CLRBUSY = false → s.owl.staging = r :: rest → s.fB F.OWL_STAT_FULL = true →
    completes (.recordNvmWrite fail1 fail2) s (fun t => t.owl.staging = rest ∧ t.f F.OWL_STAT_NEXT = s.f F.OWL_STAT_NEXT ∧
      t.f F.OWL_LOST_EVENTS = Nat.min (2 ^ F.OWL_LOST_EVENTS.w - 1) (s.f F.OWL_LOST_EVENTS + 1) ∧ t.owl.firstLost.isSome = true ∧
      (s.owl.firstLost = none → t.srcBit Src.owlFull = true ∧ t.fB F.OWL_STAT_OVFW = true))) ∧
  (∀ s, s.nvmOpen = true → s.fB F.OWL_STAT_OVFW = true → s.owl.ovfChanged = true → completes .overflowRecordRewrite s (fun t =>
    t.owl.ovfChanged = false ∧ (t.owlSlot 4095).isSome = true ∧ t.reg 0x2E02 = s.reg 0x2E02 + 1 ∧
    State.onlyRegs { s with owl := { s.owl with slots := t.owl.slots, ovfChanged := false } } t [0x2E02])) ∧
  (∀ s (p : Port) (v : Word) (w : List Word) (writing : Bool), s.hostOpen p → s.owlSlot (F.OWL_IDX_IDX.get v) = some (.words w) → completes (.owlIdxWrite p v writing) s (fun t =>
    t.f F.OWL_IDX_IDX = F.OWL_IDX_IDX.get v ∧ t.f F.OWL_IDX_STATE = 1 ∧ (∀ j : Fin 16, t.reg (0x2E10 + j.val) = w.getD j.val 0) ∧
    s.onlyRegs t (F.OWL_IDX_IDX.addr 0 :: (List.range 16).map (fun j => 0x2E10 + j)))) ∧
  (∀ s (p : Port) (v : Word), s.hostOpen p → s.owlSlot (F.OWL_IDX_IDX.get v) = none → completes (.owlIdxWrite p v false) s (fun t =>
    t.f F.OWL_IDX_IDX = F.OWL_IDX_IDX.get v ∧ t.f F.OWL_IDX_STATE = 0 ∧ (∀ j : Fin 16, t.reg (0x2E10 + j.val) = 0xFFFFFFFF) ∧
    s.onlyRegs t (F.OWL_IDX_IDX.addr 0 :: (List.range 16).map (fun j => 0x2E10 + j)))) ∧
  (∀ s (p : Port), s.hostOpen p → s.snapRefused = false → completes (.owlSnap p key) s (fun t => t.fB F.OWL_SNAPST_BUSY = true ∧
    t.owl.snapTrig = some 2 ∧ t.owl.snapFrozen = false ∧ t.owl.snapAt = (s.nowUs, s.clk.tmr) ∧ State.onlyRegs { s with
      owl := t.owl, sup := { s.sup with hist := t.sup.hist } } t [F.OWL_SNAPST_BUSY.addr 0])) ∧
  (∀ s (p : Port), s.hostOpen p → s.snapRefused = true → completes (.owlSnap p key) s (fun t =>
    t.f F.OWL_LOST_SNAPS = Nat.min (2 ^ F.OWL_LOST_SNAPS.w - 1) (s.f F.OWL_LOST_SNAPS + 1) ∧ State.onlyRegs { s with
      sup := { s.sup with hist := t.sup.hist } } t [F.OWL_LOST_SNAPS.addr 0])) ∧
  (∀ s, s.owl.snapTrig.isSome = true → completes .snapshotFreeze s (fun t => t = { s with owl := { s.owl with snapFrozen := true } })) ∧
  (∀ s (trig : Nat), s.owl.snapTrig = some trig → s.owl.snapFrozen = true → s.nvmOpen = true → s.f F.OWL_SNAPST_USED < 32 →
    completes .snapshotCopyComplete s (fun t => t.owl.snapshots = s.owl.snapshots ++ [Vector.ofFn (fun j => (s.snapWords trig).getD j 0)] ∧
      t.f F.OWL_SNAPST_USED = s.f F.OWL_SNAPST_USED + 1 ∧ t.owl.snapTrig = none ∧ t.owl.snapFrozen = false ∧ t.stream.snap = [] ∧
      t.stream.snapOpen = [] ∧ t.fB F.OWL_SNAPST_BUSY = false ∧ t.cl = s.cl ∧ t.pins = s.pins)) ∧
  (∀ s, s.portLive .stream = true → s.noImg = false → s.f F.OWL_SNAPA_SNAP < s.owl.snapshots.length → completes (.snapshotRead .stream) s (fun t =>
    t.port.sData = [((s.owl.snapshots.getD (s.f F.OWL_SNAPA_SNAP) (Vector.replicate 1024 0)).toList.getD (s.f F.OWL_SNAPA_WORD) 0)] ∧
    t.f F.OWL_SNAPA_WORD = (s.f F.OWL_SNAPA_WORD + 1) % 1024 ∧ State.onlyRegs { s with port := t.port } t [F.OWL_SNAPA_WORD.addr 0])) ∧
  (∀ s, s.portLive .twoWire = true → s.noImg = false → s.owl.snapshots.length ≤ s.f F.OWL_SNAPA_SNAP →
    completes (.snapshotRead .twoWire) s (fun t => t.port.resp = [0xFF, 0xFF, 0xFF, 0xFF] ∧
      t.f F.OWL_SNAPA_WORD = (s.f F.OWL_SNAPA_WORD + 1) % 1024 ∧ State.onlyRegs { s with port := t.port } t [F.OWL_SNAPA_WORD.addr 0])) ∧
  (∀ s (p : Port), s.hostOpen p → s.dev = .standby ∨ s.dev = .run → s.fB F.OWL_STAT_CLRBUSY = false → s.owl.fails < 4 →
    s.clearToken = s.owl.tok.toList → s.nvmOpen = true → completes (.clear p key) s (fun t => t.fB F.OWL_STAT_CLRBUSY = true ∧
      t.reg 0x2E05 = s.reg 0x2E05 + 1 ∧ t.nvm.clear = (s.reg 0x2E05 + 1, s.reg 0x2E02) ∧ t.owl.clrPend = true ∧
      t.reg 0x2E02 = s.reg 0x2E02 + 1 ∧ t.owl.slots = s.owl.slots ∧ State.onlyRegs { s with
        owl := t.owl, nvm := t.nvm, sup := { s.sup with hist := t.sup.hist } } t [F.OWL_STAT_CLRBUSY.addr 0, 0x2E02, 0x2E05])) ∧
  (∀ s (p : Port), s.hostOpen p → s.dev = .standby ∨ s.dev = .run → s.fB F.OWL_STAT_CLRBUSY = false → s.owl.fails < 4 →
    s.clearToken ≠ s.owl.tok.toList → completes (.clear p key) s (fun t => t.owl.fails = s.owl.fails + 1 ∧
      t.fB F.OWL_STAT_TOKFAIL = true ∧ t.srcBit Src.owlClrfail = true ∧ t.fB F.OWL_STAT_CMD_REF = true ∧
      t.fB F.OWL_STAT_CLRBUSY = false ∧ t.reg 0x2E05 = s.reg 0x2E05 ∧ t.owl.slots = s.owl.slots)) ∧
  (∀ s, s.fB F.OWL_STAT_CLRBUSY = true → s.owl.clrPend = true → s.f F.DEV_PWRSTAT_LSTAGE < 2 → completes .clearComplete s (fun t =>
    t.owl.slots.length = 1 ∧ (t.owlSlot 0).isSome = true ∧ t.owl.snapshots = [] ∧ t.owl.tsd = [] ∧ t.owl.clrPend = false ∧
    t.f F.OWL_STAT_NEXT = 1 ∧ t.fB F.OWL_STAT_FULL = false ∧ t.fB F.OWL_STAT_OVFW = false ∧ t.fB F.OWL_STAT_CLRBUSY = false ∧
    t.f F.OWL_SNAPST_USED = 0 ∧ t.reg 0x2E01 = 0 ∧ State.onlyRegs { s with owl := t.owl } t
      [F.OWL_STAT_NEXT.addr 0, F.OWL_SNAPST_USED.addr 0, 0x2E01, 0x2806]))

/-- FIELD UPDATE. A session opens, stages units, and programs a block whose CRC is right (R394, R395); the block's
bytes are written to the inactive slot and no other byte of the flash changes (R395); the session is verified,
abandoned or times out (R394, R396); a trial is confirmed by the host or by time, a pending activation is cancelled,
and the trial time is kept (R397 to R399). The clauses rest on the readings of log entries 75 and 76. -/
def Obligations.FieldUpdateCommandsComplete : Prop :=
  (∀ s (f : StreamFrame), s.takesFrame 0x10 .write f → s.session < 2 → f.addr = 0 → f.len = 1 → f.data = [0xCA10] →
    s.dev = .standby ∨ s.dev = .sequp ∨ s.dev = .run ∨ s.dev = .seqdn → s.fB F.UPD_STAT_TRIAL = false → completes (.upopen f) s (fun t =>
      t.session = 1 ∧ t.upd = {} ∧ t.nvm.boot.pend = none ∧ t.fB F.UPD_STAT_PEND = false ∧ t.reg 0x3311 = 0 ∧ t.port.sStatus = 0 ∧
      t.port.sAux = BitVec.ofNat 32 s.inactiveSlot.toNat ∧ t.flash = s.flash ∧ t.cl = s.cl ∧ t.dev = s.dev)) ∧
  (∀ s (f : StreamFrame), s.takesFrame 0x11 .write f → s.session = 1 → f.addr.toNat < 2048 → f.len = 512 → completes (.upwrite f) s (fun t =>
    t.unit f.addr.toNat = some f.data ∧ (∀ k : Fin 2048, k.val ≠ f.addr.toNat → t.unit k = s.unit k) ∧ t.port.sStatus = 0 ∧
    { t with upd := s.upd, port := s.port } = s)) ∧
  (∀ s (f : StreamFrame) (a b : List Word), s.takesFrame 0x12 .write f → s.session = 1 → f.addr.toNat < 2048 → f.addr.toNat % 2 = 0 → f.len = 1 →
    s.unit f.addr.toNat = some a → s.unit (f.addr.toNat + 1) = some b → f.data = [crcWords (a ++ b)] → completes (.upblock f) s (fun t =>
      t.session = 2 ∧ t.upd.block = some (f.addr.toNat / 2) ∧ t.upd.units = s.upd.units ∧ t.port.sStatus = 0 ∧ t.flash = s.flash ∧
      State.onlyRegs { s with upd := t.upd, port := t.port, freeIdx := t.freeIdx } t [F.UPD_STAT_SESSION.addr 0])) ∧
  (∀ s (f : StreamFrame) (a b : List Word) (c : Word), s.takesFrame 0x12 .write f → s.session = 1 → f.addr.toNat < 2048 → f.addr.toNat % 2 = 0 → f.len = 1 →
    s.unit f.addr.toNat = some a → s.unit (f.addr.toNat + 1) = some b → f.data = [c] → c ≠ crcWords (a ++ b) →
    completes (.upblock f) s (fun t => t.session = 1 ∧ t.f F.UPD_STAT_RESULT = 0x22 ∧ t.port.sAux = 0x22 ∧ t.srcBit Src.updBlkfail = true ∧
      t.upd = s.upd ∧ t.flash = s.flash)) ∧
  (∀ s (f : StreamFrame), s.takesFrame 0x12 .write f → s.session = 1 → f.addr.toNat < 2048 → f.addr.toNat % 2 = 0 → f.len = 1 →
    s.unit f.addr.toNat = none → completes (.upblock f) s (fun t => t.f F.UPD_STAT_RESULT = 0x25 ∧ t.port.sAux = 0x25 ∧
      State.onlyRegs { s with port := t.port } t [F.UPD_STAT_RESULT.addr 0])) ∧
  (∀ s (b : Nat) (l : List Word), s.session = 2 → s.nvmOpen = true → s.upd.block = some b → Sparse.wf flashReset s.flash = true →
    (s.unit (2 * b)).getD [] ++ (s.unit (2 * b + 1)).getD [] = l → completes (.updateBlockComplete 0) s (fun t =>
      t.session = 1 ∧ t.f F.UPD_STAT_RESULT = 0 ∧ t.upd.block = none ∧
      t.f F.UPD_BLOCKS_DONE = Nat.min (2 ^ F.UPD_BLOCKS_DONE.w - 1) (s.f F.UPD_BLOCKS_DONE + 1) ∧
      (∀ k : Fin 4096, k.val < (l.flatMap wordBytes).length →
        Sparse.get flashReset t.flash (s.blockBase b + k.val) = (l.flatMap wordBytes).getD k.val 0) ∧
      (∀ a, a < s.blockBase b ∨ s.blockBase b + (l.flatMap wordBytes).length ≤ a →
        Sparse.get flashReset t.flash a = Sparse.get flashReset s.flash a) ∧
      State.onlyRegs { s with upd := t.upd, flash := t.flash } t [F.UPD_STAT_SESSION.addr 0, F.UPD_BLOCKS_DONE.addr 0])) ∧
  (∀ s (b : Nat) (r : Fin 3), s.session = 2 → s.nvmOpen = true → s.upd.block = some b → Sparse.wf flashReset s.flash = true → r ≠ 0 →
    completes (.updateBlockComplete r) s (fun t => t.session = 1 ∧ t.f F.UPD_STAT_RESULT = 0x22 + r.val ∧ t.upd.block = none ∧
      t.f F.UPD_BLOCKS_FAILED = Nat.min (2 ^ F.UPD_BLOCKS_FAILED.w - 1) (s.f F.UPD_BLOCKS_FAILED + 1) ∧ t.srcBit Src.updBlkfail = true ∧
      (∀ a, a < s.blockBase b ∨ s.blockBase b + 4096 ≤ a → Sparse.get flashReset t.flash a = Sparse.get flashReset s.flash a))) ∧
  (∀ s (f : StreamFrame), s.takesFrame 0x13 .write f → s.session = 1 → f.addr = 0 → f.len = 1 → f.data = [0] → completes (.upclose f) s (fun t =>
    t.session = 0 ∧ t.f F.UPD_STAT_RESULT = 0 ∧ t.upd = {} ∧ t.port.sStatus = 0 ∧
    State.onlyRegs { s with upd := {}, port := t.port } t [F.UPD_STAT_SESSION.addr 0])) ∧
  (∀ s (f : StreamFrame), s.takesFrame 0x13 .write f → s.session = 1 → f.addr = 0 → f.len = 1 → f.data = [1] → completes (.upclose f) s (fun t =>
    t.session = 3 ∧ t.upd = s.upd ∧ t.port.sStatus = 0 ∧
    State.onlyRegs { s with port := t.port, freeIdx := t.freeIdx } t [F.UPD_STAT_SESSION.addr 0])) ∧
  (∀ s noise, s.session = 3 → s.nvmOpen = true → completes (.updateVerifyComplete noise) s (fun t => t.session = 0 ∧ t.upd = {} ∧
    t.f F.UPD_STAT_RESULT = s.verifyCode noise % 256 ∧ (s.verifyCode noise = 0 → t.nvm.boot.pend = some s.inactiveSlot ∧
      t.fB F.UPD_STAT_PEND = true) ∧ (s.verifyCode noise ≠ 0 → t.nvm = s.nvm ∧ t.srcBit Src.updVfail = true) ∧ t.flash = s.flash ∧
    t.cl = s.cl ∧ t.dev = s.dev)) ∧
  (∀ s, s.session = 1 → completes .updateSessionTimeout s (fun t => t.session = 0 ∧ t.f F.UPD_STAT_RESULT = 0x2A ∧ t.upd = {} ∧
    State.onlyRegs { s with upd := {} } t [F.UPD_STAT_SESSION.addr 0])) ∧
  (∀ s (p : Port), s.hostOpen p → s.fB F.UPD_STAT_TRIAL = true → completes (.confirm p key) s (fun t => t.nvm.boot.trial = false ∧
    t.fB F.UPD_STAT_TRIAL = false ∧ (s.f F.IMG_INFO_SECVER < 256 → t.nvm.boot.arb.toNat = Nat.max s.nvm.boot.arb.toNat (s.f F.IMG_INFO_SECVER)) ∧
    t.f F.IMG_INFO_ARBCNT = t.nvm.boot.arb.toNat ∧ t.nvm.keys.get 0 = s.nvm.keys.get 0 ∧ t.flash = s.flash ∧ t.dev = s.dev)) ∧
  (∀ s (p : Port) (k : Bool), s.hostOpen p → s.nvm.boot.pend = some k → completes (.cancel p key) s (fun t => t.nvm.boot = { s.nvm.boot with pend := none } ∧
    t.fB F.UPD_STAT_PEND = false ∧ t.flash = s.flash ∧ t.dev = s.dev ∧ t.cl = s.cl)) ∧
  (∀ s, s.fB F.UPD_STAT_TRIAL = true → 3600 ≤ s.f F.UPD_TRIALT_T → completes .trialTimeExpiry s (fun t => t.nvm.boot.trial = false ∧
    t.fB F.UPD_STAT_TRIAL = false ∧ t.f F.IMG_INFO_ARBCNT = t.nvm.boot.arb.toNat ∧ t.dev = s.dev ∧ t.cl = s.cl)) ∧
  (∀ s, s.fB F.UPD_STAT_TRIAL = true → s.nvmOpen = true → completes .trialTimeSave s (fun t =>
    t.nvm.boot = { s.nvm.boot with trialT := s.f F.UPD_TRIALT_T } ∧ { t with nvm := { t.nvm with boot := s.nvm.boot } } = s))

/-- THE END OF BOOT AND THE MIGRATED OVERLAY. Where the conditions of R44 hold and no die is hot, BOOT ends: an image
that the first slot holds runs from it, with its role and level (R65, R67); otherwise the other slot's, with FALLBACK
(R68); otherwise recovery STANDBY with both codes (R69). A migrated overlay is written to the other bank (R77). The
clauses rest on the readings of log entries 64 and 69. -/
def Obligations.BootEndsAndMigratedOverlayIsWritten : Prop :=
  (∀ s (i : BootInput), s.dev = .boot → s.bootReady = true → s.power.hotWait = false → s.f F.DEV_PWRSTAT_LSTAGE = 0 → completes (.bootComplete i) s (fun t =>
    (t.dev = .standby ∨ t.dev = .sequp) ∧ t.clk.tmr = 0 ∧ t.pending = s.pending ∧ t.flash = s.flash ∧
    (∀ im, ((s.strapped i).trySlot i s.firstSlot).2 = some im → t.img.role = im.role ∧ t.img.blevel = im.blevel ∧ t.noImg = false ∧
      t.f F.IMG_BOOTSTAT_SLOT = s.firstSlot.toNat ∧ t.fB F.IMG_BOOTSTAT_FALLBACK = false) ∧
    (∀ im, ((s.strapped i).trySlot i s.firstSlot).2 = none → ((s.strapped i).trySlot i (!s.firstSlot)).2 = some im →
      t.img.role = im.role ∧ t.img.blevel = im.blevel ∧ t.noImg = false ∧ t.f F.IMG_BOOTSTAT_SLOT = (!s.firstSlot).toNat ∧
      t.fB F.IMG_BOOTSTAT_FALLBACK = true) ∧
    (((s.strapped i).trySlot i s.firstSlot).2 = none → ((s.strapped i).trySlot i (!s.firstSlot)).2 = none →
      t.dev = .standby ∧ t.noImg = true ∧ t.f F.IMG_BOOTSTAT_SLOT = 3 ∧ t.fB F.DEV_STATE_ONREQ = false ∧
      t.f F.IMG_BOOTSTAT_ERR_A = ((s.strapped i).trySlot i false).1 % 256 ∧
      t.f F.IMG_BOOTSTAT_ERR_B = ((s.strapped i).trySlot i true).1 % 256))) ∧
  (∀ s (i : BootInput), s.dev = .boot → s.bootReady = true → s.power.hotWait = false → s.f F.DEV_PWRSTAT_LSTAGE = 0 → i.flash = none →
    completes (.bootComplete i) s (fun t => t.dev = .standby ∧ t.noImg = true ∧ t.f F.IMG_BOOTSTAT_ERR_A = 1 ∧
      t.f F.IMG_BOOTSTAT_ERR_B = 1)) ∧
  (∀ s (b : Bank), s.img.migrBank = some b → s.fB F.IMG_OVLSTAT_MIGR_PEND = true → s.dev ≠ .boot → s.nvmOpen = true →
    completes .overlayMigrationWrite s (fun t => t.nvm.banks.get (if s.f F.IMG_OVLSTAT_BANK = 0 then 1 else 0) = some b ∧
      t.nvm.banks.get (if s.f F.IMG_OVLSTAT_BANK = 0 then 0 else 1) = s.nvm.banks.get (if s.f F.IMG_OVLSTAT_BANK = 0 then 0 else 1) ∧
      t.img.migrBank = none ∧ t.fB F.IMG_OVLSTAT_MIGR_PEND = false ∧
      State.onlyRegs { s with nvm := t.nvm, img := { s.img with migrBank := none } } t [F.IMG_OVLSTAT_MIGR_PEND.addr 0]))

/-- A CONFIRM KEY THAT IS WRONG. Every command that needs the key 0xCA10 is refused without it with RANGE: the code
and the register's address go to the port's HST_REFx and STATUS_CML bit 6 is set, the register's CMD_REF is set where
it has one, and nothing else changes (R340). Which code such a refusal takes is the model's choice (log entry 22). -/
def Obligations.WrongConfirmKeyIsRefused : Prop :=
  (∀ s (p : Port) (k : BitVec 16), s.hostOpen p → k.toNat ≠ 0xCA10 → completes (.reload p k) s (fun t => s.refused t p 2 0x0004 [F.DEV_STATE_CMD_REF.addr 0] ∧
    t.fB F.DEV_STATE_CMD_REF = true)) ∧
  (∀ s (p : Port) (k : BitVec 16), s.hostOpen p → k.toNat ≠ 0xCA10 → completes (.restart p k) s (fun t => s.refused t p 2 0x0004 [F.DEV_STATE_CMD_REF.addr 0] ∧
    t.fB F.DEV_STATE_CMD_REF = true)) ∧
  (∀ s (p : Port) (k : BitVec 16), s.hostOpen p → k.toNat ≠ 0xCA10 → completes (.dormouse p k) s (fun t => s.refused t p 2 0x0004 [F.DEV_STATE_CMD_REF.addr 0] ∧
    t.fB F.DEV_STATE_CMD_REF = true)) ∧
  (∀ s (p : Port) (k : BitVec 16), s.hostOpen p → k.toNat ≠ 0xCA10 → completes (.store p k) s (fun t => s.refused t p 2 0x0018 [F.STORE_STAT_CMD_REF.addr 0] ∧
    t.fB F.STORE_STAT_CMD_REF = true)) ∧
  (∀ s (p : Port) (k : BitVec 16), s.hostOpen p → k.toNat ≠ 0xCA10 → completes (.ack p k) s (fun t => s.refused t p 2 0x0201 [F.SUPV_STAT_CMD_REF.addr 0] ∧
    t.fB F.SUPV_STAT_CMD_REF = true)) ∧
  (∀ s (p : Port) (k : BitVec 16), s.hostOpen p → k.toNat ≠ 0xCA10 → completes (.safe p k) s (fun t => s.refused t p 2 0x0201 [F.SUPV_STAT_CMD_REF.addr 0] ∧
    t.fB F.SUPV_STAT_CMD_REF = true)) ∧
  (∀ s (p : Port) (k : BitVec 16), s.hostOpen p → k.toNat ≠ 0xCA10 → completes (.force p k) s (fun t => s.refused t p 2 0x2203 [F.SEQ_CTRL_CMD_REF.addr 0] ∧
    t.fB F.SEQ_CTRL_CMD_REF = true)) ∧
  (∀ s (p : Port) (k : BitVec 16), s.hostOpen p → k.toNat ≠ 0xCA10 → completes (.sfpulse p k) s (fun t => s.refused t p 2 0x2203 [F.SEQ_CTRL_CMD_REF.addr 0] ∧
    t.fB F.SEQ_CTRL_CMD_REF = true)) ∧
  (∀ s (p : Port) (k : BitVec 16), s.hostOpen p → k.toNat ≠ 0xCA10 → completes (.toggle p k) s (fun t => s.refused t p 2 0x2463 [F.INP_STAT_CMDREF.addr 0] ∧
    t.fB F.INP_STAT_CMDREF = true)) ∧
  (∀ s (p : Port) (n : Fin 16) (k : BitVec 16), s.hostOpen p → k.toNat ≠ 0xCA10 → completes (.tsdclr p n k) s (fun t => s.refused t p 2 0x2804 [F.THM_TSD_CMD_REF.addr 0] ∧
    t.fB F.THM_TSD_CMD_REF = true)) ∧
  (∀ s (p : Port) (k : BitVec 16), s.hostOpen p → k.toNat ≠ 0xCA10 → completes (.owlSnap p k) s (fun t => s.refused t p 2 0x2E04 [F.OWL_STAT_CMD_REF.addr 0] ∧
    t.fB F.OWL_STAT_CMD_REF = true)) ∧
  (∀ s (p : Port) (k : BitVec 16), s.hostOpen p → k.toNat ≠ 0xCA10 → completes (.clear p k) s (fun t => s.refused t p 2 0x2E04 [F.OWL_STAT_CMD_REF.addr 0] ∧
    t.fB F.OWL_STAT_CMD_REF = true)) ∧
  (∀ s (p : Port) (k : BitVec 16), s.hostOpen p → k.toNat ≠ 0xCA10 → completes (.confirm p k) s (fun t => s.refused t p 2 0x3313 [F.UPD_STAT_CMD_REF.addr 0] ∧
    t.fB F.UPD_STAT_CMD_REF = true)) ∧
  (∀ s (p : Port) (k : BitVec 16), s.hostOpen p → k.toNat ≠ 0xCA10 → completes (.cancel p k) s (fun t => s.refused t p 2 0x3313 [F.UPD_STAT_CMD_REF.addr 0] ∧
    t.fB F.UPD_STAT_CMD_REF = true)) ∧
  (∀ s (p : Port) (k : BitVec 16), s.hostOpen p → k.toNat ≠ 0xCA10 → completes (.wake p k) s (fun t => s.refused t p 2 0x2780 [])) ∧
  (∀ s (p : Port) (b : Fin 2) (k : BitVec 16), s.hostOpen p → k.toNat ≠ 0xCA10 → completes (.pwrcycle p b k) s (fun t => s.refused t p 2 (0x3003 + 16 * b.val) []))

/-- A STEP RUNS THE COMMAND AT THE FRONT of the queue, with the queue's rest; no word spells a command (the table
gives no row any bits), so the two ways of the host to place one leave the state alone. -/
def Obligations.StepRunsTheFrontCommand : Prop :=
  (∀ (s : State) (c : Instr) (r : List Instr), s.pending = c :: r → step s = exec c { s with pending := r }) ∧
  (∀ (s : State) (n w : Nat), decodeTableWord n w = none ∧ s.withFetchWord n w = s)

/-- WITH NO COMMAND WAITING, a step is a tick of the clocks where they run and nothing where they do not (the model's
choice, log entry 1). A tick moves no output but the trains' and SRDY, and leaves the device state, the flash, the
phases, the clusters, the feeds and the identity alone: a silent host changes nothing (R29). -/
def Obligations.TickLeavesTheOutputsAlone : Prop :=
  (∀ (s : State), s.pending = [] → s.clocksRun = false → step s = .next s) ∧
  (∀ (s : State), s.pending = [] → s.clocksRun = true → ∃ t, step s = .next t ∧ t.dev = s.dev ∧ t.flash = s.flash ∧ t.ph = s.ph ∧
    t.cl = s.cl ∧ t.fd = s.fd ∧ t.img = s.img ∧ t.power = s.power ∧ t.nvm.serial = s.nvm.serial ∧
    { t.pins with thr := s.pins.thr, srdy := s.pins.srdy } = s.pins ∧
    t.clk.tmr = (if s.dev = .boot then s.clk.tmr else s.clk.tmr + 1) ∧ (s.dev = .boot → t.pins = s.pins))

/-- RESET. Before the supply rises every output ball, phase unit, cluster and gate stands as R36 gives it, every
register as its chapter's tables give it (DEV_ID reads 0x7648_0002, R2), the state is canonical, and no command waits.
The clauses rest on the readings of log entries 3 and 4. -/
def Obligations.ResetLeavesEveryRegisterAndOutputAsGiven : Prop :=
  State.reset.canonical ∧ State.reset.bootOutputs ∧ State.reset.dev = .boot ∧ State.reset.pending = [] ∧
  State.reset.reg 0x0000 = 0x76480002#32 ∧ (∀ a, State.reset.reg a = regReset a) ∧
  State.reset.clocksRun = false ∧ State.reset.txnState = 0 ∧ (∀ i : Fin 4, (State.reset.lane.get i).ch = none) ∧
  State.reset.stream.fifo = [] ∧ State.reset.flash = [] ∧ ∀ f : Fin 3, State.reset.fB F.FEED_STAT_TRIPLAT f = false

/-- EVERY COMMAND ANSWERS A NEXT STATE, whatever the state and its operands: the spec stops none. No command touches
the commands that wait. -/
def Obligations.EveryCommandAnswersAndLeavesTheQueue : Prop :=
  ∀ (c : Instr) (s : State), completes c s (fun t => t.pending = s.pending)

/-- EVERY STEP KEEPS THE CANONICAL FORM of the registers and of the flash, from every canonical state: equal contents
stay equal data. -/
def Obligations.StepKeepsTheCanonicalForm : Prop :=
  ∀ s t : State, s.canonical → step s = .next t → t.canonical

/-- WHAT NO COMMAND CHANGES. The serial number and the service key stay; the flash changes only where a block is
programmed, EN only at its own ball, and the role and the behaviour level only through BOOT (R1, R69, R395). -/
def Obligations.IdentityRoleAndFlashChangeOnlyByTheirCommands : Prop :=
  ∀ (c : Instr) (s t : State), exec c s = .next t →
    t.nvm.serial = s.nvm.serial ∧ t.nvm.svcKey = s.nvm.svcKey ∧
    (t.flash = s.flash ∨ ∃ x, c = .updateBlockComplete x) ∧ (t.pins.en = s.pins.en ∨ ∃ x y, c = .enChange x y) ∧
    (t.img.role = s.img.role ∧ t.img.blevel = s.img.blevel ∨ t.dev = .boot ∨ ∃ x, c = .bootComplete x)

/-- THE DEVICE STATES. No step makes a transition that the table of R31 does not list: BOOT is left only for STANDBY
(and SEQUP, where the on request stands on the entry, R34) or SAFE, STANDBY never for RUN or SEQDN, SEQDN never for
RUN, DORMOUSE only for BOOT or SAFE, SAFE only for BOOT; DORMOUSE is entered only from STANDBY. The clauses rest on
the readings of log entry 80. -/
def Obligations.TransitionsFollowTheTable : Prop :=
  ∀ s t : State, step s = .next t →
    (s.dev = .boot → t.dev = .boot ∨ t.dev = .standby ∨ t.dev = .sequp ∨ t.dev = .safe) ∧
    (s.dev = .standby → t.dev ≠ .run ∧ t.dev ≠ .seqdn) ∧ (s.dev = .sequp ∨ s.dev = .run ∨ s.dev = .seqdn → t.dev ≠ .dormouse) ∧
    (s.dev = .seqdn → t.dev ≠ .run) ∧ (s.dev = .dormouse → t.dev = .dormouse ∨ t.dev = .boot ∨ t.dev = .safe) ∧
    (s.dev = .safe → t.dev = .safe ∨ t.dev = .boot)

/-- SAFE-OFF HOLDS. From every state whose outputs are safe if it is in SAFE, a step gives such a state: SAFE is
entered with every phase unit at the mid level, every cluster off, and PEN, EXT, PWRGD, BEN and BCHG low, and nothing
moves them while it lasts (R254, R276). -/
def Obligations.SafeOutputsHoldInSafe : Prop :=
  ∀ s t : State, (s.dev = .safe → s.safeOutputs) → step s = .next t → t.dev = .safe → t.safeOutputs

/-- BOOT HOLDS THE OUTPUTS. From every state whose outputs stand as R36 gives them if it is in BOOT, a step gives such
a state: BOOT is entered with every output in its state of R36, and no output leaves it while BOOT lasts (R31, R36).
-/
def Obligations.BootHoldsEveryOutput : Prop :=
  ∀ s t : State, (s.dev = .boot → s.bootOutputs) → step s = .next t → t.dev = .boot → t.bootOutputs

/-- EXTEST, CLAMP AND HIGHZ are accepted only in STANDBY or SAFE, and a safe-off that is forced while one of them is
loaded puts every PWM ball at the mid level, whatever the boundary register holds (R56). -/
def Obligations.TestInstructionsOnlyInStandbyOrSafe : Prop :=
  (∀ s, completes .extest s (fun t => t.tap.inst = .extest ↔ s.dev = .standby ∨ s.dev = .safe)) ∧
  (∀ s, completes .clamp s (fun t => t.tap.inst = .clamp ↔ s.dev = .standby ∨ s.dev = .safe)) ∧
  (∀ s, completes .highz s (fun t => t.tap.inst = .highz ↔ s.dev = .standby ∨ s.dev = .safe)) ∧
  (∀ (c : Instr) (s t : State), s.dev ≠ .safe → exec c s = .next t → t.dev = .safe → ∀ p : Fin 48, t.pwmBall p = .mid)

/-- CRC-32 (R63). The model's table-free reflected form is the CRC of the polynomial 0x04C1_1DB7 with reflected input
and output, initial value and final exclusive-or 0xFFFF_FFFF; over the bytes "123456789" it gives 0xCBF4_3926. -/
def Obligations.Crc32IsTheOneOfTheRule : Prop :=
  (∀ l : List Byte, crc32 l = crcRef l) ∧ crc32 [0x31, 0x32, 0x33, 0x34, 0x35, 0x36, 0x37, 0x38, 0x39] = 0xCBF43926#32

/-- LINEAR11 (R191). A word carries the smallest exponent at which the mantissa fits, and the mantissa rounded half
away from zero; too small a value gives 0, 0x8000 is never produced, a value beyond the range saturates; the loss is
at most half a unit of the mantissa and, above the lowest exponent, at most 1/1,025 of the value; the spans coded at
each exponent are the table's. -/
def Obligations.Linear11EncodesAsTheRuleSays : Prop :=
  (∀ x : Rat, linear11 x < 65536 ∧ linear11 x ≠ 0x8000) ∧
  (∀ x : Rat, roundAway (x / pow2 (-16)) = 0 → linear11 x = 0) ∧
  (∀ x : Rat, roundAway (x / pow2 (-16)) ≠ 0 → -1024 ≤ roundAway (x / pow2 15) → roundAway (x / pow2 15) ≤ 1023 →
    ∃ e y : Int, e = toSigned 5 (linear11 x / 2048) ∧ y = toSigned 11 (linear11 x % 2048) ∧ -16 ≤ e ∧ e ≤ 15 ∧
      y = roundAway (x / pow2 e) ∧ -1024 ≤ y ∧ y ≤ 1023 ∧
      (∀ j : Int, -16 ≤ j → j < e → roundAway (x / pow2 j) < -1024 ∨ 1023 < roundAway (x / pow2 j)) ∧
      absQ ((y : Rat) * pow2 e - x) ≤ pow2 (e - 1) ∧
      (-16 < e → (512 ≤ y ∨ y ≤ -512) ∧ absQ ((y : Rat) * pow2 e - x) * 1025 ≤ absQ x) ∧
      (0 < x → x < 1023.5 * pow2 e ∧ (-16 < e → 511.75 * pow2 e ≤ x)) ∧
      (x < 0 → -x < 1024.5 * pow2 e ∧ (-16 < e → 512.25 * pow2 e ≤ -x))) ∧
  (∀ x : Rat, 1023 < roundAway (x / pow2 15) → linear11 x = 15 * 2048 + 1023) ∧
  (∀ x : Rat, roundAway (x / pow2 15) < -1024 → linear11 x = 15 * 2048 + 1024)

/-- THE END OF A TRANSACTION WITHOUT A COMMIT (R353). ROLLBACK with the right token discards the shadows with RESULT
7; the timeout does with RESULT 6 and raises HST_TXNTO; an entry to BOOT and the ladder's L3 do too; a reset of the
owning port does not. -/
def Obligations.TransactionsEndWithoutACommit : Prop :=
  (∀ s (p : Port) (token : BitVec 8), s.portLive p = true → s.noImg = false → s.dev ≠ .dormouse → s.txnState = 1 → s.f F.TXN_STATUS_TOKEN = token.toNat →
    completes (.rollback p token) s (fun t => t.txnState = 0 ∧ t.txn.shadows = [] ∧ t.f F.TXN_STATUS_RESULT = 7 ∧
      State.onlyRegs { s with txn := t.txn, sup := { s.sup with hist := t.sup.hist } } t [F.TXN_STATUS_STATE.addr 0])) ∧
  (∀ s, s.txnState = 1 → completes .txnTimeout s (fun t => t.txnState = 0 ∧ t.f F.TXN_STATUS_RESULT = 6 ∧ t.txn.shadows = [] ∧
    t.srcBit txnTimeoutSrc = true ∧ State.reportsOnly { s with txn := t.txn } t [F.TXN_STATUS_STATE.addr 0])) ∧
  (∀ (c : Instr) (s t : State), s.dev ≠ .boot → exec c s = .next t → t.dev = .boot → t.txnState = 0 ∧ t.txn.shadows = []) ∧
  (∀ s (k : Fin 5), s.dev ≠ .boot → s.power.powered = true → s.power.resetLow = false → s.f F.DEV_PWRSTAT_LSTAGE < 3 → 2 ≤ k.val →
    s.txnState = 1 → completes (.ownSupplyLadderStage k) s (fun t => t.txnState = 0 ∧ t.txn.shadows = [])) ∧
  (∀ s, completes .sclTimeout s (fun t => t.txn = s.txn ∧ t.reg (F.TXN_STATUS_STATE.addr 0) = s.reg (F.TXN_STATUS_STATE.addr 0))) ∧
  (∀ s, completes .sdaRelease s (fun t => t.txn = s.txn ∧ t.reg (F.TXN_STATUS_STATE.addr 0) = s.reg (F.TXN_STATUS_STATE.addr 0)))

/-- THE STREAM FIFO AT LEVEL 1 (R320). MARK sets the mark to the read pointer; REWIND sets the read pointer to the
mark and recounts PKT_WAIT from there; RELEASE frees the words before the read pointer, which the release point and
the mark then equal; off a packet boundary, and at levels 2 and 3, each is refused with CMD_REF; a read advances only
the read pointer; a word enters only where fewer than 65,536 stand from the release point to the write pointer. -/
def Obligations.FifoPointersOfLevelOne : Prop :=
  (∀ s (p : Port), s.hostOpen p → s.img.blevel = 1 → s.atBoundary = true → completes (.mark p) s (fun t => t = { s with
    stream := { s.stream with mark := s.stream.rd }, sup := { s.sup with hist := t.sup.hist } })) ∧
  (∀ s (p : Port), s.hostOpen p → s.img.blevel = 1 → s.atBoundary = true → completes (.rewind p) s (fun t =>
    t.f F.CAP_FSTAT_PKT_WAIT = ((s.stream.fifo.drop s.stream.mark).filter (·.2)).length % 65536 ∧ State.onlyRegs { s with
      stream := { s.stream with rd := s.stream.mark }, sup := { s.sup with hist := t.sup.hist } } t [F.CAP_FSTAT_PKT_WAIT.addr 0])) ∧
  (∀ s (p : Port), s.hostOpen p → s.img.blevel = 1 → s.atBoundary = true → completes (.release p) s (fun t =>
    t.stream = { s.stream with fifo := s.stream.fifo.drop s.stream.rd, rd := 0, mark := 0 })) ∧
  (∀ s (p : Port), s.hostOpen p → s.img.blevel ≠ 1 ∨ s.atBoundary = false → completes (.mark p) s (fun t => s.refused t p 11 0x2C03
    [F.CAP_FSTAT_CMD_REF.addr 0] ∧ t.fB F.CAP_FSTAT_CMD_REF = true)) ∧
  (∀ s (p : Port), s.hostOpen p → s.img.blevel ≠ 1 ∨ s.atBoundary = false → completes (.rewind p) s (fun t => s.refused t p 11 0x2C03
    [F.CAP_FSTAT_CMD_REF.addr 0] ∧ t.fB F.CAP_FSTAT_CMD_REF = true)) ∧
  (∀ s (p : Port), s.hostOpen p → s.img.blevel ≠ 1 ∨ s.atBoundary = false → completes (.release p) s (fun t => s.refused t p 11 0x2C03
    [F.CAP_FSTAT_CMD_REF.addr 0] ∧ t.fB F.CAP_FSTAT_CMD_REF = true)) ∧
  (∀ s (p : Port), s.portLive p = true → s.noImg = false → s.img.blevel = 1 → s.f F.CAP_FSTAT_PKT_WAIT ≠ 0 →
    s.stream.rd < s.stream.fifo.length → completes (.fifoRead p) s (fun t => t.stream.rd = s.stream.rd + 1 ∧
      t.stream.fifo = s.stream.fifo ∧ t.stream.mark = s.stream.mark)) ∧
  (∀ s (x : Word × Bool) r, s.stream.out = x :: r → 65536 ≤ s.stream.fifo.length → completes .packetWordWrite s (fun t => t = s)) ∧
  (∀ s (x : Word × Bool) r, s.stream.out = x :: r → s.stream.fifo.length < 65536 → s.stream.flushPend = false →
    completes .packetWordWrite s (fun t => t.stream.fifo = s.stream.fifo ++ [x] ∧ t.stream.rd = s.stream.rd ∧ t.stream.mark = s.stream.mark))

/-- COMPRESSED SAMPLES (R311, R312). The payload of a block, read as R312 says, whatever bits follow it, gives as many
samples as the block has, each within 2^(Q-1) of the sample taken and equal to it where Q is 0; this holds for every
parameter K, the raw block included. -/
def Obligations.CompressedSamplesDecodeWithinTheirBound : Prop :=
  ∀ (k q : Nat) (p2 : Bool) (x : Int) (xs : List Int) (rest : List Bool), k ≤ 15 → q ≤ 6 →
    (∀ y ∈ x :: xs, -32768 ≤ y ∧ y ≤ 32767) →
    ∃ ys, readBlock k q p2 (xs.length + 1) x (codeBlock k q p2 (x :: xs) ++ rest) = ys ∧ ys.length = xs.length + 1 ∧
      ∀ i : Nat, i < ys.length → 2 * (ys.getD i 0 - (x :: xs).getD i 0).natAbs ≤ 2 ^ q ∧
        (q = 0 → ys.getD i 0 = (x :: xs).getD i 0)

/-- THE DATA BLOCK (R312, R313). K is the parameter with the fewest payload bits, the lowest of equals; the payload of
at most 32 samples is at most 16 words, and the bits of its words, from bit 31 of the first downwards, are the codes
followed by zeros; the header carries the type, channel, K, Q, P2, COUNT and LEN, the time stamp and the first sample.
-/
def Obligations.DataBlockTakesTheShortestParameter : Prop :=
  (∀ (q : Nat) (p2 : Bool) (xs : List Int), bestK q p2 xs ≤ 15 ∧ ∀ k : Nat, k ≤ 15 →
    (codeBlock (bestK q p2 xs) q p2 xs).length ≤ (codeBlock k q p2 xs).length ∧
    (k < bestK q p2 xs → (codeBlock (bestK q p2 xs) q p2 xs).length < (codeBlock k q p2 xs).length)) ∧
  (∀ (ch q : Nat) (p2 : Bool) (ts : BitVec 48) (xs : List (BitVec 16)), ch < 64 → q ≤ 6 → xs ≠ [] → xs.length ≤ 32 →
    ∃ (h ts0 ts1 : Word) (pay : List Word), dataBlock ch q p2 ts xs = h :: ts0 :: ts1 :: pay ∧ pay.length ≤ 16 ∧
      h.toNat / 2 ^ 28 = 1 ∧ h.toNat / 2 ^ 22 % 64 = ch ∧ h.toNat / 2 ^ 18 % 16 = bestK q p2 (xs.map BitVec.toInt) ∧
      h.toNat / 2 ^ 15 % 8 = q ∧ h.toNat / 2 ^ 14 % 2 = p2.toNat ∧ h.toNat / 2 ^ 8 % 64 = xs.length ∧ h.toNat % 256 = pay.length ∧
      ts0.toNat + 2 ^ 32 * (ts1.toNat % 65536) = ts.toNat ∧ ts1.toNat / 65536 = (xs.headD 0).toNat ∧
      ∃ z : Nat, z < 32 ∧ pay.flatMap (fun w => (List.range 32).map (fun j => w.getLsbD (31 - j))) =
        codeBlock (bestK q p2 (xs.map BitVec.toInt)) q p2 (xs.map BitVec.toInt) ++ List.replicate z false)
end

