-- ==== Sys2Proof/Laws/Fields.lean ====
section
/-! SUPPORT. What replacing a bit field does: the field reads the new value, and a field with other bits reads as before. -/

namespace Sys2Proof.Machine

/-- A field's bits lie within a word. -/
abbrev Fld.fits (f : Fld) : Prop := f.lo + f.w ≤ 32

/-- Two fields of one word share no bit. -/
abbrev Fld.apart (f g : Fld) : Prop := f.lo + f.w ≤ g.lo ∨ g.lo + g.w ≤ f.lo

theorem Fld.testBit_get (f : Fld) (x : Word) (k : Nat) : (f.get x).testBit k = (decide (k < f.w) && x.toNat.testBit (f.lo + k)) := by
  simp [Fld.get, Nat.testBit_mod_two_pow, Nat.testBit_shiftRight]

theorem Fld.getLsbD_mask (f : Fld) (k : Nat) : f.mask.getLsbD k = (decide (k < 32) && decide (f.lo ≤ k) && decide (k < f.lo + f.w)) := by
  simp only [Fld.mask, BitVec.getLsbD_ofNat, Nat.testBit_shiftLeft, Nat.testBit_two_pow_sub_one]
  by_cases h : f.lo ≤ k
  · have : (k - f.lo < f.w) = (k < f.lo + f.w) := by apply propext; omega
    simp [h, this]
  · simp [h]

theorem Fld.testBit_insert (f : Fld) (x : Word) (v k : Nat) (hk : k < 32) :
    (f.insert x v).toNat.testBit k =
      if f.lo ≤ k ∧ k < f.lo + f.w then v.testBit (k - f.lo) else x.toNat.testBit k := by
  have h0 : (f.insert x v).toNat.testBit k = (f.insert x v).getLsbD k := rfl
  have h1 : x.toNat.testBit k = x.getLsbD k := rfl
  rw [h0, h1]
  simp only [Fld.insert, BitVec.getLsbD_or, BitVec.getLsbD_and, BitVec.getLsbD_not, Fld.getLsbD_mask, BitVec.getLsbD_ofNat,
    Nat.testBit_shiftLeft, Nat.testBit_mod_two_pow]
  by_cases h : f.lo ≤ k
  · by_cases h2 : k < f.lo + f.w
    · have : k - f.lo < f.w := by omega
      simp [hk, h, h2, this]
    · have : ¬ k - f.lo < f.w := by omega
      simp [hk, h, h2, this]
  · simp [hk, h]

/-- The field reads the value written, within its width. -/
theorem Fld.get_insert_self (f : Fld) (h : f.fits) (x : Word) (v : Nat) : f.get (f.insert x v) = v % 2 ^ f.w := by
  apply Nat.eq_of_testBit_eq
  intro k
  rw [Fld.testBit_get, Nat.testBit_mod_two_pow]
  by_cases hk : k < f.w
  · have h3 : f.lo + k < 32 := by unfold Fld.fits at h; omega
    rw [Fld.testBit_insert f x v _ h3]
    simp [hk]
  · simp [hk]

/-- A field of other bits reads as before. -/
theorem Fld.get_insert_apart (f g : Fld) (hg : g.fits) (h : f.apart g) (x : Word) (v : Nat) : g.get (f.insert x v) = g.get x := by
  apply Nat.eq_of_testBit_eq
  intro k
  rw [Fld.testBit_get, Fld.testBit_get]
  by_cases hk : k < g.w
  · have h3 : g.lo + k < 32 := by unfold Fld.fits at hg; omega
    rw [Fld.testBit_insert f x v _ h3]
    have : ¬ (f.lo ≤ g.lo + k ∧ g.lo + k < f.lo + f.w) := by unfold Fld.apart at h; omega
    simp [hk, this]
  · simp [hk]

/-- A field's value lies within its width. -/
theorem Fld.get_lt (f : Fld) (x : Word) : f.get x < 2 ^ f.w := Nat.mod_lt _ (Nat.two_pow_pos f.w)

end Sys2Proof.Machine
end

