-- ==== Sys2Proof/Laws/Sparse.lean ====
section
/-! SUPPORT. What a write of a sparse store does: the address reads the value, every other address reads as before, and the
canonical form is kept. -/

namespace Sys2Proof.Machine

section
variable {α : Type} {d : Nat → α}

theorem Sparse.get_filter_self (a : Nat) (l : List (Nat × α)) : Sparse.get d (l.filter (fun e => e.1 != a)) a = d a := by
  induction l with
  | nil => rfl
  | cons e l ih =>
    by_cases h : e.1 = a
    · simpa [h] using ih
    · simp [h, Sparse.get, Ne.symm h, ih]

theorem Sparse.get_filter_ne {a b : Nat} (h : b ≠ a) (l : List (Nat × α)) :
    Sparse.get d (l.filter (fun e => e.1 != a)) b = Sparse.get d l b := by
  induction l with
  | nil => rfl
  | cons e l ih =>
    by_cases he : e.1 = a
    · simp [he, Sparse.get, h, ih]
    · simp [he, Sparse.get, ih]

theorem Sparse.get_ins_ne {a b : Nat} (h : b ≠ a) (v : α) (l : List (Nat × α)) :
    Sparse.get d (Sparse.ins a v l) b = Sparse.get d l b := by
  induction l with
  | nil => simp [Sparse.ins, Sparse.get, h]
  | cons e l ih =>
    simp only [Sparse.ins]
    split <;> simp [Sparse.get, h, ih]

theorem Sparse.get_ins_self (a : Nat) (v : α) (l : List (Nat × α)) (h : ∀ e ∈ l, e.1 ≠ a) :
    Sparse.get d (Sparse.ins a v l) a = v := by
  induction l with
  | nil => simp [Sparse.ins, Sparse.get]
  | cons e l ih =>
    have he : a ≠ e.1 := fun x => h e (List.mem_cons_self ..) x.symm
    have ih := ih (fun e' h' => h e' (List.mem_cons_of_mem _ h'))
    simp only [Sparse.ins]
    split <;> simp [Sparse.get, he, ih]

end

variable {α : Type} [DecidableEq α] {d : Nat → α}

/-- A written address reads the value. -/
theorem Sparse.get_put_self (a : Nat) (v : α) (l : List (Nat × α)) : Sparse.get d (Sparse.put d a v l) a = v := by
  simp only [Sparse.put]
  split
  · rename_i h
    rw [Sparse.get_filter_self, h]
  · refine Sparse.get_ins_self a v _ (fun e he => ?_)
    simpa using (List.mem_filter.mp he).2

/-- Every other address reads as before. -/
theorem Sparse.get_put_ne {a b : Nat} (h : b ≠ a) (v : α) (l : List (Nat × α)) :
    Sparse.get d (Sparse.put d a v l) b = Sparse.get d l b := by
  simp only [Sparse.put]
  split
  · exact Sparse.get_filter_ne h l
  · rw [Sparse.get_ins_ne h, Sparse.get_filter_ne h]

theorem Sparse.wfFrom_mono {lo lo' : Nat} (h : lo' ≤ lo) {l : List (Nat × α)} (w : Sparse.wfFrom d lo l = true) :
    Sparse.wfFrom d lo' l = true := by
  cases l with
  | nil => rfl
  | cons e l =>
    simp only [Sparse.wfFrom, Bool.and_eq_true, decide_eq_true_eq] at w ⊢
    exact ⟨⟨Nat.le_trans h w.1.1, w.1.2⟩, w.2⟩

theorem Sparse.wfFrom_filter (p : Nat × α → Bool) {lo : Nat} {l : List (Nat × α)} (w : Sparse.wfFrom d lo l = true) :
    Sparse.wfFrom d lo (l.filter p) = true := by
  induction l generalizing lo with
  | nil => rfl
  | cons e l ih =>
    simp only [Sparse.wfFrom, Bool.and_eq_true, decide_eq_true_eq] at w
    by_cases h : p e = true
    · simp only [List.filter_cons_of_pos h, Sparse.wfFrom, Bool.and_eq_true, decide_eq_true_eq]
      exact ⟨w.1, ih w.2⟩
    · rw [List.filter_cons_of_neg h]
      exact Sparse.wfFrom_mono (Nat.le_succ_of_le w.1.1) (ih w.2)

theorem Sparse.wfFrom_ins {a lo : Nat} {v : α} (hv : v ≠ d a) (hlo : lo ≤ a) {l : List (Nat × α)} (h : ∀ e ∈ l, e.1 ≠ a)
    (w : Sparse.wfFrom d lo l = true) : Sparse.wfFrom d lo (Sparse.ins a v l) = true := by
  induction l generalizing lo with
  | nil => simp [Sparse.ins, Sparse.wfFrom, hv, hlo]
  | cons e l ih =>
    have he : e.1 ≠ a := h e (List.mem_cons_self ..)
    simp only [Sparse.wfFrom, Bool.and_eq_true, decide_eq_true_eq] at w
    simp only [Sparse.ins]
    split
    · rename_i hk
      simp only [Sparse.wfFrom, Bool.and_eq_true, decide_eq_true_eq]
      exact ⟨⟨hlo, hv⟩, ⟨hk, w.1.2⟩, w.2⟩
    · rename_i hk
      simp only [Sparse.wfFrom, Bool.and_eq_true, decide_eq_true_eq]
      refine ⟨w.1, ih ?_ (fun e' h' => h e' (List.mem_cons_of_mem _ h')) w.2⟩
      omega

/-- A write keeps the canonical form. -/
theorem Sparse.wf_put (a : Nat) (v : α) {l : List (Nat × α)} (w : Sparse.wf d l = true) : Sparse.wf d (Sparse.put d a v l) = true := by
  simp only [Sparse.put, Sparse.wf] at w ⊢
  split
  · exact Sparse.wfFrom_filter _ w
  · rename_i hv
    refine Sparse.wfFrom_ins hv (Nat.zero_le a) (fun e he => ?_) (Sparse.wfFrom_filter _ w)
    simpa using (List.mem_filter.mp he).2

end Sys2Proof.Machine
end

