-- ==== Sys2Proof/Laws/State.lean ====
section
/-! SUPPORT. What each update of the state leaves alone, field by field. -/

namespace Sys2Proof.Machine

variable (s : State)

/-! ### setReg -/

@[simp] theorem State.setReg_pending (a : Nat) (w : Word) : (s.setReg a w).pending = s.pending := rfl
@[simp] theorem State.setReg_dev (a : Nat) (w : Word) : (s.setReg a w).dev = s.dev := rfl
@[simp] theorem State.setReg_oper (a : Nat) (w : Word) : (s.setReg a w).oper = s.oper := rfl
@[simp] theorem State.setReg_freeIdx (a : Nat) (w : Word) : (s.setReg a w).freeIdx = s.freeIdx := rfl
@[simp] theorem State.setReg_pins (a : Nat) (w : Word) : (s.setReg a w).pins = s.pins := rfl
@[simp] theorem State.setReg_power (a : Nat) (w : Word) : (s.setReg a w).power = s.power := rfl
@[simp] theorem State.setReg_tap (a : Nat) (w : Word) : (s.setReg a w).tap = s.tap := rfl
@[simp] theorem State.setReg_clk (a : Nat) (w : Word) : (s.setReg a w).clk = s.clk := rfl
@[simp] theorem State.setReg_tm (a : Nat) (w : Word) : (s.setReg a w).tm = s.tm := rfl
@[simp] theorem State.setReg_ph (a : Nat) (w : Word) : (s.setReg a w).ph = s.ph := rfl
@[simp] theorem State.setReg_cl (a : Nat) (w : Word) : (s.setReg a w).cl = s.cl := rfl
@[simp] theorem State.setReg_fd (a : Nat) (w : Word) : (s.setReg a w).fd = s.fd := rfl
@[simp] theorem State.setReg_prec (a : Nat) (w : Word) : (s.setReg a w).prec = s.prec := rfl
@[simp] theorem State.setReg_inp (a : Nat) (w : Word) : (s.setReg a w).inp = s.inp := rfl
@[simp] theorem State.setReg_bat (a : Nat) (w : Word) : (s.setReg a w).bat = s.bat := rfl
@[simp] theorem State.setReg_seq (a : Nat) (w : Word) : (s.setReg a w).seq = s.seq := rfl
@[simp] theorem State.setReg_sup (a : Nat) (w : Word) : (s.setReg a w).sup = s.sup := rfl
@[simp] theorem State.setReg_thr (a : Nat) (w : Word) : (s.setReg a w).thr = s.thr := rfl
@[simp] theorem State.setReg_cap (a : Nat) (w : Word) : (s.setReg a w).cap = s.cap := rfl
@[simp] theorem State.setReg_ch (a : Nat) (w : Word) : (s.setReg a w).ch = s.ch := rfl
@[simp] theorem State.setReg_lane (a : Nat) (w : Word) : (s.setReg a w).lane = s.lane := rfl
@[simp] theorem State.setReg_stream (a : Nat) (w : Word) : (s.setReg a w).stream = s.stream := rfl
@[simp] theorem State.setReg_port (a : Nat) (w : Word) : (s.setReg a w).port = s.port := rfl
@[simp] theorem State.setReg_txn (a : Nat) (w : Word) : (s.setReg a w).txn = s.txn := rfl
@[simp] theorem State.setReg_bus (a : Nat) (w : Word) : (s.setReg a w).bus = s.bus := rfl
@[simp] theorem State.setReg_ring (a : Nat) (w : Word) : (s.setReg a w).ring = s.ring := rfl
@[simp] theorem State.setReg_owl (a : Nat) (w : Word) : (s.setReg a w).owl = s.owl := rfl
@[simp] theorem State.setReg_nvm (a : Nat) (w : Word) : (s.setReg a w).nvm = s.nvm := rfl
@[simp] theorem State.setReg_upd (a : Nat) (w : Word) : (s.setReg a w).upd = s.upd := rfl
@[simp] theorem State.setReg_img (a : Nat) (w : Word) : (s.setReg a w).img = s.img := rfl
@[simp] theorem State.setReg_eb (a : Nat) (w : Word) : (s.setReg a w).eb = s.eb := rfl
@[simp] theorem State.setReg_flash (a : Nat) (w : Word) : (s.setReg a w).flash = s.flash := rfl

/-! ### setF -/

@[simp] theorem State.setF_pending (fl : Fld) (i v : Nat) : (s.setF fl i v).pending = s.pending := rfl
@[simp] theorem State.setF_dev (fl : Fld) (i v : Nat) : (s.setF fl i v).dev = s.dev := rfl
@[simp] theorem State.setF_oper (fl : Fld) (i v : Nat) : (s.setF fl i v).oper = s.oper := rfl
@[simp] theorem State.setF_freeIdx (fl : Fld) (i v : Nat) : (s.setF fl i v).freeIdx = s.freeIdx := rfl
@[simp] theorem State.setF_pins (fl : Fld) (i v : Nat) : (s.setF fl i v).pins = s.pins := rfl
@[simp] theorem State.setF_power (fl : Fld) (i v : Nat) : (s.setF fl i v).power = s.power := rfl
@[simp] theorem State.setF_tap (fl : Fld) (i v : Nat) : (s.setF fl i v).tap = s.tap := rfl
@[simp] theorem State.setF_clk (fl : Fld) (i v : Nat) : (s.setF fl i v).clk = s.clk := rfl
@[simp] theorem State.setF_tm (fl : Fld) (i v : Nat) : (s.setF fl i v).tm = s.tm := rfl
@[simp] theorem State.setF_ph (fl : Fld) (i v : Nat) : (s.setF fl i v).ph = s.ph := rfl
@[simp] theorem State.setF_cl (fl : Fld) (i v : Nat) : (s.setF fl i v).cl = s.cl := rfl
@[simp] theorem State.setF_fd (fl : Fld) (i v : Nat) : (s.setF fl i v).fd = s.fd := rfl
@[simp] theorem State.setF_prec (fl : Fld) (i v : Nat) : (s.setF fl i v).prec = s.prec := rfl
@[simp] theorem State.setF_inp (fl : Fld) (i v : Nat) : (s.setF fl i v).inp = s.inp := rfl
@[simp] theorem State.setF_bat (fl : Fld) (i v : Nat) : (s.setF fl i v).bat = s.bat := rfl
@[simp] theorem State.setF_seq (fl : Fld) (i v : Nat) : (s.setF fl i v).seq = s.seq := rfl
@[simp] theorem State.setF_sup (fl : Fld) (i v : Nat) : (s.setF fl i v).sup = s.sup := rfl
@[simp] theorem State.setF_thr (fl : Fld) (i v : Nat) : (s.setF fl i v).thr = s.thr := rfl
@[simp] theorem State.setF_cap (fl : Fld) (i v : Nat) : (s.setF fl i v).cap = s.cap := rfl
@[simp] theorem State.setF_ch (fl : Fld) (i v : Nat) : (s.setF fl i v).ch = s.ch := rfl
@[simp] theorem State.setF_lane (fl : Fld) (i v : Nat) : (s.setF fl i v).lane = s.lane := rfl
@[simp] theorem State.setF_stream (fl : Fld) (i v : Nat) : (s.setF fl i v).stream = s.stream := rfl
@[simp] theorem State.setF_port (fl : Fld) (i v : Nat) : (s.setF fl i v).port = s.port := rfl
@[simp] theorem State.setF_txn (fl : Fld) (i v : Nat) : (s.setF fl i v).txn = s.txn := rfl
@[simp] theorem State.setF_bus (fl : Fld) (i v : Nat) : (s.setF fl i v).bus = s.bus := rfl
@[simp] theorem State.setF_ring (fl : Fld) (i v : Nat) : (s.setF fl i v).ring = s.ring := rfl
@[simp] theorem State.setF_owl (fl : Fld) (i v : Nat) : (s.setF fl i v).owl = s.owl := rfl
@[simp] theorem State.setF_nvm (fl : Fld) (i v : Nat) : (s.setF fl i v).nvm = s.nvm := rfl
@[simp] theorem State.setF_upd (fl : Fld) (i v : Nat) : (s.setF fl i v).upd = s.upd := rfl
@[simp] theorem State.setF_img (fl : Fld) (i v : Nat) : (s.setF fl i v).img = s.img := rfl
@[simp] theorem State.setF_eb (fl : Fld) (i v : Nat) : (s.setF fl i v).eb = s.eb := rfl
@[simp] theorem State.setF_flash (fl : Fld) (i v : Nat) : (s.setF fl i v).flash = s.flash := rfl

/-! ### setB -/

@[simp] theorem State.setB_pending (fl : Fld) (i : Nat) (b : Bool) : (s.setB fl i b).pending = s.pending := rfl
@[simp] theorem State.setB_dev (fl : Fld) (i : Nat) (b : Bool) : (s.setB fl i b).dev = s.dev := rfl
@[simp] theorem State.setB_oper (fl : Fld) (i : Nat) (b : Bool) : (s.setB fl i b).oper = s.oper := rfl
@[simp] theorem State.setB_freeIdx (fl : Fld) (i : Nat) (b : Bool) : (s.setB fl i b).freeIdx = s.freeIdx := rfl
@[simp] theorem State.setB_pins (fl : Fld) (i : Nat) (b : Bool) : (s.setB fl i b).pins = s.pins := rfl
@[simp] theorem State.setB_power (fl : Fld) (i : Nat) (b : Bool) : (s.setB fl i b).power = s.power := rfl
@[simp] theorem State.setB_tap (fl : Fld) (i : Nat) (b : Bool) : (s.setB fl i b).tap = s.tap := rfl
@[simp] theorem State.setB_clk (fl : Fld) (i : Nat) (b : Bool) : (s.setB fl i b).clk = s.clk := rfl
@[simp] theorem State.setB_tm (fl : Fld) (i : Nat) (b : Bool) : (s.setB fl i b).tm = s.tm := rfl
@[simp] theorem State.setB_ph (fl : Fld) (i : Nat) (b : Bool) : (s.setB fl i b).ph = s.ph := rfl
@[simp] theorem State.setB_cl (fl : Fld) (i : Nat) (b : Bool) : (s.setB fl i b).cl = s.cl := rfl
@[simp] theorem State.setB_fd (fl : Fld) (i : Nat) (b : Bool) : (s.setB fl i b).fd = s.fd := rfl
@[simp] theorem State.setB_prec (fl : Fld) (i : Nat) (b : Bool) : (s.setB fl i b).prec = s.prec := rfl
@[simp] theorem State.setB_inp (fl : Fld) (i : Nat) (b : Bool) : (s.setB fl i b).inp = s.inp := rfl
@[simp] theorem State.setB_bat (fl : Fld) (i : Nat) (b : Bool) : (s.setB fl i b).bat = s.bat := rfl
@[simp] theorem State.setB_seq (fl : Fld) (i : Nat) (b : Bool) : (s.setB fl i b).seq = s.seq := rfl
@[simp] theorem State.setB_sup (fl : Fld) (i : Nat) (b : Bool) : (s.setB fl i b).sup = s.sup := rfl
@[simp] theorem State.setB_thr (fl : Fld) (i : Nat) (b : Bool) : (s.setB fl i b).thr = s.thr := rfl
@[simp] theorem State.setB_cap (fl : Fld) (i : Nat) (b : Bool) : (s.setB fl i b).cap = s.cap := rfl
@[simp] theorem State.setB_ch (fl : Fld) (i : Nat) (b : Bool) : (s.setB fl i b).ch = s.ch := rfl
@[simp] theorem State.setB_lane (fl : Fld) (i : Nat) (b : Bool) : (s.setB fl i b).lane = s.lane := rfl
@[simp] theorem State.setB_stream (fl : Fld) (i : Nat) (b : Bool) : (s.setB fl i b).stream = s.stream := rfl
@[simp] theorem State.setB_port (fl : Fld) (i : Nat) (b : Bool) : (s.setB fl i b).port = s.port := rfl
@[simp] theorem State.setB_txn (fl : Fld) (i : Nat) (b : Bool) : (s.setB fl i b).txn = s.txn := rfl
@[simp] theorem State.setB_bus (fl : Fld) (i : Nat) (b : Bool) : (s.setB fl i b).bus = s.bus := rfl
@[simp] theorem State.setB_ring (fl : Fld) (i : Nat) (b : Bool) : (s.setB fl i b).ring = s.ring := rfl
@[simp] theorem State.setB_owl (fl : Fld) (i : Nat) (b : Bool) : (s.setB fl i b).owl = s.owl := rfl
@[simp] theorem State.setB_nvm (fl : Fld) (i : Nat) (b : Bool) : (s.setB fl i b).nvm = s.nvm := rfl
@[simp] theorem State.setB_upd (fl : Fld) (i : Nat) (b : Bool) : (s.setB fl i b).upd = s.upd := rfl
@[simp] theorem State.setB_img (fl : Fld) (i : Nat) (b : Bool) : (s.setB fl i b).img = s.img := rfl
@[simp] theorem State.setB_eb (fl : Fld) (i : Nat) (b : Bool) : (s.setB fl i b).eb = s.eb := rfl
@[simp] theorem State.setB_flash (fl : Fld) (i : Nat) (b : Bool) : (s.setB fl i b).flash = s.flash := rfl

/-! ### setS -/

@[simp] theorem State.setS_pending (fl : Fld) (i : Nat) (v : Int) : (s.setS fl i v).pending = s.pending := rfl
@[simp] theorem State.setS_dev (fl : Fld) (i : Nat) (v : Int) : (s.setS fl i v).dev = s.dev := rfl
@[simp] theorem State.setS_oper (fl : Fld) (i : Nat) (v : Int) : (s.setS fl i v).oper = s.oper := rfl
@[simp] theorem State.setS_freeIdx (fl : Fld) (i : Nat) (v : Int) : (s.setS fl i v).freeIdx = s.freeIdx := rfl
@[simp] theorem State.setS_pins (fl : Fld) (i : Nat) (v : Int) : (s.setS fl i v).pins = s.pins := rfl
@[simp] theorem State.setS_power (fl : Fld) (i : Nat) (v : Int) : (s.setS fl i v).power = s.power := rfl
@[simp] theorem State.setS_tap (fl : Fld) (i : Nat) (v : Int) : (s.setS fl i v).tap = s.tap := rfl
@[simp] theorem State.setS_clk (fl : Fld) (i : Nat) (v : Int) : (s.setS fl i v).clk = s.clk := rfl
@[simp] theorem State.setS_tm (fl : Fld) (i : Nat) (v : Int) : (s.setS fl i v).tm = s.tm := rfl
@[simp] theorem State.setS_ph (fl : Fld) (i : Nat) (v : Int) : (s.setS fl i v).ph = s.ph := rfl
@[simp] theorem State.setS_cl (fl : Fld) (i : Nat) (v : Int) : (s.setS fl i v).cl = s.cl := rfl
@[simp] theorem State.setS_fd (fl : Fld) (i : Nat) (v : Int) : (s.setS fl i v).fd = s.fd := rfl
@[simp] theorem State.setS_prec (fl : Fld) (i : Nat) (v : Int) : (s.setS fl i v).prec = s.prec := rfl
@[simp] theorem State.setS_inp (fl : Fld) (i : Nat) (v : Int) : (s.setS fl i v).inp = s.inp := rfl
@[simp] theorem State.setS_bat (fl : Fld) (i : Nat) (v : Int) : (s.setS fl i v).bat = s.bat := rfl
@[simp] theorem State.setS_seq (fl : Fld) (i : Nat) (v : Int) : (s.setS fl i v).seq = s.seq := rfl
@[simp] theorem State.setS_sup (fl : Fld) (i : Nat) (v : Int) : (s.setS fl i v).sup = s.sup := rfl
@[simp] theorem State.setS_thr (fl : Fld) (i : Nat) (v : Int) : (s.setS fl i v).thr = s.thr := rfl
@[simp] theorem State.setS_cap (fl : Fld) (i : Nat) (v : Int) : (s.setS fl i v).cap = s.cap := rfl
@[simp] theorem State.setS_ch (fl : Fld) (i : Nat) (v : Int) : (s.setS fl i v).ch = s.ch := rfl
@[simp] theorem State.setS_lane (fl : Fld) (i : Nat) (v : Int) : (s.setS fl i v).lane = s.lane := rfl
@[simp] theorem State.setS_stream (fl : Fld) (i : Nat) (v : Int) : (s.setS fl i v).stream = s.stream := rfl
@[simp] theorem State.setS_port (fl : Fld) (i : Nat) (v : Int) : (s.setS fl i v).port = s.port := rfl
@[simp] theorem State.setS_txn (fl : Fld) (i : Nat) (v : Int) : (s.setS fl i v).txn = s.txn := rfl
@[simp] theorem State.setS_bus (fl : Fld) (i : Nat) (v : Int) : (s.setS fl i v).bus = s.bus := rfl
@[simp] theorem State.setS_ring (fl : Fld) (i : Nat) (v : Int) : (s.setS fl i v).ring = s.ring := rfl
@[simp] theorem State.setS_owl (fl : Fld) (i : Nat) (v : Int) : (s.setS fl i v).owl = s.owl := rfl
@[simp] theorem State.setS_nvm (fl : Fld) (i : Nat) (v : Int) : (s.setS fl i v).nvm = s.nvm := rfl
@[simp] theorem State.setS_upd (fl : Fld) (i : Nat) (v : Int) : (s.setS fl i v).upd = s.upd := rfl
@[simp] theorem State.setS_img (fl : Fld) (i : Nat) (v : Int) : (s.setS fl i v).img = s.img := rfl
@[simp] theorem State.setS_eb (fl : Fld) (i : Nat) (v : Int) : (s.setS fl i v).eb = s.eb := rfl
@[simp] theorem State.setS_flash (fl : Fld) (i : Nat) (v : Int) : (s.setS fl i v).flash = s.flash := rfl

/-! ### setFBit -/

@[simp] theorem State.setFBit_pending (fl : Fld) (i k : Nat) (b : Bool) : (s.setFBit fl i k b).pending = s.pending := rfl
@[simp] theorem State.setFBit_dev (fl : Fld) (i k : Nat) (b : Bool) : (s.setFBit fl i k b).dev = s.dev := rfl
@[simp] theorem State.setFBit_oper (fl : Fld) (i k : Nat) (b : Bool) : (s.setFBit fl i k b).oper = s.oper := rfl
@[simp] theorem State.setFBit_freeIdx (fl : Fld) (i k : Nat) (b : Bool) : (s.setFBit fl i k b).freeIdx = s.freeIdx := rfl
@[simp] theorem State.setFBit_pins (fl : Fld) (i k : Nat) (b : Bool) : (s.setFBit fl i k b).pins = s.pins := rfl
@[simp] theorem State.setFBit_power (fl : Fld) (i k : Nat) (b : Bool) : (s.setFBit fl i k b).power = s.power := rfl
@[simp] theorem State.setFBit_tap (fl : Fld) (i k : Nat) (b : Bool) : (s.setFBit fl i k b).tap = s.tap := rfl
@[simp] theorem State.setFBit_clk (fl : Fld) (i k : Nat) (b : Bool) : (s.setFBit fl i k b).clk = s.clk := rfl
@[simp] theorem State.setFBit_tm (fl : Fld) (i k : Nat) (b : Bool) : (s.setFBit fl i k b).tm = s.tm := rfl
@[simp] theorem State.setFBit_ph (fl : Fld) (i k : Nat) (b : Bool) : (s.setFBit fl i k b).ph = s.ph := rfl
@[simp] theorem State.setFBit_cl (fl : Fld) (i k : Nat) (b : Bool) : (s.setFBit fl i k b).cl = s.cl := rfl
@[simp] theorem State.setFBit_fd (fl : Fld) (i k : Nat) (b : Bool) : (s.setFBit fl i k b).fd = s.fd := rfl
@[simp] theorem State.setFBit_prec (fl : Fld) (i k : Nat) (b : Bool) : (s.setFBit fl i k b).prec = s.prec := rfl
@[simp] theorem State.setFBit_inp (fl : Fld) (i k : Nat) (b : Bool) : (s.setFBit fl i k b).inp = s.inp := rfl
@[simp] theorem State.setFBit_bat (fl : Fld) (i k : Nat) (b : Bool) : (s.setFBit fl i k b).bat = s.bat := rfl
@[simp] theorem State.setFBit_seq (fl : Fld) (i k : Nat) (b : Bool) : (s.setFBit fl i k b).seq = s.seq := rfl
@[simp] theorem State.setFBit_sup (fl : Fld) (i k : Nat) (b : Bool) : (s.setFBit fl i k b).sup = s.sup := rfl
@[simp] theorem State.setFBit_thr (fl : Fld) (i k : Nat) (b : Bool) : (s.setFBit fl i k b).thr = s.thr := rfl
@[simp] theorem State.setFBit_cap (fl : Fld) (i k : Nat) (b : Bool) : (s.setFBit fl i k b).cap = s.cap := rfl
@[simp] theorem State.setFBit_ch (fl : Fld) (i k : Nat) (b : Bool) : (s.setFBit fl i k b).ch = s.ch := rfl
@[simp] theorem State.setFBit_lane (fl : Fld) (i k : Nat) (b : Bool) : (s.setFBit fl i k b).lane = s.lane := rfl
@[simp] theorem State.setFBit_stream (fl : Fld) (i k : Nat) (b : Bool) : (s.setFBit fl i k b).stream = s.stream := rfl
@[simp] theorem State.setFBit_port (fl : Fld) (i k : Nat) (b : Bool) : (s.setFBit fl i k b).port = s.port := rfl
@[simp] theorem State.setFBit_txn (fl : Fld) (i k : Nat) (b : Bool) : (s.setFBit fl i k b).txn = s.txn := rfl
@[simp] theorem State.setFBit_bus (fl : Fld) (i k : Nat) (b : Bool) : (s.setFBit fl i k b).bus = s.bus := rfl
@[simp] theorem State.setFBit_ring (fl : Fld) (i k : Nat) (b : Bool) : (s.setFBit fl i k b).ring = s.ring := rfl
@[simp] theorem State.setFBit_owl (fl : Fld) (i k : Nat) (b : Bool) : (s.setFBit fl i k b).owl = s.owl := rfl
@[simp] theorem State.setFBit_nvm (fl : Fld) (i k : Nat) (b : Bool) : (s.setFBit fl i k b).nvm = s.nvm := rfl
@[simp] theorem State.setFBit_upd (fl : Fld) (i k : Nat) (b : Bool) : (s.setFBit fl i k b).upd = s.upd := rfl
@[simp] theorem State.setFBit_img (fl : Fld) (i k : Nat) (b : Bool) : (s.setFBit fl i k b).img = s.img := rfl
@[simp] theorem State.setFBit_eb (fl : Fld) (i k : Nat) (b : Bool) : (s.setFBit fl i k b).eb = s.eb := rfl
@[simp] theorem State.setFBit_flash (fl : Fld) (i k : Nat) (b : Bool) : (s.setFBit fl i k b).flash = s.flash := rfl

/-! ### incF -/

@[simp] theorem State.incF_pending (fl : Fld) (i n : Nat) : (s.incF fl i n).pending = s.pending := rfl
@[simp] theorem State.incF_dev (fl : Fld) (i n : Nat) : (s.incF fl i n).dev = s.dev := rfl
@[simp] theorem State.incF_oper (fl : Fld) (i n : Nat) : (s.incF fl i n).oper = s.oper := rfl
@[simp] theorem State.incF_freeIdx (fl : Fld) (i n : Nat) : (s.incF fl i n).freeIdx = s.freeIdx := rfl
@[simp] theorem State.incF_pins (fl : Fld) (i n : Nat) : (s.incF fl i n).pins = s.pins := rfl
@[simp] theorem State.incF_power (fl : Fld) (i n : Nat) : (s.incF fl i n).power = s.power := rfl
@[simp] theorem State.incF_tap (fl : Fld) (i n : Nat) : (s.incF fl i n).tap = s.tap := rfl
@[simp] theorem State.incF_clk (fl : Fld) (i n : Nat) : (s.incF fl i n).clk = s.clk := rfl
@[simp] theorem State.incF_tm (fl : Fld) (i n : Nat) : (s.incF fl i n).tm = s.tm := rfl
@[simp] theorem State.incF_ph (fl : Fld) (i n : Nat) : (s.incF fl i n).ph = s.ph := rfl
@[simp] theorem State.incF_cl (fl : Fld) (i n : Nat) : (s.incF fl i n).cl = s.cl := rfl
@[simp] theorem State.incF_fd (fl : Fld) (i n : Nat) : (s.incF fl i n).fd = s.fd := rfl
@[simp] theorem State.incF_prec (fl : Fld) (i n : Nat) : (s.incF fl i n).prec = s.prec := rfl
@[simp] theorem State.incF_inp (fl : Fld) (i n : Nat) : (s.incF fl i n).inp = s.inp := rfl
@[simp] theorem State.incF_bat (fl : Fld) (i n : Nat) : (s.incF fl i n).bat = s.bat := rfl
@[simp] theorem State.incF_seq (fl : Fld) (i n : Nat) : (s.incF fl i n).seq = s.seq := rfl
@[simp] theorem State.incF_sup (fl : Fld) (i n : Nat) : (s.incF fl i n).sup = s.sup := rfl
@[simp] theorem State.incF_thr (fl : Fld) (i n : Nat) : (s.incF fl i n).thr = s.thr := rfl
@[simp] theorem State.incF_cap (fl : Fld) (i n : Nat) : (s.incF fl i n).cap = s.cap := rfl
@[simp] theorem State.incF_ch (fl : Fld) (i n : Nat) : (s.incF fl i n).ch = s.ch := rfl
@[simp] theorem State.incF_lane (fl : Fld) (i n : Nat) : (s.incF fl i n).lane = s.lane := rfl
@[simp] theorem State.incF_stream (fl : Fld) (i n : Nat) : (s.incF fl i n).stream = s.stream := rfl
@[simp] theorem State.incF_port (fl : Fld) (i n : Nat) : (s.incF fl i n).port = s.port := rfl
@[simp] theorem State.incF_txn (fl : Fld) (i n : Nat) : (s.incF fl i n).txn = s.txn := rfl
@[simp] theorem State.incF_bus (fl : Fld) (i n : Nat) : (s.incF fl i n).bus = s.bus := rfl
@[simp] theorem State.incF_ring (fl : Fld) (i n : Nat) : (s.incF fl i n).ring = s.ring := rfl
@[simp] theorem State.incF_owl (fl : Fld) (i n : Nat) : (s.incF fl i n).owl = s.owl := rfl
@[simp] theorem State.incF_nvm (fl : Fld) (i n : Nat) : (s.incF fl i n).nvm = s.nvm := rfl
@[simp] theorem State.incF_upd (fl : Fld) (i n : Nat) : (s.incF fl i n).upd = s.upd := rfl
@[simp] theorem State.incF_img (fl : Fld) (i n : Nat) : (s.incF fl i n).img = s.img := rfl
@[simp] theorem State.incF_eb (fl : Fld) (i n : Nat) : (s.incF fl i n).eb = s.eb := rfl
@[simp] theorem State.incF_flash (fl : Fld) (i n : Nat) : (s.incF fl i n).flash = s.flash := rfl

/-! ### updCl -/

@[simp] theorem State.updCl_pending (n : Fin 16) (g : ClusterSt → ClusterSt) : (s.updCl n g).pending = s.pending := rfl
@[simp] theorem State.updCl_regs (n : Fin 16) (g : ClusterSt → ClusterSt) : (s.updCl n g).regs = s.regs := rfl
@[simp] theorem State.updCl_dev (n : Fin 16) (g : ClusterSt → ClusterSt) : (s.updCl n g).dev = s.dev := rfl
@[simp] theorem State.updCl_oper (n : Fin 16) (g : ClusterSt → ClusterSt) : (s.updCl n g).oper = s.oper := rfl
@[simp] theorem State.updCl_freeIdx (n : Fin 16) (g : ClusterSt → ClusterSt) : (s.updCl n g).freeIdx = s.freeIdx := rfl
@[simp] theorem State.updCl_pins (n : Fin 16) (g : ClusterSt → ClusterSt) : (s.updCl n g).pins = s.pins := rfl
@[simp] theorem State.updCl_power (n : Fin 16) (g : ClusterSt → ClusterSt) : (s.updCl n g).power = s.power := rfl
@[simp] theorem State.updCl_tap (n : Fin 16) (g : ClusterSt → ClusterSt) : (s.updCl n g).tap = s.tap := rfl
@[simp] theorem State.updCl_clk (n : Fin 16) (g : ClusterSt → ClusterSt) : (s.updCl n g).clk = s.clk := rfl
@[simp] theorem State.updCl_tm (n : Fin 16) (g : ClusterSt → ClusterSt) : (s.updCl n g).tm = s.tm := rfl
@[simp] theorem State.updCl_ph (n : Fin 16) (g : ClusterSt → ClusterSt) : (s.updCl n g).ph = s.ph := rfl
@[simp] theorem State.updCl_cl (n : Fin 16) (g : ClusterSt → ClusterSt) : (s.updCl n g).cl = s.cl.set n (g (s.cl.get n)) := rfl
@[simp] theorem State.updCl_fd (n : Fin 16) (g : ClusterSt → ClusterSt) : (s.updCl n g).fd = s.fd := rfl
@[simp] theorem State.updCl_prec (n : Fin 16) (g : ClusterSt → ClusterSt) : (s.updCl n g).prec = s.prec := rfl
@[simp] theorem State.updCl_inp (n : Fin 16) (g : ClusterSt → ClusterSt) : (s.updCl n g).inp = s.inp := rfl
@[simp] theorem State.updCl_bat (n : Fin 16) (g : ClusterSt → ClusterSt) : (s.updCl n g).bat = s.bat := rfl
@[simp] theorem State.updCl_seq (n : Fin 16) (g : ClusterSt → ClusterSt) : (s.updCl n g).seq = s.seq := rfl
@[simp] theorem State.updCl_sup (n : Fin 16) (g : ClusterSt → ClusterSt) : (s.updCl n g).sup = s.sup := rfl
@[simp] theorem State.updCl_thr (n : Fin 16) (g : ClusterSt → ClusterSt) : (s.updCl n g).thr = s.thr := rfl
@[simp] theorem State.updCl_cap (n : Fin 16) (g : ClusterSt → ClusterSt) : (s.updCl n g).cap = s.cap := rfl
@[simp] theorem State.updCl_ch (n : Fin 16) (g : ClusterSt → ClusterSt) : (s.updCl n g).ch = s.ch := rfl
@[simp] theorem State.updCl_lane (n : Fin 16) (g : ClusterSt → ClusterSt) : (s.updCl n g).lane = s.lane := rfl
@[simp] theorem State.updCl_stream (n : Fin 16) (g : ClusterSt → ClusterSt) : (s.updCl n g).stream = s.stream := rfl
@[simp] theorem State.updCl_port (n : Fin 16) (g : ClusterSt → ClusterSt) : (s.updCl n g).port = s.port := rfl
@[simp] theorem State.updCl_txn (n : Fin 16) (g : ClusterSt → ClusterSt) : (s.updCl n g).txn = s.txn := rfl
@[simp] theorem State.updCl_bus (n : Fin 16) (g : ClusterSt → ClusterSt) : (s.updCl n g).bus = s.bus := rfl
@[simp] theorem State.updCl_ring (n : Fin 16) (g : ClusterSt → ClusterSt) : (s.updCl n g).ring = s.ring := rfl
@[simp] theorem State.updCl_owl (n : Fin 16) (g : ClusterSt → ClusterSt) : (s.updCl n g).owl = s.owl := rfl
@[simp] theorem State.updCl_nvm (n : Fin 16) (g : ClusterSt → ClusterSt) : (s.updCl n g).nvm = s.nvm := rfl
@[simp] theorem State.updCl_upd (n : Fin 16) (g : ClusterSt → ClusterSt) : (s.updCl n g).upd = s.upd := rfl
@[simp] theorem State.updCl_img (n : Fin 16) (g : ClusterSt → ClusterSt) : (s.updCl n g).img = s.img := rfl
@[simp] theorem State.updCl_eb (n : Fin 16) (g : ClusterSt → ClusterSt) : (s.updCl n g).eb = s.eb := rfl
@[simp] theorem State.updCl_flash (n : Fin 16) (g : ClusterSt → ClusterSt) : (s.updCl n g).flash = s.flash := rfl

/-! ### updPh -/

@[simp] theorem State.updPh_pending (n : Fin 48) (g : PhaseSt → PhaseSt) : (s.updPh n g).pending = s.pending := rfl
@[simp] theorem State.updPh_regs (n : Fin 48) (g : PhaseSt → PhaseSt) : (s.updPh n g).regs = s.regs := rfl
@[simp] theorem State.updPh_dev (n : Fin 48) (g : PhaseSt → PhaseSt) : (s.updPh n g).dev = s.dev := rfl
@[simp] theorem State.updPh_oper (n : Fin 48) (g : PhaseSt → PhaseSt) : (s.updPh n g).oper = s.oper := rfl
@[simp] theorem State.updPh_freeIdx (n : Fin 48) (g : PhaseSt → PhaseSt) : (s.updPh n g).freeIdx = s.freeIdx := rfl
@[simp] theorem State.updPh_pins (n : Fin 48) (g : PhaseSt → PhaseSt) : (s.updPh n g).pins = s.pins := rfl
@[simp] theorem State.updPh_power (n : Fin 48) (g : PhaseSt → PhaseSt) : (s.updPh n g).power = s.power := rfl
@[simp] theorem State.updPh_tap (n : Fin 48) (g : PhaseSt → PhaseSt) : (s.updPh n g).tap = s.tap := rfl
@[simp] theorem State.updPh_clk (n : Fin 48) (g : PhaseSt → PhaseSt) : (s.updPh n g).clk = s.clk := rfl
@[simp] theorem State.updPh_tm (n : Fin 48) (g : PhaseSt → PhaseSt) : (s.updPh n g).tm = s.tm := rfl
@[simp] theorem State.updPh_ph (n : Fin 48) (g : PhaseSt → PhaseSt) : (s.updPh n g).ph = s.ph.set n (g (s.ph.get n)) := rfl
@[simp] theorem State.updPh_cl (n : Fin 48) (g : PhaseSt → PhaseSt) : (s.updPh n g).cl = s.cl := rfl
@[simp] theorem State.updPh_fd (n : Fin 48) (g : PhaseSt → PhaseSt) : (s.updPh n g).fd = s.fd := rfl
@[simp] theorem State.updPh_prec (n : Fin 48) (g : PhaseSt → PhaseSt) : (s.updPh n g).prec = s.prec := rfl
@[simp] theorem State.updPh_inp (n : Fin 48) (g : PhaseSt → PhaseSt) : (s.updPh n g).inp = s.inp := rfl
@[simp] theorem State.updPh_bat (n : Fin 48) (g : PhaseSt → PhaseSt) : (s.updPh n g).bat = s.bat := rfl
@[simp] theorem State.updPh_seq (n : Fin 48) (g : PhaseSt → PhaseSt) : (s.updPh n g).seq = s.seq := rfl
@[simp] theorem State.updPh_sup (n : Fin 48) (g : PhaseSt → PhaseSt) : (s.updPh n g).sup = s.sup := rfl
@[simp] theorem State.updPh_thr (n : Fin 48) (g : PhaseSt → PhaseSt) : (s.updPh n g).thr = s.thr := rfl
@[simp] theorem State.updPh_cap (n : Fin 48) (g : PhaseSt → PhaseSt) : (s.updPh n g).cap = s.cap := rfl
@[simp] theorem State.updPh_ch (n : Fin 48) (g : PhaseSt → PhaseSt) : (s.updPh n g).ch = s.ch := rfl
@[simp] theorem State.updPh_lane (n : Fin 48) (g : PhaseSt → PhaseSt) : (s.updPh n g).lane = s.lane := rfl
@[simp] theorem State.updPh_stream (n : Fin 48) (g : PhaseSt → PhaseSt) : (s.updPh n g).stream = s.stream := rfl
@[simp] theorem State.updPh_port (n : Fin 48) (g : PhaseSt → PhaseSt) : (s.updPh n g).port = s.port := rfl
@[simp] theorem State.updPh_txn (n : Fin 48) (g : PhaseSt → PhaseSt) : (s.updPh n g).txn = s.txn := rfl
@[simp] theorem State.updPh_bus (n : Fin 48) (g : PhaseSt → PhaseSt) : (s.updPh n g).bus = s.bus := rfl
@[simp] theorem State.updPh_ring (n : Fin 48) (g : PhaseSt → PhaseSt) : (s.updPh n g).ring = s.ring := rfl
@[simp] theorem State.updPh_owl (n : Fin 48) (g : PhaseSt → PhaseSt) : (s.updPh n g).owl = s.owl := rfl
@[simp] theorem State.updPh_nvm (n : Fin 48) (g : PhaseSt → PhaseSt) : (s.updPh n g).nvm = s.nvm := rfl
@[simp] theorem State.updPh_upd (n : Fin 48) (g : PhaseSt → PhaseSt) : (s.updPh n g).upd = s.upd := rfl
@[simp] theorem State.updPh_img (n : Fin 48) (g : PhaseSt → PhaseSt) : (s.updPh n g).img = s.img := rfl
@[simp] theorem State.updPh_eb (n : Fin 48) (g : PhaseSt → PhaseSt) : (s.updPh n g).eb = s.eb := rfl
@[simp] theorem State.updPh_flash (n : Fin 48) (g : PhaseSt → PhaseSt) : (s.updPh n g).flash = s.flash := rfl

/-! ### updTm -/

@[simp] theorem State.updTm_pending (n : Fin 32) (g : TimerSt → TimerSt) : (s.updTm n g).pending = s.pending := rfl
@[simp] theorem State.updTm_regs (n : Fin 32) (g : TimerSt → TimerSt) : (s.updTm n g).regs = s.regs := rfl
@[simp] theorem State.updTm_dev (n : Fin 32) (g : TimerSt → TimerSt) : (s.updTm n g).dev = s.dev := rfl
@[simp] theorem State.updTm_oper (n : Fin 32) (g : TimerSt → TimerSt) : (s.updTm n g).oper = s.oper := rfl
@[simp] theorem State.updTm_freeIdx (n : Fin 32) (g : TimerSt → TimerSt) : (s.updTm n g).freeIdx = s.freeIdx := rfl
@[simp] theorem State.updTm_pins (n : Fin 32) (g : TimerSt → TimerSt) : (s.updTm n g).pins = s.pins := rfl
@[simp] theorem State.updTm_power (n : Fin 32) (g : TimerSt → TimerSt) : (s.updTm n g).power = s.power := rfl
@[simp] theorem State.updTm_tap (n : Fin 32) (g : TimerSt → TimerSt) : (s.updTm n g).tap = s.tap := rfl
@[simp] theorem State.updTm_clk (n : Fin 32) (g : TimerSt → TimerSt) : (s.updTm n g).clk = s.clk := rfl
@[simp] theorem State.updTm_tm (n : Fin 32) (g : TimerSt → TimerSt) : (s.updTm n g).tm = s.tm.set n (g (s.tm.get n)) := rfl
@[simp] theorem State.updTm_ph (n : Fin 32) (g : TimerSt → TimerSt) : (s.updTm n g).ph = s.ph := rfl
@[simp] theorem State.updTm_cl (n : Fin 32) (g : TimerSt → TimerSt) : (s.updTm n g).cl = s.cl := rfl
@[simp] theorem State.updTm_fd (n : Fin 32) (g : TimerSt → TimerSt) : (s.updTm n g).fd = s.fd := rfl
@[simp] theorem State.updTm_prec (n : Fin 32) (g : TimerSt → TimerSt) : (s.updTm n g).prec = s.prec := rfl
@[simp] theorem State.updTm_inp (n : Fin 32) (g : TimerSt → TimerSt) : (s.updTm n g).inp = s.inp := rfl
@[simp] theorem State.updTm_bat (n : Fin 32) (g : TimerSt → TimerSt) : (s.updTm n g).bat = s.bat := rfl
@[simp] theorem State.updTm_seq (n : Fin 32) (g : TimerSt → TimerSt) : (s.updTm n g).seq = s.seq := rfl
@[simp] theorem State.updTm_sup (n : Fin 32) (g : TimerSt → TimerSt) : (s.updTm n g).sup = s.sup := rfl
@[simp] theorem State.updTm_thr (n : Fin 32) (g : TimerSt → TimerSt) : (s.updTm n g).thr = s.thr := rfl
@[simp] theorem State.updTm_cap (n : Fin 32) (g : TimerSt → TimerSt) : (s.updTm n g).cap = s.cap := rfl
@[simp] theorem State.updTm_ch (n : Fin 32) (g : TimerSt → TimerSt) : (s.updTm n g).ch = s.ch := rfl
@[simp] theorem State.updTm_lane (n : Fin 32) (g : TimerSt → TimerSt) : (s.updTm n g).lane = s.lane := rfl
@[simp] theorem State.updTm_stream (n : Fin 32) (g : TimerSt → TimerSt) : (s.updTm n g).stream = s.stream := rfl
@[simp] theorem State.updTm_port (n : Fin 32) (g : TimerSt → TimerSt) : (s.updTm n g).port = s.port := rfl
@[simp] theorem State.updTm_txn (n : Fin 32) (g : TimerSt → TimerSt) : (s.updTm n g).txn = s.txn := rfl
@[simp] theorem State.updTm_bus (n : Fin 32) (g : TimerSt → TimerSt) : (s.updTm n g).bus = s.bus := rfl
@[simp] theorem State.updTm_ring (n : Fin 32) (g : TimerSt → TimerSt) : (s.updTm n g).ring = s.ring := rfl
@[simp] theorem State.updTm_owl (n : Fin 32) (g : TimerSt → TimerSt) : (s.updTm n g).owl = s.owl := rfl
@[simp] theorem State.updTm_nvm (n : Fin 32) (g : TimerSt → TimerSt) : (s.updTm n g).nvm = s.nvm := rfl
@[simp] theorem State.updTm_upd (n : Fin 32) (g : TimerSt → TimerSt) : (s.updTm n g).upd = s.upd := rfl
@[simp] theorem State.updTm_img (n : Fin 32) (g : TimerSt → TimerSt) : (s.updTm n g).img = s.img := rfl
@[simp] theorem State.updTm_eb (n : Fin 32) (g : TimerSt → TimerSt) : (s.updTm n g).eb = s.eb := rfl
@[simp] theorem State.updTm_flash (n : Fin 32) (g : TimerSt → TimerSt) : (s.updTm n g).flash = s.flash := rfl

/-! ### updFd -/

@[simp] theorem State.updFd_pending (n : Fin 4) (g : FeedSt → FeedSt) : (s.updFd n g).pending = s.pending := rfl
@[simp] theorem State.updFd_regs (n : Fin 4) (g : FeedSt → FeedSt) : (s.updFd n g).regs = s.regs := rfl
@[simp] theorem State.updFd_dev (n : Fin 4) (g : FeedSt → FeedSt) : (s.updFd n g).dev = s.dev := rfl
@[simp] theorem State.updFd_oper (n : Fin 4) (g : FeedSt → FeedSt) : (s.updFd n g).oper = s.oper := rfl
@[simp] theorem State.updFd_freeIdx (n : Fin 4) (g : FeedSt → FeedSt) : (s.updFd n g).freeIdx = s.freeIdx := rfl
@[simp] theorem State.updFd_pins (n : Fin 4) (g : FeedSt → FeedSt) : (s.updFd n g).pins = s.pins := rfl
@[simp] theorem State.updFd_power (n : Fin 4) (g : FeedSt → FeedSt) : (s.updFd n g).power = s.power := rfl
@[simp] theorem State.updFd_tap (n : Fin 4) (g : FeedSt → FeedSt) : (s.updFd n g).tap = s.tap := rfl
@[simp] theorem State.updFd_clk (n : Fin 4) (g : FeedSt → FeedSt) : (s.updFd n g).clk = s.clk := rfl
@[simp] theorem State.updFd_tm (n : Fin 4) (g : FeedSt → FeedSt) : (s.updFd n g).tm = s.tm := rfl
@[simp] theorem State.updFd_ph (n : Fin 4) (g : FeedSt → FeedSt) : (s.updFd n g).ph = s.ph := rfl
@[simp] theorem State.updFd_cl (n : Fin 4) (g : FeedSt → FeedSt) : (s.updFd n g).cl = s.cl := rfl
@[simp] theorem State.updFd_fd (n : Fin 4) (g : FeedSt → FeedSt) : (s.updFd n g).fd = s.fd.set n (g (s.fd.get n)) := rfl
@[simp] theorem State.updFd_prec (n : Fin 4) (g : FeedSt → FeedSt) : (s.updFd n g).prec = s.prec := rfl
@[simp] theorem State.updFd_inp (n : Fin 4) (g : FeedSt → FeedSt) : (s.updFd n g).inp = s.inp := rfl
@[simp] theorem State.updFd_bat (n : Fin 4) (g : FeedSt → FeedSt) : (s.updFd n g).bat = s.bat := rfl
@[simp] theorem State.updFd_seq (n : Fin 4) (g : FeedSt → FeedSt) : (s.updFd n g).seq = s.seq := rfl
@[simp] theorem State.updFd_sup (n : Fin 4) (g : FeedSt → FeedSt) : (s.updFd n g).sup = s.sup := rfl
@[simp] theorem State.updFd_thr (n : Fin 4) (g : FeedSt → FeedSt) : (s.updFd n g).thr = s.thr := rfl
@[simp] theorem State.updFd_cap (n : Fin 4) (g : FeedSt → FeedSt) : (s.updFd n g).cap = s.cap := rfl
@[simp] theorem State.updFd_ch (n : Fin 4) (g : FeedSt → FeedSt) : (s.updFd n g).ch = s.ch := rfl
@[simp] theorem State.updFd_lane (n : Fin 4) (g : FeedSt → FeedSt) : (s.updFd n g).lane = s.lane := rfl
@[simp] theorem State.updFd_stream (n : Fin 4) (g : FeedSt → FeedSt) : (s.updFd n g).stream = s.stream := rfl
@[simp] theorem State.updFd_port (n : Fin 4) (g : FeedSt → FeedSt) : (s.updFd n g).port = s.port := rfl
@[simp] theorem State.updFd_txn (n : Fin 4) (g : FeedSt → FeedSt) : (s.updFd n g).txn = s.txn := rfl
@[simp] theorem State.updFd_bus (n : Fin 4) (g : FeedSt → FeedSt) : (s.updFd n g).bus = s.bus := rfl
@[simp] theorem State.updFd_ring (n : Fin 4) (g : FeedSt → FeedSt) : (s.updFd n g).ring = s.ring := rfl
@[simp] theorem State.updFd_owl (n : Fin 4) (g : FeedSt → FeedSt) : (s.updFd n g).owl = s.owl := rfl
@[simp] theorem State.updFd_nvm (n : Fin 4) (g : FeedSt → FeedSt) : (s.updFd n g).nvm = s.nvm := rfl
@[simp] theorem State.updFd_upd (n : Fin 4) (g : FeedSt → FeedSt) : (s.updFd n g).upd = s.upd := rfl
@[simp] theorem State.updFd_img (n : Fin 4) (g : FeedSt → FeedSt) : (s.updFd n g).img = s.img := rfl
@[simp] theorem State.updFd_eb (n : Fin 4) (g : FeedSt → FeedSt) : (s.updFd n g).eb = s.eb := rfl
@[simp] theorem State.updFd_flash (n : Fin 4) (g : FeedSt → FeedSt) : (s.updFd n g).flash = s.flash := rfl

/-! ### updBat -/

@[simp] theorem State.updBat_pending (n : Fin 6) (g : BatSt → BatSt) : (s.updBat n g).pending = s.pending := rfl
@[simp] theorem State.updBat_regs (n : Fin 6) (g : BatSt → BatSt) : (s.updBat n g).regs = s.regs := rfl
@[simp] theorem State.updBat_dev (n : Fin 6) (g : BatSt → BatSt) : (s.updBat n g).dev = s.dev := rfl
@[simp] theorem State.updBat_oper (n : Fin 6) (g : BatSt → BatSt) : (s.updBat n g).oper = s.oper := rfl
@[simp] theorem State.updBat_freeIdx (n : Fin 6) (g : BatSt → BatSt) : (s.updBat n g).freeIdx = s.freeIdx := rfl
@[simp] theorem State.updBat_pins (n : Fin 6) (g : BatSt → BatSt) : (s.updBat n g).pins = s.pins := rfl
@[simp] theorem State.updBat_power (n : Fin 6) (g : BatSt → BatSt) : (s.updBat n g).power = s.power := rfl
@[simp] theorem State.updBat_tap (n : Fin 6) (g : BatSt → BatSt) : (s.updBat n g).tap = s.tap := rfl
@[simp] theorem State.updBat_clk (n : Fin 6) (g : BatSt → BatSt) : (s.updBat n g).clk = s.clk := rfl
@[simp] theorem State.updBat_tm (n : Fin 6) (g : BatSt → BatSt) : (s.updBat n g).tm = s.tm := rfl
@[simp] theorem State.updBat_ph (n : Fin 6) (g : BatSt → BatSt) : (s.updBat n g).ph = s.ph := rfl
@[simp] theorem State.updBat_cl (n : Fin 6) (g : BatSt → BatSt) : (s.updBat n g).cl = s.cl := rfl
@[simp] theorem State.updBat_fd (n : Fin 6) (g : BatSt → BatSt) : (s.updBat n g).fd = s.fd := rfl
@[simp] theorem State.updBat_prec (n : Fin 6) (g : BatSt → BatSt) : (s.updBat n g).prec = s.prec := rfl
@[simp] theorem State.updBat_inp (n : Fin 6) (g : BatSt → BatSt) : (s.updBat n g).inp = s.inp := rfl
@[simp] theorem State.updBat_bat (n : Fin 6) (g : BatSt → BatSt) : (s.updBat n g).bat = s.bat.set n (g (s.bat.get n)) := rfl
@[simp] theorem State.updBat_seq (n : Fin 6) (g : BatSt → BatSt) : (s.updBat n g).seq = s.seq := rfl
@[simp] theorem State.updBat_sup (n : Fin 6) (g : BatSt → BatSt) : (s.updBat n g).sup = s.sup := rfl
@[simp] theorem State.updBat_thr (n : Fin 6) (g : BatSt → BatSt) : (s.updBat n g).thr = s.thr := rfl
@[simp] theorem State.updBat_cap (n : Fin 6) (g : BatSt → BatSt) : (s.updBat n g).cap = s.cap := rfl
@[simp] theorem State.updBat_ch (n : Fin 6) (g : BatSt → BatSt) : (s.updBat n g).ch = s.ch := rfl
@[simp] theorem State.updBat_lane (n : Fin 6) (g : BatSt → BatSt) : (s.updBat n g).lane = s.lane := rfl
@[simp] theorem State.updBat_stream (n : Fin 6) (g : BatSt → BatSt) : (s.updBat n g).stream = s.stream := rfl
@[simp] theorem State.updBat_port (n : Fin 6) (g : BatSt → BatSt) : (s.updBat n g).port = s.port := rfl
@[simp] theorem State.updBat_txn (n : Fin 6) (g : BatSt → BatSt) : (s.updBat n g).txn = s.txn := rfl
@[simp] theorem State.updBat_bus (n : Fin 6) (g : BatSt → BatSt) : (s.updBat n g).bus = s.bus := rfl
@[simp] theorem State.updBat_ring (n : Fin 6) (g : BatSt → BatSt) : (s.updBat n g).ring = s.ring := rfl
@[simp] theorem State.updBat_owl (n : Fin 6) (g : BatSt → BatSt) : (s.updBat n g).owl = s.owl := rfl
@[simp] theorem State.updBat_nvm (n : Fin 6) (g : BatSt → BatSt) : (s.updBat n g).nvm = s.nvm := rfl
@[simp] theorem State.updBat_upd (n : Fin 6) (g : BatSt → BatSt) : (s.updBat n g).upd = s.upd := rfl
@[simp] theorem State.updBat_img (n : Fin 6) (g : BatSt → BatSt) : (s.updBat n g).img = s.img := rfl
@[simp] theorem State.updBat_eb (n : Fin 6) (g : BatSt → BatSt) : (s.updBat n g).eb = s.eb := rfl
@[simp] theorem State.updBat_flash (n : Fin 6) (g : BatSt → BatSt) : (s.updBat n g).flash = s.flash := rfl

/-! ### updCh -/

@[simp] theorem State.updCh_pending (n : Fin 64) (g : ChSt → ChSt) : (s.updCh n g).pending = s.pending := rfl
@[simp] theorem State.updCh_regs (n : Fin 64) (g : ChSt → ChSt) : (s.updCh n g).regs = s.regs := rfl
@[simp] theorem State.updCh_dev (n : Fin 64) (g : ChSt → ChSt) : (s.updCh n g).dev = s.dev := rfl
@[simp] theorem State.updCh_oper (n : Fin 64) (g : ChSt → ChSt) : (s.updCh n g).oper = s.oper := rfl
@[simp] theorem State.updCh_freeIdx (n : Fin 64) (g : ChSt → ChSt) : (s.updCh n g).freeIdx = s.freeIdx := rfl
@[simp] theorem State.updCh_pins (n : Fin 64) (g : ChSt → ChSt) : (s.updCh n g).pins = s.pins := rfl
@[simp] theorem State.updCh_power (n : Fin 64) (g : ChSt → ChSt) : (s.updCh n g).power = s.power := rfl
@[simp] theorem State.updCh_tap (n : Fin 64) (g : ChSt → ChSt) : (s.updCh n g).tap = s.tap := rfl
@[simp] theorem State.updCh_clk (n : Fin 64) (g : ChSt → ChSt) : (s.updCh n g).clk = s.clk := rfl
@[simp] theorem State.updCh_tm (n : Fin 64) (g : ChSt → ChSt) : (s.updCh n g).tm = s.tm := rfl
@[simp] theorem State.updCh_ph (n : Fin 64) (g : ChSt → ChSt) : (s.updCh n g).ph = s.ph := rfl
@[simp] theorem State.updCh_cl (n : Fin 64) (g : ChSt → ChSt) : (s.updCh n g).cl = s.cl := rfl
@[simp] theorem State.updCh_fd (n : Fin 64) (g : ChSt → ChSt) : (s.updCh n g).fd = s.fd := rfl
@[simp] theorem State.updCh_prec (n : Fin 64) (g : ChSt → ChSt) : (s.updCh n g).prec = s.prec := rfl
@[simp] theorem State.updCh_inp (n : Fin 64) (g : ChSt → ChSt) : (s.updCh n g).inp = s.inp := rfl
@[simp] theorem State.updCh_bat (n : Fin 64) (g : ChSt → ChSt) : (s.updCh n g).bat = s.bat := rfl
@[simp] theorem State.updCh_seq (n : Fin 64) (g : ChSt → ChSt) : (s.updCh n g).seq = s.seq := rfl
@[simp] theorem State.updCh_sup (n : Fin 64) (g : ChSt → ChSt) : (s.updCh n g).sup = s.sup := rfl
@[simp] theorem State.updCh_thr (n : Fin 64) (g : ChSt → ChSt) : (s.updCh n g).thr = s.thr := rfl
@[simp] theorem State.updCh_cap (n : Fin 64) (g : ChSt → ChSt) : (s.updCh n g).cap = s.cap := rfl
@[simp] theorem State.updCh_ch (n : Fin 64) (g : ChSt → ChSt) : (s.updCh n g).ch = s.ch.set n (g (s.ch.get n)) := rfl
@[simp] theorem State.updCh_lane (n : Fin 64) (g : ChSt → ChSt) : (s.updCh n g).lane = s.lane := rfl
@[simp] theorem State.updCh_stream (n : Fin 64) (g : ChSt → ChSt) : (s.updCh n g).stream = s.stream := rfl
@[simp] theorem State.updCh_port (n : Fin 64) (g : ChSt → ChSt) : (s.updCh n g).port = s.port := rfl
@[simp] theorem State.updCh_txn (n : Fin 64) (g : ChSt → ChSt) : (s.updCh n g).txn = s.txn := rfl
@[simp] theorem State.updCh_bus (n : Fin 64) (g : ChSt → ChSt) : (s.updCh n g).bus = s.bus := rfl
@[simp] theorem State.updCh_ring (n : Fin 64) (g : ChSt → ChSt) : (s.updCh n g).ring = s.ring := rfl
@[simp] theorem State.updCh_owl (n : Fin 64) (g : ChSt → ChSt) : (s.updCh n g).owl = s.owl := rfl
@[simp] theorem State.updCh_nvm (n : Fin 64) (g : ChSt → ChSt) : (s.updCh n g).nvm = s.nvm := rfl
@[simp] theorem State.updCh_upd (n : Fin 64) (g : ChSt → ChSt) : (s.updCh n g).upd = s.upd := rfl
@[simp] theorem State.updCh_img (n : Fin 64) (g : ChSt → ChSt) : (s.updCh n g).img = s.img := rfl
@[simp] theorem State.updCh_eb (n : Fin 64) (g : ChSt → ChSt) : (s.updCh n g).eb = s.eb := rfl
@[simp] theorem State.updCh_flash (n : Fin 64) (g : ChSt → ChSt) : (s.updCh n g).flash = s.flash := rfl

/-! ### updLane -/

@[simp] theorem State.updLane_pending (n : Fin 4) (g : LaneSt → LaneSt) : (s.updLane n g).pending = s.pending := rfl
@[simp] theorem State.updLane_regs (n : Fin 4) (g : LaneSt → LaneSt) : (s.updLane n g).regs = s.regs := rfl
@[simp] theorem State.updLane_dev (n : Fin 4) (g : LaneSt → LaneSt) : (s.updLane n g).dev = s.dev := rfl
@[simp] theorem State.updLane_oper (n : Fin 4) (g : LaneSt → LaneSt) : (s.updLane n g).oper = s.oper := rfl
@[simp] theorem State.updLane_freeIdx (n : Fin 4) (g : LaneSt → LaneSt) : (s.updLane n g).freeIdx = s.freeIdx := rfl
@[simp] theorem State.updLane_pins (n : Fin 4) (g : LaneSt → LaneSt) : (s.updLane n g).pins = s.pins := rfl
@[simp] theorem State.updLane_power (n : Fin 4) (g : LaneSt → LaneSt) : (s.updLane n g).power = s.power := rfl
@[simp] theorem State.updLane_tap (n : Fin 4) (g : LaneSt → LaneSt) : (s.updLane n g).tap = s.tap := rfl
@[simp] theorem State.updLane_clk (n : Fin 4) (g : LaneSt → LaneSt) : (s.updLane n g).clk = s.clk := rfl
@[simp] theorem State.updLane_tm (n : Fin 4) (g : LaneSt → LaneSt) : (s.updLane n g).tm = s.tm := rfl
@[simp] theorem State.updLane_ph (n : Fin 4) (g : LaneSt → LaneSt) : (s.updLane n g).ph = s.ph := rfl
@[simp] theorem State.updLane_cl (n : Fin 4) (g : LaneSt → LaneSt) : (s.updLane n g).cl = s.cl := rfl
@[simp] theorem State.updLane_fd (n : Fin 4) (g : LaneSt → LaneSt) : (s.updLane n g).fd = s.fd := rfl
@[simp] theorem State.updLane_prec (n : Fin 4) (g : LaneSt → LaneSt) : (s.updLane n g).prec = s.prec := rfl
@[simp] theorem State.updLane_inp (n : Fin 4) (g : LaneSt → LaneSt) : (s.updLane n g).inp = s.inp := rfl
@[simp] theorem State.updLane_bat (n : Fin 4) (g : LaneSt → LaneSt) : (s.updLane n g).bat = s.bat := rfl
@[simp] theorem State.updLane_seq (n : Fin 4) (g : LaneSt → LaneSt) : (s.updLane n g).seq = s.seq := rfl
@[simp] theorem State.updLane_sup (n : Fin 4) (g : LaneSt → LaneSt) : (s.updLane n g).sup = s.sup := rfl
@[simp] theorem State.updLane_thr (n : Fin 4) (g : LaneSt → LaneSt) : (s.updLane n g).thr = s.thr := rfl
@[simp] theorem State.updLane_cap (n : Fin 4) (g : LaneSt → LaneSt) : (s.updLane n g).cap = s.cap := rfl
@[simp] theorem State.updLane_ch (n : Fin 4) (g : LaneSt → LaneSt) : (s.updLane n g).ch = s.ch := rfl
@[simp] theorem State.updLane_lane (n : Fin 4) (g : LaneSt → LaneSt) : (s.updLane n g).lane = s.lane.set n (g (s.lane.get n)) := rfl
@[simp] theorem State.updLane_stream (n : Fin 4) (g : LaneSt → LaneSt) : (s.updLane n g).stream = s.stream := rfl
@[simp] theorem State.updLane_port (n : Fin 4) (g : LaneSt → LaneSt) : (s.updLane n g).port = s.port := rfl
@[simp] theorem State.updLane_txn (n : Fin 4) (g : LaneSt → LaneSt) : (s.updLane n g).txn = s.txn := rfl
@[simp] theorem State.updLane_bus (n : Fin 4) (g : LaneSt → LaneSt) : (s.updLane n g).bus = s.bus := rfl
@[simp] theorem State.updLane_ring (n : Fin 4) (g : LaneSt → LaneSt) : (s.updLane n g).ring = s.ring := rfl
@[simp] theorem State.updLane_owl (n : Fin 4) (g : LaneSt → LaneSt) : (s.updLane n g).owl = s.owl := rfl
@[simp] theorem State.updLane_nvm (n : Fin 4) (g : LaneSt → LaneSt) : (s.updLane n g).nvm = s.nvm := rfl
@[simp] theorem State.updLane_upd (n : Fin 4) (g : LaneSt → LaneSt) : (s.updLane n g).upd = s.upd := rfl
@[simp] theorem State.updLane_img (n : Fin 4) (g : LaneSt → LaneSt) : (s.updLane n g).img = s.img := rfl
@[simp] theorem State.updLane_eb (n : Fin 4) (g : LaneSt → LaneSt) : (s.updLane n g).eb = s.eb := rfl
@[simp] theorem State.updLane_flash (n : Fin 4) (g : LaneSt → LaneSt) : (s.updLane n g).flash = s.flash := rfl

/-! ### updThr -/

@[simp] theorem State.updThr_pending (n : Fin 4) (g : ThrSt → ThrSt) : (s.updThr n g).pending = s.pending := rfl
@[simp] theorem State.updThr_regs (n : Fin 4) (g : ThrSt → ThrSt) : (s.updThr n g).regs = s.regs := rfl
@[simp] theorem State.updThr_dev (n : Fin 4) (g : ThrSt → ThrSt) : (s.updThr n g).dev = s.dev := rfl
@[simp] theorem State.updThr_oper (n : Fin 4) (g : ThrSt → ThrSt) : (s.updThr n g).oper = s.oper := rfl
@[simp] theorem State.updThr_freeIdx (n : Fin 4) (g : ThrSt → ThrSt) : (s.updThr n g).freeIdx = s.freeIdx := rfl
@[simp] theorem State.updThr_pins (n : Fin 4) (g : ThrSt → ThrSt) : (s.updThr n g).pins = s.pins := rfl
@[simp] theorem State.updThr_power (n : Fin 4) (g : ThrSt → ThrSt) : (s.updThr n g).power = s.power := rfl
@[simp] theorem State.updThr_tap (n : Fin 4) (g : ThrSt → ThrSt) : (s.updThr n g).tap = s.tap := rfl
@[simp] theorem State.updThr_clk (n : Fin 4) (g : ThrSt → ThrSt) : (s.updThr n g).clk = s.clk := rfl
@[simp] theorem State.updThr_tm (n : Fin 4) (g : ThrSt → ThrSt) : (s.updThr n g).tm = s.tm := rfl
@[simp] theorem State.updThr_ph (n : Fin 4) (g : ThrSt → ThrSt) : (s.updThr n g).ph = s.ph := rfl
@[simp] theorem State.updThr_cl (n : Fin 4) (g : ThrSt → ThrSt) : (s.updThr n g).cl = s.cl := rfl
@[simp] theorem State.updThr_fd (n : Fin 4) (g : ThrSt → ThrSt) : (s.updThr n g).fd = s.fd := rfl
@[simp] theorem State.updThr_prec (n : Fin 4) (g : ThrSt → ThrSt) : (s.updThr n g).prec = s.prec := rfl
@[simp] theorem State.updThr_inp (n : Fin 4) (g : ThrSt → ThrSt) : (s.updThr n g).inp = s.inp := rfl
@[simp] theorem State.updThr_bat (n : Fin 4) (g : ThrSt → ThrSt) : (s.updThr n g).bat = s.bat := rfl
@[simp] theorem State.updThr_seq (n : Fin 4) (g : ThrSt → ThrSt) : (s.updThr n g).seq = s.seq := rfl
@[simp] theorem State.updThr_sup (n : Fin 4) (g : ThrSt → ThrSt) : (s.updThr n g).sup = s.sup := rfl
@[simp] theorem State.updThr_thr (n : Fin 4) (g : ThrSt → ThrSt) : (s.updThr n g).thr = s.thr.set n (g (s.thr.get n)) := rfl
@[simp] theorem State.updThr_cap (n : Fin 4) (g : ThrSt → ThrSt) : (s.updThr n g).cap = s.cap := rfl
@[simp] theorem State.updThr_ch (n : Fin 4) (g : ThrSt → ThrSt) : (s.updThr n g).ch = s.ch := rfl
@[simp] theorem State.updThr_lane (n : Fin 4) (g : ThrSt → ThrSt) : (s.updThr n g).lane = s.lane := rfl
@[simp] theorem State.updThr_stream (n : Fin 4) (g : ThrSt → ThrSt) : (s.updThr n g).stream = s.stream := rfl
@[simp] theorem State.updThr_port (n : Fin 4) (g : ThrSt → ThrSt) : (s.updThr n g).port = s.port := rfl
@[simp] theorem State.updThr_txn (n : Fin 4) (g : ThrSt → ThrSt) : (s.updThr n g).txn = s.txn := rfl
@[simp] theorem State.updThr_bus (n : Fin 4) (g : ThrSt → ThrSt) : (s.updThr n g).bus = s.bus := rfl
@[simp] theorem State.updThr_ring (n : Fin 4) (g : ThrSt → ThrSt) : (s.updThr n g).ring = s.ring := rfl
@[simp] theorem State.updThr_owl (n : Fin 4) (g : ThrSt → ThrSt) : (s.updThr n g).owl = s.owl := rfl
@[simp] theorem State.updThr_nvm (n : Fin 4) (g : ThrSt → ThrSt) : (s.updThr n g).nvm = s.nvm := rfl
@[simp] theorem State.updThr_upd (n : Fin 4) (g : ThrSt → ThrSt) : (s.updThr n g).upd = s.upd := rfl
@[simp] theorem State.updThr_img (n : Fin 4) (g : ThrSt → ThrSt) : (s.updThr n g).img = s.img := rfl
@[simp] theorem State.updThr_eb (n : Fin 4) (g : ThrSt → ThrSt) : (s.updThr n g).eb = s.eb := rfl
@[simp] theorem State.updThr_flash (n : Fin 4) (g : ThrSt → ThrSt) : (s.updThr n g).flash = s.flash := rfl

/-! ### updCap -/

@[simp] theorem State.updCap_pending (n : Fin 5) (g : CapCtl → CapCtl) : (s.updCap n g).pending = s.pending := rfl
@[simp] theorem State.updCap_regs (n : Fin 5) (g : CapCtl → CapCtl) : (s.updCap n g).regs = s.regs := rfl
@[simp] theorem State.updCap_dev (n : Fin 5) (g : CapCtl → CapCtl) : (s.updCap n g).dev = s.dev := rfl
@[simp] theorem State.updCap_oper (n : Fin 5) (g : CapCtl → CapCtl) : (s.updCap n g).oper = s.oper := rfl
@[simp] theorem State.updCap_freeIdx (n : Fin 5) (g : CapCtl → CapCtl) : (s.updCap n g).freeIdx = s.freeIdx := rfl
@[simp] theorem State.updCap_pins (n : Fin 5) (g : CapCtl → CapCtl) : (s.updCap n g).pins = s.pins := rfl
@[simp] theorem State.updCap_power (n : Fin 5) (g : CapCtl → CapCtl) : (s.updCap n g).power = s.power := rfl
@[simp] theorem State.updCap_tap (n : Fin 5) (g : CapCtl → CapCtl) : (s.updCap n g).tap = s.tap := rfl
@[simp] theorem State.updCap_clk (n : Fin 5) (g : CapCtl → CapCtl) : (s.updCap n g).clk = s.clk := rfl
@[simp] theorem State.updCap_tm (n : Fin 5) (g : CapCtl → CapCtl) : (s.updCap n g).tm = s.tm := rfl
@[simp] theorem State.updCap_ph (n : Fin 5) (g : CapCtl → CapCtl) : (s.updCap n g).ph = s.ph := rfl
@[simp] theorem State.updCap_cl (n : Fin 5) (g : CapCtl → CapCtl) : (s.updCap n g).cl = s.cl := rfl
@[simp] theorem State.updCap_fd (n : Fin 5) (g : CapCtl → CapCtl) : (s.updCap n g).fd = s.fd := rfl
@[simp] theorem State.updCap_prec (n : Fin 5) (g : CapCtl → CapCtl) : (s.updCap n g).prec = s.prec := rfl
@[simp] theorem State.updCap_inp (n : Fin 5) (g : CapCtl → CapCtl) : (s.updCap n g).inp = s.inp := rfl
@[simp] theorem State.updCap_bat (n : Fin 5) (g : CapCtl → CapCtl) : (s.updCap n g).bat = s.bat := rfl
@[simp] theorem State.updCap_seq (n : Fin 5) (g : CapCtl → CapCtl) : (s.updCap n g).seq = s.seq := rfl
@[simp] theorem State.updCap_sup (n : Fin 5) (g : CapCtl → CapCtl) : (s.updCap n g).sup = s.sup := rfl
@[simp] theorem State.updCap_thr (n : Fin 5) (g : CapCtl → CapCtl) : (s.updCap n g).thr = s.thr := rfl
@[simp] theorem State.updCap_cap (n : Fin 5) (g : CapCtl → CapCtl) : (s.updCap n g).cap = s.cap.set n (g (s.cap.get n)) := rfl
@[simp] theorem State.updCap_ch (n : Fin 5) (g : CapCtl → CapCtl) : (s.updCap n g).ch = s.ch := rfl
@[simp] theorem State.updCap_lane (n : Fin 5) (g : CapCtl → CapCtl) : (s.updCap n g).lane = s.lane := rfl
@[simp] theorem State.updCap_stream (n : Fin 5) (g : CapCtl → CapCtl) : (s.updCap n g).stream = s.stream := rfl
@[simp] theorem State.updCap_port (n : Fin 5) (g : CapCtl → CapCtl) : (s.updCap n g).port = s.port := rfl
@[simp] theorem State.updCap_txn (n : Fin 5) (g : CapCtl → CapCtl) : (s.updCap n g).txn = s.txn := rfl
@[simp] theorem State.updCap_bus (n : Fin 5) (g : CapCtl → CapCtl) : (s.updCap n g).bus = s.bus := rfl
@[simp] theorem State.updCap_ring (n : Fin 5) (g : CapCtl → CapCtl) : (s.updCap n g).ring = s.ring := rfl
@[simp] theorem State.updCap_owl (n : Fin 5) (g : CapCtl → CapCtl) : (s.updCap n g).owl = s.owl := rfl
@[simp] theorem State.updCap_nvm (n : Fin 5) (g : CapCtl → CapCtl) : (s.updCap n g).nvm = s.nvm := rfl
@[simp] theorem State.updCap_upd (n : Fin 5) (g : CapCtl → CapCtl) : (s.updCap n g).upd = s.upd := rfl
@[simp] theorem State.updCap_img (n : Fin 5) (g : CapCtl → CapCtl) : (s.updCap n g).img = s.img := rfl
@[simp] theorem State.updCap_eb (n : Fin 5) (g : CapCtl → CapCtl) : (s.updCap n g).eb = s.eb := rfl
@[simp] theorem State.updCap_flash (n : Fin 5) (g : CapCtl → CapCtl) : (s.updCap n g).flash = s.flash := rfl

/-! ### updBus -/

@[simp] theorem State.updBus_pending (n : Fin 2) (g : BusSt → BusSt) : (s.updBus n g).pending = s.pending := rfl
@[simp] theorem State.updBus_regs (n : Fin 2) (g : BusSt → BusSt) : (s.updBus n g).regs = s.regs := rfl
@[simp] theorem State.updBus_dev (n : Fin 2) (g : BusSt → BusSt) : (s.updBus n g).dev = s.dev := rfl
@[simp] theorem State.updBus_oper (n : Fin 2) (g : BusSt → BusSt) : (s.updBus n g).oper = s.oper := rfl
@[simp] theorem State.updBus_freeIdx (n : Fin 2) (g : BusSt → BusSt) : (s.updBus n g).freeIdx = s.freeIdx := rfl
@[simp] theorem State.updBus_pins (n : Fin 2) (g : BusSt → BusSt) : (s.updBus n g).pins = s.pins := rfl
@[simp] theorem State.updBus_power (n : Fin 2) (g : BusSt → BusSt) : (s.updBus n g).power = s.power := rfl
@[simp] theorem State.updBus_tap (n : Fin 2) (g : BusSt → BusSt) : (s.updBus n g).tap = s.tap := rfl
@[simp] theorem State.updBus_clk (n : Fin 2) (g : BusSt → BusSt) : (s.updBus n g).clk = s.clk := rfl
@[simp] theorem State.updBus_tm (n : Fin 2) (g : BusSt → BusSt) : (s.updBus n g).tm = s.tm := rfl
@[simp] theorem State.updBus_ph (n : Fin 2) (g : BusSt → BusSt) : (s.updBus n g).ph = s.ph := rfl
@[simp] theorem State.updBus_cl (n : Fin 2) (g : BusSt → BusSt) : (s.updBus n g).cl = s.cl := rfl
@[simp] theorem State.updBus_fd (n : Fin 2) (g : BusSt → BusSt) : (s.updBus n g).fd = s.fd := rfl
@[simp] theorem State.updBus_prec (n : Fin 2) (g : BusSt → BusSt) : (s.updBus n g).prec = s.prec := rfl
@[simp] theorem State.updBus_inp (n : Fin 2) (g : BusSt → BusSt) : (s.updBus n g).inp = s.inp := rfl
@[simp] theorem State.updBus_bat (n : Fin 2) (g : BusSt → BusSt) : (s.updBus n g).bat = s.bat := rfl
@[simp] theorem State.updBus_seq (n : Fin 2) (g : BusSt → BusSt) : (s.updBus n g).seq = s.seq := rfl
@[simp] theorem State.updBus_sup (n : Fin 2) (g : BusSt → BusSt) : (s.updBus n g).sup = s.sup := rfl
@[simp] theorem State.updBus_thr (n : Fin 2) (g : BusSt → BusSt) : (s.updBus n g).thr = s.thr := rfl
@[simp] theorem State.updBus_cap (n : Fin 2) (g : BusSt → BusSt) : (s.updBus n g).cap = s.cap := rfl
@[simp] theorem State.updBus_ch (n : Fin 2) (g : BusSt → BusSt) : (s.updBus n g).ch = s.ch := rfl
@[simp] theorem State.updBus_lane (n : Fin 2) (g : BusSt → BusSt) : (s.updBus n g).lane = s.lane := rfl
@[simp] theorem State.updBus_stream (n : Fin 2) (g : BusSt → BusSt) : (s.updBus n g).stream = s.stream := rfl
@[simp] theorem State.updBus_port (n : Fin 2) (g : BusSt → BusSt) : (s.updBus n g).port = s.port := rfl
@[simp] theorem State.updBus_txn (n : Fin 2) (g : BusSt → BusSt) : (s.updBus n g).txn = s.txn := rfl
@[simp] theorem State.updBus_bus (n : Fin 2) (g : BusSt → BusSt) : (s.updBus n g).bus = s.bus.set n (g (s.bus.get n)) := rfl
@[simp] theorem State.updBus_ring (n : Fin 2) (g : BusSt → BusSt) : (s.updBus n g).ring = s.ring := rfl
@[simp] theorem State.updBus_owl (n : Fin 2) (g : BusSt → BusSt) : (s.updBus n g).owl = s.owl := rfl
@[simp] theorem State.updBus_nvm (n : Fin 2) (g : BusSt → BusSt) : (s.updBus n g).nvm = s.nvm := rfl
@[simp] theorem State.updBus_upd (n : Fin 2) (g : BusSt → BusSt) : (s.updBus n g).upd = s.upd := rfl
@[simp] theorem State.updBus_img (n : Fin 2) (g : BusSt → BusSt) : (s.updBus n g).img = s.img := rfl
@[simp] theorem State.updBus_eb (n : Fin 2) (g : BusSt → BusSt) : (s.updBus n g).eb = s.eb := rfl
@[simp] theorem State.updBus_flash (n : Fin 2) (g : BusSt → BusSt) : (s.updBus n g).flash = s.flash := rfl

end Sys2Proof.Machine
end

