-- ==== Sys2Proof/Laws/Ops.lean ====
section
/-! SUPPORT. What the shared operations do to the registers: a stored register, field or flag reads what was stored, every other
register and field reads as before, and the canonical form is kept. -/

namespace Sys2Proof.Machine

variable (s : State)

/-! ### Registers -/

@[simp] theorem State.reg_setReg_self (a : Nat) (w : Word) : (s.setReg a w).reg a = w := Sparse.get_put_self a w s.regs

theorem State.reg_setReg_ne {a b : Nat} (h : b ≠ a) (w : Word) : (s.setReg a w).reg b = s.reg b := Sparse.get_put_ne h w s.regs

theorem State.reg_setF_ne {fl : Fld} {i v b : Nat} (h : b ≠ fl.addr i) : (s.setF fl i v).reg b = s.reg b := State.reg_setReg_ne s h _

theorem State.reg_setB_ne {fl : Fld} {i b : Nat} {v : Bool} (h : b ≠ fl.addr i) : (s.setB fl i v).reg b = s.reg b :=
  State.reg_setReg_ne s h _

theorem State.reg_setFBit_ne {fl : Fld} {i k b : Nat} {v : Bool} (h : b ≠ fl.addr i) : (s.setFBit fl i k v).reg b = s.reg b :=
  State.reg_setReg_ne s h _

theorem State.reg_incF_ne {fl : Fld} {i n b : Nat} (h : b ≠ fl.addr i) : (s.incF fl i n).reg b = s.reg b :=
  State.reg_setReg_ne s h _

/-! ### Fields -/

theorem State.f_setF_self {fl : Fld} (h : fl.fits) (i v : Nat) : (s.setF fl i v).f fl i = v % 2 ^ fl.w := by
  simp only [State.f, State.setF, State.reg_setReg_self]
  exact Fld.get_insert_self fl h _ v

theorem State.f_setF_ne {fl g : Fld} {i j v : Nat} (h : g.addr j ≠ fl.addr i) : (s.setF fl i v).f g j = s.f g j := by
  simp only [State.f, State.reg_setF_ne s h]

theorem State.f_setF_apart {fl g : Fld} {i j v : Nat} (hg : g.fits) (h : fl.apart g) : (s.setF fl i v).f g j = s.f g j := by
  by_cases ha : g.addr j = fl.addr i
  · simp only [State.f, State.setF, ha, State.reg_setReg_self]
    exact Fld.get_insert_apart fl g hg h _ v
  · exact State.f_setF_ne s ha

theorem State.fB_setB_self {fl : Fld} (h : fl.fits) (hw : fl.w = 1) (i : Nat) (b : Bool) : (s.setB fl i b).fB fl i = b := by
  simp only [State.fB, State.setB, State.f_setF_self s h, hw]
  cases b <;> rfl

theorem State.fB_setB_ne {fl g : Fld} {i j : Nat} {b : Bool} (h : g.addr j ≠ fl.addr i) : (s.setB fl i b).fB g j = s.fB g j := by
  simp only [State.fB, State.setB, State.f_setF_ne s h]

theorem State.fB_setB_apart {fl g : Fld} {i j : Nat} {b : Bool} (hg : g.fits) (h : fl.apart g) :
    (s.setB fl i b).fB g j = s.fB g j := by
  simp only [State.fB, State.setB, State.f_setF_apart s hg h]

theorem State.f_lt (fl : Fld) (i : Nat) : s.f fl i < 2 ^ fl.w := Fld.get_lt fl _

/-! ### Fields and flags under the other stores -/

theorem State.fB_setF_self {fl : Fld} (h : fl.fits) (i v : Nat) : (s.setF fl i v).fB fl i = (v % 2 ^ fl.w != 0) := by
  simp [State.fB, State.f_setF_self s h]

theorem State.fB_setF_apart {fl g : Fld} {i j v : Nat} (hg : g.fits) (h : fl.apart g) : (s.setF fl i v).fB g j = s.fB g j := by
  simp [State.fB, State.f_setF_apart s hg h]

theorem State.fB_setF_ne {fl g : Fld} {i j v : Nat} (h : g.addr j ≠ fl.addr i) : (s.setF fl i v).fB g j = s.fB g j := by
  simp [State.fB, State.f_setF_ne s h]

theorem State.fB_setReg_ne {g : Fld} {a j} {w : Word} (h : g.addr j ≠ a) : (s.setReg a w).fB g j = s.fB g j := by
  simp [State.fB, State.f, State.reg_setReg_ne s h]

theorem State.f_setReg_ne {g : Fld} {a j} {w : Word} (h : g.addr j ≠ a) : (s.setReg a w).f g j = s.f g j := by
  simp [State.f, State.reg_setReg_ne s h]

theorem State.f_setB_self {fl : Fld} (h : fl.fits) (hw : fl.w = 1) (i : Nat) (b : Bool) : (s.setB fl i b).f fl i = b.toNat := by
  simp only [State.setB, State.f_setF_self s h, hw]; cases b <;> rfl

theorem State.f_setB_ne {fl g : Fld} {i j : Nat} {b : Bool} (h : g.addr j ≠ fl.addr i) : (s.setB fl i b).f g j = s.f g j := by
  simp only [State.setB, State.f_setF_ne s h]

theorem State.f_setB_apart {fl g : Fld} {i j : Nat} {b : Bool} (hg : g.fits) (h : fl.apart g) : (s.setB fl i b).f g j = s.f g j := by
  simp only [State.setB, State.f_setF_apart s hg h]

theorem State.fS_setS_self {fl : Fld} (h : fl.fits) (i : Nat) (v : Int) : (s.setS fl i v).fS fl i = toSigned fl.w (ofSigned fl.w v % 2 ^ fl.w) := by
  simp only [State.fS, State.setS, State.f_setF_self s h]

theorem State.f_setS_ne {fl g : Fld} {i j : Nat} {b : Int} (h : g.addr j ≠ fl.addr i) : (s.setS fl i b).f g j = s.f g j := by
  simp only [State.setS, State.f_setF_ne s h]

theorem State.f_setS_apart {fl g : Fld} {i j : Nat} {b : Int} (hg : g.fits) (h : fl.apart g) : (s.setS fl i b).f g j = s.f g j := by
  simp only [State.setS, State.f_setF_apart s hg h]

theorem State.fB_setS_ne {fl g : Fld} {i j : Nat} {b : Int} (h : g.addr j ≠ fl.addr i) : (s.setS fl i b).fB g j = s.fB g j := by
  simp only [State.setS, State.fB_setF_ne s h]

theorem State.fB_setS_apart {fl g : Fld} {i j : Nat} {b : Int} (hg : g.fits) (h : fl.apart g) : (s.setS fl i b).fB g j = s.fB g j := by
  simp only [State.setS, State.fB_setF_apart s hg h]

theorem State.reg_setS_ne {fl : Fld} {i b : Nat} {v : Int} (h : b ≠ fl.addr i) : (s.setS fl i v).reg b = s.reg b :=
  State.reg_setReg_ne s h _

/-! ### Flows -/

@[simp] theorem State.when_true (g : State → State) : s.when true g = g s := rfl
@[simp] theorem State.when_false (g : State → State) : s.when false g = s := rfl
@[simp] theorem State.each_nil {α : Type} (g : State → α → State) : s.each [] g = s := rfl
@[simp] theorem State.each_cons {α : Type} (x : α) (l : List α) (g : State → α → State) : s.each (x :: l) g = (g s x).each l g := rfl

/-- What every step of a fold keeps, the fold keeps. -/
theorem State.each_keeps {α : Type} {P : State → Prop} {g : State → α → State} (hg : ∀ t x, P t → P (g t x)) (l : List α)
    (h : P s) : P (s.each l g) := by
  induction l generalizing s with
  | nil => exact h
  | cons x l ih => exact ih (g s x) (hg s x h)

/-! ### The canonical form -/

theorem State.wf_setReg (a : Nat) (w : Word) (h : Sparse.wf regReset s.regs = true) : Sparse.wf regReset (s.setReg a w).regs = true :=
  Sparse.wf_put a w h

theorem State.wf_setF (fl : Fld) (i v : Nat) (h : Sparse.wf regReset s.regs = true) : Sparse.wf regReset (s.setF fl i v).regs = true :=
  Sparse.wf_put _ _ h

end Sys2Proof.Machine
end

