-- ==== Sys2Proof/Laws/KeepsOps.lean ====
section
/-! SUPPORT. What the model's operations leave alone.  An operation `foo` that does not lead to another device state has a lemma
`foo_keeps`, one that may (beneath an entry to BOOT) a lemma `foo_moves`; each speaks of `foo` applied to a state that some
operations have reached from `s`. -/

set_option linter.unusedTactic false
set_option linter.unreachableTactic false

namespace Sys2Proof.Machine

/-- What no operation beneath an entry to BOOT writes: the queue of commands, the configuration flash, the level of EN, the serial
number, the service key, the role and the behaviour level; the canonical form of the registers; and SAFE, once entered. -/
structure State.Moves (s t : State) : Prop where
  pending : t.pending = s.pending
  flash : t.flash = s.flash
  en : t.pins.en = s.pins.en
  serial : t.nvm.serial = s.nvm.serial
  svcKey : t.nvm.svcKey = s.nvm.svcKey
  role : t.img.role = s.img.role
  blevel : t.img.blevel = s.img.blevel
  wf : Sparse.wf regReset s.regs = true → Sparse.wf regReset t.regs = true
  safe : s.dev = .safe → t.dev = .safe

/-- The same, and the device state. -/
structure State.Keeps (s t : State) : Prop extends State.Moves s t where
  dev : t.dev = s.dev

variable {s t u : State}

theorem State.moves_refl (s : State) : s.Moves s := ⟨rfl, rfl, rfl, rfl, rfl, rfl, rfl, id, id⟩
theorem State.keeps_refl (s : State) : s.Keeps s := ⟨State.moves_refl s, rfl⟩

theorem State.Moves.trans (h : s.Moves t) (k : t.Moves u) : s.Moves u :=
  ⟨k.pending.trans h.pending, k.flash.trans h.flash, k.en.trans h.en, k.serial.trans h.serial, k.svcKey.trans h.svcKey,
    k.role.trans h.role, k.blevel.trans h.blevel, fun x => k.wf (h.wf x), fun x => k.safe (h.safe x)⟩

theorem State.Keeps.trans (h : s.Keeps t) (k : t.Keeps u) : s.Keeps u := ⟨h.toMoves.trans k.toMoves, k.dev.trans h.dev⟩
theorem State.Moves.keeps (h : s.Moves t) (k : t.Keeps u) : s.Moves u := h.trans k.toMoves

/-- The same as `Moves` where an entry to BOOT is possible: SAFE stays SAFE or becomes BOOT, and only in BOOT the role and the
behaviour level may differ. -/
structure State.Runs (s t : State) : Prop where
  pending : t.pending = s.pending
  flash : t.flash = s.flash
  en : t.pins.en = s.pins.en
  serial : t.nvm.serial = s.nvm.serial
  svcKey : t.nvm.svcKey = s.nvm.svcKey
  image : (t.img.role = s.img.role ∧ t.img.blevel = s.img.blevel) ∨ t.dev = .boot
  wf : Sparse.wf regReset s.regs = true → Sparse.wf regReset t.regs = true
  safe : s.dev = .safe → t.dev = .safe ∨ t.dev = .boot

theorem State.Moves.runs (h : s.Moves t) : s.Runs t :=
  ⟨h.pending, h.flash, h.en, h.serial, h.svcKey, .inl ⟨h.role, h.blevel⟩, h.wf, fun x => .inl (h.safe x)⟩

theorem State.Runs.keeps (h : s.Runs t) (k : t.Keeps u) : s.Runs u :=
  ⟨k.pending.trans h.pending, k.flash.trans h.flash, k.en.trans h.en, k.serial.trans h.serial, k.svcKey.trans h.svcKey,
    h.image.imp (fun x => ⟨k.role.trans x.1, k.blevel.trans x.2⟩) (fun x => k.dev.trans x), fun x => k.wf (h.wf x),
    fun x => (h.safe x).imp (fun y => k.dev.trans y) (fun y => k.dev.trans y)⟩

theorem State.Moves.thenRuns (h : s.Moves t) (k : t.Runs u) : s.Runs u :=
  ⟨k.pending.trans h.pending, k.flash.trans h.flash, k.en.trans h.en, k.serial.trans h.serial, k.svcKey.trans h.svcKey,
    k.image.imp (fun x => ⟨x.1.trans h.role, x.2.trans h.blevel⟩) id, fun x => k.wf (h.wf x), fun x => k.safe (h.safe x)⟩

/-- A step of a chain that goes on only where the device is not in BOOT. -/
theorem State.Runs.trans (h : s.Runs t) (hb : t.dev ≠ .boot) (k : t.Runs u) : s.Runs u :=
  ⟨k.pending.trans h.pending, k.flash.trans h.flash, k.en.trans h.en, k.serial.trans h.serial, k.svcKey.trans h.svcKey,
    k.image.imp (fun x => match h.image with
      | .inl y => ⟨x.1.trans y.1, x.2.trans y.2⟩
      | .inr y => absurd y hb) id,
    fun x => k.wf (h.wf x), fun x => (h.safe x).elim k.safe (fun y => absurd y hb)⟩

theorem State.runs_ite {c : Prop} [Decidable c] {a b : State} (ha : s.Runs a) (hb : s.Runs b) : s.Runs (if c then a else b) := by
  split <;> assumption
theorem State.runs_ite₁ {α : Type} {c : Prop} [Decidable c] {a b : State × α} (ha : s.Runs a.1) (hb : s.Runs b.1) :
    s.Runs (if c then a else b).1 := by
  split <;> assumption

/-! ### Branches and changes of hidden state -/

theorem State.keeps_ite {c : Prop} [Decidable c] {a b : State} (ha : s.Keeps a) (hb : s.Keeps b) : s.Keeps (if c then a else b) := by
  split <;> assumption
theorem State.keeps_ite₁ {α : Type} {c : Prop} [Decidable c] {a b : State × α} (ha : s.Keeps a.1) (hb : s.Keeps b.1) :
    s.Keeps (if c then a else b).1 := by
  split <;> assumption
theorem State.keeps_ite₂ {α : Type} {c : Prop} [Decidable c] {a b : α × State} (ha : s.Keeps a.2) (hb : s.Keeps b.2) :
    s.Keeps (if c then a else b).2 := by
  split <;> assumption
theorem State.moves_ite {c : Prop} [Decidable c] {a b : State} (ha : s.Moves a) (hb : s.Moves b) : s.Moves (if c then a else b) := by
  split <;> assumption
theorem State.moves_ite₁ {α : Type} {c : Prop} [Decidable c] {a b : State × α} (ha : s.Moves a.1) (hb : s.Moves b.1) :
    s.Moves (if c then a else b).1 := by
  split <;> assumption

theorem State.moves_lit (h : s.Moves t) {oper freeIdx pins power tap clk tm ph cl fd prec inp bat seq sup thr cap ch lane stream port
    txn bus ring owl nvm upd img eb} (hp : pins.en = t.pins.en) (hs : nvm.serial = t.nvm.serial) (hk : nvm.svcKey = t.nvm.svcKey)
    (hr : img.role = t.img.role) (hb : img.blevel = t.img.blevel) :
    s.Moves ⟨t.pending, t.regs, t.dev, oper, freeIdx, pins, power, tap, clk, tm, ph, cl, fd, prec, inp, bat, seq, sup, thr, cap, ch,
      lane, stream, port, txn, bus, ring, owl, nvm, upd, img, eb, t.flash⟩ :=
  ⟨h.pending, h.flash, hp.trans h.en, hs.trans h.serial, hk.trans h.svcKey, hr.trans h.role, hb.trans h.blevel, h.wf, h.safe⟩

theorem State.keeps_lit (h : s.Keeps t) {oper freeIdx pins power tap clk tm ph cl fd prec inp bat seq sup thr cap ch lane stream port
    txn bus ring owl nvm upd img eb} (hp : pins.en = t.pins.en) (hs : nvm.serial = t.nvm.serial) (hk : nvm.svcKey = t.nvm.svcKey)
    (hr : img.role = t.img.role) (hb : img.blevel = t.img.blevel) :
    s.Keeps ⟨t.pending, t.regs, t.dev, oper, freeIdx, pins, power, tap, clk, tm, ph, cl, fd, prec, inp, bat, seq, sup, thr, cap, ch,
      lane, stream, port, txn, bus, ring, owl, nvm, upd, img, eb, t.flash⟩ :=
  ⟨State.moves_lit h.toMoves hp hs hk hr hb, h.dev⟩

/-! ### Registers and flows -/

theorem State.setReg_keeps (h : s.Keeps t) (a : Nat) (w : Word) : s.Keeps (t.setReg a w) :=
  h.trans ⟨⟨rfl, rfl, rfl, rfl, rfl, rfl, rfl, State.wf_setReg t a w, id⟩, rfl⟩
theorem State.setF_keeps (h : s.Keeps t) (fl : Fld) (i v : Nat) : s.Keeps (t.setF fl i v) := State.setReg_keeps h _ _
theorem State.setB_keeps (h : s.Keeps t) (fl : Fld) (i : Nat) (b : Bool) : s.Keeps (t.setB fl i b) := State.setReg_keeps h _ _
theorem State.setS_keeps (h : s.Keeps t) (fl : Fld) (i : Nat) (v : Int) : s.Keeps (t.setS fl i v) := State.setReg_keeps h _ _
theorem State.setFBit_keeps (h : s.Keeps t) (fl : Fld) (i k : Nat) (b : Bool) : s.Keeps (t.setFBit fl i k b) := State.setReg_keeps h _ _
theorem State.incF_keeps (h : s.Keeps t) (fl : Fld) (i n : Nat) : s.Keeps (t.incF fl i n) := State.setReg_keeps h _ _

theorem State.setReg_moves (h : s.Moves t) (a : Nat) (w : Word) : s.Moves (t.setReg a w) := h.keeps (State.setReg_keeps (State.keeps_refl _) _ _)
theorem State.setF_moves (h : s.Moves t) (fl : Fld) (i v : Nat) : s.Moves (t.setF fl i v) := State.setReg_moves h _ _
theorem State.setB_moves (h : s.Moves t) (fl : Fld) (i : Nat) (b : Bool) : s.Moves (t.setB fl i b) := State.setReg_moves h _ _
theorem State.setS_moves (h : s.Moves t) (fl : Fld) (i : Nat) (v : Int) : s.Moves (t.setS fl i v) := State.setReg_moves h _ _
theorem State.setFBit_moves (h : s.Moves t) (fl : Fld) (i k : Nat) (b : Bool) : s.Moves (t.setFBit fl i k b) := State.setReg_moves h _ _
theorem State.incF_moves (h : s.Moves t) (fl : Fld) (i n : Nat) : s.Moves (t.incF fl i n) := State.setReg_moves h _ _

theorem State.when_keeps (h : s.Keeps t) (b : Bool) {g : State → State} (hg : ∀ {u}, s.Keeps u → s.Keeps (g u)) : s.Keeps (t.when b g) := by
  cases b
  · exact h
  · exact hg h

theorem State.when_moves (h : s.Moves t) (b : Bool) {g : State → State} (hg : ∀ {u}, s.Moves u → s.Moves (g u)) : s.Moves (t.when b g) := by
  cases b
  · exact h
  · exact hg h

theorem State.fold_keeps {α : Type} (h : s.Keeps t) (l : List α) {g : State → α → State} (hg : ∀ {u} x, s.Keeps u → s.Keeps (g u x)) :
    s.Keeps (l.foldl g t) := by
  induction l generalizing t with
  | nil => exact h
  | cons x l ih => exact ih (hg x h)

theorem State.each_keeps' {α : Type} (h : s.Keeps t) (l : List α) {g : State → α → State} (hg : ∀ {u} x, s.Keeps u → s.Keeps (g u x)) :
    s.Keeps (t.each l g) := State.fold_keeps h l hg

theorem State.fold_moves {α : Type} (h : s.Moves t) (l : List α) {g : State → α → State} (hg : ∀ {u} x, s.Moves u → s.Moves (g u x)) :
    s.Moves (l.foldl g t) := by
  induction l generalizing t with
  | nil => exact h
  | cons x l ih => exact ih (hg x h)

theorem State.each_moves {α : Type} (h : s.Moves t) (l : List α) {g : State → α → State} (hg : ∀ {u} x, s.Moves u → s.Moves (g u x)) :
    s.Moves (t.each l g) := State.fold_moves h l hg

theorem State.setSrcBit_keeps {s t : State} (h : s.Keeps t) (src : Nat) (b : Bool) : s.Keeps (State.setSrcBit t src b) := by
  unfold State.setSrcBit; try dsimp only
  repeat' (first | with_reducible assumption | intro _ | with_reducible apply State.keeps_ite | with_reducible apply State.keeps_ite₁ | with_reducible apply State.keeps_ite₂ | with_reducible apply State.setFBit_keeps | split | dsimp only | fail_if_no_progress with_reducible refine State.keeps_lit ?_ rfl rfl rfl rfl rfl)

theorem State.setSrcBit_moves {s t : State} (h : s.Moves t) (src : Nat) (b : Bool) : s.Moves (State.setSrcBit t src b) :=
  h.keeps (State.setSrcBit_keeps (State.keeps_refl _) _ _)

theorem State.lower_keeps {s t : State} (h : s.Keeps t) (src : Nat) : s.Keeps (State.lower t src) := by
  unfold State.lower; try dsimp only
  repeat' (first | with_reducible assumption | intro _ | with_reducible apply State.keeps_ite | with_reducible apply State.keeps_ite₁ | with_reducible apply State.keeps_ite₂ | with_reducible apply State.setSrcBit_keeps | split | dsimp only | fail_if_no_progress with_reducible refine State.keeps_lit ?_ rfl rfl rfl rfl rfl)

theorem State.lower_moves {s t : State} (h : s.Moves t) (src : Nat) : s.Moves (State.lower t src) :=
  h.keeps (State.lower_keeps (State.keeps_refl _) _)

theorem State.updCl_keeps {s t : State} (h : s.Keeps t) (n : Fin 16) (g : ClusterSt → ClusterSt) : s.Keeps (State.updCl t n g) := by
  unfold State.updCl; try dsimp only
  repeat' (first | with_reducible assumption | intro _ | with_reducible apply State.keeps_ite | with_reducible apply State.keeps_ite₁ | with_reducible apply State.keeps_ite₂ | split | dsimp only | fail_if_no_progress with_reducible refine State.keeps_lit ?_ rfl rfl rfl rfl rfl)

theorem State.updCl_moves {s t : State} (h : s.Moves t) (n : Fin 16) (g : ClusterSt → ClusterSt) : s.Moves (State.updCl t n g) :=
  h.keeps (State.updCl_keeps (State.keeps_refl _) _ _)

theorem State.record_keeps {s t : State} (h : s.Keeps t) (ty : Nat) (payload : List Word) : s.Keeps (State.record t ty payload) := by
  unfold State.record; try dsimp only
  repeat' (first | with_reducible assumption | intro _ | with_reducible apply State.keeps_ite | with_reducible apply State.keeps_ite₁ | with_reducible apply State.keeps_ite₂ | with_reducible apply State.incF_keeps | with_reducible apply State.setReg_keeps | split | dsimp only | fail_if_no_progress with_reducible refine State.keeps_lit ?_ rfl rfl rfl rfl rfl)

theorem State.record_moves {s t : State} (h : s.Moves t) (ty : Nat) (payload : List Word) : s.Moves (State.record t ty payload) :=
  h.keeps (State.record_keeps (State.keeps_refl _) _ _)

theorem State.recordSrc_keeps {s t : State} (h : s.Keeps t) (src : Nat) (sub : Nat) (items : List Word) : s.Keeps (State.recordSrc t src sub items) := by
  unfold State.recordSrc; try dsimp only
  repeat' (first | with_reducible assumption | intro _ | with_reducible apply State.keeps_ite | with_reducible apply State.keeps_ite₁ | with_reducible apply State.keeps_ite₂ | with_reducible apply State.record_keeps | split | dsimp only | fail_if_no_progress with_reducible refine State.keeps_lit ?_ rfl rfl rfl rfl rfl)

theorem State.recordSrc_moves {s t : State} (h : s.Moves t) (src : Nat) (sub : Nat) (items : List Word) : s.Moves (State.recordSrc t src sub items) :=
  h.keeps (State.recordSrc_keeps (State.keeps_refl _) _ _ _)

theorem State.histAdd_keeps {s t : State} (h : s.Keeps t) (code : Word) : s.Keeps (State.histAdd t code) := by
  unfold State.histAdd; try dsimp only
  repeat' (first | with_reducible assumption | intro _ | with_reducible apply State.keeps_ite | with_reducible apply State.keeps_ite₁ | with_reducible apply State.keeps_ite₂ | split | dsimp only | fail_if_no_progress with_reducible refine State.keeps_lit ?_ rfl rfl rfl rfl rfl)

theorem State.histAdd_moves {s t : State} (h : s.Moves t) (code : Word) : s.Moves (State.histAdd t code) :=
  h.keeps (State.histAdd_keeps (State.keeps_refl _) _)

theorem State.stopTrains_keeps {s t : State} (h : s.Keeps t)  : s.Keeps (State.stopTrains t) := by
  unfold State.stopTrains; try dsimp only
  repeat' (first | with_reducible assumption | intro _ | with_reducible apply State.keeps_ite | with_reducible apply State.keeps_ite₁ | with_reducible apply State.keeps_ite₂ | split | dsimp only | fail_if_no_progress with_reducible refine State.keeps_lit ?_ rfl rfl rfl rfl rfl)

theorem State.stopTrains_moves {s t : State} (h : s.Moves t)  : s.Moves (State.stopTrains t) :=
  h.keeps (State.stopTrains_keeps (State.keeps_refl _))

theorem State.clearRequests_keeps {s t : State} (h : s.Keeps t)  : s.Keeps (State.clearRequests t) := by
  unfold State.clearRequests; try dsimp only
  repeat' (first | with_reducible assumption | intro _ | with_reducible apply State.keeps_ite | with_reducible apply State.keeps_ite₁ | with_reducible apply State.keeps_ite₂ | with_reducible apply State.each_keeps' | with_reducible apply State.setF_keeps | with_reducible apply State.updCl_keeps | split | dsimp only | fail_if_no_progress with_reducible refine State.keeps_lit ?_ rfl rfl rfl rfl rfl)

theorem State.clearRequests_moves {s t : State} (h : s.Moves t)  : s.Moves (State.clearRequests t) :=
  h.keeps (State.clearRequests_keeps (State.keeps_refl _))

theorem State.Moves.enter {s t : State} (h : s.Moves t) (d : DevState) (hd : t.dev = .safe → d = .safe) : s.Moves (t.enter d) := by
  have h1 : s.Moves (t.histAdd (histCode 1 (t.dev.code + 16 * d.code))) := h.keeps (State.histAdd_keeps (State.keeps_refl _) _)
  have h2 : s.Moves { t.histAdd (histCode 1 (t.dev.code + 16 * d.code)) with dev := d } :=
    ⟨h1.pending, h1.flash, h1.en, h1.serial, h1.svcKey, h1.role, h1.blevel, h1.wf, fun x => hd (h.safe x)⟩
  refine h2.keeps ?_
  unfold State.enter
  dsimp only
  refine State.when_keeps (State.when_keeps (State.when_keeps (State.setB_keeps (State.keeps_refl _) _ _ _) _ ?_) _ ?_) _ ?_ <;> intro u h
  · exact State.stopTrains_keeps (State.setB_keeps h _ _ _)
  · exact State.clearRequests_keeps h
  · refine State.setF_keeps ?_ _ _ _
    with_reducible apply State.keeps_lit h <;> rfl

theorem State.resBusy_keeps {s t : State} (h : s.Keeps t) (cls : Nat) (idx : Nat) : s.Keeps (State.resBusy t cls idx) := by
  unfold State.resBusy; try dsimp only
  repeat' (first | with_reducible assumption | intro _ | with_reducible apply State.keeps_ite | with_reducible apply State.keeps_ite₁ | with_reducible apply State.keeps_ite₂ | with_reducible apply State.setF_keeps | with_reducible apply State.setB_keeps | split | dsimp only | fail_if_no_progress with_reducible refine State.keeps_lit ?_ rfl rfl rfl rfl rfl)

theorem State.latch_keeps {s t : State} (h : s.Keeps t) (fl : Fld) (page : Nat) (bits : Nat) : s.Keeps (State.latch t fl page bits) := by
  unfold State.latch; try dsimp only
  repeat' (first | with_reducible assumption | intro _ | with_reducible apply State.keeps_ite | with_reducible apply State.keeps_ite₁ | with_reducible apply State.keeps_ite₂ | with_reducible apply State.setF_keeps | split | dsimp only | fail_if_no_progress with_reducible refine State.keeps_lit ?_ rfl rfl rfl rfl rfl)

theorem State.latchStatus_keeps {s t : State} (h : s.Keeps t) (src : Nat) : s.Keeps (State.latchStatus t src) := by
  unfold State.latchStatus; try dsimp only
  repeat' (first | with_reducible assumption | intro _ | with_reducible apply State.keeps_ite | with_reducible apply State.keeps_ite₁ | with_reducible apply State.keeps_ite₂ | with_reducible apply State.latch_keeps | with_reducible apply State.each_keeps' | with_reducible apply State.when_keeps | split | dsimp only | fail_if_no_progress with_reducible refine State.keeps_lit ?_ rfl rfl rfl rfl rfl)

theorem State.raise_keeps {s t : State} (h : s.Keeps t) (src : Nat) : s.Keeps (State.raise t src) := by
  unfold State.raise; try dsimp only
  repeat' (first | with_reducible assumption | intro _ | with_reducible apply State.keeps_ite | with_reducible apply State.keeps_ite₁ | with_reducible apply State.keeps_ite₂ | with_reducible apply State.latchStatus_keeps | with_reducible apply State.setSrcBit_keeps | split | dsimp only | fail_if_no_progress with_reducible refine State.keeps_lit ?_ rfl rfl rfl rfl rfl)

theorem State.raise_moves {s t : State} (h : s.Moves t) (src : Nat) : s.Moves (State.raise t src) :=
  h.keeps (State.raise_keeps (State.keeps_refl _) _)

theorem State.updFd_keeps {s t : State} (h : s.Keeps t) (n : Fin 4) (g : FeedSt → FeedSt) : s.Keeps (State.updFd t n g) := by
  unfold State.updFd; try dsimp only
  repeat' (first | with_reducible assumption | intro _ | with_reducible apply State.keeps_ite | with_reducible apply State.keeps_ite₁ | with_reducible apply State.keeps_ite₂ | split | dsimp only | fail_if_no_progress with_reducible refine State.keeps_lit ?_ rfl rfl rfl rfl rfl)

theorem State.updFd_moves {s t : State} (h : s.Moves t) (n : Fin 4) (g : FeedSt → FeedSt) : s.Moves (State.updFd t n g) :=
  h.keeps (State.updFd_keeps (State.keeps_refl _) _ _)

theorem State.follow_keeps {s t : State} (h : s.Keeps t) (src : Nat) (b : Bool) : s.Keeps (State.follow t src b) := by
  unfold State.follow; try dsimp only
  repeat' (first | with_reducible assumption | intro _ | with_reducible apply State.keeps_ite | with_reducible apply State.keeps_ite₁ | with_reducible apply State.keeps_ite₂ | with_reducible apply State.raise_keeps | with_reducible apply State.lower_keeps | split | dsimp only | fail_if_no_progress with_reducible refine State.keeps_lit ?_ rfl rfl rfl rfl rfl)

theorem State.claim_keeps {s t : State} (h : s.Keeps t) (cls : Nat) (idx : Nat) (owner : Nat) : s.Keeps (State.claim t cls idx owner) := by
  unfold State.claim; try dsimp only
  repeat' (first | with_reducible assumption | intro _ | with_reducible apply State.keeps_ite | with_reducible apply State.keeps_ite₁ | with_reducible apply State.keeps_ite₂ | split | dsimp only | fail_if_no_progress with_reducible refine State.keeps_lit ?_ rfl rfl rfl rfl rfl)

theorem State.updPh_keeps {s t : State} (h : s.Keeps t) (n : Fin 48) (g : PhaseSt → PhaseSt) : s.Keeps (State.updPh t n g) := by
  unfold State.updPh; try dsimp only
  repeat' (first | with_reducible assumption | intro _ | with_reducible apply State.keeps_ite | with_reducible apply State.keeps_ite₁ | with_reducible apply State.keeps_ite₂ | split | dsimp only | fail_if_no_progress with_reducible refine State.keeps_lit ?_ rfl rfl rfl rfl rfl)

theorem State.updPh_moves {s t : State} (h : s.Moves t) (n : Fin 48) (g : PhaseSt → PhaseSt) : s.Moves (State.updPh t n g) :=
  h.keeps (State.updPh_keeps (State.keeps_refl _) _ _)

theorem State.updThr_keeps {s t : State} (h : s.Keeps t) (n : Fin 4) (g : ThrSt → ThrSt) : s.Keeps (State.updThr t n g) := by
  unfold State.updThr; try dsimp only
  repeat' (first | with_reducible assumption | intro _ | with_reducible apply State.keeps_ite | with_reducible apply State.keeps_ite₁ | with_reducible apply State.keeps_ite₂ | split | dsimp only | fail_if_no_progress with_reducible refine State.keeps_lit ?_ rfl rfl rfl rfl rfl)

theorem State.updBat_keeps {s t : State} (h : s.Keeps t) (n : Fin 6) (g : BatSt → BatSt) : s.Keeps (State.updBat t n g) := by
  unfold State.updBat; try dsimp only
  repeat' (first | with_reducible assumption | intro _ | with_reducible apply State.keeps_ite | with_reducible apply State.keeps_ite₁ | with_reducible apply State.keeps_ite₂ | split | dsimp only | fail_if_no_progress with_reducible refine State.keeps_lit ?_ rfl rfl rfl rfl rfl)

theorem State.updCh_keeps {s t : State} (h : s.Keeps t) (n : Fin 64) (g : ChSt → ChSt) : s.Keeps (State.updCh t n g) := by
  unfold State.updCh; try dsimp only
  repeat' (first | with_reducible assumption | intro _ | with_reducible apply State.keeps_ite | with_reducible apply State.keeps_ite₁ | with_reducible apply State.keeps_ite₂ | split | dsimp only | fail_if_no_progress with_reducible refine State.keeps_lit ?_ rfl rfl rfl rfl rfl)

theorem State.evalAlert_keeps {s t : State} (h : s.Keeps t)  : s.Keeps (State.evalAlert t) := by
  unfold State.evalAlert; try dsimp only
  repeat' (first | with_reducible assumption | intro _ | with_reducible apply State.keeps_ite | with_reducible apply State.keeps_ite₁ | with_reducible apply State.keeps_ite₂ | with_reducible apply State.setB_keeps | split | dsimp only | fail_if_no_progress with_reducible refine State.keeps_lit ?_ rfl rfl rfl rfl rfl)

theorem State.evalAlert_moves {s t : State} (h : s.Moves t)  : s.Moves (State.evalAlert t) :=
  h.keeps (State.evalAlert_keeps (State.keeps_refl _))

theorem State.updLane_keeps {s t : State} (h : s.Keeps t) (n : Fin 4) (g : LaneSt → LaneSt) : s.Keeps (State.updLane t n g) := by
  unfold State.updLane; try dsimp only
  repeat' (first | with_reducible assumption | intro _ | with_reducible apply State.keeps_ite | with_reducible apply State.keeps_ite₁ | with_reducible apply State.keeps_ite₂ | split | dsimp only | fail_if_no_progress with_reducible refine State.keeps_lit ?_ rfl rfl rfl rfl rfl)

theorem State.setRegs_keeps {s t : State} (h : s.Keeps t) (l : List (Nat × Word)) : s.Keeps (t.setRegs l) :=
  State.fold_keeps h l fun x h => State.setReg_keeps h x.1 x.2

theorem State.draw_keeps {s t : State} (h : s.Keeps t) : s.Keeps t.draw.2 := State.keeps_lit h rfl rfl rfl rfl rfl

theorem State.updTm_keeps {s t : State} (h : s.Keeps t) (n : Fin 32) (g : TimerSt → TimerSt) : s.Keeps (State.updTm t n g) := by
  unfold State.updTm; try dsimp only
  repeat' (first | with_reducible assumption | intro _ | with_reducible apply State.keeps_ite | with_reducible apply State.keeps_ite₁ | with_reducible apply State.keeps_ite₂ | split | dsimp only | fail_if_no_progress with_reducible refine State.keeps_lit ?_ rfl rfl rfl rfl rfl)

theorem State.updCap_keeps {s t : State} (h : s.Keeps t) (n : Fin 5) (g : CapCtl → CapCtl) : s.Keeps (State.updCap t n g) := by
  unfold State.updCap; try dsimp only
  repeat' (first | with_reducible assumption | intro _ | with_reducible apply State.keeps_ite | with_reducible apply State.keeps_ite₁ | with_reducible apply State.keeps_ite₂ | split | dsimp only | fail_if_no_progress with_reducible refine State.keeps_lit ?_ rfl rfl rfl rfl rfl)

theorem State.saveState_keeps {s t : State} (h : s.Keeps t)  : s.Keeps (State.saveState t) := by
  unfold State.saveState; try dsimp only
  repeat' (first | with_reducible assumption | intro _ | with_reducible apply State.keeps_ite | with_reducible apply State.keeps_ite₁ | with_reducible apply State.keeps_ite₂ | split | dsimp only | fail_if_no_progress with_reducible refine State.keeps_lit ?_ rfl rfl rfl rfl rfl)

theorem State.saveState_moves {s t : State} (h : s.Moves t)  : s.Moves (State.saveState t) :=
  h.keeps (State.saveState_keeps (State.keeps_refl _))

theorem State.accepted_keeps {s t : State} (h : s.Keeps t) (addr : Nat) (code : Nat) : s.Keeps (State.accepted t addr code) := by
  unfold State.accepted; try dsimp only
  repeat' (first | with_reducible assumption | intro _ | with_reducible apply State.keeps_ite | with_reducible apply State.keeps_ite₁ | with_reducible apply State.keeps_ite₂ | with_reducible apply State.histAdd_keeps | split | dsimp only | fail_if_no_progress with_reducible refine State.keeps_lit ?_ rfl rfl rfl rfl rfl)

theorem State.accepted_moves {s t : State} (h : s.Moves t) (addr : Nat) (code : Nat) : s.Moves (State.accepted t addr code) :=
  h.keeps (State.accepted_keeps (State.keeps_refl _) _ _)

theorem State.updBus_keeps {s t : State} (h : s.Keeps t) (n : Fin 2) (g : BusSt → BusSt) : s.Keeps (State.updBus t n g) := by
  unfold State.updBus; try dsimp only
  repeat' (first | with_reducible assumption | intro _ | with_reducible apply State.keeps_ite | with_reducible apply State.keeps_ite₁ | with_reducible apply State.keeps_ite₂ | split | dsimp only | fail_if_no_progress with_reducible refine State.keeps_lit ?_ rfl rfl rfl rfl rfl)

theorem State.unclaim_keeps {s t : State} (h : s.Keeps t) (cls : Nat) (idx : Nat) (owner : Nat) : s.Keeps (State.unclaim t cls idx owner) := by
  unfold State.unclaim; try dsimp only
  repeat' (first | with_reducible assumption | intro _ | with_reducible apply State.keeps_ite | with_reducible apply State.keeps_ite₁ | with_reducible apply State.keeps_ite₂ | split | dsimp only | fail_if_no_progress with_reducible refine State.keeps_lit ?_ rfl rfl rfl rfl rfl)

end Sys2Proof.Machine
end

