-- ==== Sys2Proof/Laws/KeepsClusterOps.lean ====
section
/-! SUPPORT. What the operations of Machine/ClusterOps.lean leave alone. -/

set_option linter.unusedTactic false
set_option linter.unreachableTactic false

namespace Sys2Proof.Machine

theorem State.setTrim_keeps {s t : State} (h : s.Keeps t) (n : Fin 16) (k : Nat) (v : Int) : s.Keeps (State.setTrim t n k v) := by
  unfold State.setTrim; try dsimp only
  repeat' (first | with_reducible assumption | intro _ | with_reducible apply State.keeps_ite | with_reducible apply State.keeps_ite₁ | with_reducible apply State.keeps_ite₂ | with_reducible apply State.setReg_keeps | split | dsimp only | fail_if_no_progress with_reducible refine State.keeps_lit ?_ rfl rfl rfl rfl rfl)

theorem State.injAbort_keeps {s t : State} (h : s.Keeps t) (n : Fin 16) : s.Keeps (State.injAbort t n) := by
  unfold State.injAbort; try dsimp only
  repeat' (first | with_reducible assumption | intro _ | with_reducible apply State.keeps_ite | with_reducible apply State.keeps_ite₁ | with_reducible apply State.keeps_ite₂ | with_reducible apply State.unclaim_keeps | with_reducible apply State.setB_keeps | with_reducible apply State.updCl_keeps | split | dsimp only | fail_if_no_progress with_reducible refine State.keeps_lit ?_ rfl rfl rfl rfl rfl)

theorem State.injAbort_moves {s t : State} (h : s.Moves t) (n : Fin 16) : s.Moves (State.injAbort t n) :=
  h.keeps (State.injAbort_keeps (State.keeps_refl _) _)

theorem State.endBlank_keeps {s t : State} (h : s.Keeps t) (n : Fin 16) : s.Keeps (State.endBlank t n) := by
  unfold State.endBlank; try dsimp only
  repeat' (first | with_reducible assumption | intro _ | with_reducible apply State.keeps_ite | with_reducible apply State.keeps_ite₁ | with_reducible apply State.keeps_ite₂ | with_reducible apply State.when_keeps | with_reducible apply State.setB_keeps | with_reducible apply State.updCl_keeps | split | dsimp only | fail_if_no_progress with_reducible refine State.keeps_lit ?_ rfl rfl rfl rfl rfl)

theorem State.evalPwrgd_keeps {s t : State} (h : s.Keeps t)  : s.Keeps (State.evalPwrgd t) := by
  unfold State.evalPwrgd; try dsimp only
  repeat' (first | with_reducible assumption | intro _ | with_reducible apply State.keeps_ite | with_reducible apply State.keeps_ite₁ | with_reducible apply State.keeps_ite₂ | split | dsimp only | fail_if_no_progress with_reducible refine State.keeps_lit ?_ rfl rfl rfl rfl rfl)

theorem State.evalPwrgd_moves {s t : State} (h : s.Moves t)  : s.Moves (State.evalPwrgd t) :=
  h.keeps (State.evalPwrgd_keeps (State.keeps_refl _))

theorem State.clOff_keeps {s t : State} (h : s.Keeps t) (n : Fin 16) : s.Keeps (State.clOff t n) := by
  unfold State.clOff; try dsimp only
  repeat' (first | with_reducible assumption | intro _ | with_reducible apply State.keeps_ite | with_reducible apply State.keeps_ite₁ | with_reducible apply State.keeps_ite₂ | with_reducible apply State.updCl_keeps | with_reducible apply State.injAbort_keeps | with_reducible apply State.when_keeps | with_reducible apply State.draw_keeps | with_reducible apply State.setF_keeps | with_reducible apply State.each_keeps' | with_reducible apply State.updPh_keeps | with_reducible apply State.setB_keeps | with_reducible apply State.lower_keeps | with_reducible apply State.endBlank_keeps | with_reducible apply State.evalPwrgd_keeps | split | dsimp only | fail_if_no_progress with_reducible refine State.keeps_lit ?_ rfl rfl rfl rfl rfl)

theorem State.clOff_moves {s t : State} (h : s.Moves t) (n : Fin 16) : s.Moves (State.clOff t n) :=
  h.keeps (State.clOff_keeps (State.keeps_refl _) _)

theorem State.setPhShed_keeps {s t : State} (h : s.Keeps t) (p : Fin 48) (b : Bool) : s.Keeps (State.setPhShed t p b) := by
  unfold State.setPhShed; try dsimp only
  repeat' (first | with_reducible assumption | intro _ | with_reducible apply State.keeps_ite | with_reducible apply State.keeps_ite₁ | with_reducible apply State.keeps_ite₂ | with_reducible apply State.setReg_keeps | split | dsimp only | fail_if_no_progress with_reducible refine State.keeps_lit ?_ rfl rfl rfl rfl rfl)

theorem State.setWin_keeps {s t : State} (h : s.Keeps t) (n : Fin 16) (inwin : Bool) (below : Bool) : s.Keeps (State.setWin t n inwin below) := by
  unfold State.setWin; try dsimp only
  repeat' (first | with_reducible assumption | intro _ | with_reducible apply State.keeps_ite | with_reducible apply State.keeps_ite₁ | with_reducible apply State.keeps_ite₂ | with_reducible apply State.setB_keeps | with_reducible apply State.when_keeps | with_reducible apply State.lower_keeps | with_reducible apply State.evalPwrgd_keeps | split | dsimp only | fail_if_no_progress with_reducible refine State.keeps_lit ?_ rfl rfl rfl rfl rfl)

theorem State.clCloff_keeps {s t : State} (h : s.Keeps t) (n : Fin 16) : s.Keeps (State.clCloff t n) := by
  unfold State.clCloff; try dsimp only
  repeat' (first | with_reducible assumption | intro _ | with_reducible apply State.keeps_ite | with_reducible apply State.keeps_ite₁ | with_reducible apply State.keeps_ite₂ | with_reducible apply State.each_keeps' | with_reducible apply State.setFBit_keeps | with_reducible apply State.clOff_keeps | split | dsimp only | fail_if_no_progress with_reducible refine State.keeps_lit ?_ rfl rfl rfl rfl rfl)

theorem State.fixPtr_keeps {s t : State} (h : s.Keeps t) (n : Fin 16) : s.Keeps (State.fixPtr t n) := by
  unfold State.fixPtr; try dsimp only
  repeat' (first | with_reducible assumption | intro _ | with_reducible apply State.keeps_ite | with_reducible apply State.keeps_ite₁ | with_reducible apply State.keeps_ite₂ | with_reducible apply State.setF_keeps | split | dsimp only | fail_if_no_progress with_reducible refine State.keeps_lit ?_ rfl rfl rfl rfl rfl)

theorem State.setActiveList_keeps {s t : State} (h : s.Keeps t) (n : Fin 16) (new : List Nat) : s.Keeps (State.setActiveList t n new) := by
  unfold State.setActiveList; try dsimp only
  repeat' (first | with_reducible assumption | intro _ | with_reducible apply State.keeps_ite | with_reducible apply State.keeps_ite₁ | with_reducible apply State.keeps_ite₂ | with_reducible apply State.setF_keeps | with_reducible apply State.updCl_keeps | with_reducible apply State.each_keeps' | with_reducible apply State.setTrim_keeps | with_reducible apply State.updPh_keeps | with_reducible apply State.setB_keeps | with_reducible apply State.fixPtr_keeps | split | dsimp only | fail_if_no_progress with_reducible refine State.keeps_lit ?_ rfl rfl rfl rfl rfl)

theorem State.setActive_keeps {s t : State} (h : s.Keeps t) (n : Fin 16) (m : Nat) : s.Keeps (State.setActive t n m) := by
  unfold State.setActive; try dsimp only
  repeat' (first | with_reducible assumption | intro _ | with_reducible apply State.keeps_ite | with_reducible apply State.keeps_ite₁ | with_reducible apply State.keeps_ite₂ | with_reducible apply State.setActiveList_keeps | split | dsimp only | fail_if_no_progress with_reducible refine State.keeps_lit ?_ rfl rfl rfl rfl rfl)

theorem State.evalPhloss_keeps {s t : State} (h : s.Keeps t) (n : Fin 16) : s.Keeps (State.evalPhloss t n) := by
  unfold State.evalPhloss; try dsimp only
  repeat' (first | with_reducible assumption | intro _ | with_reducible apply State.keeps_ite | with_reducible apply State.keeps_ite₁ | with_reducible apply State.keeps_ite₂ | with_reducible apply State.follow_keeps | with_reducible apply State.when_keeps | with_reducible apply State.setB_keeps | split | dsimp only | fail_if_no_progress with_reducible refine State.keeps_lit ?_ rfl rfl rfl rfl rfl)

theorem State.evalOlim_keeps {s t : State} (h : s.Keeps t) (n : Fin 16) : s.Keeps (State.evalOlim t n) := by
  unfold State.evalOlim; try dsimp only
  repeat' (first | with_reducible assumption | intro _ | with_reducible apply State.keeps_ite | with_reducible apply State.keeps_ite₁ | with_reducible apply State.keeps_ite₂ | with_reducible apply State.setF_keeps | split | dsimp only | fail_if_no_progress with_reducible refine State.keeps_lit ?_ rfl rfl rfl rfl rfl)

theorem State.evalOlim_moves {s t : State} (h : s.Moves t) (n : Fin 16) : s.Moves (State.evalOlim t n) :=
  h.keeps (State.evalOlim_keeps (State.keeps_refl _) _)

theorem State.leaveActive_keeps {s t : State} (h : s.Keeps t) (n : Fin 16) (k : Nat) : s.Keeps (State.leaveActive t n k) := by
  unfold State.leaveActive; try dsimp only
  repeat' (first | with_reducible assumption | intro _ | with_reducible apply State.keeps_ite | with_reducible apply State.keeps_ite₁ | with_reducible apply State.keeps_ite₂ | with_reducible apply State.updCl_keeps | with_reducible apply State.setActiveList_keeps | split | dsimp only | fail_if_no_progress with_reducible refine State.keeps_lit ?_ rfl rfl rfl rfl rfl)

theorem State.removePhase_keeps {s t : State} (h : s.Keeps t) (n : Fin 16) (p : Fin 48) (cause : Nat) (src : Nat) : s.Keeps (State.removePhase t n p cause src) := by
  unfold State.removePhase; try dsimp only
  repeat' (first | with_reducible assumption | intro _ | with_reducible apply State.keeps_ite | with_reducible apply State.keeps_ite₁ | with_reducible apply State.keeps_ite₂ | with_reducible apply State.updPh_keeps | with_reducible apply State.setB_keeps | with_reducible apply State.setF_keeps | with_reducible apply State.setFBit_keeps | with_reducible apply State.evalOlim_keeps | with_reducible apply State.leaveActive_keeps | with_reducible apply State.setTrim_keeps | with_reducible apply State.raise_keeps | with_reducible apply State.recordSrc_keeps | with_reducible apply State.evalPhloss_keeps | with_reducible apply State.clCloff_keeps | split | dsimp only | fail_if_no_progress with_reducible refine State.keeps_lit ?_ rfl rfl rfl rfl rfl)

theorem State.clStart_keeps {s t : State} (h : s.Keeps t) (n : Fin 16) : s.Keeps (State.clStart t n) := by
  unfold State.clStart; try dsimp only
  repeat' (first | with_reducible assumption | intro _ | with_reducible apply State.keeps_ite | with_reducible apply State.keeps_ite₁ | with_reducible apply State.keeps_ite₂ | with_reducible apply State.each_keeps' | with_reducible apply State.when_keeps | with_reducible apply State.updPh_keeps | with_reducible apply State.setFBit_keeps | with_reducible apply State.setB_keeps | with_reducible apply State.setPhShed_keeps | with_reducible apply State.removePhase_keeps | with_reducible apply State.evalPhloss_keeps | with_reducible apply State.evalOlim_keeps | with_reducible apply State.setF_keeps | with_reducible apply State.updCl_keeps | split | dsimp only | fail_if_no_progress with_reducible refine State.keeps_lit ?_ rfl rfl rfl rfl rfl)

theorem State.shedPhase_keeps {s t : State} (h : s.Keeps t) (p : Fin 48) : s.Keeps (State.shedPhase t p) := by
  unfold State.shedPhase; try dsimp only
  repeat' (first | with_reducible assumption | intro _ | with_reducible apply State.keeps_ite | with_reducible apply State.keeps_ite₁ | with_reducible apply State.keeps_ite₂ | with_reducible apply State.setB_keeps | with_reducible apply State.setPhShed_keeps | with_reducible apply State.updPh_keeps | with_reducible apply State.evalOlim_keeps | with_reducible apply State.leaveActive_keeps | with_reducible apply State.setTrim_keeps | with_reducible apply State.evalPhloss_keeps | with_reducible apply State.clCloff_keeps | split | dsimp only | fail_if_no_progress with_reducible refine State.keeps_lit ?_ rfl rfl rfl rfl rfl)

theorem State.clTurnOff_keeps {s t : State} (h : s.Keeps t) (n : Fin 16) : s.Keeps (State.clTurnOff t n) := by
  unfold State.clTurnOff; try dsimp only
  repeat' (first | with_reducible assumption | intro _ | with_reducible apply State.keeps_ite | with_reducible apply State.keeps_ite₁ | with_reducible apply State.keeps_ite₂ | with_reducible apply State.updCl_keeps | with_reducible apply State.clOff_keeps | split | dsimp only | fail_if_no_progress with_reducible refine State.keeps_lit ?_ rfl rfl rfl rfl rfl)

theorem State.clTurnOff_moves {s t : State} (h : s.Moves t) (n : Fin 16) : s.Moves (State.clTurnOff t n) :=
  h.keeps (State.clTurnOff_keeps (State.keeps_refl _) _)

end Sys2Proof.Machine
end

