-- ==== Sys2Proof/Laws/KeepsRefuse.lean ====
section
/-! SUPPORT. What the operations of Machine/Refuse.lean leave alone. -/

set_option linter.unusedTactic false
set_option linter.unreachableTactic false

namespace Sys2Proof.Machine

theorem State.refuse_keeps {s t : State} (h : s.Keeps t) (p : Port) (code : Nat) (addr : Nat) : s.Keeps (State.refuse t p code addr) := by
  unfold State.refuse; try dsimp only
  repeat' (first | with_reducible assumption | intro _ | with_reducible apply State.keeps_ite | with_reducible apply State.keeps_ite₁ | with_reducible apply State.keeps_ite₂ | with_reducible apply State.setF_keeps | with_reducible apply State.when_keeps | split | dsimp only | fail_if_no_progress with_reducible refine State.keeps_lit ?_ rfl rfl rfl rfl rfl)

theorem State.hostStore_keeps {s t : State} (h : s.Keeps t) (a : Nat) (v : Word) : s.Keeps (State.hostStore t a v) := by
  unfold State.hostStore; try dsimp only
  repeat' (first | with_reducible assumption | intro _ | with_reducible apply State.keeps_ite | with_reducible apply State.keeps_ite₁ | with_reducible apply State.keeps_ite₂ | with_reducible apply State.setReg_keeps | split | dsimp only | fail_if_no_progress with_reducible refine State.keeps_lit ?_ rfl rfl rfl rfl rfl)

theorem State.hostStore_moves {s t : State} (h : s.Moves t) (a : Nat) (v : Word) : s.Moves (State.hostStore t a v) :=
  h.keeps (State.hostStore_keeps (State.keeps_refl _) _ _)

end Sys2Proof.Machine
end

