-- ==== Sys2Proof/Laws/KeepsBusOps.lean ====
section
/-! SUPPORT. What the operations of Machine/BusOps.lean leave alone. -/

set_option linter.unusedTactic false
set_option linter.unreachableTactic false

namespace Sys2Proof.Machine

theorem State.queueWrites_keeps {s t : State} (h : s.Keeps t) (kind : Nat) (inst : Option Nat) : s.Keeps (State.queueWrites t kind inst) := by
  unfold State.queueWrites; try dsimp only
  repeat' (first | with_reducible assumption | intro _ | with_reducible apply State.keeps_ite | with_reducible apply State.keeps_ite₁ | with_reducible apply State.keeps_ite₂ | with_reducible apply State.each_keeps' | with_reducible apply State.updBus_keeps | split | dsimp only | fail_if_no_progress with_reducible refine State.keeps_lit ?_ rfl rfl rfl rfl rfl)

theorem State.queueWrites_moves {s t : State} (h : s.Moves t) (kind : Nat) (inst : Option Nat) : s.Moves (State.queueWrites t kind inst) :=
  h.keeps (State.queueWrites_keeps (State.keeps_refl _) _ _)

end Sys2Proof.Machine
end

