-- ==== Sys2Proof/Laws/KeepsTimers.lean ====
section
/-! SUPPORT. What the operations of Machine/Timers.lean leave alone. -/

set_option linter.unusedTactic false
set_option linter.unreachableTactic false

namespace Sys2Proof.Machine

theorem State.tmReset_keeps {s t : State} (h : s.Keeps t) (n : Fin 32) : s.Keeps (State.tmReset t n) := by
  unfold State.tmReset; try dsimp only
  repeat' (first | with_reducible assumption | intro _ | with_reducible apply State.keeps_ite | with_reducible apply State.keeps_ite₁ | with_reducible apply State.keeps_ite₂ | with_reducible apply State.setRegs_keeps | split | dsimp only | fail_if_no_progress with_reducible refine State.keeps_lit ?_ rfl rfl rfl rfl rfl)

theorem State.tmClaim_keeps {s t : State} (h : s.Keeps t) (n : Fin 32) : s.Keeps (State.tmClaim t n).1 := by
  unfold State.tmClaim; try dsimp only
  repeat' (first | with_reducible assumption | intro _ | with_reducible apply State.keeps_ite | with_reducible apply State.keeps_ite₁ | with_reducible apply State.keeps_ite₂ | with_reducible apply State.resBusy_keeps | with_reducible apply State.claim_keeps | with_reducible apply State.when_keeps | split | dsimp only | fail_if_no_progress with_reducible refine State.keeps_lit ?_ rfl rfl rfl rfl rfl)

theorem State.tmArm_keeps {s t : State} (h : s.Keeps t) (n : Fin 32) (c : Cmp) : s.Keeps (State.tmArm t n c) := by
  unfold State.tmArm; try dsimp only
  repeat' (first | with_reducible assumption | intro _ | with_reducible apply State.keeps_ite | with_reducible apply State.keeps_ite₁ | with_reducible apply State.keeps_ite₂ | with_reducible apply State.when_keeps | with_reducible apply State.setFBit_keeps | with_reducible apply State.updTm_keeps | split | dsimp only | fail_if_no_progress with_reducible refine State.keeps_lit ?_ rfl rfl rfl rfl rfl)

theorem timerCompareWrite_keeps {s t : State} (h : s.Keeps t) (n : Fin 32) (c : Cmp) (v : Word) : s.Keeps (timerCompareWrite n c v t).1 := by
  unfold timerCompareWrite; try dsimp only
  repeat' (first | with_reducible assumption | intro _ | with_reducible apply State.keeps_ite | with_reducible apply State.keeps_ite₁ | with_reducible apply State.keeps_ite₂ | with_reducible apply State.tmClaim_keeps | with_reducible apply State.updTm_keeps | with_reducible apply State.setReg_keeps | with_reducible apply State.tmArm_keeps | split | dsimp only | fail_if_no_progress with_reducible refine State.keeps_lit ?_ rfl rfl rfl rfl rfl)

theorem timerRelease_keeps {s t : State} (h : s.Keeps t) (n : Fin 32) : s.Keeps (timerRelease n t).1 := by
  unfold timerRelease; try dsimp only
  repeat' (first | with_reducible assumption | intro _ | with_reducible apply State.keeps_ite | with_reducible apply State.keeps_ite₁ | with_reducible apply State.keeps_ite₂ | with_reducible apply State.resBusy_keeps | with_reducible apply State.unclaim_keeps | with_reducible apply State.tmReset_keeps | split | dsimp only | fail_if_no_progress with_reducible refine State.keeps_lit ?_ rfl rfl rfl rfl rfl)

theorem timerCtrlWrite_keeps {s t : State} (h : s.Keeps t) (n : Fin 32) (v : Word) : s.Keeps (timerCtrlWrite n v t).1 := by
  unfold timerCtrlWrite; try dsimp only
  repeat' (first | with_reducible assumption | intro _ | with_reducible apply State.keeps_ite | with_reducible apply State.keeps_ite₁ | with_reducible apply State.keeps_ite₂ | with_reducible apply timerRelease_keeps | with_reducible apply State.resBusy_keeps | with_reducible apply State.tmClaim_keeps | with_reducible apply State.when_keeps | with_reducible apply State.claim_keeps | with_reducible apply State.setReg_keeps | split | dsimp only | fail_if_no_progress with_reducible refine State.keeps_lit ?_ rfl rfl rfl rfl rfl)

theorem State.tmTick_keeps {s t : State} (h : s.Keeps t) (n : Fin 32) : s.Keeps (State.tmTick t n).1 := by
  unfold State.tmTick; try dsimp only
  repeat' (first | with_reducible assumption | intro _ | with_reducible apply State.keeps_ite | with_reducible apply State.keeps_ite₁ | with_reducible apply State.keeps_ite₂ | with_reducible apply State.updTm_keeps | with_reducible apply State.setReg_keeps | with_reducible apply State.when_keeps | split | dsimp only | fail_if_no_progress with_reducible refine State.keeps_lit ?_ rfl rfl rfl rfl rfl)

theorem timerGlobal_keeps {s t : State} (h : s.Keeps t) (mask : Word) (g : State → Fin 32 → State) (hg : ∀ {y0 : State} (y1 : Fin 32), s.Keeps y0 → s.Keeps (g y0 y1)) : s.Keeps (timerGlobal mask g t).1 := by
  unfold timerGlobal; try dsimp only
  repeat' (first | with_reducible assumption | intro _ | with_reducible apply hg | with_reducible apply State.keeps_ite | with_reducible apply State.keeps_ite₁ | with_reducible apply State.keeps_ite₂ | with_reducible apply State.resBusy_keeps | with_reducible apply State.each_keeps' | split | dsimp only | fail_if_no_progress with_reducible refine State.keeps_lit ?_ rfl rfl rfl rfl rfl)

theorem timerGstop_keeps {s t : State} (h : s.Keeps t) (mask : Word) : s.Keeps (timerGstop mask t).1 := by
  unfold timerGstop; try dsimp only
  repeat' (first | with_reducible assumption | intro _ | with_reducible apply State.keeps_ite | with_reducible apply State.keeps_ite₁ | with_reducible apply State.keeps_ite₂ | with_reducible apply timerGlobal_keeps | with_reducible apply State.setB_keeps | split | dsimp only | fail_if_no_progress with_reducible refine State.keeps_lit ?_ rfl rfl rfl rfl rfl)

theorem State.tmClear_keeps {s t : State} (h : s.Keeps t) (n : Fin 32) : s.Keeps (State.tmClear t n) := by
  unfold State.tmClear; try dsimp only
  repeat' (first | with_reducible assumption | intro _ | with_reducible apply State.keeps_ite | with_reducible apply State.keeps_ite₁ | with_reducible apply State.keeps_ite₂ | with_reducible apply State.updTm_keeps | with_reducible apply State.when_keeps | split | dsimp only | fail_if_no_progress with_reducible refine State.keeps_lit ?_ rfl rfl rfl rfl rfl)

theorem timerGclr_keeps {s t : State} (h : s.Keeps t) (mask : Word) : s.Keeps (timerGclr mask t).1 := by
  unfold timerGclr; try dsimp only
  repeat' (first | with_reducible assumption | intro _ | with_reducible apply State.keeps_ite | with_reducible apply State.keeps_ite₁ | with_reducible apply State.keeps_ite₂ | with_reducible apply timerGlobal_keeps | with_reducible apply State.tmClear_keeps | split | dsimp only | fail_if_no_progress with_reducible refine State.keeps_lit ?_ rfl rfl rfl rfl rfl)

theorem timerActWrite_keeps {s t : State} (h : s.Keeps t) (n : Fin 32) (v : Word) : s.Keeps (timerActWrite n v t).1 := by
  unfold timerActWrite; try dsimp only
  repeat' (first | with_reducible assumption | intro _ | with_reducible apply State.keeps_ite | with_reducible apply State.keeps_ite₁ | with_reducible apply State.keeps_ite₂ | with_reducible apply State.tmClaim_keeps | with_reducible apply State.resBusy_keeps | with_reducible apply State.setReg_keeps | split | dsimp only | fail_if_no_progress with_reducible refine State.keeps_lit ?_ rfl rfl rfl rfl rfl)

theorem timerCntWrite_keeps {s t : State} (h : s.Keeps t) (n : Fin 32) (v : Word) : s.Keeps (timerCntWrite n v t).1 := by
  unfold timerCntWrite; try dsimp only
  repeat' (first | with_reducible assumption | intro _ | with_reducible apply State.keeps_ite | with_reducible apply State.keeps_ite₁ | with_reducible apply State.keeps_ite₂ | with_reducible apply State.tmClaim_keeps | with_reducible apply State.updTm_keeps | split | dsimp only | fail_if_no_progress with_reducible refine State.keeps_lit ?_ rfl rfl rfl rfl rfl)

theorem timerGstart_keeps {s t : State} (h : s.Keeps t) (mask : Word) : s.Keeps (timerGstart mask t).1 := by
  unfold timerGstart; try dsimp only
  repeat' (first | with_reducible assumption | intro _ | with_reducible apply State.keeps_ite | with_reducible apply State.keeps_ite₁ | with_reducible apply State.keeps_ite₂ | with_reducible apply timerGlobal_keeps | with_reducible apply State.setB_keeps | split | dsimp only | fail_if_no_progress with_reducible refine State.keeps_lit ?_ rfl rfl rfl rfl rfl)

end Sys2Proof.Machine
end

