-- ==== Sys2Proof/Laws/KeepsFeedOps.lean ====
section
/-! SUPPORT. What the operations of Machine/FeedOps.lean leave alone. -/

set_option linter.unusedTactic false
set_option linter.unreachableTactic false

namespace Sys2Proof.Machine

theorem State.evalHold_keeps {s t : State} (h : s.Keeps t)  : s.Keeps (State.evalHold t) := by
  unfold State.evalHold; try dsimp only
  repeat' (first | with_reducible assumption | intro _ | with_reducible apply State.keeps_ite | with_reducible apply State.keeps_ite₁ | with_reducible apply State.keeps_ite₂ | with_reducible apply State.setB_keeps | split | dsimp only | fail_if_no_progress with_reducible refine State.keeps_lit ?_ rfl rfl rfl rfl rfl)

theorem State.setGate_keeps {s t : State} (h : s.Keeps t) (f : Fin 3) (g : GateSt) : s.Keeps (State.setGate t f g) := by
  unfold State.setGate; try dsimp only
  repeat' (first | with_reducible assumption | intro _ | with_reducible apply State.keeps_ite | with_reducible apply State.keeps_ite₁ | with_reducible apply State.keeps_ite₂ | with_reducible apply State.updFd_keeps | split | dsimp only | fail_if_no_progress with_reducible refine State.keeps_lit ?_ rfl rfl rfl rfl rfl)

theorem State.connect_keeps {s t : State} (h : s.Keeps t) (f : Fin 3) : s.Keeps (State.connect t f) := by
  unfold State.connect; try dsimp only
  repeat' (first | with_reducible assumption | intro _ | with_reducible apply State.keeps_ite | with_reducible apply State.keeps_ite₁ | with_reducible apply State.keeps_ite₂ | with_reducible apply State.setGate_keeps | split | dsimp only | fail_if_no_progress with_reducible refine State.keeps_lit ?_ rfl rfl rfl rfl rfl)

theorem State.evalFeedSel_keeps {s t : State} (h : s.Keeps t)  : s.Keeps (State.evalFeedSel t) := by
  unfold State.evalFeedSel; try dsimp only
  repeat' (first | with_reducible assumption | intro _ | with_reducible apply State.keeps_ite | with_reducible apply State.keeps_ite₁ | with_reducible apply State.keeps_ite₂ | with_reducible apply State.when_keeps | with_reducible apply State.each_keeps' | with_reducible apply State.connect_keeps | split | dsimp only | fail_if_no_progress with_reducible refine State.keeps_lit ?_ rfl rfl rfl rfl rfl)

theorem State.evalFeedSel_moves {s t : State} (h : s.Moves t)  : s.Moves (State.evalFeedSel t) :=
  h.keeps (State.evalFeedSel_keeps (State.keeps_refl _))

theorem State.evalBen_keeps {s t : State} (h : s.Keeps t)  : s.Keeps (State.evalBen t) := by
  unfold State.evalBen; try dsimp only
  repeat' (first | with_reducible assumption | intro _ | with_reducible apply State.keeps_ite | with_reducible apply State.keeps_ite₁ | with_reducible apply State.keeps_ite₂ | with_reducible apply State.when_keeps | with_reducible apply State.setB_keeps | with_reducible apply State.updBat_keeps | split | dsimp only | fail_if_no_progress with_reducible refine State.keeps_lit ?_ rfl rfl rfl rfl rfl)

theorem State.evalBen_moves {s t : State} (h : s.Moves t)  : s.Moves (State.evalBen t) :=
  h.keeps (State.evalBen_keeps (State.keeps_refl _))

theorem State.evalVbusq_keeps {s t : State} (h : s.Keeps t)  : s.Keeps (State.evalVbusq t) := by
  unfold State.evalVbusq; try dsimp only
  repeat' (first | with_reducible assumption | intro _ | with_reducible apply State.keeps_ite | with_reducible apply State.keeps_ite₁ | with_reducible apply State.keeps_ite₂ | with_reducible apply State.setB_keeps | split | dsimp only | fail_if_no_progress with_reducible refine State.keeps_lit ?_ rfl rfl rfl rfl rfl)

theorem State.gateOff_keeps {s t : State} (h : s.Keeps t) (f : Fin 3) : s.Keeps (State.gateOff t f) := by
  unfold State.gateOff; try dsimp only
  repeat' (first | with_reducible assumption | intro _ | with_reducible apply State.keeps_ite | with_reducible apply State.keeps_ite₁ | with_reducible apply State.keeps_ite₂ | with_reducible apply State.setB_keeps | with_reducible apply State.setGate_keeps | with_reducible apply State.when_keeps | with_reducible apply State.setF_keeps | with_reducible apply State.evalBen_keeps | with_reducible apply State.evalVbusq_keeps | with_reducible apply State.evalHold_keeps | split | dsimp only | fail_if_no_progress with_reducible refine State.keeps_lit ?_ rfl rfl rfl rfl rfl)

theorem State.startTransfer_keeps {s t : State} (h : s.Keeps t) (f : Fin 3) : s.Keeps (State.startTransfer t f) := by
  unfold State.startTransfer; try dsimp only
  repeat' (first | with_reducible assumption | intro _ | with_reducible apply State.keeps_ite | with_reducible apply State.keeps_ite₁ | with_reducible apply State.keeps_ite₂ | with_reducible apply State.setB_keeps | with_reducible apply State.setGate_keeps | with_reducible apply State.setF_keeps | with_reducible apply State.evalHold_keeps | with_reducible apply State.incF_keeps | split | dsimp only | fail_if_no_progress with_reducible refine State.keeps_lit ?_ rfl rfl rfl rfl rfl)

theorem State.allGatesOff_keeps {s t : State} (h : s.Keeps t)  : s.Keeps (State.allGatesOff t) := by
  unfold State.allGatesOff; try dsimp only
  repeat' (first | with_reducible assumption | intro _ | with_reducible apply State.keeps_ite | with_reducible apply State.keeps_ite₁ | with_reducible apply State.keeps_ite₂ | with_reducible apply State.each_keeps' | with_reducible apply State.setB_keeps | with_reducible apply State.gateOff_keeps | split | dsimp only | fail_if_no_progress with_reducible refine State.keeps_lit ?_ rfl rfl rfl rfl rfl)

theorem State.allGatesOff_moves {s t : State} (h : s.Moves t)  : s.Moves (State.allGatesOff t) :=
  h.keeps (State.allGatesOff_keeps (State.keeps_refl _))

theorem State.clearTrips_keeps {s t : State} (h : s.Keeps t)  : s.Keeps (State.clearTrips t) := by
  unfold State.clearTrips; try dsimp only
  repeat' (first | with_reducible assumption | intro _ | with_reducible apply State.keeps_ite | with_reducible apply State.keeps_ite₁ | with_reducible apply State.keeps_ite₂ | with_reducible apply State.each_keeps' | with_reducible apply State.setB_keeps | with_reducible apply State.setF_keeps | with_reducible apply State.saveState_keeps | split | dsimp only | fail_if_no_progress with_reducible refine State.keeps_lit ?_ rfl rfl rfl rfl rfl)

theorem State.clearTrips_moves {s t : State} (h : s.Moves t)  : s.Moves (State.clearTrips t) :=
  h.keeps (State.clearTrips_keeps (State.keeps_refl _))

theorem State.feedTrip_keeps {s t : State} (h : s.Keeps t) (f : Fin 3) (cause : Nat) (amps : Int) (vbus : Nat) : s.Keeps (State.feedTrip t f cause amps vbus) := by
  unfold State.feedTrip; try dsimp only
  repeat' (first | with_reducible assumption | intro _ | with_reducible apply State.keeps_ite | with_reducible apply State.keeps_ite₁ | with_reducible apply State.keeps_ite₂ | with_reducible apply State.gateOff_keeps | with_reducible apply State.setB_keeps | with_reducible apply State.setF_keeps | with_reducible apply State.incF_keeps | with_reducible apply State.saveState_keeps | with_reducible apply State.recordSrc_keeps | with_reducible apply State.raise_keeps | split | dsimp only | fail_if_no_progress with_reducible refine State.keeps_lit ?_ rfl rfl rfl rfl rfl)

end Sys2Proof.Machine
end

