-- ==== Sys2Proof/Laws/KeepsPhases.lean ====
section
/-! SUPPORT. What the operations of Machine/Phases.lean leave alone. -/

set_option linter.unusedTactic false
set_option linter.unreachableTactic false

namespace Sys2Proof.Machine

theorem State.rangeCheck_keeps {s t : State} (h : s.Keeps t) (p : Fin 48) (code : Nat) : s.Keeps (State.rangeCheck t p code) := by
  unfold State.rangeCheck; try dsimp only
  repeat' (first | with_reducible assumption | intro _ | with_reducible apply State.keeps_ite | with_reducible apply State.keeps_ite₁ | with_reducible apply State.keeps_ite₂ | with_reducible apply State.lower_keeps | with_reducible apply State.updPh_keeps | with_reducible apply State.raise_keeps | with_reducible apply State.setB_keeps | with_reducible apply State.removePhase_keeps | split | dsimp only | fail_if_no_progress with_reducible refine State.keeps_lit ?_ rfl rfl rfl rfl rfl)

theorem State.endHigh_keeps {s t : State} (h : s.Keeps t) (p : Fin 48) : s.Keeps (State.endHigh t p) := by
  unfold State.endHigh; try dsimp only
  repeat' (first | with_reducible assumption | intro _ | with_reducible apply State.keeps_ite | with_reducible apply State.keeps_ite₁ | with_reducible apply State.keeps_ite₂ | with_reducible apply State.updPh_keeps | split | dsimp only | fail_if_no_progress with_reducible refine State.keeps_lit ?_ rfl rfl rfl rfl rfl)

theorem State.peakEnd_keeps {s t : State} (h : s.Keeps t) (p : Fin 48) : s.Keeps (State.peakEnd t p) := by
  unfold State.peakEnd; try dsimp only
  repeat' (first | with_reducible assumption | intro _ | with_reducible apply State.keeps_ite | with_reducible apply State.keeps_ite₁ | with_reducible apply State.keeps_ite₂ | with_reducible apply State.when_keeps | with_reducible apply State.updPh_keeps | with_reducible apply State.incF_keeps | with_reducible apply State.setB_keeps | with_reducible apply State.endHigh_keeps | split | dsimp only | fail_if_no_progress with_reducible refine State.keeps_lit ?_ rfl rfl rfl rfl rfl)

theorem State.rsFrame_keeps {s t : State} (h : s.Keeps t) (n : Fin 16) : s.Keeps (State.rsFrame t n) := by
  unfold State.rsFrame; try dsimp only
  repeat' (first | with_reducible assumption | intro _ | with_reducible apply State.keeps_ite | with_reducible apply State.keeps_ite₁ | with_reducible apply State.keeps_ite₂ | with_reducible apply State.updCl_keeps | with_reducible apply State.setActive_keeps | split | dsimp only | fail_if_no_progress with_reducible refine State.keeps_lit ?_ rfl rfl rfl rfl rfl)

theorem State.diode_keeps {s t : State} (h : s.Keeps t) (p : Fin 48) (i : Rat) : s.Keeps (State.diode t p i) := by
  unfold State.diode; try dsimp only
  repeat' (first | with_reducible assumption | intro _ | with_reducible apply State.keeps_ite | with_reducible apply State.keeps_ite₁ | with_reducible apply State.keeps_ite₂ | with_reducible apply State.updPh_keeps | split | dsimp only | fail_if_no_progress with_reducible refine State.keeps_lit ?_ rfl rfl rfl rfl rfl)

theorem State.startHigh_keeps {s t : State} (h : s.Keeps t) (p : Fin 48) : s.Keeps (State.startHigh t p) := by
  unfold State.startHigh; try dsimp only
  repeat' (first | with_reducible assumption | intro _ | with_reducible apply State.keeps_ite | with_reducible apply State.keeps_ite₁ | with_reducible apply State.keeps_ite₂ | with_reducible apply State.updPh_keeps | split | dsimp only | fail_if_no_progress with_reducible refine State.keeps_lit ?_ rfl rfl rfl rfl rfl)

theorem State.onRequestAt_keeps {s t : State} (h : s.Keeps t) (p : Fin 48) : s.Keeps (State.onRequestAt t p) := by
  unfold State.onRequestAt; try dsimp only
  repeat' (first | with_reducible assumption | intro _ | with_reducible apply State.keeps_ite | with_reducible apply State.keeps_ite₁ | with_reducible apply State.keeps_ite₂ | with_reducible apply State.startHigh_keeps | with_reducible apply State.updPh_keeps | split | dsimp only | fail_if_no_progress with_reducible refine State.keeps_lit ?_ rfl rfl rfl rfl rfl)

theorem State.onRequest_keeps {s t : State} (h : s.Keeps t) (n : Fin 16) : s.Keeps (State.onRequest t n) := by
  unfold State.onRequest; try dsimp only
  repeat' (first | with_reducible assumption | intro _ | with_reducible apply State.keeps_ite | with_reducible apply State.keeps_ite₁ | with_reducible apply State.keeps_ite₂ | with_reducible apply State.each_keeps' | with_reducible apply State.onRequestAt_keeps | split | dsimp only | fail_if_no_progress with_reducible refine State.keeps_lit ?_ rfl rfl rfl rfl rfl)

theorem State.placePhases_keeps {s t : State} (h : s.Keeps t) (n : Fin 16) : s.Keeps (State.placePhases t n) := by
  unfold State.placePhases; try dsimp only
  repeat' (first | with_reducible assumption | intro _ | with_reducible apply State.keeps_ite | with_reducible apply State.keeps_ite₁ | with_reducible apply State.keeps_ite₂ | with_reducible apply State.each_keeps' | with_reducible apply State.updPh_keeps | split | dsimp only | fail_if_no_progress with_reducible refine State.keeps_lit ?_ rfl rfl rfl rfl rfl)

theorem State.loadCal_keeps {s t : State} (h : s.Keeps t) (n : Fin 16) : s.Keeps (State.loadCal t n) := by
  unfold State.loadCal; try dsimp only
  repeat' (first | with_reducible assumption | intro _ | with_reducible apply State.keeps_ite | with_reducible apply State.keeps_ite₁ | with_reducible apply State.keeps_ite₂ | with_reducible apply State.updCl_keeps | with_reducible apply State.each_keeps' | with_reducible apply State.updPh_keeps | split | dsimp only | fail_if_no_progress with_reducible refine State.keeps_lit ?_ rfl rfl rfl rfl rfl)

end Sys2Proof.Machine
end

