-- ==== Sys2Proof/Laws/KeepsLoop.lean ====
section
/-! SUPPORT. What the operations of Machine/Loop.lean leave alone. -/

set_option linter.unusedTactic false
set_option linter.unreachableTactic false

namespace Sys2Proof.Machine

theorem State.injFields_keeps {s t : State} (h : s.Keeps t) (n : Fin 16) (v : Word) : s.Keeps (State.injFields t n v) := by
  unfold State.injFields; try dsimp only
  repeat' (first | with_reducible assumption | intro _ | with_reducible apply State.keeps_ite | with_reducible apply State.keeps_ite₁ | with_reducible apply State.keeps_ite₂ | with_reducible apply State.setReg_keeps | split | dsimp only | fail_if_no_progress with_reducible refine State.keeps_lit ?_ rfl rfl rfl rfl rfl)

theorem State.injSet_keeps {s t : State} (h : s.Keeps t) (n : Fin 16) (v : Int) : s.Keeps (State.injSet t n v) := by
  unfold State.injSet; try dsimp only
  repeat' (first | with_reducible assumption | intro _ | with_reducible apply State.keeps_ite | with_reducible apply State.keeps_ite₁ | with_reducible apply State.keeps_ite₂ | with_reducible apply State.updCl_keeps | split | dsimp only | fail_if_no_progress with_reducible refine State.keeps_lit ?_ rfl rfl rfl rfl rfl)

theorem State.injEnd_keeps {s t : State} (h : s.Keeps t) (n : Fin 16) : s.Keeps (State.injEnd t n) := by
  unfold State.injEnd; try dsimp only
  repeat' (first | with_reducible assumption | intro _ | with_reducible apply State.keeps_ite | with_reducible apply State.keeps_ite₁ | with_reducible apply State.keeps_ite₂ | with_reducible apply State.updCl_keeps | with_reducible apply State.unclaim_keeps | with_reducible apply State.setB_keeps | split | dsimp only | fail_if_no_progress with_reducible refine State.keeps_lit ?_ rfl rfl rfl rfl rfl)

theorem State.injStep_keeps {s t : State} (h : s.Keeps t) (n : Fin 16) : s.Keeps (State.injStep t n) := by
  unfold State.injStep; try dsimp only
  repeat' (first | with_reducible assumption | intro _ | with_reducible apply State.keeps_ite | with_reducible apply State.keeps_ite₁ | with_reducible apply State.keeps_ite₂ | with_reducible apply State.injSet_keeps | with_reducible apply State.updCl_keeps | with_reducible apply State.setB_keeps | with_reducible apply State.injEnd_keeps | split | dsimp only | fail_if_no_progress with_reducible refine State.keeps_lit ?_ rfl rfl rfl rfl rfl)

theorem leadSuspendClear_keeps {s t : State} (h : s.Keeps t) (n : Fin 16) : s.Keeps (leadSuspendClear n t).1 := by
  unfold leadSuspendClear; try dsimp only
  repeat' (first | with_reducible assumption | intro _ | with_reducible apply State.keeps_ite | with_reducible apply State.keeps_ite₁ | with_reducible apply State.keeps_ite₂ | with_reducible apply State.updCl_keeps | with_reducible apply State.setB_keeps | split | dsimp only | fail_if_no_progress with_reducible refine State.keeps_lit ?_ rfl rfl rfl rfl rfl)

theorem leadSuspendClear_moves {s t : State} (h : s.Moves t) (n : Fin 16) : s.Moves (leadSuspendClear n t).1 :=
  h.keeps (leadSuspendClear_keeps (State.keeps_refl _) _)

theorem State.diagWrite_keeps {s t : State} (h : s.Keeps t) (w : Word) : s.Keeps (State.diagWrite t w) := by
  unfold State.diagWrite; try dsimp only
  repeat' (first | with_reducible assumption | intro _ | with_reducible apply State.keeps_ite | with_reducible apply State.keeps_ite₁ | with_reducible apply State.keeps_ite₂ | with_reducible apply State.when_keeps | with_reducible apply State.setB_keeps | with_reducible apply State.setF_keeps | split | dsimp only | fail_if_no_progress with_reducible refine State.keeps_lit ?_ rfl rfl rfl rfl rfl)

theorem State.allPhases_keeps {s t : State} (h : s.Keeps t) (n : Fin 16) : s.Keeps (State.allPhases t n) := by
  unfold State.allPhases; try dsimp only
  repeat' (first | with_reducible assumption | intro _ | with_reducible apply State.keeps_ite | with_reducible apply State.keeps_ite₁ | with_reducible apply State.keeps_ite₂ | with_reducible apply State.updCl_keeps | with_reducible apply State.onRequest_keeps | with_reducible apply State.setB_keeps | with_reducible apply State.setActive_keeps | split | dsimp only | fail_if_no_progress with_reducible refine State.keeps_lit ?_ rfl rfl rfl rfl rfl)

theorem State.disturb_keeps {s t : State} (h : s.Keeps t) (n : Fin 16) : s.Keeps (State.disturb t n) := by
  unfold State.disturb; try dsimp only
  repeat' (first | with_reducible assumption | intro _ | with_reducible apply State.keeps_ite | with_reducible apply State.keeps_ite₁ | with_reducible apply State.keeps_ite₂ | with_reducible apply State.when_keeps | with_reducible apply State.setB_keeps | split | dsimp only | fail_if_no_progress with_reducible refine State.keeps_lit ?_ rfl rfl rfl rfl rfl)

theorem State.leadAct_keeps {s t : State} (h : s.Keeps t) (n : Fin 16) (pin : Fin 4) (cls : Nat) : s.Keeps (State.leadAct t n pin cls) := by
  unfold State.leadAct; try dsimp only
  repeat' (first | with_reducible assumption | intro _ | with_reducible apply State.keeps_ite | with_reducible apply State.keeps_ite₁ | with_reducible apply State.keeps_ite₂ | with_reducible apply State.updCl_keeps | with_reducible apply State.setB_keeps | with_reducible apply State.setF_keeps | with_reducible apply State.allPhases_keeps | with_reducible apply State.disturb_keeps | split | dsimp only | fail_if_no_progress with_reducible refine State.keeps_lit ?_ rfl rfl rfl rfl rfl)

theorem State.beginTransition_keeps {s t : State} (h : s.Keeps t) (n : Fin 16) (tgt : Nat) : s.Keeps (State.beginTransition t n tgt) := by
  unfold State.beginTransition; try dsimp only
  repeat' (first | with_reducible assumption | intro _ | with_reducible apply State.keeps_ite | with_reducible apply State.keeps_ite₁ | with_reducible apply State.keeps_ite₂ | with_reducible apply State.updCl_keeps | with_reducible apply State.setB_keeps | with_reducible apply State.disturb_keeps | with_reducible apply State.updTm_keeps | with_reducible apply State.setReg_keeps | split | dsimp only | fail_if_no_progress with_reducible refine State.keeps_lit ?_ rfl rfl rfl rfl rfl)

theorem State.takeSet_keeps {s t : State} (h : s.Keeps t) (n : Fin 16) : s.Keeps (State.takeSet t n) := by
  unfold State.takeSet; try dsimp only
  repeat' (first | with_reducible assumption | intro _ | with_reducible apply State.keeps_ite | with_reducible apply State.keeps_ite₁ | with_reducible apply State.keeps_ite₂ | with_reducible apply State.beginTransition_keeps | with_reducible apply State.updCl_keeps | split | dsimp only | fail_if_no_progress with_reducible refine State.keeps_lit ?_ rfl rfl rfl rfl rfl)

theorem State.falseWarning_keeps {s t : State} (h : s.Keeps t) (n : Fin 16) : s.Keeps (State.falseWarning t n) := by
  unfold State.falseWarning; try dsimp only
  repeat' (first | with_reducible assumption | intro _ | with_reducible apply State.keeps_ite | with_reducible apply State.keeps_ite₁ | with_reducible apply State.keeps_ite₂ | with_reducible apply State.incF_keeps | with_reducible apply State.updCl_keeps | with_reducible apply State.raise_keeps | with_reducible apply State.setB_keeps | split | dsimp only | fail_if_no_progress with_reducible refine State.keeps_lit ?_ rfl rfl rfl rfl rfl)

theorem State.setLw_keeps {s t : State} (h : s.Keeps t) (n : Fin 16) (v : Int) : s.Keeps (State.setLw t n v) := by
  unfold State.setLw; try dsimp only
  repeat' (first | with_reducible assumption | intro _ | with_reducible apply State.keeps_ite | with_reducible apply State.keeps_ite₁ | with_reducible apply State.keeps_ite₂ | with_reducible apply State.setB_keeps | with_reducible apply State.updCl_keeps | split | dsimp only | fail_if_no_progress with_reducible refine State.keeps_lit ?_ rfl rfl rfl rfl rfl)

theorem State.leadStep_keeps {s t : State} (h : s.Keeps t) (n : Fin 16) (e : Int) (iLoad : Rat) : s.Keeps (State.leadStep t n e iLoad).1 := by
  unfold State.leadStep; try dsimp only
  repeat' (first | with_reducible assumption | intro _ | with_reducible apply State.keeps_ite | with_reducible apply State.keeps_ite₁ | with_reducible apply State.keeps_ite₂ | with_reducible apply State.setB_keeps | with_reducible apply State.falseWarning_keeps | with_reducible apply State.setLw_keeps | with_reducible apply State.updCl_keeps | with_reducible apply State.incF_keeps | split | dsimp only | fail_if_no_progress with_reducible refine State.keeps_lit ?_ rfl rfl rfl rfl rfl)

theorem State.respond_keeps {s t : State} (h : s.Keeps t) (n : Fin 16) (e : Int) (vref : Nat) (u : Int) (icl : Rat) : s.Keeps (State.respond t n e vref u icl) := by
  unfold State.respond; try dsimp only
  repeat' (first | with_reducible assumption | intro _ | with_reducible apply State.keeps_ite | with_reducible apply State.keeps_ite₁ | with_reducible apply State.keeps_ite₂ | with_reducible apply State.diagWrite_keeps | with_reducible apply State.updCl_keeps | split | dsimp only | fail_if_no_progress with_reducible refine State.keeps_lit ?_ rfl rfl rfl rfl rfl)

theorem State.phaseBase_keeps {s t : State} (h : s.Keeps t) (n : Fin 16) : s.Keeps (State.phaseBase t n) := by
  unfold State.phaseBase; try dsimp only
  repeat' (first | with_reducible assumption | intro _ | with_reducible apply State.keeps_ite | with_reducible apply State.keeps_ite₁ | with_reducible apply State.keeps_ite₂ | with_reducible apply State.each_keeps' | with_reducible apply State.updPh_keeps | split | dsimp only | fail_if_no_progress with_reducible refine State.keeps_lit ?_ rfl rfl rfl rfl rfl)

theorem State.holdStep_keeps {s t : State} (h : s.Keeps t) (n : Fin 16) : s.Keeps (State.holdStep t n) := by
  unfold State.holdStep; try dsimp only
  repeat' (first | with_reducible assumption | intro _ | with_reducible apply State.keeps_ite | with_reducible apply State.keeps_ite₁ | with_reducible apply State.keeps_ite₂ | with_reducible apply State.setB_keeps | with_reducible apply State.updCl_keeps | split | dsimp only | fail_if_no_progress with_reducible refine State.keeps_lit ?_ rfl rfl rfl rfl rfl)

theorem State.phaseCount_keeps {s t : State} (h : s.Keeps t) (n : Fin 16) : s.Keeps (State.phaseCount t n) := by
  unfold State.phaseCount; try dsimp only
  repeat' (first | with_reducible assumption | intro _ | with_reducible apply State.keeps_ite | with_reducible apply State.keeps_ite₁ | with_reducible apply State.keeps_ite₂ | with_reducible apply State.updCl_keeps | split | dsimp only | fail_if_no_progress with_reducible refine State.keeps_lit ?_ rfl rfl rfl rfl rfl)

theorem State.outerLoops_keeps {s t : State} (h : s.Keeps t) (n : Fin 16) (vref : Nat) : s.Keeps (State.outerLoops t n vref) := by
  unfold State.outerLoops; try dsimp only
  repeat' (first | with_reducible assumption | intro _ | with_reducible apply State.keeps_ite | with_reducible apply State.keeps_ite₁ | with_reducible apply State.keeps_ite₂ | with_reducible apply State.updCl_keeps | with_reducible apply State.setS_keeps | with_reducible apply State.setB_keeps | with_reducible apply State.when_keeps | with_reducible apply State.disturb_keeps | split | dsimp only | fail_if_no_progress with_reducible refine State.keeps_lit ?_ rfl rfl rfl rfl rfl)

theorem State.telBase_keeps {s t : State} (h : s.Keeps t) (n : Fin 16) (v : Rat) (i : Rat) : s.Keeps (State.telBase t n v i) := by
  unfold State.telBase; try dsimp only
  repeat' (first | with_reducible assumption | intro _ | with_reducible apply State.keeps_ite | with_reducible apply State.keeps_ite₁ | with_reducible apply State.keeps_ite₂ | with_reducible apply State.updCl_keeps | split | dsimp only | fail_if_no_progress with_reducible refine State.keeps_lit ?_ rfl rfl rfl rfl rfl)

theorem State.rotate_keeps {s t : State} (h : s.Keeps t) (n : Fin 16) (single : Bool) : s.Keeps (State.rotate t n single) := by
  unfold State.rotate; try dsimp only
  repeat' (first | with_reducible assumption | intro _ | with_reducible apply State.keeps_ite | with_reducible apply State.keeps_ite₁ | with_reducible apply State.keeps_ite₂ | with_reducible apply State.onRequestAt_keeps | with_reducible apply State.setF_keeps | split | dsimp only | fail_if_no_progress with_reducible refine State.keeps_lit ?_ rfl rfl rfl rfl rfl)

theorem State.updatePhases_keeps {s t : State} (h : s.Keeps t) (n : Fin 16) (e : Int) (ePrev : Int) : s.Keeps (State.updatePhases t n e ePrev) := by
  unfold State.updatePhases; try dsimp only
  repeat' (first | with_reducible assumption | intro _ | with_reducible apply State.keeps_ite | with_reducible apply State.keeps_ite₁ | with_reducible apply State.keeps_ite₂ | with_reducible apply State.allPhases_keeps | with_reducible apply State.holdStep_keeps | with_reducible apply State.when_keeps | with_reducible apply State.rotate_keeps | with_reducible apply State.phaseCount_keeps | with_reducible apply State.updCl_keeps | split | dsimp only | fail_if_no_progress with_reducible refine State.keeps_lit ?_ rfl rfl rfl rfl rfl)

theorem State.advanceRamp_keeps {s t : State} (h : s.Keeps t) (n : Fin 16) : s.Keeps (State.advanceRamp t n) := by
  unfold State.advanceRamp; try dsimp only
  repeat' (first | with_reducible assumption | intro _ | with_reducible apply State.keeps_ite | with_reducible apply State.keeps_ite₁ | with_reducible apply State.keeps_ite₂ | with_reducible apply State.setB_keeps | with_reducible apply State.updCl_keeps | split | dsimp only | fail_if_no_progress with_reducible refine State.keeps_lit ?_ rfl rfl rfl rfl rfl)

theorem State.writeCheckpoint_keeps {s t : State} (h : s.Keeps t) (n : Fin 16) : s.Keeps (State.writeCheckpoint t n) := by
  unfold State.writeCheckpoint; try dsimp only
  repeat' (first | with_reducible assumption | intro _ | with_reducible apply State.keeps_ite | with_reducible apply State.keeps_ite₁ | with_reducible apply State.keeps_ite₂ | with_reducible apply State.updCl_keeps | with_reducible apply State.when_keeps | with_reducible apply State.setF_keeps | split | dsimp only | fail_if_no_progress with_reducible refine State.keeps_lit ?_ rfl rfl rfl rfl rfl)

theorem State.loopStep_keeps {s t : State} (h : s.Keeps t) (n : Fin 16) (fine : List (BitVec 12)) (coarse : BitVec 10) : s.Keeps (State.loopStep t n fine coarse) := by
  unfold State.loopStep; try dsimp only
  repeat' (first | with_reducible assumption | intro _ | with_reducible apply State.keeps_ite | with_reducible apply State.keeps_ite₁ | with_reducible apply State.keeps_ite₂ | with_reducible apply State.takeSet_keeps | with_reducible apply State.setS_keeps | with_reducible apply State.setB_keeps | with_reducible apply State.updCl_keeps | with_reducible apply State.leadStep_keeps | with_reducible apply State.injStep_keeps | with_reducible apply State.when_keeps | with_reducible apply State.disturb_keeps | with_reducible apply State.updatePhases_keeps | with_reducible apply State.phaseBase_keeps | with_reducible apply State.telBase_keeps | with_reducible apply State.outerLoops_keeps | with_reducible apply State.advanceRamp_keeps | with_reducible apply State.respond_keeps | with_reducible apply State.setF_keeps | with_reducible apply State.writeCheckpoint_keeps | with_reducible apply State.clOff_keeps | split | dsimp only | fail_if_no_progress with_reducible refine State.keeps_lit ?_ rfl rfl rfl rfl rfl)

theorem injWrite_keeps {s t : State} (h : s.Keeps t) (n : Fin 16) (v : Word) : s.Keeps (injWrite n v t).1 := by
  unfold injWrite; try dsimp only
  repeat' (first | with_reducible assumption | intro _ | with_reducible apply State.keeps_ite | with_reducible apply State.keeps_ite₁ | with_reducible apply State.keeps_ite₂ | with_reducible apply State.injFields_keeps | with_reducible apply State.injEnd_keeps | with_reducible apply State.resBusy_keeps | with_reducible apply State.claim_keeps | with_reducible apply State.setF_keeps | with_reducible apply State.setB_keeps | with_reducible apply State.updCl_keeps | split | dsimp only | fail_if_no_progress with_reducible refine State.keeps_lit ?_ rfl rfl rfl rfl rfl)

theorem injWrite_moves {s t : State} (h : s.Moves t) (n : Fin 16) (v : Word) : s.Moves (injWrite n v t).1 :=
  h.keeps (injWrite_keeps (State.keeps_refl _) _ _)

end Sys2Proof.Machine
end

