-- ==== Sys2Proof/Laws/KeepsClusterPhases.lean ====
section
/-! SUPPORT. What the operations of Machine/ClusterPhases.lean leave alone. -/

set_option linter.unusedTactic false
set_option linter.unreachableTactic false

namespace Sys2Proof.Machine

theorem State.spareFail_keeps {s t : State} (h : s.Keeps t) (n : Fin 16) (cause : Nat) : s.Keeps (State.spareFail t n cause) := by
  unfold State.spareFail; try dsimp only
  repeat' (first | with_reducible assumption | intro _ | with_reducible apply State.keeps_ite | with_reducible apply State.keeps_ite₁ | with_reducible apply State.keeps_ite₂ | with_reducible apply State.setF_keeps | with_reducible apply State.injAbort_keeps | with_reducible apply State.updCl_keeps | with_reducible apply State.recordSrc_keeps | with_reducible apply State.raise_keeps | split | dsimp only | fail_if_no_progress with_reducible refine State.keeps_lit ?_ rfl rfl rfl rfl rfl)

theorem State.loadFrame_keeps {s t : State} (h : s.Keeps t) (n : Fin 16) (w : List Word) (missed : Nat) : s.Keeps (State.loadFrame t n w missed) := by
  unfold State.loadFrame; try dsimp only
  repeat' (first | with_reducible assumption | intro _ | with_reducible apply State.keeps_ite | with_reducible apply State.keeps_ite₁ | with_reducible apply State.keeps_ite₂ | with_reducible apply State.updCl_keeps | with_reducible apply State.setF_keeps | with_reducible apply State.each_keeps' | with_reducible apply State.setTrim_keeps | with_reducible apply State.fixPtr_keeps | with_reducible apply State.setReg_keeps | split | dsimp only | fail_if_no_progress with_reducible refine State.keeps_lit ?_ rfl rfl rfl rfl rfl)

theorem State.takeover_keeps {s t : State} (h : s.Keeps t) (n : Fin 16) (cause : Nat) (f : Frame) (old : Bool) (missed : Nat) (gap : Nat) : s.Keeps (State.takeover t n cause f old missed gap) := by
  unfold State.takeover; try dsimp only
  repeat' (first | with_reducible assumption | intro _ | with_reducible apply State.keeps_ite | with_reducible apply State.keeps_ite₁ | with_reducible apply State.keeps_ite₂ | with_reducible apply State.updCl_keeps | with_reducible apply State.injAbort_keeps | with_reducible apply State.loadFrame_keeps | with_reducible apply State.setB_keeps | with_reducible apply State.setF_keeps | with_reducible apply State.setReg_keeps | split | dsimp only | fail_if_no_progress with_reducible refine State.keeps_lit ?_ rfl rfl rfl rfl rfl)

theorem State.engineFailure_keeps {s t : State} (h : s.Keeps t) (n : Fin 16) (code : Nat) (slotBad : Bool) (missed : Nat) (gap : Nat) : s.Keeps (State.engineFailure t n code slotBad missed gap) := by
  unfold State.engineFailure; try dsimp only
  repeat' (first | with_reducible assumption | intro _ | with_reducible apply State.keeps_ite | with_reducible apply State.keeps_ite₁ | with_reducible apply State.keeps_ite₂ | with_reducible apply State.spareFail_keeps | with_reducible apply State.injAbort_keeps | with_reducible apply State.updCl_keeps | with_reducible apply State.recordSrc_keeps | with_reducible apply State.raise_keeps | with_reducible apply State.takeover_keeps | split | dsimp only | fail_if_no_progress with_reducible refine State.keeps_lit ?_ rfl rfl rfl rfl rfl)

theorem State.balance_keeps {s t : State} (h : s.Keeps t) (n : Fin 16) : s.Keeps (State.balance t n) := by
  unfold State.balance; try dsimp only
  repeat' (first | with_reducible assumption | intro _ | with_reducible apply State.keeps_ite | with_reducible apply State.keeps_ite₁ | with_reducible apply State.keeps_ite₂ | with_reducible apply State.each_keeps' | with_reducible apply State.setTrim_keeps | split | dsimp only | fail_if_no_progress with_reducible refine State.keeps_lit ?_ rfl rfl rfl rfl rfl)

end Sys2Proof.Machine
end

