-- ==== Sys2Proof/Laws/KeepsPrecision.lean ====
section
/-! SUPPORT. What the operations of Machine/Precision.lean leave alone. -/

set_option linter.unusedTactic false
set_option linter.unreachableTactic false

namespace Sys2Proof.Machine

theorem State.snapRequest_keeps {s t : State} (h : s.Keeps t) (k : Fin 8) : s.Keeps (State.snapRequest t k) := by
  unfold State.snapRequest; try dsimp only
  repeat' (first | with_reducible assumption | intro _ | with_reducible apply State.keeps_ite | with_reducible apply State.keeps_ite₁ | with_reducible apply State.keeps_ite₂ | split | dsimp only | fail_if_no_progress with_reducible refine State.keeps_lit ?_ rfl rfl rfl rfl rfl)

theorem energyClear_keeps {s t : State} (h : s.Keeps t) (f : Fin 4) : s.Keeps (energyClear f t).1 := by
  unfold energyClear; try dsimp only
  repeat' (first | with_reducible assumption | intro _ | with_reducible apply State.keeps_ite | with_reducible apply State.keeps_ite₁ | with_reducible apply State.keeps_ite₂ | with_reducible apply State.updFd_keeps | split | dsimp only | fail_if_no_progress with_reducible refine State.keeps_lit ?_ rfl rfl rfl rfl rfl)

theorem energyClear_moves {s t : State} (h : s.Moves t) (f : Fin 4) : s.Moves (energyClear f t).1 :=
  h.keeps (energyClear_keeps (State.keeps_refl _) _)

theorem State.refResult_keeps {s t : State} (h : s.Keeps t) (ref : Rat) : s.Keeps (State.refResult t ref) := by
  unfold State.refResult; try dsimp only
  repeat' (first | with_reducible assumption | intro _ | with_reducible apply State.keeps_ite | with_reducible apply State.keeps_ite₁ | with_reducible apply State.keeps_ite₂ | with_reducible apply State.setS_keeps | with_reducible apply State.setB_keeps | with_reducible apply State.raise_keeps | with_reducible apply State.each_keeps' | with_reducible apply State.when_keeps | with_reducible apply State.lower_keeps | split | dsimp only | fail_if_no_progress with_reducible refine State.keeps_lit ?_ rfl rfl rfl rfl rfl)

theorem State.hvResult_keeps {s t : State} (h : s.Keeps t) (k : Fin 6) (code : Int) (hv : Rat) : s.Keeps (State.hvResult t k code hv) := by
  unfold State.hvResult; try dsimp only
  repeat' (first | with_reducible assumption | intro _ | with_reducible apply State.keeps_ite | with_reducible apply State.keeps_ite₁ | with_reducible apply State.keeps_ite₂ | split | dsimp only | fail_if_no_progress with_reducible refine State.keeps_lit ?_ rfl rfl rfl rfl rfl)

theorem State.holdMax_keeps {s t : State} (h : s.Keeps t) (a : Nat) (v : Int) : s.Keeps (State.holdMax t a v) := by
  unfold State.holdMax; try dsimp only
  repeat' (first | with_reducible assumption | intro _ | with_reducible apply State.keeps_ite | with_reducible apply State.keeps_ite₁ | with_reducible apply State.keeps_ite₂ | with_reducible apply State.setReg_keeps | split | dsimp only | fail_if_no_progress with_reducible refine State.keeps_lit ?_ rfl rfl rfl rfl rfl)

theorem State.holdMin_keeps {s t : State} (h : s.Keeps t) (a : Nat) (v : Int) : s.Keeps (State.holdMin t a v) := by
  unfold State.holdMin; try dsimp only
  repeat' (first | with_reducible assumption | intro _ | with_reducible apply State.keeps_ite | with_reducible apply State.keeps_ite₁ | with_reducible apply State.keeps_ite₂ | with_reducible apply State.setReg_keeps | split | dsimp only | fail_if_no_progress with_reducible refine State.keeps_lit ?_ rfl rfl rfl rfl rfl)

theorem telCluster_keeps {s t : State} (h : s.Keeps t) (n : Fin 16) : s.Keeps (telCluster n t) := by
  unfold telCluster; try dsimp only
  repeat' (first | with_reducible assumption | intro _ | with_reducible apply State.keeps_ite | with_reducible apply State.keeps_ite₁ | with_reducible apply State.keeps_ite₂ | with_reducible apply State.setRegs_keeps | with_reducible apply State.holdMax_keeps | with_reducible apply State.holdMin_keeps | with_reducible apply State.updCl_keeps | split | dsimp only | fail_if_no_progress with_reducible refine State.keeps_lit ?_ rfl rfl rfl rfl rfl)

theorem State.saveCal_keeps {s t : State} (h : s.Keeps t)  : s.Keeps (State.saveCal t) := by
  unfold State.saveCal; try dsimp only
  repeat' (first | with_reducible assumption | intro _ | with_reducible apply State.keeps_ite | with_reducible apply State.keeps_ite₁ | with_reducible apply State.keeps_ite₂ | split | dsimp only | fail_if_no_progress with_reducible refine State.keeps_lit ?_ rfl rfl rfl rfl rfl)

theorem State.clusterResult_keeps {s t : State} (h : s.Keeps t) (n : Fin 16) (code : Int) (fast : Rat) (clean : Bool) : s.Keeps (State.clusterResult t n code fast clean) := by
  unfold State.clusterResult; try dsimp only
  repeat' (first | with_reducible assumption | intro _ | with_reducible apply State.keeps_ite | with_reducible apply State.keeps_ite₁ | with_reducible apply State.keeps_ite₂ | with_reducible apply State.setReg_keeps | with_reducible apply State.updCl_keeps | split | dsimp only | fail_if_no_progress with_reducible refine State.keeps_lit ?_ rfl rfl rfl rfl rfl)

theorem telPhase_keeps {s t : State} (h : s.Keeps t) (p : Fin 48) : s.Keeps (telPhase p t) := by
  unfold telPhase; try dsimp only
  repeat' (first | with_reducible assumption | intro _ | with_reducible apply State.keeps_ite | with_reducible apply State.keeps_ite₁ | with_reducible apply State.keeps_ite₂ | with_reducible apply State.setReg_keeps | with_reducible apply State.updPh_keeps | split | dsimp only | fail_if_no_progress with_reducible refine State.keeps_lit ?_ rfl rfl rfl rfl rfl)

theorem State.renormGrel_keeps {s t : State} (h : s.Keeps t) (n : Fin 16) : s.Keeps (State.renormGrel t n) := by
  unfold State.renormGrel; try dsimp only
  repeat' (first | with_reducible assumption | intro _ | with_reducible apply State.keeps_ite | with_reducible apply State.keeps_ite₁ | with_reducible apply State.keeps_ite₂ | with_reducible apply State.each_keeps' | with_reducible apply State.setF_keeps | split | dsimp only | fail_if_no_progress with_reducible refine State.keeps_lit ?_ rfl rfl rfl rfl rfl)

theorem State.rsAccept_keeps {s t : State} (h : s.Keeps t) (n : Fin 16) (p : Fin 48) (r : Rat) : s.Keeps (State.rsAccept t n p r) := by
  unfold State.rsAccept; try dsimp only
  repeat' (first | with_reducible assumption | intro _ | with_reducible apply State.keeps_ite | with_reducible apply State.keeps_ite₁ | with_reducible apply State.keeps_ite₂ | with_reducible apply State.renormGrel_keeps | with_reducible apply State.incF_keeps | with_reducible apply State.setF_keeps | split | dsimp only | fail_if_no_progress with_reducible refine State.keeps_lit ?_ rfl rfl rfl rfl rfl)

theorem State.ebTake_keeps {s t : State} (h : s.Keeps t) (n : Fin 16) (k : Rat) : s.Keeps (State.ebTake t n k) := by
  unfold State.ebTake; try dsimp only
  repeat' (first | with_reducible assumption | intro _ | with_reducible apply State.keeps_ite | with_reducible apply State.keeps_ite₁ | with_reducible apply State.keeps_ite₂ | with_reducible apply State.incF_keeps | with_reducible apply State.setB_keeps | with_reducible apply State.setF_keeps | split | dsimp only | fail_if_no_progress with_reducible refine State.keeps_lit ?_ rfl rfl rfl rfl rfl)

theorem State.trimTarget_keeps {s t : State} (h : s.Keeps t) (n : Fin 16) : s.Keeps (State.trimTarget t n) := by
  unfold State.trimTarget; try dsimp only
  repeat' (first | with_reducible assumption | intro _ | with_reducible apply State.keeps_ite | with_reducible apply State.keeps_ite₁ | with_reducible apply State.keeps_ite₂ | with_reducible apply State.updCl_keeps | with_reducible apply State.setS_keeps | with_reducible apply State.raise_keeps | with_reducible apply State.setB_keeps | with_reducible apply State.lower_keeps | split | dsimp only | fail_if_no_progress with_reducible refine State.keeps_lit ?_ rfl rfl rfl rfl rfl)

theorem State.snapLatch_keeps {s t : State} (h : s.Keeps t) (k : Fin 8) (v : Int) (slot : Nat) : s.Keeps (State.snapLatch t k v slot) := by
  unfold State.snapLatch; try dsimp only
  repeat' (first | with_reducible assumption | intro _ | with_reducible apply State.keeps_ite | with_reducible apply State.keeps_ite₁ | with_reducible apply State.keeps_ite₂ | with_reducible apply State.when_keeps | with_reducible apply State.setB_keeps | with_reducible apply State.setReg_keeps | with_reducible apply State.setF_keeps | split | dsimp only | fail_if_no_progress with_reducible refine State.keeps_lit ?_ rfl rfl rfl rfl rfl)

theorem State.feedWindow_keeps {s t : State} (h : s.Keeps t) (f : Fin 4) (code : BitVec 24) (v : Vector Rat 6) : s.Keeps (State.feedWindow t f code v) := by
  unfold State.feedWindow; try dsimp only
  repeat' (first | with_reducible assumption | intro _ | with_reducible apply State.keeps_ite | with_reducible apply State.keeps_ite₁ | with_reducible apply State.keeps_ite₂ | with_reducible apply State.updFd_keeps | split | dsimp only | fail_if_no_progress with_reducible refine State.keeps_lit ?_ rfl rfl rfl rfl rfl)

theorem telFeed_keeps {s t : State} (h : s.Keeps t) (f : Fin 4) : s.Keeps (telFeed f t) := by
  unfold telFeed; try dsimp only
  repeat' (first | with_reducible assumption | intro _ | with_reducible apply State.keeps_ite | with_reducible apply State.keeps_ite₁ | with_reducible apply State.keeps_ite₂ | with_reducible apply State.setRegs_keeps | with_reducible apply State.holdMax_keeps | with_reducible apply State.holdMin_keeps | with_reducible apply State.updFd_keeps | split | dsimp only | fail_if_no_progress with_reducible refine State.keeps_lit ?_ rfl rfl rfl rfl rfl)

end Sys2Proof.Machine
end

