-- ==== Sys2Proof/Laws/KeepsSeqOps.lean ====
section
/-! SUPPORT. What the operations of Machine/SeqOps.lean leave alone. -/

set_option linter.unusedTactic false
set_option linter.unreachableTactic false

namespace Sys2Proof.Machine

theorem State.evalHdone_keeps {s t : State} (h : s.Keeps t)  : s.Keeps (State.evalHdone t) := by
  unfold State.evalHdone; try dsimp only
  repeat' (first | with_reducible assumption | intro _ | with_reducible apply State.keeps_ite | with_reducible apply State.keeps_ite₁ | with_reducible apply State.keeps_ite₂ | with_reducible apply State.setB_keeps | split | dsimp only | fail_if_no_progress with_reducible refine State.keeps_lit ?_ rfl rfl rfl rfl rfl)

theorem State.evalHdone_moves {s t : State} (h : s.Moves t)  : s.Moves (State.evalHdone t) :=
  h.keeps (State.evalHdone_keeps (State.keeps_refl _))

theorem State.seqDecide_keeps {s t : State} (h : s.Keeps t) (step : Nat) (dir : Nat) (dec : Nat) : s.Keeps (State.seqDecide t step dir dec) := by
  unfold State.seqDecide; try dsimp only
  repeat' (first | with_reducible assumption | intro _ | with_reducible apply State.keeps_ite | with_reducible apply State.keeps_ite₁ | with_reducible apply State.keeps_ite₂ | with_reducible apply State.histAdd_keeps | split | dsimp only | fail_if_no_progress with_reducible refine State.keeps_lit ?_ rfl rfl rfl rfl rfl)

theorem State.seqDecide_moves {s t : State} (h : s.Moves t) (step : Nat) (dir : Nat) (dec : Nat) : s.Moves (State.seqDecide t step dir dec) :=
  h.keeps (State.seqDecide_keeps (State.keeps_refl _) _ _ _)

theorem State.setExt_keeps {s t : State} (h : s.Keeps t) (k : Nat) (b : Bool) : s.Keeps (State.setExt t k b) := by
  unfold State.setExt; try dsimp only
  repeat' (first | with_reducible assumption | intro _ | with_reducible apply State.keeps_ite | with_reducible apply State.keeps_ite₁ | with_reducible apply State.keeps_ite₂ | split | dsimp only | fail_if_no_progress with_reducible refine State.keeps_lit ?_ rfl rfl rfl rfl rfl)

theorem State.stepDown_keeps {s t : State} (h : s.Keeps t) (k : Nat) : s.Keeps (State.stepDown t k) := by
  unfold State.stepDown; try dsimp only
  repeat' (first | with_reducible assumption | intro _ | with_reducible apply State.keeps_ite | with_reducible apply State.keeps_ite₁ | with_reducible apply State.keeps_ite₂ | with_reducible apply State.seqDecide_keeps | with_reducible apply State.setB_keeps | with_reducible apply State.setF_keeps | with_reducible apply State.each_keeps' | with_reducible apply State.clTurnOff_keeps | with_reducible apply State.when_keeps | with_reducible apply State.setExt_keeps | split | dsimp only | fail_if_no_progress with_reducible refine State.keeps_lit ?_ rfl rfl rfl rfl rfl)

theorem State.stepDown_moves {s t : State} (h : s.Moves t) (k : Nat) : s.Moves (State.stepDown t k) :=
  h.keeps (State.stepDown_keeps (State.keeps_refl _) _)

theorem State.stepUp_keeps {s t : State} (h : s.Keeps t) (k : Nat) : s.Keeps (State.stepUp t k) := by
  unfold State.stepUp; try dsimp only
  repeat' (first | with_reducible assumption | intro _ | with_reducible apply State.keeps_ite | with_reducible apply State.keeps_ite₁ | with_reducible apply State.keeps_ite₂ | with_reducible apply State.seqDecide_keeps | with_reducible apply State.setF_keeps | with_reducible apply State.each_keeps' | with_reducible apply State.clStart_keeps | with_reducible apply State.when_keeps | with_reducible apply State.setExt_keeps | split | dsimp only | fail_if_no_progress with_reducible refine State.keeps_lit ?_ rfl rfl rfl rfl rfl)

theorem State.stepUp_moves {s t : State} (h : s.Moves t) (k : Nat) : s.Moves (State.stepUp t k) :=
  h.keeps (State.stepUp_keeps (State.keeps_refl _) _)

theorem State.Moves.sequpEntry {s t : State} (h : s.Moves t) (hn : t.dev ≠ .safe) : s.Moves t.sequpEntry := by
  have h1 := h.enter .sequp (fun x => absurd x hn)
  unfold State.sequpEntry; dsimp only
  repeat' (first | with_reducible assumption | intro _ | with_reducible apply State.moves_ite | with_reducible apply State.moves_ite₁ | with_reducible apply State.stepUp_moves | with_reducible apply State.evalBen_moves | with_reducible apply State.evalFeedSel_moves | with_reducible apply State.setB_moves | with_reducible apply State.setF_moves | with_reducible apply State.each_moves | with_reducible apply State.updCl_moves | with_reducible apply State.setReg_moves | split | dsimp only | fail_if_no_progress with_reducible refine State.moves_lit ?_ rfl rfl rfl rfl rfl)

theorem State.evalStart_moves {s t : State} (h : s.Moves t) : s.Moves t.evalStart := by
  unfold State.evalStart
  split
  · rename_i hc
    exact h.sequpEntry (by simp_all)
  · exact h

theorem State.Moves.seqdnEnd {s t : State} (h : s.Moves t) (hn : t.dev ≠ .safe) : s.Moves t.seqdnEnd := by
  unfold State.seqdnEnd; dsimp only
  refine State.moves_ite (State.evalStart_moves (State.Moves.keeps ?_ (State.setB_keeps (State.keeps_refl _) _ _ _)))
    (State.Moves.keeps ?_ (State.setB_keeps (State.keeps_refl _) _ _ _)) <;>
  · refine State.when_moves (State.Moves.keeps (State.Moves.enter ?_ _ ?_) (State.evalBen_keeps (State.keeps_refl _))) _ ?_
    · repeat' (first | with_reducible assumption | intro _ | with_reducible apply State.moves_ite | with_reducible apply State.moves_ite₁ | with_reducible apply State.setB_moves | with_reducible apply State.allGatesOff_moves | with_reducible apply State.when_moves | split | dsimp only | fail_if_no_progress with_reducible refine State.moves_lit ?_ rfl rfl rfl rfl rfl)
    · refine fun x => absurd ?_ hn
      refine Eq.trans (Eq.symm (State.Keeps.dev (?_ : State.Keeps t _))) x
      have h := State.keeps_refl t
      repeat' (first | with_reducible assumption | intro _ | with_reducible apply State.keeps_ite | with_reducible apply State.keeps_ite₁ | with_reducible apply State.setB_keeps | with_reducible apply State.allGatesOff_keeps | with_reducible apply State.when_keeps | split | dsimp only | fail_if_no_progress with_reducible refine State.keeps_lit ?_ rfl rfl rfl rfl rfl)
    · exact fun {u} k => State.Moves.keeps k (State.setB_keeps (State.keeps_refl _) _ _ _)

theorem State.Moves.seqdnFrom {s t : State} (h : s.Moves t) (hn : t.dev ≠ .safe) (k : Nat) : s.Moves (t.seqdnFrom k) := by
  unfold State.seqdnFrom
  split
  · exact h.keeps (State.stepDown_keeps (State.keeps_refl _) _)
  · exact h.seqdnEnd hn

theorem State.enter_dev (s : State) (d : DevState) : (s.enter d).dev = d := by
  unfold State.enter; dsimp only
  refine Eq.trans (State.Keeps.dev (s := { s.histAdd (histCode 1 (s.dev.code + 16 * d.code)) with dev := d }) ?_) rfl
  refine State.when_keeps (State.when_keeps (State.when_keeps (State.setB_keeps (State.keeps_refl _) _ _ _) _ ?_) _ ?_) _ ?_ <;> intro u h
  · exact State.stopTrains_keeps (State.setB_keeps h _ _ _)
  · exact State.clearRequests_keeps h
  · refine State.setF_keeps ?_ _ _ _
    with_reducible apply State.keeps_lit h <;> rfl

theorem State.Moves.seqdnEntry {s t : State} (h : s.Moves t) (hn : t.dev ≠ .safe) : s.Moves t.seqdnEntry := by
  have h1 : s.Moves (State.enter { t with pins := { t.pins with pwrgd := false } } .seqdn) :=
    State.Moves.enter (by with_reducible apply State.moves_lit h <;> rfl) .seqdn (fun x => absurd x hn)
  have hd := State.enter_dev { t with pins := { t.pins with pwrgd := false } } .seqdn
  unfold State.seqdnEntry; dsimp only
  refine State.Moves.seqdnFrom ?_ ?_ _
  · repeat' (first | with_reducible assumption | intro _ | with_reducible apply State.moves_ite | with_reducible apply State.moves_ite₁ | with_reducible apply State.evalBen_moves | with_reducible apply State.setB_moves | split | dsimp only | fail_if_no_progress with_reducible refine State.moves_lit ?_ rfl rfl rfl rfl rfl)
  · generalize State.enter { t with pins := { t.pins with pwrgd := false } } .seqdn = e at hd ⊢
    refine fun x => absurd (hd.symm.trans ((State.Keeps.dev (?_ : State.Keeps e _)).symm.trans x)) (by decide)
    have h := State.keeps_refl e
    repeat' (first | with_reducible assumption | intro _ | with_reducible apply State.keeps_ite | with_reducible apply State.keeps_ite₁ | with_reducible apply State.evalBen_keeps | with_reducible apply State.setB_keeps | split | dsimp only | fail_if_no_progress with_reducible refine State.keeps_lit ?_ rfl rfl rfl rfl rfl)

theorem State.evalOnreq_moves {s t : State} (h : s.Moves t) : s.Moves t.evalOnreq := by
  unfold State.evalOnreq; dsimp only
  refine State.evalStart_moves (State.when_moves (State.when_moves (State.setB_moves h _ _ _) _ ?_) _ ?_) <;> intro u k <;> split
  · exact State.setB_moves (State.setB_moves k _ _ _) _ _ _
  · rename_i hc
    exact (State.setB_moves k _ _ _).seqdnEntry (by rw [hc]; decide)
  · exact State.setB_moves (State.setB_moves k _ _ _) _ _ _
  · exact State.setB_moves k _ _ _
  · exact State.setB_moves k _ _ _
  · exact State.setB_moves k _ _ _
  · exact k

theorem State.sysfltDrive_keeps {s t : State} (h : s.Keeps t)  : s.Keeps (State.sysfltDrive t) := by
  unfold State.sysfltDrive; try dsimp only
  repeat' (first | with_reducible assumption | intro _ | with_reducible apply State.keeps_ite | with_reducible apply State.keeps_ite₁ | with_reducible apply State.keeps_ite₂ | with_reducible apply State.setB_keeps | split | dsimp only | fail_if_no_progress with_reducible refine State.keeps_lit ?_ rfl rfl rfl rfl rfl)

theorem State.sysfltDrive_moves {s t : State} (h : s.Moves t)  : s.Moves (State.sysfltDrive t) :=
  h.keeps (State.sysfltDrive_keeps (State.keeps_refl _))

theorem State.safeOff_moves {s t : State} (h : s.Moves t) : s.Moves t.safeOff := by
  unfold State.safeOff; dsimp only
  repeat' (first | with_reducible assumption | with_reducible refine State.Moves.enter ?_ _ (fun _ => rfl) | intro _ | with_reducible apply State.moves_ite | with_reducible apply State.moves_ite₁ | with_reducible apply State.each_moves | with_reducible apply State.clOff_moves | with_reducible apply State.updPh_moves | with_reducible apply State.setB_moves | with_reducible apply State.sysfltDrive_moves | split | dsimp only | fail_if_no_progress with_reducible refine State.moves_lit ?_ rfl rfl rfl rfl rfl)

theorem State.packageOff_moves {s t : State} (h : s.Moves t) : s.Moves t.packageOff := by
  unfold State.packageOff
  split
  · rename_i hc
    exact h.seqdnEntry (fun x => by rw [x] at hc; exact absurd hc (by decide))
  · exact h

theorem State.subDown_keeps {s t : State} (h : s.Keeps t) (k : Nat) : s.Keeps (State.subDown t k) := by
  unfold State.subDown; try dsimp only
  repeat' (first | with_reducible assumption | intro _ | with_reducible apply State.keeps_ite | with_reducible apply State.keeps_ite₁ | with_reducible apply State.keeps_ite₂ | with_reducible apply State.seqDecide_keeps | with_reducible apply State.each_keeps' | with_reducible apply State.clTurnOff_keeps | with_reducible apply State.when_keeps | with_reducible apply State.setExt_keeps | split | dsimp only | fail_if_no_progress with_reducible refine State.keeps_lit ?_ rfl rfl rfl rfl rfl)

theorem State.subFrom_keeps {s t : State} (h : s.Keeps t) (k : Nat) : s.Keeps (State.subFrom t k) := by
  unfold State.subFrom; try dsimp only
  repeat' (first | with_reducible assumption | intro _ | with_reducible apply State.keeps_ite | with_reducible apply State.keeps_ite₁ | with_reducible apply State.keeps_ite₂ | with_reducible apply State.subDown_keeps | split | dsimp only | fail_if_no_progress with_reducible refine State.keeps_lit ?_ rfl rfl rfl rfl rfl)

theorem State.subFrom_moves {s t : State} (h : s.Moves t) (k : Nat) : s.Moves (State.subFrom t k) :=
  h.keeps (State.subFrom_keeps (State.keeps_refl _) _)

theorem State.partialOff_keeps {s t : State} (h : s.Keeps t) (ns : List (Fin 16)) (xs : List (Fin 4)) (mark : Bool) : s.Keeps (State.partialOff t ns xs mark) := by
  unfold State.partialOff; try dsimp only
  repeat' (first | with_reducible assumption | intro _ | with_reducible apply State.keeps_ite | with_reducible apply State.keeps_ite₁ | with_reducible apply State.keeps_ite₂ | with_reducible apply State.when_keeps | with_reducible apply State.each_keeps' | with_reducible apply State.updCl_keeps | with_reducible apply State.subFrom_keeps | split | dsimp only | fail_if_no_progress with_reducible refine State.keeps_lit ?_ rfl rfl rfl rfl rfl)

theorem State.partialOff_moves {s t : State} (h : s.Moves t) (ns : List (Fin 16)) (xs : List (Fin 4)) (mark : Bool) : s.Moves (State.partialOff t ns xs mark) :=
  h.keeps (State.partialOff_keeps (State.keeps_refl _) _ _ _)

theorem State.clusterSeqoff_keeps {s t : State} (h : s.Keeps t) (n : Fin 16) (mark : Bool) : s.Keeps (State.clusterSeqoff t n mark) := by
  unfold State.clusterSeqoff; try dsimp only
  repeat' (first | with_reducible assumption | intro _ | with_reducible apply State.keeps_ite | with_reducible apply State.keeps_ite₁ | with_reducible apply State.keeps_ite₂ | with_reducible apply State.partialOff_keeps | split | dsimp only | fail_if_no_progress with_reducible refine State.keeps_lit ?_ rfl rfl rfl rfl rfl)

end Sys2Proof.Machine
end

