-- ==== Sys2Proof/Laws/KeepsSequencer.lean ====
section
/-! SUPPORT. What the operations of Machine/Sequencer.lean leave alone. -/

set_option linter.unusedTactic false
set_option linter.unreachableTactic false

namespace Sys2Proof.Machine

theorem State.seqRefuse_keeps {s t : State} (h : s.Keeps t) (code : Nat) : s.Keeps (State.seqRefuse t code).1 := by
  unfold State.seqRefuse; try dsimp only
  repeat' (first | with_reducible assumption | intro _ | with_reducible apply State.keeps_ite | with_reducible apply State.keeps_ite₁ | with_reducible apply State.keeps_ite₂ | with_reducible apply State.setB_keeps | split | dsimp only | fail_if_no_progress with_reducible refine State.keeps_lit ?_ rfl rfl rfl rfl rfl)

theorem State.seqRefuse_moves {s t : State} (h : s.Moves t) (code : Nat) : s.Moves (State.seqRefuse t code).1 :=
  h.keeps (State.seqRefuse_keeps (State.keeps_refl _) _)

theorem seqSfpulse_keeps {s t : State} (h : s.Keeps t) (confirm : BitVec 16) : s.Keeps (seqSfpulse confirm t).1 := by
  unfold seqSfpulse; try dsimp only
  repeat' (first | with_reducible assumption | intro _ | with_reducible apply State.keeps_ite | with_reducible apply State.keeps_ite₁ | with_reducible apply State.keeps_ite₂ | with_reducible apply State.seqRefuse_keeps | with_reducible apply State.sysfltDrive_keeps | with_reducible apply State.accepted_keeps | split | dsimp only | fail_if_no_progress with_reducible refine State.keeps_lit ?_ rfl rfl rfl rfl rfl)

theorem State.sample_keeps {s t : State} (h : s.Keeps t) (inwin : BitVec 16) (below : BitVec 16) (pgin : BitVec 8) : s.Keeps (State.sample t inwin below pgin) := by
  unfold State.sample; try dsimp only
  repeat' (first | with_reducible assumption | intro _ | with_reducible apply State.keeps_ite | with_reducible apply State.keeps_ite₁ | with_reducible apply State.keeps_ite₂ | with_reducible apply State.each_keeps' | with_reducible apply State.setB_keeps | split | dsimp only | fail_if_no_progress with_reducible refine State.keeps_lit ?_ rfl rfl rfl rfl rfl)

theorem State.sample_moves {s t : State} (h : s.Moves t) (inwin : BitVec 16) (below : BitVec 16) (pgin : BitVec 8) : s.Moves (State.sample t inwin below pgin) :=
  h.keeps (State.sample_keeps (State.keeps_refl _) _ _ _)

theorem State.Keeps.notSafe {s t : State} (k : s.Keeps t) (h : s.dev ≠ .safe) : t.dev ≠ .safe := fun x => h (k.dev.symm.trans x)

theorem State.Moves.nextUp {s t : State} (h : s.Moves t) (hn : t.dev ≠ .safe) (k : Nat) : s.Moves (t.nextUp k) := by
  unfold State.nextUp; dsimp only
  refine State.moves_ite (h.seqdnEntry hn) (State.moves_ite (State.stepUp_moves h _) (State.evalBen_moves (State.evalPwrgd_moves ?_)))
  with_reducible refine State.moves_lit ?_ rfl rfl rfl rfl rfl
  refine State.Moves.enter (State.setB_moves ?_ _ _ _) _ (fun x => absurd x hn)
  with_reducible apply State.moves_lit h <;> rfl

theorem State.Moves.nextDown {s t : State} (h : s.Moves t) (hn : t.dev ≠ .safe) (k : Nat) : s.Moves (t.nextDown k) := by
  have h1 : s.Moves { t with seq := { t.seq with stepOpen := false } } := by with_reducible apply State.moves_lit h <;> rfl
  exact State.moves_ite (h1.seqdnEnd hn) (h1.seqdnFrom hn _)

theorem State.stepComplete_moves {s t : State} (h : s.Moves t) : s.Moves t.stepComplete := by
  unfold State.stepComplete; dsimp only
  split
  · rename_i hc
    refine State.moves_ite ?_ h
    have k : t.Keeps (t.seqDecide (t.f F.SEQ_STAT_STEP) 0 2) := State.seqDecide_keeps (State.keeps_refl t) _ _ _
    exact (h.keeps k).nextUp (k.notSafe (by rw [hc]; decide)) _
  · rename_i hc
    refine State.moves_ite ?_ h
    have k : t.Keeps ((t.seqDecide (t.f F.SEQ_STAT_STEP) 1 2).setB F.SEQ_STAT_HELD 0 false) :=
      State.setB_keeps (State.seqDecide_keeps (State.keeps_refl t) _ _ _) _ _ _
    exact (h.keeps k).nextDown (k.notSafe (by rw [hc]; decide)) _
  · exact h

theorem seqForce_moves {s t : State} (h : s.Moves t) (confirm : BitVec 16) : s.Moves (seqForce confirm t).1 := by
  have k : t.Keeps ((t.accepted 0x2203 1).setB F.SEQ_STAT_HELD 0 false) :=
    State.setB_keeps (State.accepted_keeps (State.keeps_refl t) _ _) _ _ _
  unfold seqForce; dsimp only
  refine State.moves_ite₁ (h.keeps (State.seqRefuse_keeps (State.keeps_refl t) _))
    (State.moves_ite₁ (h.keeps (State.seqRefuse_keeps (State.keeps_refl t) _)) ?_)
  generalize (t.accepted 0x2203 1).setB F.SEQ_STAT_HELD 0 false = u at k ⊢
  split
  · exact (h.keeps k).keeps (State.subFrom_keeps (State.seqDecide_keeps (State.keeps_refl u) _ _ _) _)
  · dsimp only
    split
    · rename_i hc
      have k2 : u.Keeps (u.seqDecide (u.f F.SEQ_STAT_STEP) 1 4) := State.seqDecide_keeps (State.keeps_refl u) _ _ _
      exact ((h.keeps k).keeps k2).nextDown (k2.notSafe (fun x => by rw [x] at hc; exact absurd hc (by decide))) _
    · exact h.keeps k

theorem State.winFault_keeps {s t : State} (h : s.Keeps t) (n : Fin 16) (flag : Fld) (src : Nat) : s.Keeps (State.winFault t n flag src) := by
  unfold State.winFault; try dsimp only
  repeat' (first | with_reducible assumption | intro _ | with_reducible apply State.keeps_ite | with_reducible apply State.keeps_ite₁ | with_reducible apply State.keeps_ite₂ | with_reducible apply State.when_keeps | with_reducible apply State.setB_keeps | with_reducible apply State.evalPwrgd_keeps | with_reducible apply State.raise_keeps | split | dsimp only | fail_if_no_progress with_reducible refine State.keeps_lit ?_ rfl rfl rfl rfl rfl)

theorem State.lineHigh_moves {s t : State} (h : s.Moves t)  : s.Moves (State.lineHigh t) := by
  unfold State.lineHigh; try dsimp only
  repeat' (first | with_reducible assumption | intro _ | with_reducible apply State.moves_ite | with_reducible apply State.moves_ite₁ | with_reducible apply State.evalStart_moves | with_reducible apply State.lower_moves | with_reducible apply State.setB_moves | split | dsimp only | fail_if_no_progress with_reducible refine State.moves_lit ?_ rfl rfl rfl rfl rfl)

theorem State.subComplete_keeps {s t : State} (h : s.Keeps t)  : s.Keeps (State.subComplete t) := by
  unfold State.subComplete; try dsimp only
  repeat' (first | with_reducible assumption | intro _ | with_reducible apply State.keeps_ite | with_reducible apply State.keeps_ite₁ | with_reducible apply State.keeps_ite₂ | with_reducible apply State.subFrom_keeps | with_reducible apply State.setB_keeps | with_reducible apply State.seqDecide_keeps | split | dsimp only | fail_if_no_progress with_reducible refine State.keeps_lit ?_ rfl rfl rfl rfl rfl)

theorem State.subComplete_moves {s t : State} (h : s.Moves t)  : s.Moves (State.subComplete t) :=
  h.keeps (State.subComplete_keeps (State.keeps_refl _))

theorem State.forceOn_keeps {s t : State} (h : s.Keeps t) (k : Nat) (dir : Nat) : s.Keeps (State.forceOn t k dir) := by
  unfold State.forceOn; try dsimp only
  repeat' (first | with_reducible assumption | intro _ | with_reducible apply State.keeps_ite | with_reducible apply State.keeps_ite₁ | with_reducible apply State.keeps_ite₂ | with_reducible apply State.seqDecide_keeps | with_reducible apply State.setB_keeps | split | dsimp only | fail_if_no_progress with_reducible refine State.keeps_lit ?_ rfl rfl rfl rfl rfl)

theorem State.forceOn_moves {s t : State} (h : s.Moves t) (k : Nat) (dir : Nat) : s.Moves (State.forceOn t k dir) :=
  h.keeps (State.forceOn_keeps (State.keeps_refl _) _ _)

end Sys2Proof.Machine
end

