-- ==== Sys2Proof/Laws/KeepsBattery.lean ====
section
/-! SUPPORT. What the operations of Machine/Battery.lean leave alone. -/

set_option linter.unusedTactic false
set_option linter.unreachableTactic false

namespace Sys2Proof.Machine

theorem State.estFilter_keeps {s t : State} (h : s.Keeps t) (i : Fin 6) (amps : Rat) (volts : Rat) (temp : Rat) : s.Keeps (State.estFilter t i amps volts temp) := by
  unfold State.estFilter; try dsimp only
  repeat' (first | with_reducible assumption | intro _ | with_reducible apply State.keeps_ite | with_reducible apply State.keeps_ite₁ | with_reducible apply State.keeps_ite₂ | with_reducible apply State.updBat_keeps | split | dsimp only | fail_if_no_progress with_reducible refine State.keeps_lit ?_ rfl rfl rfl rfl rfl)

theorem State.topOfCharge_keeps {s t : State} (h : s.Keeps t) (i : Fin 6) (amps : Rat) (vmax : Rat) : s.Keeps (State.topOfCharge t i amps vmax).1 := by
  unfold State.topOfCharge; try dsimp only
  repeat' (first | with_reducible assumption | intro _ | with_reducible apply State.keeps_ite | with_reducible apply State.keeps_ite₁ | with_reducible apply State.keeps_ite₂ | with_reducible apply State.updBat_keeps | split | dsimp only | fail_if_no_progress with_reducible refine State.keeps_lit ?_ rfl rfl rfl rfl rfl)

theorem State.setRest_keeps {s t : State} (h : s.Keeps t) (i : Fin 6) (on : Bool) : s.Keeps (State.setRest t i on) := by
  unfold State.setRest; try dsimp only
  repeat' (first | with_reducible assumption | intro _ | with_reducible apply State.keeps_ite | with_reducible apply State.keeps_ite₁ | with_reducible apply State.keeps_ite₂ | with_reducible apply State.evalBen_keeps | with_reducible apply State.setB_keeps | split | dsimp only | fail_if_no_progress with_reducible refine State.keeps_lit ?_ rfl rfl rfl rfl rfl)

theorem batRest_keeps {s t : State} (h : s.Keeps t) (i : Fin 6) (on : Bool) : s.Keeps (batRest i on t).1 := by
  unfold batRest; try dsimp only
  repeat' (first | with_reducible assumption | intro _ | with_reducible apply State.keeps_ite | with_reducible apply State.keeps_ite₁ | with_reducible apply State.keeps_ite₂ | with_reducible apply State.setRest_keeps | split | dsimp only | fail_if_no_progress with_reducible refine State.keeps_lit ?_ rfl rfl rfl rfl rfl)

theorem State.applyRestore_keeps {s t : State} (h : s.Keeps t) (i : Fin 6) : s.Keeps (State.applyRestore t i) := by
  unfold State.applyRestore; try dsimp only
  repeat' (first | with_reducible assumption | intro _ | with_reducible apply State.keeps_ite | with_reducible apply State.keeps_ite₁ | with_reducible apply State.keeps_ite₂ | with_reducible apply State.setF_keeps | with_reducible apply State.updBat_keeps | with_reducible apply State.setB_keeps | split | dsimp only | fail_if_no_progress with_reducible refine State.keeps_lit ?_ rfl rfl rfl rfl rfl)

theorem State.learnEnd_keeps {s t : State} (h : s.Keeps t) (i : Fin 6) (z1 : Rat) : s.Keeps (State.learnEnd t i z1) := by
  unfold State.learnEnd; try dsimp only
  repeat' (first | with_reducible assumption | intro _ | with_reducible apply State.keeps_ite | with_reducible apply State.keeps_ite₁ | with_reducible apply State.keeps_ite₂ | with_reducible apply State.incF_keeps | with_reducible apply State.updBat_keeps | with_reducible apply State.setF_keeps | split | dsimp only | fail_if_no_progress with_reducible refine State.keeps_lit ?_ rfl rfl rfl rfl rfl)

theorem State.refPoint_keeps {s t : State} (h : s.Keeps t) (i : Fin 6) (kind : Nat) (z : Rat) (var : Rat) : s.Keeps (State.refPoint t i kind z var) := by
  unfold State.refPoint; try dsimp only
  repeat' (first | with_reducible assumption | intro _ | with_reducible apply State.keeps_ite | with_reducible apply State.keeps_ite₁ | with_reducible apply State.keeps_ite₂ | with_reducible apply State.learnEnd_keeps | with_reducible apply State.updBat_keeps | with_reducible apply State.setF_keeps | with_reducible apply State.lower_keeps | with_reducible apply State.setB_keeps | split | dsimp only | fail_if_no_progress with_reducible refine State.keeps_lit ?_ rfl rfl rfl rfl rfl)

theorem batRestore_keeps {s t : State} (h : s.Keeps t) (i : Fin 6) : s.Keeps (batRestore i t).1 := by
  unfold batRestore; try dsimp only
  repeat' (first | with_reducible assumption | intro _ | with_reducible apply State.keeps_ite | with_reducible apply State.keeps_ite₁ | with_reducible apply State.keeps_ite₂ | with_reducible apply State.updBat_keeps | with_reducible apply State.setF_keeps | split | dsimp only | fail_if_no_progress with_reducible refine State.keeps_lit ?_ rfl rfl rfl rfl rfl)

theorem batSnap_keeps {s t : State} (h : s.Keeps t) (i : Fin 6) : s.Keeps (batSnap i t).1 := by
  unfold batSnap; try dsimp only
  repeat' (first | with_reducible assumption | intro _ | with_reducible apply State.keeps_ite | with_reducible apply State.keeps_ite₁ | with_reducible apply State.keeps_ite₂ | with_reducible apply State.setRegs_keeps | split | dsimp only | fail_if_no_progress with_reducible refine State.keeps_lit ?_ rfl rfl rfl rfl rfl)

theorem State.refAge_keeps {s t : State} (h : s.Keeps t) (i : Fin 6) : s.Keeps (State.refAge t i) := by
  unfold State.refAge; try dsimp only
  repeat' (first | with_reducible assumption | intro _ | with_reducible apply State.keeps_ite | with_reducible apply State.keeps_ite₁ | with_reducible apply State.keeps_ite₂ | with_reducible apply State.updBat_keeps | with_reducible apply State.setF_keeps | with_reducible apply State.raise_keeps | with_reducible apply State.setB_keeps | split | dsimp only | fail_if_no_progress with_reducible refine State.keeps_lit ?_ rfl rfl rfl rfl rfl)

theorem State.showBat_keeps {s t : State} (h : s.Keeps t) (i : Fin 6) (range : Rat × Rat) : s.Keeps (State.showBat t i range) := by
  unfold State.showBat; try dsimp only
  repeat' (first | with_reducible assumption | intro _ | with_reducible apply State.keeps_ite | with_reducible apply State.keeps_ite₁ | with_reducible apply State.keeps_ite₂ | with_reducible apply State.setF_keeps | with_reducible apply State.setS_keeps | split | dsimp only | fail_if_no_progress with_reducible refine State.keeps_lit ?_ rfl rfl rfl rfl rfl)

theorem State.critRecord_keeps {s t : State} (h : s.Keeps t) (i : Fin 6) (src : Nat) (amps : Rat) (volts : Rat) (vmin : Rat) : s.Keeps (State.critRecord t i src amps volts vmin) := by
  unfold State.critRecord; try dsimp only
  repeat' (first | with_reducible assumption | intro _ | with_reducible apply State.keeps_ite | with_reducible apply State.keeps_ite₁ | with_reducible apply State.keeps_ite₂ | with_reducible apply State.recordSrc_keeps | split | dsimp only | fail_if_no_progress with_reducible refine State.keeps_lit ?_ rfl rfl rfl rfl rfl)

theorem batUvclr_keeps {s t : State} (h : s.Keeps t) (i : Fin 6) : s.Keeps (batUvclr i t).1 := by
  unfold batUvclr; try dsimp only
  repeat' (first | with_reducible assumption | intro _ | with_reducible apply State.keeps_ite | with_reducible apply State.keeps_ite₁ | with_reducible apply State.keeps_ite₂ | with_reducible apply State.evalBen_keeps | with_reducible apply State.lower_keeps | with_reducible apply State.setB_keeps | split | dsimp only | fail_if_no_progress with_reducible refine State.keeps_lit ?_ rfl rfl rfl rfl rfl)

theorem State.criteria_keeps {s t : State} (h : s.Keeps t) (i : Fin 6) (amps : Rat) (volts : Rat) (vmin : Rat) : s.Keeps (State.criteria t i amps volts vmin) := by
  unfold State.criteria; try dsimp only
  repeat' (first | with_reducible assumption | intro _ | with_reducible apply State.keeps_ite | with_reducible apply State.keeps_ite₁ | with_reducible apply State.keeps_ite₂ | with_reducible apply State.updBat_keeps | with_reducible apply State.raise_keeps | with_reducible apply State.setB_keeps | with_reducible apply State.critRecord_keeps | split | dsimp only | fail_if_no_progress with_reducible refine State.keeps_lit ?_ rfl rfl rfl rfl rfl)

theorem State.evalHot_keeps {s t : State} (h : s.Keeps t) (i : Fin 6) : s.Keeps (State.evalHot t i) := by
  unfold State.evalHot; try dsimp only
  repeat' (first | with_reducible assumption | intro _ | with_reducible apply State.keeps_ite | with_reducible apply State.keeps_ite₁ | with_reducible apply State.keeps_ite₂ | with_reducible apply State.updBat_keeps | with_reducible apply State.evalBen_keeps | with_reducible apply State.follow_keeps | split | dsimp only | fail_if_no_progress with_reducible refine State.keeps_lit ?_ rfl rfl rfl rfl rfl)

end Sys2Proof.Machine
end

