-- ==== Sys2Proof/Laws/KeepsOwlOps.lean ====
section
/-! SUPPORT. What the operations of Machine/OwlOps.lean leave alone. -/

set_option linter.unusedTactic false
set_option linter.unreachableTactic false

namespace Sys2Proof.Machine

theorem State.snapTrigger_keeps {s t : State} (h : s.Keeps t) (trig : Nat) : s.Keeps (State.snapTrigger t trig) := by
  unfold State.snapTrigger; try dsimp only
  repeat' (first | with_reducible assumption | intro _ | with_reducible apply State.keeps_ite | with_reducible apply State.keeps_ite₁ | with_reducible apply State.keeps_ite₂ | with_reducible apply State.incF_keeps | with_reducible apply State.setB_keeps | split | dsimp only | fail_if_no_progress with_reducible refine State.keeps_lit ?_ rfl rfl rfl rfl rfl)

end Sys2Proof.Machine
end

