-- ==== Sys2Proof/Laws/KeepsSupervisor.lean ====
section
/-! SUPPORT. What the operations of Machine/Supervisor.lean leave alone. -/

set_option linter.unusedTactic false
set_option linter.unreachableTactic false

namespace Sys2Proof.Machine

theorem State.holdCap_keeps {s t : State} (h : s.Keeps t) (rs : List Raise) : s.Keeps (State.holdCap t rs) := by
  unfold State.holdCap; try dsimp only
  repeat' (first | with_reducible assumption | intro _ | with_reducible apply State.keeps_ite | with_reducible apply State.keeps_ite₁ | with_reducible apply State.keeps_ite₂ | split | dsimp only | fail_if_no_progress with_reducible refine State.keeps_lit ?_ rfl rfl rfl rfl rfl)

theorem State.holdCap_moves {s t : State} (h : s.Moves t) (rs : List Raise) : s.Moves (State.holdCap t rs) :=
  h.keeps (State.holdCap_keeps (State.keeps_refl _) _)

theorem State.ffMerge_keeps {s t : State} (h : s.Keeps t) (r : Raise) : s.Keeps (State.ffMerge t r) := by
  unfold State.ffMerge; try dsimp only
  repeat' (first | with_reducible assumption | intro _ | with_reducible apply State.keeps_ite | with_reducible apply State.keeps_ite₁ | with_reducible apply State.keeps_ite₂ | with_reducible apply State.incF_keeps | with_reducible apply State.setFBit_keeps | with_reducible apply State.setB_keeps | with_reducible apply State.when_keeps | with_reducible apply State.setF_keeps | split | dsimp only | fail_if_no_progress with_reducible refine State.keeps_lit ?_ rfl rfl rfl rfl rfl)

theorem State.ffOpen_keeps {s t : State} (h : s.Keeps t) (r : Raise) (acts : Nat) : s.Keeps (State.ffOpen t r acts) := by
  unfold State.ffOpen; try dsimp only
  repeat' (first | with_reducible assumption | intro _ | with_reducible apply State.keeps_ite | with_reducible apply State.keeps_ite₁ | with_reducible apply State.keeps_ite₂ | with_reducible apply State.setRegs_keeps | with_reducible apply State.setReg_keeps | with_reducible apply State.setB_keeps | with_reducible apply State.setF_keeps | with_reducible apply State.when_keeps | with_reducible apply State.snapTrigger_keeps | with_reducible apply State.record_keeps | split | dsimp only | fail_if_no_progress with_reducible refine State.keeps_lit ?_ rfl rfl rfl rfl rfl)

theorem State.takeRaise_keeps {s t : State} (h : s.Keeps t) (r : Raise) : s.Keeps (State.takeRaise t r) := by
  unfold State.takeRaise; try dsimp only
  repeat' (first | with_reducible assumption | intro _ | with_reducible apply State.keeps_ite | with_reducible apply State.keeps_ite₁ | with_reducible apply State.keeps_ite₂ | with_reducible apply State.histAdd_keeps | with_reducible apply State.ffMerge_keeps | with_reducible apply State.ffOpen_keeps | with_reducible apply State.when_keeps | with_reducible apply State.recordSrc_keeps | with_reducible apply State.setB_keeps | split | dsimp only | fail_if_no_progress with_reducible refine State.keeps_lit ?_ rfl rfl rfl rfl rfl)

theorem State.takeRaise_moves {s t : State} (h : s.Moves t) (r : Raise) : s.Moves (State.takeRaise t r) :=
  h.keeps (State.takeRaise_keeps (State.keeps_refl _) _)

theorem State.doSeqoff_moves {s t : State} (h : s.Moves t) (ts : List Nat) : s.Moves (State.doSeqoff t ts) := by
  unfold State.doSeqoff; try dsimp only
  repeat' (first | with_reducible assumption | intro _ | with_reducible apply State.moves_ite | with_reducible apply State.moves_ite₁ | with_reducible apply State.packageOff_moves | with_reducible apply State.each_moves | with_reducible apply State.injAbort_moves | with_reducible apply State.partialOff_moves | split | dsimp only | fail_if_no_progress with_reducible refine State.moves_lit ?_ rfl rfl rfl rfl rfl)

theorem State.shedCluster_keeps {s t : State} (h : s.Keeps t) (n : Fin 16) : s.Keeps (State.shedCluster t n) := by
  unfold State.shedCluster; try dsimp only
  repeat' (first | with_reducible assumption | intro _ | with_reducible apply State.keeps_ite | with_reducible apply State.keeps_ite₁ | with_reducible apply State.keeps_ite₂ | with_reducible apply State.setFBit_keeps | with_reducible apply State.clTurnOff_keeps | split | dsimp only | fail_if_no_progress with_reducible refine State.keeps_lit ?_ rfl rfl rfl rfl rfl)

theorem State.doShed_keeps {s t : State} (h : s.Keeps t) (ts : List Nat) : s.Keeps (State.doShed t ts) := by
  unfold State.doShed; try dsimp only
  repeat' (first | with_reducible assumption | intro _ | with_reducible apply State.keeps_ite | with_reducible apply State.keeps_ite₁ | with_reducible apply State.keeps_ite₂ | with_reducible apply State.each_keeps' | with_reducible apply State.shedCluster_keeps | with_reducible apply State.shedPhase_keeps | split | dsimp only | fail_if_no_progress with_reducible refine State.keeps_lit ?_ rfl rfl rfl rfl rfl)

theorem State.doShed_moves {s t : State} (h : s.Moves t) (ts : List Nat) : s.Moves (State.doShed t ts) :=
  h.keeps (State.doShed_keeps (State.keeps_refl _) _)

theorem State.doCloff_keeps {s t : State} (h : s.Keeps t) (ts : List Nat) : s.Keeps (State.doCloff t ts) := by
  unfold State.doCloff; try dsimp only
  repeat' (first | with_reducible assumption | intro _ | with_reducible apply State.keeps_ite | with_reducible apply State.keeps_ite₁ | with_reducible apply State.keeps_ite₂ | with_reducible apply State.each_keeps' | with_reducible apply State.clCloff_keeps | split | dsimp only | fail_if_no_progress with_reducible refine State.keeps_lit ?_ rfl rfl rfl rfl rfl)

theorem State.doCloff_moves {s t : State} (h : s.Moves t) (ts : List Nat) : s.Moves (State.doCloff t ts) :=
  h.keeps (State.doCloff_keeps (State.keeps_refl _) _)

theorem State.carryOut_moves {s t : State} (h : s.Moves t) (acts : Vector (BitVec 69) 6) : s.Moves (State.carryOut t acts) := by
  unfold State.carryOut; try dsimp only
  repeat' (first | with_reducible assumption | intro _ | with_reducible apply State.moves_ite | with_reducible apply State.moves_ite₁ | with_reducible apply State.when_moves | with_reducible apply State.sysfltDrive_moves | with_reducible apply State.safeOff_moves | with_reducible apply State.doSeqoff_moves | with_reducible apply State.doShed_moves | with_reducible apply State.doCloff_moves | split | dsimp only | fail_if_no_progress with_reducible refine State.moves_lit ?_ rfl rfl rfl rfl rfl)

theorem State.disagree_moves {s t : State} (h : s.Moves t)  : s.Moves (State.disagree t) := by
  unfold State.disagree; try dsimp only
  repeat' (first | with_reducible assumption | intro _ | with_reducible apply State.moves_ite | with_reducible apply State.moves_ite₁ | with_reducible apply State.safeOff_moves | with_reducible apply State.raise_moves | split | dsimp only | fail_if_no_progress with_reducible refine State.moves_lit ?_ rfl rfl rfl rfl rfl)

theorem State.judgeChannels_moves {s t : State} (h : s.Moves t) (acts : Vector (BitVec 69) 6) (dec : BitVec 9) : s.Moves (State.judgeChannels t acts dec) := by
  unfold State.judgeChannels; try dsimp only
  repeat' (first | with_reducible assumption | intro _ | with_reducible apply State.moves_ite | with_reducible apply State.moves_ite₁ | with_reducible apply State.each_moves | with_reducible apply State.when_moves | with_reducible apply State.incF_moves | with_reducible apply State.setB_moves | with_reducible apply State.setFBit_moves | with_reducible apply State.raise_moves | with_reducible apply State.histAdd_moves | with_reducible apply State.disagree_moves | split | dsimp only | fail_if_no_progress with_reducible refine State.moves_lit ?_ rfl rfl rfl rfl rfl)

theorem voteWindowClose_moves {s t : State} (h : s.Moves t)  : s.Moves (voteWindowClose t) := by
  unfold voteWindowClose; try dsimp only
  repeat' (first | with_reducible assumption | intro _ | with_reducible apply State.moves_ite | with_reducible apply State.moves_ite₁ | with_reducible apply State.holdCap_moves | with_reducible apply State.when_moves | with_reducible apply State.each_moves | with_reducible apply State.takeRaise_moves | with_reducible apply State.carryOut_moves | with_reducible apply State.disagree_moves | with_reducible apply State.judgeChannels_moves | with_reducible apply State.setSrcBit_moves | with_reducible apply State.evalAlert_moves | with_reducible apply State.evalHdone_moves | split | dsimp only | fail_if_no_progress with_reducible refine State.moves_lit ?_ rfl rfl rfl rfl rfl)

theorem State.supvRefuse_keeps {s t : State} (h : s.Keeps t) (code : Nat) : s.Keeps (State.supvRefuse t code).1 := by
  unfold State.supvRefuse; try dsimp only
  repeat' (first | with_reducible assumption | intro _ | with_reducible apply State.keeps_ite | with_reducible apply State.keeps_ite₁ | with_reducible apply State.keeps_ite₂ | with_reducible apply State.setB_keeps | split | dsimp only | fail_if_no_progress with_reducible refine State.keeps_lit ?_ rfl rfl rfl rfl rfl)

theorem supvAck_keeps {s t : State} (h : s.Keeps t) (confirm : BitVec 16) : s.Keeps (supvAck confirm t).1 := by
  unfold supvAck; try dsimp only
  repeat' (first | with_reducible assumption | intro _ | with_reducible apply State.keeps_ite | with_reducible apply State.keeps_ite₁ | with_reducible apply State.keeps_ite₂ | with_reducible apply State.evalHdone_keeps | with_reducible apply State.supvRefuse_keeps | with_reducible apply State.setB_keeps | with_reducible apply State.accepted_keeps | with_reducible apply State.record_keeps | split | dsimp only | fail_if_no_progress with_reducible refine State.keeps_lit ?_ rfl rfl rfl rfl rfl)

theorem State.wirePair_moves {s t : State} (h : s.Moves t) (pair : Nat) : s.Moves (State.wirePair t pair) := by
  unfold State.wirePair; try dsimp only
  repeat' (first | with_reducible assumption | intro _ | with_reducible apply State.moves_ite | with_reducible apply State.moves_ite₁ | with_reducible apply State.raise_moves | with_reducible apply State.safeOff_moves | split | dsimp only | fail_if_no_progress with_reducible refine State.moves_lit ?_ rfl rfl rfl rfl rfl)

theorem State.evalBound_keeps {s t : State} (h : s.Keeps t)  : s.Keeps (State.evalBound t) := by
  unfold State.evalBound; try dsimp only
  repeat' (first | with_reducible assumption | intro _ | with_reducible apply State.keeps_ite | with_reducible apply State.keeps_ite₁ | with_reducible apply State.keeps_ite₂ | with_reducible apply State.each_keeps' | with_reducible apply State.follow_keeps | with_reducible apply State.when_keeps | with_reducible apply State.setB_keeps | split | dsimp only | fail_if_no_progress with_reducible refine State.keeps_lit ?_ rfl rfl rfl rfl rfl)

theorem supvSafe_keeps {s t : State} (h : s.Keeps t) (confirm : BitVec 16) : s.Keeps (supvSafe confirm t).1 := by
  unfold supvSafe; try dsimp only
  repeat' (first | with_reducible assumption | intro _ | with_reducible apply State.keeps_ite | with_reducible apply State.keeps_ite₁ | with_reducible apply State.keeps_ite₂ | with_reducible apply State.supvRefuse_keeps | with_reducible apply State.raise_keeps | with_reducible apply State.accepted_keeps | split | dsimp only | fail_if_no_progress with_reducible refine State.keeps_lit ?_ rfl rfl rfl rfl rfl)

end Sys2Proof.Machine
end

