-- ==== Sys2Proof/Laws/KeepsFeeds.lean ====
section
/-! SUPPORT. What the operations of Machine/Feeds.lean leave alone. -/

set_option linter.unusedTactic false
set_option linter.unreachableTactic false

namespace Sys2Proof.Machine

theorem State.applyPin_keeps {s t : State} (h : s.Keeps t) (pin : Nat) : s.Keeps (State.applyPin t pin) := by
  unfold State.applyPin; try dsimp only
  repeat' (first | with_reducible assumption | intro _ | with_reducible apply State.keeps_ite | with_reducible apply State.keeps_ite₁ | with_reducible apply State.keeps_ite₂ | with_reducible apply State.setF_keeps | with_reducible apply State.startTransfer_keeps | with_reducible apply State.evalFeedSel_keeps | split | dsimp only | fail_if_no_progress with_reducible refine State.keeps_lit ?_ rfl rfl rfl rfl rfl)

theorem State.unseatStart_keeps {s t : State} (h : s.Keeps t)  : s.Keeps (State.unseatStart t) := by
  unfold State.unseatStart; try dsimp only
  repeat' (first | with_reducible assumption | intro _ | with_reducible apply State.keeps_ite | with_reducible apply State.keeps_ite₁ | with_reducible apply State.keeps_ite₂ | with_reducible apply State.startTransfer_keeps | split | dsimp only | fail_if_no_progress with_reducible refine State.keeps_lit ?_ rfl rfl rfl rfl rfl)

theorem State.unseatStart_moves {s t : State} (h : s.Moves t)  : s.Moves (State.unseatStart t) :=
  h.keeps (State.unseatStart_keeps (State.keeps_refl _))

theorem State.releaseB3_keeps {s t : State} (h : s.Keeps t)  : s.Keeps (State.releaseB3 t) := by
  unfold State.releaseB3; try dsimp only
  repeat' (first | with_reducible assumption | intro _ | with_reducible apply State.keeps_ite | with_reducible apply State.keeps_ite₁ | with_reducible apply State.keeps_ite₂ | with_reducible apply State.each_keeps' | with_reducible apply State.updCl_keeps | with_reducible apply State.clStart_keeps | split | dsimp only | fail_if_no_progress with_reducible refine State.keeps_lit ?_ rfl rfl rfl rfl rfl)

theorem State.leaveFeed_keeps {s t : State} (h : s.Keeps t) (f : Fin 3) : s.Keeps (State.leaveFeed t f) := by
  unfold State.leaveFeed; try dsimp only
  repeat' (first | with_reducible assumption | intro _ | with_reducible apply State.keeps_ite | with_reducible apply State.keeps_ite₁ | with_reducible apply State.keeps_ite₂ | with_reducible apply State.startTransfer_keeps | split | dsimp only | fail_if_no_progress with_reducible refine State.keeps_lit ?_ rfl rfl rfl rfl rfl)

theorem State.returnTo_keeps {s t : State} (h : s.Keeps t) (f : Fin 3) : s.Keeps (State.returnTo t f) := by
  unfold State.returnTo; try dsimp only
  repeat' (first | with_reducible assumption | intro _ | with_reducible apply State.keeps_ite | with_reducible apply State.keeps_ite₁ | with_reducible apply State.keeps_ite₂ | with_reducible apply State.startTransfer_keeps | split | dsimp only | fail_if_no_progress with_reducible refine State.keeps_lit ?_ rfl rfl rfl rfl rfl)

theorem State.afterTransfer_keeps {s t : State} (h : s.Keeps t)  : s.Keeps (State.afterTransfer t) := by
  unfold State.afterTransfer; try dsimp only
  repeat' (first | with_reducible assumption | intro _ | with_reducible apply State.keeps_ite | with_reducible apply State.keeps_ite₁ | with_reducible apply State.keeps_ite₂ | with_reducible apply State.leaveFeed_keeps | with_reducible apply State.returnTo_keeps | with_reducible apply State.applyPin_keeps | split | dsimp only | fail_if_no_progress with_reducible refine State.keeps_lit ?_ rfl rfl rfl rfl rfl)

theorem State.conductNow_keeps {s t : State} (h : s.Keeps t) (f : Fin 3) : s.Keeps (State.conductNow t f) := by
  unfold State.conductNow; try dsimp only
  repeat' (first | with_reducible assumption | intro _ | with_reducible apply State.keeps_ite | with_reducible apply State.keeps_ite₁ | with_reducible apply State.keeps_ite₂ | with_reducible apply State.setB_keeps | with_reducible apply State.setGate_keeps | with_reducible apply State.when_keeps | with_reducible apply State.setF_keeps | with_reducible apply State.evalBen_keeps | with_reducible apply State.evalHold_keeps | split | dsimp only | fail_if_no_progress with_reducible refine State.keeps_lit ?_ rfl rfl rfl rfl rfl)

theorem inpToggle_moves {s t : State} (h : s.Moves t) (confirm : BitVec 16) : s.Moves (inpToggle confirm t).1 := by
  unfold inpToggle; try dsimp only
  repeat' (first | with_reducible assumption | intro _ | with_reducible apply State.moves_ite | with_reducible apply State.moves_ite₁ | with_reducible apply State.setB_moves | with_reducible apply State.evalStart_moves | with_reducible apply State.clearTrips_moves | with_reducible apply State.accepted_moves | split | dsimp only | fail_if_no_progress with_reducible refine State.moves_lit ?_ rfl rfl rfl rfl rfl)

theorem State.unqualify_keeps {s t : State} (h : s.Keeps t) (f : Fin 3) : s.Keeps (State.unqualify t f) := by
  unfold State.unqualify; try dsimp only
  repeat' (first | with_reducible assumption | intro _ | with_reducible apply State.keeps_ite | with_reducible apply State.keeps_ite₁ | with_reducible apply State.keeps_ite₂ | with_reducible apply State.setB_keeps | split | dsimp only | fail_if_no_progress with_reducible refine State.keeps_lit ?_ rfl rfl rfl rfl rfl)

theorem State.noFeed_keeps {s t : State} (h : s.Keeps t)  : s.Keeps (State.noFeed t) := by
  unfold State.noFeed; try dsimp only
  repeat' (first | with_reducible assumption | intro _ | with_reducible apply State.keeps_ite | with_reducible apply State.keeps_ite₁ | with_reducible apply State.keeps_ite₂ | with_reducible apply State.raise_keeps | with_reducible apply State.setB_keeps | with_reducible apply State.afterTransfer_keeps | with_reducible apply State.evalVbusq_keeps | split | dsimp only | fail_if_no_progress with_reducible refine State.keeps_lit ?_ rfl rfl rfl rfl rfl)

theorem State.ladderAct_moves {s t : State} (h : s.Moves t) (k : Nat) : s.Moves (State.ladderAct t k) := by
  unfold State.ladderAct; try dsimp only
  repeat' (first | with_reducible assumption | intro _ | with_reducible apply State.moves_ite | with_reducible apply State.moves_ite₁ | with_reducible apply State.each_moves | with_reducible apply State.updCl_moves | with_reducible apply State.setFBit_moves | with_reducible apply State.clTurnOff_moves | with_reducible apply State.packageOff_moves | with_reducible apply State.setB_moves | split | dsimp only | fail_if_no_progress with_reducible refine State.moves_lit ?_ rfl rfl rfl rfl rfl)

theorem feedPinWrite_keeps {s t : State} (h : s.Keeps t) (pin : BitVec 2) : s.Keeps (feedPinWrite pin t).1 := by
  unfold feedPinWrite; try dsimp only
  repeat' (first | with_reducible assumption | intro _ | with_reducible apply State.keeps_ite | with_reducible apply State.keeps_ite₁ | with_reducible apply State.keeps_ite₂ | with_reducible apply State.applyPin_keeps | split | dsimp only | fail_if_no_progress with_reducible refine State.keeps_lit ?_ rfl rfl rfl rfl rfl)

theorem feedPinWrite_moves {s t : State} (h : s.Moves t) (pin : BitVec 2) : s.Moves (feedPinWrite pin t).1 :=
  h.keeps (feedPinWrite_keeps (State.keeps_refl _) _)

end Sys2Proof.Machine
end

