-- ==== Sys2Proof/Laws/KeepsThermal.lean ====
section
/-! SUPPORT. What the operations of Machine/Thermal.lean leave alone. -/

set_option linter.unusedTactic false
set_option linter.unreachableTactic false

namespace Sys2Proof.Machine

theorem State.setThr_keeps {s t : State} (h : s.Keeps t) (k : Fin 4) (b : Bool) : s.Keeps (State.setThr t k b) := by
  unfold State.setThr; try dsimp only
  repeat' (first | with_reducible assumption | intro _ | with_reducible apply State.keeps_ite | with_reducible apply State.keeps_ite₁ | with_reducible apply State.keeps_ite₂ | split | dsimp only | fail_if_no_progress with_reducible refine State.keeps_lit ?_ rfl rfl rfl rfl rfl)

theorem State.tsdClear_keeps {s t : State} (h : s.Keeps t) (n : Fin 16) : s.Keeps (State.tsdClear t n) := by
  unfold State.tsdClear; try dsimp only
  repeat' (first | with_reducible assumption | intro _ | with_reducible apply State.keeps_ite | with_reducible apply State.keeps_ite₁ | with_reducible apply State.keeps_ite₂ | with_reducible apply State.lower_keeps | with_reducible apply State.setB_keeps | with_reducible apply State.setFBit_keeps | with_reducible apply State.saveState_keeps | with_reducible apply State.updCl_keeps | with_reducible apply State.each_keeps' | with_reducible apply State.when_keeps | with_reducible apply State.clStart_keeps | split | dsimp only | fail_if_no_progress with_reducible refine State.keeps_lit ?_ rfl rfl rfl rfl rfl)

theorem thmTsdclr_keeps {s t : State} (h : s.Keeps t) (n : Fin 16) (confirm : BitVec 16) : s.Keeps (thmTsdclr n confirm t).1 := by
  unfold thmTsdclr; try dsimp only
  repeat' (first | with_reducible assumption | intro _ | with_reducible apply State.keeps_ite | with_reducible apply State.keeps_ite₁ | with_reducible apply State.keeps_ite₂ | with_reducible apply State.setB_keeps | with_reducible apply State.tsdClear_keeps | with_reducible apply State.accepted_keeps | split | dsimp only | fail_if_no_progress with_reducible refine State.keeps_lit ?_ rfl rfl rfl rfl rfl)

theorem State.setReq_keeps {s t : State} (h : s.Keeps t) (c : Fin 5) (v : Nat) : s.Keeps (State.setReq t c v) := by
  unfold State.setReq; try dsimp only
  repeat' (first | with_reducible assumption | intro _ | with_reducible apply State.keeps_ite | with_reducible apply State.keeps_ite₁ | with_reducible apply State.keeps_ite₂ | with_reducible apply State.setF_keeps | with_reducible apply State.when_keeps | with_reducible apply State.lower_keeps | split | dsimp only | fail_if_no_progress with_reducible refine State.keeps_lit ?_ rfl rfl rfl rfl rfl)

theorem State.capBegin_keeps {s t : State} (h : s.Keeps t) (c : Fin 5) : s.Keeps (State.capBegin t c) := by
  unfold State.capBegin; try dsimp only
  repeat' (first | with_reducible assumption | intro _ | with_reducible apply State.keeps_ite | with_reducible apply State.keeps_ite₁ | with_reducible apply State.keeps_ite₂ | with_reducible apply State.when_keeps | with_reducible apply State.raise_keeps | with_reducible apply State.setB_keeps | with_reducible apply State.setF_keeps | split | dsimp only | fail_if_no_progress with_reducible refine State.keeps_lit ?_ rfl rfl rfl rfl rfl)

theorem State.capEstimate_keeps {s t : State} (h : s.Keeps t) (c : Fin 5) : s.Keeps (State.capEstimate t c) := by
  unfold State.capEstimate; try dsimp only
  repeat' (first | with_reducible assumption | intro _ | with_reducible apply State.keeps_ite | with_reducible apply State.keeps_ite₁ | with_reducible apply State.keeps_ite₂ | with_reducible apply State.when_keeps | with_reducible apply State.setF_keeps | with_reducible apply State.updCap_keeps | with_reducible apply State.setB_keeps | with_reducible apply State.setReq_keeps | with_reducible apply State.capBegin_keeps | split | dsimp only | fail_if_no_progress with_reducible refine State.keeps_lit ?_ rfl rfl rfl rfl rfl)

theorem State.capSaturate_keeps {s t : State} (h : s.Keeps t) (c : Fin 5) (sat : Bool) : s.Keeps (State.capSaturate t c sat) := by
  unfold State.capSaturate; try dsimp only
  repeat' (first | with_reducible assumption | intro _ | with_reducible apply State.keeps_ite | with_reducible apply State.keeps_ite₁ | with_reducible apply State.keeps_ite₂ | with_reducible apply State.updCap_keeps | with_reducible apply State.when_keeps | with_reducible apply State.raise_keeps | with_reducible apply State.setB_keeps | with_reducible apply State.lower_keeps | split | dsimp only | fail_if_no_progress with_reducible refine State.keeps_lit ?_ rfl rfl rfl rfl rfl)

theorem State.modelPhase_keeps {s t : State} (h : s.Keeps t) (n : Fin 16) (p : Fin 48) (loss : Rat) : s.Keeps (State.modelPhase t n p loss) := by
  unfold State.modelPhase; try dsimp only
  repeat' (first | with_reducible assumption | intro _ | with_reducible apply State.keeps_ite | with_reducible apply State.keeps_ite₁ | with_reducible apply State.keeps_ite₂ | with_reducible apply State.updPh_keeps | with_reducible apply State.setF_keeps | with_reducible apply State.holdMax_keeps | with_reducible apply State.setS_keeps | split | dsimp only | fail_if_no_progress with_reducible refine State.keeps_lit ?_ rfl rfl rfl rfl rfl)

theorem State.storeTsd_keeps {s t : State} (h : s.Keeps t) (n : Fin 16) (cause : Nat) : s.Keeps (State.storeTsd t n cause) := by
  unfold State.storeTsd; try dsimp only
  repeat' (first | with_reducible assumption | intro _ | with_reducible apply State.keeps_ite | with_reducible apply State.keeps_ite₁ | with_reducible apply State.keeps_ite₂ | with_reducible apply State.incF_keeps | split | dsimp only | fail_if_no_progress with_reducible refine State.keeps_lit ?_ rfl rfl rfl rfl rfl)

theorem State.thermalShutdown_keeps {s t : State} (h : s.Keeps t) (n : Fin 16) (cause : Nat) : s.Keeps (State.thermalShutdown t n cause) := by
  unfold State.thermalShutdown; try dsimp only
  repeat' (first | with_reducible assumption | intro _ | with_reducible apply State.keeps_ite | with_reducible apply State.keeps_ite₁ | with_reducible apply State.keeps_ite₂ | with_reducible apply State.storeTsd_keeps | with_reducible apply State.each_keeps' | with_reducible apply State.clOff_keeps | with_reducible apply State.updCl_keeps | with_reducible apply State.setB_keeps | with_reducible apply State.setFBit_keeps | with_reducible apply State.saveState_keeps | with_reducible apply State.raise_keeps | split | dsimp only | fail_if_no_progress with_reducible refine State.keeps_lit ?_ rfl rfl rfl rfl rfl)

theorem State.throttle_keeps {s t : State} (h : s.Keeps t) (n : Fin 16) : s.Keeps (State.throttle t n) := by
  unfold State.throttle; try dsimp only
  repeat' (first | with_reducible assumption | intro _ | with_reducible apply State.keeps_ite | with_reducible apply State.keeps_ite₁ | with_reducible apply State.keeps_ite₂ | with_reducible apply State.updCl_keeps | with_reducible apply State.setB_keeps | with_reducible apply State.when_keeps | with_reducible apply State.raise_keeps | with_reducible apply State.lower_keeps | split | dsimp only | fail_if_no_progress with_reducible refine State.keeps_lit ?_ rfl rfl rfl rfl rfl)

theorem State.modelCluster_keeps {s t : State} (h : s.Keeps t) (n : Fin 16) (obs : List (Fin 48 × Rat × Rat × Nat)) (vin : Vector Rat 3) : s.Keeps (State.modelCluster t n obs vin) := by
  unfold State.modelCluster; try dsimp only
  repeat' (first | with_reducible assumption | intro _ | with_reducible apply State.keeps_ite | with_reducible apply State.keeps_ite₁ | with_reducible apply State.keeps_ite₂ | with_reducible apply State.each_keeps' | with_reducible apply State.modelPhase_keeps | with_reducible apply State.updCl_keeps | with_reducible apply State.setF_keeps | with_reducible apply State.setS_keeps | with_reducible apply State.when_keeps | with_reducible apply State.thermalShutdown_keeps | with_reducible apply State.throttle_keeps | with_reducible apply State.fold_keeps | split | dsimp only | fail_if_no_progress with_reducible refine State.keeps_lit ?_ rfl rfl rfl rfl rfl)

theorem State.trainTick_keeps {s t : State} (h : s.Keeps t) (k : Fin 4) : s.Keeps (State.trainTick t k) := by
  unfold State.trainTick; try dsimp only
  repeat' (first | with_reducible assumption | intro _ | with_reducible apply State.keeps_ite | with_reducible apply State.keeps_ite₁ | with_reducible apply State.keeps_ite₂ | with_reducible apply State.updThr_keeps | split | dsimp only | fail_if_no_progress with_reducible refine State.keeps_lit ?_ rfl rfl rfl rfl rfl)

theorem State.tsenRange_keeps {s t : State} (h : s.Keeps t) (n : Fin 16) (inRange : Bool) : s.Keeps (State.tsenRange t n inRange) := by
  unfold State.tsenRange; try dsimp only
  repeat' (first | with_reducible assumption | intro _ | with_reducible apply State.keeps_ite | with_reducible apply State.keeps_ite₁ | with_reducible apply State.keeps_ite₂ | with_reducible apply State.updCl_keeps | with_reducible apply State.when_keeps | with_reducible apply State.raise_keeps | with_reducible apply State.setB_keeps | with_reducible apply State.lower_keeps | split | dsimp only | fail_if_no_progress with_reducible refine State.keeps_lit ?_ rfl rfl rfl rfl rfl)

theorem State.tsenGood_keeps {s t : State} (h : s.Keeps t) (n : Fin 16) (zt : Rat) : s.Keeps (State.tsenGood t n zt) := by
  unfold State.tsenGood; try dsimp only
  repeat' (first | with_reducible assumption | intro _ | with_reducible apply State.keeps_ite | with_reducible apply State.keeps_ite₁ | with_reducible apply State.keeps_ite₂ | with_reducible apply State.updCl_keeps | with_reducible apply State.setS_keeps | with_reducible apply State.when_keeps | with_reducible apply State.thermalShutdown_keeps | split | dsimp only | fail_if_no_progress with_reducible refine State.keeps_lit ?_ rfl rfl rfl rfl rfl)

end Sys2Proof.Machine
end

