-- ==== Sys2Proof/Laws/KeepsCapture.lean ====
section
/-! SUPPORT. What the operations of Machine/Capture.lean leave alone. -/

set_option linter.unusedTactic false
set_option linter.unreachableTactic false

namespace Sys2Proof.Machine

theorem capMask_keeps {s t : State} (h : s.Keeps t) (hi : Bool) (mask : Word) (g : State → Fin 64 → State) (hg : ∀ {y0 : State} (y1 : Fin 64), s.Keeps y0 → s.Keeps (g y0 y1)) : s.Keeps (capMask hi mask g t).1 := by
  unfold capMask; try dsimp only
  repeat' (first | with_reducible assumption | intro _ | with_reducible apply hg | with_reducible apply State.keeps_ite | with_reducible apply State.keeps_ite₁ | with_reducible apply State.keeps_ite₂ | with_reducible apply State.resBusy_keeps | with_reducible apply State.each_keeps' | split | dsimp only | fail_if_no_progress with_reducible refine State.keeps_lit ?_ rfl rfl rfl rfl rfl)

theorem State.srdyTick_keeps {s t : State} (h : s.Keeps t)  : s.Keeps (State.srdyTick t) := by
  unfold State.srdyTick; try dsimp only
  repeat' (first | with_reducible assumption | intro _ | with_reducible apply State.keeps_ite | with_reducible apply State.keeps_ite₁ | with_reducible apply State.keeps_ite₂ | split | dsimp only | fail_if_no_progress with_reducible refine State.keeps_lit ?_ rfl rfl rfl rfl rfl)

theorem State.chEnd_keeps {s t : State} (h : s.Keeps t) (n : Fin 64) : s.Keeps (State.chEnd t n) := by
  unfold State.chEnd; try dsimp only
  repeat' (first | with_reducible assumption | intro _ | with_reducible apply State.keeps_ite | with_reducible apply State.keeps_ite₁ | with_reducible apply State.keeps_ite₂ | with_reducible apply State.updCh_keeps | with_reducible apply State.unclaim_keeps | with_reducible apply State.setB_keeps | split | dsimp only | fail_if_no_progress with_reducible refine State.keeps_lit ?_ rfl rfl rfl rfl rfl)

theorem State.capRefuse_keeps {s t : State} (h : s.Keeps t) (code : Nat) : s.Keeps (State.capRefuse t code).1 := by
  unfold State.capRefuse; try dsimp only
  repeat' (first | with_reducible assumption | intro _ | with_reducible apply State.keeps_ite | with_reducible apply State.keeps_ite₁ | with_reducible apply State.keeps_ite₂ | with_reducible apply State.setB_keeps | split | dsimp only | fail_if_no_progress with_reducible refine State.keeps_lit ?_ rfl rfl rfl rfl rfl)

theorem capLevel1_keeps {s t : State} (h : s.Keeps t) (code : Nat) (g : State → State) (hg : ∀ {y0 : State}, s.Keeps y0 → s.Keeps (g y0)) : s.Keeps (capLevel1 code g t).1 := by
  unfold capLevel1; try dsimp only
  repeat' (first | with_reducible assumption | intro _ | with_reducible apply hg | with_reducible apply State.keeps_ite | with_reducible apply State.keeps_ite₁ | with_reducible apply State.keeps_ite₂ | with_reducible apply State.capRefuse_keeps | with_reducible apply State.accepted_keeps | split | dsimp only | fail_if_no_progress with_reducible refine State.keeps_lit ?_ rfl rfl rfl rfl rfl)

theorem State.closeSnap_keeps {s t : State} (h : s.Keeps t)  : s.Keeps (State.closeSnap t) := by
  unfold State.closeSnap; try dsimp only
  repeat' (first | with_reducible assumption | intro _ | with_reducible apply State.keeps_ite | with_reducible apply State.keeps_ite₁ | with_reducible apply State.keeps_ite₂ | split | dsimp only | fail_if_no_progress with_reducible refine State.keeps_lit ?_ rfl rfl rfl rfl rfl)

theorem capRewind_keeps {s t : State} (h : s.Keeps t)  : s.Keeps (capRewind t).1 := by
  unfold capRewind; try dsimp only
  repeat' (first | with_reducible assumption | intro _ | with_reducible apply State.keeps_ite | with_reducible apply State.keeps_ite₁ | with_reducible apply State.keeps_ite₂ | with_reducible apply capLevel1_keeps | with_reducible apply State.setF_keeps | split | dsimp only | fail_if_no_progress with_reducible refine State.keeps_lit ?_ rfl rfl rfl rfl rfl)

theorem State.capDrop_keeps {s t : State} (h : s.Keeps t)  : s.Keeps (State.capDrop t) := by
  unfold State.capDrop; try dsimp only
  repeat' (first | with_reducible assumption | intro _ | with_reducible apply State.keeps_ite | with_reducible apply State.keeps_ite₁ | with_reducible apply State.keeps_ite₂ | with_reducible apply State.raise_keeps | with_reducible apply State.setB_keeps | split | dsimp only | fail_if_no_progress with_reducible refine State.keeps_lit ?_ rfl rfl rfl rfl rfl)

theorem State.laneTake_keeps {s t : State} (h : s.Keeps t) (l : Fin 4) (n : Fin 64) : s.Keeps (State.laneTake t l n) := by
  unfold State.laneTake; try dsimp only
  repeat' (first | with_reducible assumption | intro _ | with_reducible apply State.keeps_ite | with_reducible apply State.keeps_ite₁ | with_reducible apply State.keeps_ite₂ | with_reducible apply State.updLane_keeps | with_reducible apply State.updCh_keeps | with_reducible apply State.incF_keeps | with_reducible apply State.setB_keeps | with_reducible apply State.when_keeps | with_reducible apply State.capDrop_keeps | split | dsimp only | fail_if_no_progress with_reducible refine State.keeps_lit ?_ rfl rfl rfl rfl rfl)

theorem State.evalFifo_keeps {s t : State} (h : s.Keeps t)  : s.Keeps (State.evalFifo t) := by
  unfold State.evalFifo; try dsimp only
  repeat' (first | with_reducible assumption | intro _ | with_reducible apply State.keeps_ite | with_reducible apply State.keeps_ite₁ | with_reducible apply State.keeps_ite₂ | with_reducible apply State.when_keeps | with_reducible apply State.setF_keeps | with_reducible apply State.raise_keeps | with_reducible apply State.setB_keeps | split | dsimp only | fail_if_no_progress with_reducible refine State.keeps_lit ?_ rfl rfl rfl rfl rfl)

theorem capRelease_keeps {s t : State} (h : s.Keeps t)  : s.Keeps (capRelease t).1 := by
  unfold capRelease; try dsimp only
  repeat' (first | with_reducible assumption | intro _ | with_reducible apply State.keeps_ite | with_reducible apply State.keeps_ite₁ | with_reducible apply State.keeps_ite₂ | with_reducible apply capLevel1_keeps | with_reducible apply State.evalFifo_keeps | split | dsimp only | fail_if_no_progress with_reducible refine State.keeps_lit ?_ rfl rfl rfl rfl rfl)

theorem State.closePkt_keeps {s t : State} (h : s.Keeps t)  : s.Keeps (State.closePkt t) := by
  unfold State.closePkt; try dsimp only
  repeat' (first | with_reducible assumption | intro _ | with_reducible apply State.keeps_ite | with_reducible apply State.keeps_ite₁ | with_reducible apply State.keeps_ite₂ | split | dsimp only | fail_if_no_progress with_reducible refine State.keeps_lit ?_ rfl rfl rfl rfl rfl)

theorem State.stopClose_keeps {s t : State} (h : s.Keeps t)  : s.Keeps (State.stopClose t) := by
  unfold State.stopClose; try dsimp only
  repeat' (first | with_reducible assumption | intro _ | with_reducible apply State.keeps_ite | with_reducible apply State.keeps_ite₁ | with_reducible apply State.keeps_ite₂ | with_reducible apply State.closeSnap_keeps | with_reducible apply State.closePkt_keeps | split | dsimp only | fail_if_no_progress with_reducible refine State.keeps_lit ?_ rfl rfl rfl rfl rfl)

theorem State.stopClose_moves {s t : State} (h : s.Moves t)  : s.Moves (State.stopClose t) :=
  h.keeps (State.stopClose_keeps (State.keeps_refl _))

theorem State.capSuspend_keeps {s t : State} (h : s.Keeps t)  : s.Keeps (State.capSuspend t) := by
  unfold State.capSuspend; try dsimp only
  repeat' (first | with_reducible assumption | intro _ | with_reducible apply State.keeps_ite | with_reducible apply State.keeps_ite₁ | with_reducible apply State.keeps_ite₂ | with_reducible apply State.stopClose_keeps | split | dsimp only | fail_if_no_progress with_reducible refine State.keeps_lit ?_ rfl rfl rfl rfl rfl)

theorem State.capSuspend_moves {s t : State} (h : s.Moves t)  : s.Moves (State.capSuspend t) :=
  h.keeps (State.capSuspend_keeps (State.keeps_refl _))

theorem State.runBegin_keeps {s t : State} (h : s.Keeps t) (n : Fin 64) : s.Keeps (State.runBegin t n) := by
  unfold State.runBegin; try dsimp only
  repeat' (first | with_reducible assumption | intro _ | with_reducible apply State.keeps_ite | with_reducible apply State.keeps_ite₁ | with_reducible apply State.keeps_ite₂ | with_reducible apply State.updCh_keeps | with_reducible apply State.setB_keeps | split | dsimp only | fail_if_no_progress with_reducible refine State.keeps_lit ?_ rfl rfl rfl rfl rfl)

theorem State.streamRequest_keeps {s t : State} (h : s.Keeps t) (n : Fin 64) : s.Keeps (State.streamRequest t n) := by
  unfold State.streamRequest; try dsimp only
  repeat' (first | with_reducible assumption | intro _ | with_reducible apply State.keeps_ite | with_reducible apply State.keeps_ite₁ | with_reducible apply State.keeps_ite₂ | with_reducible apply State.runBegin_keeps | split | dsimp only | fail_if_no_progress with_reducible refine State.keeps_lit ?_ rfl rfl rfl rfl rfl)

theorem State.runEnd_keeps {s t : State} (h : s.Keeps t) (n : Fin 64) : s.Keeps (State.runEnd t n) := by
  unfold State.runEnd; try dsimp only
  repeat' (first | with_reducible assumption | intro _ | with_reducible apply State.keeps_ite | with_reducible apply State.keeps_ite₁ | with_reducible apply State.keeps_ite₂ | with_reducible apply State.updCh_keeps | with_reducible apply State.setB_keeps | split | dsimp only | fail_if_no_progress with_reducible refine State.keeps_lit ?_ rfl rfl rfl rfl rfl)

theorem State.ringSample_keeps {s t : State} (h : s.Keeps t) (n : Fin 64) (x : BitVec 16) : s.Keeps (State.ringSample t n x) := by
  unfold State.ringSample; try dsimp only
  repeat' (first | with_reducible assumption | intro _ | with_reducible apply State.keeps_ite | with_reducible apply State.keeps_ite₁ | with_reducible apply State.keeps_ite₂ | with_reducible apply State.updCh_keeps | with_reducible apply State.runEnd_keeps | split | dsimp only | fail_if_no_progress with_reducible refine State.keeps_lit ?_ rfl rfl rfl rfl rfl)

theorem State.chBegin_keeps {s t : State} (h : s.Keeps t) (n : Fin 64) : s.Keeps (State.chBegin t n) := by
  unfold State.chBegin; try dsimp only
  repeat' (first | with_reducible assumption | intro _ | with_reducible apply State.keeps_ite | with_reducible apply State.keeps_ite₁ | with_reducible apply State.keeps_ite₂ | with_reducible apply State.updCh_keeps | with_reducible apply State.setB_keeps | split | dsimp only | fail_if_no_progress with_reducible refine State.keeps_lit ?_ rfl rfl rfl rfl rfl)

theorem State.ringEcc_keeps {s t : State} (h : s.Keeps t) (n : Fin 64) (i : Nat) : s.Keeps (State.ringEcc t n i) := by
  unfold State.ringEcc; try dsimp only
  repeat' (first | with_reducible assumption | intro _ | with_reducible apply State.keeps_ite | with_reducible apply State.keeps_ite₁ | with_reducible apply State.keeps_ite₂ | with_reducible apply State.updCh_keeps | split | dsimp only | fail_if_no_progress with_reducible refine State.keeps_lit ?_ rfl rfl rfl rfl rfl)

theorem State.chRefuse_keeps {s t : State} (h : s.Keeps t) (n : Fin 64) (code : Nat) : s.Keeps (State.chRefuse t n code).1 := by
  unfold State.chRefuse; try dsimp only
  repeat' (first | with_reducible assumption | intro _ | with_reducible apply State.keeps_ite | with_reducible apply State.keeps_ite₁ | with_reducible apply State.keeps_ite₂ | with_reducible apply State.setB_keeps | split | dsimp only | fail_if_no_progress with_reducible refine State.keeps_lit ?_ rfl rfl rfl rfl rfl)

theorem chCfgWrite_keeps {s t : State} (h : s.Keeps t) (n : Fin 64) (v : Word) : s.Keeps (chCfgWrite n v t).1 := by
  unfold chCfgWrite; try dsimp only
  repeat' (first | with_reducible assumption | intro _ | with_reducible apply State.keeps_ite | with_reducible apply State.keeps_ite₁ | with_reducible apply State.keeps_ite₂ | with_reducible apply State.chRefuse_keeps | with_reducible apply State.hostStore_keeps | with_reducible apply State.chEnd_keeps | with_reducible apply State.when_keeps | with_reducible apply State.chBegin_keeps | with_reducible apply State.claim_keeps | split | dsimp only | fail_if_no_progress with_reducible refine State.keeps_lit ?_ rfl rfl rfl rfl rfl)

theorem chCfgWrite_moves {s t : State} (h : s.Moves t) (n : Fin 64) (v : Word) : s.Moves (chCfgWrite n v t).1 :=
  h.keeps (chCfgWrite_keeps (State.keeps_refl _) _ _)

theorem State.fifoPop_keeps {s t : State} (h : s.Keeps t)  : s.Keeps (State.fifoPop t).1 := by
  unfold State.fifoPop; try dsimp only
  repeat' (first | with_reducible assumption | intro _ | with_reducible apply State.keeps_ite | with_reducible apply State.keeps_ite₁ | with_reducible apply State.keeps_ite₂ | with_reducible apply State.setB_keeps | with_reducible apply State.evalFifo_keeps | with_reducible apply State.when_keeps | with_reducible apply State.setF_keeps | split | dsimp only | fail_if_no_progress with_reducible refine State.keeps_lit ?_ rfl rfl rfl rfl rfl)

theorem State.fifodRead_keeps {s t : State} (h : s.Keeps t)  : s.Keeps (State.fifodRead t).1 := by
  unfold State.fifodRead; try dsimp only
  repeat' (first | with_reducible assumption | intro _ | with_reducible apply State.keeps_ite | with_reducible apply State.keeps_ite₁ | with_reducible apply State.keeps_ite₂ | with_reducible apply State.fifoPop_keeps | with_reducible apply State.setB_keeps | split | dsimp only | fail_if_no_progress with_reducible refine State.keeps_lit ?_ rfl rfl rfl rfl rfl)

theorem State.addSnap_keeps {s t : State} (h : s.Keeps t) (r : List Word) : s.Keeps (State.addSnap t r) := by
  unfold State.addSnap; try dsimp only
  repeat' (first | with_reducible assumption | intro _ | with_reducible apply State.keeps_ite | with_reducible apply State.keeps_ite₁ | with_reducible apply State.keeps_ite₂ | with_reducible apply State.when_keeps | with_reducible apply State.closeSnap_keeps | split | dsimp only | fail_if_no_progress with_reducible refine State.keeps_lit ?_ rfl rfl rfl rfl rfl)

theorem chSrcWrite_keeps {s t : State} (h : s.Keeps t) (n : Fin 64) (v : Word) : s.Keeps (chSrcWrite n v t).1 := by
  unfold chSrcWrite; try dsimp only
  repeat' (first | with_reducible assumption | intro _ | with_reducible apply State.keeps_ite | with_reducible apply State.keeps_ite₁ | with_reducible apply State.keeps_ite₂ | with_reducible apply State.chRefuse_keeps | with_reducible apply State.hostStore_keeps | split | dsimp only | fail_if_no_progress with_reducible refine State.keeps_lit ?_ rfl rfl rfl rfl rfl)

theorem chSrcWrite_moves {s t : State} (h : s.Moves t) (n : Fin 64) (v : Word) : s.Moves (chSrcWrite n v t).1 :=
  h.keeps (chSrcWrite_keeps (State.keeps_refl _) _ _)

theorem State.snapEcc_keeps {s t : State} (h : s.Keeps t) (k : Nat) : s.Keeps (State.snapEcc t k) := by
  unfold State.snapEcc; try dsimp only
  repeat' (first | with_reducible assumption | intro _ | with_reducible apply State.keeps_ite | with_reducible apply State.keeps_ite₁ | with_reducible apply State.keeps_ite₂ | split | dsimp only | fail_if_no_progress with_reducible refine State.keeps_lit ?_ rfl rfl rfl rfl rfl)

theorem State.flushNow_keeps {s t : State} (h : s.Keeps t)  : s.Keeps (State.flushNow t) := by
  unfold State.flushNow; try dsimp only
  repeat' (first | with_reducible assumption | intro _ | with_reducible apply State.keeps_ite | with_reducible apply State.keeps_ite₁ | with_reducible apply State.keeps_ite₂ | with_reducible apply State.evalFifo_keeps | with_reducible apply State.setF_keeps | split | dsimp only | fail_if_no_progress with_reducible refine State.keeps_lit ?_ rfl rfl rfl rfl rfl)

theorem capFlush_keeps {s t : State} (h : s.Keeps t)  : s.Keeps (capFlush t).1 := by
  unfold capFlush; try dsimp only
  repeat' (first | with_reducible assumption | intro _ | with_reducible apply State.keeps_ite | with_reducible apply State.keeps_ite₁ | with_reducible apply State.keeps_ite₂ | with_reducible apply State.capRefuse_keeps | with_reducible apply State.accepted_keeps | with_reducible apply State.flushNow_keeps | with_reducible apply State.when_keeps | with_reducible apply State.closePkt_keeps | split | dsimp only | fail_if_no_progress with_reducible refine State.keeps_lit ?_ rfl rfl rfl rfl rfl)

theorem State.trigger_keeps {s t : State} (h : s.Keeps t) (n : Fin 64) : s.Keeps (State.trigger t n) := by
  unfold State.trigger; try dsimp only
  repeat' (first | with_reducible assumption | intro _ | with_reducible apply State.keeps_ite | with_reducible apply State.keeps_ite₁ | with_reducible apply State.keeps_ite₂ | with_reducible apply State.runBegin_keeps | split | dsimp only | fail_if_no_progress with_reducible refine State.keeps_lit ?_ rfl rfl rfl rfl rfl)

theorem chOwned_keeps {s t : State} (h : s.Keeps t) (n : Fin 64) (g : State → State × Nat) (hg : ∀ {y0 : State}, s.Keeps y0 → s.Keeps (g y0).1) : s.Keeps (chOwned n g t).1 := by
  unfold chOwned; try dsimp only
  repeat' (first | with_reducible assumption | intro _ | with_reducible apply hg | with_reducible apply State.keeps_ite | with_reducible apply State.keeps_ite₁ | with_reducible apply State.keeps_ite₂ | with_reducible apply State.resBusy_keeps | split | dsimp only | fail_if_no_progress with_reducible refine State.keeps_lit ?_ rfl rfl rfl rfl rfl)

theorem capMark_keeps {s t : State} (h : s.Keeps t)  : s.Keeps (capMark t).1 := by
  unfold capMark; try dsimp only
  repeat' (first | with_reducible assumption | intro _ | with_reducible apply State.keeps_ite | with_reducible apply State.keeps_ite₁ | with_reducible apply State.keeps_ite₂ | with_reducible apply capLevel1_keeps | split | dsimp only | fail_if_no_progress with_reducible refine State.keeps_lit ?_ rfl rfl rfl rfl rfl)

theorem State.addRecord_keeps {s t : State} (h : s.Keeps t) (r : List Word) : s.Keeps (State.addRecord t r) := by
  unfold State.addRecord; try dsimp only
  repeat' (first | with_reducible assumption | intro _ | with_reducible apply State.keeps_ite | with_reducible apply State.keeps_ite₁ | with_reducible apply State.keeps_ite₂ | with_reducible apply State.when_keeps | with_reducible apply State.closePkt_keeps | split | dsimp only | fail_if_no_progress with_reducible refine State.keeps_lit ?_ rfl rfl rfl rfl rfl)

theorem capRequest_keeps {s t : State} (h : s.Keeps t) (hi : Bool) (mask : Word) : s.Keeps (capRequest hi mask t).1 := by
  unfold capRequest; try dsimp only
  repeat' (first | with_reducible assumption | intro _ | with_reducible apply State.keeps_ite | with_reducible apply State.keeps_ite₁ | with_reducible apply State.keeps_ite₂ | with_reducible apply capMask_keeps | with_reducible apply State.streamRequest_keeps | split | dsimp only | fail_if_no_progress with_reducible refine State.keeps_lit ?_ rfl rfl rfl rfl rfl)

theorem State.srdyPulse_keeps {s t : State} (h : s.Keeps t)  : s.Keeps (State.srdyPulse t) := by
  unfold State.srdyPulse; try dsimp only
  repeat' (first | with_reducible assumption | intro _ | with_reducible apply State.keeps_ite | with_reducible apply State.keeps_ite₁ | with_reducible apply State.keeps_ite₂ | split | dsimp only | fail_if_no_progress with_reducible refine State.keeps_lit ?_ rfl rfl rfl rfl rfl)

theorem capCfgWrite_keeps {s t : State} (h : s.Keeps t) (v : Word) : s.Keeps (capCfgWrite v t).1 := by
  unfold capCfgWrite; try dsimp only
  repeat' (first | with_reducible assumption | intro _ | with_reducible apply State.keeps_ite | with_reducible apply State.keeps_ite₁ | with_reducible apply State.keeps_ite₂ | with_reducible apply State.setB_keeps | with_reducible apply State.resBusy_keeps | with_reducible apply State.when_keeps | with_reducible apply State.claim_keeps | with_reducible apply State.unclaim_keeps | with_reducible apply State.evalAlert_keeps | with_reducible apply State.hostStore_keeps | split | dsimp only | fail_if_no_progress with_reducible refine State.keeps_lit ?_ rfl rfl rfl rfl rfl)

theorem capCfgWrite_moves {s t : State} (h : s.Moves t) (v : Word) : s.Moves (capCfgWrite v t).1 :=
  h.keeps (capCfgWrite_keeps (State.keeps_refl _) _)

theorem State.diagRead_keeps {s t : State} (h : s.Keeps t)  : s.Keeps (State.diagRead t).1 := by
  unfold State.diagRead; try dsimp only
  repeat' (first | with_reducible assumption | intro _ | with_reducible apply State.keeps_ite | with_reducible apply State.keeps_ite₁ | with_reducible apply State.keeps_ite₂ | with_reducible apply State.setF_keeps | split | dsimp only | fail_if_no_progress with_reducible refine State.keeps_lit ?_ rfl rfl rfl rfl rfl)

theorem State.capResume_keeps {s t : State} (h : s.Keeps t)  : s.Keeps (State.capResume t) := by
  unfold State.capResume; try dsimp only
  repeat' (first | with_reducible assumption | intro _ | with_reducible apply State.keeps_ite | with_reducible apply State.keeps_ite₁ | with_reducible apply State.keeps_ite₂ | with_reducible apply State.each_keeps' | with_reducible apply State.updCh_keeps | split | dsimp only | fail_if_no_progress with_reducible refine State.keeps_lit ?_ rfl rfl rfl rfl rfl)

theorem capTrigger_keeps {s t : State} (h : s.Keeps t) (hi : Bool) (mask : Word) : s.Keeps (capTrigger hi mask t).1 := by
  unfold capTrigger; try dsimp only
  repeat' (first | with_reducible assumption | intro _ | with_reducible apply State.keeps_ite | with_reducible apply State.keeps_ite₁ | with_reducible apply State.keeps_ite₂ | with_reducible apply capMask_keeps | with_reducible apply State.trigger_keeps | split | dsimp only | fail_if_no_progress with_reducible refine State.keeps_lit ?_ rfl rfl rfl rfl rfl)

theorem State.fifoEcc_keeps {s t : State} (h : s.Keeps t) (pseq : BitVec 12) : s.Keeps (State.fifoEcc t pseq) := by
  unfold State.fifoEcc; try dsimp only
  repeat' (first | with_reducible assumption | intro _ | with_reducible apply State.keeps_ite | with_reducible apply State.keeps_ite₁ | with_reducible apply State.keeps_ite₂ | with_reducible apply State.setF_keeps | with_reducible apply State.setB_keeps | with_reducible apply State.raise_keeps | split | dsimp only | fail_if_no_progress with_reducible refine State.keeps_lit ?_ rfl rfl rfl rfl rfl)

end Sys2Proof.Machine
end

