-- ==== Sys2Proof/Laws/KeepsClock.lean ====
section
/-! SUPPORT. What the operations of Machine/Clock.lean leave alone. -/

set_option linter.unusedTactic false
set_option linter.unreachableTactic false

namespace Sys2Proof.Machine

theorem State.followSync_keeps {s t : State} (h : s.Keeps t) (ppm : Int) : s.Keeps (State.followSync t ppm) := by
  unfold State.followSync; try dsimp only
  repeat' (first | with_reducible assumption | intro _ | with_reducible apply State.keeps_ite | with_reducible apply State.keeps_ite₁ | with_reducible apply State.keeps_ite₂ | with_reducible apply State.setS_keeps | with_reducible apply State.setB_keeps | with_reducible apply State.setF_keeps | split | dsimp only | fail_if_no_progress with_reducible refine State.keeps_lit ?_ rfl rfl rfl rfl rfl)

theorem State.edgeFollow_keeps {s t : State} (h : s.Keeps t) (ppm : Int) : s.Keeps (State.edgeFollow t ppm) := by
  unfold State.edgeFollow; try dsimp only
  repeat' (first | with_reducible assumption | intro _ | with_reducible apply State.keeps_ite | with_reducible apply State.keeps_ite₁ | with_reducible apply State.keeps_ite₂ | with_reducible apply State.setS_keeps | with_reducible apply State.when_keeps | with_reducible apply State.followSync_keeps | split | dsimp only | fail_if_no_progress with_reducible refine State.keeps_lit ?_ rfl rfl rfl rfl rfl)

theorem State.edgeQualify_keeps {s t : State} (h : s.Keeps t) (ppm : Int) : s.Keeps (State.edgeQualify t ppm) := by
  unfold State.edgeQualify; try dsimp only
  repeat' (first | with_reducible assumption | intro _ | with_reducible apply State.keeps_ite | with_reducible apply State.keeps_ite₁ | with_reducible apply State.keeps_ite₂ | with_reducible apply State.when_keeps | with_reducible apply State.setB_keeps | with_reducible apply State.lower_keeps | with_reducible apply State.followSync_keeps | split | dsimp only | fail_if_no_progress with_reducible refine State.keeps_lit ?_ rfl rfl rfl rfl rfl)

end Sys2Proof.Machine
end

