-- ==== Sys2Proof/Laws/KeepsTimerMatch.lean ====
section
/-! SUPPORT. What the operations of Machine/TimerMatch.lean leave alone. -/

set_option linter.unusedTactic false
set_option linter.unreachableTactic false

namespace Sys2Proof.Machine

theorem State.tmAct_keeps {s t : State} (h : s.Keeps t) (code : Nat) (tgt : Nat) : s.Keeps (State.tmAct t code tgt) := by
  unfold State.tmAct; try dsimp only
  repeat' (first | with_reducible assumption | intro _ | with_reducible apply State.keeps_ite | with_reducible apply State.keeps_ite₁ | with_reducible apply State.keeps_ite₂ | with_reducible apply State.evalAlert_keeps | with_reducible apply State.when_keeps | with_reducible apply State.snapRequest_keeps | with_reducible apply State.trigger_keeps | with_reducible apply State.streamRequest_keeps | with_reducible apply State.setB_keeps | with_reducible apply State.tmClear_keeps | split | dsimp only | fail_if_no_progress with_reducible refine State.keeps_lit ?_ rfl rfl rfl rfl rfl)

theorem State.blankMatch_keeps {s t : State} (h : s.Keeps t) (n : Fin 32) : s.Keeps (State.blankMatch t n) := by
  unfold State.blankMatch; try dsimp only
  repeat' (first | with_reducible assumption | intro _ | with_reducible apply State.keeps_ite | with_reducible apply State.keeps_ite₁ | with_reducible apply State.keeps_ite₂ | with_reducible apply State.each_keeps' | with_reducible apply State.setB_keeps | with_reducible apply State.updCl_keeps | split | dsimp only | fail_if_no_progress with_reducible refine State.keeps_lit ?_ rfl rfl rfl rfl rfl)

end Sys2Proof.Machine
end

