-- ==== Sys2Proof/Laws/KeepsRing.lean ====
section
/-! SUPPORT. What the operations of Machine/Ring.lean leave alone. -/

set_option linter.unusedTactic false
set_option linter.unreachableTactic false

namespace Sys2Proof.Machine

theorem State.send_keeps {s t : State} (h : s.Keeps t) (ty : Nat) (dst : Nat) (bcast : Bool) (pay : List Byte) : s.Keeps (State.send t ty dst bcast pay) := by
  unfold State.send; try dsimp only
  repeat' (first | with_reducible assumption | intro _ | with_reducible apply State.keeps_ite | with_reducible apply State.keeps_ite₁ | with_reducible apply State.keeps_ite₂ | split | dsimp only | fail_if_no_progress with_reducible refine State.keeps_lit ?_ rfl rfl rfl rfl rfl)

theorem State.sendReport_keeps {s t : State} (h : s.Keeps t)  : s.Keeps (State.sendReport t) := by
  unfold State.sendReport; try dsimp only
  repeat' (first | with_reducible assumption | intro _ | with_reducible apply State.keeps_ite | with_reducible apply State.keeps_ite₁ | with_reducible apply State.keeps_ite₂ | with_reducible apply State.send_keeps | split | dsimp only | fail_if_no_progress with_reducible refine State.keeps_lit ?_ rfl rfl rfl rfl rfl)

theorem State.startEnum_keeps {s t : State} (h : s.Keeps t)  : s.Keeps (State.startEnum t) := by
  unfold State.startEnum; try dsimp only
  repeat' (first | with_reducible assumption | intro _ | with_reducible apply State.keeps_ite | with_reducible apply State.keeps_ite₁ | with_reducible apply State.keeps_ite₂ | with_reducible apply State.send_keeps | split | dsimp only | fail_if_no_progress with_reducible refine State.keeps_lit ?_ rfl rfl rfl rfl rfl)

theorem State.startEnum_moves {s t : State} (h : s.Moves t)  : s.Moves (State.startEnum t) :=
  h.keeps (State.startEnum_keeps (State.keeps_refl _))

theorem State.forward_keeps {s t : State} (h : s.Keeps t) (ty : Nat) (f : RingFrame) : s.Keeps (State.forward t ty f) := by
  unfold State.forward; try dsimp only
  repeat' (first | with_reducible assumption | intro _ | with_reducible apply State.keeps_ite | with_reducible apply State.keeps_ite₁ | with_reducible apply State.keeps_ite₂ | split | dsimp only | fail_if_no_progress with_reducible refine State.keeps_lit ?_ rfl rfl rfl rfl rfl)

theorem State.forward_moves {s t : State} (h : s.Moves t) (ty : Nat) (f : RingFrame) : s.Moves (State.forward t ty f) :=
  h.keeps (State.forward_keeps (State.keeps_refl _) _ _)

theorem State.sendCapord_keeps {s t : State} (h : s.Keeps t) (scale : Nat) (dens : Nat) : s.Keeps (State.sendCapord t scale dens) := by
  unfold State.sendCapord; try dsimp only
  repeat' (first | with_reducible assumption | intro _ | with_reducible apply State.keeps_ite | with_reducible apply State.keeps_ite₁ | with_reducible apply State.keeps_ite₂ | with_reducible apply State.send_keeps | split | dsimp only | fail_if_no_progress with_reducible refine State.keeps_lit ?_ rfl rfl rfl rfl rfl)

theorem State.setOrder_moves {s t : State} (h : s.Moves t) (o : RingOrder) : s.Moves (State.setOrder t o) := by
  unfold State.setOrder; try dsimp only
  repeat' (first | with_reducible assumption | intro _ | with_reducible apply State.moves_ite | with_reducible apply State.moves_ite₁ | with_reducible apply State.evalOnreq_moves | with_reducible apply State.setF_moves | split | dsimp only | fail_if_no_progress with_reducible refine State.moves_lit ?_ rfl rfl rfl rfl rfl)

theorem State.segmentCheck_keeps {s t : State} (h : s.Keeps t)  : s.Keeps (State.segmentCheck t) := by
  unfold State.segmentCheck; try dsimp only
  repeat' (first | with_reducible assumption | intro _ | with_reducible apply State.keeps_ite | with_reducible apply State.keeps_ite₁ | with_reducible apply State.keeps_ite₂ | with_reducible apply State.when_keeps | with_reducible apply State.sendCapord_keeps | split | dsimp only | fail_if_no_progress with_reducible refine State.keeps_lit ?_ rfl rfl rfl rfl rfl)

theorem State.countOnline_keeps {s t : State} (h : s.Keeps t)  : s.Keeps (State.countOnline t) := by
  unfold State.countOnline; try dsimp only
  repeat' (first | with_reducible assumption | intro _ | with_reducible apply State.keeps_ite | with_reducible apply State.keeps_ite₁ | with_reducible apply State.keeps_ite₂ | with_reducible apply State.setF_keeps | split | dsimp only | fail_if_no_progress with_reducible refine State.keeps_lit ?_ rfl rfl rfl rfl rfl)

theorem State.allocate_keeps {s t : State} (h : s.Keeps t)  : s.Keeps (State.allocate t) := by
  unfold State.allocate; try dsimp only
  repeat' (first | with_reducible assumption | intro _ | with_reducible apply State.keeps_ite | with_reducible apply State.keeps_ite₁ | with_reducible apply State.keeps_ite₂ | with_reducible apply State.each_keeps' | with_reducible apply State.setF_keeps | with_reducible apply State.setB_keeps | with_reducible apply State.send_keeps | with_reducible apply State.fold_keeps | split | dsimp only | fail_if_no_progress with_reducible refine State.keeps_lit ?_ rfl rfl rfl rfl rfl)

theorem State.rectOffline_keeps {s t : State} (h : s.Keeps t) (k : Nat) : s.Keeps (State.rectOffline t k) := by
  unfold State.rectOffline; try dsimp only
  repeat' (first | with_reducible assumption | intro _ | with_reducible apply State.keeps_ite | with_reducible apply State.keeps_ite₁ | with_reducible apply State.keeps_ite₂ | with_reducible apply State.countOnline_keeps | with_reducible apply State.setB_keeps | with_reducible apply State.raise_keeps | with_reducible apply State.lower_keeps | with_reducible apply State.setF_keeps | with_reducible apply State.allocate_keeps | with_reducible apply State.when_keeps | with_reducible apply State.sendCapord_keeps | split | dsimp only | fail_if_no_progress with_reducible refine State.keeps_lit ?_ rfl rfl rfl rfl rfl)

theorem State.ringBegin_keeps {s t : State} (h : s.Keeps t)  : s.Keeps (State.ringBegin t) := by
  unfold State.ringBegin; try dsimp only
  repeat' (first | with_reducible assumption | intro _ | with_reducible apply State.keeps_ite | with_reducible apply State.keeps_ite₁ | with_reducible apply State.keeps_ite₂ | split | dsimp only | fail_if_no_progress with_reducible refine State.keeps_lit ?_ rfl rfl rfl rfl rfl)

theorem State.ringBegin_moves {s t : State} (h : s.Moves t)  : s.Moves (State.ringBegin t) :=
  h.keeps (State.ringBegin_keeps (State.keeps_refl _))

theorem State.receive_keeps {s t : State} (h : s.Keeps t) (ty : Nat) (f : RingFrame) (g : State → State) (hg : ∀ {y0 : State}, s.Keeps y0 → s.Keeps (g y0)) : s.Keeps (State.receive t ty f g) := by
  unfold State.receive; try dsimp only
  repeat' (first | with_reducible assumption | intro _ | with_reducible apply hg | with_reducible apply State.keeps_ite | with_reducible apply State.keeps_ite₁ | with_reducible apply State.keeps_ite₂ | with_reducible apply State.ringBegin_keeps | with_reducible apply State.forward_keeps | split | dsimp only | fail_if_no_progress with_reducible refine State.keeps_lit ?_ rfl rfl rfl rfl rfl)

theorem State.enumOn_keeps {s t : State} (h : s.Keeps t) (f : RingFrame) : s.Keeps (State.enumOn t f) := by
  unfold State.enumOn; try dsimp only
  repeat' (first | with_reducible assumption | intro _ | with_reducible apply State.keeps_ite | with_reducible apply State.keeps_ite₁ | with_reducible apply State.keeps_ite₂ | split | dsimp only | fail_if_no_progress with_reducible refine State.keeps_lit ?_ rfl rfl rfl rfl rfl)

theorem State.sendBreak_keeps {s t : State} (h : s.Keeps t)  : s.Keeps (State.sendBreak t) := by
  unfold State.sendBreak; try dsimp only
  repeat' (first | with_reducible assumption | intro _ | with_reducible apply State.keeps_ite | with_reducible apply State.keeps_ite₁ | with_reducible apply State.keeps_ite₂ | with_reducible apply State.send_keeps | split | dsimp only | fail_if_no_progress with_reducible refine State.keeps_lit ?_ rfl rfl rfl rfl rfl)

theorem State.nodesReset_keeps {s t : State} (h : s.Keeps t) (nodes : Nat) : s.Keeps (State.nodesReset t nodes) := by
  unfold State.nodesReset; try dsimp only
  repeat' (first | with_reducible assumption | intro _ | with_reducible apply State.keeps_ite | with_reducible apply State.keeps_ite₁ | with_reducible apply State.keeps_ite₂ | with_reducible apply State.each_keeps' | with_reducible apply State.setB_keeps | split | dsimp only | fail_if_no_progress with_reducible refine State.keeps_lit ?_ rfl rfl rfl rfl rfl)

theorem State.masterChange_keeps {s t : State} (h : s.Keeps t)  : s.Keeps (State.masterChange t) := by
  unfold State.masterChange; try dsimp only
  repeat' (first | with_reducible assumption | intro _ | with_reducible apply State.keeps_ite | with_reducible apply State.keeps_ite₁ | with_reducible apply State.keeps_ite₂ | with_reducible apply State.when_keeps | with_reducible apply State.raise_keeps | split | dsimp only | fail_if_no_progress with_reducible refine State.keeps_lit ?_ rfl rfl rfl rfl rfl)

theorem State.masterChange_moves {s t : State} (h : s.Moves t)  : s.Moves (State.masterChange t) :=
  h.keeps (State.masterChange_keeps (State.keeps_refl _))

theorem lnkOrderWrite_keeps {s t : State} (h : s.Keeps t) (v : Word) : s.Keeps (lnkOrderWrite v t).1 := by
  unfold lnkOrderWrite; try dsimp only
  repeat' (first | with_reducible assumption | intro _ | with_reducible apply State.keeps_ite | with_reducible apply State.keeps_ite₁ | with_reducible apply State.keeps_ite₂ | with_reducible apply State.hostStore_keeps | with_reducible apply State.when_keeps | with_reducible apply State.sendCapord_keeps | with_reducible apply State.ringBegin_keeps | split | dsimp only | fail_if_no_progress with_reducible refine State.keeps_lit ?_ rfl rfl rfl rfl rfl)

theorem lnkOrderWrite_moves {s t : State} (h : s.Moves t) (v : Word) : s.Moves (lnkOrderWrite v t).1 :=
  h.keeps (lnkOrderWrite_keeps (State.keeps_refl _) _)

end Sys2Proof.Machine
end

