-- ==== Sys2Proof/Laws/KeepsFieldBus.lean ====
section
/-! SUPPORT. What the operations of Machine/FieldBus.lean leave alone. -/

set_option linter.unusedTactic false
set_option linter.unreachableTactic false

namespace Sys2Proof.Machine

theorem State.endPoll_keeps {s t : State} (h : s.Keeps t) (b : Fin 2) (e : Nat) (code : Nat) : s.Keeps (State.endPoll t b e code) := by
  unfold State.endPoll; try dsimp only
  repeat' (first | with_reducible assumption | intro _ | with_reducible apply State.keeps_ite | with_reducible apply State.keeps_ite₁ | with_reducible apply State.keeps_ite₂ | with_reducible apply State.setB_keeps | with_reducible apply State.setF_keeps | with_reducible apply State.updBus_keeps | split | dsimp only | fail_if_no_progress with_reducible refine State.keeps_lit ?_ rfl rfl rfl rfl rfl)

theorem State.takeCells_keeps {s t : State} (h : s.Keeps t) (i : Fin 6) : s.Keeps (State.takeCells t i) := by
  unfold State.takeCells; try dsimp only
  repeat' (first | with_reducible assumption | intro _ | with_reducible apply State.keeps_ite | with_reducible apply State.keeps_ite₁ | with_reducible apply State.keeps_ite₂ | with_reducible apply State.updBat_keeps | with_reducible apply State.fold_keeps | split | dsimp only | fail_if_no_progress with_reducible refine State.keeps_lit ?_ rfl rfl rfl rfl rfl)

theorem State.takeTemps_keeps {s t : State} (h : s.Keeps t) (i : Fin 6) : s.Keeps (State.takeTemps t i) := by
  unfold State.takeTemps; try dsimp only
  repeat' (first | with_reducible assumption | intro _ | with_reducible apply State.keeps_ite | with_reducible apply State.keeps_ite₁ | with_reducible apply State.keeps_ite₂ | with_reducible apply State.updBat_keeps | with_reducible apply State.fold_keeps | split | dsimp only | fail_if_no_progress with_reducible refine State.keeps_lit ?_ rfl rfl rfl rfl rfl)

theorem State.takeStatus_keeps {s t : State} (h : s.Keeps t) (k : Nat) (w : Nat) : s.Keeps (State.takeStatus t k w) := by
  unfold State.takeStatus; try dsimp only
  repeat' (first | with_reducible assumption | intro _ | with_reducible apply State.keeps_ite | with_reducible apply State.keeps_ite₁ | with_reducible apply State.keeps_ite₂ | with_reducible apply State.setB_keeps | with_reducible apply State.setF_keeps | with_reducible apply State.when_keeps | with_reducible apply State.rectOffline_keeps | split | dsimp only | fail_if_no_progress with_reducible refine State.keeps_lit ?_ rfl rfl rfl rfl rfl)

theorem State.consume_keeps {s t : State} (h : s.Keeps t) (b : Fin 2) (e : Nat) (data : List Byte) : s.Keeps (State.consume t b e data) := by
  unfold State.consume; try dsimp only
  repeat' (first | with_reducible assumption | intro _ | with_reducible apply State.keeps_ite | with_reducible apply State.keeps_ite₁ | with_reducible apply State.keeps_ite₂ | with_reducible apply State.takeCells_keeps | with_reducible apply State.takeTemps_keeps | with_reducible apply State.updBat_keeps | with_reducible apply State.takeStatus_keeps | with_reducible apply State.setReg_keeps | with_reducible apply State.evalHot_keeps | split | dsimp only | fail_if_no_progress with_reducible refine State.keeps_lit ?_ rfl rfl rfl rfl rfl)

theorem State.agePolls_keeps {s t : State} (h : s.Keeps t)  : s.Keeps (State.agePolls t) := by
  unfold State.agePolls; try dsimp only
  repeat' (first | with_reducible assumption | intro _ | with_reducible apply State.keeps_ite | with_reducible apply State.keeps_ite₁ | with_reducible apply State.keeps_ite₂ | with_reducible apply State.each_keeps' | with_reducible apply State.when_keeps | with_reducible apply State.incF_keeps | split | dsimp only | fail_if_no_progress with_reducible refine State.keeps_lit ?_ rfl rfl rfl rfl rfl)

theorem State.hangCur_keeps {s t : State} (h : s.Keeps t) (b : Fin 2) : s.Keeps (State.hangCur t b) := by
  unfold State.hangCur; try dsimp only
  repeat' (first | with_reducible assumption | intro _ | with_reducible apply State.keeps_ite | with_reducible apply State.keeps_ite₁ | with_reducible apply State.keeps_ite₂ | with_reducible apply State.updBus_keeps | with_reducible apply State.endPoll_keeps | split | dsimp only | fail_if_no_progress with_reducible refine State.keeps_lit ?_ rfl rfl rfl rfl rfl)

theorem State.cureBus_keeps {s t : State} (h : s.Keeps t) (b : Fin 2) (line : Nat) : s.Keeps (State.cureBus t b line) := by
  unfold State.cureBus; try dsimp only
  repeat' (first | with_reducible assumption | intro _ | with_reducible apply State.keeps_ite | with_reducible apply State.keeps_ite₁ | with_reducible apply State.keeps_ite₂ | with_reducible apply State.incF_keeps | with_reducible apply State.setB_keeps | with_reducible apply State.updBus_keeps | with_reducible apply State.recordSrc_keeps | with_reducible apply State.raise_keeps | split | dsimp only | fail_if_no_progress with_reducible refine State.keeps_lit ?_ rfl rfl rfl rfl rfl)

theorem fldPwrcycle_keeps {s t : State} (h : s.Keeps t) (b : Fin 2) (confirm : BitVec 16) : s.Keeps (fldPwrcycle b confirm t).1 := by
  unfold fldPwrcycle; try dsimp only
  repeat' (first | with_reducible assumption | intro _ | with_reducible apply State.keeps_ite | with_reducible apply State.keeps_ite₁ | with_reducible apply State.keeps_ite₂ | with_reducible apply State.setB_keeps | with_reducible apply State.hangCur_keeps | with_reducible apply State.cureBus_keeps | with_reducible apply State.accepted_keeps | split | dsimp only | fail_if_no_progress with_reducible refine State.keeps_lit ?_ rfl rfl rfl rfl rfl)

theorem State.followStale_keeps {s t : State} (h : s.Keeps t)  : s.Keeps (State.followStale t) := by
  unfold State.followStale; try dsimp only
  repeat' (first | with_reducible assumption | intro _ | with_reducible apply State.keeps_ite | with_reducible apply State.keeps_ite₁ | with_reducible apply State.keeps_ite₂ | with_reducible apply State.each_keeps' | with_reducible apply State.when_keeps | with_reducible apply State.lower_keeps | with_reducible apply State.follow_keeps | split | dsimp only | fail_if_no_progress with_reducible refine State.keeps_lit ?_ rfl rfl rfl rfl rfl)

theorem State.startPoll_keeps {s t : State} (h : s.Keeps t) (b : Fin 2) (e : Nat) : s.Keeps (State.startPoll t b e) := by
  unfold State.startPoll; try dsimp only
  repeat' (first | with_reducible assumption | intro _ | with_reducible apply State.keeps_ite | with_reducible apply State.keeps_ite₁ | with_reducible apply State.keeps_ite₂ | with_reducible apply State.setF_keeps | with_reducible apply State.setB_keeps | with_reducible apply State.updBus_keeps | split | dsimp only | fail_if_no_progress with_reducible refine State.keeps_lit ?_ rfl rfl rfl rfl rfl)

end Sys2Proof.Machine
end

