-- ==== Sys2Proof/Laws/KeepsOwl.lean ====
section
/-! SUPPORT. What the operations of Machine/Owl.lean leave alone. -/

set_option linter.unusedTactic false
set_option linter.unreachableTactic false

namespace Sys2Proof.Machine

theorem State.owlRefuse_keeps {s t : State} (h : s.Keeps t) (code : Nat) : s.Keeps (State.owlRefuse t code).1 := by
  unfold State.owlRefuse; try dsimp only
  repeat' (first | with_reducible assumption | intro _ | with_reducible apply State.keeps_ite | with_reducible apply State.keeps_ite₁ | with_reducible apply State.keeps_ite₂ | with_reducible apply State.setB_keeps | split | dsimp only | fail_if_no_progress with_reducible refine State.keeps_lit ?_ rfl rfl rfl rfl rfl)

theorem owlClear_keeps {s t : State} (h : s.Keeps t) (confirm : BitVec 16) : s.Keeps (owlClear confirm t).1 := by
  unfold owlClear; try dsimp only
  repeat' (first | with_reducible assumption | intro _ | with_reducible apply State.keeps_ite | with_reducible apply State.keeps_ite₁ | with_reducible apply State.keeps_ite₂ | with_reducible apply State.owlRefuse_keeps | with_reducible apply State.setReg_keeps | with_reducible apply State.accepted_keeps | with_reducible apply State.when_keeps | with_reducible apply State.setB_keeps | with_reducible apply State.record_keeps | with_reducible apply State.raise_keeps | split | dsimp only | fail_if_no_progress with_reducible refine State.keeps_lit ?_ rfl rfl rfl rfl rfl)

theorem owlSnap_keeps {s t : State} (h : s.Keeps t) (confirm : BitVec 16) : s.Keeps (owlSnap confirm t).1 := by
  unfold owlSnap; try dsimp only
  repeat' (first | with_reducible assumption | intro _ | with_reducible apply State.keeps_ite | with_reducible apply State.keeps_ite₁ | with_reducible apply State.keeps_ite₂ | with_reducible apply State.owlRefuse_keeps | with_reducible apply State.snapTrigger_keeps | with_reducible apply State.accepted_keeps | split | dsimp only | fail_if_no_progress with_reducible refine State.keeps_lit ?_ rfl rfl rfl rfl rfl)

theorem State.drawWords_keeps {s t : State} (h : s.Keeps t) (k : Nat) : s.Keeps (t.drawWords k).1 := by
  induction k generalizing t with
  | zero => exact h
  | succ k ih => exact ih (State.draw_keeps h)

theorem State.readSlot_keeps {s t : State} (h : s.Keeps t) (k : Nat) (writing : Bool) : s.Keeps (State.readSlot t k writing).1 := by
  unfold State.readSlot; try dsimp only
  repeat' (first | with_reducible assumption | intro _ | with_reducible apply State.keeps_ite | with_reducible apply State.keeps_ite₁ | with_reducible apply State.keeps_ite₂ | with_reducible apply State.drawWords_keeps | split | dsimp only | fail_if_no_progress with_reducible refine State.keeps_lit ?_ rfl rfl rfl rfl rfl)

theorem State.finishClear_keeps {s t : State} (h : s.Keeps t)  : s.Keeps (State.finishClear t) := by
  unfold State.finishClear; try dsimp only
  repeat' (first | with_reducible assumption | intro _ | with_reducible apply State.keeps_ite | with_reducible apply State.keeps_ite₁ | with_reducible apply State.keeps_ite₂ | with_reducible apply State.setF_keeps | with_reducible apply State.setReg_keeps | with_reducible apply State.setB_keeps | split | dsimp only | fail_if_no_progress with_reducible refine State.keeps_lit ?_ rfl rfl rfl rfl rfl)

theorem State.finishClear_moves {s t : State} (h : s.Moves t)  : s.Moves (State.finishClear t) :=
  h.keeps (State.finishClear_keeps (State.keeps_refl _))

theorem State.putSlot_keeps {s t : State} (h : s.Keeps t) (k : Nat) (v : OwlSlot) : s.Keeps (State.putSlot t k v) := by
  unfold State.putSlot; try dsimp only
  repeat' (first | with_reducible assumption | intro _ | with_reducible apply State.keeps_ite | with_reducible apply State.keeps_ite₁ | with_reducible apply State.keeps_ite₂ | split | dsimp only | fail_if_no_progress with_reducible refine State.keeps_lit ?_ rfl rfl rfl rfl rfl)

theorem State.overflowRecord_keeps {s t : State} (h : s.Keeps t)  : s.Keeps (State.overflowRecord t) := by
  unfold State.overflowRecord; try dsimp only
  repeat' (first | with_reducible assumption | intro _ | with_reducible apply State.keeps_ite | with_reducible apply State.keeps_ite₁ | with_reducible apply State.keeps_ite₂ | with_reducible apply State.setB_keeps | with_reducible apply State.setReg_keeps | with_reducible apply State.putSlot_keeps | split | dsimp only | fail_if_no_progress with_reducible refine State.keeps_lit ?_ rfl rfl rfl rfl rfl)

theorem State.lostFull_keeps {s t : State} (h : s.Keeps t)  : s.Keeps (State.lostFull t) := by
  unfold State.lostFull; try dsimp only
  repeat' (first | with_reducible assumption | intro _ | with_reducible apply State.keeps_ite | with_reducible apply State.keeps_ite₁ | with_reducible apply State.keeps_ite₂ | with_reducible apply State.incF_keeps | with_reducible apply State.overflowRecord_keeps | with_reducible apply State.raise_keeps | split | dsimp only | fail_if_no_progress with_reducible refine State.keeps_lit ?_ rfl rfl rfl rfl rfl)

theorem State.snapRead_keeps {s t : State} (h : s.Keeps t)  : s.Keeps (State.snapRead t).1 := by
  unfold State.snapRead; try dsimp only
  repeat' (first | with_reducible assumption | intro _ | with_reducible apply State.keeps_ite | with_reducible apply State.keeps_ite₁ | with_reducible apply State.keeps_ite₂ | with_reducible apply State.setF_keeps | split | dsimp only | fail_if_no_progress with_reducible refine State.keeps_lit ?_ rfl rfl rfl rfl rfl)

theorem State.advanceNext_keeps {s t : State} (h : s.Keeps t)  : s.Keeps (State.advanceNext t) := by
  unfold State.advanceNext; try dsimp only
  repeat' (first | with_reducible assumption | intro _ | with_reducible apply State.keeps_ite | with_reducible apply State.keeps_ite₁ | with_reducible apply State.keeps_ite₂ | with_reducible apply State.setB_keeps | with_reducible apply State.setF_keeps | split | dsimp only | fail_if_no_progress with_reducible refine State.keeps_lit ?_ rfl rfl rfl rfl rfl)

theorem State.tryRecord_keeps {s t : State} (h : s.Keeps t) (r : OwlRec) (fails : Bool) : s.Keeps (State.tryRecord t r fails).1 := by
  unfold State.tryRecord; try dsimp only
  repeat' (first | with_reducible assumption | intro _ | with_reducible apply State.keeps_ite | with_reducible apply State.keeps_ite₁ | with_reducible apply State.keeps_ite₂ | with_reducible apply State.lostFull_keeps | with_reducible apply State.raise_keeps | with_reducible apply State.advanceNext_keeps | with_reducible apply State.putSlot_keeps | split | dsimp only | fail_if_no_progress with_reducible refine State.keeps_lit ?_ rfl rfl rfl rfl rfl)

theorem owlIdxWrite_keeps {s t : State} (h : s.Keeps t) (v : Word) (writing : Bool) : s.Keeps (owlIdxWrite v writing t).1 := by
  unfold owlIdxWrite; try dsimp only
  repeat' (first | with_reducible assumption | intro _ | with_reducible apply State.keeps_ite | with_reducible apply State.keeps_ite₁ | with_reducible apply State.keeps_ite₂ | with_reducible apply State.readSlot_keeps | with_reducible apply State.setF_keeps | with_reducible apply State.setRegs_keeps | split | dsimp only | fail_if_no_progress with_reducible refine State.keeps_lit ?_ rfl rfl rfl rfl rfl)

theorem owlIdxWrite_moves {s t : State} (h : s.Moves t) (v : Word) (writing : Bool) : s.Moves (owlIdxWrite v writing t).1 :=
  h.keeps (owlIdxWrite_keeps (State.keeps_refl _) _ _)

theorem State.writeTimeSlot_keeps {s t : State} (h : s.Keeps t)  : s.Keeps (State.writeTimeSlot t) := by
  unfold State.writeTimeSlot; try dsimp only
  repeat' (first | with_reducible assumption | intro _ | with_reducible apply State.keeps_ite | with_reducible apply State.keeps_ite₁ | with_reducible apply State.keeps_ite₂ | with_reducible apply State.when_keeps | split | dsimp only | fail_if_no_progress with_reducible refine State.keeps_lit ?_ rfl rfl rfl rfl rfl)

end Sys2Proof.Machine
end

