-- ==== Sys2Proof/Laws/KeepsOverlay.lean ====
section
/-! SUPPORT. What the operations of Machine/Overlay.lean leave alone. -/

set_option linter.unusedTactic false
set_option linter.unreachableTactic false

namespace Sys2Proof.Machine

theorem State.layEntry_keeps {s t : State} (h : s.Keeps t) (p : Nat × Word) : s.Keeps (State.layEntry t p) := by
  unfold State.layEntry; try dsimp only
  repeat' (first | with_reducible assumption | intro _ | with_reducible apply State.keeps_ite | with_reducible apply State.keeps_ite₁ | with_reducible apply State.keeps_ite₂ | with_reducible apply State.setReg_keeps | with_reducible apply State.incF_keeps | split | dsimp only | fail_if_no_progress with_reducible refine State.keeps_lit ?_ rfl rfl rfl rfl rfl)

theorem State.layBank_keeps {s t : State} (h : s.Keeps t) (im : Image) (k : Fin 2) (b : Bank) (rules : Option (List MigRule)) : s.Keeps (State.layBank t im k b rules) := by
  unfold State.layBank; try dsimp only
  repeat' (first | with_reducible assumption | intro _ | with_reducible apply State.keeps_ite | with_reducible apply State.keeps_ite₁ | with_reducible apply State.keeps_ite₂ | with_reducible apply State.layEntry_keeps | with_reducible apply State.setReg_keeps | with_reducible apply State.setB_keeps | with_reducible apply State.setF_keeps | with_reducible apply State.fold_keeps | split | dsimp only | fail_if_no_progress with_reducible refine State.keeps_lit ?_ rfl rfl rfl rfl rfl)

theorem State.useBanks_keeps {s t : State} (h : s.Keeps t) (im : Image) (l : List (Fin 2 × Bank)) : s.Keeps (t.useBanks im l) := by
  induction l generalizing t with
  | nil => exact State.setB_keeps h _ _ _
  | cons x l ih =>
    obtain ⟨k, b⟩ := x
    unfold State.useBanks
    split
    · exact State.layBank_keeps h _ _ _ _
    · exact State.layBank_keeps h _ _ _ _
    · exact ih (State.setB_keeps h _ _ _)
    · exact ih (State.setB_keeps h _ _ _)

theorem State.putBank_keeps {s t : State} (h : s.Keeps t) (k : Fin 2) (b : Bank) : s.Keeps (State.putBank t k b) := by
  unfold State.putBank; try dsimp only
  repeat' (first | with_reducible assumption | intro _ | with_reducible apply State.keeps_ite | with_reducible apply State.keeps_ite₁ | with_reducible apply State.keeps_ite₂ | split | dsimp only | fail_if_no_progress with_reducible refine State.keeps_lit ?_ rfl rfl rfl rfl rfl)

theorem State.layCalib_keeps {s t : State} (h : s.Keeps t) (p : Nat × Word) : s.Keeps (State.layCalib t p) := by
  unfold State.layCalib; try dsimp only
  repeat' (first | with_reducible assumption | intro _ | with_reducible apply State.keeps_ite | with_reducible apply State.keeps_ite₁ | with_reducible apply State.keeps_ite₂ | with_reducible apply State.setReg_keeps | split | dsimp only | fail_if_no_progress with_reducible refine State.keeps_lit ?_ rfl rfl rfl rfl rfl)

theorem State.layCalibs_keeps {s t : State} (h : s.Keeps t)  : s.Keeps (State.layCalibs t) := by
  unfold State.layCalibs; try dsimp only
  repeat' (first | with_reducible assumption | intro _ | with_reducible apply State.keeps_ite | with_reducible apply State.keeps_ite₁ | with_reducible apply State.keeps_ite₂ | with_reducible apply State.layCalib_keeps | with_reducible apply State.fold_keeps | split | dsimp only | fail_if_no_progress with_reducible refine State.keeps_lit ?_ rfl rfl rfl rfl rfl)

theorem State.layOverlay_keeps {s t : State} (h : s.Keeps t) (im : Image) : s.Keeps (State.layOverlay t im) := by
  unfold State.layOverlay; try dsimp only
  repeat' (first | with_reducible assumption | intro _ | with_reducible apply State.keeps_ite | with_reducible apply State.keeps_ite₁ | with_reducible apply State.keeps_ite₂ | with_reducible apply State.layCalibs_keeps | with_reducible apply State.setB_keeps | with_reducible apply State.useBanks_keeps | split | dsimp only | fail_if_no_progress with_reducible refine State.keeps_lit ?_ rfl rfl rfl rfl rfl)

theorem State.layOverlay_moves {s t : State} (h : s.Moves t) (im : Image) : s.Moves (State.layOverlay t im) :=
  h.keeps (State.layOverlay_keeps (State.keeps_refl _) _)

end Sys2Proof.Machine
end

