-- ==== Sys2Proof/Laws/KeepsTxn.lean ====
section
/-! SUPPORT. What the operations of Machine/Txn.lean leave alone. -/

set_option linter.unusedTactic false
set_option linter.unreachableTactic false

namespace Sys2Proof.Machine

theorem State.endTxn_keeps {s t : State} (h : s.Keeps t) (result : Nat) : s.Keeps (State.endTxn t result) := by
  unfold State.endTxn; try dsimp only
  repeat' (first | with_reducible assumption | intro _ | with_reducible apply State.keeps_ite | with_reducible apply State.keeps_ite₁ | with_reducible apply State.keeps_ite₂ | with_reducible apply State.setF_keeps | split | dsimp only | fail_if_no_progress with_reducible refine State.keeps_lit ?_ rfl rfl rfl rfl rfl)

theorem State.endTxn_moves {s t : State} (h : s.Moves t) (result : Nat) : s.Moves (State.endTxn t result) :=
  h.keeps (State.endTxn_keeps (State.keeps_refl _) _)

theorem State.startStore_keeps {s t : State} (h : s.Keeps t)  : s.Keeps (State.startStore t) := by
  unfold State.startStore; try dsimp only
  repeat' (first | with_reducible assumption | intro _ | with_reducible apply State.keeps_ite | with_reducible apply State.keeps_ite₁ | with_reducible apply State.keeps_ite₂ | with_reducible apply State.setB_keeps | split | dsimp only | fail_if_no_progress with_reducible refine State.keeps_lit ?_ rfl rfl rfl rfl rfl)

theorem storeBegin_keeps {s t : State} (h : s.Keeps t)  : s.Keeps (storeBegin t).1 := by
  unfold storeBegin; try dsimp only
  repeat' (first | with_reducible assumption | intro _ | with_reducible apply State.keeps_ite | with_reducible apply State.keeps_ite₁ | with_reducible apply State.keeps_ite₂ | with_reducible apply State.setB_keeps | with_reducible apply State.startStore_keeps | split | dsimp only | fail_if_no_progress with_reducible refine State.keeps_lit ?_ rfl rfl rfl rfl rfl)

theorem storeCommand_keeps {s t : State} (h : s.Keeps t) (confirm : BitVec 16) : s.Keeps (storeCommand confirm t).1 := by
  unfold storeCommand; try dsimp only
  repeat' (first | with_reducible assumption | intro _ | with_reducible apply State.keeps_ite | with_reducible apply State.keeps_ite₁ | with_reducible apply State.keeps_ite₂ | with_reducible apply State.setB_keeps | with_reducible apply storeBegin_keeps | with_reducible apply State.accepted_keeps | split | dsimp only | fail_if_no_progress with_reducible refine State.keeps_lit ?_ rfl rfl rfl rfl rfl)

theorem State.commitTxn_keeps {s t : State} (h : s.Keeps t)  : s.Keeps (State.commitTxn t) := by
  unfold State.commitTxn; try dsimp only
  repeat' (first | with_reducible assumption | intro _ | with_reducible apply State.keeps_ite | with_reducible apply State.keeps_ite₁ | with_reducible apply State.keeps_ite₂ | with_reducible apply State.endTxn_keeps | with_reducible apply State.setF_keeps | split | dsimp only | fail_if_no_progress with_reducible refine State.keeps_lit ?_ rfl rfl rfl rfl rfl)

theorem txnToken_keeps {s t : State} (h : s.Keeps t) (token : BitVec 8) (cmd : Nat) (g : State → State) (hg : ∀ {y0 : State}, s.Keeps y0 → s.Keeps (g y0)) : s.Keeps (txnToken token cmd g t).1 := by
  unfold txnToken; try dsimp only
  repeat' (first | with_reducible assumption | intro _ | with_reducible apply hg | with_reducible apply State.keeps_ite | with_reducible apply State.keeps_ite₁ | with_reducible apply State.keeps_ite₂ | with_reducible apply State.accepted_keeps | split | dsimp only | fail_if_no_progress with_reducible refine State.keeps_lit ?_ rfl rfl rfl rfl rfl)

theorem txnCommit_keeps {s t : State} (h : s.Keeps t) (token : BitVec 8) : s.Keeps (txnCommit token t).1 := by
  unfold txnCommit; try dsimp only
  repeat' (first | with_reducible assumption | intro _ | with_reducible apply State.keeps_ite | with_reducible apply State.keeps_ite₁ | with_reducible apply State.keeps_ite₂ | with_reducible apply txnToken_keeps | with_reducible apply State.commitTxn_keeps | split | dsimp only | fail_if_no_progress with_reducible refine State.keeps_lit ?_ rfl rfl rfl rfl rfl)

theorem State.openTxn_keeps {s t : State} (h : s.Keeps t) (p : Port) : s.Keeps (State.openTxn t p) := by
  unfold State.openTxn; try dsimp only
  repeat' (first | with_reducible assumption | intro _ | with_reducible apply State.keeps_ite | with_reducible apply State.keeps_ite₁ | with_reducible apply State.keeps_ite₂ | with_reducible apply State.setB_keeps | with_reducible apply State.setF_keeps | split | dsimp only | fail_if_no_progress with_reducible refine State.keeps_lit ?_ rfl rfl rfl rfl rfl)

theorem txnBegin_keeps {s t : State} (h : s.Keeps t) (p : Port) : s.Keeps (txnBegin p t).1 := by
  unfold txnBegin; try dsimp only
  repeat' (first | with_reducible assumption | intro _ | with_reducible apply State.keeps_ite | with_reducible apply State.keeps_ite₁ | with_reducible apply State.keeps_ite₂ | with_reducible apply State.openTxn_keeps | with_reducible apply State.accepted_keeps | split | dsimp only | fail_if_no_progress with_reducible refine State.keeps_lit ?_ rfl rfl rfl rfl rfl)

theorem State.layShadows_keeps {s t : State} (h : s.Keeps t) : s.Keeps t.layShadows := by
  unfold State.layShadows
  generalize t.txn.shadows = l
  induction l with
  | nil => exact h
  | cons x l ih => exact State.setReg_keeps ih _ _

theorem txnRollback_keeps {s t : State} (h : s.Keeps t) (token : BitVec 8) : s.Keeps (txnRollback token t).1 := by
  unfold txnRollback; try dsimp only
  repeat' (first | with_reducible assumption | intro _ | with_reducible apply State.keeps_ite | with_reducible apply State.keeps_ite₁ | with_reducible apply State.keeps_ite₂ | with_reducible apply txnToken_keeps | with_reducible apply State.endTxn_keeps | split | dsimp only | fail_if_no_progress with_reducible refine State.keeps_lit ?_ rfl rfl rfl rfl rfl)

end Sys2Proof.Machine
end

