-- ==== Sys2Proof/Laws/KeepsBoot.lean ====
section
/-! SUPPORT. What the operations of Machine/Boot.lean leave alone. -/

set_option linter.unusedTactic false
set_option linter.unreachableTactic false

namespace Sys2Proof.Machine

theorem State.beginChannels_keeps {s t : State} (h : s.Keeps t)  : s.Keeps (State.beginChannels t) := by
  unfold State.beginChannels; try dsimp only
  repeat' (first | with_reducible assumption | intro _ | with_reducible apply State.keeps_ite | with_reducible apply State.keeps_ite₁ | with_reducible apply State.keeps_ite₂ | with_reducible apply State.each_keeps' | with_reducible apply State.when_keeps | with_reducible apply State.chBegin_keeps | split | dsimp only | fail_if_no_progress with_reducible refine State.keeps_lit ?_ rfl rfl rfl rfl rfl)

theorem State.beginChannels_moves {s t : State} (h : s.Moves t)  : s.Moves (State.beginChannels t) :=
  h.keeps (State.beginChannels_keeps (State.keeps_refl _))

theorem State.copyFields_keeps {s t : State} (h : s.Keeps t) (v : State) (l : List Fld) : s.Keeps (t.copyFields v l) :=
  State.each_keeps' h l fun _ h => State.setF_keeps h _ _ _

theorem State.reseatAtBoot_keeps {s t : State} (h : s.Keeps t)  : s.Keeps (State.reseatAtBoot t) := by
  unfold State.reseatAtBoot; try dsimp only
  repeat' (first | with_reducible assumption | intro _ | with_reducible apply State.keeps_ite | with_reducible apply State.keeps_ite₁ | with_reducible apply State.keeps_ite₂ | with_reducible apply State.when_keeps | with_reducible apply State.saveState_keeps | with_reducible apply State.setB_keeps | with_reducible apply State.clearTrips_keeps | split | dsimp only | fail_if_no_progress with_reducible refine State.keeps_lit ?_ rfl rfl rfl rfl rfl)

theorem State.reseatAtBoot_moves {s t : State} (h : s.Moves t)  : s.Moves (State.reseatAtBoot t) :=
  h.keeps (State.reseatAtBoot_keeps (State.keeps_refl _))

theorem State.Moves.enterStandby {s t : State} (h : s.Moves t) (hn : t.dev ≠ .safe) (failed : List (Bool × Nat)) :
    s.Moves (t.enterStandby failed) := by
  have h1 : s.Moves (t.enter .standby) := h.enter .standby (fun x => absurd x hn)
  unfold State.enterStandby; dsimp only
  refine State.evalOnreq_moves (State.evalBen_moves (State.reseatAtBoot_moves (State.setB_moves (State.when_moves
    (State.record_moves (State.each_moves (State.setB_moves ?_ _ _ _) _ ?_) _ _) _ ?_) _ _ _)))
  · with_reducible apply State.moves_lit h1 <;> rfl
  · exact fun _ k => State.record_moves k _ _
  · exact fun k => State.finishClear_moves k

theorem State.updRecord_keeps {s t : State} (h : s.Keeps t) (sub : Nat) (slot : Bool) (secver : Nat) : s.Keeps (State.updRecord t sub slot secver) := by
  unfold State.updRecord; try dsimp only
  repeat' (first | with_reducible assumption | intro _ | with_reducible apply State.keeps_ite | with_reducible apply State.keeps_ite₁ | with_reducible apply State.keeps_ite₂ | with_reducible apply State.record_keeps | split | dsimp only | fail_if_no_progress with_reducible refine State.keeps_lit ?_ rfl rfl rfl rfl rfl)

theorem State.updRecord_moves {s t : State} (h : s.Moves t) (sub : Nat) (slot : Bool) (secver : Nat) : s.Moves (State.updRecord t sub slot secver) :=
  h.keeps (State.updRecord_keeps (State.keeps_refl _) _ _ _)

theorem State.layKept_keeps {s t : State} (h : s.Keeps t) (v : State) : s.Keeps (t.layKept v) := by
  unfold State.layKept
  refine State.copyFields_keeps (State.fold_keeps h _ fun x h => ?_) _ _
  exact State.keeps_ite h (State.setReg_keeps h _ _)

theorem State.bootReport_keeps {s t : State} (h : s.Keeps t) (i : BootInput) (slot : Nat) (fallback : Bool) (errA : Nat) (errB : Nat) : s.Keeps (State.bootReport t i slot fallback errA errB) := by
  unfold State.bootReport; try dsimp only
  repeat' (first | with_reducible assumption | intro _ | with_reducible apply State.keeps_ite | with_reducible apply State.keeps_ite₁ | with_reducible apply State.keeps_ite₂ | with_reducible apply State.setB_keeps | with_reducible apply State.setF_keeps | split | dsimp only | fail_if_no_progress with_reducible refine State.keeps_lit ?_ rfl rfl rfl rfl rfl)

theorem State.bootReport_moves {s t : State} (h : s.Moves t) (i : BootInput) (slot : Nat) (fallback : Bool) (errA : Nat) (errB : Nat) : s.Moves (State.bootReport t i slot fallback errA errB) :=
  h.keeps (State.bootReport_keeps (State.keeps_refl _) _ _ _ _ _)

theorem State.lanes_keeps {s t : State} (h : s.Keeps t) (i : BootInput) : s.Keeps (State.lanes t i) := by
  unfold State.lanes; try dsimp only
  repeat' (first | with_reducible assumption | intro _ | with_reducible apply State.keeps_ite | with_reducible apply State.keeps_ite₁ | with_reducible apply State.keeps_ite₂ | with_reducible apply State.setF_keeps | with_reducible apply State.each_keeps' | with_reducible apply State.when_keeps | with_reducible apply State.raise_keeps | with_reducible apply State.updPh_keeps | split | dsimp only | fail_if_no_progress with_reducible refine State.keeps_lit ?_ rfl rfl rfl rfl rfl)

theorem State.lanes_moves {s t : State} (h : s.Moves t) (i : BootInput) : s.Moves (State.lanes t i) :=
  h.keeps (State.lanes_keeps (State.keeps_refl _) _)

theorem State.showBootRec_keeps {s t : State} (h : s.Keeps t)  : s.Keeps (State.showBootRec t) := by
  unfold State.showBootRec; try dsimp only
  repeat' (first | with_reducible assumption | intro _ | with_reducible apply State.keeps_ite | with_reducible apply State.keeps_ite₁ | with_reducible apply State.keeps_ite₂ | with_reducible apply State.setF_keeps | with_reducible apply State.setB_keeps | split | dsimp only | fail_if_no_progress with_reducible refine State.keeps_lit ?_ rfl rfl rfl rfl rfl)

theorem State.restoreNvm_keeps {s t : State} (h : s.Keeps t)  : s.Keeps (State.restoreNvm t) := by
  unfold State.restoreNvm; try dsimp only
  repeat' (first | with_reducible assumption | intro _ | with_reducible apply State.keeps_ite | with_reducible apply State.keeps_ite₁ | with_reducible apply State.keeps_ite₂ | with_reducible apply State.each_keeps' | with_reducible apply State.setF_keeps | with_reducible apply State.setB_keeps | with_reducible apply State.updCl_keeps | with_reducible apply State.setReg_keeps | with_reducible apply State.showBootRec_keeps | split | dsimp only | fail_if_no_progress with_reducible refine State.keeps_lit ?_ rfl rfl rfl rfl rfl)

theorem State.restoreNvm_moves {s t : State} (h : s.Moves t)  : s.Moves (State.restoreNvm t) :=
  h.keeps (State.restoreNvm_keeps (State.keeps_refl _))

theorem State.startBat_keeps {s t : State} (h : s.Keeps t) (i : Fin 6) : s.Keeps (State.startBat t i) := by
  unfold State.startBat; try dsimp only
  repeat' (first | with_reducible assumption | intro _ | with_reducible apply State.keeps_ite | with_reducible apply State.keeps_ite₁ | with_reducible apply State.keeps_ite₂ | with_reducible apply State.updBat_keeps | with_reducible apply State.setB_keeps | split | dsimp only | fail_if_no_progress with_reducible refine State.keeps_lit ?_ rfl rfl rfl rfl rfl)

theorem State.startBat_moves {s t : State} (h : s.Moves t) (i : Fin 6) : s.Moves (State.startBat t i) :=
  h.keeps (State.startBat_keeps (State.keeps_refl _) _)

theorem State.setBootRec_keeps {s t : State} (h : s.Keeps t) (g : BootRec → BootRec) : s.Keeps (State.setBootRec t g) := by
  unfold State.setBootRec; try dsimp only
  repeat' (first | with_reducible assumption | intro _ | with_reducible apply State.keeps_ite | with_reducible apply State.keeps_ite₁ | with_reducible apply State.keeps_ite₂ | with_reducible apply State.showBootRec_keeps | split | dsimp only | fail_if_no_progress with_reducible refine State.keeps_lit ?_ rfl rfl rfl rfl rfl)

theorem State.setBootRec_moves {s t : State} (h : s.Moves t) (g : BootRec → BootRec) : s.Moves (State.setBootRec t g) :=
  h.keeps (State.setBootRec_keeps (State.keeps_refl _) _)

theorem State.Moves.recover {s t : State} (h : s.Moves t) (hn : t.dev ≠ .safe) (i : BootInput) (errA errB : Nat)
    (failed : List (Bool × Nat)) : s.Moves (t.recover i errA errB failed) := by
  have k : t.Keeps (((t.bootReport i 3 false errA errB).restoreNvm).setB F.IMG_OVLSTAT_NONE 0 true) :=
    State.setB_keeps (State.restoreNvm_keeps (State.bootReport_keeps (State.keeps_refl t) _ _ _ _ _)) _ _ _
  exact (h.keeps k).enterStandby (k.notSafe hn) failed

theorem State.activate_keeps {s t : State} (h : s.Keeps t) (cause : Nat) : s.Keeps (State.activate t cause) := by
  unfold State.activate; try dsimp only
  repeat' (first | with_reducible assumption | intro _ | with_reducible apply State.keeps_ite | with_reducible apply State.keeps_ite₁ | with_reducible apply State.keeps_ite₂ | with_reducible apply State.updRecord_keeps | with_reducible apply State.setBootRec_keeps | with_reducible apply State.showBootRec_keeps | split | dsimp only | fail_if_no_progress with_reducible refine State.keeps_lit ?_ rfl rfl rfl rfl rfl)

theorem State.activate_moves {s t : State} (h : s.Moves t) (cause : Nat) : s.Moves (State.activate t cause) :=
  h.keeps (State.activate_keeps (State.keeps_refl _) _)

theorem State.restoreLost_keeps {s t : State} (h : s.Keeps t)  : s.Keeps (State.restoreLost t) := by
  unfold State.restoreLost; try dsimp only
  repeat' (first | with_reducible assumption | intro _ | with_reducible apply State.keeps_ite | with_reducible apply State.keeps_ite₁ | with_reducible apply State.keeps_ite₂ | with_reducible apply State.setF_keeps | with_reducible apply State.setReg_keeps | split | dsimp only | fail_if_no_progress with_reducible refine State.keeps_lit ?_ rfl rfl rfl rfl rfl)

end Sys2Proof.Machine
end

