-- ==== Sys2Proof/Laws/KeepsPower.lean ====
section
/-! SUPPORT. What the operations of Machine/Power.lean leave alone. -/

set_option linter.unusedTactic false
set_option linter.unreachableTactic false

namespace Sys2Proof.Machine

theorem State.lastGasp_keeps {s t : State} (h : s.Keeps t)  : s.Keeps (State.lastGasp t) := by
  unfold State.lastGasp; try dsimp only
  repeat' (first | with_reducible assumption | intro _ | with_reducible apply State.keeps_ite | with_reducible apply State.keeps_ite₁ | with_reducible apply State.keeps_ite₂ | with_reducible apply State.record_keeps | with_reducible apply State.saveState_keeps | split | dsimp only | fail_if_no_progress with_reducible refine State.keeps_lit ?_ rfl rfl rfl rfl rfl)

theorem State.lastGasp_moves {s t : State} (h : s.Moves t)  : s.Moves (State.lastGasp t) :=
  h.keeps (State.lastGasp_keeps (State.keeps_refl _))

theorem State.devRefuse_keeps {s t : State} (h : s.Keeps t) (code : Nat) : s.Keeps (State.devRefuse t code).1 := by
  unfold State.devRefuse; try dsimp only
  repeat' (first | with_reducible assumption | intro _ | with_reducible apply State.keeps_ite | with_reducible apply State.keeps_ite₁ | with_reducible apply State.keeps_ite₂ | with_reducible apply State.setB_keeps | split | dsimp only | fail_if_no_progress with_reducible refine State.keeps_lit ?_ rfl rfl rfl rfl rfl)

theorem State.devRefuse_moves {s t : State} (h : s.Moves t) (code : Nat) : s.Moves (State.devRefuse t code).1 :=
  h.keeps (State.devRefuse_keeps (State.keeps_refl _) _)

theorem NvmSt.dropStore_serial (n : NvmSt) : n.dropStore.serial = n.serial := by
  unfold NvmSt.dropStore; split <;> rfl
theorem NvmSt.dropStore_svcKey (n : NvmSt) : n.dropStore.svcKey = n.svcKey := by
  unfold NvmSt.dropStore; split <;> rfl

theorem State.abandonStore_keeps {s t : State} (h : s.Keeps t) : s.Keeps t.abandonStore := by
  unfold State.abandonStore
  with_reducible apply State.keeps_lit (State.setB_keeps h F.STORE_STAT_BUSY 0 false)
  · rfl
  · exact NvmSt.dropStore_serial _
  · exact NvmSt.dropStore_svcKey _
  · rfl
  · rfl

theorem State.abandonStore_moves {s t : State} (h : s.Moves t)  : s.Moves (State.abandonStore t) :=
  h.keeps (State.abandonStore_keeps (State.keeps_refl _))

theorem State.dropTxn_keeps {s t : State} (h : s.Keeps t) (result : Nat) : s.Keeps (State.dropTxn t result) := by
  unfold State.dropTxn; try dsimp only
  repeat' (first | with_reducible assumption | intro _ | with_reducible apply State.keeps_ite | with_reducible apply State.keeps_ite₁ | with_reducible apply State.keeps_ite₂ | with_reducible apply State.endTxn_keeps | split | dsimp only | fail_if_no_progress with_reducible refine State.keeps_lit ?_ rfl rfl rfl rfl rfl)

theorem State.dropTxn_moves {s t : State} (h : s.Moves t) (result : Nat) : s.Moves (State.dropTxn t result) :=
  h.keeps (State.dropTxn_keeps (State.keeps_refl _) _)

theorem State.stageAct_moves {s t : State} (h : s.Moves t) (k : Nat) : s.Moves (State.stageAct t k) := by
  unfold State.stageAct; try dsimp only
  repeat' (first | with_reducible assumption | intro _ | with_reducible apply State.moves_ite | with_reducible apply State.moves_ite₁ | with_reducible apply State.stopClose_moves | with_reducible apply State.lastGasp_moves | with_reducible apply State.abandonStore_moves | with_reducible apply State.packageOff_moves | with_reducible apply State.dropTxn_moves | with_reducible apply State.safeOff_moves | split | dsimp only | fail_if_no_progress with_reducible refine State.moves_lit ?_ rfl rfl rfl rfl rfl)

theorem State.eccBadAt_keeps {s t : State} (h : s.Keeps t) (x0 : EccAt) : s.Keeps (State.eccBadAt t x0) := by
  unfold State.eccBadAt; try dsimp only
  repeat' (first | with_reducible assumption | intro _ | with_reducible apply State.keeps_ite | with_reducible apply State.keeps_ite₁ | with_reducible apply State.keeps_ite₂ | with_reducible apply State.engineFailure_keeps | with_reducible apply State.raise_keeps | with_reducible apply State.ringEcc_keeps | with_reducible apply State.fifoEcc_keeps | with_reducible apply State.snapEcc_keeps | with_reducible apply State.updCl_keeps | split | dsimp only | fail_if_no_progress with_reducible refine State.keeps_lit ?_ rfl rfl rfl rfl rfl)

theorem State.stage_moves {s t : State} (h : s.Moves t) (k : Nat) : s.Moves (State.stage t k) := by
  unfold State.stage; try dsimp only
  repeat' (first | with_reducible assumption | intro _ | with_reducible apply State.moves_ite | with_reducible apply State.moves_ite₁ | with_reducible apply State.setF_moves | with_reducible apply State.histAdd_moves | with_reducible apply State.stageAct_moves | split | dsimp only | fail_if_no_progress with_reducible refine State.moves_lit ?_ rfl rfl rfl rfl rfl)

end Sys2Proof.Machine
end

