-- ==== Sys2Proof/Laws/KeepsTap.lean ====
section
/-! SUPPORT. What the operations of Machine/Tap.lean leave alone. -/

set_option linter.unusedTactic false
set_option linter.unreachableTactic false

namespace Sys2Proof.Machine

theorem State.tapLoad_keeps {s t : State} (h : s.Keeps t) (code : BitVec 8) (inst : TapInst) : s.Keeps (State.tapLoad t code inst) := by
  unfold State.tapLoad; try dsimp only
  repeat' (first | with_reducible assumption | intro _ | with_reducible apply State.keeps_ite | with_reducible apply State.keeps_ite₁ | with_reducible apply State.keeps_ite₂ | split | dsimp only | fail_if_no_progress with_reducible refine State.keeps_lit ?_ rfl rfl rfl rfl rfl)

theorem State.tapDrive_keeps {s t : State} (h : s.Keeps t) (code : BitVec 8) (inst : TapInst) : s.Keeps (State.tapDrive t code inst) := by
  unfold State.tapDrive; try dsimp only
  repeat' (first | with_reducible assumption | intro _ | with_reducible apply State.keeps_ite | with_reducible apply State.keeps_ite₁ | with_reducible apply State.keeps_ite₂ | with_reducible apply State.tapLoad_keeps | split | dsimp only | fail_if_no_progress with_reducible refine State.keeps_lit ?_ rfl rfl rfl rfl rfl)

theorem State.freezeTick_keeps {s t : State} (h : s.Keeps t)  : s.Keeps (State.freezeTick t) := by
  unfold State.freezeTick; try dsimp only
  repeat' (first | with_reducible assumption | intro _ | with_reducible apply State.keeps_ite | with_reducible apply State.keeps_ite₁ | with_reducible apply State.keeps_ite₂ | split | dsimp only | fail_if_no_progress with_reducible refine State.keeps_lit ?_ rfl rfl rfl rfl rfl)

end Sys2Proof.Machine
end

