-- ==== Sys2Proof/Laws/KeepsDormouse.lean ====
section
/-! SUPPORT. What the operations of Machine/Dormouse.lean leave alone. -/

set_option linter.unusedTactic false
set_option linter.unreachableTactic false

namespace Sys2Proof.Machine

theorem State.setDmFlag_keeps {s t : State} (h : s.Keeps t) (b : Bool) : s.Keeps (State.setDmFlag t b) := by
  unfold State.setDmFlag; try dsimp only
  repeat' (first | with_reducible assumption | intro _ | with_reducible apply State.keeps_ite | with_reducible apply State.keeps_ite₁ | with_reducible apply State.keeps_ite₂ | with_reducible apply State.saveState_keeps | with_reducible apply State.setB_keeps | split | dsimp only | fail_if_no_progress with_reducible refine State.keeps_lit ?_ rfl rfl rfl rfl rfl)

theorem State.setDmFlag_moves {s t : State} (h : s.Moves t) (b : Bool) : s.Moves (State.setDmFlag t b) :=
  h.keeps (State.setDmFlag_keeps (State.keeps_refl _) _)

theorem devDormouse_moves {s t : State} (h : s.Moves t) (confirm : BitVec 16) : s.Moves (devDormouse confirm t).1 := by
  unfold devDormouse devCommand
  dsimp only
  refine State.moves_ite₁ (State.devRefuse_moves h _) ?_
  split
  · exact State.devRefuse_moves h _
  · rename_i hok
    have hn : t.dev ≠ .safe := fun x => by simp [x] at hok
    refine State.moves_ite₁ (State.devRefuse_moves h _) (State.evalBen_moves (State.Moves.enter (State.setDmFlag_moves
      (State.recordSrc_moves ?_ _ _ _) _) _ (fun x => absurd x (State.Keeps.notSafe ?_ hn))))
    · with_reducible refine State.moves_lit (State.accepted_moves h _ _) rfl rfl rfl rfl rfl
    · refine State.setDmFlag_keeps (State.recordSrc_keeps ?_ _ _ _) _
      with_reducible refine State.keeps_lit (State.accepted_keeps (State.keeps_refl _) _ _) rfl rfl rfl rfl rfl

end Sys2Proof.Machine
end

