-- ==== Sys2Proof/Laws/KeepsViews.lean ====
section
/-! SUPPORT. What the operations of Machine/Views.lean leave alone. -/

set_option linter.unusedTactic false
set_option linter.unreachableTactic false

namespace Sys2Proof.Machine

theorem State.readLow_keeps {s t : State} (h : s.Keeps t) (r : Reader) (c : Counter64) : s.Keeps (State.readLow t r c).1 := by
  unfold State.readLow; try dsimp only
  repeat' (first | with_reducible assumption | intro _ | with_reducible apply State.keeps_ite | with_reducible apply State.keeps_ite₁ | with_reducible apply State.keeps_ite₂ | split | dsimp only | fail_if_no_progress with_reducible refine State.keeps_lit ?_ rfl rfl rfl rfl rfl)

theorem State.afterRead_keeps {s t : State} (h : s.Keeps t) (a : Nat) : s.Keeps (State.afterRead t a) := by
  unfold State.afterRead; try dsimp only
  repeat' (first | with_reducible assumption | intro _ | with_reducible apply State.keeps_ite | with_reducible apply State.keeps_ite₁ | with_reducible apply State.keeps_ite₂ | with_reducible apply State.when_keeps | with_reducible apply State.setReg_keeps | with_reducible apply State.setB_keeps | split | dsimp only | fail_if_no_progress with_reducible refine State.keeps_lit ?_ rfl rfl rfl rfl rfl)

theorem State.readWord_keeps {s t : State} (h : s.Keeps t) (p : Port) (a : Nat) : s.Keeps (State.readWord t p a).1 := by
  unfold State.readWord; try dsimp only
  repeat' (first | with_reducible assumption | intro _ | with_reducible apply State.keeps_ite | with_reducible apply State.keeps_ite₁ | with_reducible apply State.keeps_ite₂ | with_reducible apply State.refuse_keeps | with_reducible apply State.fifodRead_keeps | with_reducible apply State.diagRead_keeps | with_reducible apply State.snapRead_keeps | with_reducible apply State.readLow_keeps | with_reducible apply State.afterRead_keeps | split | dsimp only | fail_if_no_progress with_reducible refine State.keeps_lit ?_ rfl rfl rfl rfl rfl)

theorem State.answerWord_keeps {s t : State} (h : s.Keeps t) (p : Port) (w : Word) : s.Keeps (State.answerWord t p w) := by
  unfold State.answerWord; try dsimp only
  repeat' (first | with_reducible assumption | intro _ | with_reducible apply State.keeps_ite | with_reducible apply State.keeps_ite₁ | with_reducible apply State.keeps_ite₂ | split | dsimp only | fail_if_no_progress with_reducible refine State.keeps_lit ?_ rfl rfl rfl rfl rfl)

theorem State.readReg_keeps {s t : State} (h : s.Keeps t) (p : Port) (a : Nat) : s.Keeps (State.readReg t p a) := by
  unfold State.readReg; try dsimp only
  repeat' (first | with_reducible assumption | intro _ | with_reducible apply State.keeps_ite | with_reducible apply State.keeps_ite₁ | with_reducible apply State.keeps_ite₂ | with_reducible apply State.readWord_keeps | with_reducible apply State.answerWord_keeps | split | dsimp only | fail_if_no_progress with_reducible refine State.keeps_lit ?_ rfl rfl rfl rfl rfl)

end Sys2Proof.Machine
end

