-- ==== Sys2Proof/Laws/KeepsStreamFrames.lean ====
section
/-! SUPPORT. What the operations of Machine/StreamFrames.lean leave alone. -/

set_option linter.unusedTactic false
set_option linter.unreachableTactic false

namespace Sys2Proof.Machine

theorem State.answerFrame_keeps {s t : State} (h : s.Keeps t) (status : Nat) (aux : Word) (data : List Word) (marks : List Bool) : s.Keeps (State.answerFrame t status aux data marks) := by
  unfold State.answerFrame; try dsimp only
  repeat' (first | with_reducible assumption | intro _ | with_reducible apply State.keeps_ite | with_reducible apply State.keeps_ite₁ | with_reducible apply State.keeps_ite₂ | split | dsimp only | fail_if_no_progress with_reducible refine State.keeps_lit ?_ rfl rfl rfl rfl rfl)

theorem State.answerRefused_keeps {s t : State} (h : s.Keeps t) (cmd : Nat) (kind : FrameData) (f : StreamFrame) (code : Nat) (aux : Word) : s.Keeps (State.answerRefused t cmd kind f code aux) := by
  unfold State.answerRefused; try dsimp only
  repeat' (first | with_reducible assumption | intro _ | with_reducible apply State.keeps_ite | with_reducible apply State.keeps_ite₁ | with_reducible apply State.keeps_ite₂ | with_reducible apply State.answerFrame_keeps | split | dsimp only | fail_if_no_progress with_reducible refine State.keeps_lit ?_ rfl rfl rfl rfl rfl)

theorem State.refuseFrame_keeps {s t : State} (h : s.Keeps t) (cmd : Nat) (kind : FrameData) (f : StreamFrame) (code : Nat) : s.Keeps (State.refuseFrame t cmd kind f code) := by
  unfold State.refuseFrame; try dsimp only
  repeat' (first | with_reducible assumption | intro _ | with_reducible apply State.keeps_ite | with_reducible apply State.keeps_ite₁ | with_reducible apply State.keeps_ite₂ | with_reducible apply State.answerRefused_keeps | with_reducible apply State.refuse_keeps | split | dsimp only | fail_if_no_progress with_reducible refine State.keeps_lit ?_ rfl rfl rfl rfl rfl)

theorem State.frame_keeps {s t : State} (h : s.Keeps t) (cmd : Nat) (kind : FrameData) (rc : Bool) (f : StreamFrame) (g : State → State) (hg : ∀ {y0 : State}, s.Keeps y0 → s.Keeps (g y0)) : s.Keeps (State.frame t cmd kind rc f g) := by
  unfold State.frame; try dsimp only
  repeat' (first | with_reducible assumption | intro _ | with_reducible apply hg | with_reducible apply State.keeps_ite | with_reducible apply State.keeps_ite₁ | with_reducible apply State.keeps_ite₂ | with_reducible apply State.refuseFrame_keeps | with_reducible apply State.raise_keeps | with_reducible apply State.incF_keeps | split | dsimp only | fail_if_no_progress with_reducible refine State.keeps_lit ?_ rfl rfl rfl rfl rfl)

end Sys2Proof.Machine
end

