-- ==== Sys2Proof/Laws/KeepsUpdate.lean ====
section
/-! SUPPORT. What the operations of Machine/Update.lean leave alone. -/

set_option linter.unusedTactic false
set_option linter.unreachableTactic false

namespace Sys2Proof.Machine

theorem State.revokeKeys_keeps {s t : State} (h : s.Keeps t)  : s.Keeps (State.revokeKeys t) := by
  unfold State.revokeKeys; try dsimp only
  repeat' (first | with_reducible assumption | intro _ | with_reducible apply State.keeps_ite | with_reducible apply State.keeps_ite₁ | with_reducible apply State.keeps_ite₂ | split | dsimp only | fail_if_no_progress with_reducible refine State.keeps_lit ?_ rfl rfl rfl rfl rfl)

theorem State.sessionFrame_keeps {s t : State} (h : s.Keeps t) (cmd : Nat) (opens : Bool) (f : StreamFrame) (g : State → State) (hg : ∀ {y0 : State}, s.Keeps y0 → s.Keeps (g y0)) : s.Keeps (State.sessionFrame t cmd opens f g) := by
  unfold State.sessionFrame; try dsimp only
  repeat' (first | with_reducible assumption | intro _ | with_reducible apply hg | with_reducible apply State.keeps_ite | with_reducible apply State.keeps_ite₁ | with_reducible apply State.keeps_ite₂ | with_reducible apply State.frame_keeps | with_reducible apply State.refuseFrame_keeps | split | dsimp only | fail_if_no_progress with_reducible refine State.keeps_lit ?_ rfl rfl rfl rfl rfl)

theorem State.updRefuse_keeps {s t : State} (h : s.Keeps t) (code : Nat) : s.Keeps (State.updRefuse t code).1 := by
  unfold State.updRefuse; try dsimp only
  repeat' (first | with_reducible assumption | intro _ | with_reducible apply State.keeps_ite | with_reducible apply State.keeps_ite₁ | with_reducible apply State.keeps_ite₂ | with_reducible apply State.setB_keeps | split | dsimp only | fail_if_no_progress with_reducible refine State.keeps_lit ?_ rfl rfl rfl rfl rfl)

theorem State.showKeys_keeps {s t : State} (h : s.Keeps t)  : s.Keeps (State.showKeys t) := by
  unfold State.showKeys; try dsimp only
  repeat' (first | with_reducible assumption | intro _ | with_reducible apply State.keeps_ite | with_reducible apply State.keeps_ite₁ | with_reducible apply State.keeps_ite₂ | with_reducible apply State.setF_keeps | split | dsimp only | fail_if_no_progress with_reducible refine State.keeps_lit ?_ rfl rfl rfl rfl rfl)

theorem State.enrolKey_keeps {s t : State} (h : s.Keeps t) (k : Fin 4) : s.Keeps (State.enrolKey t k) := by
  unfold State.enrolKey; try dsimp only
  repeat' (first | with_reducible assumption | intro _ | with_reducible apply State.keeps_ite | with_reducible apply State.keeps_ite₁ | with_reducible apply State.keeps_ite₂ | split | dsimp only | fail_if_no_progress with_reducible refine State.keeps_lit ?_ rfl rfl rfl rfl rfl)

theorem State.confirmTrial_keeps {s t : State} (h : s.Keeps t)  : s.Keeps (State.confirmTrial t) := by
  unfold State.confirmTrial; try dsimp only
  repeat' (first | with_reducible assumption | intro _ | with_reducible apply State.keeps_ite | with_reducible apply State.keeps_ite₁ | with_reducible apply State.keeps_ite₂ | with_reducible apply State.setBootRec_keeps | with_reducible apply State.setF_keeps | with_reducible apply State.showKeys_keeps | with_reducible apply State.revokeKeys_keeps | with_reducible apply State.each_keeps' | with_reducible apply State.enrolKey_keeps | with_reducible apply State.updRecord_keeps | split | dsimp only | fail_if_no_progress with_reducible refine State.keeps_lit ?_ rfl rfl rfl rfl rfl)

theorem updConfirm_keeps {s t : State} (h : s.Keeps t) (confirm : BitVec 16) : s.Keeps (updConfirm confirm t).1 := by
  unfold updConfirm; try dsimp only
  repeat' (first | with_reducible assumption | intro _ | with_reducible apply State.keeps_ite | with_reducible apply State.keeps_ite₁ | with_reducible apply State.keeps_ite₂ | with_reducible apply State.updRefuse_keeps | with_reducible apply State.confirmTrial_keeps | with_reducible apply State.accepted_keeps | split | dsimp only | fail_if_no_progress with_reducible refine State.keeps_lit ?_ rfl rfl rfl rfl rfl)

theorem State.endSession_keeps {s t : State} (h : s.Keeps t) (result : Nat) : s.Keeps (State.endSession t result) := by
  unfold State.endSession; try dsimp only
  repeat' (first | with_reducible assumption | intro _ | with_reducible apply State.keeps_ite | with_reducible apply State.keeps_ite₁ | with_reducible apply State.keeps_ite₂ | with_reducible apply State.setF_keeps | split | dsimp only | fail_if_no_progress with_reducible refine State.keeps_lit ?_ rfl rfl rfl rfl rfl)

theorem State.blockFails_keeps {s t : State} (h : s.Keeps t) (result : Nat) : s.Keeps (State.blockFails t result) := by
  unfold State.blockFails; try dsimp only
  repeat' (first | with_reducible assumption | intro _ | with_reducible apply State.keeps_ite | with_reducible apply State.keeps_ite₁ | with_reducible apply State.keeps_ite₂ | with_reducible apply State.raise_keeps | with_reducible apply State.incF_keeps | with_reducible apply State.setF_keeps | split | dsimp only | fail_if_no_progress with_reducible refine State.keeps_lit ?_ rfl rfl rfl rfl rfl)

theorem updCancel_keeps {s t : State} (h : s.Keeps t) (confirm : BitVec 16) : s.Keeps (updCancel confirm t).1 := by
  unfold updCancel; try dsimp only
  repeat' (first | with_reducible assumption | intro _ | with_reducible apply State.keeps_ite | with_reducible apply State.keeps_ite₁ | with_reducible apply State.keeps_ite₂ | with_reducible apply State.updRefuse_keeps | with_reducible apply State.setBootRec_keeps | with_reducible apply State.accepted_keeps | with_reducible apply State.updRecord_keeps | split | dsimp only | fail_if_no_progress with_reducible refine State.keeps_lit ?_ rfl rfl rfl rfl rfl)

end Sys2Proof.Machine
end

