-- ==== Sys2Proof/Laws/KeepsHostWrite.lean ====
section
/-! SUPPORT. What the operations of Machine/HostWrite.lean leave alone. -/

set_option linter.unusedTactic false
set_option linter.unreachableTactic false

namespace Sys2Proof.Machine

theorem thenDo_keeps {s : State} {r : State × Nat} (h : s.Keeps r.1) (b : Bool) {g : State → State × Nat}
    (hg : ∀ {u}, s.Keeps u → s.Keeps (g u).1) : s.Keeps (thenDo r b g).1 := by
  unfold thenDo
  exact State.keeps_ite₁ (hg h) h

theorem thenDo_moves {s : State} {r : State × Nat} (h : s.Moves r.1) (b : Bool) {g : State → State × Nat}
    (hg : ∀ {u}, s.Moves u → s.Moves (g u).1) : s.Moves (thenDo r b g).1 := by
  unfold thenDo
  exact State.moves_ite₁ (hg h) h

theorem batCtrlWrite_keeps {s t : State} (h : s.Keeps t) (i : Fin 6) (v : Word) : s.Keeps (batCtrlWrite i v t).1 := by
  unfold batCtrlWrite
  refine thenDo_keeps (thenDo_keeps (thenDo_keeps (State.keeps_ite₁ h (batRest_keeps h _ _)) _ ?_) _ ?_) _ ?_ <;> intro u k
  · exact batUvclr_keeps k _
  · exact batSnap_keeps k _
  · exact batRestore_keeps k _

theorem batCtrlWrite_moves {s t : State} (h : s.Moves t) (i : Fin 6) (v : Word) : s.Moves (batCtrlWrite i v t).1 :=
  h.keeps (batCtrlWrite_keeps (State.keeps_refl _) _ _)

theorem actAtOnce_keeps {s t : State} (h : s.Keeps t) (a : Nat) (v : Word) : s.Keeps (actAtOnce a v t).1 := by
  unfold actAtOnce; try dsimp only
  repeat' (first | with_reducible assumption | intro _ | with_reducible apply State.keeps_ite | with_reducible apply State.keeps_ite₁ | with_reducible apply State.keeps_ite₂ | with_reducible apply State.setReg_keeps | with_reducible apply timerRelease_keeps | with_reducible apply energyClear_keeps | with_reducible apply batCtrlWrite_keeps | split | dsimp only | fail_if_no_progress with_reducible refine State.keeps_lit ?_ rfl rfl rfl rfl rfl)

theorem shadowWrite_keeps {s t : State} (h : s.Keeps t) (a : Nat) (v : Word) : s.Keeps (shadowWrite a v t).1 := by
  unfold shadowWrite; try dsimp only
  repeat' (first | with_reducible assumption | intro _ | with_reducible apply State.keeps_ite | with_reducible apply State.keeps_ite₁ | with_reducible apply State.keeps_ite₂ | with_reducible apply State.layShadows_keeps | with_reducible apply State.setB_keeps | with_reducible apply State.setReg_keeps | with_reducible apply actAtOnce_keeps | with_reducible apply State.setF_keeps | split | dsimp only | fail_if_no_progress with_reducible refine State.keeps_lit ?_ rfl rfl rfl rfl rfl)

theorem State.afterWrite_moves {s t : State} (h : s.Moves t) (a : Nat) : s.Moves (State.afterWrite t a) := by
  unfold State.afterWrite; try dsimp only
  repeat' (first | with_reducible assumption | intro _ | with_reducible apply State.moves_ite | with_reducible apply State.moves_ite₁ | with_reducible apply State.evalOnreq_moves | with_reducible apply State.evalAlert_moves | with_reducible apply State.evalOlim_moves | with_reducible apply State.updCl_moves | with_reducible apply State.each_moves | with_reducible apply State.updPh_moves | with_reducible apply State.evalPwrgd_moves | with_reducible apply State.evalStart_moves | with_reducible apply State.evalFeedSel_moves | with_reducible apply State.updFd_moves | with_reducible apply State.queueWrites_moves | split | dsimp only | fail_if_no_progress with_reducible refine State.moves_lit ?_ rfl rfl rfl rfl rfl)

theorem storeChecked_moves {s t : State} (h : s.Moves t) (a : Nat) (v : Word) : s.Moves (storeChecked a v t).1 := by
  unfold storeChecked; try dsimp only
  repeat' (first | with_reducible assumption | intro _ | with_reducible apply State.moves_ite | with_reducible apply State.moves_ite₁ | with_reducible apply State.hostStore_moves | with_reducible apply State.afterWrite_moves | split | dsimp only | fail_if_no_progress with_reducible refine State.moves_lit ?_ rfl rfl rfl rfl rfl)

theorem prioWrite_moves {s t : State} (h : s.Moves t) (v : Word) : s.Moves (prioWrite v t).1 := by
  unfold prioWrite; try dsimp only
  repeat' (first | with_reducible assumption | intro _ | with_reducible apply State.moves_ite | with_reducible apply State.moves_ite₁ | with_reducible apply storeChecked_moves | with_reducible apply feedPinWrite_moves | split | dsimp only | fail_if_no_progress with_reducible refine State.moves_lit ?_ rfl rfl rfl rfl rfl)

theorem feedTcfgWrite_moves {s t : State} (h : s.Moves t) (f : Fin 4) (v : Word) : s.Moves (feedTcfgWrite f v t).1 :=
  thenDo_moves (storeChecked_moves h _ _) _ fun k => k.keeps (energyClear_keeps (State.keeps_refl _) _)

theorem timerWrite_keeps {s t : State} (h : s.Keeps t) (n : Fin 32) (k : Nat) (v : Word) : s.Keeps (timerWrite n k v t).1 := by
  unfold timerWrite; try dsimp only
  repeat' (first | with_reducible assumption | intro _ | with_reducible apply State.keeps_ite | with_reducible apply State.keeps_ite₁ | with_reducible apply State.keeps_ite₂ | with_reducible apply timerCtrlWrite_keeps | with_reducible apply timerCntWrite_keeps | with_reducible apply timerCompareWrite_keeps | with_reducible apply timerActWrite_keeps | split | dsimp only | fail_if_no_progress with_reducible refine State.keeps_lit ?_ rfl rfl rfl rfl rfl)

theorem timerWrite_moves {s t : State} (h : s.Moves t) (n : Fin 32) (k : Nat) (v : Word) : s.Moves (timerWrite n k v t).1 :=
  h.keeps (timerWrite_keeps (State.keeps_refl _) _ _ _)

theorem channelWrite_moves {s t : State} (h : s.Moves t) (n : Fin 64) (k : Nat) (v : Word) : s.Moves (channelWrite n k v t).1 := by
  unfold channelWrite
  split
  · exact h.keeps (chOwned_keeps (State.keeps_refl t) _ _ fun k => chSrcWrite_keeps k _ _)
  · exact h.keeps (chOwned_keeps (State.keeps_refl t) _ _ fun k => chCfgWrite_keeps k _ _)
  · exact storeChecked_moves h _ _

theorem specialWrite_moves {s t : State} (h : s.Moves t) (a : Nat) (v : Word) : s.Moves (specialWrite a v t).1 := by
  unfold specialWrite; try dsimp only
  repeat' (first | with_reducible assumption | intro _ | with_reducible apply State.moves_ite | with_reducible apply State.moves_ite₁ | with_reducible apply injWrite_moves | with_reducible apply prioWrite_moves | with_reducible apply feedTcfgWrite_moves | with_reducible apply batCtrlWrite_moves | with_reducible apply timerWrite_moves | with_reducible apply capCfgWrite_moves | with_reducible apply channelWrite_moves | with_reducible apply owlIdxWrite_moves | with_reducible apply lnkOrderWrite_moves | split | dsimp only | fail_if_no_progress with_reducible refine State.moves_lit ?_ rfl rfl rfl rfl rfl)

theorem leadStatWrite_moves {s t : State} (h : s.Moves t) (n : Fin 16) (v : Word) : s.Moves (leadStatWrite n v t).1 :=
  thenDo_moves (storeChecked_moves h _ _) _ fun k => k.keeps (leadSuspendClear_keeps (State.keeps_refl _) _)

theorem State.copyShadows_moves {s t : State} (h : s.Moves t)  : s.Moves (State.copyShadows t) := by
  unfold State.copyShadows; try dsimp only
  repeat' (first | with_reducible assumption | intro _ | with_reducible apply State.moves_ite | with_reducible apply State.moves_ite₁ | with_reducible apply State.hostStore_moves | with_reducible apply State.afterWrite_moves | with_reducible apply specialWrite_moves | with_reducible apply State.fold_moves | split | dsimp only | fail_if_no_progress with_reducible refine State.moves_lit ?_ rfl rfl rfl rfl rfl)

theorem State.failTxn_keeps {s t : State} (h : s.Keeps t) (result : Nat) (code : Nat) (addr : Nat) : s.Keeps (State.failTxn t result code addr) := by
  unfold State.failTxn; try dsimp only
  repeat' (first | with_reducible assumption | intro _ | with_reducible apply State.keeps_ite | with_reducible apply State.keeps_ite₁ | with_reducible apply State.keeps_ite₂ | with_reducible apply State.setF_keeps | with_reducible apply State.endTxn_keeps | with_reducible apply State.refuse_keeps | split | dsimp only | fail_if_no_progress with_reducible refine State.keeps_lit ?_ rfl rfl rfl rfl rfl)

theorem txnCtrlWrite_keeps {s t : State} (h : s.Keeps t) (p : Port) (v : Word) : s.Keeps (txnCtrlWrite p v t).1 := by
  unfold txnCtrlWrite; try dsimp only
  repeat' (first | with_reducible assumption | intro _ | with_reducible apply State.keeps_ite | with_reducible apply State.keeps_ite₁ | with_reducible apply State.keeps_ite₂ | with_reducible apply txnBegin_keeps | with_reducible apply txnCommit_keeps | with_reducible apply txnRollback_keeps | split | dsimp only | fail_if_no_progress with_reducible refine State.keeps_lit ?_ rfl rfl rfl rfl rfl)

theorem clrtokWrite_keeps {s t : State} (h : s.Keeps t) (k : Fin 4) (v : Word) : s.Keeps (clrtokWrite k v t).1 := by
  unfold clrtokWrite; try dsimp only
  repeat' (first | with_reducible assumption | intro _ | with_reducible apply State.keeps_ite | with_reducible apply State.keeps_ite₁ | with_reducible apply State.keeps_ite₂ | split | dsimp only | fail_if_no_progress with_reducible refine State.keeps_lit ?_ rfl rfl rfl rfl rfl)

end Sys2Proof.Machine
end

