-- ==== Sys2Proof/Laws/KeepsTwoWire.lean ====
section
/-! SUPPORT. What the operations of Machine/TwoWire.lean leave alone. -/

set_option linter.unusedTactic false
set_option linter.unreachableTactic false

namespace Sys2Proof.Machine

theorem State.twAnswer_keeps {s t : State} (h : s.Keeps t) (ack : Bool) (l : List Byte) : s.Keeps (State.twAnswer t ack l) := by
  unfold State.twAnswer; try dsimp only
  repeat' (first | with_reducible assumption | intro _ | with_reducible apply State.keeps_ite | with_reducible apply State.keeps_ite₁ | with_reducible apply State.keeps_ite₂ | split | dsimp only | fail_if_no_progress with_reducible refine State.keeps_lit ?_ rfl rfl rfl rfl rfl)

theorem State.twWake_keeps {s t : State} (h : s.Keeps t)  : s.Keeps (State.twWake t) := by
  unfold State.twWake; try dsimp only
  repeat' (first | with_reducible assumption | intro _ | with_reducible apply State.keeps_ite | with_reducible apply State.keeps_ite₁ | with_reducible apply State.keeps_ite₂ | with_reducible apply State.twAnswer_keeps | with_reducible apply State.setB_keeps | split | dsimp only | fail_if_no_progress with_reducible refine State.keeps_lit ?_ rfl rfl rfl rfl rfl)

theorem State.pmRefuse_keeps {s t : State} (h : s.Keeps t) (c : PmCmd) (code : Nat) : s.Keeps (State.pmRefuse t c code) := by
  unfold State.pmRefuse; try dsimp only
  repeat' (first | with_reducible assumption | intro _ | with_reducible apply State.keeps_ite | with_reducible apply State.keeps_ite₁ | with_reducible apply State.keeps_ite₂ | with_reducible apply State.refuse_keeps | split | dsimp only | fail_if_no_progress with_reducible refine State.keeps_lit ?_ rfl rfl rfl rfl rfl)

theorem State.pmUnsupported_keeps {s t : State} (h : s.Keeps t) (c : PmCmd) : s.Keeps (State.pmUnsupported t c) := by
  unfold State.pmUnsupported; try dsimp only
  repeat' (first | with_reducible assumption | intro _ | with_reducible apply State.keeps_ite | with_reducible apply State.keeps_ite₁ | with_reducible apply State.keeps_ite₂ | with_reducible apply State.twAnswer_keeps | with_reducible apply State.pmRefuse_keeps | split | dsimp only | fail_if_no_progress with_reducible refine State.keeps_lit ?_ rfl rfl rfl rfl rfl)

theorem State.twWrite_keeps {s t : State} (h : s.Keeps t) (c : PmCmd) (w : Wire) (g : List Byte → State → State × Nat) (hg : ∀ {y1 : State} (y0 : List Byte), s.Keeps y1 → s.Keeps (g y0 y1).1) : s.Keeps (State.twWrite t c w g) := by
  unfold State.twWrite; try dsimp only
  repeat' (first | with_reducible assumption | intro _ | with_reducible apply hg | with_reducible apply State.keeps_ite | with_reducible apply State.keeps_ite₁ | with_reducible apply State.keeps_ite₂ | with_reducible apply State.twAnswer_keeps | with_reducible apply State.pmRefuse_keeps | with_reducible apply State.raise_keeps | with_reducible apply State.incF_keeps | split | dsimp only | fail_if_no_progress with_reducible refine State.keeps_lit ?_ rfl rfl rfl rfl rfl)

theorem State.wire_keeps {s t : State} (h : s.Keeps t) (c : PmCmd) (w : Wire) (rd : State → State) (wr : List Byte → State → State × Nat) (hrd : ∀ {y0 : State}, s.Keeps y0 → s.Keeps (rd y0)) (hwr : ∀ {y1 : State} (y0 : List Byte), s.Keeps y1 → s.Keeps (wr y0 y1).1) : s.Keeps (State.wire t c w rd wr) := by
  unfold State.wire; try dsimp only
  repeat' (first | with_reducible assumption | intro _ | with_reducible apply hrd | with_reducible apply hwr | with_reducible apply State.keeps_ite | with_reducible apply State.keeps_ite₁ | with_reducible apply State.keeps_ite₂ | with_reducible apply State.twAnswer_keeps | with_reducible apply State.twWake_keeps | with_reducible apply State.pmUnsupported_keeps | with_reducible apply State.pmRefuse_keeps | with_reducible apply State.twWrite_keeps | split | dsimp only | fail_if_no_progress with_reducible refine State.keeps_lit ?_ rfl rfl rfl rfl rfl)

theorem State.freeBytes_keeps {s t : State} (h : s.Keeps t) (k : Nat) : s.Keeps (t.freeBytes k).2 := by
  induction k generalizing t with
  | zero => exact h
  | succ k ih => exact ih (State.draw_keeps h)

theorem State.twRead_keeps {s t : State} (h : s.Keeps t) (code : Nat) (w : Wire) (l : List Byte) : s.Keeps (State.twRead t code w l) := by
  unfold State.twRead; try dsimp only
  repeat' (first | with_reducible assumption | intro _ | with_reducible apply State.keeps_ite | with_reducible apply State.keeps_ite₁ | with_reducible apply State.keeps_ite₂ | with_reducible apply State.freeBytes_keeps | with_reducible apply State.twAnswer_keeps | split | dsimp only | fail_if_no_progress with_reducible refine State.keeps_lit ?_ rfl rfl rfl rfl rfl)

theorem State.twRead_moves {s t : State} (h : s.Moves t) (code : Nat) (w : Wire) (l : List Byte) : s.Moves (State.twRead t code w l) :=
  h.keeps (State.twRead_keeps (State.keeps_refl _) _ _ _)

theorem State.wireBlock_keeps {s t : State} (h : s.Keeps t) (c : PmCmd) (w : Wire) (l : State → List Byte) : s.Keeps (State.wireBlock t c w l) := by
  unfold State.wireBlock; try dsimp only
  repeat' (first | with_reducible assumption | intro _ | with_reducible apply State.keeps_ite | with_reducible apply State.keeps_ite₁ | with_reducible apply State.keeps_ite₂ | with_reducible apply State.wire_keeps | with_reducible apply State.twRead_keeps | split | dsimp only | fail_if_no_progress with_reducible refine State.keeps_lit ?_ rfl rfl rfl rfl rfl)

theorem State.portReset_keeps {s t : State} (h : s.Keeps t) (cnt : Fld) (src : Nat) : s.Keeps (State.portReset t cnt src) := by
  unfold State.portReset; try dsimp only
  repeat' (first | with_reducible assumption | intro _ | with_reducible apply State.keeps_ite | with_reducible apply State.keeps_ite₁ | with_reducible apply State.keeps_ite₂ | with_reducible apply State.raise_keeps | with_reducible apply State.setF_keeps | with_reducible apply State.incF_keeps | split | dsimp only | fail_if_no_progress with_reducible refine State.keeps_lit ?_ rfl rfl rfl rfl rfl)

theorem State.wireRead_keeps {s t : State} (h : s.Keeps t) (c : PmCmd) (w : Wire) (n : Nat) (v : State → Nat) : s.Keeps (State.wireRead t c w n v) := by
  unfold State.wireRead; try dsimp only
  repeat' (first | with_reducible assumption | intro _ | with_reducible apply State.keeps_ite | with_reducible apply State.keeps_ite₁ | with_reducible apply State.keeps_ite₂ | with_reducible apply State.wire_keeps | with_reducible apply State.twRead_keeps | split | dsimp only | fail_if_no_progress with_reducible refine State.keeps_lit ?_ rfl rfl rfl rfl rfl)

end Sys2Proof.Machine
end

