-- ==== Sys2Proof/Laws/KeepsPMBus.lean ====
section
/-! SUPPORT. What the operations of Machine/PMBus.lean leave alone. -/

set_option linter.unusedTactic false
set_option linter.unreachableTactic false

namespace Sys2Proof.Machine

theorem allWrites_keeps {s t : State} (h : s.Keeps t) (l : List (Nat × Word)) (g : Nat → Word → State → State × Nat)
    (hg : ∀ {u : State} (a : Nat) (v : Word), s.Keeps u → s.Keeps (g a v u).1) : s.Keeps (allWrites l g t).1 := by
  have k : ∀ r : State × Nat, s.Keeps r.1 →
      s.Keeps (l.foldl (fun (r : State × Nat) x => if r.2 = Code.ok then g x.1 x.2 r.1 else r) r).1 := by
    induction l with
    | nil => exact fun _ h => h
    | cons x l ih => exact fun r h => ih _ (State.keeps_ite₁ (hg _ _ h) h)
  exact State.keeps_ite₁ (k (t, Code.ok) h) (State.when_keeps h _ fun k => State.setB_keeps k _ _ _)

theorem allWrites_moves {s t : State} (h : s.Moves t) (l : List (Nat × Word)) (g : Nat → Word → State → State × Nat)
    (hg : ∀ {u : State} (a : Nat) (v : Word), s.Moves u → s.Moves (g a v u).1) : s.Moves (allWrites l g t).1 := by
  have k : ∀ r : State × Nat, s.Moves r.1 →
      s.Moves (l.foldl (fun (r : State × Nat) x => if r.2 = Code.ok then g x.1 x.2 r.1 else r) r).1 := by
    induction l with
    | nil => exact fun _ h => h
    | cons x l ih => exact fun r h => ih _ (State.moves_ite₁ (hg _ _ h) h)
  exact State.moves_ite₁ (k (t, Code.ok) h) (State.when_moves h _ fun k => k.keeps (State.setB_keeps (State.keeps_refl _) _ _ _))

theorem oneWrite_keeps {s t : State} (h : s.Keeps t) (c : PmCmd) (l : List (Nat × Word)) : s.Keeps (oneWrite c l t).1 := by
  unfold oneWrite; try dsimp only
  repeat' (first | with_reducible assumption | intro _ | with_reducible apply State.keeps_ite | with_reducible apply State.keeps_ite₁ | with_reducible apply State.keeps_ite₂ | with_reducible apply allWrites_keeps | with_reducible apply shadowWrite_keeps | with_reducible apply State.openTxn_keeps | with_reducible apply State.commitTxn_keeps | split | dsimp only | fail_if_no_progress with_reducible refine State.keeps_lit ?_ rfl rfl rfl rfl rfl)

theorem oneWrite_moves {s t : State} (h : s.Moves t) (c : PmCmd) (l : List (Nat × Word)) : s.Moves (oneWrite c l t).1 :=
  h.keeps (oneWrite_keeps (State.keeps_refl _) _ _)

theorem winRead_keeps {s t : State} (h : s.Keeps t) (k a : Nat) : s.Keeps (winRead k a t).1 := by
  induction k generalizing t a with
  | zero => exact h
  | succ k ih => exact ih (State.readWord_keeps h _ _) _

theorem operationOff_keeps {s t : State} (h : s.Keeps t) (n : Fin 16) : s.Keeps (operationOff n t).1 := by
  unfold operationOff; try dsimp only
  repeat' (first | with_reducible assumption | intro _ | with_reducible apply State.keeps_ite | with_reducible apply State.keeps_ite₁ | with_reducible apply State.keeps_ite₂ | with_reducible apply State.clusterSeqoff_keeps | with_reducible apply State.setB_keeps | split | dsimp only | fail_if_no_progress with_reducible refine State.keeps_lit ?_ rfl rfl rfl rfl rfl)

theorem operationOff_moves {s t : State} (h : s.Moves t) (n : Fin 16) : s.Moves (operationOff n t).1 :=
  h.keeps (operationOff_keeps (State.keeps_refl _) _)

theorem operationOn_keeps {s t : State} (h : s.Keeps t) (n : Fin 16) : s.Keeps (operationOn n t).1 := by
  unfold operationOn; try dsimp only
  repeat' (first | with_reducible assumption | intro _ | with_reducible apply State.keeps_ite | with_reducible apply State.keeps_ite₁ | with_reducible apply State.keeps_ite₂ | with_reducible apply State.clStart_keeps | with_reducible apply State.clOff_keeps | with_reducible apply State.setB_keeps | with_reducible apply State.when_keeps | split | dsimp only | fail_if_no_progress with_reducible refine State.keeps_lit ?_ rfl rfl rfl rfl rfl)

theorem operationOn_moves {s t : State} (h : s.Moves t) (n : Fin 16) : s.Moves (operationOn n t).1 :=
  h.keeps (operationOn_keeps (State.keeps_refl _) _)

theorem State.level1_keeps {s t : State} (h : s.Keeps t) (c : PmCmd) (g : State → State) (hg : ∀ {y0 : State}, s.Keeps y0 → s.Keeps (g y0)) : s.Keeps (State.level1 t c g) := by
  unfold State.level1; try dsimp only
  repeat' (first | with_reducible assumption | intro _ | with_reducible apply hg | with_reducible apply State.keeps_ite | with_reducible apply State.keeps_ite₁ | with_reducible apply State.keeps_ite₂ | with_reducible apply State.pmUnsupported_keeps | split | dsimp only | fail_if_no_progress with_reducible refine State.keeps_lit ?_ rfl rfl rfl rfl rfl)

theorem State.winNext_keeps {s t : State} (h : s.Keeps t) (k : Nat) : s.Keeps (State.winNext t k) := by
  unfold State.winNext; try dsimp only
  repeat' (first | with_reducible assumption | intro _ | with_reducible apply State.keeps_ite | with_reducible apply State.keeps_ite₁ | with_reducible apply State.keeps_ite₂ | with_reducible apply State.when_keeps | with_reducible apply State.setF_keeps | split | dsimp only | fail_if_no_progress with_reducible refine State.keeps_lit ?_ rfl rfl rfl rfl rfl)

theorem State.clearStatus_keeps {s t : State} (h : s.Keeps t) (p : Nat) : s.Keeps (State.clearStatus t p) := by
  unfold State.clearStatus; try dsimp only
  repeat' (first | with_reducible assumption | intro _ | with_reducible apply State.keeps_ite | with_reducible apply State.keeps_ite₁ | with_reducible apply State.keeps_ite₂ | with_reducible apply State.setReg_keeps | split | dsimp only | fail_if_no_progress with_reducible refine State.keeps_lit ?_ rfl rfl rfl rfl rfl)

theorem fifoBlock_keeps {s t : State} (h : s.Keeps t) (k : Nat) : s.Keeps (fifoBlock k t).1 := by
  induction k generalizing t with
  | zero => exact h
  | succ k ih => exact State.keeps_ite₁ (State.fifoPop_keeps h) (ih (State.fifoPop_keeps h))

theorem State.wireLin11_keeps {s t : State} (h : s.Keeps t) (code : Nat) (k : PageSet) (w : Wire) (v : State → Rat) : s.Keeps (State.wireLin11 t code k w v) := by
  unfold State.wireLin11; try dsimp only
  repeat' (first | with_reducible assumption | intro _ | with_reducible apply State.keeps_ite | with_reducible apply State.keeps_ite₁ | with_reducible apply State.keeps_ite₂ | with_reducible apply State.wireRead_keeps | split | dsimp only | fail_if_no_progress with_reducible refine State.keeps_lit ?_ rfl rfl rfl rfl rfl)

theorem State.wireStatus_keeps {s t : State} (h : s.Keeps t) (code : Nat) (k : PageSet) (w : Wire) (fl : Fld) : s.Keeps (State.wireStatus t code k w fl) := by
  unfold State.wireStatus; try dsimp only
  repeat' (first | with_reducible assumption | intro _ | with_reducible apply State.keeps_ite | with_reducible apply State.keeps_ite₁ | with_reducible apply State.keeps_ite₂ | with_reducible apply State.wire_keeps | with_reducible apply State.twRead_keeps | with_reducible apply State.each_keeps' | with_reducible apply State.setF_keeps | split | dsimp only | fail_if_no_progress with_reducible refine State.keeps_lit ?_ rfl rfl rfl rfl rfl)

end Sys2Proof.Machine
end

