-- ==== Sys2Proof/Laws/KeepsStreamPort.lean ====
section
/-! SUPPORT. What the operations of Machine/StreamPort.lean leave alone. -/

set_option linter.unusedTactic false
set_option linter.unreachableTactic false

namespace Sys2Proof.Machine

theorem State.readWords_keeps {s t : State} (h : s.Keeps t) (l : List Nat) : s.Keeps (t.readWords l).1 := by
  induction l generalizing t with
  | nil => exact h
  | cons a l ih => exact ih (State.readWord_keeps h _ _)

theorem fifoSlots_keeps {s t : State} (h : s.Keeps t) (k : Nat) : s.Keeps (fifoSlots k t).1 := by
  induction k generalizing t with
  | zero => exact h
  | succ k ih => exact ih (State.fifoPop_keeps h)

theorem State.commandFrame_keeps {s t : State} (h : s.Keeps t) (cmd : Nat) (f : StreamFrame) (g : State → State × Nat) (hg : ∀ {y0 : State}, s.Keeps y0 → s.Keeps (g y0).1) : s.Keeps (State.commandFrame t cmd f g) := by
  unfold State.commandFrame; try dsimp only
  repeat' (first | with_reducible assumption | intro _ | with_reducible apply hg | with_reducible apply State.keeps_ite | with_reducible apply State.keeps_ite₁ | with_reducible apply State.keeps_ite₂ | with_reducible apply State.frame_keeps | with_reducible apply State.answerFrame_keeps | with_reducible apply State.refuse_keeps | split | dsimp only | fail_if_no_progress with_reducible refine State.keeps_lit ?_ rfl rfl rfl rfl rfl)

end Sys2Proof.Machine
end

