-- ==== Sys2Proof/Laws/KeepsBase.lean ====
section
/-! SUPPORT. An entry to BOOT, the writes that may lead to one, and a tick: what they leave alone. -/

set_option linter.unusedTactic false
set_option linter.unreachableTactic false

namespace Sys2Proof.Machine

variable {s t u : State}

/-! ### Outcomes -/

/-- Every next state of an outcome has a property. -/
structure State.Ends (R : State → Prop) (o : Host.Outcome State Fault Refusal) : Prop where
  out : ∀ t, o = .next t → R t

theorem State.ends_next {R : State → Prop} {t : State} (h : R t) : State.Ends R (.next t) :=
  ⟨fun _ e => Host.Outcome.next.inj e ▸ h⟩
theorem State.ends_ite {R : State → Prop} {c : Prop} [Decidable c] {a b : Host.Outcome State Fault Refusal}
    (ha : State.Ends R a) (hb : State.Ends R b) : State.Ends R (if c then a else b) := by
  split <;> assumption
theorem State.Ends.keepsRuns {s : State} {o : Host.Outcome State Fault Refusal} (h : State.Ends s.Keeps o) : State.Ends s.Runs o :=
  ⟨fun t e => (h.out t e).toMoves.runs⟩
theorem State.Ends.movesRuns {s : State} {o : Host.Outcome State Fault Refusal} (h : State.Ends s.Moves o) : State.Ends s.Runs o :=
  ⟨fun t e => (h.out t e).runs⟩

/-! ### Entries to BOOT -/

theorem State.when_runs {b : Bool} {g : State → State} (h : s.Runs t) (k : s.Runs (g t)) : s.Runs (t.when b g) := by
  cases b <;> assumption

theorem State.leaveForBoot_dev (s : State) : s.leaveForBoot.dev = .boot := by
  unfold State.leaveForBoot
  split
  · rename_i h; simpa using h
  · exact State.enter_dev s .boot

theorem State.leaveForBoot_runs (s : State) : s.Runs s.leaveForBoot := by
  have k : s.Runs (s.enter .boot) := by
    have h1 := State.histAdd_keeps (State.keeps_refl s) (histCode 1 (s.dev.code + 16 * DevState.boot.code))
    have h2 : s.Runs { s.histAdd (histCode 1 (s.dev.code + 16 * DevState.boot.code)) with dev := .boot } :=
      ⟨h1.pending, h1.flash, h1.en, h1.serial, h1.svcKey, .inr rfl, h1.wf, fun _ => .inr rfl⟩
    refine h2.keeps ?_
    unfold State.enter
    dsimp only
    refine State.when_keeps (State.when_keeps (State.when_keeps (State.setB_keeps (State.keeps_refl _) _ _ _) _ ?_) _ ?_) _ ?_ <;>
      intro u h
    · exact State.stopTrains_keeps (State.setB_keeps h _ _ _)
    · exact State.clearRequests_keeps h
    · refine State.setF_keeps ?_ _ _ _
      with_reducible apply State.keeps_lit h <;> rfl
  exact State.runs_ite (State.moves_refl s).runs k

theorem State.bootClear_runs (s : State) (cold reload : Bool) : s.Runs (s.bootClear cold reload) :=
  ⟨rfl, rfl, rfl, NvmSt.dropStore_serial _, NvmSt.dropStore_svcKey _, .inr rfl, Sparse.wfFrom_filter _, fun _ => .inr rfl⟩

theorem State.bootBase_keeps (s : State) (cold reload : Bool) : (s.bootClear cold reload).Keeps (s.bootBase cold reload) := by
  unfold State.bootBase
  dsimp only
  have k := State.setF_keeps (State.when_keeps (State.copyFields_keeps (State.keeps_refl (s.bootClear cold reload)) s (keptFields cold))
    (s.hotRead && !cold) (fun k => State.setB_keeps k F.IMG_BOOTSTAT_HOTWAIT 0 true)) F.DEV_PWRSTAT_LSTAGE 0 0
  exact State.keeps_ite (State.restoreLost_keeps (State.setReg_keeps (State.setF_keeps k _ _ _) _ _)) k

theorem State.bootBase_runs (s : State) (cold reload : Bool) : s.Runs (s.bootBase cold reload) :=
  (State.bootClear_runs s cold reload).keeps (State.bootBase_keeps s cold reload)
theorem State.bootBase_dev (s : State) (cold reload : Bool) : (s.bootBase cold reload).dev = .boot :=
  (State.bootBase_keeps s cold reload).dev

/-- Chaining where the second part ends in BOOT whatever it starts from. -/
theorem State.Runs.thenBoot (h : s.Runs t) (k : t.Runs u) (hb : u.dev = .boot) : s.Runs u :=
  ⟨k.pending.trans h.pending, k.flash.trans h.flash, k.en.trans h.en, k.serial.trans h.serial, k.svcKey.trans h.svcKey, .inr hb,
    fun x => k.wf (h.wf x), fun _ => .inr hb⟩

theorem State.enterBoot_base (s : State) (cause : Nat) :
    (s.leaveForBoot.bootBase (cause == 0) (cause == 4)).Keeps (s.enterBoot cause) := by
  unfold State.enterBoot
  dsimp only
  refine State.activate_keeps ?_ _
  have k := State.setF_keeps (State.keeps_refl (s.leaveForBoot.bootBase (cause == 0) (cause == 4))) F.DEV_PWRSTAT_BCAUSE 0 cause
  refine State.keeps_ite ?_ ?_
  · with_reducible refine State.keeps_lit (State.keeps_lit k rfl rfl rfl rfl rfl) rfl rfl rfl rfl rfl
  · with_reducible refine State.keeps_lit k rfl rfl rfl rfl rfl

theorem State.enterBoot_dev (s : State) (cause : Nat) : (s.enterBoot cause).dev = .boot :=
  (State.enterBoot_base s cause).dev.trans (State.bootBase_dev _ _ _)
theorem State.enterBoot_runs (s : State) (cause : Nat) : s.Runs (s.enterBoot cause) :=
  ((State.leaveForBoot_runs s).thenBoot (State.bootBase_runs _ _ _) (State.bootBase_dev _ _ _)).keeps (State.enterBoot_base s cause)

theorem State.Keeps.thenRuns (h : s.Keeps t) (k : t.Runs u) : s.Runs u := h.toMoves.thenRuns k

theorem State.bootIfReady_runs (s : State) (warm : Nat) : s.Runs (s.bootIfReady warm) :=
  State.runs_ite (State.enterBoot_runs s _) (State.moves_refl s).runs

theorem State.stage5_dev (s : State) : s.stage5.dev = .boot := by
  unfold State.stage5
  exact State.bootBase_dev s.leaveForBoot false false
theorem State.stage5_runs (s : State) : s.Runs s.stage5 := by
  have k := (State.leaveForBoot_runs s).thenBoot (State.bootBase_runs _ false false) (State.bootBase_dev _ _ _)
  unfold State.stage5
  generalize s.leaveForBoot.bootBase false false = t at k ⊢
  exact k.keeps (by with_reducible exact State.keeps_lit (State.keeps_refl t) rfl rfl rfl rfl rfl)

theorem devCommand_runs (h : s.Keeps t) (confirm : BitVec 16) (cmd : Nat) (ok : Bool) {g : State → State} (hg : ∀ u : State, u.Runs (g u)) :
    s.Runs (devCommand confirm cmd ok g t).1 := by
  have k (code : Nat) : s.Runs (t.devRefuse code).1 := (State.devRefuse_keeps h code).toMoves.runs
  exact State.runs_ite₁ (k _) (State.runs_ite₁ (k _) (State.runs_ite₁ (k _) ((State.accepted_keeps h 4 cmd).thenRuns (hg _))))

theorem devReload_runs (h : s.Keeps t) (confirm : BitVec 16) : s.Runs (devReload confirm t).1 :=
  devCommand_runs h _ _ _ fun u => State.enterBoot_runs u 4
theorem devRestart_runs (h : s.Keeps t) (confirm : BitVec 16) : s.Runs (devRestart confirm t).1 :=
  devCommand_runs h _ _ _ fun u => State.enterBoot_runs u 3

theorem State.wake_runs (h : s.Keeps t) : s.Runs t.wake := (State.setDmFlag_keeps h false).thenRuns (State.enterBoot_runs _ _)
theorem batWake_runs (h : s.Keeps t) (confirm : BitVec 16) : s.Runs (batWake confirm t).1 :=
  State.runs_ite₁ h.toMoves.runs (State.runs_ite₁ h.toMoves.runs (State.wake_runs (State.accepted_keeps h _ _)))

/-! ### A port's writes -/

theorem State.byPort_runs (h : s.Keeps t) (p : Port) (a : Nat) {g : State → State × Nat} (hg : ∀ {u}, s.Keeps u → s.Runs (g u).1) :
    s.Runs (t.byPort p a g) := (hg h).keeps (State.refuse_keeps (State.keeps_refl _) _ _ _)

theorem gated_runs (h : s.Keeps t) (p : Port) (a : Nat) (v : Word) {g : State → State × Nat}
    (hg : ∀ {u}, s.Keeps u → s.Runs (g u).1) : s.Runs (gated p a v g t).1 :=
  State.runs_ite₁ h.toMoves.runs (State.runs_ite₁ (shadowWrite_keeps h a v).toMoves.runs (hg h))

theorem State.hostDo_runs (h : s.Keeps t) (p : Port) (a : Nat) (v : Word) {g : State → State × Nat}
    (hg : ∀ {u}, s.Keeps u → s.Runs (g u).1) : s.Runs (t.hostDo p a v g) :=
  State.runs_ite (State.byPort_runs h p a fun k => gated_runs k p a v hg) h.toMoves.runs

theorem commandWrite_runs (h : s.Keeps t) (p : Port) (a : Nat) (v : Word) : ∀ r, commandWrite p a v t = some r → s.Runs r.1 := by
  have m {x : State × Nat} (k : s.Moves x.1) : s.Runs x.1 := k.runs
  have kp {x : State × Nat} (k : s.Keeps x.1) : s.Runs x.1 := k.toMoves.runs
  have iteO {c : Prop} [Decidable c] {x : State × Nat} {y : Option (State × Nat)} (hx : s.Runs x.1) (hy : ∀ r, y = some r → s.Runs r.1) :
      ∀ r, (if c then some x else y) = some r → s.Runs r.1 := by
    intro r hr
    split at hr
    · exact Option.some.inj hr ▸ hx
    · exact hy r hr
  unfold commandWrite
  dsimp only
  refine iteO ?_ (iteO ?_ (iteO ?_ (iteO ?_ (iteO ?_ (iteO ?_ (iteO ?_ (iteO ?_ (iteO ?_ (iteO ?_ (iteO ?_ (iteO ?_ (iteO ?_ (iteO ?_
    (iteO ?_ (iteO ?_ (iteO ?_ (iteO ?_ (fun r hr => nomatch hr))))))))))))))))))
  all_goals repeat' split
  all_goals first
    | with_reducible exact devReload_runs h _
    | with_reducible exact devRestart_runs h _
    | with_reducible exact batWake_runs h _
    | (with_reducible apply m
       first
       | with_reducible apply devDormouse_moves | with_reducible apply inpToggle_moves | with_reducible apply seqForce_moves
       all_goals first | exact h.toMoves | exact (State.hostStore_keeps h _ _).toMoves)
    | (with_reducible apply kp
       first
       | with_reducible exact h
       | with_reducible exact State.setB_keeps h _ _ _
       | with_reducible apply State.devRefuse_keeps | with_reducible apply State.seqRefuse_keeps | with_reducible apply State.supvRefuse_keeps
       | with_reducible apply State.capRefuse_keeps | with_reducible apply State.owlRefuse_keeps | with_reducible apply State.updRefuse_keeps
       | with_reducible apply txnCtrlWrite_keeps | with_reducible apply storeCommand_keeps | with_reducible apply supvAck_keeps
       | with_reducible apply supvSafe_keeps | with_reducible apply seqSfpulse_keeps | with_reducible apply thmTsdclr_keeps
       | with_reducible apply timerGstart_keeps | with_reducible apply timerGstop_keeps | with_reducible apply timerGclr_keeps
       | with_reducible apply capFlush_keeps | with_reducible apply capMark_keeps | with_reducible apply capRewind_keeps
       | with_reducible apply capRelease_keeps | with_reducible apply capTrigger_keeps | with_reducible apply capRequest_keeps
       | with_reducible apply owlClear_keeps | with_reducible apply owlSnap_keeps | with_reducible apply clrtokWrite_keeps
       | with_reducible apply fldPwrcycle_keeps | with_reducible apply updConfirm_keeps | with_reducible apply updCancel_keeps
       all_goals first | exact h | exact State.hostStore_keeps h _ _)

theorem route_runs (h : s.Keeps t) (p : Port) (a : Nat) (v : Word) : s.Runs (route p a v t).1 := by
  unfold route
  split
  · exact commandWrite_runs h p a v _ ‹_›
  · exact State.runs_ite₁ (specialWrite_moves h.toMoves a v).runs
      (State.runs_ite₁ (leadStatWrite_moves h.toMoves _ v).runs (storeChecked_moves h.toMoves a v).runs)

theorem writeWord_runs (h : s.Keeps t) (p : Port) (a : Nat) (v : Word) : s.Runs (writeWord p a v t).1 :=
  gated_runs h p a v fun k => route_runs k p a v
theorem State.hostReg_runs (h : s.Keeps t) (p : Port) (a : Nat) (v : Word) : s.Runs (t.hostReg p a v) :=
  State.hostDo_runs h p a v fun k => route_runs k p a v

/-- A word that no entry to BOOT follows. -/
theorem route_moves (h : s.Moves t) (p : Port) {a : Nat} (h4 : a ≠ 4) (hw : a ≠ 0x2780) (v : Word) : s.Moves (route p a v t).1 := by
  unfold route
  split
  · rename_i r hr
    revert r
    have kp {x : State × Nat} (k : t.Keeps x.1) : s.Moves x.1 := h.keeps k
    have iteO {c : Prop} [Decidable c] {x : State × Nat} {y : Option (State × Nat)} (hx : s.Moves x.1)
        (hy : ∀ r, y = some r → s.Moves r.1) : ∀ r, (if c then some x else y) = some r → s.Moves r.1 := by
      intro r hr
      split at hr
      · exact Option.some.inj hr ▸ hx
      · exact hy r hr
    have hk := State.keeps_refl t
    unfold commandWrite
    dsimp only
    rw [if_neg h4]
    refine iteO ?_ (iteO ?_ (iteO ?_ (iteO ?_ (iteO ?_ ?_))))
    rotate_right
    rw [if_neg hw]
    refine (iteO ?_ (iteO ?_ (iteO ?_ (iteO ?_ (iteO ?_ (iteO ?_ (iteO ?_
      (iteO ?_ (iteO ?_ (iteO ?_ (iteO ?_ (fun r hr => nomatch hr))))))))))))
    all_goals repeat' split
    all_goals first
      | (first
         | with_reducible apply inpToggle_moves | with_reducible apply seqForce_moves
         all_goals first | exact h | exact h.keeps (State.hostStore_keeps (State.keeps_refl t) _ _))
      | (with_reducible apply kp
         first
         | with_reducible exact hk
         | with_reducible exact State.setB_keeps hk _ _ _
         | with_reducible apply State.seqRefuse_keeps | with_reducible apply State.supvRefuse_keeps
         | with_reducible apply State.capRefuse_keeps | with_reducible apply State.owlRefuse_keeps | with_reducible apply State.updRefuse_keeps
         | with_reducible apply txnCtrlWrite_keeps | with_reducible apply storeCommand_keeps | with_reducible apply supvAck_keeps
         | with_reducible apply supvSafe_keeps | with_reducible apply seqSfpulse_keeps | with_reducible apply thmTsdclr_keeps
         | with_reducible apply timerGstart_keeps | with_reducible apply timerGstop_keeps | with_reducible apply timerGclr_keeps
         | with_reducible apply capFlush_keeps | with_reducible apply capMark_keeps | with_reducible apply capRewind_keeps
         | with_reducible apply capRelease_keeps | with_reducible apply capTrigger_keeps | with_reducible apply capRequest_keeps
         | with_reducible apply owlClear_keeps | with_reducible apply owlSnap_keeps | with_reducible apply clrtokWrite_keeps
         | with_reducible apply fldPwrcycle_keeps | with_reducible apply updConfirm_keeps | with_reducible apply updCancel_keeps
         all_goals first | exact hk | exact State.hostStore_keeps hk _ _)
  · exact State.moves_ite₁ (specialWrite_moves h a v) (State.moves_ite₁ (leadStatWrite_moves h _ v) (storeChecked_moves h a v))

theorem writeWord_moves (h : s.Moves t) (p : Port) {a : Nat} (h4 : a ≠ 4) (hw : a ≠ 0x2780) (v : Word) :
    s.Moves (writeWord p a v t).1 :=
  State.moves_ite₁ h (State.moves_ite₁ (h.keeps (shadowWrite_keeps (State.keeps_refl t) a v)) (route_moves h p h4 hw v))

theorem State.portLive_boot {p : Port} (h : t.portLive p = true) : t.dev ≠ .boot := by
  intro hd
  cases p <;> simp [State.portLive, hd] at h

theorem writeWords_runs (h : s.Runs t) (hb : t.dev ≠ .boot) (l : List (Nat × Word)) (n : Nat) : s.Runs (writeWords l n t).1 := by
  induction l generalizing t n with
  | nil => exact h
  | cons x l ih =>
    have k := h.trans hb (writeWord_runs (State.keeps_refl t) .stream x.1 x.2)
    unfold writeWords
    dsimp only
    refine State.runs_ite₁ k ?_
    split
    · exact ih k (State.portLive_boot ‹_›) _
    · exact k

theorem winWrite_runs (h : s.Runs t) (hb : t.dev ≠ .boot) (l : List Byte) (a : Nat) : s.Runs (winWrite l a t) := by
  fun_induction winWrite l a t with
  | case1 b0 b1 b2 b3 l a t a' r hr =>
    exact (h.trans hb (writeWord_runs (State.keeps_refl t) .twoWire _ _)).keeps (State.refuse_keeps (State.keeps_refl _) _ _ _)
  | case2 b0 b1 b2 b3 l a t a' r hr hp ih =>
    exact ih (h.trans hb (writeWord_runs (State.keeps_refl t) .twoWire _ _)) (State.portLive_boot hp)
  | case3 b0 b1 b2 b3 l a t a' r hr hp => exact h.trans hb (writeWord_runs (State.keeps_refl t) .twoWire _ _)
  | case4 => exact h

/-! ### Transactions of the two-wire port and stream frames -/

theorem State.twWrite_runs (h : s.Keeps t) (c : PmCmd) (w : Wire) {g : List Byte → State → State × Nat}
    (hg : ∀ {u} d, s.Keeps u → s.Runs (g d u).1) : s.Runs (t.twWrite c w g) := by
  unfold State.twWrite
  split
  · exact (State.twAnswer_keeps (State.pmRefuse_keeps h _ _) _ _).toMoves.runs
  · dsimp only
    exact State.runs_ite ((hg _ h).keeps (State.twAnswer_keeps (State.pmRefuse_keeps (State.keeps_refl _) _ _) _ _))
      (State.twAnswer_keeps (State.pmRefuse_keeps (State.raise_keeps (State.incF_keeps h _ _ _) _) _ _) _ _).toMoves.runs

theorem State.wire_runs (h : s.Keeps t) (c : PmCmd) (w : Wire) {rd : State → State} {wr : List Byte → State → State × Nat}
    (hrd : ∀ {u}, s.Keeps u → s.Keeps (rd u)) (hwr : ∀ {u} d, s.Keeps u → s.Runs (wr d u).1) : s.Runs (t.wire c w rd wr) := by
  unfold State.wire
  have r {u} (k : s.Keeps u) : s.Runs u := k.toMoves.runs
  exact State.runs_ite (r (State.twAnswer_keeps h _ _)) (State.runs_ite (r (State.twWake_keeps h))
    (State.runs_ite (r (State.pmUnsupported_keeps h _)) (State.runs_ite (r (State.pmUnsupported_keeps h _))
    (State.runs_ite (State.runs_ite (r (hrd h)) (r (State.twAnswer_keeps (State.pmRefuse_keeps h _ _) _ _)))
    (State.runs_ite (r (State.twAnswer_keeps (State.pmRefuse_keeps h _ _) _ _))
      (State.twWrite_runs h _ _ fun d k => State.runs_ite₁ (r k) (hwr d k)))))))

theorem State.twWrite_moves (h : s.Moves t) (c : PmCmd) (w : Wire) {g : List Byte → State → State × Nat}
    (hg : ∀ {u} d, s.Moves u → s.Moves (g d u).1) : s.Moves (t.twWrite c w g) := by
  unfold State.twWrite
  have k := State.keeps_refl t
  split
  · exact h.keeps (State.twAnswer_keeps (State.pmRefuse_keeps k _ _) _ _)
  · dsimp only
    exact State.moves_ite ((hg _ h).keeps (State.twAnswer_keeps (State.pmRefuse_keeps (State.keeps_refl _) _ _) _ _))
      (h.keeps (State.twAnswer_keeps (State.pmRefuse_keeps (State.raise_keeps (State.incF_keeps k _ _ _) _) _ _) _ _))

theorem State.wire_moves (h : s.Moves t) (c : PmCmd) (w : Wire) {rd : State → State} {wr : List Byte → State → State × Nat}
    (hrd : ∀ {u}, s.Moves u → s.Moves (rd u)) (hwr : ∀ {u} d, s.Moves u → s.Moves (wr d u).1) : s.Moves (t.wire c w rd wr) := by
  unfold State.wire
  have k := State.keeps_refl t
  have r {u} (k : t.Keeps u) : s.Moves u := h.keeps k
  exact State.moves_ite (r (State.twAnswer_keeps k _ _)) (State.moves_ite (r (State.twWake_keeps k))
    (State.moves_ite (r (State.pmUnsupported_keeps k _)) (State.moves_ite (r (State.pmUnsupported_keeps k _))
    (State.moves_ite (State.moves_ite (hrd h) (r (State.twAnswer_keeps (State.pmRefuse_keeps k _ _) _ _)))
    (State.moves_ite (r (State.twAnswer_keeps (State.pmRefuse_keeps k _ _) _ _))
      (State.twWrite_moves h _ _ fun d k => State.moves_ite₁ k (hwr d k)))))))

theorem State.frame_runs (h : s.Keeps t) (cmd : Nat) (kind : FrameData) (rc : Bool) (f : StreamFrame) {g : State → State}
    (hg : s.Keeps t → t.portLive .stream = true → s.Runs (g t)) : s.Runs (t.frame cmd kind rc f g) := by
  have r {u} (k : s.Keeps u) : s.Runs u := k.toMoves.runs
  unfold State.frame
  split
  · exact r h
  · rename_i hl
    have hp : t.portLive .stream = true := by
      cases hq : t.portLive .stream
      · exact absurd (by simp [hq]) hl
      · rfl
    exact State.runs_ite (r (State.refuseFrame_keeps (State.raise_keeps (State.incF_keeps h _ _ _) _) _ _ _ _))
      (State.runs_ite (r (State.refuseFrame_keeps h _ _ _ _)) (State.runs_ite (r (State.refuseFrame_keeps h _ _ _ _)) (hg h hp)))

/-! ### Numbers that PMBus writes -/

theorem State.pagesOf_lt (s : State) (k : PageSet) : ∀ p ∈ s.pagesOf k, p < 19 := by
  intro p hp
  unfold State.pagesOf at hp
  rcases List.mem_append.mp hp with hp | hp
  · have : p ∈ List.range (if s.img.blevel = 1 then 8 else 16) := by
      split at hp
      · exact (List.mem_filter.mp hp).1
      · exact nomatch hp
    have := List.mem_range.mp this
    split at this <;> omega
  · split at hp
    · obtain ⟨q, hq, rfl⟩ := List.mem_map.mp hp
      have := List.mem_range.mp (List.mem_filter.mp hq).1
      omega
    · exact nomatch hp

theorem State.pagesNow_lt (s : State) (k : PageSet) : ∀ p ∈ s.pagesNow k false, p < 19 := by
  intro p hp
  unfold State.pagesNow at hp
  dsimp only at hp
  split at hp
  · exact s.pagesOf_lt k p hp
  · exact s.pagesOf_lt k p (List.mem_filter.mp hp).1

/-- The fields that a PMBus number reaches lie in no register that enters BOOT. -/
def PmNum.plain (m : PmNum) : Prop := ∀ p < 19, (m.fld p).1.addr (m.fld p).2 ≠ 4 ∧ (m.fld p).1.addr (m.fld p).2 ≠ 0x2780

theorem allWrites_moves_mem (h : s.Moves t) (l : List (Nat × Word)) {g : Nat → Word → State → State × Nat}
    (hg : ∀ {u : State} x, x ∈ l → s.Moves u → s.Moves (g x.1 x.2 u).1) : s.Moves (allWrites l g t).1 := by
  have k : ∀ (l' : List (Nat × Word)), (∀ x ∈ l', x ∈ l) → ∀ r : State × Nat, s.Moves r.1 →
      s.Moves (l'.foldl (fun (r : State × Nat) x => if r.2 = Code.ok then g x.1 x.2 r.1 else r) r).1 := by
    intro l'
    induction l' with
    | nil => exact fun _ _ h => h
    | cons x l' ih => exact fun hl r h => ih (fun y hy => hl y (.tail _ hy)) _ (State.moves_ite₁ (hg _ (hl x (.head _)) h) h)
  exact State.moves_ite₁ (k l (fun _ hx => hx) (t, Code.ok) h)
    (State.when_moves h _ fun k => k.keeps (State.setB_keeps (State.keeps_refl _) _ _ _))

theorem numWrite_moves (h : s.Moves t) (c : PmCmd) {m : PmNum} (hm : m.plain) (d : List Byte) : s.Moves (numWrite c m d t).1 := by
  unfold numWrite
  dsimp only
  refine State.moves_ite₁ h (State.moves_ite₁ (oneWrite_moves h _ _) ?_)
  refine allWrites_moves_mem h _ fun x hx k => ?_
  obtain ⟨y, hy, rfl⟩ := List.mem_map.mp hx
  obtain ⟨p, hp, rfl⟩ := List.mem_map.mp hy
  exact writeWord_moves k .twoWire (hm p (t.pagesNow_lt _ p hp)).1 (hm p (t.pagesNow_lt _ p hp)).2 _

theorem State.wireNum_moves (h : s.Moves t) (code : Nat) (k : PageSet) (w : Wire) {m : PmNum} (hm : m.plain) :
    s.Moves (t.wireNum code k w m) := by
  unfold State.wireNum
  exact State.wire_moves h _ _ (fun h => State.twRead_moves h _ _ _) (fun d k => numWrite_moves k _ hm d)

theorem voltNum_plain {fl : Fld} (u : Rat) (h : ∀ p < 19, fl.addr p ≠ 4 ∧ fl.addr p ≠ 0x2780) : (voltNum fl u).plain := h

/-! ### An image that BOOT accepts -/

/-- What no command but a level of EN and a programmed block changes. -/
structure State.Loads (s t : State) : Prop where
  pending : t.pending = s.pending
  flash : t.flash = s.flash
  en : t.pins.en = s.pins.en
  serial : t.nvm.serial = s.nvm.serial
  svcKey : t.nvm.svcKey = s.nvm.svcKey
  wf : Sparse.wf regReset s.regs = true → Sparse.wf regReset t.regs = true
  safe : s.dev = .safe → t.dev = .safe ∨ t.dev = .boot

theorem State.Runs.loads (h : s.Runs t) : s.Loads t := ⟨h.pending, h.flash, h.en, h.serial, h.svcKey, h.wf, h.safe⟩

theorem State.candidate_loads (s : State) (im : Image) (hd : s.dev ≠ .safe) : s.Loads (s.candidate im) ∧ (s.candidate im).dev = s.dev := by
  unfold State.candidate
  dsimp only
  generalize hc : ({ s with
    regs := [],
    img := { s.img with role := im.role, blevel := im.blevel, own := im.own, defaults := im.defaults, ovlHash := im.ovlHash, signer := im.signer } } : State) = c
  have l : s.Loads c := by subst hc; exact ⟨rfl, rfl, rfl, rfl, rfl, fun _ => rfl, fun h => absurd h hd⟩
  have hcd : c.dev = s.dev := by subst hc; rfl
  have k := State.fold_keeps (State.fold_keeps (State.keeps_refl c) im.defaults
    (g := fun t p => if p.1 < 0x4000 then t.setReg p.1 (imageWord p.1 (t.reg p.1) p.2) else t)
    (fun _ h => State.keeps_ite (State.setReg_keeps h _ _) h)) im.windows
    (g := fun t w => (w.2.zip (List.range 256)).foldl (fun t p =>
      let a := 0x4000 + 0x100 * w.1 + p.2
      t.setReg a (imageWord a (t.reg a) p.1)) t)
    (fun _ h => State.fold_keeps h _ fun _ h => State.setReg_keeps h _ _)
  exact ⟨⟨k.pending.trans l.pending, k.flash.trans l.flash, k.en.trans l.en, k.serial.trans l.serial, k.svcKey.trans l.svcKey,
    fun h => k.wf (l.wf h), fun h => absurd h hd⟩, k.dev.trans hcd⟩

theorem State.runImage_moves (s : State) (hd : s.dev = .boot) (i : BootInput) (im : Image) (slot fallback : Bool) (errA errB : Nat)
    (failed : List (Bool × Nat)) : (s.candidate im).Moves (s.runImage i im slot fallback errA errB failed) := by
  have hc := (s.candidate_loads im (by simp [hd])).2
  unfold State.runImage
  dsimp only
  have h := State.keeps_refl (s.candidate im)
  generalize s.candidate im = c at h hc ⊢
  have fin {u : State} (k : c.Keeps u) : c.Moves (u.enterStandby failed) :=
    k.toMoves.enterStandby (by rw [k.dev, hc, hd]; decide) failed
  with_reducible apply fin
  repeat' (first | with_reducible assumption | intro _ | with_reducible apply State.keeps_ite | with_reducible apply State.keeps_ite₁ | with_reducible apply State.layOverlay_keeps | with_reducible apply State.layKept_keeps | with_reducible apply State.bootReport_keeps | with_reducible apply State.setB_keeps | with_reducible apply State.setF_keeps | with_reducible apply State.setReg_keeps | with_reducible apply State.restoreNvm_keeps | with_reducible apply State.each_keeps' | with_reducible apply State.lanes_keeps | with_reducible apply State.when_keeps | with_reducible apply State.evalOlim_keeps | with_reducible apply State.beginChannels_keeps | with_reducible apply State.updRecord_keeps | with_reducible apply State.raise_keeps | with_reducible apply State.setBootRec_keeps | with_reducible apply State.startBat_keeps | split | dsimp only | fail_if_no_progress with_reducible refine State.keeps_lit ?_ rfl rfl rfl rfl rfl)

theorem State.runImage_loads (s : State) (hd : s.dev = .boot) (i : BootInput) (im : Image) (slot fallback : Bool) (errA errB : Nat)
    (failed : List (Bool × Nat)) : s.Loads (s.runImage i im slot fallback errA errB failed) := by
  have l := (s.candidate_loads im (by simp [hd])).1
  have k := s.runImage_moves hd i im slot fallback errA errB failed
  exact ⟨k.pending.trans l.pending, k.flash.trans l.flash, k.en.trans l.en, k.serial.trans l.serial, k.svcKey.trans l.svcKey,
    fun h => k.wf (l.wf h), fun h => absurd h (by simp [hd])⟩

end Sys2Proof.Machine
end

