-- ==== Sys2Proof/Laws/KeepsTick.lean ====
section
/-! SUPPORT. What a tick leaves alone: all that an operation which keeps the device state does, but for the queue. -/

namespace Sys2Proof.Machine

variable {s t u : State}

/-- What a tick does not change. -/
structure State.Rests (s t : State) : Prop where
  flash : t.flash = s.flash
  en : t.pins.en = s.pins.en
  serial : t.nvm.serial = s.nvm.serial
  svcKey : t.nvm.svcKey = s.nvm.svcKey
  role : t.img.role = s.img.role
  blevel : t.img.blevel = s.img.blevel
  dev : t.dev = s.dev
  wf : Sparse.wf regReset s.regs = true → Sparse.wf regReset t.regs = true

theorem State.Keeps.rests (h : s.Keeps t) : s.Rests t := ⟨h.flash, h.en, h.serial, h.svcKey, h.role, h.blevel, h.dev, h.wf⟩
theorem State.Rests.trans (h : s.Rests t) (k : t.Rests u) : s.Rests u :=
  ⟨k.flash.trans h.flash, k.en.trans h.en, k.serial.trans h.serial, k.svcKey.trans h.svcKey, k.role.trans h.role,
    k.blevel.trans h.blevel, k.dev.trans h.dev, fun x => k.wf (h.wf x)⟩
theorem State.Rests.keeps (h : s.Rests t) (k : t.Keeps u) : s.Rests u := h.trans k.rests

theorem State.enqueue_rests (s : State) (l : List Instr) : s.Rests (s.enqueue l) := ⟨rfl, rfl, rfl, rfl, rfl, rfl, rfl, id⟩

theorem State.when_rests (b : Bool) {g : State → State} (h : t.Rests (g t)) : t.Rests (t.when b g) := by
  cases b
  · exact (State.keeps_refl t).rests
  · exact h

theorem State.each_rests {α : Type} (l : List α) {g : State → α → State} (h : ∀ (u : State) (x : α), u.Rests (g u x)) (s : State) : s.Rests (s.each l g) := by
  unfold State.each
  induction l generalizing s with
  | nil => exact (State.keeps_refl s).rests
  | cons x l ih => exact (h s x).trans (ih _)

theorem State.usTick_rests (s : State) : s.Rests s.usTick := by
  unfold State.usTick
  dsimp only
  refine (State.when_keeps ?_ _ fun k => State.agePolls_keeps k).rests
  with_reducible exact State.keeps_lit (State.keeps_refl s) rfl rfl rfl rfl rfl

theorem State.secondTick_rests (s : State) : s.Rests s.secondTick := by
  unfold State.secondTick
  dsimp only
  refine State.Rests.trans (State.when_rests _ ?_) (State.when_rests _ ?_)
  · exact (State.setF_keeps (State.keeps_refl _) _ _ _).rests.trans (State.enqueue_rests _ _)
  · exact (State.setF_keeps (State.keeps_refl _) _ _ _).rests.trans (State.enqueue_rests _ _)

theorem State.timeTick_rests (s : State) : s.Rests s.timeTick := by
  unfold State.timeTick
  dsimp only
  split
  · refine State.Keeps.rests ?_
    with_reducible exact State.keeps_lit (State.keeps_refl s) rfl rfl rfl rfl rfl
  · refine State.Rests.trans (State.Rests.trans ?_ (State.usTick_rests _)) (State.when_rests _ (State.secondTick_rests _))
    refine State.Keeps.rests ?_
    with_reducible exact State.keeps_lit (State.keeps_refl s) rfl rfl rfl rfl rfl

theorem State.countTick_rests (s : State) : s.Rests s.countTick := by
  unfold State.countTick
  refine State.Rests.trans ?_ (State.when_rests _ (State.enqueue_rests _ _))
  refine State.Keeps.rests ?_
  with_reducible exact State.keeps_lit (State.keeps_refl s) rfl rfl rfl rfl rfl

theorem State.timersTick_rests (s : State) : s.Rests s.timersTick := by
  unfold State.timersTick
  dsimp only
  refine State.Rests.trans ?_ (State.enqueue_rests _ _)
  have k : ∀ (l : List (Fin 32)) (r : State × List (Fin 32 × Cmp)), s.Keeps r.1 →
      s.Keeps (l.foldl (fun (r : State × List (Fin 32 × Cmp)) n => let t := r.1.tmTick n; (t.1, r.2 ++ t.2)) r).1 := by
    intro l
    induction l with
    | nil => exact fun _ h => h
    | cons n l ih => exact fun r h => ih _ (State.tmTick_keeps h n)
  exact (k timers (s, []) (State.keeps_refl s)).rests

theorem State.trainsTick_rests (s : State) : s.Rests s.trainsTick := by
  unfold State.trainsTick
  refine State.each_rests _ (fun u k => ?_) s
  exact (State.trainTick_keeps (State.keeps_refl u) k).rests.trans (State.enqueue_rests _ _)

theorem State.tick_rests (s : State) : s.Rests s.tick := by
  unfold State.tick
  dsimp only
  have h := (State.keeps_refl s).rests
  split
  · exact h
  · split
    · exact s.timeTick_rests
    · refine State.Rests.trans (State.Rests.trans ((s.timeTick_rests.trans (State.countTick_rests _)).keeps ?_) (State.timersTick_rests _))
        (State.trainsTick_rests _)
      exact State.srdyTick_keeps (State.freezeTick_keeps (State.keeps_refl _))

end Sys2Proof.Machine
end

