-- ==== Sys2Proof/Laws/Runs1.lean ====
section
/-! SUPPORT. What the commands of the phases, clusters and sequencer leave alone. -/

set_option linter.unusedTactic false
set_option linter.unreachableTactic false

namespace Sys2Proof.Machine

theorem execBlankingEnd_runs (p : Fin 48) (crossing : Bool) (s : State) : State.Ends s.Runs (execBlankingEnd p crossing s) := by
  refine State.Ends.keepsRuns ?_
  have h := State.keeps_refl s
  unfold execBlankingEnd; try dsimp only
  repeat' (first | with_reducible assumption | with_reducible refine State.ends_next ?_ | with_reducible refine State.ends_ite ?_ ?_ | intro _ | with_reducible apply State.keeps_ite | with_reducible apply State.keeps_ite₁ | with_reducible apply State.updPh_keeps | with_reducible apply State.when_keeps | with_reducible apply State.peakEnd_keeps | split | dsimp only | fail_if_no_progress with_reducible refine State.keeps_lit ?_ rfl rfl rfl rfl rfl)

theorem execFrameStart_runs (n : Fin 16) (s : State) : State.Ends s.Runs (execFrameStart n s) := by
  refine State.Ends.keepsRuns ?_
  have h := State.keeps_refl s
  unfold execFrameStart; try dsimp only
  repeat' (first | with_reducible assumption | with_reducible refine State.ends_next ?_ | with_reducible refine State.ends_ite ?_ ?_ | intro _ | with_reducible apply State.keeps_ite | with_reducible apply State.keeps_ite₁ | with_reducible apply State.loadCal_keeps | with_reducible apply State.rsFrame_keeps | with_reducible apply State.setActive_keeps | with_reducible apply State.placePhases_keeps | split | dsimp only | fail_if_no_progress with_reducible refine State.keeps_lit ?_ rfl rfl rfl rfl rfl)

theorem execFoxHoldEnd_runs (p : Fin 48) (s : State) : State.Ends s.Runs (execFoxHoldEnd p s) := by
  refine State.Ends.keepsRuns ?_
  have h := State.keeps_refl s
  unfold execFoxHoldEnd; try dsimp only
  repeat' (first | with_reducible assumption | with_reducible refine State.ends_next ?_ | with_reducible refine State.ends_ite ?_ ?_ | intro _ | with_reducible apply State.keeps_ite | with_reducible apply State.keeps_ite₁ | with_reducible apply State.updPh_keeps | split | dsimp only | fail_if_no_progress with_reducible refine State.keeps_lit ?_ rfl rfl rfl rfl rfl)

theorem execPrestartCheckFail_runs (n : Fin 16) (mean : Option (Fin 48)) (vmax : BitVec 16) (vbus : BitVec 20) (us : BitVec 32) (s : State) : State.Ends s.Runs (execPrestartCheckFail n mean vmax vbus us s) := by
  refine State.Ends.keepsRuns ?_
  have h := State.keeps_refl s
  unfold execPrestartCheckFail; try dsimp only
  repeat' (first | with_reducible assumption | with_reducible refine State.ends_next ?_ | with_reducible refine State.ends_ite ?_ ?_ | intro _ | with_reducible apply State.keeps_ite | with_reducible apply State.keeps_ite₁ | with_reducible apply State.clOff_keeps | with_reducible apply State.setF_keeps | with_reducible apply State.setB_keeps | with_reducible apply State.each_keeps' | with_reducible apply State.raise_keeps | with_reducible apply State.recordSrc_keeps | with_reducible apply State.when_keeps | with_reducible apply State.allGatesOff_keeps | split | dsimp only | fail_if_no_progress with_reducible refine State.keeps_lit ?_ rfl rfl rfl rfl rfl)

theorem execPeakTrip_runs (p : Fin 48) (s : State) : State.Ends s.Runs (execPeakTrip p s) := by
  refine State.Ends.keepsRuns ?_
  have h := State.keeps_refl s
  unfold execPeakTrip; try dsimp only
  repeat' (first | with_reducible assumption | with_reducible refine State.ends_next ?_ | with_reducible refine State.ends_ite ?_ ?_ | intro _ | with_reducible apply State.keeps_ite | with_reducible apply State.keeps_ite₁ | with_reducible apply State.peakEnd_keeps | split | dsimp only | fail_if_no_progress with_reducible refine State.keeps_lit ?_ rfl rfl rfl rfl rfl)

theorem execDelayLineCalibration_runs (bad : BitVec 48) (s : State) : State.Ends s.Runs (execDelayLineCalibration bad s) := by
  refine State.Ends.keepsRuns ?_
  have h := State.keeps_refl s
  unfold execDelayLineCalibration; try dsimp only
  repeat' (first | with_reducible assumption | with_reducible refine State.ends_next ?_ | with_reducible refine State.ends_ite ?_ ?_ | intro _ | with_reducible apply State.keeps_ite | with_reducible apply State.keeps_ite₁ | with_reducible apply State.each_keeps' | with_reducible apply State.setB_keeps | with_reducible apply State.raise_keeps | split | dsimp only | fail_if_no_progress with_reducible refine State.keeps_lit ?_ rfl rfl rfl rfl rfl)

theorem execMaxonEnd_runs (p : Fin 48) (s : State) : State.Ends s.Runs (execMaxonEnd p s) := by
  refine State.Ends.keepsRuns ?_
  have h := State.keeps_refl s
  unfold execMaxonEnd; try dsimp only
  repeat' (first | with_reducible assumption | with_reducible refine State.ends_next ?_ | with_reducible refine State.ends_ite ?_ ?_ | intro _ | with_reducible apply State.keeps_ite | with_reducible apply State.keeps_ite₁ | with_reducible apply State.endHigh_keeps | with_reducible apply State.when_keeps | with_reducible apply State.setB_keeps | split | dsimp only | fail_if_no_progress with_reducible refine State.keeps_lit ?_ rfl rfl rfl rfl rfl)

theorem execAverageCeilingExceeded_runs (p : Fin 48) (s : State) : State.Ends s.Runs (execAverageCeilingExceeded p s) := by
  refine State.Ends.keepsRuns ?_
  have h := State.keeps_refl s
  unfold execAverageCeilingExceeded; try dsimp only
  repeat' (first | with_reducible assumption | with_reducible refine State.ends_next ?_ | with_reducible refine State.ends_ite ?_ ?_ | intro _ | with_reducible apply State.keeps_ite | with_reducible apply State.keeps_ite₁ | with_reducible apply State.raise_keeps | with_reducible apply State.setB_keeps | split | dsimp only | fail_if_no_progress with_reducible refine State.keeps_lit ?_ rfl rfl rfl rfl rfl)

theorem execFoxTrip_runs (p : Fin 48) (recent : BitVec 4) (s : State) : State.Ends s.Runs (execFoxTrip p recent s) := by
  refine State.Ends.keepsRuns ?_
  have h := State.keeps_refl s
  unfold execFoxTrip; try dsimp only
  repeat' (first | with_reducible assumption | with_reducible refine State.ends_next ?_ | with_reducible refine State.ends_ite ?_ ?_ | intro _ | with_reducible apply State.keeps_ite | with_reducible apply State.keeps_ite₁ | with_reducible apply State.updPh_keeps | with_reducible apply State.raise_keeps | with_reducible apply State.incF_keeps | with_reducible apply State.setB_keeps | with_reducible apply State.when_keeps | with_reducible apply State.updCl_keeps | with_reducible apply State.removePhase_keeps | split | dsimp only | fail_if_no_progress with_reducible refine State.keeps_lit ?_ rfl rfl rfl rfl rfl)

theorem execPrestartCheckPass_runs (n : Fin 16) (vmax : BitVec 16) (s : State) : State.Ends s.Runs (execPrestartCheckPass n vmax s) := by
  refine State.Ends.keepsRuns ?_
  have h := State.keeps_refl s
  unfold execPrestartCheckPass; try dsimp only
  repeat' (first | with_reducible assumption | with_reducible refine State.ends_next ?_ | with_reducible refine State.ends_ite ?_ ?_ | intro _ | with_reducible apply State.keeps_ite | with_reducible apply State.keeps_ite₁ | with_reducible apply State.updCl_keeps | with_reducible apply State.setF_keeps | split | dsimp only | fail_if_no_progress with_reducible refine State.keeps_lit ?_ rfl rfl rfl rfl rfl)

theorem execOnEdge_runs (p : Fin 48) (minOff : Bool) (s : State) : State.Ends s.Runs (execOnEdge p minOff s) := by
  refine State.Ends.keepsRuns ?_
  have h := State.keeps_refl s
  unfold execOnEdge; try dsimp only
  repeat' (first | with_reducible assumption | with_reducible refine State.ends_next ?_ | with_reducible refine State.ends_ite ?_ ?_ | intro _ | with_reducible apply State.keeps_ite | with_reducible apply State.keeps_ite₁ | with_reducible apply State.updPh_keeps | with_reducible apply State.startHigh_keeps | split | dsimp only | fail_if_no_progress with_reducible refine State.keeps_lit ?_ rfl rfl rfl rfl rfl)

theorem execPhaseSample_runs (p : Fin 48) (code : BitVec 12) (s : State) : State.Ends s.Runs (execPhaseSample p code s) := by
  refine State.Ends.keepsRuns ?_
  have h := State.keeps_refl s
  unfold execPhaseSample; try dsimp only
  repeat' (first | with_reducible assumption | with_reducible refine State.ends_next ?_ | with_reducible refine State.ends_ite ?_ ?_ | intro _ | with_reducible apply State.keeps_ite | with_reducible apply State.keeps_ite₁ | with_reducible apply State.setF_keeps | with_reducible apply State.updPh_keeps | with_reducible apply State.rangeCheck_keeps | with_reducible apply State.diode_keeps | split | dsimp only | fail_if_no_progress with_reducible refine State.keeps_lit ?_ rfl rfl rfl rfl rfl)

theorem execLeadWarningPulse_runs (pin : Fin 4) (w : BitVec 16) (s : State) : State.Ends s.Runs (execLeadWarningPulse pin w s) := by
  refine State.Ends.keepsRuns ?_
  have h := State.keeps_refl s
  unfold execLeadWarningPulse; try dsimp only
  repeat' (first | with_reducible assumption | with_reducible refine State.ends_next ?_ | with_reducible refine State.ends_ite ?_ ?_ | intro _ | with_reducible apply State.keeps_ite | with_reducible apply State.keeps_ite₁ | with_reducible apply State.setB_keeps | with_reducible apply State.leadAct_keeps | split | dsimp only | fail_if_no_progress with_reducible refine State.keeps_lit ?_ rfl rfl rfl rfl rfl)

theorem execLoopUpdate_runs (n : Fin 16) (fine : List (BitVec 12)) (coarse : BitVec 10) (s : State) : State.Ends s.Runs (execLoopUpdate n fine coarse s) := by
  refine State.Ends.keepsRuns ?_
  have h := State.keeps_refl s
  unfold execLoopUpdate; try dsimp only
  repeat' (first | with_reducible assumption | with_reducible refine State.ends_next ?_ | with_reducible refine State.ends_ite ?_ ?_ | intro _ | with_reducible apply State.keeps_ite | with_reducible apply State.keeps_ite₁ | with_reducible apply State.loopStep_keeps | with_reducible apply State.phaseBase_keeps | with_reducible apply State.telBase_keeps | with_reducible apply State.writeCheckpoint_keeps | split | dsimp only | fail_if_no_progress with_reducible refine State.keeps_lit ?_ rfl rfl rfl rfl rfl)

theorem execSoftStartBegin_runs (n : Fin 16) (out : BitVec 16) (s : State) : State.Ends s.Runs (execSoftStartBegin n out s) := by
  refine State.Ends.keepsRuns ?_
  have h := State.keeps_refl s
  unfold execSoftStartBegin; try dsimp only
  repeat' (first | with_reducible assumption | with_reducible refine State.ends_next ?_ | with_reducible refine State.ends_ite ?_ ?_ | intro _ | with_reducible apply State.keeps_ite | with_reducible apply State.keeps_ite₁ | with_reducible apply State.updCl_keeps | with_reducible apply State.setB_keeps | with_reducible apply State.setF_keeps | with_reducible apply State.setActive_keeps | split | dsimp only | fail_if_no_progress with_reducible refine State.keeps_lit ?_ rfl rfl rfl rfl rfl)

theorem execOverloadTimeout_runs (n : Fin 16) (s : State) : State.Ends s.Runs (execOverloadTimeout n s) := by
  refine State.Ends.keepsRuns ?_
  have h := State.keeps_refl s
  unfold execOverloadTimeout; try dsimp only
  repeat' (first | with_reducible assumption | with_reducible refine State.ends_next ?_ | with_reducible refine State.ends_ite ?_ ?_ | intro _ | with_reducible apply State.keeps_ite | with_reducible apply State.keeps_ite₁ | with_reducible apply State.raise_keeps | with_reducible apply State.setB_keeps | split | dsimp only | fail_if_no_progress with_reducible refine State.keeps_lit ?_ rfl rfl rfl rfl rfl)

theorem execPhaseMonitorFrame_runs (n : Fin 16) (open' : BitVec 16) (atMax : BitVec 16) (byCmp : BitVec 16) (s : State) : State.Ends s.Runs (execPhaseMonitorFrame n open' atMax byCmp s) := by
  refine State.Ends.keepsRuns ?_
  have h := State.keeps_refl s
  unfold execPhaseMonitorFrame; try dsimp only
  repeat' (first | with_reducible assumption | with_reducible refine State.ends_next ?_ | with_reducible refine State.ends_ite ?_ ?_ | intro _ | with_reducible apply State.keeps_ite | with_reducible apply State.keeps_ite₁ | with_reducible apply State.updPh_keeps | with_reducible apply State.removePhase_keeps | with_reducible apply State.each_keeps' | split | dsimp only | fail_if_no_progress with_reducible refine State.keeps_lit ?_ rfl rfl rfl rfl rfl)

theorem execLoopEngineFailure_runs (n : Fin 16) (cause : Fin 5) (slotBad : Bool) (missed : BitVec 16) (gap : BitVec 16) (s : State) : State.Ends s.Runs (execLoopEngineFailure n cause slotBad missed gap s) := by
  refine State.Ends.keepsRuns ?_
  have h := State.keeps_refl s
  unfold execLoopEngineFailure; try dsimp only
  repeat' (first | with_reducible assumption | with_reducible refine State.ends_next ?_ | with_reducible refine State.ends_ite ?_ ?_ | intro _ | with_reducible apply State.keeps_ite | with_reducible apply State.keeps_ite₁ | with_reducible apply State.engineFailure_keeps | split | dsimp only | fail_if_no_progress with_reducible refine State.keeps_lit ?_ rfl rfl rfl rfl rfl)

theorem execOverloadCompare_runs (n : Fin 16) (s : State) : State.Ends s.Runs (execOverloadCompare n s) := by
  refine State.Ends.keepsRuns ?_
  have h := State.keeps_refl s
  unfold execOverloadCompare; try dsimp only
  repeat' (first | with_reducible assumption | with_reducible refine State.ends_next ?_ | with_reducible refine State.ends_ite ?_ ?_ | intro _ | with_reducible apply State.keeps_ite | with_reducible apply State.keeps_ite₁ | with_reducible apply State.updCl_keeps | with_reducible apply State.when_keeps | with_reducible apply State.latch_keeps | with_reducible apply State.setB_keeps | with_reducible apply State.lower_keeps | split | dsimp only | fail_if_no_progress with_reducible refine State.keeps_lit ?_ rfl rfl rfl rfl rfl)

theorem execBalanceStep_runs (n : Fin 16) (s : State) : State.Ends s.Runs (execBalanceStep n s) := by
  refine State.Ends.keepsRuns ?_
  have h := State.keeps_refl s
  unfold execBalanceStep; try dsimp only
  repeat' (first | with_reducible assumption | with_reducible refine State.ends_next ?_ | with_reducible refine State.ends_ite ?_ ?_ | intro _ | with_reducible apply State.keeps_ite | with_reducible apply State.keeps_ite₁ | with_reducible apply State.balance_keeps | with_reducible apply State.updCl_keeps | with_reducible apply State.each_keeps' | with_reducible apply State.updPh_keeps | split | dsimp only | fail_if_no_progress with_reducible refine State.keeps_lit ?_ rfl rfl rfl rfl rfl)

theorem execCalibrationSave_runs (s : State) : State.Ends s.Runs (execCalibrationSave s) := by
  refine State.Ends.keepsRuns ?_
  have h := State.keeps_refl s
  unfold execCalibrationSave; try dsimp only
  repeat' (first | with_reducible assumption | with_reducible refine State.ends_next ?_ | with_reducible refine State.ends_ite ?_ ?_ | intro _ | with_reducible apply State.keeps_ite | with_reducible apply State.keeps_ite₁ | with_reducible apply State.saveCal_keeps | split | dsimp only | fail_if_no_progress with_reducible refine State.keeps_lit ?_ rfl rfl rfl rfl rfl)

theorem execPrecisionSlotResult_runs (slot : Fin 6) (r : Vector (BitVec 24) 4) (fast : Vector Rat 4) (clean : BitVec 4) (ref : Rat) (s : State) : State.Ends s.Runs (execPrecisionSlotResult slot r fast clean ref s) := by
  refine State.Ends.keepsRuns ?_
  have h := State.keeps_refl s
  unfold execPrecisionSlotResult; try dsimp only
  repeat' (first | with_reducible assumption | with_reducible refine State.ends_next ?_ | with_reducible refine State.ends_ite ?_ ?_ | intro _ | with_reducible apply State.keeps_ite | with_reducible apply State.keeps_ite₁ | with_reducible apply State.each_keeps' | with_reducible apply State.snapLatch_keeps | with_reducible apply State.clusterResult_keeps | with_reducible apply State.hvResult_keeps | with_reducible apply State.refResult_keeps | split | dsimp only | fail_if_no_progress with_reducible refine State.keeps_lit ?_ rfl rfl rfl rfl rfl)

theorem execAutoZeroComplete_runs (f : Fin 3) (s : State) : State.Ends s.Runs (execAutoZeroComplete f s) := by
  refine State.Ends.keepsRuns ?_
  have h := State.keeps_refl s
  unfold execAutoZeroComplete; try dsimp only
  repeat' (first | with_reducible assumption | with_reducible refine State.ends_next ?_ | with_reducible refine State.ends_ite ?_ ?_ | intro _ | with_reducible apply State.keeps_ite | with_reducible apply State.keeps_ite₁ | with_reducible apply State.updFd_keeps | with_reducible apply State.setB_keeps | with_reducible apply State.setS_keeps | split | dsimp only | fail_if_no_progress with_reducible refine State.keeps_lit ?_ rfl rfl rfl rfl rfl)

theorem execRatioStepComplete_runs (n : Fin 16) (a : Rat) (b0 : Rat) (u0 : Rat) (b1 : Rat) (u1 : Rat) (s : State) : State.Ends s.Runs (execRatioStepComplete n a b0 u0 b1 u1 s) := by
  refine State.Ends.keepsRuns ?_
  have h := State.keeps_refl s
  unfold execRatioStepComplete; try dsimp only
  repeat' (first | with_reducible assumption | with_reducible refine State.ends_next ?_ | with_reducible refine State.ends_ite ?_ ?_ | intro _ | with_reducible apply State.keeps_ite | with_reducible apply State.keeps_ite₁ | with_reducible apply State.updCl_keeps | with_reducible apply State.setS_keeps | with_reducible apply State.removePhase_keeps | with_reducible apply State.rsAccept_keeps | split | dsimp only | fail_if_no_progress with_reducible refine State.keeps_lit ?_ rfl rfl rfl rfl rfl)

theorem execEnergyBalancePoint_runs (src : Fin 17) (ps : Rat) (px : Rat) (pc : Vector Rat 16) (ic : Vector Rat 16) (s : State) : State.Ends s.Runs (execEnergyBalancePoint src ps px pc ic s) := by
  refine State.Ends.keepsRuns ?_
  have h := State.keeps_refl s
  unfold execEnergyBalancePoint; try dsimp only
  repeat' (first | with_reducible assumption | with_reducible refine State.ends_next ?_ | with_reducible refine State.ends_ite ?_ ?_ | intro _ | with_reducible apply State.keeps_ite | with_reducible apply State.keeps_ite₁ | with_reducible apply State.each_keeps' | with_reducible apply State.ebTake_keeps | split | dsimp only | fail_if_no_progress with_reducible refine State.keeps_lit ?_ rfl rfl rfl rfl rfl)

theorem execPrecisionWindow_runs (i : Vector (BitVec 24) 4) (v : Vector Rat 6) (s : State) : State.Ends s.Runs (execPrecisionWindow i v s) := by
  refine State.Ends.keepsRuns ?_
  have h := State.keeps_refl s
  unfold execPrecisionWindow; try dsimp only
  repeat' (first | with_reducible assumption | with_reducible refine State.ends_next ?_ | with_reducible refine State.ends_ite ?_ ?_ | intro _ | with_reducible apply State.keeps_ite | with_reducible apply State.keeps_ite₁ | with_reducible apply State.each_keeps' | with_reducible apply State.feedWindow_keeps | with_reducible apply State.snapLatch_keeps | with_reducible apply State.when_keeps | with_reducible apply State.setReg_keeps | split | dsimp only | fail_if_no_progress with_reducible refine State.keeps_lit ?_ rfl rfl rfl rfl rfl)

theorem execAutoZeroStart_runs (f : Fin 3) (s : State) : State.Ends s.Runs (execAutoZeroStart f s) := by
  refine State.Ends.keepsRuns ?_
  have h := State.keeps_refl s
  unfold execAutoZeroStart; try dsimp only
  repeat' (first | with_reducible assumption | with_reducible refine State.ends_next ?_ | with_reducible refine State.ends_ite ?_ ?_ | intro _ | with_reducible apply State.keeps_ite | with_reducible apply State.keeps_ite₁ | with_reducible apply State.updFd_keeps | with_reducible apply State.setB_keeps | split | dsimp only | fail_if_no_progress with_reducible refine State.keeps_lit ?_ rfl rfl rfl rfl rfl)

theorem execTelemetryBlock_runs (u : TelUnit) (s : State) : State.Ends s.Runs (execTelemetryBlock u s) := by
  refine State.Ends.keepsRuns ?_
  have h := State.keeps_refl s
  unfold execTelemetryBlock; try dsimp only
  repeat' (first | with_reducible assumption | with_reducible refine State.ends_next ?_ | with_reducible refine State.ends_ite ?_ ?_ | intro _ | with_reducible apply State.keeps_ite | with_reducible apply State.keeps_ite₁ | with_reducible apply telCluster_keeps | with_reducible apply telPhase_keeps | with_reducible apply telFeed_keeps | split | dsimp only | fail_if_no_progress with_reducible refine State.keeps_lit ?_ rfl rfl rfl rfl rfl)

theorem execZeroLearnWindow_runs (p : Fin 48) (mean : Rat) (fox : Bool) (s : State) : State.Ends s.Runs (execZeroLearnWindow p mean fox s) := by
  refine State.Ends.keepsRuns ?_
  have h := State.keeps_refl s
  unfold execZeroLearnWindow; try dsimp only
  repeat' (first | with_reducible assumption | with_reducible refine State.ends_next ?_ | with_reducible refine State.ends_ite ?_ ?_ | intro _ | with_reducible apply State.keeps_ite | with_reducible apply State.keeps_ite₁ | with_reducible apply State.setS_keeps | split | dsimp only | fail_if_no_progress with_reducible refine State.keeps_lit ?_ rfl rfl rfl rfl rfl)

theorem execTrimTargetUpdate_runs (s : State) : State.Ends s.Runs (execTrimTargetUpdate s) := by
  refine State.Ends.keepsRuns ?_
  have h := State.keeps_refl s
  unfold execTrimTargetUpdate; try dsimp only
  repeat' (first | with_reducible assumption | with_reducible refine State.ends_next ?_ | with_reducible refine State.ends_ite ?_ ?_ | intro _ | with_reducible apply State.keeps_ite | with_reducible apply State.keeps_ite₁ | with_reducible apply State.each_keeps' | with_reducible apply State.trimTarget_keeps | split | dsimp only | fail_if_no_progress with_reducible refine State.keeps_lit ?_ rfl rfl rfl rfl rfl)

theorem execRatioStepStart_runs (n : Fin 16) (steady : Bool) (late : Bool) (s : State) : State.Ends s.Runs (execRatioStepStart n steady late s) := by
  refine State.Ends.keepsRuns ?_
  have h := State.keeps_refl s
  unfold execRatioStepStart; try dsimp only
  repeat' (first | with_reducible assumption | with_reducible refine State.ends_next ?_ | with_reducible refine State.ends_ite ?_ ?_ | intro _ | with_reducible apply State.keeps_ite | with_reducible apply State.keeps_ite₁ | with_reducible apply State.updCl_keeps | split | dsimp only | fail_if_no_progress with_reducible refine State.keeps_lit ?_ rfl rfl rfl rfl rfl)

theorem execSysfltIn_runs (s : State) : State.Ends s.Runs (execSysfltIn s) := by
  refine State.Ends.keepsRuns ?_
  have h := State.keeps_refl s
  unfold execSysfltIn; try dsimp only
  repeat' (first | with_reducible assumption | with_reducible refine State.ends_next ?_ | with_reducible refine State.ends_ite ?_ ?_ | intro _ | with_reducible apply State.keeps_ite | with_reducible apply State.keeps_ite₁ | with_reducible apply State.raise_keeps | with_reducible apply State.setB_keeps | split | dsimp only | fail_if_no_progress with_reducible refine State.keeps_lit ?_ rfl rfl rfl rfl rfl)

theorem execSeqStepComplete_runs (part : Bool) (inwin : BitVec 16) (below : BitVec 16) (pgin : BitVec 8) (s : State) : State.Ends s.Runs (execSeqStepComplete part inwin below pgin s) := by
  refine State.Ends.movesRuns ?_
  have h := State.moves_refl s
  unfold execSeqStepComplete; try dsimp only
  repeat' (first | with_reducible assumption | with_reducible refine State.ends_next ?_ | with_reducible refine State.ends_ite ?_ ?_ | intro _ | with_reducible apply State.moves_ite | with_reducible apply State.moves_ite₁ | with_reducible apply State.sample_moves | with_reducible apply State.subComplete_moves | with_reducible apply State.stepComplete_moves | split | dsimp only | fail_if_no_progress with_reducible refine State.moves_lit ?_ rfl rfl rfl rfl rfl)

theorem execSeqStepTimeout_runs (part : Bool) (s : State) : State.Ends s.Runs (execSeqStepTimeout part s) := by
  have h := State.keeps_refl s
  have hn {u : State} (k : s.Keeps u) (hd : s.dev ≠ .safe) : u.dev ≠ .safe := by rw [k.dev]; exact hd
  have r {u : State} (k : s.Keeps u) : s.Runs u := k.toMoves.runs
  have kr := State.raise_keeps h Src.seqTimeout
  unfold execSeqStepTimeout
  refine State.ends_ite ?_ ?_
  · split
    · exact State.ends_next (r h)
    · refine State.ends_ite (State.ends_next (r (State.subComplete_keeps h))) (State.ends_ite (State.ends_next (r h)) (State.ends_next (r ?_)))
      exact State.keeps_ite (State.setB_keeps (State.seqDecide_keeps kr _ _ _) _ _ _) (State.subFrom_keeps (State.forceOn_keeps kr _ _) _)
  · refine State.ends_ite (State.ends_next (r h)) ?_
    split
    · rename_i hd
      have hd : s.dev ≠ .safe := by rw [hd]; decide
      refine State.ends_ite (State.ends_next (State.stepComplete_moves h.toMoves).runs) (State.ends_ite ?_ ?_)
      · have k := State.seqDecide_keeps kr (s.f F.SEQ_STAT_STEP) 0 3
        exact State.ends_ite (State.ends_next (k.toMoves.seqdnEntry (hn k hd)).runs)
          (State.ends_next ((State.setB_keeps k _ _ _).toMoves.seqdnEntry (hn (State.setB_keeps k _ _ _) hd)).runs)
      · have k := State.forceOn_keeps kr (s.f F.SEQ_STAT_STEP) 0
        exact State.ends_next (k.toMoves.nextUp (hn k hd) _).runs
    · rename_i hd
      have hd : s.dev ≠ .safe := by rw [hd]; decide
      refine State.ends_ite (State.ends_next (State.stepComplete_moves h.toMoves).runs) (State.ends_next ?_)
      have k := State.forceOn_keeps kr (s.f F.SEQ_STAT_STEP) 1
      exact State.runs_ite (r (State.setB_keeps (State.seqDecide_keeps kr _ _ _) _ _ _)) (k.toMoves.nextDown (hn k hd) _).runs
    · exact State.ends_next (r h)

theorem execClFov_runs (n : Fin 16) (s : State) : State.Ends s.Runs (execClFov n s) := by
  refine State.Ends.keepsRuns ?_
  have h := State.keeps_refl s
  unfold execClFov; try dsimp only
  repeat' (first | with_reducible assumption | with_reducible refine State.ends_next ?_ | with_reducible refine State.ends_ite ?_ ?_ | intro _ | with_reducible apply State.keeps_ite | with_reducible apply State.keeps_ite₁ | with_reducible apply State.winFault_keeps | split | dsimp only | fail_if_no_progress with_reducible refine State.keeps_lit ?_ rfl rfl rfl rfl rfl)

theorem execPwrgdReturn_runs (s : State) : State.Ends s.Runs (execPwrgdReturn s) := by
  refine State.Ends.keepsRuns ?_
  have h := State.keeps_refl s
  unfold execPwrgdReturn; try dsimp only
  repeat' (first | with_reducible assumption | with_reducible refine State.ends_next ?_ | with_reducible refine State.ends_ite ?_ ?_ | intro _ | with_reducible apply State.keeps_ite | with_reducible apply State.keeps_ite₁ | split | dsimp only | fail_if_no_progress with_reducible refine State.keeps_lit ?_ rfl rfl rfl rfl rfl)

theorem execMinOffTimeExpiry_runs (s : State) : State.Ends s.Runs (execMinOffTimeExpiry s) := by
  refine State.Ends.movesRuns ?_
  have h := State.moves_refl s
  unfold execMinOffTimeExpiry; try dsimp only
  repeat' (first | with_reducible assumption | with_reducible refine State.ends_next ?_ | with_reducible refine State.ends_ite ?_ ?_ | intro _ | with_reducible apply State.moves_ite | with_reducible apply State.moves_ite₁ | with_reducible apply State.evalStart_moves | with_reducible apply State.setB_moves | split | dsimp only | fail_if_no_progress with_reducible refine State.moves_lit ?_ rfl rfl rfl rfl rfl)

theorem execSysfltHoldEnd_runs (low : Bool) (s : State) : State.Ends s.Runs (execSysfltHoldEnd low s) := by
  refine State.Ends.movesRuns ?_
  have h := State.moves_refl s
  unfold execSysfltHoldEnd; try dsimp only
  repeat' (first | with_reducible assumption | with_reducible refine State.ends_next ?_ | with_reducible refine State.ends_ite ?_ ?_ | intro _ | with_reducible apply State.moves_ite | with_reducible apply State.moves_ite₁ | with_reducible apply State.setB_moves | with_reducible apply State.evalHdone_moves | with_reducible apply State.lineHigh_moves | split | dsimp only | fail_if_no_progress with_reducible refine State.moves_lit ?_ rfl rfl rfl rfl rfl)

theorem execHiccupRestart_runs (n : Fin 16) (s : State) : State.Ends s.Runs (execHiccupRestart n s) := by
  refine State.Ends.keepsRuns ?_
  have h := State.keeps_refl s
  unfold execHiccupRestart; try dsimp only
  repeat' (first | with_reducible assumption | with_reducible refine State.ends_next ?_ | with_reducible refine State.ends_ite ?_ ?_ | intro _ | with_reducible apply State.keeps_ite | with_reducible apply State.keeps_ite₁ | with_reducible apply State.clStart_keeps | with_reducible apply State.updCl_keeps | split | dsimp only | fail_if_no_progress with_reducible refine State.keeps_lit ?_ rfl rfl rfl rfl rfl)

theorem execSysfltStuck_runs (s : State) : State.Ends s.Runs (execSysfltStuck s) := by
  refine State.Ends.keepsRuns ?_
  have h := State.keeps_refl s
  unfold execSysfltStuck; try dsimp only
  repeat' (first | with_reducible assumption | with_reducible refine State.ends_next ?_ | with_reducible refine State.ends_ite ?_ ?_ | intro _ | with_reducible apply State.keeps_ite | with_reducible apply State.keeps_ite₁ | with_reducible apply State.raise_keeps | with_reducible apply State.setB_keeps | split | dsimp only | fail_if_no_progress with_reducible refine State.keeps_lit ?_ rfl rfl rfl rfl rfl)

theorem execSoftStartShort_runs (n : Fin 16) (out : BitVec 12) (s : State) : State.Ends s.Runs (execSoftStartShort n out s) := by
  refine State.Ends.keepsRuns ?_
  have h := State.keeps_refl s
  unfold execSoftStartShort; try dsimp only
  repeat' (first | with_reducible assumption | with_reducible refine State.ends_next ?_ | with_reducible refine State.ends_ite ?_ ?_ | intro _ | with_reducible apply State.keeps_ite | with_reducible apply State.keeps_ite₁ | with_reducible apply State.each_keeps' | with_reducible apply State.clOff_keeps | with_reducible apply State.recordSrc_keeps | with_reducible apply State.raise_keeps | with_reducible apply State.incF_keeps | with_reducible apply State.updCl_keeps | with_reducible apply State.setB_keeps | split | dsimp only | fail_if_no_progress with_reducible refine State.keeps_lit ?_ rfl rfl rfl rfl rfl)

/-- EN_CHANGE changes EN; what no other command changes stays. -/
theorem execEnChange_moves (level : Bool) (lowMs : BitVec 16) (s : State) :
    State.Ends (State.Moves { s with pins := { s.pins with en := level } }) (execEnChange level lowMs s) := by
  unfold execEnChange
  exact State.ends_next (State.evalOnreq_moves (State.when_moves (State.moves_refl _) _ fun k => State.clearTrips_moves k))

theorem execSysfltLineRelease_runs (s : State) : State.Ends s.Runs (execSysfltLineRelease s) := by
  refine State.Ends.movesRuns ?_
  have h := State.moves_refl s
  unfold execSysfltLineRelease; try dsimp only
  repeat' (first | with_reducible assumption | with_reducible refine State.ends_next ?_ | with_reducible refine State.ends_ite ?_ ?_ | intro _ | with_reducible apply State.moves_ite | with_reducible apply State.moves_ite₁ | with_reducible apply State.lineHigh_moves | split | dsimp only | fail_if_no_progress with_reducible refine State.moves_lit ?_ rfl rfl rfl rfl rfl)

theorem execClOv_runs (n : Fin 16) (s : State) : State.Ends s.Runs (execClOv n s) := by
  refine State.Ends.keepsRuns ?_
  have h := State.keeps_refl s
  unfold execClOv; try dsimp only
  repeat' (first | with_reducible assumption | with_reducible refine State.ends_next ?_ | with_reducible refine State.ends_ite ?_ ?_ | intro _ | with_reducible apply State.keeps_ite | with_reducible apply State.keeps_ite₁ | with_reducible apply State.winFault_keeps | split | dsimp only | fail_if_no_progress with_reducible refine State.keeps_lit ?_ rfl rfl rfl rfl rfl)

theorem execWindowBlankEnd_runs (n : Fin 16) (s : State) : State.Ends s.Runs (execWindowBlankEnd n s) := by
  refine State.Ends.keepsRuns ?_
  have h := State.keeps_refl s
  unfold execWindowBlankEnd; try dsimp only
  repeat' (first | with_reducible assumption | with_reducible refine State.ends_next ?_ | with_reducible refine State.ends_ite ?_ ?_ | intro _ | with_reducible apply State.keeps_ite | with_reducible apply State.keeps_ite₁ | with_reducible apply State.evalPwrgd_keeps | with_reducible apply State.updCl_keeps | with_reducible apply State.setB_keeps | split | dsimp only | fail_if_no_progress with_reducible refine State.keeps_lit ?_ rfl rfl rfl rfl rfl)

theorem execClUv_runs (n : Fin 16) (s : State) : State.Ends s.Runs (execClUv n s) := by
  refine State.Ends.keepsRuns ?_
  have h := State.keeps_refl s
  unfold execClUv; try dsimp only
  repeat' (first | with_reducible assumption | with_reducible refine State.ends_next ?_ | with_reducible refine State.ends_ite ?_ ?_ | intro _ | with_reducible apply State.keeps_ite | with_reducible apply State.keeps_ite₁ | with_reducible apply State.winFault_keeps | split | dsimp only | fail_if_no_progress with_reducible refine State.keeps_lit ?_ rfl rfl rfl rfl rfl)

theorem execBthReading_runs (i : Fin 6) (code : BitVec 12) (s : State) : State.Ends s.Runs (execBthReading i code s) := by
  refine State.Ends.keepsRuns ?_
  have h := State.keeps_refl s
  unfold execBthReading; try dsimp only
  repeat' (first | with_reducible assumption | with_reducible refine State.ends_next ?_ | with_reducible refine State.ends_ite ?_ ?_ | intro _ | with_reducible apply State.keeps_ite | with_reducible apply State.keeps_ite₁ | with_reducible apply State.setB_keeps | with_reducible apply State.updBat_keeps | with_reducible apply State.evalHot_keeps | with_reducible apply State.follow_keeps | split | dsimp only | fail_if_no_progress with_reducible refine State.keeps_lit ?_ rfl rfl rfl rfl rfl)

theorem execRestComplete_runs (i : Fin 6) (volts : Rat) (s : State) : State.Ends s.Runs (execRestComplete i volts s) := by
  refine State.Ends.keepsRuns ?_
  have h := State.keeps_refl s
  unfold execRestComplete; try dsimp only
  repeat' (first | with_reducible assumption | with_reducible refine State.ends_next ?_ | with_reducible refine State.ends_ite ?_ ?_ | intro _ | with_reducible apply State.keeps_ite | with_reducible apply State.keeps_ite₁ | with_reducible apply State.setRest_keeps | with_reducible apply State.refPoint_keeps | split | dsimp only | fail_if_no_progress with_reducible refine State.keeps_lit ?_ rfl rfl rfl rfl rfl)

theorem execPackUvCut_runs (i : Fin 6) (s : State) : State.Ends s.Runs (execPackUvCut i s) := by
  refine State.Ends.keepsRuns ?_
  have h := State.keeps_refl s
  unfold execPackUvCut; try dsimp only
  repeat' (first | with_reducible assumption | with_reducible refine State.ends_next ?_ | with_reducible refine State.ends_ite ?_ ?_ | intro _ | with_reducible apply State.keeps_ite | with_reducible apply State.keeps_ite₁ | with_reducible apply State.when_keeps | with_reducible apply State.queueWrites_keeps | with_reducible apply State.evalBen_keeps | with_reducible apply State.raise_keeps | with_reducible apply State.setB_keeps | split | dsimp only | fail_if_no_progress with_reducible refine State.keeps_lit ?_ rfl rfl rfl rfl rfl)

theorem execImpedanceStep_runs (i : Fin 6) (di : Rat) (vpre : Rat) (v1ms : Rat) (v10ms : Option Rat) (s : State) : State.Ends s.Runs (execImpedanceStep i di vpre v1ms v10ms s) := by
  refine State.Ends.keepsRuns ?_
  have h := State.keeps_refl s
  unfold execImpedanceStep; try dsimp only
  repeat' (first | with_reducible assumption | with_reducible refine State.ends_next ?_ | with_reducible refine State.ends_ite ?_ ?_ | intro _ | with_reducible apply State.keeps_ite | with_reducible apply State.keeps_ite₁ | with_reducible apply State.updBat_keeps | with_reducible apply State.setF_keeps | split | dsimp only | fail_if_no_progress with_reducible refine State.keeps_lit ?_ rfl rfl rfl rfl rfl)

theorem execEstimatorStep_runs (i : Fin 6) (amps : Rat) (volts : Rat) (steady : Bool) (fresh : Bool) (s : State) : State.Ends s.Runs (execEstimatorStep i amps volts steady fresh s) := by
  refine State.Ends.keepsRuns ?_
  have h := State.keeps_refl s
  unfold execEstimatorStep; try dsimp only
  repeat' (first | with_reducible assumption | with_reducible refine State.ends_next ?_ | with_reducible refine State.ends_ite ?_ ?_ | intro _ | with_reducible apply State.keeps_ite | with_reducible apply State.keeps_ite₁ | with_reducible apply State.lower_keeps | with_reducible apply State.setB_keeps | with_reducible apply State.raise_keeps | with_reducible apply State.updBat_keeps | with_reducible apply State.evalBen_keeps | with_reducible apply State.refAge_keeps | with_reducible apply State.applyRestore_keeps | with_reducible apply State.estFilter_keeps | with_reducible apply State.topOfCharge_keeps | with_reducible apply State.refPoint_keeps | with_reducible apply State.criteria_keeps | with_reducible apply State.setReg_keeps | with_reducible apply State.showBat_keeps | split | dsimp only | fail_if_no_progress with_reducible refine State.keeps_lit ?_ rfl rfl rfl rfl rfl)

theorem execContactorSettled_runs (s : State) : State.Ends s.Runs (execContactorSettled s) := by
  refine State.Ends.keepsRuns ?_
  have h := State.keeps_refl s
  unfold execContactorSettled; try dsimp only
  repeat' (first | with_reducible assumption | with_reducible refine State.ends_next ?_ | with_reducible refine State.ends_ite ?_ ?_ | intro _ | with_reducible apply State.keeps_ite | with_reducible apply State.keeps_ite₁ | with_reducible apply State.evalBen_keeps | with_reducible apply State.updBat_keeps | split | dsimp only | fail_if_no_progress with_reducible refine State.keeps_lit ?_ rfl rfl rfl rfl rfl)

theorem execSafeFeedGateOff_runs (s : State) : State.Ends s.Runs (execSafeFeedGateOff s) := by
  refine State.Ends.keepsRuns ?_
  have h := State.keeps_refl s
  unfold execSafeFeedGateOff; try dsimp only
  repeat' (first | with_reducible assumption | with_reducible refine State.ends_next ?_ | with_reducible refine State.ends_ite ?_ ?_ | intro _ | with_reducible apply State.keeps_ite | with_reducible apply State.keeps_ite₁ | with_reducible apply State.allGatesOff_keeps | split | dsimp only | fail_if_no_progress with_reducible refine State.keeps_lit ?_ rfl rfl rfl rfl rfl)

theorem execHeartbeatLoss_runs (s : State) : State.Ends s.Runs (execHeartbeatLoss s) := by
  refine State.Ends.movesRuns ?_
  have h := State.moves_refl s
  unfold execHeartbeatLoss; try dsimp only
  repeat' (first | with_reducible assumption | with_reducible refine State.ends_next ?_ | with_reducible refine State.ends_ite ?_ ?_ | intro _ | with_reducible apply State.moves_ite | with_reducible apply State.moves_ite₁ | with_reducible apply State.safeOff_moves | split | dsimp only | fail_if_no_progress with_reducible refine State.moves_lit ?_ rfl rfl rfl rfl rfl)

theorem execWireFault_runs (pair : BitVec 10) (fresh : Bool) (s : State) : State.Ends s.Runs (execWireFault pair fresh s) := by
  refine State.Ends.movesRuns ?_
  have h := State.moves_refl s
  unfold execWireFault; try dsimp only
  repeat' (first | with_reducible assumption | with_reducible refine State.ends_next ?_ | with_reducible refine State.ends_ite ?_ ?_ | intro _ | with_reducible apply State.moves_ite | with_reducible apply State.moves_ite₁ | with_reducible apply State.incF_moves | with_reducible apply State.setF_moves | with_reducible apply State.setB_moves | with_reducible apply State.when_moves | with_reducible apply State.raise_moves | with_reducible apply State.histAdd_moves | with_reducible apply State.wirePair_moves | split | dsimp only | fail_if_no_progress with_reducible refine State.moves_lit ?_ rfl rfl rfl rfl rfl)

theorem execSupervisorEvaluation_runs (a : ChanInput) (b : ChanInput) (c : ChanInput) (s : State) : State.Ends s.Runs (execSupervisorEvaluation a b c s) := by
  refine State.Ends.keepsRuns ?_
  have h := State.keeps_refl s
  unfold execSupervisorEvaluation; try dsimp only
  repeat' (first | with_reducible assumption | with_reducible refine State.ends_next ?_ | with_reducible refine State.ends_ite ?_ ?_ | intro _ | with_reducible apply State.keeps_ite | with_reducible apply State.keeps_ite₁ | with_reducible apply State.evalBound_keeps | split | dsimp only | fail_if_no_progress with_reducible refine State.keeps_lit ?_ rfl rfl rfl rfl rfl)

theorem execVoterWatchdog_runs (s : State) : State.Ends s.Runs (execVoterWatchdog s) := by
  refine State.Ends.movesRuns ?_
  have h := State.moves_refl s
  unfold execVoterWatchdog; try dsimp only
  repeat' (first | with_reducible assumption | with_reducible refine State.ends_next ?_ | with_reducible refine State.ends_ite ?_ ?_ | intro _ | with_reducible apply State.moves_ite | with_reducible apply State.moves_ite₁ | with_reducible apply State.disagree_moves | split | dsimp only | fail_if_no_progress with_reducible refine State.moves_lit ?_ rfl rfl rfl rfl rfl)

theorem execVoteWindowClose_runs (s : State) : State.Ends s.Runs (execVoteWindowClose s) := by
  refine State.Ends.movesRuns ?_
  have h := State.moves_refl s
  unfold execVoteWindowClose; try dsimp only
  repeat' (first | with_reducible assumption | with_reducible refine State.ends_next ?_ | with_reducible refine State.ends_ite ?_ ?_ | intro _ | with_reducible apply State.moves_ite | with_reducible apply State.moves_ite₁ | with_reducible apply voteWindowClose_moves | split | dsimp only | fail_if_no_progress with_reducible refine State.moves_lit ?_ rfl rfl rfl rfl rfl)

end Sys2Proof.Machine
end

