-- ==== Sys2Proof/Laws/Runs2.lean ====
section
/-! SUPPORT. What the commands of the feeds, thermal, capture, timer, bus and ring units leave alone. -/

set_option linter.unusedTactic false
set_option linter.unreachableTactic false

namespace Sys2Proof.Machine

theorem execFaultTimerClear_runs (f : Fin 3) (s : State) : State.Ends s.Runs (execFaultTimerClear f s) := by
  refine State.Ends.keepsRuns ?_
  have h := State.keeps_refl s
  unfold execFaultTimerClear; try dsimp only
  repeat' (first | with_reducible assumption | with_reducible refine State.ends_next ?_ | with_reducible refine State.ends_ite ?_ ?_ | intro _ | with_reducible apply State.keeps_ite | with_reducible apply State.keeps_ite₁ | with_reducible apply State.setB_keeps | split | dsimp only | fail_if_no_progress with_reducible refine State.keeps_lit ?_ rfl rfl rfl rfl rfl)

theorem execBusLadderRelease_runs (s : State) : State.Ends s.Runs (execBusLadderRelease s) := by
  refine State.Ends.keepsRuns ?_
  have h := State.keeps_refl s
  unfold execBusLadderRelease; try dsimp only
  repeat' (first | with_reducible assumption | with_reducible refine State.ends_next ?_ | with_reducible refine State.ends_ite ?_ ?_ | intro _ | with_reducible apply State.keeps_ite | with_reducible apply State.keeps_ite₁ | with_reducible apply State.setF_keeps | with_reducible apply State.evalBen_keeps | with_reducible apply State.when_keeps | with_reducible apply State.releaseB3_keeps | split | dsimp only | fail_if_no_progress with_reducible refine State.keeps_lit ?_ rfl rfl rfl rfl rfl)

theorem execFeedGate_runs (s : State) : State.Ends s.Runs (execFeedGate s) := by
  refine State.Ends.keepsRuns ?_
  have h := State.keeps_refl s
  unfold execFeedGate; try dsimp only
  repeat' (first | with_reducible assumption | with_reducible refine State.ends_next ?_ | with_reducible refine State.ends_ite ?_ ?_ | intro _ | with_reducible apply State.keeps_ite | with_reducible apply State.keeps_ite₁ | with_reducible apply State.raise_keeps | with_reducible apply State.setB_keeps | split | dsimp only | fail_if_no_progress with_reducible refine State.keeps_lit ?_ rfl rfl rfl rfl rfl)

theorem execSeatQualified_runs (s : State) : State.Ends s.Runs (execSeatQualified s) := by
  refine State.Ends.movesRuns ?_
  have h := State.moves_refl s
  unfold execSeatQualified; try dsimp only
  repeat' (first | with_reducible assumption | with_reducible refine State.ends_next ?_ | with_reducible refine State.ends_ite ?_ ?_ | intro _ | with_reducible apply State.moves_ite | with_reducible apply State.moves_ite₁ | with_reducible apply State.setB_moves | with_reducible apply State.when_moves | with_reducible apply State.saveState_moves | with_reducible apply State.clearTrips_moves | with_reducible apply State.evalOnreq_moves | with_reducible apply State.evalFeedSel_moves | with_reducible apply State.evalBen_moves | split | dsimp only | fail_if_no_progress with_reducible refine State.moves_lit ?_ rfl rfl rfl rfl rfl)

theorem execVbusQualified_runs (s : State) : State.Ends s.Runs (execVbusQualified s) := by
  refine State.Ends.keepsRuns ?_
  have h := State.keeps_refl s
  unfold execVbusQualified; try dsimp only
  repeat' (first | with_reducible assumption | with_reducible refine State.ends_next ?_ | with_reducible refine State.ends_ite ?_ ?_ | intro _ | with_reducible apply State.keeps_ite | with_reducible apply State.keeps_ite₁ | with_reducible apply State.setB_keeps | split | dsimp only | fail_if_no_progress with_reducible refine State.keeps_lit ?_ rfl rfl rfl rfl rfl)

theorem execUnseatTimeout_runs (s : State) : State.Ends s.Runs (execUnseatTimeout s) := by
  refine State.Ends.keepsRuns ?_
  have h := State.keeps_refl s
  unfold execUnseatTimeout; try dsimp only
  repeat' (first | with_reducible assumption | with_reducible refine State.ends_next ?_ | with_reducible refine State.ends_ite ?_ ?_ | intro _ | with_reducible apply State.keeps_ite | with_reducible apply State.keeps_ite₁ | with_reducible apply State.allGatesOff_keeps | with_reducible apply State.each_keeps' | with_reducible apply State.clOff_keeps | with_reducible apply State.evalBen_keeps | split | dsimp only | fail_if_no_progress with_reducible refine State.keeps_lit ?_ rfl rfl rfl rfl rfl)

theorem execBusLadderEntry_runs (k : Fin 5) (s : State) : State.Ends s.Runs (execBusLadderEntry k s) := by
  refine State.Ends.movesRuns ?_
  have h := State.moves_refl s
  unfold execBusLadderEntry; try dsimp only
  repeat' (first | with_reducible assumption | with_reducible refine State.ends_next ?_ | with_reducible refine State.ends_ite ?_ ?_ | intro _ | with_reducible apply State.moves_ite | with_reducible apply State.moves_ite₁ | with_reducible apply State.raise_moves | with_reducible apply State.setF_moves | with_reducible apply State.each_moves | with_reducible apply State.ladderAct_moves | with_reducible apply State.histAdd_moves | with_reducible apply State.evalBen_moves | split | dsimp only | fail_if_no_progress with_reducible refine State.moves_lit ?_ rfl rfl rfl rfl rfl)

theorem execReturnDelayExpiry_runs (f : Fin 3) (s : State) : State.Ends s.Runs (execReturnDelayExpiry f s) := by
  refine State.Ends.keepsRuns ?_
  have h := State.keeps_refl s
  unfold execReturnDelayExpiry; try dsimp only
  repeat' (first | with_reducible assumption | with_reducible refine State.ends_next ?_ | with_reducible refine State.ends_ite ?_ ?_ | intro _ | with_reducible apply State.keeps_ite | with_reducible apply State.keeps_ite₁ | with_reducible apply State.returnTo_keeps | split | dsimp only | fail_if_no_progress with_reducible refine State.keeps_lit ?_ rfl rfl rfl rfl rfl)

theorem execRetryTimerExpiry_runs (s : State) : State.Ends s.Runs (execRetryTimerExpiry s) := by
  refine State.Ends.movesRuns ?_
  have h := State.moves_refl s
  unfold execRetryTimerExpiry; try dsimp only
  repeat' (first | with_reducible assumption | with_reducible refine State.ends_next ?_ | with_reducible refine State.ends_ite ?_ ?_ | intro _ | with_reducible apply State.moves_ite | with_reducible apply State.moves_ite₁ | with_reducible apply State.saveState_moves | with_reducible apply State.setB_moves | with_reducible apply State.setF_moves | with_reducible apply State.when_moves | with_reducible apply State.evalStart_moves | with_reducible apply State.clearTrips_moves | split | dsimp only | fail_if_no_progress with_reducible refine State.moves_lit ?_ rfl rfl rfl rfl rfl)

theorem execFeedOv_runs (f : Fin 3) (s : State) : State.Ends s.Runs (execFeedOv f s) := by
  refine State.Ends.keepsRuns ?_
  have h := State.keeps_refl s
  unfold execFeedOv; try dsimp only
  repeat' (first | with_reducible assumption | with_reducible refine State.ends_next ?_ | with_reducible refine State.ends_ite ?_ ?_ | intro _ | with_reducible apply State.keeps_ite | with_reducible apply State.keeps_ite₁ | with_reducible apply State.leaveFeed_keeps | with_reducible apply State.unqualify_keeps | with_reducible apply State.raise_keeps | with_reducible apply State.setB_keeps | split | dsimp only | fail_if_no_progress with_reducible refine State.keeps_lit ?_ rfl rfl rfl rfl rfl)

theorem execFaultTimerTrip_runs (f : Fin 3) (amps : Int) (vbus : BitVec 20) (s : State) : State.Ends s.Runs (execFaultTimerTrip f amps vbus s) := by
  refine State.Ends.keepsRuns ?_
  have h := State.keeps_refl s
  unfold execFaultTimerTrip; try dsimp only
  repeat' (first | with_reducible assumption | with_reducible refine State.ends_next ?_ | with_reducible refine State.ends_ite ?_ ?_ | intro _ | with_reducible apply State.keeps_ite | with_reducible apply State.keeps_ite₁ | with_reducible apply State.feedTrip_keeps | split | dsimp only | fail_if_no_progress with_reducible refine State.keeps_lit ?_ rfl rfl rfl rfl rfl)

theorem execFeedFox_runs (f : Fin 3) (amps : Int) (vbus : BitVec 20) (s : State) : State.Ends s.Runs (execFeedFox f amps vbus s) := by
  refine State.Ends.keepsRuns ?_
  have h := State.keeps_refl s
  unfold execFeedFox; try dsimp only
  repeat' (first | with_reducible assumption | with_reducible refine State.ends_next ?_ | with_reducible refine State.ends_ite ?_ ?_ | intro _ | with_reducible apply State.keeps_ite | with_reducible apply State.keeps_ite₁ | with_reducible apply State.feedTrip_keeps | split | dsimp only | fail_if_no_progress with_reducible refine State.keeps_lit ?_ rfl rfl rfl rfl rfl)

theorem execFeedUv_runs (f : Fin 3) (s : State) : State.Ends s.Runs (execFeedUv f s) := by
  refine State.Ends.keepsRuns ?_
  have h := State.keeps_refl s
  unfold execFeedUv; try dsimp only
  repeat' (first | with_reducible assumption | with_reducible refine State.ends_next ?_ | with_reducible refine State.ends_ite ?_ ?_ | intro _ | with_reducible apply State.keeps_ite | with_reducible apply State.keeps_ite₁ | with_reducible apply State.leaveFeed_keeps | with_reducible apply State.unqualify_keeps | with_reducible apply State.raise_keeps | with_reducible apply State.setB_keeps | split | dsimp only | fail_if_no_progress with_reducible refine State.keeps_lit ?_ rfl rfl rfl rfl rfl)

theorem execTransferDeadTimeEnd_runs (s : State) : State.Ends s.Runs (execTransferDeadTimeEnd s) := by
  refine State.Ends.keepsRuns ?_
  have h := State.keeps_refl s
  unfold execTransferDeadTimeEnd; try dsimp only
  repeat' (first | with_reducible assumption | with_reducible refine State.ends_next ?_ | with_reducible refine State.ends_ite ?_ ?_ | intro _ | with_reducible apply State.keeps_ite | with_reducible apply State.keeps_ite₁ | with_reducible apply State.setGate_keeps | with_reducible apply State.noFeed_keeps | split | dsimp only | fail_if_no_progress with_reducible refine State.keeps_lit ?_ rfl rfl rfl rfl rfl)

theorem execInrushComplete_runs (f : Fin 3) (s : State) : State.Ends s.Runs (execInrushComplete f s) := by
  refine State.Ends.keepsRuns ?_
  have h := State.keeps_refl s
  unfold execInrushComplete; try dsimp only
  repeat' (first | with_reducible assumption | with_reducible refine State.ends_next ?_ | with_reducible refine State.ends_ite ?_ ?_ | intro _ | with_reducible apply State.keeps_ite | with_reducible apply State.keeps_ite₁ | with_reducible apply State.conductNow_keeps | split | dsimp only | fail_if_no_progress with_reducible refine State.keeps_lit ?_ rfl rfl rfl rfl rfl)

theorem execFeedLeakClear_runs (s : State) : State.Ends s.Runs (execFeedLeakClear s) := by
  refine State.Ends.movesRuns ?_
  have h := State.moves_refl s
  unfold execFeedLeakClear; try dsimp only
  repeat' (first | with_reducible assumption | with_reducible refine State.ends_next ?_ | with_reducible refine State.ends_ite ?_ ?_ | intro _ | with_reducible apply State.moves_ite | with_reducible apply State.moves_ite₁ | with_reducible apply State.evalStart_moves | with_reducible apply State.lower_moves | split | dsimp only | fail_if_no_progress with_reducible refine State.moves_lit ?_ rfl rfl rfl rfl rfl)

theorem execTransferGateOff_runs (s : State) : State.Ends s.Runs (execTransferGateOff s) := by
  refine State.Ends.keepsRuns ?_
  have h := State.keeps_refl s
  unfold execTransferGateOff; try dsimp only
  repeat' (first | with_reducible assumption | with_reducible refine State.ends_next ?_ | with_reducible refine State.ends_ite ?_ ?_ | intro _ | with_reducible apply State.keeps_ite | with_reducible apply State.keeps_ite₁ | with_reducible apply State.setGate_keeps | split | dsimp only | fail_if_no_progress with_reducible refine State.keeps_lit ?_ rfl rfl rfl rfl rfl)

theorem execTransferComplete_runs (gap : BitVec 16) (s : State) : State.Ends s.Runs (execTransferComplete gap s) := by
  refine State.Ends.keepsRuns ?_
  have h := State.keeps_refl s
  unfold execTransferComplete; try dsimp only
  repeat' (first | with_reducible assumption | with_reducible refine State.ends_next ?_ | with_reducible refine State.ends_ite ?_ ?_ | intro _ | with_reducible apply State.keeps_ite | with_reducible apply State.keeps_ite₁ | with_reducible apply State.conductNow_keeps | with_reducible apply State.incF_keeps | with_reducible apply State.setF_keeps | with_reducible apply State.setB_keeps | with_reducible apply State.afterTransfer_keeps | split | dsimp only | fail_if_no_progress with_reducible refine State.keeps_lit ?_ rfl rfl rfl rfl rfl)

theorem execRetryTimerSave_runs (s : State) : State.Ends s.Runs (execRetryTimerSave s) := by
  refine State.Ends.keepsRuns ?_
  have h := State.keeps_refl s
  unfold execRetryTimerSave; try dsimp only
  repeat' (first | with_reducible assumption | with_reducible refine State.ends_next ?_ | with_reducible refine State.ends_ite ?_ ?_ | intro _ | with_reducible apply State.keeps_ite | with_reducible apply State.keeps_ite₁ | with_reducible apply State.saveState_keeps | split | dsimp only | fail_if_no_progress with_reducible refine State.keeps_lit ?_ rfl rfl rfl rfl rfl)

theorem execInrushTimeout_runs (f : Fin 3) (amps : Int) (vbus : BitVec 20) (s : State) : State.Ends s.Runs (execInrushTimeout f amps vbus s) := by
  refine State.Ends.keepsRuns ?_
  have h := State.keeps_refl s
  unfold execInrushTimeout; try dsimp only
  repeat' (first | with_reducible assumption | with_reducible refine State.ends_next ?_ | with_reducible refine State.ends_ite ?_ ?_ | intro _ | with_reducible apply State.keeps_ite | with_reducible apply State.keeps_ite₁ | with_reducible apply State.feedTrip_keeps | split | dsimp only | fail_if_no_progress with_reducible refine State.keeps_lit ?_ rfl rfl rfl rfl rfl)

theorem execFeedLeak_runs (s : State) : State.Ends s.Runs (execFeedLeak s) := by
  refine State.Ends.keepsRuns ?_
  have h := State.keeps_refl s
  unfold execFeedLeak; try dsimp only
  repeat' (first | with_reducible assumption | with_reducible refine State.ends_next ?_ | with_reducible refine State.ends_ite ?_ ?_ | intro _ | with_reducible apply State.keeps_ite | with_reducible apply State.keeps_ite₁ | with_reducible apply State.raise_keeps | with_reducible apply State.setB_keeps | split | dsimp only | fail_if_no_progress with_reducible refine State.keeps_lit ?_ rfl rfl rfl rfl rfl)

theorem execFeedQualificationLoss_runs (f : Fin 3) (s : State) : State.Ends s.Runs (execFeedQualificationLoss f s) := by
  refine State.Ends.keepsRuns ?_
  have h := State.keeps_refl s
  unfold execFeedQualificationLoss; try dsimp only
  repeat' (first | with_reducible assumption | with_reducible refine State.ends_next ?_ | with_reducible refine State.ends_ite ?_ ?_ | intro _ | with_reducible apply State.keeps_ite | with_reducible apply State.keeps_ite₁ | with_reducible apply State.unqualify_keeps | split | dsimp only | fail_if_no_progress with_reducible refine State.keeps_lit ?_ rfl rfl rfl rfl rfl)

theorem execFeedQualified_runs (f : Fin 3) (s : State) : State.Ends s.Runs (execFeedQualified f s) := by
  refine State.Ends.movesRuns ?_
  have h := State.moves_refl s
  unfold execFeedQualified; try dsimp only
  repeat' (first | with_reducible assumption | with_reducible refine State.ends_next ?_ | with_reducible refine State.ends_ite ?_ ?_ | intro _ | with_reducible apply State.moves_ite | with_reducible apply State.moves_ite₁ | with_reducible apply State.setB_moves | with_reducible apply State.when_moves | with_reducible apply State.evalStart_moves | with_reducible apply State.evalFeedSel_moves | split | dsimp only | fail_if_no_progress with_reducible refine State.moves_lit ?_ rfl rfl rfl rfl rfl)

theorem execFeedRev_runs (f : Fin 3) (s : State) : State.Ends s.Runs (execFeedRev f s) := by
  refine State.Ends.keepsRuns ?_
  have h := State.keeps_refl s
  unfold execFeedRev; try dsimp only
  repeat' (first | with_reducible assumption | with_reducible refine State.ends_next ?_ | with_reducible refine State.ends_ite ?_ ?_ | intro _ | with_reducible apply State.keeps_ite | with_reducible apply State.keeps_ite₁ | with_reducible apply State.leaveFeed_keeps | with_reducible apply State.raise_keeps | with_reducible apply State.setB_keeps | split | dsimp only | fail_if_no_progress with_reducible refine State.keeps_lit ?_ rfl rfl rfl rfl rfl)

theorem execGateConfirmTimeout_runs (amps : Int) (vbus : BitVec 20) (s : State) : State.Ends s.Runs (execGateConfirmTimeout amps vbus s) := by
  refine State.Ends.keepsRuns ?_
  have h := State.keeps_refl s
  unfold execGateConfirmTimeout; try dsimp only
  repeat' (first | with_reducible assumption | with_reducible refine State.ends_next ?_ | with_reducible refine State.ends_ite ?_ ?_ | intro _ | with_reducible apply State.keeps_ite | with_reducible apply State.keeps_ite₁ | with_reducible apply State.feedTrip_keeps | with_reducible apply State.setB_keeps | split | dsimp only | fail_if_no_progress with_reducible refine State.keeps_lit ?_ rfl rfl rfl rfl rfl)

theorem execSeatLoss_runs (seat1 : Bool) (seat2 : Bool) (s : State) : State.Ends s.Runs (execSeatLoss seat1 seat2 s) := by
  refine State.Ends.movesRuns ?_
  have h := State.moves_refl s
  unfold execSeatLoss; try dsimp only
  repeat' (first | with_reducible assumption | with_reducible refine State.ends_next ?_ | with_reducible refine State.ends_ite ?_ ?_ | intro _ | with_reducible apply State.moves_ite | with_reducible apply State.moves_ite₁ | with_reducible apply State.setB_moves | with_reducible apply State.raise_moves | with_reducible apply State.when_moves | with_reducible apply State.unseatStart_moves | with_reducible apply State.evalOnreq_moves | with_reducible apply State.evalBen_moves | split | dsimp only | fail_if_no_progress with_reducible refine State.moves_lit ?_ rfl rfl rfl rfl rfl)

theorem execCurrentLimitEntry_runs (f : Fin 3) (s : State) : State.Ends s.Runs (execCurrentLimitEntry f s) := by
  refine State.Ends.keepsRuns ?_
  have h := State.keeps_refl s
  unfold execCurrentLimitEntry; try dsimp only
  repeat' (first | with_reducible assumption | with_reducible refine State.ends_next ?_ | with_reducible refine State.ends_ite ?_ ?_ | intro _ | with_reducible apply State.keeps_ite | with_reducible apply State.keeps_ite₁ | with_reducible apply State.latch_keeps | with_reducible apply State.setB_keeps | split | dsimp only | fail_if_no_progress with_reducible refine State.keeps_lit ?_ rfl rfl rfl rfl rfl)

theorem execWoodpeckerPauseStart_runs (k : Fin 4) (s : State) : State.Ends s.Runs (execWoodpeckerPauseStart k s) := by
  refine State.Ends.keepsRuns ?_
  have h := State.keeps_refl s
  unfold execWoodpeckerPauseStart; try dsimp only
  repeat' (first | with_reducible assumption | with_reducible refine State.ends_next ?_ | with_reducible refine State.ends_ite ?_ ?_ | intro _ | with_reducible apply State.keeps_ite | with_reducible apply State.keeps_ite₁ | with_reducible apply State.updThr_keeps | with_reducible apply State.setThr_keeps | split | dsimp only | fail_if_no_progress with_reducible refine State.keeps_lit ?_ rfl rfl rfl rfl rfl)

theorem execTsenReading_runs (n : Fin 16) (code : BitVec 12) (s : State) : State.Ends s.Runs (execTsenReading n code s) := by
  refine State.Ends.keepsRuns ?_
  have h := State.keeps_refl s
  unfold execTsenReading; try dsimp only
  repeat' (first | with_reducible assumption | with_reducible refine State.ends_next ?_ | with_reducible refine State.ends_ite ?_ ?_ | intro _ | with_reducible apply State.keeps_ite | with_reducible apply State.keeps_ite₁ | with_reducible apply State.setF_keeps | with_reducible apply State.when_keeps | with_reducible apply State.lower_keeps | with_reducible apply State.setB_keeps | with_reducible apply State.tsenRange_keeps | with_reducible apply State.tsenGood_keeps | with_reducible apply State.updCl_keeps | split | dsimp only | fail_if_no_progress with_reducible refine State.keeps_lit ?_ rfl rfl rfl rfl rfl)

theorem execThermalModelStep_runs (obs : List (Fin 48 × Rat × Rat × Nat)) (vin : Vector Rat 3) (s : State) : State.Ends s.Runs (execThermalModelStep obs vin s) := by
  refine State.Ends.keepsRuns ?_
  have h := State.keeps_refl s
  unfold execThermalModelStep; try dsimp only
  repeat' (first | with_reducible assumption | with_reducible refine State.ends_next ?_ | with_reducible refine State.ends_ite ?_ ?_ | intro _ | with_reducible apply State.keeps_ite | with_reducible apply State.keeps_ite₁ | with_reducible apply State.each_keeps' | with_reducible apply State.modelCluster_keeps | split | dsimp only | fail_if_no_progress with_reducible refine State.keeps_lit ?_ rfl rfl rfl rfl rfl)

theorem execTsdAutoClear_runs (n : Fin 16) (s : State) : State.Ends s.Runs (execTsdAutoClear n s) := by
  refine State.Ends.keepsRuns ?_
  have h := State.keeps_refl s
  unfold execTsdAutoClear; try dsimp only
  repeat' (first | with_reducible assumption | with_reducible refine State.ends_next ?_ | with_reducible refine State.ends_ite ?_ ?_ | intro _ | with_reducible apply State.keeps_ite | with_reducible apply State.keeps_ite₁ | with_reducible apply State.tsdClear_keeps | split | dsimp only | fail_if_no_progress with_reducible refine State.keeps_lit ?_ rfl rfl rfl rfl rfl)

theorem execPowerEstimate_runs (s : State) : State.Ends s.Runs (execPowerEstimate s) := by
  refine State.Ends.keepsRuns ?_
  have h := State.keeps_refl s
  unfold execPowerEstimate; try dsimp only
  repeat' (first | with_reducible assumption | with_reducible refine State.ends_next ?_ | with_reducible refine State.ends_ite ?_ ?_ | intro _ | with_reducible apply State.keeps_ite | with_reducible apply State.keeps_ite₁ | with_reducible apply State.each_keeps' | with_reducible apply State.capEstimate_keeps | split | dsimp only | fail_if_no_progress with_reducible refine State.keeps_lit ?_ rfl rfl rfl rfl rfl)

theorem execTsenFaultLevel_runs (n : Fin 16) (s : State) : State.Ends s.Runs (execTsenFaultLevel n s) := by
  refine State.Ends.keepsRuns ?_
  have h := State.keeps_refl s
  unfold execTsenFaultLevel; try dsimp only
  repeat' (first | with_reducible assumption | with_reducible refine State.ends_next ?_ | with_reducible refine State.ends_ite ?_ ?_ | intro _ | with_reducible apply State.keeps_ite | with_reducible apply State.keeps_ite₁ | with_reducible apply State.raise_keeps | with_reducible apply State.setB_keeps | split | dsimp only | fail_if_no_progress with_reducible refine State.keeps_lit ?_ rfl rfl rfl rfl rfl)

theorem execCappingControlStep_runs (c : Fin 5) (s : State) : State.Ends s.Runs (execCappingControlStep c s) := by
  refine State.Ends.keepsRuns ?_
  have h := State.keeps_refl s
  unfold execCappingControlStep; try dsimp only
  repeat' (first | with_reducible assumption | with_reducible refine State.ends_next ?_ | with_reducible refine State.ends_ite ?_ ?_ | intro _ | with_reducible apply State.keeps_ite | with_reducible apply State.keeps_ite₁ | with_reducible apply State.setReq_keeps | with_reducible apply State.capSaturate_keeps | split | dsimp only | fail_if_no_progress with_reducible refine State.keeps_lit ?_ rfl rfl rfl rfl rfl)

theorem execThermalAnchor_runs (s : State) : State.Ends s.Runs (execThermalAnchor s) := by
  refine State.Ends.keepsRuns ?_
  have h := State.keeps_refl s
  unfold execThermalAnchor; try dsimp only
  repeat' (first | with_reducible assumption | with_reducible refine State.ends_next ?_ | with_reducible refine State.ends_ite ?_ ?_ | intro _ | with_reducible apply State.keeps_ite | with_reducible apply State.keeps_ite₁ | with_reducible apply State.each_keeps' | with_reducible apply State.updCl_keeps | with_reducible apply State.setS_keeps | split | dsimp only | fail_if_no_progress with_reducible refine State.keeps_lit ?_ rfl rfl rfl rfl rfl)

theorem execWoodpeckerPauseEnd_runs (k : Fin 4) (s : State) : State.Ends s.Runs (execWoodpeckerPauseEnd k s) := by
  refine State.Ends.keepsRuns ?_
  have h := State.keeps_refl s
  unfold execWoodpeckerPauseEnd; try dsimp only
  repeat' (first | with_reducible assumption | with_reducible refine State.ends_next ?_ | with_reducible refine State.ends_ite ?_ ?_ | intro _ | with_reducible apply State.keeps_ite | with_reducible apply State.keeps_ite₁ | with_reducible apply State.setThr_keeps | split | dsimp only | fail_if_no_progress with_reducible refine State.keeps_lit ?_ rfl rfl rfl rfl rfl)

theorem execRecordComplete_runs (l : Fin 4) (s : State) : State.Ends s.Runs (execRecordComplete l s) := by
  refine State.Ends.keepsRuns ?_
  have h := State.keeps_refl s
  unfold execRecordComplete; try dsimp only
  repeat' (first | with_reducible assumption | with_reducible refine State.ends_next ?_ | with_reducible refine State.ends_ite ?_ ?_ | intro _ | with_reducible apply State.keeps_ite | with_reducible apply State.keeps_ite₁ | with_reducible apply State.when_keeps | with_reducible apply State.addSnap_keeps | with_reducible apply State.closeSnap_keeps | with_reducible apply State.addRecord_keeps | with_reducible apply State.closePkt_keeps | with_reducible apply State.stopClose_keeps | with_reducible apply State.updLane_keeps | split | dsimp only | fail_if_no_progress with_reducible refine State.keeps_lit ?_ rfl rfl rfl rfl rfl)

theorem execCaptureSample_runs (n : Fin 64) (raw : BitVec 16) (s : State) : State.Ends s.Runs (execCaptureSample n raw s) := by
  refine State.Ends.keepsRuns ?_
  have h := State.keeps_refl s
  unfold execCaptureSample; try dsimp only
  repeat' (first | with_reducible assumption | with_reducible refine State.ends_next ?_ | with_reducible refine State.ends_ite ?_ ?_ | intro _ | with_reducible apply State.keeps_ite | with_reducible apply State.keeps_ite₁ | with_reducible apply State.updCh_keeps | with_reducible apply State.ringSample_keeps | split | dsimp only | fail_if_no_progress with_reducible refine State.keeps_lit ?_ rfl rfl rfl rfl rfl)

theorem execLaneTakeBlock_runs (l : Fin 4) (s : State) : State.Ends s.Runs (execLaneTakeBlock l s) := by
  refine State.Ends.keepsRuns ?_
  have h := State.keeps_refl s
  unfold execLaneTakeBlock; try dsimp only
  repeat' (first | with_reducible assumption | with_reducible refine State.ends_next ?_ | with_reducible refine State.ends_ite ?_ ?_ | intro _ | with_reducible apply State.keeps_ite | with_reducible apply State.keeps_ite₁ | with_reducible apply State.laneTake_keeps | split | dsimp only | fail_if_no_progress with_reducible refine State.keeps_lit ?_ rfl rfl rfl rfl rfl)

theorem execPacketWordWrite_runs (s : State) : State.Ends s.Runs (execPacketWordWrite s) := by
  refine State.Ends.keepsRuns ?_
  have h := State.keeps_refl s
  unfold execPacketWordWrite; try dsimp only
  repeat' (first | with_reducible assumption | with_reducible refine State.ends_next ?_ | with_reducible refine State.ends_ite ?_ ?_ | intro _ | with_reducible apply State.keeps_ite | with_reducible apply State.keeps_ite₁ | with_reducible apply State.evalFifo_keeps | with_reducible apply State.srdyPulse_keeps | with_reducible apply State.setB_keeps | with_reducible apply State.incF_keeps | with_reducible apply State.evalAlert_keeps | with_reducible apply State.when_keeps | with_reducible apply State.flushNow_keeps | split | dsimp only | fail_if_no_progress with_reducible refine State.keeps_lit ?_ rfl rfl rfl rfl rfl)

theorem execTailTimeout_runs (n : Fin 64) (s : State) : State.Ends s.Runs (execTailTimeout n s) := by
  refine State.Ends.keepsRuns ?_
  have h := State.keeps_refl s
  unfold execTailTimeout; try dsimp only
  repeat' (first | with_reducible assumption | with_reducible refine State.ends_next ?_ | with_reducible refine State.ends_ite ?_ ?_ | intro _ | with_reducible apply State.keeps_ite | with_reducible apply State.keeps_ite₁ | with_reducible apply State.updCh_keeps | split | dsimp only | fail_if_no_progress with_reducible refine State.keeps_lit ?_ rfl rfl rfl rfl rfl)

theorem execSyncAligned_runs (s : State) : State.Ends s.Runs (execSyncAligned s) := by
  refine State.Ends.keepsRuns ?_
  have h := State.keeps_refl s
  unfold execSyncAligned; try dsimp only
  repeat' (first | with_reducible assumption | with_reducible refine State.ends_next ?_ | with_reducible refine State.ends_ite ?_ ?_ | intro _ | with_reducible apply State.keeps_ite | with_reducible apply State.keeps_ite₁ | with_reducible apply State.when_keeps | with_reducible apply State.setB_keeps | split | dsimp only | fail_if_no_progress with_reducible refine State.keeps_lit ?_ rfl rfl rfl rfl rfl)

theorem execSyncEdge_runs (hi : BitVec 32) (lo : BitVec 32) (gap : BitVec 32) (ppm : Int) (s : State) : State.Ends s.Runs (execSyncEdge hi lo gap ppm s) := by
  refine State.Ends.keepsRuns ?_
  have h := State.keeps_refl s
  unfold execSyncEdge; try dsimp only
  repeat' (first | with_reducible assumption | with_reducible refine State.ends_next ?_ | with_reducible refine State.ends_ite ?_ ?_ | intro _ | with_reducible apply State.keeps_ite | with_reducible apply State.keeps_ite₁ | with_reducible apply State.edgeFollow_keeps | with_reducible apply State.edgeQualify_keeps | split | dsimp only | fail_if_no_progress with_reducible refine State.keeps_lit ?_ rfl rfl rfl rfl rfl)

theorem execSyncMissingPeriod_runs (s : State) : State.Ends s.Runs (execSyncMissingPeriod s) := by
  refine State.Ends.keepsRuns ?_
  have h := State.keeps_refl s
  unfold execSyncMissingPeriod; try dsimp only
  repeat' (first | with_reducible assumption | with_reducible refine State.ends_next ?_ | with_reducible refine State.ends_ite ?_ ?_ | intro _ | with_reducible apply State.keeps_ite | with_reducible apply State.keeps_ite₁ | with_reducible apply State.setS_keeps | with_reducible apply State.setF_keeps | with_reducible apply State.setB_keeps | with_reducible apply State.raise_keeps | split | dsimp only | fail_if_no_progress with_reducible refine State.keeps_lit ?_ rfl rfl rfl rfl rfl)

theorem execClockMonitorWindow_runs (count : BitVec 16) (s : State) : State.Ends s.Runs (execClockMonitorWindow count s) := by
  refine State.Ends.movesRuns ?_
  have h := State.moves_refl s
  unfold execClockMonitorWindow; try dsimp only
  repeat' (first | with_reducible assumption | with_reducible refine State.ends_next ?_ | with_reducible refine State.ends_ite ?_ ?_ | intro _ | with_reducible apply State.moves_ite | with_reducible apply State.moves_ite₁ | with_reducible apply State.safeOff_moves | with_reducible apply State.raise_moves | with_reducible apply State.lower_moves | split | dsimp only | fail_if_no_progress with_reducible refine State.moves_lit ?_ rfl rfl rfl rfl rfl)

theorem execXinLoss_runs (s : State) : State.Ends s.Runs (execXinLoss s) := by
  refine State.Ends.keepsRuns ?_
  have h := State.keeps_refl s
  unfold execXinLoss; try dsimp only
  repeat' (first | with_reducible assumption | with_reducible refine State.ends_next ?_ | with_reducible refine State.ends_ite ?_ ?_ | intro _ | with_reducible apply State.keeps_ite | with_reducible apply State.keeps_ite₁ | with_reducible apply State.setB_keeps | with_reducible apply State.when_keeps | with_reducible apply State.setF_keeps | with_reducible apply State.raise_keeps | split | dsimp only | fail_if_no_progress with_reducible refine State.keeps_lit ?_ rfl rfl rfl rfl rfl)

theorem execTimerMatch_runs (n : Fin 32) (c : Cmp) (s : State) : State.Ends s.Runs (execTimerMatch n c s) := by
  refine State.Ends.keepsRuns ?_
  have h := State.keeps_refl s
  unfold execTimerMatch; try dsimp only
  repeat' (first | with_reducible assumption | with_reducible refine State.ends_next ?_ | with_reducible refine State.ends_ite ?_ ?_ | intro _ | with_reducible apply State.keeps_ite | with_reducible apply State.keeps_ite₁ | with_reducible apply State.when_keeps | with_reducible apply State.setFBit_keeps | with_reducible apply State.tmAct_keeps | with_reducible apply State.blankMatch_keeps | split | dsimp only | fail_if_no_progress with_reducible refine State.keeps_lit ?_ rfl rfl rfl rfl rfl)

theorem execBudget_runs (f : RingFrame) (s : State) : State.Ends s.Runs (execBudget f s) := by
  refine State.Ends.keepsRuns ?_
  have h := State.keeps_refl s
  unfold execBudget; try dsimp only
  repeat' (first | with_reducible assumption | with_reducible refine State.ends_next ?_ | with_reducible refine State.ends_ite ?_ ?_ | intro _ | with_reducible apply State.keeps_ite | with_reducible apply State.keeps_ite₁ | with_reducible apply State.receive_keeps | with_reducible apply State.when_keeps | with_reducible apply State.setB_keeps | with_reducible apply State.setF_keeps | split | dsimp only | fail_if_no_progress with_reducible refine State.keeps_lit ?_ rfl rfl rfl rfl rfl)

theorem execEnum_runs (f : RingFrame) (s : State) : State.Ends s.Runs (execEnum f s) := by
  refine State.Ends.keepsRuns ?_
  have h := State.keeps_refl s
  unfold execEnum; try dsimp only
  repeat' (first | with_reducible assumption | with_reducible refine State.ends_next ?_ | with_reducible refine State.ends_ite ?_ ?_ | intro _ | with_reducible apply State.keeps_ite | with_reducible apply State.keeps_ite₁ | with_reducible apply State.ringBegin_keeps | with_reducible apply State.nodesReset_keeps | with_reducible apply State.setF_keeps | with_reducible apply State.follow_keeps | with_reducible apply State.masterChange_keeps | with_reducible apply State.setB_keeps | with_reducible apply State.enumOn_keeps | with_reducible apply State.when_keeps | with_reducible apply State.forward_keeps | split | dsimp only | fail_if_no_progress with_reducible refine State.keeps_lit ?_ rfl rfl rfl rfl rfl)

theorem execRingBreak_runs (f : RingFrame) (s : State) : State.Ends s.Runs (execRingBreak f s) := by
  refine State.Ends.keepsRuns ?_
  have h := State.keeps_refl s
  unfold execRingBreak; try dsimp only
  repeat' (first | with_reducible assumption | with_reducible refine State.ends_next ?_ | with_reducible refine State.ends_ite ?_ ?_ | intro _ | with_reducible apply State.keeps_ite | with_reducible apply State.keeps_ite₁ | with_reducible apply State.receive_keeps | with_reducible apply State.when_keeps | with_reducible apply State.setB_keeps | with_reducible apply State.setF_keeps | with_reducible apply State.each_keeps' | split | dsimp only | fail_if_no_progress with_reducible refine State.keeps_lit ?_ rfl rfl rfl rfl rfl)

theorem execCapord_runs (f : RingFrame) (s : State) : State.Ends s.Runs (execCapord f s) := by
  refine State.Ends.keepsRuns ?_
  have h := State.keeps_refl s
  unfold execCapord; try dsimp only
  repeat' (first | with_reducible assumption | with_reducible refine State.ends_next ?_ | with_reducible refine State.ends_ite ?_ ?_ | intro _ | with_reducible apply State.keeps_ite | with_reducible apply State.keeps_ite₁ | with_reducible apply State.receive_keeps | with_reducible apply State.when_keeps | with_reducible apply State.setF_keeps | with_reducible apply State.raise_keeps | split | dsimp only | fail_if_no_progress with_reducible refine State.keeps_lit ?_ rfl rfl rfl rfl rfl)

theorem execRingLinkUp_runs (s : State) : State.Ends s.Runs (execRingLinkUp s) := by
  refine State.Ends.keepsRuns ?_
  have h := State.keeps_refl s
  unfold execRingLinkUp; try dsimp only
  repeat' (first | with_reducible assumption | with_reducible refine State.ends_next ?_ | with_reducible refine State.ends_ite ?_ ?_ | intro _ | with_reducible apply State.keeps_ite | with_reducible apply State.keeps_ite₁ | with_reducible apply State.when_keeps | with_reducible apply State.setF_keeps | with_reducible apply State.lower_keeps | split | dsimp only | fail_if_no_progress with_reducible refine State.keeps_lit ?_ rfl rfl rfl rfl rfl)

theorem execRingLinkDown_runs (viol : BitVec 16) (s : State) : State.Ends s.Runs (execRingLinkDown viol s) := by
  refine State.Ends.keepsRuns ?_
  have h := State.keeps_refl s
  unfold execRingLinkDown; try dsimp only
  repeat' (first | with_reducible assumption | with_reducible refine State.ends_next ?_ | with_reducible refine State.ends_ite ?_ ?_ | intro _ | with_reducible apply State.keeps_ite | with_reducible apply State.keeps_ite₁ | with_reducible apply State.ringBegin_keeps | with_reducible apply State.incF_keeps | with_reducible apply State.raise_keeps | with_reducible apply State.when_keeps | with_reducible apply State.setF_keeps | with_reducible apply State.sendBreak_keeps | with_reducible apply State.setB_keeps | split | dsimp only | fail_if_no_progress with_reducible refine State.keeps_lit ?_ rfl rfl rfl rfl rfl)

theorem execRingReenumerate_runs (s : State) : State.Ends s.Runs (execRingReenumerate s) := by
  refine State.Ends.keepsRuns ?_
  have h := State.keeps_refl s
  unfold execRingReenumerate; try dsimp only
  repeat' (first | with_reducible assumption | with_reducible refine State.ends_next ?_ | with_reducible refine State.ends_ite ?_ ?_ | intro _ | with_reducible apply State.keeps_ite | with_reducible apply State.keeps_ite₁ | with_reducible apply State.setF_keeps | with_reducible apply State.setB_keeps | with_reducible apply State.ringBegin_keeps | with_reducible apply State.startEnum_keeps | split | dsimp only | fail_if_no_progress with_reducible refine State.keeps_lit ?_ rfl rfl rfl rfl rfl)

theorem execOnoff_runs (f : RingFrame) (s : State) : State.Ends s.Runs (execOnoff f s) := by
  refine State.ends_next (State.Moves.runs ?_)
  unfold State.receive
  dsimp only
  refine State.moves_ite (State.when_moves (State.forward_moves (State.ringBegin_moves (State.moves_refl s)) _ _) _ fun k => ?_)
    (State.ringBegin_moves (State.moves_refl s))
  split
  · exact State.setOrder_moves k _
  · exact State.setOrder_moves k _
  · exact State.setOrder_moves k _
  · exact k

theorem execRingFrameDiscard_runs (raw : List Byte) (within : BitVec 8) (s : State) : State.Ends s.Runs (execRingFrameDiscard raw within s) := by
  refine State.Ends.keepsRuns ?_
  have h := State.keeps_refl s
  unfold execRingFrameDiscard; try dsimp only
  repeat' (first | with_reducible assumption | with_reducible refine State.ends_next ?_ | with_reducible refine State.ends_ite ?_ ?_ | intro _ | with_reducible apply State.keeps_ite | with_reducible apply State.keeps_ite₁ | with_reducible apply State.ringBegin_keeps | with_reducible apply State.incF_keeps | with_reducible apply State.when_keeps | with_reducible apply State.raise_keeps | split | dsimp only | fail_if_no_progress with_reducible refine State.keeps_lit ?_ rfl rfl rfl rfl rfl)

theorem execClaim_runs (f : RingFrame) (s : State) : State.Ends s.Runs (execClaim f s) := by
  refine State.Ends.movesRuns ?_
  have h := State.moves_refl s
  unfold execClaim; try dsimp only
  repeat' (first | with_reducible assumption | with_reducible refine State.ends_next ?_ | with_reducible refine State.ends_ite ?_ ?_ | intro _ | with_reducible apply State.moves_ite | with_reducible apply State.moves_ite₁ | with_reducible apply State.ringBegin_moves | with_reducible apply State.setB_moves | with_reducible apply State.setF_moves | with_reducible apply State.setOrder_moves | with_reducible apply State.lower_moves | with_reducible apply State.masterChange_moves | with_reducible apply State.startEnum_moves | with_reducible apply State.forward_moves | with_reducible apply State.when_moves | split | dsimp only | fail_if_no_progress with_reducible refine State.moves_lit ?_ rfl rfl rfl rfl rfl)

theorem execBreakSend_runs (s : State) : State.Ends s.Runs (execBreakSend s) := by
  refine State.Ends.keepsRuns ?_
  have h := State.keeps_refl s
  unfold execBreakSend; try dsimp only
  repeat' (first | with_reducible assumption | with_reducible refine State.ends_next ?_ | with_reducible refine State.ends_ite ?_ ?_ | intro _ | with_reducible apply State.keeps_ite | with_reducible apply State.keeps_ite₁ | with_reducible apply State.sendBreak_keeps | with_reducible apply State.ringBegin_keeps | split | dsimp only | fail_if_no_progress with_reducible refine State.keeps_lit ?_ rfl rfl rfl rfl rfl)

theorem execMasterLost_runs (s : State) : State.Ends s.Runs (execMasterLost s) := by
  refine State.Ends.movesRuns ?_
  have h := State.moves_refl s
  unfold execMasterLost; try dsimp only
  repeat' (first | with_reducible assumption | with_reducible refine State.ends_next ?_ | with_reducible refine State.ends_ite ?_ ?_ | intro _ | with_reducible apply State.moves_ite | with_reducible apply State.moves_ite₁ | with_reducible apply State.setB_moves | with_reducible apply State.raise_moves | with_reducible apply State.setOrder_moves | split | dsimp only | fail_if_no_progress with_reducible refine State.moves_lit ?_ rfl rfl rfl rfl rfl)

theorem execBusstate_runs (f : RingFrame) (s : State) : State.Ends s.Runs (execBusstate f s) := by
  refine State.Ends.keepsRuns ?_
  have h := State.keeps_refl s
  unfold execBusstate; try dsimp only
  repeat' (first | with_reducible assumption | with_reducible refine State.ends_next ?_ | with_reducible refine State.ends_ite ?_ ?_ | intro _ | with_reducible apply State.keeps_ite | with_reducible apply State.keeps_ite₁ | with_reducible apply State.receive_keeps | split | dsimp only | fail_if_no_progress with_reducible refine State.keeps_lit ?_ rfl rfl rfl rfl rfl)

theorem execBeacon_runs (f : RingFrame) (steady : Bool) (rt : BitVec 32) (s : State) : State.Ends s.Runs (execBeacon f steady rt s) := by
  refine State.Ends.keepsRuns ?_
  have h := State.keeps_refl s
  unfold execBeacon; try dsimp only
  repeat' (first | with_reducible assumption | with_reducible refine State.ends_next ?_ | with_reducible refine State.ends_ite ?_ ?_ | intro _ | with_reducible apply State.keeps_ite | with_reducible apply State.keeps_ite₁ | with_reducible apply State.receive_keeps | with_reducible apply State.setB_keeps | with_reducible apply State.setF_keeps | with_reducible apply State.when_keeps | with_reducible apply State.lower_keeps | with_reducible apply State.sendReport_keeps | split | dsimp only | fail_if_no_progress with_reducible refine State.keeps_lit ?_ rfl rfl rfl rfl rfl)

theorem execTime_runs (f : RingFrame) (s : State) : State.Ends s.Runs (execTime f s) := by
  refine State.Ends.keepsRuns ?_
  have h := State.keeps_refl s
  unfold execTime; try dsimp only
  repeat' (first | with_reducible assumption | with_reducible refine State.ends_next ?_ | with_reducible refine State.ends_ite ?_ ?_ | intro _ | with_reducible apply State.keeps_ite | with_reducible apply State.keeps_ite₁ | with_reducible apply State.receive_keeps | with_reducible apply State.when_keeps | with_reducible apply State.setReg_keeps | split | dsimp only | fail_if_no_progress with_reducible refine State.keeps_lit ?_ rfl rfl rfl rfl rfl)

theorem execRingClaim_runs (s : State) : State.Ends s.Runs (execRingClaim s) := by
  refine State.Ends.keepsRuns ?_
  have h := State.keeps_refl s
  unfold execRingClaim; try dsimp only
  repeat' (first | with_reducible assumption | with_reducible refine State.ends_next ?_ | with_reducible refine State.ends_ite ?_ ?_ | intro _ | with_reducible apply State.keeps_ite | with_reducible apply State.keeps_ite₁ | with_reducible apply State.setB_keeps | with_reducible apply State.setF_keeps | with_reducible apply State.ringBegin_keeps | with_reducible apply State.send_keeps | split | dsimp only | fail_if_no_progress with_reducible refine State.keeps_lit ?_ rfl rfl rfl rfl rfl)

theorem execShare_runs (f : RingFrame) (s : State) : State.Ends s.Runs (execShare f s) := by
  refine State.Ends.keepsRuns ?_
  have h := State.keeps_refl s
  unfold execShare; try dsimp only
  repeat' (first | with_reducible assumption | with_reducible refine State.ends_next ?_ | with_reducible refine State.ends_ite ?_ ?_ | intro _ | with_reducible apply State.keeps_ite | with_reducible apply State.keeps_ite₁ | with_reducible apply State.receive_keeps | with_reducible apply State.when_keeps | with_reducible apply State.queueWrites_keeps | split | dsimp only | fail_if_no_progress with_reducible refine State.keeps_lit ?_ rfl rfl rfl rfl rfl)

theorem execRectifierOffline_runs (k : Fin 12) (s : State) : State.Ends s.Runs (execRectifierOffline k s) := by
  refine State.Ends.keepsRuns ?_
  have h := State.keeps_refl s
  unfold execRectifierOffline; try dsimp only
  repeat' (first | with_reducible assumption | with_reducible refine State.ends_next ?_ | with_reducible refine State.ends_ite ?_ ?_ | intro _ | with_reducible apply State.keeps_ite | with_reducible apply State.keeps_ite₁ | with_reducible apply State.rectOffline_keeps | with_reducible apply State.setB_keeps | with_reducible apply State.ringBegin_keeps | split | dsimp only | fail_if_no_progress with_reducible refine State.keeps_lit ?_ rfl rfl rfl rfl rfl)

theorem execReport_runs (f : RingFrame) (s : State) : State.Ends s.Runs (execReport f s) := by
  refine State.Ends.keepsRuns ?_
  have h := State.keeps_refl s
  unfold execReport; try dsimp only
  repeat' (first | with_reducible assumption | with_reducible refine State.ends_next ?_ | with_reducible refine State.ends_ite ?_ ?_ | intro _ | with_reducible apply State.keeps_ite | with_reducible apply State.keeps_ite₁ | with_reducible apply State.receive_keeps | with_reducible apply State.when_keeps | with_reducible apply State.setF_keeps | with_reducible apply State.setB_keeps | split | dsimp only | fail_if_no_progress with_reducible refine State.keeps_lit ?_ rfl rfl rfl rfl rfl)

theorem execRackBudgetCompute_runs (pg : BitVec 12) (s : State) : State.Ends s.Runs (execRackBudgetCompute pg s) := by
  refine State.Ends.keepsRuns ?_
  have h := State.keeps_refl s
  unfold execRackBudgetCompute; try dsimp only
  repeat' (first | with_reducible assumption | with_reducible refine State.ends_next ?_ | with_reducible refine State.ends_ite ?_ ?_ | intro _ | with_reducible apply State.keeps_ite | with_reducible apply State.keeps_ite₁ | with_reducible apply State.ringBegin_keeps | with_reducible apply State.each_keeps' | with_reducible apply State.setB_keeps | with_reducible apply State.countOnline_keeps | with_reducible apply State.when_keeps | with_reducible apply State.lower_keeps | with_reducible apply State.allocate_keeps | with_reducible apply State.segmentCheck_keeps | with_reducible apply State.setF_keeps | split | dsimp only | fail_if_no_progress with_reducible refine State.keeps_lit ?_ rfl rfl rfl rfl rfl)

theorem execMasterPeriodicSend_runs (kind : Fin 4) (s : State) : State.Ends s.Runs (execMasterPeriodicSend kind s) := by
  refine State.Ends.keepsRuns ?_
  have h := State.keeps_refl s
  unfold execMasterPeriodicSend; try dsimp only
  repeat' (first | with_reducible assumption | with_reducible refine State.ends_next ?_ | with_reducible refine State.ends_ite ?_ ?_ | intro _ | with_reducible apply State.keeps_ite | with_reducible apply State.keeps_ite₁ | with_reducible apply State.ringBegin_keeps | with_reducible apply State.send_keeps | with_reducible apply State.draw_keeps | with_reducible apply State.when_keeps | split | dsimp only | fail_if_no_progress with_reducible refine State.keeps_lit ?_ rfl rfl rfl rfl rfl)

theorem execRingOpenTimeout_runs (s : State) : State.Ends s.Runs (execRingOpenTimeout s) := by
  refine State.Ends.keepsRuns ?_
  have h := State.keeps_refl s
  unfold execRingOpenTimeout; try dsimp only
  repeat' (first | with_reducible assumption | with_reducible refine State.ends_next ?_ | with_reducible refine State.ends_ite ?_ ?_ | intro _ | with_reducible apply State.keeps_ite | with_reducible apply State.keeps_ite₁ | with_reducible apply State.setB_keeps | split | dsimp only | fail_if_no_progress with_reducible refine State.keeps_lit ?_ rfl rfl rfl rfl rfl)

theorem execBeaconSend_runs (s : State) : State.Ends s.Runs (execBeaconSend s) := by
  refine State.Ends.keepsRuns ?_
  have h := State.keeps_refl s
  unfold execBeaconSend; try dsimp only
  repeat' (first | with_reducible assumption | with_reducible refine State.ends_next ?_ | with_reducible refine State.ends_ite ?_ ?_ | intro _ | with_reducible apply State.keeps_ite | with_reducible apply State.keeps_ite₁ | with_reducible apply State.ringBegin_keeps | with_reducible apply State.send_keeps | split | dsimp only | fail_if_no_progress with_reducible refine State.keeps_lit ?_ rfl rfl rfl rfl rfl)

theorem execFieldBusRetry_runs (b : Fin 2) (s : State) : State.Ends s.Runs (execFieldBusRetry b s) := by
  refine State.Ends.keepsRuns ?_
  have h := State.keeps_refl s
  unfold execFieldBusRetry; try dsimp only
  repeat' (first | with_reducible assumption | with_reducible refine State.ends_next ?_ | with_reducible refine State.ends_ite ?_ ?_ | intro _ | with_reducible apply State.keeps_ite | with_reducible apply State.keeps_ite₁ | with_reducible apply State.updBus_keeps | split | dsimp only | fail_if_no_progress with_reducible refine State.keeps_lit ?_ rfl rfl rfl rfl rfl)

theorem execFieldBusStale_runs (b : Fin 2) (e : Fin 64) (s : State) : State.Ends s.Runs (execFieldBusStale b e s) := by
  refine State.Ends.keepsRuns ?_
  have h := State.keeps_refl s
  unfold execFieldBusStale; try dsimp only
  repeat' (first | with_reducible assumption | with_reducible refine State.ends_next ?_ | with_reducible refine State.ends_ite ?_ ?_ | intro _ | with_reducible apply State.keeps_ite | with_reducible apply State.keeps_ite₁ | with_reducible apply State.updBus_keeps | with_reducible apply State.raise_keeps | with_reducible apply State.lower_keeps | with_reducible apply State.setB_keeps | with_reducible apply State.when_keeps | with_reducible apply State.rectOffline_keeps | with_reducible apply State.followStale_keeps | split | dsimp only | fail_if_no_progress with_reducible refine State.keeps_lit ?_ rfl rfl rfl rfl rfl)

theorem execFieldBusTransactionDone_runs (b : Fin 2) (r : Fin 4) (data : List Byte) (s : State) : State.Ends s.Runs (execFieldBusTransactionDone b r data s) := by
  refine State.Ends.keepsRuns ?_
  have h := State.keeps_refl s
  unfold execFieldBusTransactionDone; try dsimp only
  repeat' (first | with_reducible assumption | with_reducible refine State.ends_next ?_ | with_reducible refine State.ends_ite ?_ ?_ | intro _ | with_reducible apply State.keeps_ite | with_reducible apply State.keeps_ite₁ | with_reducible apply State.endPoll_keeps | with_reducible apply State.raise_keeps | with_reducible apply State.setB_keeps | with_reducible apply State.incF_keeps | with_reducible apply State.setF_keeps | with_reducible apply State.when_keeps | with_reducible apply State.updBus_keeps | with_reducible apply State.consume_keeps | with_reducible apply State.followStale_keeps | split | dsimp only | fail_if_no_progress with_reducible refine State.keeps_lit ?_ rfl rfl rfl rfl rfl)

theorem execFieldBusArbLost_runs (b : Fin 2) (s : State) : State.Ends s.Runs (execFieldBusArbLost b s) := by
  refine State.Ends.keepsRuns ?_
  have h := State.keeps_refl s
  unfold execFieldBusArbLost; try dsimp only
  repeat' (first | with_reducible assumption | with_reducible refine State.ends_next ?_ | with_reducible refine State.ends_ite ?_ ?_ | intro _ | with_reducible apply State.keeps_ite | with_reducible apply State.keeps_ite₁ | with_reducible apply State.incF_keeps | with_reducible apply State.updBus_keeps | with_reducible apply State.endPoll_keeps | with_reducible apply State.raise_keeps | with_reducible apply State.setB_keeps | split | dsimp only | fail_if_no_progress with_reducible refine State.keeps_lit ?_ rfl rfl rfl rfl rfl)

theorem execFieldBusResume_runs (b : Fin 2) (s : State) : State.Ends s.Runs (execFieldBusResume b s) := by
  refine State.Ends.keepsRuns ?_
  have h := State.keeps_refl s
  unfold execFieldBusResume; try dsimp only
  repeat' (first | with_reducible assumption | with_reducible refine State.ends_next ?_ | with_reducible refine State.ends_ite ?_ ?_ | intro _ | with_reducible apply State.keeps_ite | with_reducible apply State.keeps_ite₁ | with_reducible apply State.updBus_keeps | split | dsimp only | fail_if_no_progress with_reducible refine State.keeps_lit ?_ rfl rfl rfl rfl rfl)

theorem execFieldBusHang_runs (b : Fin 2) (scl : Bool) (s : State) : State.Ends s.Runs (execFieldBusHang b scl s) := by
  refine State.Ends.keepsRuns ?_
  have h := State.keeps_refl s
  unfold execFieldBusHang; try dsimp only
  repeat' (first | with_reducible assumption | with_reducible refine State.ends_next ?_ | with_reducible refine State.ends_ite ?_ ?_ | intro _ | with_reducible apply State.keeps_ite | with_reducible apply State.keeps_ite₁ | with_reducible apply State.hangCur_keeps | with_reducible apply State.updBus_keeps | with_reducible apply State.setB_keeps | with_reducible apply State.cureBus_keeps | split | dsimp only | fail_if_no_progress with_reducible refine State.keeps_lit ?_ rfl rfl rfl rfl rfl)

theorem execFieldBusPowerRestore_runs (b : Fin 2) (s : State) : State.Ends s.Runs (execFieldBusPowerRestore b s) := by
  refine State.Ends.keepsRuns ?_
  have h := State.keeps_refl s
  unfold execFieldBusPowerRestore; try dsimp only
  repeat' (first | with_reducible assumption | with_reducible refine State.ends_next ?_ | with_reducible refine State.ends_ite ?_ ?_ | intro _ | with_reducible apply State.keeps_ite | with_reducible apply State.keeps_ite₁ | with_reducible apply State.updBus_keeps | with_reducible apply State.setB_keeps | split | dsimp only | fail_if_no_progress with_reducible refine State.keeps_lit ?_ rfl rfl rfl rfl rfl)

theorem execFieldBusPoll_runs (b : Fin 2) (s : State) : State.Ends s.Runs (execFieldBusPoll b s) := by
  refine State.Ends.keepsRuns ?_
  have h := State.keeps_refl s
  unfold execFieldBusPoll; try dsimp only
  repeat' (first | with_reducible assumption | with_reducible refine State.ends_next ?_ | with_reducible refine State.ends_ite ?_ ?_ | intro _ | with_reducible apply State.keeps_ite | with_reducible apply State.keeps_ite₁ | with_reducible apply State.startPoll_keeps | split | dsimp only | fail_if_no_progress with_reducible refine State.keeps_lit ?_ rfl rfl rfl rfl rfl)

theorem execTimeSlotWrite_runs (s : State) : State.Ends s.Runs (execTimeSlotWrite s) := by
  refine State.Ends.keepsRuns ?_
  have h := State.keeps_refl s
  unfold execTimeSlotWrite; try dsimp only
  repeat' (first | with_reducible assumption | with_reducible refine State.ends_next ?_ | with_reducible refine State.ends_ite ?_ ?_ | intro _ | with_reducible apply State.keeps_ite | with_reducible apply State.keeps_ite₁ | with_reducible apply State.writeTimeSlot_keeps | split | dsimp only | fail_if_no_progress with_reducible refine State.keeps_lit ?_ rfl rfl rfl rfl rfl)

theorem execSnapshotFreeze_runs (s : State) : State.Ends s.Runs (execSnapshotFreeze s) := by
  refine State.Ends.keepsRuns ?_
  have h := State.keeps_refl s
  unfold execSnapshotFreeze; try dsimp only
  repeat' (first | with_reducible assumption | with_reducible refine State.ends_next ?_ | with_reducible refine State.ends_ite ?_ ?_ | intro _ | with_reducible apply State.keeps_ite | with_reducible apply State.keeps_ite₁ | split | dsimp only | fail_if_no_progress with_reducible refine State.keeps_lit ?_ rfl rfl rfl rfl rfl)

theorem execOverflowRecordRewrite_runs (s : State) : State.Ends s.Runs (execOverflowRecordRewrite s) := by
  refine State.Ends.keepsRuns ?_
  have h := State.keeps_refl s
  unfold execOverflowRecordRewrite; try dsimp only
  repeat' (first | with_reducible assumption | with_reducible refine State.ends_next ?_ | with_reducible refine State.ends_ite ?_ ?_ | intro _ | with_reducible apply State.keeps_ite | with_reducible apply State.keeps_ite₁ | with_reducible apply State.when_keeps | with_reducible apply State.overflowRecord_keeps | split | dsimp only | fail_if_no_progress with_reducible refine State.keeps_lit ?_ rfl rfl rfl rfl rfl)

theorem execRecordNvmWrite_runs (fail1 : Bool) (fail2 : Bool) (s : State) : State.Ends s.Runs (execRecordNvmWrite fail1 fail2 s) := by
  refine State.Ends.keepsRuns ?_
  have h := State.keeps_refl s
  unfold execRecordNvmWrite; try dsimp only
  repeat' (first | with_reducible assumption | with_reducible refine State.ends_next ?_ | with_reducible refine State.ends_ite ?_ ?_ | intro _ | with_reducible apply State.keeps_ite | with_reducible apply State.keeps_ite₁ | with_reducible apply State.tryRecord_keeps | with_reducible apply State.evalHdone_keeps | split | dsimp only | fail_if_no_progress with_reducible refine State.keeps_lit ?_ rfl rfl rfl rfl rfl)

theorem execClearComplete_runs (s : State) : State.Ends s.Runs (execClearComplete s) := by
  refine State.Ends.keepsRuns ?_
  have h := State.keeps_refl s
  unfold execClearComplete; try dsimp only
  repeat' (first | with_reducible assumption | with_reducible refine State.ends_next ?_ | with_reducible refine State.ends_ite ?_ ?_ | intro _ | with_reducible apply State.keeps_ite | with_reducible apply State.keeps_ite₁ | with_reducible apply State.when_keeps | with_reducible apply State.finishClear_keeps | split | dsimp only | fail_if_no_progress with_reducible refine State.keeps_lit ?_ rfl rfl rfl rfl rfl)

theorem execSnapshotCopyComplete_runs (s : State) : State.Ends s.Runs (execSnapshotCopyComplete s) := by
  refine State.Ends.keepsRuns ?_
  have h := State.keeps_refl s
  unfold execSnapshotCopyComplete; try dsimp only
  repeat' (first | with_reducible assumption | with_reducible refine State.ends_next ?_ | with_reducible refine State.ends_ite ?_ ?_ | intro _ | with_reducible apply State.keeps_ite | with_reducible apply State.keeps_ite₁ | with_reducible apply State.when_keeps | with_reducible apply State.record_keeps | with_reducible apply State.setF_keeps | with_reducible apply State.setB_keeps | split | dsimp only | fail_if_no_progress with_reducible refine State.keeps_lit ?_ rfl rfl rfl rfl rfl)

theorem execOverlayMigrationWrite_runs (s : State) : State.Ends s.Runs (execOverlayMigrationWrite s) := by
  refine State.Ends.keepsRuns ?_
  have h := State.keeps_refl s
  unfold execOverlayMigrationWrite; try dsimp only
  repeat' (first | with_reducible assumption | with_reducible refine State.ends_next ?_ | with_reducible refine State.ends_ite ?_ ?_ | intro _ | with_reducible apply State.keeps_ite | with_reducible apply State.keeps_ite₁ | with_reducible apply State.putBank_keeps | with_reducible apply State.setB_keeps | split | dsimp only | fail_if_no_progress with_reducible refine State.keeps_lit ?_ rfl rfl rfl rfl rfl)

end Sys2Proof.Machine
end

