-- ==== Sys2Proof/Laws/Runs3.lean ====
section
/-! SUPPORT. What the commands of start, supplies, the TAP, updates and host writes leave alone. -/

set_option linter.unusedTactic false
set_option linter.unreachableTactic false

namespace Sys2Proof.Machine

theorem execStoreComplete_runs (ok : Bool) (s : State) : State.Ends s.Runs (execStoreComplete ok s) := by
  have h := State.keeps_refl s
  unfold execStoreComplete
  split
  · exact State.ends_next h.toMoves.runs
  · have k := State.setB_keeps h F.STORE_STAT_BUSY 0 false
    refine State.ends_ite (State.ends_next (State.Moves.runs (State.Keeps.toMoves ?_))) (State.ends_next (State.Moves.runs (State.Keeps.toMoves ?_)))
    · refine State.setReg_keeps (State.setF_keeps (State.setB_keeps (State.putBank_keeps ?_ _ _) _ _ _) _ _ _) _ _
      with_reducible exact State.keeps_lit k rfl rfl rfl rfl rfl
    · refine State.raise_keeps (State.setF_keeps (State.setB_keeps ?_ _ _ _) _ _ _) _
      with_reducible refine State.keeps_lit k rfl ?_ ?_ rfl rfl
      · exact NvmSt.dropStore_serial _
      · exact NvmSt.dropStore_svcKey _

theorem execTxnTimeout_runs (s : State) : State.Ends s.Runs (execTxnTimeout s) := by
  refine State.Ends.keepsRuns ?_
  have h := State.keeps_refl s
  unfold execTxnTimeout; try dsimp only
  repeat' (first | with_reducible assumption | with_reducible refine State.ends_next ?_ | with_reducible refine State.ends_ite ?_ ?_ | intro _ | with_reducible apply State.keeps_ite | with_reducible apply State.keeps_ite₁ | with_reducible apply State.when_keeps | with_reducible apply State.raise_keeps | with_reducible apply State.endTxn_keeps | split | dsimp only | fail_if_no_progress with_reducible refine State.keeps_lit ?_ rfl rfl rfl rfl rfl)

theorem execBootComplete_loads (i : BootInput) (s : State) : State.Ends s.Loads (execBootComplete i s) := by
  unfold execBootComplete
  refine ⟨fun t ht => ?_⟩
  have l0 : s.Loads s := (State.moves_refl s).runs.loads
  split at ht
  · obtain rfl := Host.Outcome.next.inj ht
    exact l0
  · rename_i hc
    have hd : s.dev = .boot := by
      cases hb : s.dev <;> simp [hb] at hc ⊢
    have k : s.Keeps (s.when (s.f F.DEV_PWRSTAT_BCAUSE != 4) (fun s =>
        s.setF F.DEV_PWRSTAT_STRAP 0 (4 * strapLevel i.adr1.toNat + strapLevel i.adr0.toNat))) :=
      State.when_keeps (State.keeps_refl s) _ fun k => State.setF_keeps k _ _ _
    dsimp only at ht
    generalize s.when _ _ = u at k ht
    have hu : u.dev = .boot := k.dev.trans hd
    have fin {v : State} (l : u.Loads v) : s.Loads v :=
      ⟨l.pending.trans k.pending, l.flash.trans k.flash, l.en.trans k.en, l.serial.trans k.serial, l.svcKey.trans k.svcKey,
        fun h => l.wf (k.wf h), fun h => absurd h (by simp [hd])⟩
    split at ht
    · obtain rfl := Host.Outcome.next.inj ht
      exact fin (u.runImage_loads hu _ _ _ _ _ _ _)
    · split at ht
      · obtain rfl := Host.Outcome.next.inj ht
        exact fin (u.runImage_loads hu _ _ _ _ _ _ _)
      · obtain rfl := Host.Outcome.next.inj ht
        exact fin (((State.moves_refl u).recover (by simp [hu]) _ _ _ _).runs.loads)

theorem execVddioModeLatch_runs (v33 : Bool) (s : State) : State.Ends s.Runs (execVddioModeLatch v33 s) := by
  refine State.ends_ite (State.ends_next (State.moves_refl s).runs) (State.ends_next (State.Keeps.thenRuns (State.setB_keeps ?_ _ _ _) (State.bootIfReady_runs _ _)))
  with_reducible exact State.keeps_lit (State.keeps_refl s) rfl rfl rfl rfl rfl

theorem execDieTempReading_runs (tctl : BitVec 16) (tsns : BitVec 16) (s : State) : State.Ends s.Runs (execDieTempReading tctl tsns s) := by
  refine State.Ends.movesRuns ?_
  have h := State.moves_refl s
  unfold execDieTempReading; try dsimp only
  repeat' (first | with_reducible assumption | with_reducible refine State.ends_next ?_ | with_reducible refine State.ends_ite ?_ ?_ | intro _ | with_reducible apply State.moves_ite | with_reducible apply State.moves_ite₁ | with_reducible apply State.setF_moves | with_reducible apply State.when_moves | with_reducible apply State.setB_moves | with_reducible apply State.capSuspend_moves | with_reducible apply State.raise_moves | with_reducible apply State.safeOff_moves | split | dsimp only | fail_if_no_progress with_reducible refine State.moves_lit ?_ rfl rfl rfl rfl rfl)

theorem execDieHotResume_runs (s : State) : State.Ends s.Runs (execDieHotResume s) := by
  refine State.Ends.keepsRuns ?_
  have h := State.keeps_refl s
  unfold execDieHotResume; try dsimp only
  repeat' (first | with_reducible assumption | with_reducible refine State.ends_next ?_ | with_reducible refine State.ends_ite ?_ ?_ | intro _ | with_reducible apply State.keeps_ite | with_reducible apply State.keeps_ite₁ | with_reducible apply State.lower_keeps | with_reducible apply State.capResume_keeps | split | dsimp only | fail_if_no_progress with_reducible refine State.keeps_lit ?_ rfl rfl rfl rfl rfl)

theorem execForcedL5_runs (s : State) : State.Ends s.Runs (execForcedL5 s) := by
  refine State.ends_ite (State.ends_next (State.Keeps.thenRuns ?_ (State.bootIfReady_runs _ _))) (State.ends_next (State.moves_refl s).runs)
  with_reducible exact State.keeps_lit (State.keeps_refl s) rfl rfl rfl rfl rfl

theorem execLadderRecovery_runs (s : State) : State.Ends s.Runs (execLadderRecovery s) := by
  refine State.ends_ite (State.ends_next (State.moves_refl s).runs) (State.ends_ite (State.ends_next (State.Keeps.thenRuns ?_ (State.bootIfReady_runs _ _)))
    (State.ends_ite (State.ends_next (State.Moves.runs (State.Keeps.toMoves (State.setF_keeps ?_ _ _ _)))) (State.ends_next (State.Moves.runs (State.Keeps.toMoves ?_))))) <;>
    with_reducible exact State.keeps_lit (State.keeps_refl s) rfl rfl rfl rfl rfl

theorem execResetAssert_runs (s : State) : State.Ends s.Runs (execResetAssert s) := by
  unfold execResetAssert
  dsimp only
  refine State.ends_next ?_
  have k : s.Keeps { s with power := { s.power with resetLow := true } } := by
    with_reducible exact State.keeps_lit (State.keeps_refl s) rfl rfl rfl rfl rfl
  generalize ({ s with power := { s.power with resetLow := true } } : State) = u at k ⊢
  refine State.when_runs k.toMoves.runs ?_
  exact k.thenRuns ((State.leaveForBoot_runs u).thenBoot (State.bootBase_runs _ _ _) (State.bootBase_dev _ _ _))

theorem execEccError_runs (e : EccAt) (s : State) : State.Ends s.Runs (execEccError e s) := by
  refine State.Ends.keepsRuns ?_
  have h := State.keeps_refl s
  unfold execEccError; try dsimp only
  repeat' (first | with_reducible assumption | with_reducible refine State.ends_next ?_ | with_reducible refine State.ends_ite ?_ ?_ | intro _ | with_reducible apply State.keeps_ite | with_reducible apply State.keeps_ite₁ | with_reducible apply State.incF_keeps | with_reducible apply State.eccBadAt_keeps | split | dsimp only | fail_if_no_progress with_reducible refine State.keeps_lit ?_ rfl rfl rfl rfl rfl)

theorem execOwnSupplyLadderStage_runs (k : Fin 5) (s : State) : State.Ends s.Runs (execOwnSupplyLadderStage k s) := by
  refine State.ends_ite (State.ends_next (State.moves_refl s).runs) (State.ends_next ?_)
  have h : s.Keeps { s with power := { s.power with v5Good := false } } := by
    with_reducible exact State.keeps_lit (State.keeps_refl s) rfl rfl rfl rfl rfl
  have m := State.each_moves h.toMoves ((List.range (Nat.min 4 (k.val + 1))).filter (fun j => s.f F.DEV_PWRSTAT_LSTAGE ≤ j))
    (g := fun s j => s.stage (j + 1)) (fun _ h => State.stage_moves h _)
  exact State.when_runs m.runs (m.thenRuns (State.stage5_runs _))

theorem execSupplyMeasure_runs (v5 : BitVec 16) (vin : BitVec 16) (s : State) : State.Ends s.Runs (execSupplyMeasure v5 vin s) := by
  refine State.Ends.keepsRuns ?_
  have h := State.keeps_refl s
  unfold execSupplyMeasure; try dsimp only
  repeat' (first | with_reducible assumption | with_reducible refine State.ends_next ?_ | with_reducible refine State.ends_ite ?_ ?_ | intro _ | with_reducible apply State.keeps_ite | with_reducible apply State.keeps_ite₁ | with_reducible apply State.setF_keeps | split | dsimp only | fail_if_no_progress with_reducible refine State.keeps_lit ?_ rfl rfl rfl rfl rfl)

theorem execPowerUp_runs (s : State) : State.Ends s.Runs (execPowerUp s) := by
  unfold execPowerUp
  dsimp only
  refine State.ends_next ?_
  have r : s.Runs { s with dev := .boot } := ⟨rfl, rfl, rfl, rfl, rfl, .inr rfl, id, fun _ => .inr rfl⟩
  have b := (r.thenBoot (State.bootBase_runs _ true false) (State.bootBase_dev _ _ _)).keeps (State.setF_keeps (State.keeps_refl _) F.DEV_PWRSTAT_IOMODE 0 0)
  generalize ((State.bootBase _ true false).setF F.DEV_PWRSTAT_IOMODE 0 0) = u at b ⊢
  refine b.keeps ?_
  with_reducible exact State.keeps_lit (State.keeps_refl u) rfl rfl rfl rfl rfl

theorem execResetRelease_runs (s : State) : State.Ends s.Runs (execResetRelease s) := by
  refine State.ends_ite (State.ends_next (State.Keeps.thenRuns ?_ (State.bootIfReady_runs _ _))) (State.ends_next (State.moves_refl s).runs)
  with_reducible exact State.keeps_lit (State.keeps_refl s) rfl rfl rfl rfl rfl

theorem execDebug_runs (k : BitVec 4) (s : State) : State.Ends s.Runs (execDebug k s) := by
  refine State.Ends.keepsRuns ?_
  have h := State.keeps_refl s
  unfold execDebug; try dsimp only
  repeat' (first | with_reducible assumption | with_reducible refine State.ends_next ?_ | with_reducible refine State.ends_ite ?_ ?_ | intro _ | with_reducible apply State.keeps_ite | with_reducible apply State.keeps_ite₁ | with_reducible apply State.tapLoad_keeps | split | dsimp only | fail_if_no_progress with_reducible refine State.keeps_lit ?_ rfl rfl rfl rfl rfl)

theorem execBypass_runs (code : BitVec 8) (s : State) : State.Ends s.Runs (execBypass code s) := by
  refine State.Ends.keepsRuns ?_
  have h := State.keeps_refl s
  unfold execBypass; try dsimp only
  repeat' (first | with_reducible assumption | with_reducible refine State.ends_next ?_ | with_reducible refine State.ends_ite ?_ ?_ | intro _ | with_reducible apply State.keeps_ite | with_reducible apply State.keeps_ite₁ | with_reducible apply State.tapLoad_keeps | split | dsimp only | fail_if_no_progress with_reducible refine State.keeps_lit ?_ rfl rfl rfl rfl rfl)

theorem execHighz_runs (s : State) : State.Ends s.Runs (execHighz s) := by
  refine State.Ends.keepsRuns ?_
  have h := State.keeps_refl s
  unfold execHighz; try dsimp only
  repeat' (first | with_reducible assumption | with_reducible refine State.ends_next ?_ | with_reducible refine State.ends_ite ?_ ?_ | intro _ | with_reducible apply State.keeps_ite | with_reducible apply State.keeps_ite₁ | with_reducible apply State.tapDrive_keeps | split | dsimp only | fail_if_no_progress with_reducible refine State.keeps_lit ?_ rfl rfl rfl rfl rfl)

theorem execIdcode_runs (s : State) : State.Ends s.Runs (execIdcode s) := by
  refine State.Ends.keepsRuns ?_
  have h := State.keeps_refl s
  unfold execIdcode; try dsimp only
  repeat' (first | with_reducible assumption | with_reducible refine State.ends_next ?_ | with_reducible refine State.ends_ite ?_ ?_ | intro _ | with_reducible apply State.keeps_ite | with_reducible apply State.keeps_ite₁ | with_reducible apply State.tapLoad_keeps | split | dsimp only | fail_if_no_progress with_reducible refine State.keeps_lit ?_ rfl rfl rfl rfl rfl)

theorem execSamplePreload_runs (cells : List (BitVec 3)) (s : State) : State.Ends s.Runs (execSamplePreload cells s) := by
  refine State.Ends.keepsRuns ?_
  have h := State.keeps_refl s
  unfold execSamplePreload; try dsimp only
  repeat' (first | with_reducible assumption | with_reducible refine State.ends_next ?_ | with_reducible refine State.ends_ite ?_ ?_ | intro _ | with_reducible apply State.keeps_ite | with_reducible apply State.keeps_ite₁ | with_reducible apply State.tapLoad_keeps | split | dsimp only | fail_if_no_progress with_reducible refine State.keeps_lit ?_ rfl rfl rfl rfl rfl)

theorem execExtest_runs (s : State) : State.Ends s.Runs (execExtest s) := by
  refine State.Ends.keepsRuns ?_
  have h := State.keeps_refl s
  unfold execExtest; try dsimp only
  repeat' (first | with_reducible assumption | with_reducible refine State.ends_next ?_ | with_reducible refine State.ends_ite ?_ ?_ | intro _ | with_reducible apply State.keeps_ite | with_reducible apply State.keeps_ite₁ | with_reducible apply State.tapDrive_keeps | split | dsimp only | fail_if_no_progress with_reducible refine State.keeps_lit ?_ rfl rfl rfl rfl rfl)

theorem execClamp_runs (s : State) : State.Ends s.Runs (execClamp s) := by
  refine State.Ends.keepsRuns ?_
  have h := State.keeps_refl s
  unfold execClamp; try dsimp only
  repeat' (first | with_reducible assumption | with_reducible refine State.ends_next ?_ | with_reducible refine State.ends_ite ?_ ?_ | intro _ | with_reducible apply State.keeps_ite | with_reducible apply State.keeps_ite₁ | with_reducible apply State.tapDrive_keeps | split | dsimp only | fail_if_no_progress with_reducible refine State.keeps_lit ?_ rfl rfl rfl rfl rfl)

theorem execDormouseBusWake_runs (s : State) : State.Ends s.Runs (execDormouseBusWake s) := by
  unfold execDormouseBusWake
  refine State.ends_next ?_
  exact State.when_runs (State.moves_refl s).runs (State.wake_runs (State.keeps_refl s))

theorem execDmholdClear_runs (s : State) : State.Ends s.Runs (execDmholdClear s) := by
  refine State.Ends.movesRuns ?_
  have h := State.moves_refl s
  unfold execDmholdClear; try dsimp only
  repeat' (first | with_reducible assumption | with_reducible refine State.ends_next ?_ | with_reducible refine State.ends_ite ?_ ?_ | intro _ | with_reducible apply State.moves_ite | with_reducible apply State.moves_ite₁ | with_reducible apply State.setB_moves | with_reducible apply State.recordSrc_moves | with_reducible apply State.setDmFlag_moves | with_reducible apply State.evalStart_moves | with_reducible apply State.evalBen_moves | split | dsimp only | fail_if_no_progress with_reducible refine State.moves_lit ?_ rfl rfl rfl rfl rfl)

theorem execPrecSnapRead_runs (p : Port) (k : Fin 8) (s : State) : State.Ends s.Runs (execPrecSnapRead p k s) := by
  refine State.Ends.keepsRuns ?_
  have h := State.keeps_refl s
  unfold execPrecSnapRead; try dsimp only
  repeat' (first | with_reducible assumption | with_reducible refine State.ends_next ?_ | with_reducible refine State.ends_ite ?_ ?_ | intro _ | with_reducible apply State.keeps_ite | with_reducible apply State.keeps_ite₁ | with_reducible apply State.readReg_keeps | split | dsimp only | fail_if_no_progress with_reducible refine State.keeps_lit ?_ rfl rfl rfl rfl rfl)

theorem execSnapshotRead_runs (p : Port) (s : State) : State.Ends s.Runs (execSnapshotRead p s) := by
  refine State.Ends.keepsRuns ?_
  have h := State.keeps_refl s
  unfold execSnapshotRead; try dsimp only
  repeat' (first | with_reducible assumption | with_reducible refine State.ends_next ?_ | with_reducible refine State.ends_ite ?_ ?_ | intro _ | with_reducible apply State.keeps_ite | with_reducible apply State.keeps_ite₁ | with_reducible apply State.readReg_keeps | split | dsimp only | fail_if_no_progress with_reducible refine State.keeps_lit ?_ rfl rfl rfl rfl rfl)

theorem execFifoRead_runs (p : Port) (s : State) : State.Ends s.Runs (execFifoRead p s) := by
  refine State.Ends.keepsRuns ?_
  have h := State.keeps_refl s
  unfold execFifoRead; try dsimp only
  repeat' (first | with_reducible assumption | with_reducible refine State.ends_next ?_ | with_reducible refine State.ends_ite ?_ ?_ | intro _ | with_reducible apply State.keeps_ite | with_reducible apply State.keeps_ite₁ | with_reducible apply State.readReg_keeps | split | dsimp only | fail_if_no_progress with_reducible refine State.keeps_lit ?_ rfl rfl rfl rfl rfl)

theorem execDiagRead_runs (p : Port) (s : State) : State.Ends s.Runs (execDiagRead p s) := by
  refine State.Ends.keepsRuns ?_
  have h := State.keeps_refl s
  unfold execDiagRead; try dsimp only
  repeat' (first | with_reducible assumption | with_reducible refine State.ends_next ?_ | with_reducible refine State.ends_ite ?_ ?_ | intro _ | with_reducible apply State.keeps_ite | with_reducible apply State.keeps_ite₁ | with_reducible apply State.readReg_keeps | split | dsimp only | fail_if_no_progress with_reducible refine State.keeps_lit ?_ rfl rfl rfl rfl rfl)

theorem execMinmaxRead_runs (p : Port) (m : MinMax) (s : State) : State.Ends s.Runs (execMinmaxRead p m s) := by
  refine State.Ends.keepsRuns ?_
  have h := State.keeps_refl s
  unfold execMinmaxRead; try dsimp only
  repeat' (first | with_reducible assumption | with_reducible refine State.ends_next ?_ | with_reducible refine State.ends_ite ?_ ?_ | intro _ | with_reducible apply State.keeps_ite | with_reducible apply State.keeps_ite₁ | with_reducible apply State.readReg_keeps | split | dsimp only | fail_if_no_progress with_reducible refine State.keeps_lit ?_ rfl rfl rfl rfl rfl)

theorem execLinkedLowRead_runs (r : Reader) (c : Counter64) (s : State) : State.Ends s.Runs (execLinkedLowRead r c s) := by
  refine State.Ends.keepsRuns ?_
  have h := State.keeps_refl s
  unfold execLinkedLowRead; try dsimp only
  repeat' (first | with_reducible assumption | with_reducible refine State.ends_next ?_ | with_reducible refine State.ends_ite ?_ ?_ | intro _ | with_reducible apply State.keeps_ite | with_reducible apply State.keeps_ite₁ | with_reducible apply State.readReg_keeps | with_reducible apply State.readLow_keeps | split | dsimp only | fail_if_no_progress with_reducible refine State.keeps_lit ?_ rfl rfl rfl rfl rfl)

theorem execUpopen_runs (f : StreamFrame) (s : State) : State.Ends s.Runs (execUpopen f s) := by
  refine State.Ends.keepsRuns ?_
  have h := State.keeps_refl s
  unfold execUpopen; try dsimp only
  repeat' (first | with_reducible assumption | with_reducible refine State.ends_next ?_ | with_reducible refine State.ends_ite ?_ ?_ | intro _ | with_reducible apply State.keeps_ite | with_reducible apply State.keeps_ite₁ | with_reducible apply State.sessionFrame_keeps | with_reducible apply State.refuseFrame_keeps | with_reducible apply State.setBootRec_keeps | with_reducible apply State.setF_keeps | with_reducible apply State.setReg_keeps | with_reducible apply State.answerFrame_keeps | split | dsimp only | fail_if_no_progress with_reducible refine State.keeps_lit ?_ rfl rfl rfl rfl rfl)

theorem execTrialTimeSave_runs (s : State) : State.Ends s.Runs (execTrialTimeSave s) := by
  refine State.Ends.keepsRuns ?_
  have h := State.keeps_refl s
  unfold execTrialTimeSave; try dsimp only
  repeat' (first | with_reducible assumption | with_reducible refine State.ends_next ?_ | with_reducible refine State.ends_ite ?_ ?_ | intro _ | with_reducible apply State.keeps_ite | with_reducible apply State.keeps_ite₁ | with_reducible apply State.when_keeps | split | dsimp only | fail_if_no_progress with_reducible refine State.keeps_lit ?_ rfl rfl rfl rfl rfl)

theorem execTrialTimeExpiry_runs (s : State) : State.Ends s.Runs (execTrialTimeExpiry s) := by
  refine State.Ends.keepsRuns ?_
  have h := State.keeps_refl s
  unfold execTrialTimeExpiry; try dsimp only
  repeat' (first | with_reducible assumption | with_reducible refine State.ends_next ?_ | with_reducible refine State.ends_ite ?_ ?_ | intro _ | with_reducible apply State.keeps_ite | with_reducible apply State.keeps_ite₁ | with_reducible apply State.when_keeps | with_reducible apply State.confirmTrial_keeps | split | dsimp only | fail_if_no_progress with_reducible refine State.keeps_lit ?_ rfl rfl rfl rfl rfl)

theorem execUpwrite_runs (f : StreamFrame) (s : State) : State.Ends s.Runs (execUpwrite f s) := by
  refine State.Ends.keepsRuns ?_
  have h := State.keeps_refl s
  unfold execUpwrite; try dsimp only
  repeat' (first | with_reducible assumption | with_reducible refine State.ends_next ?_ | with_reducible refine State.ends_ite ?_ ?_ | intro _ | with_reducible apply State.keeps_ite | with_reducible apply State.keeps_ite₁ | with_reducible apply State.sessionFrame_keeps | with_reducible apply State.refuseFrame_keeps | with_reducible apply State.answerFrame_keeps | split | dsimp only | fail_if_no_progress with_reducible refine State.keeps_lit ?_ rfl rfl rfl rfl rfl)

theorem execUpclose_runs (f : StreamFrame) (s : State) : State.Ends s.Runs (execUpclose f s) := by
  refine State.Ends.keepsRuns ?_
  have h := State.keeps_refl s
  unfold execUpclose; try dsimp only
  repeat' (first | with_reducible assumption | with_reducible refine State.ends_next ?_ | with_reducible refine State.ends_ite ?_ ?_ | intro _ | with_reducible apply State.keeps_ite | with_reducible apply State.keeps_ite₁ | with_reducible apply State.sessionFrame_keeps | with_reducible apply State.refuseFrame_keeps | with_reducible apply State.answerFrame_keeps | with_reducible apply State.endSession_keeps | with_reducible apply State.draw_keeps | with_reducible apply State.setF_keeps | split | dsimp only | fail_if_no_progress with_reducible refine State.keeps_lit ?_ rfl rfl rfl rfl rfl)

/-- UPDATE_BLOCK_COMPLETE changes the configuration flash; what no other command changes stays. -/
theorem execUpdateBlockComplete_keeps (r : Fin 3) (s : State) :
    State.Ends (fun t => State.Keeps { s with flash := t.flash } t) (execUpdateBlockComplete r s) := by
  unfold execUpdateBlockComplete
  have r0 : State.Ends (fun t => State.Keeps { s with flash := t.flash } t) (.next s) := State.ends_next (State.keeps_refl s)
  split
  · exact r0
  · refine State.ends_ite r0 ?_
    have k : s.Keeps (({ s with upd := { s.upd with block := none } } : State).setF F.UPD_STAT_SESSION 0 1) := by
      refine State.setF_keeps ?_ _ _ _
      with_reducible exact State.keeps_lit (State.keeps_refl s) rfl rfl rfl rfl rfl
    dsimp only
    generalize ({ s with upd := { s.upd with block := none } } : State).setF F.UPD_STAT_SESSION 0 1 = u at k ⊢
    have w {v : State} (k : s.Keeps v) (a : Nat) (l : List Byte) : State.Keeps { s with flash := (v.flashWrite a l).flash } (v.flashWrite a l) :=
      ⟨⟨k.pending, rfl, k.en, k.serial, k.svcKey, k.role, k.blevel, k.wf, k.safe⟩, k.dev⟩
    have z {v x : State} (k : State.Keeps { s with flash := v.flash } v) (e : v.Keeps x) : State.Keeps { s with flash := x.flash } x := by
      rw [e.flash]
      exact k.trans e
    exact State.ends_ite (State.ends_next (z (w k _ _) (State.setF_keeps (State.incF_keeps (State.keeps_refl _) _ _ _) _ _ _)))
      (State.ends_next (z (w (State.drawWords_keeps k 1024) _ _) (State.blockFails_keeps (State.keeps_refl _) _)))

theorem State.wf_flashWrite (s : State) (a : Nat) (l : List Byte) (h : Sparse.wf flashReset s.flash = true) :
    Sparse.wf flashReset (s.flashWrite a l).flash = true := by
  unfold State.flashWrite
  dsimp only
  generalize s.flash = fl at h ⊢
  generalize l.zip (List.range l.length) = q
  induction q generalizing fl with
  | nil => exact h
  | cons x q ih => exact ih _ (Sparse.wf_put _ _ h)

/-- UPDATE_BLOCK_COMPLETE keeps the canonical form of the configuration flash. -/
theorem execUpdateBlockComplete_wf (r : Fin 3) (s : State) (h : Sparse.wf flashReset s.flash = true) :
    State.Ends (fun t => Sparse.wf flashReset t.flash = true) (execUpdateBlockComplete r s) := by
  unfold execUpdateBlockComplete
  split
  · exact State.ends_next h
  · refine State.ends_ite (State.ends_next h) (State.ends_ite (State.ends_next ?_) (State.ends_next ?_))
    · exact State.wf_flashWrite _ _ _ h
    · rw [(State.blockFails_keeps (State.keeps_refl _) _).flash]
      refine State.wf_flashWrite _ _ _ ?_
      rw [(State.drawWords_keeps (State.keeps_refl _) _).flash]
      exact h

theorem execUpblock_runs (f : StreamFrame) (s : State) : State.Ends s.Runs (execUpblock f s) := by
  refine State.Ends.keepsRuns ?_
  have h := State.keeps_refl s
  unfold execUpblock; try dsimp only
  repeat' (first | with_reducible assumption | with_reducible refine State.ends_next ?_ | with_reducible refine State.ends_ite ?_ ?_ | intro _ | with_reducible apply State.keeps_ite | with_reducible apply State.keeps_ite₁ | with_reducible apply State.sessionFrame_keeps | with_reducible apply State.refuseFrame_keeps | with_reducible apply State.answerFrame_keeps | with_reducible apply State.blockFails_keeps | with_reducible apply State.draw_keeps | with_reducible apply State.setF_keeps | split | dsimp only | fail_if_no_progress with_reducible refine State.keeps_lit ?_ rfl rfl rfl rfl rfl)

theorem execUpdateVerifyComplete_runs (noise : List (Nat × Byte)) (s : State) : State.Ends s.Runs (execUpdateVerifyComplete noise s) := by
  refine State.Ends.keepsRuns ?_
  have h := State.keeps_refl s
  unfold execUpdateVerifyComplete; try dsimp only
  repeat' (first | with_reducible assumption | with_reducible refine State.ends_next ?_ | with_reducible refine State.ends_ite ?_ ?_ | intro _ | with_reducible apply State.keeps_ite | with_reducible apply State.keeps_ite₁ | with_reducible apply State.endSession_keeps | with_reducible apply State.raise_keeps | with_reducible apply State.updRecord_keeps | with_reducible apply State.setBootRec_keeps | split | dsimp only | fail_if_no_progress with_reducible refine State.keeps_lit ?_ rfl rfl rfl rfl rfl)

theorem execUpdateSessionTimeout_runs (s : State) : State.Ends s.Runs (execUpdateSessionTimeout s) := by
  refine State.Ends.keepsRuns ?_
  have h := State.keeps_refl s
  unfold execUpdateSessionTimeout; try dsimp only
  repeat' (first | with_reducible assumption | with_reducible refine State.ends_next ?_ | with_reducible refine State.ends_ite ?_ ?_ | intro _ | with_reducible apply State.keeps_ite | with_reducible apply State.keeps_ite₁ | with_reducible apply State.when_keeps | with_reducible apply State.endSession_keeps | split | dsimp only | fail_if_no_progress with_reducible refine State.keeps_lit ?_ rfl rfl rfl rfl rfl)

theorem execRegisterWrite_runs (p : Port) (a : BitVec 16) (v : Word) (s : State) : State.Ends s.Runs (execRegisterWrite p a v s) :=
  State.ends_next (State.hostDo_runs (State.keeps_refl s) _ _ _ fun k => route_runs k _ _ _)

theorem execFlush_runs (p : Port) (s : State) : State.Ends s.Runs (execFlush p s) :=
  State.ends_next (State.hostDo_runs (State.keeps_refl s) _ _ _ fun k => (capFlush_keeps k).toMoves.runs)

theorem execLeadSuspendClear_runs (p : Port) (n : Fin 16) (s : State) : State.Ends s.Runs (execLeadSuspendClear p n s) :=
  State.ends_next (State.hostDo_runs (State.keeps_refl s) _ _ _ fun k => (leadSuspendClear_keeps k _).toMoves.runs)

theorem execAck_runs (p : Port) (confirm : BitVec 16) (s : State) : State.Ends s.Runs (execAck p confirm s) :=
  State.ends_next (State.hostDo_runs (State.keeps_refl s) _ _ _ fun k => (supvAck_keeps k _).toMoves.runs)

theorem execCommit_runs (p : Port) (token : BitVec 8) (s : State) : State.Ends s.Runs (execCommit p token s) :=
  State.ends_next (State.hostDo_runs (State.keeps_refl s) _ _ _ fun k => (txnCommit_keeps k _).toMoves.runs)

theorem execTsdclr_runs (p : Port) (n : Fin 16) (confirm : BitVec 16) (s : State) : State.Ends s.Runs (execTsdclr p n confirm s) :=
  State.ends_next (State.hostDo_runs (State.keeps_refl s) _ _ _ fun k => (thmTsdclr_keeps k _ _).toMoves.runs)

theorem execUvclr_runs (p : Port) (i : Fin 6) (s : State) : State.Ends s.Runs (execUvclr p i s) :=
  State.ends_next (State.hostDo_runs (State.keeps_refl s) _ _ _ fun k => (batUvclr_keeps k _).toMoves.runs)

theorem execTimerActWrite_runs (p : Port) (n : Fin 32) (v : Word) (s : State) : State.Ends s.Runs (execTimerActWrite p n v s) :=
  State.ends_next (State.hostDo_runs (State.keeps_refl s) _ _ _ fun k => (timerActWrite_keeps k _ _).toMoves.runs)

theorem execBatRestWrite_runs (p : Port) (i : Fin 6) (on : Bool) (s : State) : State.Ends s.Runs (execBatRestWrite p i on s) :=
  State.ends_next (State.hostDo_runs (State.keeps_refl s) _ _ _ fun k => (batRest_keeps k _ _).toMoves.runs)

theorem execPwrcycle_runs (p : Port) (b : Fin 2) (confirm : BitVec 16) (s : State) : State.Ends s.Runs (execPwrcycle p b confirm s) :=
  State.ends_next (State.hostDo_runs (State.keeps_refl s) _ _ _ fun k => (fldPwrcycle_keeps k _ _).toMoves.runs)

theorem execTmGstop_runs (p : Port) (mask : Word) (s : State) : State.Ends s.Runs (execTmGstop p mask s) :=
  State.ends_next (State.hostDo_runs (State.keeps_refl s) _ _ _ fun k => (timerGstop_keeps k _).toMoves.runs)

theorem execRestore_runs (p : Port) (i : Fin 6) (s : State) : State.Ends s.Runs (execRestore p i s) :=
  State.ends_next (State.hostDo_runs (State.keeps_refl s) _ _ _ fun k => (batRestore_keeps k _).toMoves.runs)

theorem execTxnChecksComplete_runs (s : State) : State.Ends s.Runs (execTxnChecksComplete s) := by
  refine State.Ends.keepsRuns ?_
  have h := State.keeps_refl s
  unfold execTxnChecksComplete; try dsimp only
  repeat' (first | with_reducible assumption | with_reducible refine State.ends_next ?_ | with_reducible refine State.ends_ite ?_ ?_ | intro _ | with_reducible apply State.keeps_ite | with_reducible apply State.keeps_ite₁ | with_reducible apply State.layShadows_keeps | with_reducible apply State.failTxn_keeps | with_reducible apply State.setReg_keeps | with_reducible apply State.setF_keeps | split | dsimp only | fail_if_no_progress with_reducible refine State.keeps_lit ?_ rfl rfl rfl rfl rfl)

theorem execTimerRelease_runs (p : Port) (n : Fin 32) (s : State) : State.Ends s.Runs (execTimerRelease p n s) :=
  State.ends_next (State.hostDo_runs (State.keeps_refl s) _ _ _ fun k => (timerRelease_keeps k _).toMoves.runs)

theorem execStore_runs (p : Port) (confirm : BitVec 16) (s : State) : State.Ends s.Runs (execStore p confirm s) :=
  State.ends_next (State.hostDo_runs (State.keeps_refl s) _ _ _ fun k => (storeCommand_keeps k _).toMoves.runs)

theorem execTmGstart_runs (p : Port) (mask : Word) (s : State) : State.Ends s.Runs (execTmGstart p mask s) :=
  State.ends_next (State.hostDo_runs (State.keeps_refl s) _ _ _ fun k => (timerGstart_keeps k _).toMoves.runs)

theorem execReload_runs (p : Port) (confirm : BitVec 16) (s : State) : State.Ends s.Runs (execReload p confirm s) :=
  State.ends_next (State.hostDo_runs (State.keeps_refl s) _ _ _ fun k => devReload_runs k _)

theorem execFeedPinWrite_runs (p : Port) (pin : BitVec 2) (s : State) : State.Ends s.Runs (execFeedPinWrite p pin s) :=
  State.ends_next (State.hostDo_runs (State.keeps_refl s) _ _ _ fun k => (feedPinWrite_keeps k _).toMoves.runs)

theorem execForce_runs (p : Port) (confirm : BitVec 16) (s : State) : State.Ends s.Runs (execForce p confirm s) :=
  State.ends_next (State.hostDo_runs (State.keeps_refl s) _ _ _ fun k => (seqForce_moves k.toMoves _).runs)

theorem execTmGclr_runs (p : Port) (mask : Word) (s : State) : State.Ends s.Runs (execTmGclr p mask s) :=
  State.ends_next (State.hostDo_runs (State.keeps_refl s) _ _ _ fun k => (timerGclr_keeps k _).toMoves.runs)

theorem execRewind_runs (p : Port) (s : State) : State.Ends s.Runs (execRewind p s) :=
  State.ends_next (State.hostDo_runs (State.keeps_refl s) _ _ _ fun k => (capRewind_keeps k).toMoves.runs)

theorem execConfirm_runs (p : Port) (confirm : BitVec 16) (s : State) : State.Ends s.Runs (execConfirm p confirm s) :=
  State.ends_next (State.hostDo_runs (State.keeps_refl s) _ _ _ fun k => (updConfirm_keeps k _).toMoves.runs)

theorem execInjectionEnable_runs (p : Port) (n : Fin 16) (v : Word) (s : State) : State.Ends s.Runs (execInjectionEnable p n v s) :=
  State.ends_next (State.hostDo_runs (State.keeps_refl s) _ _ _ fun k => (specialWrite_moves k.toMoves _ _).runs)

theorem execBegin_runs (p : Port) (s : State) : State.Ends s.Runs (execBegin p s) :=
  State.ends_next (State.hostDo_runs (State.keeps_refl s) _ _ _ fun k => (txnBegin_keeps k _).toMoves.runs)

theorem execTimerCtrlWrite_runs (p : Port) (n : Fin 32) (v : Word) (s : State) : State.Ends s.Runs (execTimerCtrlWrite p n v s) :=
  State.ends_next (State.hostDo_runs (State.keeps_refl s) _ _ _ fun k => (timerCtrlWrite_keeps k _ _).toMoves.runs)

theorem execEnergyClear_runs (p : Port) (f : Fin 4) (s : State) : State.Ends s.Runs (execEnergyClear p f s) :=
  State.ends_next (State.hostDo_runs (State.keeps_refl s) _ _ _ fun k => (energyClear_keeps k _).toMoves.runs)

theorem execOwlIdxWrite_runs (p : Port) (v : Word) (writing : Bool) (s : State) : State.Ends s.Runs (execOwlIdxWrite p v writing s) :=
  State.ends_next (State.hostDo_runs (State.keeps_refl s) _ _ _ fun k => (owlIdxWrite_keeps k _ _).toMoves.runs)

theorem execRestart_runs (p : Port) (confirm : BitVec 16) (s : State) : State.Ends s.Runs (execRestart p confirm s) :=
  State.ends_next (State.hostDo_runs (State.keeps_refl s) _ _ _ fun k => devRestart_runs k _)

theorem execMark_runs (p : Port) (s : State) : State.Ends s.Runs (execMark p s) :=
  State.ends_next (State.hostDo_runs (State.keeps_refl s) _ _ _ fun k => (capMark_keeps k).toMoves.runs)

theorem execSfpulse_runs (p : Port) (confirm : BitVec 16) (s : State) : State.Ends s.Runs (execSfpulse p confirm s) :=
  State.ends_next (State.hostDo_runs (State.keeps_refl s) _ _ _ fun k => (seqSfpulse_keeps k _).toMoves.runs)

theorem execOwlSnap_runs (p : Port) (confirm : BitVec 16) (s : State) : State.Ends s.Runs (execOwlSnap p confirm s) :=
  State.ends_next (State.hostDo_runs (State.keeps_refl s) _ _ _ fun k => (owlSnap_keeps k _).toMoves.runs)

theorem execSafe_runs (p : Port) (confirm : BitVec 16) (s : State) : State.Ends s.Runs (execSafe p confirm s) :=
  State.ends_next (State.hostDo_runs (State.keeps_refl s) _ _ _ fun k => (supvSafe_keeps k _).toMoves.runs)

theorem execClear_runs (p : Port) (confirm : BitVec 16) (s : State) : State.Ends s.Runs (execClear p confirm s) :=
  State.ends_next (State.hostDo_runs (State.keeps_refl s) _ _ _ fun k => (owlClear_keeps k _).toMoves.runs)

theorem execTimerCompareWrite_runs (p : Port) (n : Fin 32) (c : Cmp) (v : Word) (s : State) : State.Ends s.Runs (execTimerCompareWrite p n c v s) :=
  State.ends_next (State.hostDo_runs (State.keeps_refl s) _ _ _ fun k => (timerCompareWrite_keeps k _ _ _).toMoves.runs)

theorem execLnkOrderWrite_runs (p : Port) (v : Word) (s : State) : State.Ends s.Runs (execLnkOrderWrite p v s) :=
  State.ends_next (State.hostDo_runs (State.keeps_refl s) _ _ _ fun k => (lnkOrderWrite_keeps k _).toMoves.runs)

theorem execDormouse_runs (p : Port) (confirm : BitVec 16) (s : State) : State.Ends s.Runs (execDormouse p confirm s) :=
  State.ends_next (State.hostDo_runs (State.keeps_refl s) _ _ _ fun k => (devDormouse_moves k.toMoves _).runs)

theorem execRelease_runs (p : Port) (s : State) : State.Ends s.Runs (execRelease p s) :=
  State.ends_next (State.hostDo_runs (State.keeps_refl s) _ _ _ fun k => (capRelease_keeps k).toMoves.runs)

theorem execVsetWrite_runs (p : Port) (n : Fin 16) (v : BitVec 16) (s : State) : State.Ends s.Runs (execVsetWrite p n v s) :=
  State.ends_next (State.hostReg_runs (State.keeps_refl s) _ _ _)

theorem execTimerCntWrite_runs (p : Port) (n : Fin 32) (v : Word) (s : State) : State.Ends s.Runs (execTimerCntWrite p n v s) :=
  State.ends_next (State.hostDo_runs (State.keeps_refl s) _ _ _ fun k => (timerCntWrite_keeps k _ _).toMoves.runs)

theorem execWake_runs (p : Port) (confirm : BitVec 16) (s : State) : State.Ends s.Runs (execWake p confirm s) :=
  State.ends_next (State.hostDo_runs (State.keeps_refl s) _ _ _ fun k => batWake_runs k _)

theorem execSnap_runs (p : Port) (i : Fin 6) (s : State) : State.Ends s.Runs (execSnap p i s) :=
  State.ends_next (State.hostDo_runs (State.keeps_refl s) _ _ _ fun k => (batSnap_keeps k _).toMoves.runs)

theorem execCommitTick_runs (s : State) : State.Ends s.Runs (execCommitTick s) := by
  refine State.Ends.movesRuns ?_
  have h := State.moves_refl s
  unfold execCommitTick; try dsimp only
  repeat' (first | with_reducible assumption | with_reducible refine State.ends_next ?_ | with_reducible refine State.ends_ite ?_ ?_ | intro _ | with_reducible apply State.moves_ite | with_reducible apply State.moves_ite₁ | with_reducible apply State.endTxn_moves | with_reducible apply State.copyShadows_moves | split | dsimp only | fail_if_no_progress with_reducible refine State.moves_lit ?_ rfl rfl rfl rfl rfl)

theorem execStreamRequest_runs (p : Port) (hi : Bool) (mask : Word) (s : State) : State.Ends s.Runs (execStreamRequest p hi mask s) :=
  State.ends_next (State.hostDo_runs (State.keeps_refl s) _ _ _ fun k => (capRequest_keeps k _ _).toMoves.runs)

theorem execChannelConfigWrite_runs (p : Port) (n : Fin 64) (cfg : Bool) (v : Word) (s : State) : State.Ends s.Runs (execChannelConfigWrite p n cfg v s) :=
  State.ends_next (State.hostDo_runs (State.keeps_refl s) _ _ _ fun k => (chOwned_keeps k _ _ fun k => by split; exacts [chCfgWrite_keeps k _ _, chSrcWrite_keeps k _ _]).toMoves.runs)

theorem execCancel_runs (p : Port) (confirm : BitVec 16) (s : State) : State.Ends s.Runs (execCancel p confirm s) :=
  State.ends_next (State.hostDo_runs (State.keeps_refl s) _ _ _ fun k => (updCancel_keeps k _).toMoves.runs)

theorem execStreamEnableWrite_runs (p : Port) (v : Word) (s : State) : State.Ends s.Runs (execStreamEnableWrite p v s) :=
  State.ends_next (State.hostDo_runs (State.keeps_refl s) _ _ _ fun k => (capCfgWrite_keeps k _).toMoves.runs)

theorem execRollback_runs (p : Port) (token : BitVec 8) (s : State) : State.Ends s.Runs (execRollback p token s) :=
  State.ends_next (State.hostDo_runs (State.keeps_refl s) _ _ _ fun k => (txnRollback_keeps k _).toMoves.runs)

theorem execCaptureTrigger_runs (p : Port) (hi : Bool) (mask : Word) (s : State) : State.Ends s.Runs (execCaptureTrigger p hi mask s) :=
  State.ends_next (State.hostDo_runs (State.keeps_refl s) _ _ _ fun k => (capTrigger_keeps k _ _).toMoves.runs)

theorem execToggle_runs (p : Port) (confirm : BitVec 16) (s : State) : State.Ends s.Runs (execToggle p confirm s) :=
  State.ends_next (State.hostDo_runs (State.keeps_refl s) _ _ _ fun k => (inpToggle_moves k.toMoves _).runs)

end Sys2Proof.Machine
end

