-- ==== Sys2Proof/Laws/Runs4.lean ====
section
/-! SUPPORT. What the commands of the host ports leave alone. -/

set_option linter.unusedTactic false
set_option linter.unreachableTactic false

namespace Sys2Proof.Machine

theorem execTwoWireSleep_runs (s : State) : State.Ends s.Runs (execTwoWireSleep s) := by
  refine State.Ends.keepsRuns ?_
  have h := State.keeps_refl s
  unfold execTwoWireSleep; try dsimp only
  repeat' (first | with_reducible assumption | with_reducible refine State.ends_next ?_ | with_reducible refine State.ends_ite ?_ ?_ | intro _ | with_reducible apply State.keeps_ite | with_reducible apply State.keeps_ite₁ | with_reducible apply State.setB_keeps | split | dsimp only | fail_if_no_progress with_reducible refine State.keeps_lit ?_ rfl rfl rfl rfl rfl)

theorem execSdaRelease_runs (s : State) : State.Ends s.Runs (execSdaRelease s) := by
  refine State.Ends.keepsRuns ?_
  have h := State.keeps_refl s
  unfold execSdaRelease; try dsimp only
  repeat' (first | with_reducible assumption | with_reducible refine State.ends_next ?_ | with_reducible refine State.ends_ite ?_ ?_ | intro _ | with_reducible apply State.keeps_ite | with_reducible apply State.keeps_ite₁ | with_reducible apply State.portReset_keeps | split | dsimp only | fail_if_no_progress with_reducible refine State.keeps_lit ?_ rfl rfl rfl rfl rfl)

theorem execTwoWireWake_runs (s : State) : State.Ends s.Runs (execTwoWireWake s) := by
  refine State.Ends.keepsRuns ?_
  have h := State.keeps_refl s
  unfold execTwoWireWake; try dsimp only
  repeat' (first | with_reducible assumption | with_reducible refine State.ends_next ?_ | with_reducible refine State.ends_ite ?_ ?_ | intro _ | with_reducible apply State.keeps_ite | with_reducible apply State.keeps_ite₁ | with_reducible apply State.twWake_keeps | split | dsimp only | fail_if_no_progress with_reducible refine State.keeps_lit ?_ rfl rfl rfl rfl rfl)

theorem execSclTimeout_runs (s : State) : State.Ends s.Runs (execSclTimeout s) := by
  refine State.Ends.keepsRuns ?_
  have h := State.keeps_refl s
  unfold execSclTimeout; try dsimp only
  repeat' (first | with_reducible assumption | with_reducible refine State.ends_next ?_ | with_reducible refine State.ends_ite ?_ ?_ | intro _ | with_reducible apply State.keeps_ite | with_reducible apply State.keeps_ite₁ | with_reducible apply State.portReset_keeps | split | dsimp only | fail_if_no_progress with_reducible refine State.keeps_lit ?_ rfl rfl rfl rfl rfl)

theorem execAlertResponse_runs (won : Bool) (clocks : BitVec 8) (s : State) : State.Ends s.Runs (execAlertResponse won clocks s) := by
  refine State.Ends.keepsRuns ?_
  have h := State.keeps_refl s
  unfold execAlertResponse; try dsimp only
  repeat' (first | with_reducible assumption | with_reducible refine State.ends_next ?_ | with_reducible refine State.ends_ite ?_ ?_ | intro _ | with_reducible apply State.keeps_ite | with_reducible apply State.keeps_ite₁ | with_reducible apply State.twAnswer_keeps | with_reducible apply State.twWake_keeps | with_reducible apply State.setB_keeps | with_reducible apply State.freeBytes_keeps | split | dsimp only | fail_if_no_progress with_reducible refine State.keeps_lit ?_ rfl rfl rfl rfl rfl)

theorem execClearFaults_runs (w : Wire) (s : State) : State.Ends s.Runs (execClearFaults w s) := by
  refine State.ends_next (State.wire_keeps (State.keeps_refl s) _ w _ _ (fun k => k) fun _ k => ?_).toMoves.runs
  refine State.setF_keeps ?_ _ _ _
  with_reducible refine State.keeps_lit ?_ rfl rfl rfl rfl rfl
  exact State.each_keeps' k _ fun _ k => State.clearStatus_keeps k _

theorem execCapability_runs (w : Wire) (s : State) : State.Ends s.Runs (execCapability w s) := by
  refine State.Ends.keepsRuns ?_
  have h := State.keeps_refl s
  unfold execCapability; try dsimp only
  repeat' (first | with_reducible assumption | with_reducible refine State.ends_next ?_ | with_reducible refine State.ends_ite ?_ ?_ | intro _ | with_reducible apply State.keeps_ite | with_reducible apply State.keeps_ite₁ | with_reducible apply State.wireRead_keeps | split | dsimp only | fail_if_no_progress with_reducible refine State.keeps_lit ?_ rfl rfl rfl rfl rfl)

theorem execVoutUvFaultLimit_runs (w : Wire) (s : State) : State.Ends s.Runs (execVoutUvFaultLimit w s) := by
  refine State.ends_next (State.wireNum_moves (State.moves_refl s) _ _ w (voltNum_plain _ fun p _ => ?_)).runs
  simp only [Fld.addr, F.CL_WIN_UV]
  omega

theorem execStatusCml_runs (w : Wire) (s : State) : State.Ends s.Runs (execStatusCml w s) := by
  refine State.Ends.keepsRuns ?_
  have h := State.keeps_refl s
  unfold execStatusCml; try dsimp only
  repeat' (first | with_reducible assumption | with_reducible refine State.ends_next ?_ | with_reducible refine State.ends_ite ?_ ?_ | intro _ | with_reducible apply State.keeps_ite | with_reducible apply State.keeps_ite₁ | with_reducible apply State.wire_keeps | with_reducible apply State.twRead_keeps | with_reducible apply State.setF_keeps | split | dsimp only | fail_if_no_progress with_reducible refine State.keeps_lit ?_ rfl rfl rfl rfl rfl)

theorem execStatusVout_runs (w : Wire) (s : State) : State.Ends s.Runs (execStatusVout w s) := by
  refine State.Ends.keepsRuns ?_
  have h := State.keeps_refl s
  unfold execStatusVout; try dsimp only
  repeat' (first | with_reducible assumption | with_reducible refine State.ends_next ?_ | with_reducible refine State.ends_ite ?_ ?_ | intro _ | with_reducible apply State.keeps_ite | with_reducible apply State.keeps_ite₁ | with_reducible apply State.wireStatus_keeps | split | dsimp only | fail_if_no_progress with_reducible refine State.keeps_lit ?_ rfl rfl rfl rfl rfl)

theorem execMfrFifoStat_runs (w : Wire) (s : State) : State.Ends s.Runs (execMfrFifoStat w s) := by
  refine State.Ends.keepsRuns ?_
  have h := State.keeps_refl s
  unfold execMfrFifoStat; try dsimp only
  repeat' (first | with_reducible assumption | with_reducible refine State.ends_next ?_ | with_reducible refine State.ends_ite ?_ ?_ | intro _ | with_reducible apply State.keeps_ite | with_reducible apply State.keeps_ite₁ | with_reducible apply State.level1_keeps | with_reducible apply State.wireRead_keeps | split | dsimp only | fail_if_no_progress with_reducible refine State.keeps_lit ?_ rfl rfl rfl rfl rfl)

theorem execStatusWord_runs (w : Wire) (s : State) : State.Ends s.Runs (execStatusWord w s) := by
  refine State.Ends.keepsRuns ?_
  have h := State.keeps_refl s
  unfold execStatusWord; try dsimp only
  repeat' (first | with_reducible assumption | with_reducible refine State.ends_next ?_ | with_reducible refine State.ends_ite ?_ ?_ | intro _ | with_reducible apply State.keeps_ite | with_reducible apply State.keeps_ite₁ | with_reducible apply State.wireRead_keeps | split | dsimp only | fail_if_no_progress with_reducible refine State.keeps_lit ?_ rfl rfl rfl rfl rfl)

theorem execMfrFifoData_runs (w : Wire) (s : State) : State.Ends s.Runs (execMfrFifoData w s) := by
  refine State.Ends.keepsRuns ?_
  have h := State.keeps_refl s
  unfold execMfrFifoData; try dsimp only
  repeat' (first | with_reducible assumption | with_reducible refine State.ends_next ?_ | with_reducible refine State.ends_ite ?_ ?_ | intro _ | with_reducible apply State.keeps_ite | with_reducible apply State.keeps_ite₁ | with_reducible apply State.level1_keeps | with_reducible apply State.wire_keeps | with_reducible apply State.twRead_keeps | with_reducible apply State.fifoPop_keeps | with_reducible apply fifoBlock_keeps | split | dsimp only | fail_if_no_progress with_reducible refine State.keeps_lit ?_ rfl rfl rfl rfl rfl)

theorem execStoreUserAll_runs (w : Wire) (s : State) : State.Ends s.Runs (execStoreUserAll w s) := by
  exact State.ends_next (State.wire_keeps (State.keeps_refl s) _ w _ _ (fun k => k) fun _ k => storeBegin_keeps k).toMoves.runs

theorem execVoutMode_runs (w : Wire) (s : State) : State.Ends s.Runs (execVoutMode w s) := by
  refine State.Ends.keepsRuns ?_
  have h := State.keeps_refl s
  unfold execVoutMode; try dsimp only
  repeat' (first | with_reducible assumption | with_reducible refine State.ends_next ?_ | with_reducible refine State.ends_ite ?_ ?_ | intro _ | with_reducible apply State.keeps_ite | with_reducible apply State.keeps_ite₁ | with_reducible apply State.wireRead_keeps | split | dsimp only | fail_if_no_progress with_reducible refine State.keeps_lit ?_ rfl rfl rfl rfl rfl)

theorem execMfrId_runs (w : Wire) (s : State) : State.Ends s.Runs (execMfrId w s) := by
  refine State.Ends.keepsRuns ?_
  have h := State.keeps_refl s
  unfold execMfrId; try dsimp only
  repeat' (first | with_reducible assumption | with_reducible refine State.ends_next ?_ | with_reducible refine State.ends_ite ?_ ?_ | intro _ | with_reducible apply State.keeps_ite | with_reducible apply State.keeps_ite₁ | with_reducible apply State.wireBlock_keeps | split | dsimp only | fail_if_no_progress with_reducible refine State.keeps_lit ?_ rfl rfl rfl rfl rfl)

theorem execStatusIout_runs (w : Wire) (s : State) : State.Ends s.Runs (execStatusIout w s) := by
  refine State.Ends.keepsRuns ?_
  have h := State.keeps_refl s
  unfold execStatusIout; try dsimp only
  repeat' (first | with_reducible assumption | with_reducible refine State.ends_next ?_ | with_reducible refine State.ends_ite ?_ ?_ | intro _ | with_reducible apply State.keeps_ite | with_reducible apply State.keeps_ite₁ | with_reducible apply State.wireStatus_keeps | split | dsimp only | fail_if_no_progress with_reducible refine State.keeps_lit ?_ rfl rfl rfl rfl rfl)

theorem execOperation_runs (w : Wire) (s : State) : State.Ends s.Runs (execOperation w s) := by
  refine State.Ends.movesRuns ?_
  have h := State.moves_refl s
  unfold execOperation; try dsimp only
  repeat' (first | with_reducible assumption | with_reducible refine State.ends_next ?_ | with_reducible refine State.ends_ite ?_ ?_ | intro _ | with_reducible apply State.moves_ite | with_reducible apply State.moves_ite₁ | with_reducible apply State.wire_moves | with_reducible apply State.twRead_moves | with_reducible apply State.evalOnreq_moves | with_reducible apply operationOn_moves | with_reducible apply operationOff_moves | split | dsimp only | fail_if_no_progress with_reducible refine State.moves_lit ?_ rfl rfl rfl rfl rfl)

theorem execStatusInput_runs (w : Wire) (s : State) : State.Ends s.Runs (execStatusInput w s) := by
  refine State.Ends.keepsRuns ?_
  have h := State.keeps_refl s
  unfold execStatusInput; try dsimp only
  repeat' (first | with_reducible assumption | with_reducible refine State.ends_next ?_ | with_reducible refine State.ends_ite ?_ ?_ | intro _ | with_reducible apply State.keeps_ite | with_reducible apply State.keeps_ite₁ | with_reducible apply State.wireStatus_keeps | split | dsimp only | fail_if_no_progress with_reducible refine State.keeps_lit ?_ rfl rfl rfl rfl rfl)

theorem execReadIout_runs (w : Wire) (s : State) : State.Ends s.Runs (execReadIout w s) := by
  refine State.Ends.keepsRuns ?_
  have h := State.keeps_refl s
  unfold execReadIout; try dsimp only
  repeat' (first | with_reducible assumption | with_reducible refine State.ends_next ?_ | with_reducible refine State.ends_ite ?_ ?_ | intro _ | with_reducible apply State.keeps_ite | with_reducible apply State.keeps_ite₁ | with_reducible apply State.wireLin11_keeps | split | dsimp only | fail_if_no_progress with_reducible refine State.keeps_lit ?_ rfl rfl rfl rfl rfl)

theorem execReadTemperature1_runs (w : Wire) (s : State) : State.Ends s.Runs (execReadTemperature1 w s) := by
  refine State.Ends.keepsRuns ?_
  have h := State.keeps_refl s
  unfold execReadTemperature1; try dsimp only
  repeat' (first | with_reducible assumption | with_reducible refine State.ends_next ?_ | with_reducible refine State.ends_ite ?_ ?_ | intro _ | with_reducible apply State.keeps_ite | with_reducible apply State.keeps_ite₁ | with_reducible apply State.wireLin11_keeps | split | dsimp only | fail_if_no_progress with_reducible refine State.keeps_lit ?_ rfl rfl rfl rfl rfl)

theorem execMfrFifoCtrl_runs (w : Wire) (s : State) : State.Ends s.Runs (execMfrFifoCtrl w s) := by
  refine State.ends_next (State.level1_keeps (State.keeps_refl s) _ _ fun k => State.wire_keeps k _ w _ _ (fun k => k) fun _ k => ?_).toMoves.runs
  split
  · exact capMark_keeps k
  · exact capRewind_keeps k
  · exact capRelease_keeps k
  · exact State.capRefuse_keeps k _

theorem execReadPout_runs (w : Wire) (s : State) : State.Ends s.Runs (execReadPout w s) := by
  refine State.Ends.keepsRuns ?_
  have h := State.keeps_refl s
  unfold execReadPout; try dsimp only
  repeat' (first | with_reducible assumption | with_reducible refine State.ends_next ?_ | with_reducible refine State.ends_ite ?_ ?_ | intro _ | with_reducible apply State.keeps_ite | with_reducible apply State.keeps_ite₁ | with_reducible apply State.wireLin11_keeps | split | dsimp only | fail_if_no_progress with_reducible refine State.keeps_lit ?_ rfl rfl rfl rfl rfl)

theorem execIoutOcFaultLimit_runs (w : Wire) (s : State) : State.Ends s.Runs (execIoutOcFaultLimit w s) := by
  refine State.ends_next (State.wireNum_moves (State.moves_refl s) _ _ w fun p _ => ?_).runs
  dsimp only
  split <;> simp only [Fld.addr, F.CL_OL_OLIM, F.FEED_CFG_ILIM] <;> omega

theorem execMfrSerial_runs (w : Wire) (s : State) : State.Ends s.Runs (execMfrSerial w s) := by
  refine State.Ends.keepsRuns ?_
  have h := State.keeps_refl s
  unfold execMfrSerial; try dsimp only
  repeat' (first | with_reducible assumption | with_reducible refine State.ends_next ?_ | with_reducible refine State.ends_ite ?_ ?_ | intro _ | with_reducible apply State.keeps_ite | with_reducible apply State.keeps_ite₁ | with_reducible apply State.wireBlock_keeps | split | dsimp only | fail_if_no_progress with_reducible refine State.keeps_lit ?_ rfl rfl rfl rfl rfl)

theorem execReadIin_runs (w : Wire) (s : State) : State.Ends s.Runs (execReadIin w s) := by
  refine State.Ends.keepsRuns ?_
  have h := State.keeps_refl s
  unfold execReadIin; try dsimp only
  repeat' (first | with_reducible assumption | with_reducible refine State.ends_next ?_ | with_reducible refine State.ends_ite ?_ ?_ | intro _ | with_reducible apply State.keeps_ite | with_reducible apply State.keeps_ite₁ | with_reducible apply State.wireLin11_keeps | split | dsimp only | fail_if_no_progress with_reducible refine State.keeps_lit ?_ rfl rfl rfl rfl rfl)

theorem execMfrWinAddr_runs (w : Wire) (s : State) : State.Ends s.Runs (execMfrWinAddr w s) := by
  refine State.Ends.keepsRuns ?_
  have h := State.keeps_refl s
  unfold execMfrWinAddr; try dsimp only
  repeat' (first | with_reducible assumption | with_reducible refine State.ends_next ?_ | with_reducible refine State.ends_ite ?_ ?_ | intro _ | with_reducible apply State.keeps_ite | with_reducible apply State.keeps_ite₁ | with_reducible apply State.wire_keeps | with_reducible apply State.twRead_keeps | with_reducible apply State.setF_keeps | split | dsimp only | fail_if_no_progress with_reducible refine State.keeps_lit ?_ rfl rfl rfl rfl rfl)

theorem execStatusTemperature_runs (w : Wire) (s : State) : State.Ends s.Runs (execStatusTemperature w s) := by
  refine State.Ends.keepsRuns ?_
  have h := State.keeps_refl s
  unfold execStatusTemperature; try dsimp only
  repeat' (first | with_reducible assumption | with_reducible refine State.ends_next ?_ | with_reducible refine State.ends_ite ?_ ?_ | intro _ | with_reducible apply State.keeps_ite | with_reducible apply State.keeps_ite₁ | with_reducible apply State.wireStatus_keeps | split | dsimp only | fail_if_no_progress with_reducible refine State.keeps_lit ?_ rfl rfl rfl rfl rfl)

theorem execPage_runs (w : Wire) (s : State) : State.Ends s.Runs (execPage w s) := by
  refine State.Ends.keepsRuns ?_
  have h := State.keeps_refl s
  unfold execPage; try dsimp only
  repeat' (first | with_reducible assumption | with_reducible refine State.ends_next ?_ | with_reducible refine State.ends_ite ?_ ?_ | intro _ | with_reducible apply State.keeps_ite | with_reducible apply State.keeps_ite₁ | with_reducible apply State.wire_keeps | with_reducible apply State.twRead_keeps | split | dsimp only | fail_if_no_progress with_reducible refine State.keeps_lit ?_ rfl rfl rfl rfl rfl)

theorem execReadVin_runs (w : Wire) (s : State) : State.Ends s.Runs (execReadVin w s) := by
  refine State.Ends.keepsRuns ?_
  have h := State.keeps_refl s
  unfold execReadVin; try dsimp only
  repeat' (first | with_reducible assumption | with_reducible refine State.ends_next ?_ | with_reducible refine State.ends_ite ?_ ?_ | intro _ | with_reducible apply State.keeps_ite | with_reducible apply State.keeps_ite₁ | with_reducible apply State.wireLin11_keeps | split | dsimp only | fail_if_no_progress with_reducible refine State.keeps_lit ?_ rfl rfl rfl rfl rfl)

theorem execVoutCommand_runs (w : Wire) (s : State) : State.Ends s.Runs (execVoutCommand w s) := by
  refine State.ends_next (State.wireNum_moves (State.moves_refl s) _ _ w (voltNum_plain _ fun p _ => ?_)).runs
  simp only [Fld.addr, F.CL_VSET_S]
  omega

theorem execVoutOvFaultLimit_runs (w : Wire) (s : State) : State.Ends s.Runs (execVoutOvFaultLimit w s) := by
  refine State.ends_next (State.wireNum_moves (State.moves_refl s) _ _ w (voltNum_plain _ fun p _ => ?_)).runs
  simp only [Fld.addr, F.CL_WIN_OV]
  omega

theorem execMfrRevision_runs (w : Wire) (s : State) : State.Ends s.Runs (execMfrRevision w s) := by
  refine State.Ends.keepsRuns ?_
  have h := State.keeps_refl s
  unfold execMfrRevision; try dsimp only
  repeat' (first | with_reducible assumption | with_reducible refine State.ends_next ?_ | with_reducible refine State.ends_ite ?_ ?_ | intro _ | with_reducible apply State.keeps_ite | with_reducible apply State.keeps_ite₁ | with_reducible apply State.wireBlock_keeps | split | dsimp only | fail_if_no_progress with_reducible refine State.keeps_lit ?_ rfl rfl rfl rfl rfl)

theorem execVoutTransitionRate_runs (w : Wire) (s : State) : State.Ends s.Runs (execVoutTransitionRate w s) := by
  refine State.ends_next (State.wireNum_moves (State.moves_refl s) _ _ w fun p _ => ?_).runs
  simp only [Fld.addr, F.CL_VSLEW_SLEW]
  omega

theorem execMfrModel_runs (w : Wire) (s : State) : State.Ends s.Runs (execMfrModel w s) := by
  refine State.Ends.keepsRuns ?_
  have h := State.keeps_refl s
  unfold execMfrModel; try dsimp only
  repeat' (first | with_reducible assumption | with_reducible refine State.ends_next ?_ | with_reducible refine State.ends_ite ?_ ?_ | intro _ | with_reducible apply State.keeps_ite | with_reducible apply State.keeps_ite₁ | with_reducible apply State.wireBlock_keeps | split | dsimp only | fail_if_no_progress with_reducible refine State.keeps_lit ?_ rfl rfl rfl rfl rfl)

theorem execReadPin_runs (w : Wire) (s : State) : State.Ends s.Runs (execReadPin w s) := by
  refine State.Ends.keepsRuns ?_
  have h := State.keeps_refl s
  unfold execReadPin; try dsimp only
  repeat' (first | with_reducible assumption | with_reducible refine State.ends_next ?_ | with_reducible refine State.ends_ite ?_ ?_ | intro _ | with_reducible apply State.keeps_ite | with_reducible apply State.keeps_ite₁ | with_reducible apply State.wireLin11_keeps | split | dsimp only | fail_if_no_progress with_reducible refine State.keeps_lit ?_ rfl rfl rfl rfl rfl)

theorem execMfrWinData_runs (w : Wire) (s : State) : State.Ends s.Runs (execMfrWinData w s) := by
  refine State.ends_next ?_
  unfold State.wire
  have r {u : State} (k : s.Keeps u) : s.Runs u := k.toMoves.runs
  have h := State.keeps_refl s
  split
  · exact r (State.twAnswer_keeps h _ _)
  · rename_i hu
    have hb : s.dev ≠ .boot := fun e => hu (by simp [State.portUp, e])
    refine State.runs_ite (r (State.twWake_keeps h)) (State.runs_ite (r (State.pmUnsupported_keeps h _))
      (State.runs_ite (r (State.pmUnsupported_keeps h _)) (State.runs_ite (State.runs_ite (r ?_)
        (r (State.twAnswer_keeps (State.pmRefuse_keeps h _ _) _ _)))
      (State.runs_ite (r (State.twAnswer_keeps (State.pmRefuse_keeps h _ _) _ _)) ?_))))
    · exact State.keeps_ite (State.twRead_keeps (State.winNext_keeps (winRead_keeps h _ _) _) _ _ _)
        (State.twAnswer_keeps (State.freeBytes_keeps (State.pmRefuse_keeps h _ _) _) _ _)
    · unfold State.twWrite
      split
      · exact r (State.twAnswer_keeps (State.pmRefuse_keeps h _ _) _ _)
      · dsimp only
        refine State.runs_ite (State.Runs.keeps (State.runs_ite₁ (r h) (State.runs_ite₁ ?_ (r h)))
          (State.twAnswer_keeps (State.pmRefuse_keeps (State.keeps_refl _) _ _) _ _))
          (r (State.twAnswer_keeps (State.pmRefuse_keeps (State.raise_keeps (State.incF_keeps h _ _ _) _) _ _) _ _))
        have k := winWrite_runs (r h) hb
        exact State.runs_ite ((k _ _).keeps (State.winNext_keeps (State.keeps_refl _) _)) (k _ _)

theorem execUnsupportedCommand_runs (p : Port) (code : Byte) (s : State) : State.Ends s.Runs (execUnsupportedCommand p code s) := by
  have h := State.keeps_refl s
  have r {u : State} (k : s.Keeps u) : State.Ends s.Runs (.next u) := State.ends_next k.toMoves.runs
  cases p
  · exact State.ends_ite (r (State.twAnswer_keeps h _ _)) (State.ends_ite (r (State.twWake_keeps h)) (State.ends_ite (r h) (r (State.pmUnsupported_keeps h _))))
  · exact State.ends_ite (r h) (r (State.answerFrame_keeps (State.refuse_keeps h _ _ _) _ _ _ _))

theorem execReadVout_runs (w : Wire) (s : State) : State.Ends s.Runs (execReadVout w s) := by
  refine State.Ends.keepsRuns ?_
  have h := State.keeps_refl s
  unfold execReadVout; try dsimp only
  repeat' (first | with_reducible assumption | with_reducible refine State.ends_next ?_ | with_reducible refine State.ends_ite ?_ ?_ | intro _ | with_reducible apply State.keeps_ite | with_reducible apply State.keeps_ite₁ | with_reducible apply State.wireRead_keeps | split | dsimp only | fail_if_no_progress with_reducible refine State.keeps_lit ?_ rfl rfl rfl rfl rfl)

theorem execStatusByte_runs (w : Wire) (s : State) : State.Ends s.Runs (execStatusByte w s) := by
  refine State.Ends.keepsRuns ?_
  have h := State.keeps_refl s
  unfold execStatusByte; try dsimp only
  repeat' (first | with_reducible assumption | with_reducible refine State.ends_next ?_ | with_reducible refine State.ends_ite ?_ ?_ | intro _ | with_reducible apply State.keeps_ite | with_reducible apply State.keeps_ite₁ | with_reducible apply State.wireRead_keeps | split | dsimp only | fail_if_no_progress with_reducible refine State.keeps_lit ?_ rfl rfl rfl rfl rfl)

theorem execPmbusRevision_runs (w : Wire) (s : State) : State.Ends s.Runs (execPmbusRevision w s) := by
  refine State.Ends.keepsRuns ?_
  have h := State.keeps_refl s
  unfold execPmbusRevision; try dsimp only
  repeat' (first | with_reducible assumption | with_reducible refine State.ends_next ?_ | with_reducible refine State.ends_ite ?_ ?_ | intro _ | with_reducible apply State.keeps_ite | with_reducible apply State.keeps_ite₁ | with_reducible apply State.wireRead_keeps | split | dsimp only | fail_if_no_progress with_reducible refine State.keeps_lit ?_ rfl rfl rfl rfl rfl)

theorem execFifoctl_runs (f : StreamFrame) (s : State) : State.Ends s.Runs (execFifoctl f s) := by
  refine State.Ends.keepsRuns ?_
  have h := State.keeps_refl s
  unfold execFifoctl; try dsimp only
  repeat' (first | with_reducible assumption | with_reducible refine State.ends_next ?_ | with_reducible refine State.ends_ite ?_ ?_ | intro _ | with_reducible apply State.keeps_ite | with_reducible apply State.keeps_ite₁ | with_reducible apply State.commandFrame_keeps | with_reducible apply capFlush_keeps | with_reducible apply capMark_keeps | with_reducible apply capRewind_keeps | with_reducible apply capRelease_keeps | with_reducible apply State.capRefuse_keeps | split | dsimp only | fail_if_no_progress with_reducible refine State.keeps_lit ?_ rfl rfl rfl rfl rfl)

theorem execRdreg_runs (f : StreamFrame) (s : State) : State.Ends s.Runs (execRdreg f s) := by
  refine State.Ends.keepsRuns ?_
  have h := State.keeps_refl s
  unfold execRdreg; try dsimp only
  repeat' (first | with_reducible assumption | with_reducible refine State.ends_next ?_ | with_reducible refine State.ends_ite ?_ ?_ | intro _ | with_reducible apply State.keeps_ite | with_reducible apply State.keeps_ite₁ | with_reducible apply State.frame_keeps | with_reducible apply State.answerRefused_keeps | with_reducible apply State.refuse_keeps | with_reducible apply State.readWords_keeps | with_reducible apply State.answerFrame_keeps | split | dsimp only | fail_if_no_progress with_reducible refine State.keeps_lit ?_ rfl rfl rfl rfl rfl)

theorem execWrreg_runs (f : StreamFrame) (s : State) : State.Ends s.Runs (execWrreg f s) := by
  refine State.ends_next (State.frame_runs (State.keeps_refl s) _ _ _ f fun h hl => ?_)
  have k := writeWords_runs h.toMoves.runs (State.portLive_boot hl) ((frameAddrs f).zip f.data) 0
  exact State.runs_ite (k.keeps (State.answerFrame_keeps (State.refuse_keeps (State.keeps_refl _) _ _ _) _ _ _ _)) k

theorem execStreamStore_runs (f : StreamFrame) (s : State) : State.Ends s.Runs (execStreamStore f s) := by
  refine State.Ends.keepsRuns ?_
  have h := State.keeps_refl s
  unfold execStreamStore; try dsimp only
  repeat' (first | with_reducible assumption | with_reducible refine State.ends_next ?_ | with_reducible refine State.ends_ite ?_ ?_ | intro _ | with_reducible apply State.keeps_ite | with_reducible apply State.keeps_ite₁ | with_reducible apply State.commandFrame_keeps | with_reducible apply State.setB_keeps | with_reducible apply storeBegin_keeps | split | dsimp only | fail_if_no_progress with_reducible refine State.keeps_lit ?_ rfl rfl rfl rfl rfl)

theorem execRdfifo_runs (f : StreamFrame) (s : State) : State.Ends s.Runs (execRdfifo f s) := by
  refine State.Ends.keepsRuns ?_
  have h := State.keeps_refl s
  unfold execRdfifo; try dsimp only
  repeat' (first | with_reducible assumption | with_reducible refine State.ends_next ?_ | with_reducible refine State.ends_ite ?_ ?_ | intro _ | with_reducible apply State.keeps_ite | with_reducible apply State.keeps_ite₁ | with_reducible apply State.frame_keeps | with_reducible apply State.refuseFrame_keeps | with_reducible apply fifoSlots_keeps | with_reducible apply State.answerFrame_keeps | split | dsimp only | fail_if_no_progress with_reducible refine State.keeps_lit ?_ rfl rfl rfl rfl rfl)

end Sys2Proof.Machine
end

