-- ==== Sys2Proof/Tests/Slice0.lean ====
section
/-! SUPPORT. The model's own tests, each one step on a small state, against the spec's examples and tables; an ill-formed term for each
check of WellFormed.lean; and for each statement of Certificates/Slice0/Obligations.lean states and operands that meet its hypotheses. -/

open Sys2Proof Sys2Proof.Machine

set_option Elab.async false

namespace Sys2Proof.Machine

/-! ### Small states -/

def State.mapPins (s : State) (g : Pins → Pins) : State :=
  { s with pins := g s.pins }

def State.mapPower (s : State) (g : PowerSt → PowerSt) : State :=
  { s with power := g s.power }

def State.mapClk (s : State) (g : ClockSt → ClockSt) : State :=
  { s with clk := g s.clk }

def State.mapInp (s : State) (g : InpSt → InpSt) : State :=
  { s with inp := g s.inp }

def State.mapSeq (s : State) (g : SeqSt → SeqSt) : State :=
  { s with seq := g s.seq }

def State.mapSup (s : State) (g : SupSt → SupSt) : State :=
  { s with sup := g s.sup }

def State.mapStream (s : State) (g : StreamSt → StreamSt) : State :=
  { s with stream := g s.stream }

def State.mapPort (s : State) (g : PortSt → PortSt) : State :=
  { s with port := g s.port }

def State.mapTxn (s : State) (g : TxnSt → TxnSt) : State :=
  { s with txn := g s.txn }

def State.mapRing (s : State) (g : RingSt → RingSt) : State :=
  { s with ring := g s.ring }

def State.mapOwl (s : State) (g : OwlSt → OwlSt) : State :=
  { s with owl := g s.owl }

def State.mapNvm (s : State) (g : NvmSt → NvmSt) : State :=
  { s with nvm := g s.nvm }

def State.mapUpd (s : State) (g : UpdSt → UpdSt) : State :=
  { s with upd := g s.upd }

def State.mapImg (s : State) (g : ImgSt → ImgSt) : State :=
  { s with img := g s.img }

def State.mapPh (s : State) (n : Fin 48) (g : PhaseSt → PhaseSt) : State :=
  { s with ph := s.ph.set n (g (s.ph.get n)) }

def State.mapCl (s : State) (n : Fin 16) (g : ClusterSt → ClusterSt) : State :=
  { s with cl := s.cl.set n (g (s.cl.get n)) }

def State.mapFd (s : State) (n : Fin 4) (g : FeedSt → FeedSt) : State :=
  { s with fd := s.fd.set n (g (s.fd.get n)) }

def State.mapBat (s : State) (n : Fin 6) (g : BatSt → BatSt) : State :=
  { s with bat := s.bat.set n (g (s.bat.get n)) }

def State.mapCh (s : State) (n : Fin 64) (g : ChSt → ChSt) : State :=
  { s with ch := s.ch.set n (g (s.ch.get n)) }

def State.mapLane (s : State) (n : Fin 4) (g : LaneSt → LaneSt) : State :=
  { s with lane := s.lane.set n (g (s.lane.get n)) }

def State.mapBus (s : State) (n : Fin 2) (g : BusSt → BusSt) : State :=
  { s with bus := s.bus.set n (g (s.bus.get n)) }

def State.mapThr (s : State) (n : Fin 4) (g : ThrSt → ThrSt) : State :=
  { s with thr := s.thr.set n (g (s.thr.get n)) }

def State.mapEb (s : State) (n : Fin 17) (g : EbSt → EbSt) : State :=
  { s with eb := s.eb.set n (g (s.eb.get n)) }

def State.inDev (s : State) (d : DevState) : State :=
  { s with dev := d }

def State.notDev (s : State) (d : DevState) : State :=
  if s.dev = d then { s with dev := .run } else s

end Sys2Proof.Machine

namespace Sys2Proof.Tests

/-- A running device: powered, out of reset, both ports awake. -/
def base : State :=
  let p : PowerSt :=
    { powered := true, v5Good := true, railsOk := true, rootLocked := true, vddioLatched := true, booted := true }
  ({ dev := .run, power := p } : State).setB F.HST_STAT_AWAKE 0 true

/-- The conditions in which both ports take part. -/
def hlive (s : State) : State :=
  let s := if s.dev = .boot then { s with dev := .standby } else s
  let s := { s with power := { s.power with heartbeatLost := false, dieHot := false } }
  (s.setF F.DEV_PWRSTAT_LSTAGE 0 0).setB F.HST_STAT_AWAKE 0 true

/-- The conditions in which a host write acts at once. -/
def hopen (s : State) : State :=
  let s := hlive s
  let s := if s.dev = .dormouse then { s with dev := .run } else s
  (s.setB F.IMG_BOOTSTAT_NOIMG 0 false).setF F.TXN_STATUS_STATE 0 0

/-! ### Tests against the spec's own examples and tables -/

/-- The state that an outcome answers. -/
def after (o : Host.Outcome State Fault Refusal) : State :=
  match o with
  | .next t => t
  | _ => State.reset

/-- R2, R9: DEV_ID reads 0x7648_0002 on revision B. -/
theorem test_dev_id : State.reset.reg 0x0000 = 0x76480002#32 := by decide +kernel

/-- R63: the CRC-32 of "123456789". -/
theorem test_crc32_check_value : crc32 [0x31, 0x32, 0x33, 0x34, 0x35, 0x36, 0x37, 0x38, 0x39] = 0xCBF43926#32 := by decide +kernel

/-- The worked example of R72: a host write to TM5, which the image lists for the sequencer with TM4, leaves 0x0008_0521 in
IMG_RESSTAT, and the timer as it was. -/
theorem test_refused_timer :
    let t := after (exec (.timerCtrlWrite .stream 5 1)
      { base with img := { base.img with own := [⟨2, 4, 2, false⟩, ⟨2, 5, 2, false⟩] } })
    t.reg 0x3306 = 0x00080521#32 ∧ t.f F.TM_CTRL_RUN 5 = 0 := by decide +kernel

/-- The worked example of R72: TM6, which the image does not list, is claimed for the host with owner 0x0E. -/
theorem test_free_timer :
    let t := after (exec (.timerCtrlWrite .stream 6 1) base)
    t.f F.TM_CTRL_RUN 6 = 1 ∧ t.owner 2 6 = 0x0E := by decide +kernel

/-- The worked example of R93: the pair of TM6 and TM7 at 0x0000_0003_FFFF_FFFE. -/
theorem test_read_before_a_carry :
    let t := after (exec (.linkedLowRead .stream (.timer 3))
      (((base.setF F.TM_CTRL_LINK 6 1).setReg 0x2A31 0xFFFFFFFE).setReg 0x2A39 3))
    t.port.sData = [0xFFFFFFFE#32] := by decide +kernel

/-- The worked example of R191: 64.0620 A is 0xEA00 in LINEAR11, which stands for 64 A. -/
theorem test_linear11_feed_current : linear11 (640620 / 10000) = 0xEA00 ∧ ofLinear11 0xEA00 = 64 := by decide +kernel

/-- The table of R191 at its borders: 1,023.5 takes the next exponent, and 0 and a value below 2^-17 are 0. -/
theorem test_linear11_borders : linear11 (10235 / 10) = 512 + 2048 ∧ linear11 1023 = 1023 ∧ linear11 0 = 0 ∧
    linear11 (1 / 131073) = 0 := by decide +kernel

/-- The worked example of R337: a write of 0x6666 to VOUT_COMMAND of CL2 begins a transition to code 32,000. -/
theorem test_vout_command :
    let s := { (base.setB F.PH_CFG_USED 7 true).setF F.PH_CFG_CLUSTER 7 2 with port := { base.port with page := 2 } }
    (after (exec (.voutCommand ⟨false, [0x66, 0x66], 0⟩) s)).f F.CL_VSET_S 2 = 32000 := by decide +kernel

/-- The worked example of R111: at SLOPE 69 the ramp stands at 4 steps after 16 cycles and at 67 after 250. -/
theorem test_ramp : rampSteps 69 16 = 4 ∧ rampSteps 69 250 = 67 := by decide +kernel

/-- R55: IDCODE is loaded in RUN, EXTEST is not and selects BYPASS. -/
theorem test_tap_in_run : (after (exec .idcode base)).tap.inst = .idcode ∧ (after (exec .extest base)).tap.inst = .bypass := by
  decide +kernel

/-- R38: a ball at 0 mV is level 0; the strap value weighs ADR1 by 4. -/
theorem test_strap : (State.reset.strapped ⟨none, [], 0, 0, 0, 0, 0⟩).f F.DEV_PWRSTAT_STRAP = 0 := by decide +kernel

/-- R31: RESTART in STANDBY begins BOOT with cause 3; in RUN it is refused. -/
theorem test_restart :
    (after (exec (.restart .stream key) { base with dev := .standby })).dev = .boot ∧
    (after (exec (.restart .stream key) { base with dev := .standby })).f F.DEV_PWRSTAT_BCAUSE = 3 ∧
    (after (exec (.restart .stream key) base)).dev = .run := by decide +kernel

/-- R18: a lost heartbeat forces SAFE from RUN, with every PEN low. -/
theorem test_heartbeat_loss :
    let t := after (exec .heartbeatLoss { base with pins := { base.pins with pen := 0x0011, pwrgd := true } })
    t.dev = .safe ∧ t.pins.pen = 0 ∧ t.pins.pwrgd = false := by decide +kernel

/-- R349: BEGIN opens a transaction with the next token, and a second BEGIN is refused with BUSY. -/
theorem test_begin_twice :
    let t := after (exec (.begin .stream) base)
    t.txnState = 1 ∧ (after (exec (.begin .stream) t)).f F.HST_REF1_CODE = 5 := by decide +kernel

/-- R7: a read-only register keeps its value under a write, which is no refusal. -/
theorem test_read_only_write :
    let t := after (exec (.registerWrite .stream 0x0000 0xFFFFFFFF) base)
    t.reg 0x0000 = 0x76480002#32 ∧ t.f F.HST_REF1_CODE = 0 := by decide +kernel

/-- R312: with K = 0, the residual 1 is coded as two one bits and a zero; the raw block takes 16 bits a sample. -/
theorem test_rice_codes : codeBlock 0 0 false [5, 6] = [true, true, false] ∧ (codeBlock 15 0 false [5, 6, 7]).length = 32 := by
  decide +kernel

/-- R319: a flush empties the FIFO at level 3. -/
theorem test_flush :
    let s := { base with img := { base.img with blevel := 3 }, stream := { base.stream with fifo := [(1, false), (2, true)] } }
    (after (exec (.flush .stream) s)).stream.fifo = [] := by decide +kernel

/-- R398: CANCEL of a pending activation; R31: the wrong key is refused and the activation stays. -/
theorem test_cancel :
    let s := { base with nvm := { base.nvm with boot := { base.nvm.boot with pend := some true } } }
    (after (exec (.cancel .stream key) s)).nvm.boot.pend = none ∧
    (after (exec (.cancel .stream 0) s)).nvm.boot.pend = some true := by decide +kernel

/-- Log entry 1: with an empty queue a step of a running block is a tick of TMR, and before the supply rises it is nothing. -/
theorem test_idle : (after (step base)).clk.tmr = base.clk.tmr + 1 ∧ after (step State.reset) = State.reset := by decide +kernel

/-- A step takes the command at the front and leaves the others waiting. -/
theorem test_queue : (after (step { base with pending := [.extest, .idcode] })).pending = [.idcode] := by decide +kernel

/-- The worked example of R183: GREL_3 becomes 32,761 and the nine others 32,769. -/
theorem test_ratio_step :
    let s := (List.range 10).foldl (fun (s : State) k =>
      (((s.setB F.PH_CFG_USED k true).setF F.PH_CFG_CLUSTER k 0).setF F.PH_CFG_ORDER k k).setF F.PH_CAL_GREL k 32768) base
    let s := (s.setF F.CL_RSCFG_RSAVG 0 3).setF F.CL_RSCFG_RSTOL 0 10 |>.setF F.CL_PHFAIL_SNSDEV 0 20
    let s := s.mapCl 0 (fun c => { c with rsRun := some ⟨3, 80, false, false⟩, rsDrop := some 3 })
    let t := after (exec (.ratioStepComplete 0 (3012 / 100) (21030 / 100) 1 (24036 / 100) (10002 / 10000)) s)
    t.f F.PH_CAL_GREL 3 = 32761 ∧ t.f F.PH_CAL_GREL 0 = 32769 ∧ t.f F.PH_CAL_GREL 9 = 32769 := by decide +kernel

/-- The worked example of R289: the loss of a phase at 40 A is 3.1486 W, and at 60 A 5.8478 W. -/
theorem test_phase_loss :
    let s := ((((base.setF F.CL_LOSS0_K0 0 50).setF F.CL_LOSS0_K1 0 10).setF F.CL_LOSS1_K2 0 100).setF F.CL_LOSS2_KS1 0 260).setF
      F.CL_LOSS2_KS0 0 87
    roundAway (s.phaseLoss 0 40 (67 / 1000) 80 12 * 10000) = 31486 ∧
    roundAway (s.phaseLoss 0 60 (67 / 1000) 80 12 * 10000) = 58478 := by decide +kernel

/-! ### An ill-formed term for each check of WellFormed.lean, which the check refuses -/

theorem smoke_write_clocks : (Instr.page ⟨false, [0], 1⟩).wellFormed = false := by decide
theorem smoke_write_frame_length : (Instr.wrreg ⟨0, 2, [0], 0, false⟩).wellFormed = false := by decide
theorem smoke_bare_frame : (Instr.rdreg ⟨0, 1, [0], 0, false⟩).wellFormed = false := by decide
theorem smoke_flipped_bit : (Instr.supervisorEvaluation ⟨true, [(0, 69)]⟩ ⟨true, []⟩ ⟨true, []⟩).wellFormed = false := by decide
theorem smoke_noise_twice : (Instr.updateVerifyComplete [(4, 0), (4, 1)]).wellFormed = false := by decide
theorem smoke_boot_noise_twice : (Instr.bootComplete ⟨none, [(4, 0), (4, 1)], 0, 0, 0, 0, 0⟩).wellFormed = false := by decide
theorem smoke_duty_above_one :
    (Instr.thermalModelStep [(0, 0, 2, 0)] (Vector.replicate 3 0)).wellFormed = false := by decide +kernel
theorem smoke_phase_twice :
    (Instr.thermalModelStep [(0, 0, 0, 0), (0, 0, 0, 0)] (Vector.replicate 3 0)).wellFormed = false := by decide +kernel
theorem smoke_block_too_long : (Instr.fieldBusTransactionDone 0 0 (List.replicate 33 0)).wellFormed = false := by decide +kernel
theorem smoke_too_many_cells : (Instr.samplePreload (List.replicate 116 0)).wellFormed = false := by decide +kernel
theorem smoke_known_code : (Instr.unsupportedCommand .twoWire 0x8B).wellFormed = false := by decide
theorem smoke_well_formed : (Instr.unsupportedCommand .twoWire 0x8A).wellFormed = true ∧
    (Instr.wrreg ⟨0, 1, [0], 0, false⟩).wellFormed = true := by decide

/-! ### What meets the hypotheses of each statement, clause by clause -/

theorem witness_supplyAndResetCommandsComplete :
    (∃ (s : State), s.power.powered = true ∧ s.power.vddioLatched = false ∧
        (s.power.v5Good && s.power.railsOk && s.power.rootLocked) = true ∧ s.power.resetLow = false ∧ s.power.booted = false) ∧
    (∃ (s : State), s.power.powered = true ∧ s.power.vddioLatched = false ∧ s.power.v5Good = false) ∧
    (∃ (s : State), s.power.powered = true) ∧
    (∃ (s : State), s.power.resetLow = true ∧ State.bootReady { s with power := { s.power with resetLow := false } } = true ∧
        s.power.booted = true) ∧
    (∃ (s : State), s.power.powered = true ∧ s.power.resetLow = false) ∧
    (∃ (s : State) (k : Fin 5), s.power.powered = true ∧ s.power.resetLow = false ∧ s.dev = .boot ∧ k < (4 : Fin 5)) ∧
    (∃ (s : State), State.bootReady { s with power := { s.power with v5Good := true } } = true ∧ 3 ≤ s.f F.DEV_PWRSTAT_LSTAGE ∧
        s.power.booted = true) ∧
    (∃ (s : State), s.power.powered = true ∧ s.power.v5Good = false ∧ s.power.railsOk = false ∧ s.power.vddioLatched = true ∧
        s.power.resetLow = false ∧ s.power.booted = true) :=
  ⟨⟨(let s := base; let s := s.mapPower (fun z' => { z' with powered := true });
      let s := s.mapPower (fun z' => { z' with vddioLatched := false });
      let s := s.mapPower (fun z' => { z' with resetLow := false }); let s := s.mapPower (fun z' => { z' with booted := false });
      s), by decide +kernel⟩,
   ⟨(let s := base; let s := s.mapPower (fun z' => { z' with powered := true });
       let s := s.mapPower (fun z' => { z' with vddioLatched := false });
       let s := s.mapPower (fun z' => { z' with v5Good := false }); s), by decide +kernel⟩,
   ⟨(let s := base; let s := s.mapPower (fun z' => { z' with powered := true }); s), by decide +kernel⟩,
   ⟨(let s := base; let s := s.mapPower (fun z' => { z' with resetLow := true });
       let s := s.mapPower (fun z' => { z' with booted := true }); s), by decide +kernel⟩,
   ⟨(let s := base; let s := s.mapPower (fun z' => { z' with powered := true });
       let s := s.mapPower (fun z' => { z' with resetLow := false }); s), by decide +kernel⟩,
   ⟨(let s := base; let s := s.mapPower (fun z' => { z' with powered := true });
       let s := s.mapPower (fun z' => { z' with resetLow := false }); let s := s.inDev .boot; s), 2, by decide +kernel⟩,
   ⟨(let s := base; let s := s.setF F.DEV_PWRSTAT_LSTAGE 0 4; let s := s.mapPower (fun z' => { z' with booted := true });
       s), by decide +kernel⟩,
   ⟨(let s := base; let s := s.mapPower (fun z' => { z' with powered := true });
       let s := s.mapPower (fun z' => { z' with v5Good := false }); let s := s.mapPower (fun z' => { z' with railsOk := false });
       let s := s.mapPower (fun z' => { z' with vddioLatched := true });
       let s := s.mapPower (fun z' => { z' with resetLow := false }); let s := s.mapPower (fun z' => { z' with booted := true });
       s), by decide +kernel⟩⟩

theorem witness_deviceCommandsAndWakesComplete :
    (∃ (s : State) (p : Port), s.hostOpen p ∧ s.dev = .standby ∧ s.nvmBusy = false) ∧
    (∃ (s : State) (p : Port), s.hostOpen p ∧ ((s.dev = .standby ∨ s.dev = .safe)) ∧ s.nvmBusy = false) ∧
    (∃ (s : State) (p : Port), s.hostOpen p ∧ s.dev = .standby ∧ s.nvmBusy = false ∧ s.shelf = false ∧
        s.fB F.INP_HOLDCAP_HSRC = false ∧ s.fB F.BAT_CFG_EN 0 = true) ∧
    (∃ (s : State) (p : Port), s.portLive p = true ∧ s.noImg = false ∧ s.dev = .dormouse) ∧
    (∃ (s : State), s.dev = .dormouse) ∧
    (∃ (s : State), s.dev ≠ .boot ∧ s.fB F.BAT_DMSTAT_DMHOLD = true) :=
  ⟨⟨(let s := base; let s := hopen s; let s := s.inDev .standby;
      let s := ((s.setB F.STORE_STAT_BUSY 0 false).setB F.IMG_OVLSTAT_MIGR_PEND 0 false).setF F.UPD_STAT_SESSION 0 0;
      s), Port.stream, by unfold State.hostOpen; decide +kernel⟩,
   ⟨(let s := base; let s := hopen s; let s := s.inDev .standby;
       let s := ((s.setB F.STORE_STAT_BUSY 0 false).setB F.IMG_OVLSTAT_MIGR_PEND 0 false).setF F.UPD_STAT_SESSION 0 0;
       s), Port.stream, by unfold State.hostOpen; decide +kernel⟩,
   ⟨(let s := base; let s := hopen s; let s := s.inDev .standby;
       let s := ((s.setB F.STORE_STAT_BUSY 0 false).setB F.IMG_OVLSTAT_MIGR_PEND 0 false).setF F.UPD_STAT_SESSION 0 0;
       let s := s.mapImg (fun c => { c with role := false }); let s := s.setB F.INP_HOLDCAP_HSRC 0 false;
       let s := s.setB F.BAT_CFG_EN 0 true; s), Port.stream, by unfold State.hostOpen; decide +kernel⟩,
   ⟨(let s := base; let s := hlive s; let s := s.setB F.IMG_BOOTSTAT_NOIMG 0 false; let s := s.inDev .dormouse;
       s), Port.stream, by decide +kernel⟩,
   ⟨(let s := base; let s := s.inDev .dormouse; s), by decide +kernel⟩,
   ⟨(let s := base; let s := s.notDev .boot; let s := s.setB F.BAT_DMSTAT_DMHOLD 0 true; s), by decide +kernel⟩⟩

theorem witness_pinAndWatchEventsComplete :
    (∃ (s : State) (lowMs : BitVec 16), s.pins.en = false ∧ s.fB F.DEV_ONOFF_CFG_EN_USE = true ∧ 1 ≤ lowMs.toNat ∧ s.dev ≠ .boot) ∧
    (∃ (s : State) (tctl : BitVec 16) (tsns : BitVec 16), s.power.powered = true ∧ s.power.resetLow = false ∧ s.dev ≠ .boot ∧
        tctl.toInt < 140 * 128 ∧ tsns.toInt < 140 * 128) ∧
    (∃ (s : State) (tctl : BitVec 16) (tsns : BitVec 16), s.power.powered = true ∧ s.power.resetLow = false ∧ s.dev ≠ .boot ∧
        ((140 * 128 ≤ tctl.toInt ∨ 140 * 128 ≤ tsns.toInt)) ∧ tctl.toInt < 150 * 128 ∧ tsns.toInt < 150 * 128 ∧
        s.power.dieHot = false) ∧
    (∃ (s : State) (tctl : BitVec 16) (tsns : BitVec 16), s.power.powered = true ∧ s.power.resetLow = false ∧
        ((150 * 128 ≤ tctl.toInt ∨ 150 * 128 ≤ tsns.toInt))) ∧
    (∃ (s : State), s.power.dieHot = true ∧ 1 ≤ s.f F.DEV_PWRSTAT_LSTAGE) ∧
    (∃ (s : State), s.power.dieHot = true ∧ s.f F.DEV_PWRSTAT_LSTAGE = 0) ∧
    (∃ (s : State), s.dev ≠ .safe) ∧
    (∃ (s : State), s.dev = .safe) ∧
    (∃ (s : State), s.power.powered = true ∧ s.power.resetLow = false) :=
  ⟨⟨(let s := base; let s := s.mapPins (fun z' => { z' with en := false }); let s := s.setB F.DEV_ONOFF_CFG_EN_USE 0 true;
      let s := s.notDev .boot; s), 0xF7F4#16, by decide +kernel⟩,
   ⟨(let s := base; let s := s.mapPower (fun z' => { z' with powered := true });
       let s := s.mapPower (fun z' => { z' with resetLow := false }); let s := s.notDev .boot;
       s), 0xF7F4#16, 0x0#16, by decide +kernel⟩,
   ⟨(let s := base; let s := s.mapPower (fun z' => { z' with powered := true });
       let s := s.mapPower (fun z' => { z' with resetLow := false }); let s := s.notDev .boot;
       let s := s.mapPower (fun z' => { z' with dieHot := false }); s), 0x4650#16, 0x0#16, by decide +kernel⟩,
   ⟨(let s := base; let s := s.mapPower (fun z' => { z' with powered := true });
       let s := s.mapPower (fun z' => { z' with resetLow := false }); s), 0x5AC9#16, 0xFFFF#16, by decide +kernel⟩,
   ⟨(let s := base; let s := s.mapPower (fun z' => { z' with dieHot := true }); let s := s.setF F.DEV_PWRSTAT_LSTAGE 0 2;
       s), by decide +kernel⟩,
   ⟨(let s := base; let s := s.mapPower (fun z' => { z' with dieHot := true }); let s := s.setF F.DEV_PWRSTAT_LSTAGE 0 0;
       s), by decide +kernel⟩,
   ⟨(let s := base; let s := s.notDev .safe; s), by decide +kernel⟩,
   ⟨(let s := base; let s := s.inDev .safe; s), by decide +kernel⟩,
   ⟨(let s := base; let s := s.mapPower (fun z' => { z' with powered := true });
       let s := s.mapPower (fun z' => { z' with resetLow := false }); s), by decide +kernel⟩⟩

theorem witness_rootReferenceEventsComplete :
    (∃ (s : State) (hi : BitVec 32) (lo : BitVec 32) (gap : BitVec 32) (ppm : Int), s.edgeOk hi.toNat lo.toNat gap.toNat = true ∧
        s.clk.qualified = true ∧ s.f F.CLK_STAT_SRC = 1 ∧ -10000 ≤ ppm ∧ ppm ≤ 10000) ∧
    (∃ (s : State) (hi : BitVec 32) (lo : BitVec 32) (gap : BitVec 32) (ppm : Int), s.edgeOk hi.toNat lo.toNat gap.toNat = true ∧
        s.clk.qualified = false ∧ s.clk.qualCount = 15 ∧ -10000 ≤ ppm ∧ ppm ≤ 10000) ∧
    (∃ (s : State) (hi : BitVec 32) (lo : BitVec 32) (gap : BitVec 32), s.edgeOk hi.toNat lo.toNat gap.toNat = false) ∧
    (∃ (s : State), s.clk.qualified = true ∧ 3 ≤ s.clk.missing ∧ s.f F.CLK_STAT_SRC = 1) ∧
    (∃ (s : State), s.clk.qualified = true ∧ s.clk.missing < 3) ∧
    (∃ (s : State), s.f F.CLK_STAT_SRC = 1 ∧ s.clk.steering = true) ∧
    (∃ (s : State) (count : BitVec 16), s.dev ≠ .boot ∧ 376 ≤ count.toNat ∧ count.toNat ≤ 424) ∧
    (∃ (s : State) (count : BitVec 16), s.dev ≠ .boot ∧ ((count.toNat < 376 ∨ 424 < count.toNat))) :=
  ⟨⟨(let s := base; let s := s.setF F.CLK_CFG_SYNC_NOM 0 1; let s := s.mapClk (fun z' => { z' with qualified := true });
      let s := s.setF F.CLK_STAT_SRC 0 1; s), 0x64#32, 0x3C#32, 0xF4240#32, 9, by decide +kernel⟩,
   ⟨(let s := base; let s := s.setF F.CLK_CFG_SYNC_NOM 0 1; let s := s.mapClk (fun z' => { z' with qualified := false });
       let s := s.mapClk (fun z' => { z' with qualCount := 15 }); s), 0x64#32, 0x3C#32, 0xF4240#32, 0, by decide +kernel⟩,
   ⟨base, 0x151AF7F4#32, 0x0#32, 0x0#32, by decide +kernel⟩,
   ⟨(let s := base; let s := s.mapClk (fun z' => { z' with qualified := true }); let s := s.setF F.CLK_STAT_SRC 0 1;
       let s := s.mapClk (fun c => { c with missing := 3 }); s), by decide +kernel⟩,
   ⟨(let s := base; let s := s.mapClk (fun z' => { z' with qualified := true }); s), by decide +kernel⟩,
   ⟨(let s := base; let s := s.setF F.CLK_STAT_SRC 0 1; let s := s.mapClk (fun z' => { z' with steering := true });
       s), by decide +kernel⟩,
   ⟨(let s := base; let s := s.notDev .boot; s), 0x18D#16, by decide +kernel⟩,
   ⟨(let s := base; let s := s.notDev .boot; s), 0xF7F4#16, by decide +kernel⟩⟩

theorem witness_timerWritesComplete :
    (∃ (s : State) (p : Port) (n : Fin 32) (v : Word), s.hostOpen p ∧ s.tmForeign n = false ∧ s.linked n = false ∧
        F.TM_CTRL_RELEASE.get v = 0 ∧ F.TM_CTRL_LINK.get v = 0) ∧
    (∃ (s : State) (p : Port) (n : Fin 32) (v : Word), s.hostOpen p ∧ ((∀ o ∈ s.img.own, ¬ (o.cls = 2 ∧ o.idx = n.val))) ∧
        s.linked n = false ∧ F.TM_CTRL_RELEASE.get v = 0 ∧ F.TM_CTRL_LINK.get v = 0) ∧
    (∃ (s : State) (p : Port) (n : Fin 32), s.hostOpen p ∧ s.tmForeign n = false ∧ s.linked n = false) ∧
    (∃ (s : State) (p : Port) (n : Fin 32), s.hostOpen p ∧ s.tmForeign n = false ∧ s.linked n = false) ∧
    (∃ (s : State) (p : Port) (n : Fin 32), s.hostOpen p ∧ s.tmForeign n = false ∧ s.tmForeign (timerMate n) = false ∧
        s.linkedHigh n = true) ∧
    (∃ (s : State) (p : Port) (n : Fin 32) (v : Word), s.hostOpen p ∧ s.tmForeign n = false ∧ s.linked n = false ∧
        (s.tmCount n + 2 ^ 32 - v.toNat) % 2 ^ 32 ≥ s.f F.TM_CTRL_LATEWIN n) ∧
    (∃ (s : State) (p : Port) (n : Fin 32) (v : Word), s.hostOpen p ∧ s.tmForeign n = false ∧ s.linked n = false ∧
        (s.tmCount n + 2 ^ 32 - v.toNat) % 2 ^ 32 < s.f F.TM_CTRL_LATEWIN n) ∧
    (∃ (s : State) (p : Port) (n : Fin 32) (v : Word), s.hostOpen p ∧ s.tmForeign n = false ∧ s.linked n = false ∧
        F.TM_ACT_ACTA.get v < 4 ∧ F.TM_ACT_ACTB.get v < 4) :=
  ⟨⟨(let s := base; let s := hopen s; s), Port.stream, 8, 0x0#32, by unfold State.hostOpen; decide +kernel⟩,
   ⟨(let s := base; let s := hopen s; s), Port.stream, 8, 0x0#32, by unfold State.hostOpen; decide +kernel⟩,
   ⟨(let s := base; let s := hopen s; s), Port.stream, 7, by unfold State.hostOpen; decide +kernel⟩,
   ⟨(let s := base; let s := hopen s; s), Port.stream, 9, by unfold State.hostOpen; decide +kernel⟩,
   ⟨(let s := base; let s := hopen s; let s := (s.setB F.TM_CTRL_LINK 0 true);
       s), Port.stream, 1, by unfold State.hostOpen; decide +kernel⟩,
   ⟨(let s := base; let s := hopen s; s), Port.stream, 9, 0xFFFFFFFF#32, by unfold State.hostOpen; decide +kernel⟩,
   ⟨(fun (n : Fin 32) => (let s := base; let s := hopen s; let s := s.setF F.TM_CTRL_LATEWIN n 65535;
       s)) 9, Port.stream, 9, 0xFFFFFFFF#32, by unfold State.hostOpen; decide +kernel⟩,
   ⟨(let s := base; let s := hopen s; s), Port.stream, 8, 0x0#32, by unfold State.hostOpen; decide +kernel⟩⟩

theorem witness_timerGlobalsMatchesAndLinkedReadsComplete :
    (∃ (s : State) (p : Port) (mask : Word), s.hostOpen p ∧ ((∀ n ∈ s.tmNamed mask, s.tmForeign n = false))) ∧
    (∃ (s : State) (p : Port) (mask : Word), s.hostOpen p ∧ ((∀ n ∈ s.tmNamed mask, s.tmForeign n = false))) ∧
    (∃ (s : State) (p : Port) (mask : Word), s.hostOpen p ∧ ((∀ n ∈ s.tmNamed mask, s.tmForeign n = false))) ∧
    (∃ (s : State) (n : Fin 32) (c : Cmp), s.linkedHigh n = false ∧ (s.tmAction n c).1 ≠ 0) ∧
    (∃ (s : State) (n : Fin 32), s.linkedHigh n = false ∧ (s.tmAction n .b).1 = 0) ∧
    (∃ (s : State) (n : Fin 32) (k : Fin 32), s.linkedHigh n = false ∧ s.linkedHigh k = false ∧ s.tmAction n .b = (6, k.val)) ∧
    (∃ (s : State) (n : Fin 32) (k : Fin 32), s.linkedHigh n = false ∧ s.linkedHigh k = false ∧ s.tmAction n .b = (7, k.val)) ∧
    (∃ (s : State) (n : Fin 32) (k : Fin 32), s.linkedHigh n = false ∧ s.linkedHigh k = false ∧ s.tmAction n .b = (8, k.val)) ∧
    (∃ (s : State) (p : Port) (c : Counter64), s.portLive p = true ∧ s.noImg = false ∧
        ((∀ k, c = .timer k → s.linked (Fin.ofNat 32 (2 * k.val)) = true))) ∧
    (∃ (s : State) (c : Counter64), ((∀ k, c = .timer k → s.linked (Fin.ofNat 32 (2 * k.val)) = true))) :=
  ⟨⟨(let s := base; let s := hopen s; s), Port.stream, 0xFFFFFFFF#32, by unfold State.hostOpen; decide +kernel⟩,
   ⟨(let s := base; let s := hopen s; s), Port.stream, 0xFFFFFFFF#32, by unfold State.hostOpen; decide +kernel⟩,
   ⟨(let s := base; let s := hopen s; s), Port.stream, 0xFFFFFFFF#32, by unfold State.hostOpen; decide +kernel⟩,
   ⟨(fun (n : Fin 32) => (let s := base; let s := s.setF F.TM_ACT_ACTA n 1; let s := s.setF F.TM_ACT_ACTB n 1;
       s)) 9, 9, Cmp.b, by decide +kernel⟩,
   ⟨base, 0, by decide +kernel⟩,
   ⟨(fun (n : Fin 32) (k : Fin 32) => (let s := base; let s := (s.setF F.TM_ACT_ACTB n 6).setF F.TM_ACT_TGTB n k.val;
       s)) 6 1, 6, 1, by decide +kernel⟩,
   ⟨(fun (n : Fin 32) (k : Fin 32) => (let s := base; let s := (s.setF F.TM_ACT_ACTB n 7).setF F.TM_ACT_TGTB n k.val;
       s)) 6 1, 6, 1, by decide +kernel⟩,
   ⟨(fun (n : Fin 32) (k : Fin 32) => (let s := base; let s := (s.setF F.TM_ACT_ACTB n 8).setF F.TM_ACT_TGTB n k.val;
       s)) 6 1, 6, 1, by decide +kernel⟩,
   ⟨(let s := base; let s := hlive s; let s := s.setB F.IMG_BOOTSTAT_NOIMG 0 false;
       s), Port.stream, Counter64.acc 6, by decide +kernel⟩,
   ⟨base, Counter64.acc 0, by decide +kernel⟩⟩

theorem witness_phaseEdgesComplete :
    (∃ (s : State) (p : Fin 48) (minOff : Bool), s.fB F.PH_STAT_ACTIVE p = true ∧ (s.ph.get p).foxHold = false ∧
        (s.ph.get p).out ≠ .high ∧ s.tooShort p = false ∧ ((minOff = true ∨ (s.ph.get p).minOffDone = true))) ∧
    (∃ (s : State) (p : Fin 48), s.fB F.PH_STAT_ACTIVE p = true ∧ (s.ph.get p).foxHold = false ∧ (s.ph.get p).out ≠ .high ∧
        s.tooShort p = false ∧ (s.ph.get p).minOffDone = false) ∧
    (∃ (s : State) (p : Fin 48), ((s.fB F.PH_STAT_ACTIVE p = false ∨ (s.ph.get p).foxHold = true ∨ (s.ph.get p).out = .high))) ∧
    (∃ (s : State) (p : Fin 48), (s.ph.get p).blanking = true) ∧
    (∃ (s : State) (p : Fin 48), (s.ph.get p).out = .high ∧ (s.ph.get p).blanking = false) ∧
    (∃ (s : State) (p : Fin 48) (n : Fin 16), (s.ph.get p).out = .high ∧ s.phCluster p = some n ∧ s.fB F.CL_FSW_DIRECT n = false) ∧
    (∃ (s : State) (p : Fin 48) (n : Fin 16), (s.ph.get p).out = .high ∧ s.phCluster p = some n ∧ s.fB F.CL_FSW_DIRECT n = true ∧
        s.demand n p < s.maxOn n) ∧
    (∃ (s : State) (p : Fin 48), (s.ph.get p).foxHold = true ∧ s.fB F.PH_STAT_FOXLAT p = false) :=
  ⟨⟨(fun (p : Fin 48) => (let s := base; let s := s.setB F.PH_STAT_ACTIVE p true;
      let s := s.mapPh p (fun z' => { z' with foxHold := false }); s)) 4, 4, true, by decide +kernel⟩,
   ⟨(fun (p : Fin 48) => (let s := base; let s := s.setB F.PH_STAT_ACTIVE p true;
       let s := s.mapPh p (fun z' => { z' with foxHold := false }); let s := s.mapPh p (fun z' => { z' with minOffDone := false });
       s)) 0, 0, by decide +kernel⟩,
   ⟨(fun (p : Fin 48) => (let s := base; let s := s.setB F.PH_STAT_ACTIVE p false; s)) 4, 4, by decide +kernel⟩,
   ⟨(fun (p : Fin 48) => (let s := base; let s := s.mapPh p (fun z' => { z' with blanking := true }); s)) 0, 0, by decide +kernel⟩,
   ⟨(fun (p : Fin 48) => (let s := base; let s := s.mapPh p (fun z' => { z' with out := .high });
       let s := s.mapPh p (fun z' => { z' with blanking := false }); s)) 0, 0, by decide +kernel⟩,
   ⟨(fun (p : Fin 48) (n : Fin 16) => (let s := base; let s := s.mapPh p (fun z' => { z' with out := .high });
       let s := (s.setB F.PH_CFG_USED p true).setF F.PH_CFG_CLUSTER p n; let s := s.setB F.CL_FSW_DIRECT n false;
       s)) 4 3, 4, 3, by decide +kernel⟩,
   ⟨(fun (p : Fin 48) (n : Fin 16) => (let s := base; let s := s.mapPh p (fun z' => { z' with out := .high });
       let s := (s.setB F.PH_CFG_USED p true).setF F.PH_CFG_CLUSTER p n; let s := s.setB F.CL_FSW_DIRECT n true;
       let s := s.setF F.CL_FSW_MAXON n 255; let s := s.setF F.CL_FSW_PERIOD n 4000; s)) 4 3, 4, 3, by decide +kernel⟩,
   ⟨(fun (p : Fin 48) => (let s := base; let s := s.mapPh p (fun z' => { z' with foxHold := true });
       let s := s.setB F.PH_STAT_FOXLAT p false; s)) 0, 0, by decide +kernel⟩⟩

theorem witness_phaseSenseAndFoxComplete :
    (∃ (s : State) (code : BitVec 12), code ≠ 0 ∧ code ≠ 4095) ∧
    (∃ (s : State) (p : Fin 48), s.fB F.PH_STAT_ACTIVE p = true) ∧
    (∃ (s : State) (p : Fin 48) (recent : BitVec 4) (n : Fin 16), s.phCluster p = some n ∧ s.fB F.PH_FOX_FOXMODE p = true ∧
        recent.toNat < s.f F.PH_FOX_FOXMAX p ∧ (s.cl.get n).run ≠ .checking) ∧
    (∃ (s : State) (p : Fin 48) (recent : BitVec 4), s.fB F.PH_CFG_USED p = true ∧
        ((s.fB F.PH_FOX_FOXMODE p = false ∨ s.f F.PH_FOX_FOXMAX p ≤ recent.toNat))) :=
  ⟨⟨base, 0x1#12, by decide +kernel⟩,
   ⟨(fun (p : Fin 48) => (let s := base; let s := s.setB F.PH_STAT_ACTIVE p true; s)) 0, 0, by decide +kernel⟩,
   ⟨(fun (p : Fin 48) (n : Fin 16) => (let s := base; let s := (s.setB F.PH_CFG_USED p true).setF F.PH_CFG_CLUSTER p n;
       let s := s.setB F.PH_FOX_FOXMODE p true; let s := s.setF F.PH_FOX_FOXMAX p 15; s)) 0 2, 0, 0x3#4, 2, by decide +kernel⟩,
   ⟨(fun (p : Fin 48) => (let s := base; let s := s.setB F.PH_CFG_USED p true; let s := s.setB F.PH_FOX_FOXMODE p false;
       s)) 4, 4, 0x0#4, by decide +kernel⟩⟩

theorem witness_clusterStartCommandsComplete :
    (∃ (s : State) (n : Fin 16), (s.cl.get n).ticking = true ∧ (s.cl.get n).run = .off) ∧
    (∃ (s : State) (n : Fin 16), (s.cl.get n).ticking = true ∧ (s.cl.get n).run = .on ∧ (s.cl.get n).rsRun = none ∧
        (s.cl.get n).rsDrop = none) ∧
    (∃ (s : State) (n : Fin 16), (s.cl.get n).ticking = true ∧ (s.cl.get n).run = .on ∧ (s.cl.get n).rsRun = none ∧
        (s.cl.get n).rsDrop = none ∧ s.f F.CL_PHSTAT_M n = Nat.min (s.cl.get n).mNext (s.nAv n) ∧ s.fB F.CL_FSW_INTLV n = false) ∧
    (∃ (s : State) (n : Fin 16), (s.cl.get n).run = .checking ∧ s.srcGood n = true) ∧
    (∃ (s : State) (n : Fin 16), (s.cl.get n).run = .checking) ∧
    (∃ (s : State) (n : Fin 16), (s.cl.get n).run = .delay ∧ (s.cl.get n).rsDrop = none) :=
  ⟨⟨(fun (n : Fin 16) => (let s := base; let s := s.mapCl n (fun z' => { z' with ticking := true });
      let s := s.mapCl n (fun z' => { z' with run := .off }); s)) 0, 0, by decide +kernel⟩,
   ⟨(fun (n : Fin 16) => (let s := base; let s := s.mapCl n (fun z' => { z' with ticking := true });
       let s := s.mapCl n (fun z' => { z' with run := .on }); let s := s.mapCl n (fun z' => { z' with rsRun := none });
       let s := s.mapCl n (fun z' => { z' with rsDrop := none }); s)) 0, 0, by decide +kernel⟩,
   ⟨(fun (n : Fin 16) => (let s := base; let s := s.mapCl n (fun z' => { z' with ticking := true });
       let s := s.mapCl n (fun z' => { z' with run := .on }); let s := s.mapCl n (fun z' => { z' with rsRun := none });
       let s := s.mapCl n (fun z' => { z' with rsDrop := none }); let s := s.setB F.CL_FSW_INTLV n false;
       s)) 0, 0, by decide +kernel⟩,
   ⟨(fun (n : Fin 16) => (let s := base; let s := s.mapCl n (fun z' => { z' with run := .checking }); s)) 4, 4, by decide +kernel⟩,
   ⟨(fun (n : Fin 16) => (let s := base; let s := s.mapCl n (fun z' => { z' with run := .checking }); s)) 5, 5, by decide +kernel⟩,
   ⟨(fun (n : Fin 16) => (let s := base; let s := s.mapCl n (fun z' => { z' with run := .delay });
       let s := s.mapCl n (fun z' => { z' with rsDrop := none }); s)) 4, 4, by decide +kernel⟩⟩

theorem witness_loopCommandsComplete :
    (∃ (s : State) (n : Fin 16), (s.cl.get n).ticking = true ∧ s.engineOk n = true ∧ (s.cl.get n).run = .off) ∧
    (∃ (s : State) (n : Fin 16), (s.cl.get n).ticking = true ∧ s.engineOk n = true ∧ (s.cl.get n).run = .on ∧
        s.f F.CL_VSET_S n = (s.cl.get n).sForce ∧ s.fB F.CL_VSTAT_TRANS n = false ∧ (s.cl.get n).lw = 0 ∧
        s.fB F.CL_INJ_EN n = false ∧ (s.cl.get n).noKick = false) ∧
    (∃ (s : State) (p : Port) (n : Fin 16) (v : BitVec 16), s.hostOpen p ∧
        State.checkChanged (s.hostStore (F.CL_VSET_S.addr n) (v.setWidth 32)) [F.CL_VSET_S.addr n] = none) ∧
    (∃ (s : State) (pin : Fin 4) (w : BitVec 16) (n : Fin 16), s.leadCluster pin = some n ∧ (s.cl.get n).run = .on ∧
        (s.cl.get n).suspMask.getLsbD pin = false ∧ (s.cl.get n).lw = 0 ∧ 4 ≤ w.toNat ∧ w.toNat < 60) ∧
    (∃ (s : State) (pin : Fin 4) (w : BitVec 16) (n : Fin 16), s.leadCluster pin = some n ∧ (s.cl.get n).run = .on ∧
        (s.cl.get n).suspMask.getLsbD pin = false ∧ 60 ≤ w.toNat) ∧
    (∃ (s : State) (p : Port), s.hostOpen p) ∧
    (∃ (s : State) (p : Port) (n : Fin 16) (v : Word), s.hostOpen p ∧ inRange (F.CL_INJ_EN.addr n) v = true ∧
        F.CL_INJ_EN.get v = 1 ∧ s.fB F.CL_INJ_EN n = false ∧ ((∀ o ∈ s.img.own, ¬ (o.cls = 4 ∧ o.idx = 2))) ∧ s.dev = .run ∧
        (s.cl.get n).run = .on ∧ s.fB F.CL_VSTAT_SSDONE n = true ∧ s.injRangeOk n v = true) ∧
    (∃ (s : State) (p : Port) (n : Fin 16) (v : Word), s.hostOpen p ∧ inRange (F.CL_INJ_EN.addr n) v = true ∧
        F.CL_INJ_EN.get v = 0 ∧ s.fB F.CL_INJ_EN n = false) :=
  ⟨⟨(fun (n : Fin 16) => (let s := base; let s := s.mapCl n (fun z' => { z' with ticking := true });
      let s := s.mapCl n (fun z' => { z' with run := .off }); s)) 3, 3, by decide +kernel⟩,
   ⟨(fun (n : Fin 16) => (let s := base; let s := s.mapCl n (fun z' => { z' with ticking := true });
       let s := s.mapCl n (fun z' => { z' with run := .on }); let s := s.setB F.CL_VSTAT_TRANS n false;
       let s := s.mapCl n (fun z' => { z' with lw := 0 }); let s := s.setB F.CL_INJ_EN n false;
       let s := s.mapCl n (fun z' => { z' with noKick := false }); s)) 3, 3, by decide +kernel⟩,
   ⟨(let s := base; let s := hopen s; s), Port.stream, 9, 0xFFFF#16, by unfold State.hostOpen; decide +kernel⟩,
   ⟨(fun (pin : Fin 4) (n : Fin 16) => (let s := base;
       let s := s.each clusters (fun s k => s.setFBit F.CL_LEAD_PINS k pin (k == n));
       let s := s.mapCl n (fun c => { c with suspMask := 0 }); let s := s.mapCl n (fun z' => { z' with run := .on });
       let s := s.mapCl n (fun z' => { z' with lw := 0 }); s)) 2 4, 2, 0x4#16, 4, by decide +kernel⟩,
   ⟨(fun (pin : Fin 4) (n : Fin 16) => (let s := base;
       let s := s.each clusters (fun s k => s.setFBit F.CL_LEAD_PINS k pin (k == n));
       let s := s.mapCl n (fun c => { c with suspMask := 0 }); let s := s.mapCl n (fun z' => { z' with run := .on });
       s)) 2 4, 2, 0x3C#16, 4, by decide +kernel⟩,
   ⟨(let s := base; let s := hopen s; s), Port.stream, by unfold State.hostOpen; decide +kernel⟩,
   ⟨(fun (n : Fin 16) => (let s := base; let s := hopen s; let s := s.setB F.CL_INJ_EN n false; let s := s.inDev .run;
       let s := s.mapCl n (fun z' => { z' with run := .on }); let s := s.setB F.CL_VSTAT_SSDONE n true;
       let s := s.setF F.CL_INJAMP_AMP n 10; s)) 9, Port.stream, 9, 0xCB#32, by unfold State.hostOpen; decide +kernel⟩,
   ⟨(fun (n : Fin 16) => (let s := base; let s := hopen s; let s := s.setB F.CL_INJ_EN n false;
       s)) 2, Port.stream, 2, 0x4C403AD6#32, by unfold State.hostOpen; decide +kernel⟩⟩

theorem witness_phaseGroupCommandsComplete :
    (∃ (s : State) (n : Fin 16), (s.cl.get n).run = .on ∧ s.fB F.CL_BAL_ROT n = false ∧ s.f F.CL_BAL_KBAL n ≠ 0 ∧
        s.fB F.CL_PHSTAT_HOLDALL n = false ∧ (s.cl.get n).balSkip = false ∧
        ((∀ p ∈ s.activePhases n, (s.ph.get p).pkBal = false))) ∧
    (∃ (s : State) (n : Fin 16), (s.cl.get n).olOver = 3 ∧
        100 * (s.f F.CL_OLSTAT_OLIMEFF n : Rat) < sumQ ((s.clPhases n).map (fun p => (s.ph.get p).iCal))) ∧
    (∃ (s : State) (n : Fin 16), (s.cl.get n).olUnder = 15 ∧
        sumQ ((s.clPhases n).map (fun p => (s.ph.get p).iCal)) < 95 / 100 * (100 * (s.f F.CL_OLSTAT_OLIMEFF n : Rat))) ∧
    (∃ (s : State) (n : Fin 16), s.fB F.CL_OLSTAT_CAPREQ n = true) ∧
    (∃ (s : State) (n : Fin 16) (k : Nat) (p : Fin 48), s.activePos n = [k] ∧ s.posPhase n k = some p ∧ (s.ph.get p).openRun = 2 ∧
        s.fBit F.CL_PHREM_REMMASK n k = false) ∧
    (∃ (s : State) (n : Fin 16) (cause : Fin 5) (slotBad : Bool) (fr : Frame) (old : Bool), s.f F.LE16_STAT_STATE = 0 ∧
        (s.cl.get n).leFailed = false ∧ cause < (2 : Fin 5) ∧ (s.cl.get n).pickFrame slotBad true = some (fr, old)) ∧
    (∃ (s : State) (n : Fin 16) (cause : Fin 5) (slotBad : Bool), s.f F.LE16_STAT_STATE = 0 ∧ (s.cl.get n).leFailed = false ∧
        cause < (2 : Fin 5) ∧ (s.cl.get n).pickFrame slotBad true = none) :=
  ⟨⟨(fun (n : Fin 16) => (let s := base; let s := s.mapCl n (fun z' => { z' with run := .on });
      let s := s.setB F.CL_BAL_ROT n false; let s := s.setF F.CL_BAL_KBAL n 1; let s := s.setB F.CL_PHSTAT_HOLDALL n false;
      let s := s.mapCl n (fun z' => { z' with balSkip := false }); s)) 0, 0, by decide +kernel⟩,
   ⟨(fun (n : Fin 16) => (let s := base; let s := s.mapCl n (fun z' => { z' with olOver := 3 });
       let s := s.setB F.PH_CFG_USED 7 true; let s := s.setF F.PH_CFG_CLUSTER 7 n;
       let s := s.mapPh 7 (fun c => { c with iCal := 5000 }); s)) 0, 0, by decide +kernel⟩,
   ⟨(fun (n : Fin 16) => (let s := base; let s := s.mapCl n (fun z' => { z' with olUnder := 15 });
       let s := s.setF F.CL_OLSTAT_OLIMEFF n 1000; s)) 0, 0, by decide +kernel⟩,
   ⟨(fun (n : Fin 16) => (let s := base; let s := s.setB F.CL_OLSTAT_CAPREQ n true; s)) 0, 0, by decide +kernel⟩,
   ⟨(fun (n : Fin 16) (k : Nat) (p : Fin 48) => (let s := base; let s := s.setF F.CL_PHSTAT_ACTMASK n (2 ^ k);
       let s := s.each phases (fun s q => s.setB F.PH_CFG_USED q (q == p)); let s := s.setF F.PH_CFG_CLUSTER p n;
       let s := s.setF F.PH_CFG_ORDER p k; let s := s.mapPh p (fun z' => { z' with openRun := 2 });
       let s := s.setFBit F.CL_PHREM_REMMASK n k false; s)) 6 0 0, 6, 0, 0, by decide +kernel⟩,
   ⟨(fun (n : Fin 16) (fr : Frame) => (let s := base; let s := s.mapCl n (fun c => { c with seqNo := 2, frameA := some fr });
       let s := s.setF F.LE16_STAT_STATE 0 0; let s := s.mapCl n (fun z' => { z' with leFailed := false });
       s)) 0 ({ words := [], passed := true }), 0, 0, false, { words := [], passed := true }, false, by decide +kernel⟩,
   ⟨(fun (n : Fin 16) => (let s := base; let s := s.setF F.LE16_STAT_STATE 0 0;
       let s := s.mapCl n (fun z' => { z' with leFailed := false }); s)) 9, 9, 1, true, by decide +kernel⟩⟩

theorem witness_precisionCommandsComplete :
    (∃ (s : State), s.dev ≠ .boot) ∧
    (∃ (s : State) (slot : Fin 6), s.dev ≠ .boot ∧ slot < (4 : Fin 6)) ∧
    (∃ (s : State), s.dev ≠ .boot) ∧
    (∃ (s : State), s.fB F.PREC_STAT_REFBAD = false) ∧
    (∃ (s : State) (p : Fin 48), (s.ph.get p).out = .mid ∧ (s.ph.get p).foxHold = false ∧ s.fB F.PREC_STAT_REFBAD = false) ∧
    (∃ (s : State) (n : Fin 16) (k : Nat) (p : Fin 48), s.rsAllowed n = true ∧ s.rsCandidate n = some k ∧ s.posPhase n k = some p ∧
        k ∈ s.activePos n ∧ (s.ipeak p : Rat) / 10 ≤ (s.ph.get p).iCal) ∧
    (∃ (s : State) (n : Fin 16) (a : Rat) (b0 : Rat) (u0 : Rat) (b1 : Rat) (u1 : Rat) (run : RsRun) (p : Fin 48), (s.cl.get n).rsRun = some run ∧
        (s.cl.get n).rsDrop.isSome = true ∧ run.abandoned = false ∧ s.posPhase n run.pos = some p ∧ b1 ≠ b0 ∧
        absQ (u1 - u0) ≤ (s.f F.CL_RSCFG_RSTOL n : Rat) / 10000 * absQ u0 ∧
        absQ (a / (b1 - b0) - 1) ≤ (s.f F.CL_PHFAIL_SNSDEV n : Rat) / 1000) ∧
    (∃ (s : State) (src : Fin 17), s.ebQualified src (s.ebMembers src) = true ∧ (s.eb.get src).theta = []) ∧
    (∃ (s : State), s.f F.DEV_PWRSTAT_LSTAGE < 4) :=
  ⟨⟨(let s := base; let s := s.notDev .boot; s), by decide +kernel⟩,
   ⟨(let s := base; let s := s.notDev .boot; s), 0, by decide +kernel⟩,
   ⟨(let s := base; let s := s.notDev .boot; s), by decide +kernel⟩,
   ⟨(let s := base; let s := s.setB F.PREC_STAT_REFBAD 0 false; s), by decide +kernel⟩,
   ⟨(fun (p : Fin 48) => (let s := base; let s := s.mapPh p (fun z' => { z' with out := .mid });
       let s := s.mapPh p (fun z' => { z' with foxHold := false }); let s := s.setB F.PREC_STAT_REFBAD 0 false;
       s)) 7, 7, by decide +kernel⟩,
   ⟨(fun (n : Fin 16) (k : Nat) (p : Fin 48) => (let s := base;
       let s := s.each phases (fun s q => s.setB F.PH_CFG_USED q (q == p)); let s := s.setF F.PH_CFG_CLUSTER p n;
       let s := s.setF F.PH_CFG_ORDER p k; let s := s.setF F.DEV_STATE_BLEVEL 0 3; let s := s.setB F.CL_TLCFG_RSEN n true;
       let s := s.setB F.CL_FSW_DIRECT n false; let s := s.inDev .run; let s := s.setB F.CL_VSTAT_TRANS n false;
       let s := s.setB F.CL_VSTAT_CAPACT n false; let s := s.setB F.CL_PHSTAT_HOLDALL n false; let s := s.setB F.CL_INJ_EN n false;
       let s := s.setF F.LE16_STAT_STATE 0 0; let s := s.setF F.CL_PHSTAT_M n 3; let s := s.setFBit F.CL_PHSTAT_ACTMASK n k true;
       let s := s.mapCl n (fun c => { c with run := .on, lw := 0, rsRun := none, rsAgain := some k });
       let s := s.mapPh p (fun c => { c with iCal := 5000000000 }); s)) 6 0 0, 6, 0, 0, by decide +kernel⟩,
   ⟨(fun (n : Fin 16) (run : RsRun) (p : Fin 48) (k : Nat) => (let s := base;
       let s := s.each phases (fun s q => s.setB F.PH_CFG_USED q (q == p)); let s := s.setF F.PH_CFG_CLUSTER p n;
       let s := s.setF F.PH_CFG_ORDER p k; let s := s.mapCl n (fun c => { c with rsRun := some run, rsDrop := some 1 });
       let s := s.mapCl n (fun z' => { z' with rsRun := some run });
       s)) 1 ({ pos := 2, frames := 0, again := true, abandoned := false }) 7 2, 1, 1000, -1, 0, 999, 0, { pos := 2, frames := 0, again := true, abandoned := false }, 7, by decide +kernel⟩,
   ⟨(fun (src : Fin 17) => (let s := base; let s := s.each (List.finRange 4) (fun s x => s.setF F.RG_CFG_CLMASK x 0);
       let s := s.setF F.RG_CFG_CLMASK 1 6; let s := s.setF F.RG_CFG_UPSRC 1 16; let s := s.inDev .run;
       let s := s.mapPins (fun c => { c with bchg := false }); let s := s.mapInp (fun c => { c with xfer := .idle });
       let s := s.setF F.INP_STAT_BSTAGE 0 0; let s := s.setB F.PREC_STAT_REFBAD 0 false;
       let s := s.mapCl 1 (fun c => { c with run := .on }); let s := s.mapCl 2 (fun c => { c with run := .on });
       let s := s.setB F.CL_VSTAT_SSDONE 1 true; let s := s.setB F.CL_VSTAT_SSDONE 2 true;
       let s := s.mapEb src (fun c => { c with theta := [] }); s)) 16, 16, by decide +kernel⟩,
   ⟨(let s := base; let s := s.setF F.DEV_PWRSTAT_LSTAGE 0 3; s), by decide +kernel⟩⟩

theorem witness_telemetryCommandsComplete :
    (∃ (s : State) (n : Fin 16), 2 ^ s.f F.CL_TLCFG_AVGK n ≤ (s.cl.get n).telV.2) ∧
    (∃ (s : State) (n : Fin 16), (s.cl.get n).telV.2 < 2 ^ s.f F.CL_TLCFG_AVGK n) ∧
    (∃ (s : State) (p : Fin 48) (n : Fin 16), s.phCluster p = some n ∧ 2 ^ s.f F.CL_TLCFG_AVGK n ≤ (s.ph.get p).telAcc.2) ∧
    (∃ (s : State) (f : Fin 4), 2 ^ s.f F.FEED_TCFG_AVGK f ≤ (s.fd.get f).tel.2.2.2) ∧
    (∃ (s : State), s.portLive .twoWire = true ∧ s.noImg = false) ∧
    (∃ (s : State), s.portLive .stream = true ∧ s.noImg = false) ∧
    (∃ (s : State) (p : Port), s.portLive p = true ∧ s.noImg = false) ∧
    (∃ (s : State) (p : Port), s.hostOpen p) ∧
    (∃ (s : State) (f : Fin 3), s.fB F.FEED_TCFG_AZEN f = true ∧ s.azQuiet f = true) ∧
    (∃ (s : State) (f : Fin 3) (k : Nat) (sum : Int), (s.fd.get (feed4 f)).azRun = some (k, sum) ∧ s.azQuiet f = true ∧ 16 ≤ k) :=
  ⟨⟨(fun (n : Fin 16) => (let s := base; let s := s.mapCl n (fun c => { c with telV := (48000, 1) }); s)) 0, 0, by decide +kernel⟩,
   ⟨base, 0, by decide +kernel⟩,
   ⟨(fun (p : Fin 48) (n : Fin 16) => (let s := base; let s := (s.setB F.PH_CFG_USED p true).setF F.PH_CFG_CLUSTER p n;
       let s := s.mapPh p (fun c => { c with telAcc := (900, 1) }); s)) 4 3, 4, 3, by decide +kernel⟩,
   ⟨(fun (f : Fin 4) => (let s := base; let s := s.mapFd f (fun c => { c with tel := (900, 800, 700, 1) });
       s)) 2, 2, by decide +kernel⟩,
   ⟨(let s := base; let s := hlive s; let s := s.setB F.IMG_BOOTSTAT_NOIMG 0 false; s), by decide +kernel⟩,
   ⟨(let s := base; let s := hlive s; let s := s.setB F.IMG_BOOTSTAT_NOIMG 0 false; s), by decide +kernel⟩,
   ⟨(let s := base; let s := hlive s; let s := s.setB F.IMG_BOOTSTAT_NOIMG 0 false; s), Port.stream, by decide +kernel⟩,
   ⟨(let s := base; let s := hopen s; s), Port.stream, by unfold State.hostOpen; decide +kernel⟩,
   ⟨(fun (f : Fin 3) => (let s := base; let s := s.setB F.FEED_TCFG_AZEN f true; s)) 0, 0, by decide +kernel⟩,
   ⟨(fun (f : Fin 3) (k : Nat) (sum : Int) => (let s := base;
       let s := s.mapFd (feed4 f) (fun c => { c with azRun := some (k, sum), gate := .off });
       let s := s.mapPins (fun c => { c with bchg := false }); s)) 2 16 0, 2, 16, 0, by decide +kernel⟩⟩

theorem witness_seatingAndQualificationComplete :
    (∃ (s : State), s.fB F.INP_SEAT_SEATOK = false ∧ s.dev = .boot) ∧
    (∃ (s : State), s.fB F.INP_SEAT_SEATOK = false ∧ s.dev ≠ .boot) ∧
    (∃ (s : State), s.fB F.INP_SEAT_SEATOK = true ∧ s.dev = .boot) ∧
    (∃ (s : State), s.fB F.INP_SEAT_SEATOK = true ∧ s.dev ≠ .boot ∧ s.shelf = false) ∧
    (∃ (s : State), s.inp.unseat = true) ∧
    (∃ (s : State) (f : Fin 3), s.gate f = .inrush) ∧
    (∃ (s : State), s.conducting.isSome = true) ∧
    (∃ (s : State) (f : Fin 3), s.fB F.FEED_CFG_EN f = true ∧ s.fB F.FEED_STAT_TRIPLAT f = false ∧ f < (2 : Fin 3)) ∧
    (∃ (s : State), s.fB F.FEED_CFG_EN 2 = true ∧ s.fB F.FEED_STAT_TRIPLAT 2 = false ∧ s.fB F.INP_HOLDCAP_HSRC = true) ∧
    (∃ (s : State) (f : Fin 3), s.gate f ≠ .conducting) :=
  ⟨⟨(let s := base; let s := s.setB F.INP_SEAT_SEATOK 0 false; let s := s.inDev .boot; s), by decide +kernel⟩,
   ⟨(let s := base; let s := s.setB F.INP_SEAT_SEATOK 0 false; let s := s.notDev .boot; s), by decide +kernel⟩,
   ⟨(let s := base; let s := s.setB F.INP_SEAT_SEATOK 0 true; let s := s.inDev .boot; s), by decide +kernel⟩,
   ⟨(let s := base; let s := s.setB F.INP_SEAT_SEATOK 0 true; let s := s.notDev .boot;
       let s := s.mapImg (fun c => { c with role := false }); s), by decide +kernel⟩,
   ⟨(let s := base; let s := s.mapInp (fun z' => { z' with unseat := true }); s), by decide +kernel⟩,
   ⟨(fun (f : Fin 3) => (let s := base; let s := s.setGate f .inrush; s)) 0, 0, by decide +kernel⟩,
   ⟨(let s := base; let s := s.setGate 0 .conducting; s), by decide +kernel⟩,
   ⟨(fun (f : Fin 3) => (let s := base; let s := s.setB F.FEED_CFG_EN f true; let s := s.setB F.FEED_STAT_TRIPLAT f false;
       s)) 0, 0, by decide +kernel⟩,
   ⟨(let s := base; let s := s.setB F.FEED_CFG_EN 2 true; let s := s.setB F.FEED_STAT_TRIPLAT 2 false;
       let s := s.setB F.INP_HOLDCAP_HSRC 0 true; s), by decide +kernel⟩,
   ⟨base, 0, by decide +kernel⟩⟩

theorem witness_feedTransfersComplete :
    (∃ (s : State) (f : Fin 3) (c : Fin 3), s.shelf = false ∧ s.inp.xfer = .idle ∧ s.f F.INP_PRIO_PIN = 3 ∧ s.feedOk f = true ∧
        s.conducting = some c ∧ s.standsHigher f c = true) ∧
    (∃ (s : State) (f : Fin 3), s.gate f = .conducting ∧ s.shelf = false ∧ s.inp.xfer = .idle) ∧
    (∃ (s : State) (f : Fin 3), s.gate f = .conducting ∧ s.shelf = false ∧ s.inp.xfer = .idle) ∧
    (∃ (s : State) (f : Fin 3), s.gate f = .conducting ∧ s.shelf = false ∧ s.inp.xfer = .idle) ∧
    (∃ (s : State) (f : Fin 3), s.inp.xfer = .waitOff ∧ s.leaving = some f) ∧
    (∃ (s : State) (f : Fin 3), s.inp.xfer = .deadTime ∧ s.selected s.inp.old = some f) ∧
    (∃ (s : State), s.inp.xfer = .deadTime ∧ s.selected s.inp.old = none ∧ s.inp.queuedTrig = none ∧ s.inp.queuedPin = none) ∧
    (∃ (s : State) (f : Fin 3), s.inp.xfer = .charging ∧ feeds3.find? (fun g => s.gate g == .charging) = some f ∧
        s.inp.queuedTrig = none ∧ s.inp.queuedPin = none) ∧
    (∃ (s : State) (f : Fin 3), s.inp.xfer = .waitOff ∧ s.leaving = some f) ∧
    (∃ (s : State) (p : Port), s.hostOpen p ∧ s.inp.xfer = .idle) ∧
    (∃ (s : State) (p : Port), s.hostOpen p ∧ s.inp.xfer ≠ .idle) :=
  ⟨⟨(fun (c : Fin 3) => (let s := base; let s := s.setF F.INP_PRIO_P0 0 1; let s := s.setF F.INP_PRIO_P1 0 2;
      let s := s.setF F.INP_PRIO_P2 0 0; let s := s.setB F.FEED_CFG_EN 1 true; let s := s.setB F.FEED_STAT_QUAL 1 true;
      let s := s.setB F.INP_SEAT_SEATOK 0 true; let s := s.setGate 0 .conducting; let s := s.setGate 1 .off;
      let s := s.mapImg (fun c => { c with role := false }); let s := s.mapInp (fun z' => { z' with xfer := .idle });
      let s := s.setF F.INP_PRIO_PIN 0 3; let s := s.setGate 2 .off; s)) 0, 1, 0, by decide +kernel⟩,
   ⟨(fun (f : Fin 3) => (let s := base; let s := s.setGate f .conducting; let s := s.mapImg (fun c => { c with role := false });
       let s := s.mapInp (fun z' => { z' with xfer := .idle }); s)) 0, 0, by decide +kernel⟩,
   ⟨(fun (f : Fin 3) => (let s := base; let s := s.setGate f .conducting; let s := s.mapImg (fun c => { c with role := false });
       let s := s.mapInp (fun z' => { z' with xfer := .idle }); s)) 0, 0, by decide +kernel⟩,
   ⟨(fun (f : Fin 3) => (let s := base; let s := s.setGate f .conducting; let s := s.mapImg (fun c => { c with role := false });
       let s := s.mapInp (fun z' => { z' with xfer := .idle }); s)) 0, 0, by decide +kernel⟩,
   ⟨(let s := base; let s := s.mapInp (fun z' => { z' with xfer := .waitOff }); let s := s.setGate 1 .discharging;
       s), 1, by decide +kernel⟩,
   ⟨(let s := base; let s := s.setF F.INP_PRIO_P0 0 1; let s := s.setF F.INP_PRIO_P1 0 2; let s := s.setF F.INP_PRIO_P2 0 0;
       let s := s.setB F.FEED_CFG_EN 1 true; let s := s.setB F.FEED_STAT_QUAL 1 true; let s := s.setB F.INP_SEAT_SEATOK 0 true;
       let s := s.setF F.INP_PRIO_PIN 0 3; let s := s.mapInp (fun c => { c with old := some 2 });
       let s := s.mapInp (fun z' => { z' with xfer := .deadTime }); s), 1, by decide +kernel⟩,
   ⟨(let s := base; let s := s.mapInp (fun z' => { z' with xfer := .deadTime });
       let s := s.mapInp (fun z' => { z' with queuedTrig := none }); let s := s.mapInp (fun z' => { z' with queuedPin := none });
       s), by decide +kernel⟩,
   ⟨(let s := base; let s := s.mapInp (fun z' => { z' with xfer := .charging });
       let s := s.mapInp (fun z' => { z' with queuedTrig := none }); let s := s.mapInp (fun z' => { z' with queuedPin := none });
       let s := s.setGate 1 .charging; s), 1, by decide +kernel⟩,
   ⟨(let s := base; let s := s.mapInp (fun z' => { z' with xfer := .waitOff }); let s := s.setGate 1 .discharging;
       s), 1, by decide +kernel⟩,
   ⟨(let s := base; let s := hopen s; let s := s.mapInp (fun z' => { z' with xfer := .idle });
       s), Port.stream, by unfold State.hostOpen; decide +kernel⟩,
   ⟨(let s := base; let s := hopen s; let s := s.mapInp (fun c => { c with xfer := .waitOff });
       s), Port.stream, by unfold State.hostOpen; decide +kernel⟩⟩

theorem witness_breakerCommandsComplete :
    (∃ (s : State) (f : Fin 3), s.gate f = .inrush) ∧
    (∃ (s : State) (f : Fin 3), s.fB F.FEED_STAT_INLIM f = true) ∧
    (∃ (s : State) (f : Fin 3), s.gate f ≠ .off) ∧
    (∃ (s : State) (f : Fin 3), s.inp.xfer = .waitOff ∧ s.leaving = some f) ∧
    (∃ (s : State) (p : Port), s.hostOpen p ∧ s.dev = .standby) ∧
    (∃ (s : State), s.fB F.INP_RETRY_RUNNING = true ∧ s.dev ≠ .boot) ∧
    (∃ (s : State), s.fB F.INP_RETRY_RUNNING = true ∧ s.f F.DEV_PWRSTAT_LSTAGE < 4) ∧
    (∃ (s : State) (f : Fin 3), s.gate f = .conducting) :=
  ⟨⟨(fun (f : Fin 3) => (let s := base; let s := s.setGate f .inrush; s)) 0, 0, by decide +kernel⟩,
   ⟨(fun (f : Fin 3) => (let s := base; let s := s.setB F.FEED_STAT_INLIM f true; s)) 0, 0, by decide +kernel⟩,
   ⟨(let s := base; let s := s.setGate 0 .conducting; s), 0, by decide +kernel⟩,
   ⟨(let s := base; let s := s.mapInp (fun z' => { z' with xfer := .waitOff }); let s := s.setGate 1 .discharging;
       s), 1, by decide +kernel⟩,
   ⟨(let s := base; let s := hopen s; let s := s.inDev .standby; s), Port.stream, by unfold State.hostOpen; decide +kernel⟩,
   ⟨(let s := base; let s := s.setB F.INP_RETRY_RUNNING 0 true; let s := s.notDev .boot; s), by decide +kernel⟩,
   ⟨(let s := base; let s := s.setB F.INP_RETRY_RUNNING 0 true; let s := s.setF F.DEV_PWRSTAT_LSTAGE 0 3; s), by decide +kernel⟩,
   ⟨(fun (f : Fin 3) => (let s := base; let s := s.setGate f .conducting; s)) 0, 0, by decide +kernel⟩⟩

theorem witness_ladderAndLeakCommandsComplete :
    (∃ (s : State) (k : Fin 5), s.shelf = false ∧ s.f F.INP_STAT_BSTAGE ≤ k.val) ∧
    (∃ (s : State), s.shelf = false ∧ s.f F.INP_STAT_BSTAGE = 0) ∧
    (∃ (s : State), 1 ≤ s.f F.INP_STAT_BSTAGE ∧ s.f F.INP_STAT_BSTAGE < 5) ∧
    (∃ (s : State), s.dev = .standby ∧ s.gateBusy = false) ∧
    (∃ (s : State), s.inp.leakBar = true) ∧
    (∃ (s : State), s.inp.leakBar = true ∧ s.dev ≠ .standby) :=
  ⟨⟨(let s := base; let s := s.mapImg (fun c => { c with role := false }); s), 4, by decide +kernel⟩,
   ⟨(let s := base; let s := s.mapImg (fun c => { c with role := false }); let s := s.setF F.INP_STAT_BSTAGE 0 0;
       s), by decide +kernel⟩,
   ⟨(let s := base; let s := s.setF F.INP_STAT_BSTAGE 0 2; let s := s.setF F.INP_STAT_BSTAGE 0 4; s), by decide +kernel⟩,
   ⟨(let s := base; let s := s.setGate 0 .off; let s := s.setGate 1 .off; let s := s.setGate 2 .off; let s := s.inDev .standby;
       s), by decide +kernel⟩,
   ⟨(let s := base; let s := s.mapInp (fun z' => { z' with leakBar := true }); s), by decide +kernel⟩,
   ⟨(let s := base; let s := s.mapInp (fun z' => { z' with leakBar := true }); let s := s.notDev .standby; s), by decide +kernel⟩⟩

set_option maxRecDepth 20000 in
theorem witness_batteryCommandsComplete :
    (∃ (s : State) (i : Fin 6), s.fB F.BAT_CFG_EN i = true ∧ s.dev ≠ .boot ∧ s.estSkip i = true) ∧
    (∃ (s : State) (i : Fin 6), s.fB F.BAT_CFG_EN i = true ∧ s.dev ≠ .boot ∧ s.estSkip i = false ∧
        (s.bat.get i).restorePend = false) ∧
    (∃ (s : State) (i : Fin 6) (code : BitVec 12), 40 ≤ code.toNat ∧ code.toNat ≤ 4000 ∧ s.fB F.BAT_STAT_THFLT i = false) ∧
    (∃ (s : State) (i : Fin 6) (code : BitVec 12), ((code.toNat < 40 ∨ 4000 < code.toNat)) ∧ (s.bat.get i).thBad = 2) ∧
    (∃ (s : State) (i : Fin 6) (di : Rat), s.fB F.BAT_STAT_RESTING i = false ∧ s.inp.xfer = .idle ∧ di ≠ 0 ∧
        (s.f F.BAT_STEP_ZSTEP i : Rat) ≤ absQ di * 10) ∧
    (∃ (s : State) (p : Port), s.hostOpen p) ∧
    (∃ (s : State) (p : Port) (i : Fin 6), s.hostOpen p ∧ i ≠ 0) ∧
    (∃ (s : State) (i : Fin 6), s.fB F.BAT_STAT_RESTING i = true) ∧
    (∃ (s : State), s.pins.ben = true ∧ s.benLevel = true ∧ s.shelf = false) ∧
    (∃ (s : State) (i : Fin 6), s.fB F.BAT_CFG_EN i = true) ∧
    (∃ (s : State) (p : Port), s.hostOpen p) ∧
    (∃ (s : State) (p : Port), s.hostOpen p) ∧
    (∃ (s : State) (p : Port) (i : Fin 6), s.hostOpen p ∧ s.restoreCode i = 0) ∧
    (∃ (s : State) (p : Port) (i : Fin 6), s.hostOpen p ∧ s.restoreCode i ≠ 0) :=
  ⟨⟨(fun (i : Fin 6) => (let s := base; let s := s.mapImg (fun c => { c with role := false });
      let s := s.mapPins (fun c => { c with bchg := false }); let s := s.mapBat 0 (fun c => { c with benLong := false });
      let s := s.mapBat i (fun c => { c with benLong := false }); let s := s.setGate 2 .off; let s := s.setB F.BAT_CFG_EN i true;
      let s := s.notDev .boot; s)) 0, 0, by decide +kernel⟩,
   ⟨(fun (i : Fin 6) => (let s := base; let s := s.setB F.BAT_CFG_EN i true; let s := s.notDev .boot;
       let s := s.mapBat i (fun z' => { z' with restorePend := false }); let s := s.setGate 2 .conducting;
       s)) 0, 0, by decide +kernel⟩,
   ⟨(fun (i : Fin 6) => (let s := base; let s := s.setB F.BAT_STAT_THFLT i false; s)) 5, 5, 0xEA6#12, by decide +kernel⟩,
   ⟨(fun (i : Fin 6) => (let s := base; let s := s.mapBat i (fun z' => { z' with thBad := 2 });
       s)) 0, 0, 0x0#12, by decide +kernel⟩,
   ⟨(fun (i : Fin 6) => (let s := base; let s := s.setB F.BAT_STAT_RESTING i false;
       let s := s.mapInp (fun z' => { z' with xfer := .idle }); s)) 3, 3, -37, by decide +kernel⟩,
   ⟨(let s := base; let s := hopen s; s), Port.stream, by unfold State.hostOpen; decide +kernel⟩,
   ⟨(let s := base; let s := hopen s; s), Port.stream, 3, by unfold State.hostOpen; decide +kernel⟩,
   ⟨(fun (i : Fin 6) => (let s := base; let s := s.setB F.BAT_STAT_RESTING i true; s)) 0, 0, by decide +kernel⟩,
   ⟨(let s := base; let s := s.setB F.INP_HOLDCAP_HSRC 0 false; let s := s.setB F.BAT_CFG_EN 0 true; let s := s.inDev .run;
       let s := s.setB F.INP_SEAT_SEATOK 0 true; let s := s.setB F.BAT_DMSTAT_DMHOLD 0 false;
       let s := s.setB F.BAT_STAT_UVLAT 0 false; let s := s.mapBat 0 (fun c => { c with hotLatch := false });
       let s := s.setB F.IMG_BOOTSTAT_NOIMG 0 false; let s := s.mapPins (fun z' => { z' with ben := true });
       let s := s.mapImg (fun c => { c with role := false }); s), by decide +kernel⟩,
   ⟨(fun (i : Fin 6) => (let s := base; let s := s.setB F.BAT_CFG_EN i true; s)) 0, 0, by decide +kernel⟩,
   ⟨(let s := base; let s := hopen s; s), Port.stream, by unfold State.hostOpen; decide +kernel⟩,
   ⟨(let s := base; let s := hopen s; s), Port.stream, by unfold State.hostOpen; decide +kernel⟩,
   ⟨{ base with regs := [(9728, 32768000#32), (9760, 1396851028#32), (9761, 1#32), (9775, 5000#32), (9791, 2040798333#32), (12801, 256#32)] }, Port.stream, 0, by unfold State.hostOpen; decide +kernel⟩,
   ⟨(let s := base; let s := hopen s; s), Port.stream, 0, by unfold State.hostOpen; decide +kernel⟩⟩

theorem witness_sequencerStepsComplete :
    (∃ (s : State) (inwin : BitVec 16) (below : BitVec 16) (pgin : BitVec 8), s.dev = .sequp ∧ s.seq.stepOpen = true ∧
        (s.sample inwin below pgin).upDone (s.f F.SEQ_STAT_STEP) = true ∧ s.fB F.SEQ_STAT_PENDOFF = false ∧
        s.f F.SEQ_STAT_STEP + 1 < s.f F.SEQ_CFG_NSTEP ∧ s.f F.SEQ_STAT_STEP < 31) ∧
    (∃ (s : State) (inwin : BitVec 16) (below : BitVec 16) (pgin : BitVec 8), s.dev = .sequp ∧ s.seq.stepOpen = true ∧
        (s.sample inwin below pgin).upDone (s.f F.SEQ_STAT_STEP) = true ∧ s.fB F.SEQ_STAT_PENDOFF = false ∧
        s.f F.SEQ_CFG_NSTEP ≤ s.f F.SEQ_STAT_STEP + 1) ∧
    (∃ (s : State) (inwin : BitVec 16) (below : BitVec 16) (pgin : BitVec 8), s.dev = .sequp ∧ s.seq.stepOpen = true ∧
        (s.sample inwin below pgin).upDone (s.f F.SEQ_STAT_STEP) = true ∧ s.fB F.SEQ_STAT_PENDOFF = true) ∧
    (∃ (s : State) (inwin : BitVec 16) (below : BitVec 16) (pgin : BitVec 8), s.dev = .seqdn ∧ s.seq.stepOpen = true ∧
        (s.sample inwin below pgin).downDone (s.f F.SEQ_STAT_STEP) = true ∧ 1 ≤ s.f F.SEQ_STAT_STEP ∧
        s.skipDown (s.f F.SEQ_STAT_STEP - 1) = false) ∧
    (∃ (s : State) (inwin : BitVec 16) (below : BitVec 16) (pgin : BitVec 8), s.dev = .seqdn ∧ s.seq.stepOpen = true ∧
        (s.sample inwin below pgin).downDone 0 = true ∧ s.f F.SEQ_STAT_STEP = 0 ∧ s.f F.SEQ_CFG_TOFFMIN ≠ 0) ∧
    (∃ (s : State) (inwin : BitVec 16) (below : BitVec 16) (pgin : BitVec 8) (k : Nat), s.seq.subStep = some k ∧
        (s.sample inwin below pgin).subDone k = true ∧ ((∀ j : Fin 32, s.inSubset j = false)) ∧ k ≤ 32) ∧
    (∃ (s : State), s.dev = .sequp ∧ s.seq.stepOpen = true ∧ s.f F.SEQ_STEP_OBJ (s.f F.SEQ_STAT_STEP) ≠ 5 ∧
        s.upDone (s.f F.SEQ_STAT_STEP) = false ∧ s.fB F.SEQ_STEP_TOACT (s.f F.SEQ_STAT_STEP) = true ∧
        s.fB F.SEQ_STAT_PENDOFF = false) ∧
    (∃ (s : State), s.dev = .sequp ∧ s.seq.stepOpen = true ∧ s.f F.SEQ_STEP_OBJ (s.f F.SEQ_STAT_STEP) ≠ 5 ∧
        s.upDone (s.f F.SEQ_STAT_STEP) = false ∧ s.fB F.SEQ_STEP_TOACT (s.f F.SEQ_STAT_STEP) = false ∧
        s.fB F.SEQ_STAT_PENDOFF = false ∧ s.f F.SEQ_STAT_STEP + 1 < s.f F.SEQ_CFG_NSTEP ∧ s.f F.SEQ_STAT_STEP < 31) ∧
    (∃ (s : State), s.dev = .seqdn ∧ s.seq.stepOpen = true ∧ s.f F.SEQ_STEP_OBJ (s.f F.SEQ_STAT_STEP) ≠ 5 ∧
        s.downDone (s.f F.SEQ_STAT_STEP) = false ∧ s.fB F.SEQ_STEP_TOACT (s.f F.SEQ_STAT_STEP) = true) ∧
    (∃ (s : State), s.dev = .seqdn ∧ s.seq.stepOpen = true ∧ s.f F.SEQ_STEP_OBJ (s.f F.SEQ_STAT_STEP) ≠ 5 ∧
        s.downDone (s.f F.SEQ_STAT_STEP) = false ∧ s.fB F.SEQ_STEP_TOACT (s.f F.SEQ_STAT_STEP) = false ∧ 1 ≤ s.f F.SEQ_STAT_STEP ∧
        s.skipDown (s.f F.SEQ_STAT_STEP - 1) = false) ∧
    (∃ (s : State) (k : Nat), s.seq.subStep = some k ∧ s.subDone k = false ∧ s.f F.SEQ_STEP_OBJ k ≠ 5 ∧
        s.fB F.SEQ_STEP_TOACT k = true) ∧
    (∃ (s : State) (p : Port), s.hostOpen p ∧ s.fB F.SEQ_STAT_HELD = true ∧ s.dev = .seqdn ∧ s.seq.subStep = none ∧
        1 ≤ s.f F.SEQ_STAT_STEP ∧ s.skipDown (s.f F.SEQ_STAT_STEP - 1) = false) ∧
    (∃ (s : State) (p : Port) (k : Nat), s.hostOpen p ∧ s.fB F.SEQ_STAT_HELD = true ∧ s.seq.subStep = some k ∧
        ((∀ j : Fin 32, s.inSubset j = false)) ∧ k ≤ 32) :=
  ⟨⟨(let s := base; let s := s.setF F.SEQ_STAT_STEP 0 5; let s := s.setF F.SEQ_CFG_NSTEP 0 12; let s := s.setF F.SEQ_STEP_OBJ 5 5;
      let s := s.inDev .sequp; let s := s.mapSeq (fun z' => { z' with stepOpen := true });
      let s := s.setB F.SEQ_STAT_PENDOFF 0 false; let s := s.setF F.SEQ_STAT_STEP 0 30; let s := s.setF F.SEQ_STAT_STEP 0 5;
      s), 0xF7F4#16, 0x0#16, 0x0#8, by decide +kernel⟩,
   ⟨(let s := base; let s := s.setF F.SEQ_STAT_STEP 0 11; let s := s.setF F.SEQ_CFG_NSTEP 0 12;
       let s := s.setF F.SEQ_STEP_OBJ 11 5; let s := s.inDev .sequp; let s := s.mapSeq (fun z' => { z' with stepOpen := true });
       let s := s.setB F.SEQ_STAT_PENDOFF 0 false; s), 0xF7F4#16, 0x0#16, 0x0#8, by decide +kernel⟩,
   ⟨(let s := base; let s := s.setF F.SEQ_STAT_STEP 0 5; let s := s.setF F.SEQ_CFG_NSTEP 0 12; let s := s.setF F.SEQ_STEP_OBJ 5 5;
       let s := s.inDev .sequp; let s := s.mapSeq (fun z' => { z' with stepOpen := true });
       let s := s.setB F.SEQ_STAT_PENDOFF 0 true; s), 0xF7F4#16, 0x0#16, 0x0#8, by decide +kernel⟩,
   ⟨(let s := base; let s := s.setF F.SEQ_STAT_STEP 0 5; let s := s.setF F.SEQ_CFG_NSTEP 0 12; let s := s.setF F.SEQ_STEP_OBJ 5 5;
       let s := s.setF F.SEQ_STEP_OBJ 4 1; let s := s.setB F.SEQ_STEP_UPONLY 4 false; let s := s.inDev .seqdn;
       let s := s.mapSeq (fun z' => { z' with stepOpen := true }); let s := s.setF F.SEQ_STAT_STEP 0 2;
       let s := s.setF F.SEQ_STAT_STEP 0 5; s), 0xF7F4#16, 0x0#16, 0x0#8, by decide +kernel⟩,
   ⟨(let s := base; let s := s.setF F.SEQ_STAT_STEP 0 0; let s := s.setF F.SEQ_STEP_OBJ 0 5; let s := s.inDev .seqdn;
       let s := s.mapSeq (fun z' => { z' with stepOpen := true }); let s := s.setF F.SEQ_STAT_STEP 0 0;
       let s := s.setF F.SEQ_CFG_TOFFMIN 0 1; s), 0xF7F4#16, 0x0#16, 0x0#8, by decide +kernel⟩,
   ⟨(fun (k : Nat) => (let s := base; let s := s.setF F.SEQ_STEP_OBJ k 5;
       let s := s.mapSeq (fun c => { c with subset := 0, subRg := 0 });
       let s := s.mapSeq (fun z' => { z' with subStep := some k }); s)) 9, 0xF7F4#16, 0x0#16, 0x0#8, 9, by decide +kernel⟩,
   ⟨(let s := base; let s := s.setF F.SEQ_STAT_STEP 0 5; let s := s.setF F.SEQ_CFG_NSTEP 0 12; let s := s.setF F.SEQ_STEP_OBJ 5 3;
       let s := s.setB F.SEQ_STEP_PGW 5 true; let s := s.setF F.SEQ_STEP_PGSEL 5 2; let s := s.setB F.SEQ_STEP_TOACT 5 true;
       let s := s.mapPins (fun c => { c with pgin := 0 }); let s := s.setF F.SEQ_STEP_OBJ 4 1;
       let s := s.setB F.SEQ_STEP_UPONLY 4 false; let s := s.inDev .sequp;
       let s := s.mapSeq (fun z' => { z' with stepOpen := true }); let s := s.setB F.SEQ_STEP_TOACT (s.f F.SEQ_STAT_STEP) true;
       let s := s.setB F.SEQ_STAT_PENDOFF 0 false; s), by decide +kernel⟩,
   ⟨(let s := base; let s := s.setF F.SEQ_STAT_STEP 0 5; let s := s.setF F.SEQ_CFG_NSTEP 0 12; let s := s.setF F.SEQ_STEP_OBJ 5 3;
       let s := s.setB F.SEQ_STEP_PGW 5 true; let s := s.setF F.SEQ_STEP_PGSEL 5 2; let s := s.setB F.SEQ_STEP_TOACT 5 false;
       let s := s.mapPins (fun c => { c with pgin := 0 }); let s := s.setF F.SEQ_STEP_OBJ 4 1;
       let s := s.setB F.SEQ_STEP_UPONLY 4 false; let s := s.inDev .sequp;
       let s := s.mapSeq (fun z' => { z' with stepOpen := true }); let s := s.setB F.SEQ_STEP_TOACT (s.f F.SEQ_STAT_STEP) false;
       let s := s.setB F.SEQ_STAT_PENDOFF 0 false; let s := s.setF F.SEQ_STAT_STEP 0 30; let s := s.setF F.SEQ_STAT_STEP 0 5;
       s), by decide +kernel⟩,
   ⟨(let s := base; let s := s.setF F.SEQ_STAT_STEP 0 5; let s := s.setF F.SEQ_CFG_NSTEP 0 12; let s := s.setF F.SEQ_STEP_OBJ 5 3;
       let s := s.setB F.SEQ_STEP_PGW 5 true; let s := s.setF F.SEQ_STEP_PGSEL 5 2; let s := s.setB F.SEQ_STEP_TOACT 5 true;
       let s := s.mapPins (fun c => { c with pgin := 255 }); let s := s.setF F.SEQ_STEP_OBJ 4 1;
       let s := s.setB F.SEQ_STEP_UPONLY 4 false; let s := s.inDev .seqdn;
       let s := s.mapSeq (fun z' => { z' with stepOpen := true }); let s := s.setB F.SEQ_STEP_TOACT (s.f F.SEQ_STAT_STEP) true;
       s), by decide +kernel⟩,
   ⟨(let s := base; let s := s.setF F.SEQ_STAT_STEP 0 5; let s := s.setF F.SEQ_CFG_NSTEP 0 12; let s := s.setF F.SEQ_STEP_OBJ 5 3;
       let s := s.setB F.SEQ_STEP_PGW 5 true; let s := s.setF F.SEQ_STEP_PGSEL 5 2; let s := s.setB F.SEQ_STEP_TOACT 5 false;
       let s := s.mapPins (fun c => { c with pgin := 255 }); let s := s.setF F.SEQ_STEP_OBJ 4 1;
       let s := s.setB F.SEQ_STEP_UPONLY 4 false; let s := s.inDev .seqdn;
       let s := s.mapSeq (fun z' => { z' with stepOpen := true }); let s := s.setB F.SEQ_STEP_TOACT (s.f F.SEQ_STAT_STEP) false;
       let s := s.setF F.SEQ_STAT_STEP 0 2; let s := s.setF F.SEQ_STAT_STEP 0 5; s), by decide +kernel⟩,
   ⟨(fun (k : Nat) => (let s := base; let s := s.setF F.SEQ_STAT_STEP 0 5; let s := s.setF F.SEQ_CFG_NSTEP 0 12;
       let s := s.setF F.SEQ_STEP_OBJ 5 3; let s := s.setB F.SEQ_STEP_PGW 5 true; let s := s.setF F.SEQ_STEP_PGSEL 5 2;
       let s := s.setB F.SEQ_STEP_TOACT 5 true; let s := s.mapPins (fun c => { c with pgin := 255 });
       let s := s.mapSeq (fun z' => { z' with subStep := some k }); let s := s.setB F.SEQ_STEP_TOACT k true;
       s)) 5, 5, by decide +kernel⟩,
   ⟨(let s := base; let s := s.setF F.SEQ_STAT_STEP 0 5; let s := s.setF F.SEQ_STEP_OBJ 4 1;
       let s := s.setB F.SEQ_STEP_UPONLY 4 false; let s := hopen s; let s := s.setB F.SEQ_STAT_HELD 0 true;
       let s := s.inDev .seqdn; let s := s.mapSeq (fun z' => { z' with subStep := none }); let s := s.setF F.SEQ_STAT_STEP 0 2;
       let s := s.setF F.SEQ_STAT_STEP 0 5; s), Port.stream, by unfold State.hostOpen; decide +kernel⟩,
   ⟨(fun (k : Nat) => (let s := base; let s := s.mapSeq (fun c => { c with subset := 0, subRg := 0 }); let s := hopen s;
       let s := s.setB F.SEQ_STAT_HELD 0 true; let s := s.mapSeq (fun z' => { z' with subStep := some k });
       s)) 0, Port.stream, 0, by unfold State.hostOpen; decide +kernel⟩⟩

theorem witness_windowsRestartsAndSysfltComplete :
    (∃ (s : State) (n : Fin 16), (s.cl.get n).run = .on ∧ s.fB F.CL_WSTAT_BLANKED n = false ∧ s.srcBit (Src.clUv n) = false) ∧
    (∃ (s : State) (n : Fin 16), s.pins.pen.getLsbD n = true ∧ s.fB F.CL_WSTAT_BLANKED n = false ∧ s.srcBit (Src.clOv n) = false) ∧
    (∃ (s : State) (n : Fin 16), s.pins.pen.getLsbD n = true ∧ s.srcBit (Src.clFov n) = false) ∧
    (∃ (s : State) (n : Fin 16), (s.cl.get n).blankM = true) ∧
    (∃ (s : State), s.dev = .run ∧ s.seq.pwrgdWait = true ∧
        ((∀ n : Fin 16, s.fBit F.SEQ_CFG_PGMASK 0 n = true → (s.cl.get n).run ≠ .off ∧ s.fB F.CL_WSTAT_INWIN n = true))) ∧
    (∃ (s : State), s.fB F.SEQ_STAT_OFFLAT = true ∧ s.dev ≠ .standby) ∧
    (∃ (s : State), s.fB F.SEQ_STAT_OFFLAT = true ∧ s.dev = .standby ∧ s.fB F.DEV_STATE_ONREQ = true ∧
        (s.setB F.SEQ_STAT_OFFLAT 0 false).startBarred = false) ∧
    (∃ (s : State) (n : Fin 16), (s.cl.get n).run = .softStart ∧ s.fB F.CL_SEQC_SSRETRY n = false) ∧
    (∃ (s : State) (n : Fin 16), (s.cl.get n).run = .softStart ∧ s.fB F.CL_SEQC_SSRETRY n = true ∧
        s.f F.CL_WSTAT_HICCNT n + 1 < s.f F.CL_SEQC_HICN n ∧ s.f F.CL_WSTAT_HICCNT n + 1 < 2 ^ F.CL_WSTAT_HICCNT.w) ∧
    (∃ (s : State) (n : Fin 16), (s.cl.get n).hicWait = true ∧ (s.dev = .run ∨ s.dev = .sequp) ∧ s.nAv n ≠ 0 ∧
        ((∀ p : Fin 48, (s.ph.get p).laneFail = false))) ∧
    (∃ (s : State), s.dev ≠ .boot ∧ s.fB F.SEQ_STAT_SFDRV = false) ∧
    (∃ (s : State), s.fB F.SEQ_STAT_SFDRV = true) ∧
    (∃ (s : State), s.fB F.SEQ_STAT_SFDRV = true ∧ s.dev ≠ .standby) ∧
    (∃ (s : State), s.dev ≠ .boot ∧ s.fB F.SEQ_STAT_SFLOW = true) ∧
    (∃ (s : State), s.fB F.SEQ_STAT_SFDRV = false ∧ s.dev ≠ .standby) ∧
    (∃ (s : State), s.fB F.SEQ_STAT_SFDRV = true) ∧
    (∃ (s : State) (p : Port), s.hostOpen p ∧ (s.dev = .standby ∨ s.dev = .run)) :=
  ⟨⟨(fun (n : Fin 16) => (let s := base; let s := s.mapCl n (fun z' => { z' with run := .on });
      let s := s.setB F.CL_WSTAT_BLANKED n false; s)) 0, 0, by decide +kernel⟩,
   ⟨(fun (n : Fin 16) => (let s := base; let s := s.setB F.CL_WSTAT_BLANKED n false;
       let s := s.mapPins (fun c => { c with pen := 0xFFFF }); s)) 0, 0, by decide +kernel⟩,
   ⟨(let s := base; let s := s.mapPins (fun c => { c with pen := 0xFFFF }); s), 0, by decide +kernel⟩,
   ⟨(fun (n : Fin 16) => (let s := base; let s := s.mapCl n (fun z' => { z' with blankM := true }); s)) 0, 0, by decide +kernel⟩,
   ⟨(let s := base; let s := s.each clusters (fun s k => s.setB F.CL_WSTAT_INWIN k true);
       let s := s.each clusters (fun s k => s.mapCl k (fun c => { c with run := .on })); let s := s.inDev .run;
       let s := s.mapSeq (fun z' => { z' with pwrgdWait := true }); s), by decide +kernel⟩,
   ⟨(let s := base; let s := s.setB F.SEQ_STAT_OFFLAT 0 true; let s := s.notDev .standby; s), by decide +kernel⟩,
   ⟨(let s := base; let s := s.each (List.finRange 3) (fun s (k : Fin 3) => s.setB F.FEED_STAT_TRIPLAT k false);
       let s := s.setB F.INP_STAT_B5LAT 0 false; let s := s.setB F.SEQ_STAT_UPFAIL 0 false;
       let s := s.setB F.SEQ_SF_SFSTART 0 false; let s := s.setB F.BAT_DMSTAT_DMHOLD 0 false;
       let s := s.mapInp (fun c => { c with leakBar := false }); let s := s.setB F.SEQ_STAT_OFFLAT 0 true;
       let s := s.inDev .standby; let s := s.setB F.DEV_STATE_ONREQ 0 true; s), by decide +kernel⟩,
   ⟨(fun (n : Fin 16) => (let s := base; let s := s.mapCl n (fun z' => { z' with run := .softStart });
       let s := s.setB F.CL_SEQC_SSRETRY n false; s)) 4, 4, by decide +kernel⟩,
   ⟨(fun (n : Fin 16) => (let s := base; let s := s.setF F.CL_WSTAT_HICCNT n 2; let s := s.setF F.CL_SEQC_HICN n 5;
       let s := s.mapCl n (fun z' => { z' with run := .softStart }); let s := s.setB F.CL_SEQC_SSRETRY n true;
       s)) 4, 4, by decide +kernel⟩,
   ⟨(fun (n : Fin 16) => (let s := base; let s := s.each phases (fun s k => s.mapPh k (fun c => { c with laneFail := false }));
       let s := s.setB F.PH_CFG_USED 7 true; let s := s.setF F.PH_CFG_CLUSTER 7 n; let s := s.setF F.CL_PHREM_REMMASK n 0;
       let s := s.setPhShed 7 false; let s := s.mapCl n (fun z' => { z' with hicWait := true }); let s := s.inDev .run;
       s)) 0, 0, by decide +kernel⟩,
   ⟨(let s := base; let s := s.notDev .boot; let s := s.setB F.SEQ_STAT_SFDRV 0 false; s), by decide +kernel⟩,
   ⟨(let s := base; let s := s.setB F.SEQ_STAT_SFDRV 0 true; s), by decide +kernel⟩,
   ⟨(let s := base; let s := s.setB F.SEQ_STAT_SFDRV 0 true; let s := s.notDev .standby; s), by decide +kernel⟩,
   ⟨(let s := base; let s := s.notDev .boot; let s := s.setB F.SEQ_STAT_SFLOW 0 true; s), by decide +kernel⟩,
   ⟨(let s := base; let s := s.setB F.SEQ_STAT_SFDRV 0 false; let s := s.notDev .standby; s), by decide +kernel⟩,
   ⟨(let s := base; let s := s.setB F.SEQ_STAT_SFDRV 0 true; s), by decide +kernel⟩,
   ⟨(let s := base; let s := hopen s; let s := s.inDev .standby; s), Port.stream, by unfold State.hostOpen; decide +kernel⟩⟩

theorem witness_supervisorCommandsComplete :
    (∃ (s : State), s.sup.frames ≠ [] ∧ (s.sup.frames.filter (·.valid)).length ≤ 1) ∧
    (∃ (s : State) (f : VoteFrame) (g : VoteFrame), s.sup.frames = [f, g] ∧ f.valid = true ∧ g.valid = true ∧
        (f.acts ≠ g.acts ∨ f.dec ≠ g.dec) ∧ s.fB F.SUPV_STAT_MODE2 = true) ∧
    (∃ (s : State) (f : VoteFrame) (g : VoteFrame), s.sup.frames = [f, g] ∧ f.valid = true ∧ g.valid = true ∧ f.acts = g.acts ∧
        f.acts.get 4 ≠ 0) ∧
    (∃ (s : State) (r : Raise) (d : BitVec 9), s.sup.frames = [⟨0, true, noActs, d⟩, ⟨1, true, noActs, d⟩, ⟨2, true, noActs, d⟩] ∧
        s.sup.pend = [r] ∧ heldSource r.src = false ∧ s.actions r.src = 1 ∧ s.fB F.SUPV_STAT_MODE2 = false ∧
        s.owl.staging.length < 256 ∧ r.src < 0x2D6) ∧
    (∃ (s : State) (f : VoteFrame) (g : VoteFrame) (r : Raise), s.sup.frames = [f, g] ∧ f.valid = true ∧ g.valid = true ∧
        s.sup.pend = [r] ∧ s.actions r.src &&& 0xF8 ≠ 0 ∧ s.fB F.SUPV_STAT_FFOPEN = false ∧ r.src < 0x2D6 ∧ r.st < 8) ∧
    (∃ (s : State), s.dev ≠ .boot ∧ s.dev ≠ .safe) ∧
    (∃ (s : State), s.dev ≠ .boot) ∧
    (∃ (s : State) (p : Port), s.hostOpen p ∧ s.fB F.SUPV_STAT_FFOPEN = true ∧ s.evalHdone.fB F.SUPV_STAT_HDONE = true) ∧
    (∃ (s : State) (p : Port), s.hostOpen p ∧ s.dev ≠ .safe ∧ s.dev ≠ .boot) :=
  ⟨⟨(let s := base; let s := s.mapSup (fun c => { c with frames := [⟨0,true,noActs,0⟩,⟨1,false,noActs,0⟩] });
      s), by decide +kernel⟩,
   ⟨(fun (f : VoteFrame) (g : VoteFrame) => (let s := base; let s := s.mapSup (fun z' => { z' with frames := [f, g] });
       let s := s.setB F.SUPV_STAT_MODE2 0 true;
       s)) ({ chan := 0, valid := true, acts := #v[0x0#69, 0x0#69, 0x789#69, 0x1DBA3191FA4C76895#69, 0x2#69, 0x0#69], dec := 0x100#9 }) ({ chan := 1, valid := true, acts := #v[0x0#69, 0x1FFFFFFFFFFFFFFFFF#69, 0x0#69, 0x100000000000000#69, 0x1FFFFFFFFFFFFFFFFF#69, 0x1FFFFFFFFFFFFFFFFF#69], dec := 0x195#9 }), { chan := 0, valid := true, acts := #v[0x0#69, 0x0#69, 0x789#69, 0x1DBA3191FA4C76895#69, 0x2#69, 0x0#69], dec := 0x100#9 }, { chan := 1, valid := true, acts := #v[0x0#69, 0x1FFFFFFFFFFFFFFFFF#69, 0x0#69, 0x100000000000000#69, 0x1FFFFFFFFFFFFFFFFF#69, 0x1FFFFFFFFFFFFFFFFF#69], dec := 0x195#9 }, by decide +kernel⟩,
   ⟨(fun (f : VoteFrame) (g : VoteFrame) => (let s := base; let s := s.mapSup (fun z' => { z' with frames := [f, g] });
       s)) ({ chan := 0, valid := true, acts := #v[0x0#69, 0x0#69, 0x789#69, 0x1DBA3191FA4C76895#69, 0x3#69, 0x0#69], dec := 0x100#9 }) ({ chan := 1, valid := true, acts := #v[0x0#69, 0x0#69, 0x789#69, 0x1DBA3191FA4C76895#69, 0x3#69, 0x0#69], dec := 0x100#9 }), { chan := 0, valid := true, acts := #v[0x0#69, 0x0#69, 0x789#69, 0x1DBA3191FA4C76895#69, 0x3#69, 0x0#69], dec := 0x100#9 }, { chan := 1, valid := true, acts := #v[0x0#69, 0x0#69, 0x789#69, 0x1DBA3191FA4C76895#69, 0x3#69, 0x0#69], dec := 0x100#9 }, by decide +kernel⟩,
   ⟨(fun (r : Raise) (d : BitVec 9) => (let s := base; let s := s.setReg (0x5800 + r.src) 1;
       let s := s.mapSup (fun z' => { z' with frames := [⟨0, true, noActs, d⟩, ⟨1, true, noActs, d⟩, ⟨2, true, noActs, d⟩] });
       let s := s.mapSup (fun z' => { z' with pend := [r] }); let s := s.setB F.SUPV_STAT_MODE2 0 false;
       let s := s.mapOwl (fun c => { c with staging := [] });
       s)) ({ src := 430, st := 0, ms := 0x79A9A6D80D10#48, us := 2 }) 0x0#9, { src := 430, st := 0, ms := 0x79A9A6D80D10#48, us := 2 }, 0x0#9, by decide +kernel⟩,
   ⟨(fun (f : VoteFrame) (g : VoteFrame) (r : Raise) => (let s := base; let s := s.setReg (0x5800 + r.src) 0xF0;
       let s := s.mapSup (fun z' => { z' with frames := [f, g] }); let s := s.mapSup (fun z' => { z' with pend := [r] });
       let s := s.setB F.SUPV_STAT_FFOPEN 0 false;
       s)) ({ chan := 0, valid := true, acts := #v[0x0#69, 0x20#69, 0x1414588FC8E7AD909B#69, 0x3F2#69, 0x5#69, 0x7#69], dec := 0x3#9 }) ({ chan := 1, valid := true, acts := #v[0x0#69, 0x20#69, 0x1414588FC8E7AD909B#69, 0x3F2#69, 0x5#69, 0x7#69], dec := 0x3#9 }) ({ src := 0, st := 5, ms := 0xCBF5A132DA9#48, us := 0 }), { chan := 0, valid := true, acts := #v[0x0#69, 0x20#69, 0x1414588FC8E7AD909B#69, 0x3F2#69, 0x5#69, 0x7#69], dec := 0x3#9 }, { chan := 1, valid := true, acts := #v[0x0#69, 0x20#69, 0x1414588FC8E7AD909B#69, 0x3F2#69, 0x5#69, 0x7#69], dec := 0x3#9 }, { src := 0, st := 5, ms := 0xCBF5A132DA9#48, us := 0 }, by decide +kernel⟩,
   ⟨(let s := base; let s := s.notDev .boot; let s := s.notDev .safe; s), by decide +kernel⟩,
   ⟨(let s := base; let s := s.notDev .boot; s), by decide +kernel⟩,
   ⟨(let s := base; let s := s.mapSup (fun c => { c with actsOpen := [] }); let s := hopen s;
       let s := s.setB F.SUPV_STAT_FFOPEN 0 true; s), Port.stream, by unfold State.hostOpen; decide +kernel⟩,
   ⟨(let s := base; let s := hopen s; let s := s.notDev .safe; let s := s.notDev .boot;
       s), Port.stream, by unfold State.hostOpen; decide +kernel⟩⟩

theorem witness_temperatureCommandsComplete :
    (∃ (s : State) (n : Fin 16), s.nCfg n = 0) ∧
    (∃ (s : State) (n : Fin 16) (code : BitVec 12), s.nCfg n ≠ 0 ∧ 160 ≤ code.toNat ∧
        (code.toNat : Rat) * 5 / 8 < (s.f F.CL_TSENCFG_FLTV n : Rat) * 5 / 2 ∧ s.fB F.CL_TSENV_BAD n = false ∧
        ((code.toNat : Rat) * 5 / 8 - s.f F.CL_TSENCFG_TOFS n) * 10 / (s.f F.CL_TSENCFG_TSLP n : Rat) < (s.f F.CL_THCFG_THSD n : Rat)) ∧
    (∃ (s : State) (n : Fin 16) (code : BitVec 12), s.nCfg n ≠ 0 ∧ 160 ≤ code.toNat ∧
        (code.toNat : Rat) * 5 / 8 < (s.f F.CL_TSENCFG_FLTV n : Rat) * 5 / 2 ∧ s.fB F.CL_TSENV_BAD n = false ∧
        (s.f F.CL_THCFG_THSD n : Rat) ≤ ((code.toNat : Rat) * 5 / 8 - s.f F.CL_TSENCFG_TOFS n) * 10 / (s.f F.CL_TSENCFG_TSLP n : Rat) ∧
        (s.cl.get n).tsenHot = 1 ∧ s.fBit F.THM_TSD_TSDMASK 0 n = false ∧ s.srcBit (Src.thShut n) = false) ∧
    (∃ (s : State) (n : Fin 16) (code : BitVec 12), s.nCfg n ≠ 0 ∧ code.toNat < 160 ∧ s.fB F.CL_TSENV_BAD n = false ∧
        (s.cl.get n).tsenLow = 2) ∧
    (∃ (s : State) (n : Fin 16), s.pins.pen.getLsbD n = true) ∧
    (∃ (s : State) (n : Fin 16) (p : Fin 48), s.phCluster p = some n) ∧
    (∃ (s : State) (n : Fin 16) (T : Rat), (s.cl.get n).tsenLast = true ∧ s.fB F.CL_TSENV_FLT n = false ∧
        (s.cl.get n).tGood = some T) ∧
    (∃ (s : State) (p : Port) (n : Fin 16), s.hostOpen p ∧ s.tempsBelow n (s.f F.CL_THCFG_THSD n) = true ∧
        s.fBit F.THM_TSD_TSDMASK 0 n = true ∧ s.dev ≠ .run) ∧
    (∃ (s : State) (n : Fin 16), s.tempsBelow n (s.f F.CL_THCFG_TREARM n) = true ∧ s.fBit F.THM_TSD_TSDMASK 0 n = true ∧
        s.dev ≠ .run) :=
  ⟨⟨(let s := base; let s := s.each phases (fun s k => s.setB F.PH_CFG_USED k false); s), 4, by decide +kernel⟩,
   ⟨(fun (n : Fin 16) => (let s := base; let s := s.setB F.PH_CFG_USED 7 true; let s := s.setF F.PH_CFG_CLUSTER 7 n;
       let s := s.setF F.CL_TSENCFG_FLTV n 1000; let s := s.setF F.CL_TSENCFG_TSLP n 80; let s := s.setF F.CL_TSENCFG_TOFS n 500;
       let s := s.setF F.CL_THCFG_THSD n 125; let s := s.setB F.CL_TSENV_BAD n false; s)) 4, 4, 0xC8#12, by decide +kernel⟩,
   ⟨(fun (n : Fin 16) => (let s := base; let s := s.setB F.PH_CFG_USED 7 true; let s := s.setF F.PH_CFG_CLUSTER 7 n;
       let s := s.setF F.CL_TSENCFG_FLTV n 1000; let s := s.setF F.CL_TSENCFG_TSLP n 80; let s := s.setF F.CL_TSENCFG_TOFS n 500;
       let s := s.setF F.CL_THCFG_THSD n 125; let s := s.setSrcBit (Src.thShut n) false; let s := s.setB F.CL_TSENV_BAD n false;
       let s := s.mapCl n (fun z' => { z' with tsenHot := 1 }); let s := s.setFBit F.THM_TSD_TSDMASK 0 n false;
       s)) 4, 4, 0xBB8#12, by decide +kernel⟩,
   ⟨(fun (n : Fin 16) => (let s := base; let s := s.setB F.PH_CFG_USED 7 true; let s := s.setF F.PH_CFG_CLUSTER 7 n;
       let s := s.setB F.CL_TSENV_BAD n false; let s := s.mapCl n (fun z' => { z' with tsenLow := 2 });
       s)) 4, 4, 0x0#12, by decide +kernel⟩,
   ⟨(let s := base; let s := s.mapPins (fun c => { c with pen := 0xFFFF }); s), 0, by decide +kernel⟩,
   ⟨(fun (n : Fin 16) (p : Fin 48) => (let s := base; let s := (s.setB F.PH_CFG_USED p true).setF F.PH_CFG_CLUSTER p n;
       s)) 1 16, 1, 16, by decide +kernel⟩,
   ⟨(fun (n : Fin 16) (T : Rat) => (let s := base; let s := s.mapCl n (fun z' => { z' with tsenLast := true });
       let s := s.setB F.CL_TSENV_FLT n false; let s := s.mapCl n (fun z' => { z' with tGood := some T });
       s)) 6 0, 6, 0, by decide +kernel⟩,
   ⟨(fun (n : Fin 16) => (let s := base; let s := s.setF F.CL_THCFG_THSD n 120;
       let s := s.mapCl n (fun c => { c with tHot := 50, tGood := none }); let s := hopen s;
       let s := s.setFBit F.THM_TSD_TSDMASK 0 n true; let s := s.notDev .run; let s := s.inDev .standby;
       s)) 9, Port.stream, 9, by unfold State.hostOpen; decide +kernel⟩,
   ⟨(fun (n : Fin 16) => (let s := base; let s := s.setF F.CL_THCFG_TREARM n 120;
       let s := s.mapCl n (fun c => { c with tHot := 50, tGood := none }); let s := s.setFBit F.THM_TSD_TSDMASK 0 n true;
       let s := s.notDev .run; let s := s.inDev .standby; s)) 0, 0, by decide +kernel⟩⟩

theorem witness_woodpeckerAndCappingComplete :
    (∃ (s : State) (k : Fin 4), s.pauseDue k = true ∧ s.pins.thr.getLsbD k = false) ∧
    (∃ (s : State) (k : Fin 4), s.pins.thr.getLsbD k = true ∧ (s.thr.get k).pauseLeft = 0) ∧
    (∃ (s : State) (c : Fin 5), s.fB (capOverFld c).1 (capOverFld c).2 = true) ∧
    (∃ (s : State) (c : Fin 5), s.fB (capOverFld c).1 (capOverFld c).2 = false ∧ s.capAsked c = false ∧
        (s.capBudget c = 0 ∨ (s.cap.get c).power < (97 / 100 : Rat) * ((s.capBudget c * 1000 : Nat) : Rat))) :=
  ⟨⟨(fun (k : Fin 4) => (let s := base; let s := s.setB F.THR_CFG_EN k true; let s := s.setF F.THR_CFG_PW k 50;
      let s := s.inDev .run; let s := s.mapThr k (fun c => { c with acc := 20000 });
      let s := s.mapPins (fun c => { c with thr := 0 }); s)) 2, 2, by decide +kernel⟩,
   ⟨(fun (k : Fin 4) => (let s := base; let s := s.mapPins (fun c => { c with thr := 15 });
       let s := s.mapThr k (fun z' => { z' with pauseLeft := 0 }); s)) 2, 2, by decide +kernel⟩,
   ⟨(fun (c : Fin 5) => (let s := base; let s := s.setB (capOverFld c).1 (capOverFld c).2 true; s)) 4, 4, by decide +kernel⟩,
   ⟨(fun (c : Fin 5) => (let s := base; let s := s.setB (capOverFld c).1 (capOverFld c).2 false;
       let s := s.each clusters (fun s n => s.setB F.CL_OLSTAT_CAPREQ n false);
       let s := s.mapSup (fun c => { c with capHeld := [] }); s)) 4, 4, by decide +kernel⟩⟩

theorem witness_captureCommandsComplete :
    (∃ (s : State) (n : Fin 64), mode s n = 1 ∧ s.capStopped = false ∧ s.fB F.CH_STAT_WAIT n = false ∧ s.f F.CH_CFG_DEC n ≤ 1 ∧
        s.fB F.CH_CFG_AVG n = false ∧ s.f F.CH_SRC_CLASS n ≠ 13 ∧ (s.ch.get n).fill < 1024 ∧ (s.ch.get n).dropPend = 0 ∧
        (s.ch.get n).left = none) ∧
    (∃ (s : State) (n : Fin 64), mode s n = 1 ∧ s.capStopped = false ∧ s.fB F.CH_STAT_WAIT n = false ∧ s.f F.CH_CFG_DEC n ≤ 1 ∧
        1024 ≤ (s.ch.get n).fill ∧ (s.ch.get n).dropPend < 1000 ∧ (s.ch.get n).left = none) ∧
    (∃ (s : State) (n : Fin 64), mode s n = 1 ∧ s.capStopped = false ∧ (s.ch.get n).decAcc.2 + 1 < s.f F.CH_CFG_DEC n) ∧
    (∃ (s : State) (p : Port) (hi : Bool) (mask : Word) (n : Fin 64), s.hostOpen p ∧
        ((∀ k : Fin 64, s.owner 3 k = 0 ∨ s.owner 3 k = 6)) ∧ n.val / 32 = hi.toNat ∧ mask.getLsbD (n.val % 32) = true ∧
        mode s n = 2 ∧ s.fB F.CH_STAT_WAIT n = true) ∧
    (∃ (s : State) (p : Port) (hi : Bool) (mask : Word) (n : Fin 64), s.hostOpen p ∧
        ((∀ k : Fin 64, s.owner 3 k = 0 ∨ s.owner 3 k = 6)) ∧ n.val / 32 = hi.toNat ∧ mask.getLsbD (n.val % 32) = true ∧
        mode s n = 3 ∧ s.fB F.CH_STAT_WAIT n = true) ∧
    (∃ (s : State) (l : Fin 4) (n : Fin 64), (s.lane.get l).ch = none ∧ s.capStopped = false ∧ s.ready n = true ∧
        ((∀ k : Fin 64, s.ready k = true → k = n)) ∧ ((∀ j : Fin 4, (s.lane.get j).ch ≠ some n.val))) ∧
    (∃ (s : State) (n : Fin 64), s.fB F.CH_STAT_RUN n = true ∧ (s.ch.get n).fill ≠ 0) ∧
    (∃ (s : State) (l : Fin 4) (c : Fin 64), (s.lane.get l).ch = some c.val ∧ s.owner 3 c ≠ 8 ∧ s.stream.out = [] ∧
        s.stream.openPkt = [] ∧ (s.lane.get l).recd ≠ [] ∧ (s.lane.get l).closeAfter = false ∧ s.capStopped = false) ∧
    (∃ (s : State) (l : Fin 4) (c : Fin 64), (s.lane.get l).ch = some c.val ∧ s.owner 3 c ≠ 8 ∧ s.stream.out = [] ∧
        s.stream.openPkt = [] ∧ (s.lane.get l).recd ≠ [] ∧ (s.lane.get l).closeAfter = true ∧ s.capStopped = false) ∧
    (∃ (s : State) (x : Word × Bool) (r : List (Word × Bool)), s.stream.out = x :: r ∧ s.stream.fifo.length < 65535 ∧
        s.stream.flushPend = false) ∧
    (∃ (s : State) (x : Word × Bool) (r : List (Word × Bool)), s.portLive .stream = true ∧ s.noImg = false ∧
        s.f F.CAP_FSTAT_PKT_WAIT ≠ 0 ∧ s.stream.rd = 0 ∧ s.stream.fifo = x :: r ∧ s.img.blevel ≠ 1) ∧
    (∃ (s : State) (p : Port), s.portLive p = true ∧ s.noImg = false ∧ s.f F.CAP_FSTAT_PKT_WAIT = 0) ∧
    (∃ (s : State) (p : Port), s.hostOpen p ∧ s.img.blevel ≠ 1 ∧ s.stream.out = [] ∧ s.stream.openPkt = [] ∧
        s.stream.midRead = false) ∧
    (∃ (s : State) (p : Port), s.hostOpen p ∧ s.img.blevel = 1 ∧ s.atBoundary = true) ∧
    (∃ (s : State) (p : Port), s.hostOpen p ∧ s.img.blevel = 1 ∧ s.atBoundary = true) ∧
    (∃ (s : State) (p : Port), s.hostOpen p ∧ s.img.blevel = 1 ∧ s.atBoundary = true) ∧
    (∃ (s : State) (p : Port) (n : Fin 64) (v : Word), s.hostOpen p ∧ s.owner 3 n = 0 ∧ mode s n = 0 ∧
        inRange (0x2D00 + 4 * n.val) v = true) ∧
    (∃ (s : State) (p : Port) (n : Fin 64) (v : Word), s.hostOpen p ∧ s.owner 3 n = 0 ∧ mode s n = 0 ∧
        inRange (0x2D01 + 4 * n.val) v = true ∧ F.CH_CFG_MODE.get v ≠ 0 ∧ s.fB F.CAP_CFG_SEN = true ∧
        s.admits n (F.CH_CFG_DEC.get v) = true) ∧
    (∃ (s : State) (p : Port) (n : Fin 64) (v : Word), s.hostOpen p ∧ s.owner 3 n = 6 ∧ mode s n ≠ 0 ∧
        inRange (0x2D01 + 4 * n.val) v = true ∧ F.CH_CFG_MODE.get v = 0 ∧
        s.reg (0x2D01 + 4 * n.val) &&& 0x7FFFFFFC#32 = v &&& 0x7FFFFFFC#32) ∧
    (∃ (s : State) (p : Port) (v : Word), s.hostOpen p ∧ inRange 0x2C00 v = true ∧ F.CAP_CFG_SEN.get v = 1 ∧
        s.fB F.CAP_CFG_SEN = false ∧ s.owner 4 0 = 0) ∧
    (∃ (s : State), s.portLive .stream = true ∧ s.noImg = false) ∧
    (∃ (s : State), s.portLive .twoWire = true ∧ s.noImg = false) :=
  ⟨⟨(fun (n : Fin 64) => (let s := base; let s := s.setF F.DEV_PWRSTAT_LSTAGE 0 0;
      let s := s.mapPower (fun c => { c with dieHot := false }); let s := s.setF F.CH_CFG_MODE n 1;
      let s := s.setF F.CH_CFG_DEC n 1;
      let s := s.mapCh n (fun c => { c with ring := c.ring.take 1000, dropPend := 0, left := none });
      let s := s.setF F.CH_SRC_CLASS n 6; let s := s.setB F.CH_STAT_WAIT n false; let s := s.setF F.CH_CFG_DEC n 0;
      let s := s.setB F.CH_CFG_AVG n false; let s := s.mapCh n (fun z' => { z' with dropPend := 0 });
      let s := s.mapCh n (fun z' => { z' with left := none }); s)) 4, 4, by decide +kernel⟩,
   ⟨(fun (n : Fin 64) => (let s := base; let s := s.setF F.DEV_PWRSTAT_LSTAGE 0 0;
       let s := s.mapPower (fun c => { c with dieHot := false }); let s := s.setF F.CH_CFG_MODE n 1;
       let s := s.setF F.CH_CFG_DEC n 1;
       let s := s.mapCh n (fun c => { c with ring := List.replicate 1024 (RingItem.sample 5 7), dropPend := c.dropPend % 1000, left := none });
       let s := s.setB F.CH_STAT_WAIT n false; let s := s.setF F.CH_CFG_DEC n 0;
       let s := s.mapCh n (fun z' => { z' with left := none }); s)) 4, 4, by decide +kernel⟩,
   ⟨(fun (n : Fin 64) => (let s := base; let s := s.setF F.DEV_PWRSTAT_LSTAGE 0 0;
       let s := s.mapPower (fun c => { c with dieHot := false }); let s := s.setF F.CH_CFG_MODE n 1;
       let s := s.setF F.CH_CFG_DEC n 10; let s := s.mapCh n (fun c => { c with decAcc := (c.decAcc.1, c.decAcc.2 % 9) });
       s)) 4, 4, by decide +kernel⟩,
   ⟨(fun (n : Fin 64) => (let s := base; let s := s.mapImg (fun c => { c with own := c.own.filter (fun o => o.cls != 3) });
       let s := s.setF F.CH_CFG_MODE n 2; let s := hopen s; let s := s.setB F.CH_STAT_WAIT n true;
       s)) 47, Port.stream, true, 0x8000#32, 47, by unfold State.hostOpen; decide +kernel⟩,
   ⟨(fun (n : Fin 64) => (let s := base; let s := s.mapImg (fun c => { c with own := c.own.filter (fun o => o.cls != 3) });
       let s := s.setF F.CH_CFG_MODE n 3; let s := hopen s; let s := s.setB F.CH_STAT_WAIT n true;
       s)) 47, Port.stream, true, 0x8000#32, 47, by unfold State.hostOpen; decide +kernel⟩,
   ⟨(fun (l : Fin 4) (n : Fin 64) => (let s := base; let s := s.setF F.DEV_PWRSTAT_LSTAGE 0 0;
       let s := s.mapPower (fun c => { c with dieHot := false });
       let s := s.each (List.finRange 64) (fun s k => s.mapCh k (fun c => { c with ring := [] }));
       let s := s.mapCh n (fun c => { c with ring := [RingItem.sample 5 7, .sample 6 8, .gap 0 5 3, .sample 9 9] });
       let s := s.setB F.CH_STAT_WAIT n false;
       let s := s.each (List.finRange 4) (fun s (k : Fin 4) => s.mapLane k (fun c => { c with ch := none }));
       let s := s.mapLane l (fun z' => { z' with ch := none }); s)) 2 0, 2, 0, by decide +kernel⟩,
   ⟨(fun (n : Fin 64) => (let s := base;
       let s := s.mapCh n (fun c => { c with ring := [RingItem.sample 5 7, .sample 6 8, .gap 0 5 3, .sample 9 9] });
       let s := s.setB F.CH_STAT_RUN n true; s)) 0, 0, by decide +kernel⟩,
   ⟨(fun (l : Fin 4) (c : Fin 64) => (let s := base; let s := s.setF F.DEV_PWRSTAT_LSTAGE 0 0;
       let s := s.mapPower (fun c => { c with dieHot := false });
       let s := s.mapLane l (fun u => { u with ch := some c.val, recd := [4, 5] });
       let s := s.mapImg (fun c => { c with own := c.own.filter (fun o => o.cls != 3) });
       let s := s.mapLane l (fun z' => { z' with ch := some c.val }); let s := s.mapStream (fun z' => { z' with out := [] });
       let s := s.mapStream (fun z' => { z' with openPkt := [] });
       let s := s.mapLane l (fun z' => { z' with closeAfter := false }); s)) 2 0, 2, 0, by decide +kernel⟩,
   ⟨(fun (l : Fin 4) (c : Fin 64) => (let s := base; let s := s.setF F.DEV_PWRSTAT_LSTAGE 0 0;
       let s := s.mapPower (fun c => { c with dieHot := false });
       let s := s.mapLane l (fun u => { u with ch := some c.val, recd := [4, 5] });
       let s := s.mapImg (fun c => { c with own := c.own.filter (fun o => o.cls != 3) });
       let s := s.mapLane l (fun z' => { z' with ch := some c.val }); let s := s.mapStream (fun z' => { z' with out := [] });
       let s := s.mapStream (fun z' => { z' with openPkt := [] }); let s := s.mapLane l (fun z' => { z' with closeAfter := true });
       s)) 2 0, 2, 0, by decide +kernel⟩,
   ⟨(fun (x : Word × Bool) (r : List (Word × Bool)) => (let s := base; let s := s.mapStream (fun z' => { z' with out := x :: r });
       let s := s.mapStream (fun z' => { z' with flushPend := false });
       s)) ((0x151AF7F4#32, true)) ([]), (0x151AF7F4#32, true), [], by decide +kernel⟩,
   ⟨(fun (x : Word × Bool) (r : List (Word × Bool)) => (let s := base;
       let s := s.mapStream (fun c => { c with rd := 0, fifo := x :: r }); let s := s.mapImg (fun c => { c with blevel := 2 });
       let s := hlive s; let s := s.setB F.IMG_BOOTSTAT_NOIMG 0 false; let s := s.setF F.CAP_FSTAT_PKT_WAIT 0 1;
       let s := s.mapStream (fun z' => { z' with rd := 0 }); let s := s.mapStream (fun z' => { z' with fifo := x :: r });
       s)) ((0x151AF7F4#32, true)) ([]), (0x151AF7F4#32, true), [], by decide +kernel⟩,
   ⟨(let s := base; let s := hlive s; let s := s.setB F.IMG_BOOTSTAT_NOIMG 0 false; let s := s.setF F.CAP_FSTAT_PKT_WAIT 0 0;
       s), Port.stream, by decide +kernel⟩,
   ⟨(let s := base; let s := s.mapImg (fun c => { c with blevel := 2 }); let s := hopen s;
       let s := s.mapStream (fun z' => { z' with out := [] }); let s := s.mapStream (fun z' => { z' with openPkt := [] });
       let s := s.mapStream (fun z' => { z' with midRead := false }); s), Port.stream, by unfold State.hostOpen; decide +kernel⟩,
   ⟨(let s := base; let s := s.mapImg (fun c => { c with blevel := 1 }); let s := s.mapStream (fun c => { c with rd := 0 });
       let s := hopen s; let s := s.mapImg (fun z' => { z' with blevel := 1 });
       s), Port.stream, by unfold State.hostOpen; decide +kernel⟩,
   ⟨(let s := base; let s := s.mapImg (fun c => { c with blevel := 1 }); let s := s.mapStream (fun c => { c with rd := 0 });
       let s := hopen s; let s := s.mapImg (fun z' => { z' with blevel := 1 });
       s), Port.stream, by unfold State.hostOpen; decide +kernel⟩,
   ⟨(let s := base; let s := s.mapImg (fun c => { c with blevel := 1 }); let s := s.mapStream (fun c => { c with rd := 0 });
       let s := hopen s; let s := s.mapImg (fun z' => { z' with blevel := 1 });
       s), Port.stream, by unfold State.hostOpen; decide +kernel⟩,
   ⟨(fun (n : Fin 64) => (let s := base; let s := s.mapImg (fun c => { c with own := c.own.filter (fun o => o.cls != 3) });
       let s := s.setF F.CH_CFG_MODE n 0; let s := hopen s;
       s)) 9, Port.stream, 9, 0x7FFF#32, by unfold State.hostOpen; decide +kernel⟩,
   ⟨(fun (n : Fin 64) => (let s := base; let s := s.mapImg (fun c => { c with own := c.own.filter (fun o => o.cls != 3) });
       let s := s.setF F.CH_CFG_MODE n 0; let s := s.setF F.CH_SRC_CLASS n 4; let s := s.setF F.CH_SRC_INDEX n 2; let s := hopen s;
       let s := s.setB F.CAP_CFG_SEN 0 true; let s := s.each (List.finRange 64) (fun s (k : Fin 64) => s.setF F.CH_CFG_MODE k 0);
       s)) 9, Port.stream, 9, 0x5000005#32, by unfold State.hostOpen; decide +kernel⟩,
   ⟨(fun (n : Fin 64) (v : Word) => (let s := base;
       let s := s.mapImg (fun c => { c with own := c.own.filter (fun o => o.cls != 3) });
       let s := s.mapImg (fun c => { c with own := ⟨3, n.val, 6, true⟩ :: c.own });
       let s := s.setReg (0x2D01 + 4 * n.val) (v ||| 2); let s := hopen s;
       s)) 9 0x5000004#32, Port.stream, 9, 0x5000004#32, by unfold State.hostOpen; decide +kernel⟩,
   ⟨(let s := base; let s := s.mapImg (fun c => { c with own := c.own.filter (fun o => o.cls != 4) }); let s := hopen s;
       let s := s.setB F.CAP_CFG_SEN 0 false; s), Port.stream, 0xBFFF#32, by unfold State.hostOpen; decide +kernel⟩,
   ⟨(let s := base; let s := hlive s; let s := s.setB F.IMG_BOOTSTAT_NOIMG 0 false; s), by decide +kernel⟩,
   ⟨(let s := base; let s := hlive s; let s := s.setB F.IMG_BOOTSTAT_NOIMG 0 false; s), by decide +kernel⟩⟩

theorem witness_pmbusReadsAnswer :
    (∃ (s : State) (w : Wire), s.wireOpen ∧ Wire.asks w 2) ∧
    (∃ (s : State) (w : Wire), s.wireOpen ∧ Wire.asks w 2) ∧
    (∃ (s : State) (w : Wire), s.wireOpen ∧ Wire.asks w 2) ∧
    (∃ (s : State) (w : Wire), s.wireOpen ∧ Wire.asks w 7) ∧
    (∃ (s : State) (w : Wire), s.wireOpen ∧ s.img.blevel = 1 ∧ Wire.asks w 8) ∧
    (∃ (s : State) (w : Wire), s.wireOpen ∧ s.img.blevel ≠ 1 ∧ Wire.asks w 8) ∧
    (∃ (s : State) (w : Wire), s.wireOpen ∧ Wire.asks w 3) ∧
    (∃ (s : State) (w : Wire), s.wireOpen ∧ Wire.asks w 10) ∧
    (∃ (s : State) (w : Wire), s.wireOpen ∧ Wire.asks w 3) ∧
    (∃ (s : State) (w : Wire), s.wireOpen ∧ Wire.asks w 2) ∧
    (∃ (s : State) (w : Wire), s.wireOpen ∧ (s.pagesOf onClusters).contains s.port.page.toNat = true ∧ Wire.asks w 2) ∧
    (∃ (s : State) (w : Wire), s.wireOpen ∧ (s.pagesOf onClusters).contains s.port.page.toNat = true ∧ Wire.asks w 2) ∧
    (∃ (s : State) (w : Wire), s.wireOpen ∧ (s.pagesOf onClusters).contains s.port.page.toNat = true ∧ Wire.asks w 3) ∧
    (∃ (s : State) (w : Wire), s.wireOpen ∧ (s.pagesOf onClusters).contains s.port.page.toNat = true ∧ Wire.asks w 3) ∧
    (∃ (s : State) (w : Wire), s.wireOpen ∧ (s.pagesOf onClusters).contains s.port.page.toNat = true ∧ Wire.asks w 3) ∧
    (∃ (s : State) (w : Wire), s.wireOpen ∧ (s.pagesOf onClusters).contains s.port.page.toNat = true ∧ Wire.asks w 3) ∧
    (∃ (s : State) (w : Wire), s.wireOpen ∧ (s.pagesOf onClusters).contains s.port.page.toNat = true ∧ Wire.asks w 3) ∧
    (∃ (s : State) (w : Wire), s.wireOpen ∧ (s.pagesOf onFeeds).contains s.port.page.toNat = true ∧ Wire.asks w 3) ∧
    (∃ (s : State) (w : Wire), s.wireOpen ∧ (s.pagesOf onClusters).contains s.port.page.toNat = true ∧ Wire.asks w 2) ∧
    (∃ (s : State) (w : Wire), s.wireOpen ∧ (s.pagesOf onClusters).contains s.port.page.toNat = true ∧ Wire.asks w 3) ∧
    (∃ (s : State) (w : Wire), s.wireOpen ∧ (s.pagesOf onFeeds).contains s.port.page.toNat = true ∧ Wire.asks w 3) ∧
    (∃ (s : State) (w : Wire), s.wireOpen ∧ (s.pagesOf onClusters).contains s.port.page.toNat = true ∧ Wire.asks w 2) ∧
    (∃ (s : State) (w : Wire), s.wireOpen ∧ (s.pagesOf onClusters).contains s.port.page.toNat = true ∧ Wire.asks w 2) ∧
    (∃ (s : State) (w : Wire), s.wireOpen ∧ (s.pagesOf onFeeds).contains s.port.page.toNat = true ∧ Wire.asks w 2) ∧
    (∃ (s : State) (w : Wire), s.wireOpen ∧ (s.pagesOf onClusters).contains s.port.page.toNat = true ∧ Wire.asks w 2) ∧
    (∃ (s : State) (w : Wire), s.wireOpen ∧ (s.pagesOf onFeeds).contains s.port.page.toNat = true ∧ Wire.asks w 3) ∧
    (∃ (s : State) (w : Wire), s.wireOpen ∧ (s.pagesOf onClusters).contains s.port.page.toNat = true ∧ Wire.asks w 3) ∧
    (∃ (s : State) (w : Wire), s.wireOpen ∧ (s.pagesOf onFeeds).contains s.port.page.toNat = true ∧ Wire.asks w 3) ∧
    (∃ (s : State) (w : Wire), s.wireOpen ∧ (s.pagesOf onClusters).contains s.port.page.toNat = true ∧ Wire.asks w 3) ∧
    (∃ (s : State) (w : Wire), s.wireOpen ∧ (s.pagesOf onClusters).contains s.port.page.toNat = true ∧ Wire.asks w 3) ∧
    (∃ (s : State) (w : Wire), s.wireOpen ∧ (s.pagesOf onClusters).contains s.port.page.toNat = true ∧ Wire.asks w 3) ∧
    (∃ (s : State) (w : Wire), s.wireOpen ∧ (s.pagesOf onClusters).contains s.port.page.toNat = true ∧ Wire.asks w 3) ∧
    (∃ (s : State) (w : Wire), s.wireOpen ∧ (s.pagesOf onFeeds).contains s.port.page.toNat = true ∧ Wire.asks w 3) ∧
    (∃ (s : State) (w : Wire), s.wireOpen ∧ s.img.blevel = 1 ∧ Wire.asks w 3) :=
  ⟨⟨(let s := base; let s := s.notDev .boot; let s := s.setF F.DEV_PWRSTAT_LSTAGE 0 0;
      let s := s.mapPower (fun c => { c with heartbeatLost := false }); let s := s.setB F.HST_STAT_AWAKE 0 true;
      let s := s.setB F.IMG_BOOTSTAT_NOIMG 0 false;
      s), { read := true, data := [], clocks := 0x0#8 }, by unfold State.wireOpen Wire.asks; decide +kernel⟩,
   ⟨(let s := base; let s := s.notDev .boot; let s := s.setF F.DEV_PWRSTAT_LSTAGE 0 0;
       let s := s.mapPower (fun c => { c with heartbeatLost := false }); let s := s.setB F.HST_STAT_AWAKE 0 true;
       let s := s.setB F.IMG_BOOTSTAT_NOIMG 0 false;
       s), { read := true, data := [], clocks := 0x0#8 }, by unfold State.wireOpen Wire.asks; decide +kernel⟩,
   ⟨(let s := base; let s := s.notDev .boot; let s := s.setF F.DEV_PWRSTAT_LSTAGE 0 0;
       let s := s.mapPower (fun c => { c with heartbeatLost := false }); let s := s.setB F.HST_STAT_AWAKE 0 true;
       let s := s.setB F.IMG_BOOTSTAT_NOIMG 0 false;
       s), { read := true, data := [], clocks := 0x0#8 }, by unfold State.wireOpen Wire.asks; decide +kernel⟩,
   ⟨(let s := base; let s := s.notDev .boot; let s := s.setF F.DEV_PWRSTAT_LSTAGE 0 0;
       let s := s.mapPower (fun c => { c with heartbeatLost := false }); let s := s.setB F.HST_STAT_AWAKE 0 true;
       let s := s.setB F.IMG_BOOTSTAT_NOIMG 0 false;
       s), { read := true, data := [], clocks := 0x0#8 }, by unfold State.wireOpen Wire.asks; decide +kernel⟩,
   ⟨(let s := base; let s := s.notDev .boot; let s := s.setF F.DEV_PWRSTAT_LSTAGE 0 0;
       let s := s.mapPower (fun c => { c with heartbeatLost := false }); let s := s.setB F.HST_STAT_AWAKE 0 true;
       let s := s.setB F.IMG_BOOTSTAT_NOIMG 0 false; let s := s.mapImg (fun z' => { z' with blevel := 1 });
       s), { read := true, data := [], clocks := 0x0#8 }, by unfold State.wireOpen Wire.asks; decide +kernel⟩,
   ⟨(let s := base; let s := s.notDev .boot; let s := s.setF F.DEV_PWRSTAT_LSTAGE 0 0;
       let s := s.mapPower (fun c => { c with heartbeatLost := false }); let s := s.setB F.HST_STAT_AWAKE 0 true;
       let s := s.setB F.IMG_BOOTSTAT_NOIMG 0 false;
       s), { read := true, data := [], clocks := 0x0#8 }, by unfold State.wireOpen Wire.asks; decide +kernel⟩,
   ⟨(let s := base; let s := s.notDev .boot; let s := s.setF F.DEV_PWRSTAT_LSTAGE 0 0;
       let s := s.mapPower (fun c => { c with heartbeatLost := false }); let s := s.setB F.HST_STAT_AWAKE 0 true;
       let s := s.setB F.IMG_BOOTSTAT_NOIMG 0 false;
       s), { read := true, data := [], clocks := 0x0#8 }, by unfold State.wireOpen Wire.asks; decide +kernel⟩,
   ⟨(let s := base; let s := s.notDev .boot; let s := s.setF F.DEV_PWRSTAT_LSTAGE 0 0;
       let s := s.mapPower (fun c => { c with heartbeatLost := false }); let s := s.setB F.HST_STAT_AWAKE 0 true;
       let s := s.setB F.IMG_BOOTSTAT_NOIMG 0 false;
       s), { read := true, data := [], clocks := 0x0#8 }, by unfold State.wireOpen Wire.asks; decide +kernel⟩,
   ⟨(let s := base; let s := s.notDev .boot; let s := s.setF F.DEV_PWRSTAT_LSTAGE 0 0;
       let s := s.mapPower (fun c => { c with heartbeatLost := false }); let s := s.setB F.HST_STAT_AWAKE 0 true;
       let s := s.setB F.IMG_BOOTSTAT_NOIMG 0 false;
       s), { read := true, data := [], clocks := 0x0#8 }, by unfold State.wireOpen Wire.asks; decide +kernel⟩,
   ⟨(let s := base; let s := s.notDev .boot; let s := s.setF F.DEV_PWRSTAT_LSTAGE 0 0;
       let s := s.mapPower (fun c => { c with heartbeatLost := false }); let s := s.setB F.HST_STAT_AWAKE 0 true;
       let s := s.setB F.IMG_BOOTSTAT_NOIMG 0 false;
       s), { read := true, data := [], clocks := 0x0#8 }, by unfold State.wireOpen Wire.asks; decide +kernel⟩,
   ⟨(let s := base; let s := s.notDev .boot; let s := s.setF F.DEV_PWRSTAT_LSTAGE 0 0;
       let s := s.mapPower (fun c => { c with heartbeatLost := false }); let s := s.setB F.HST_STAT_AWAKE 0 true;
       let s := s.setB F.IMG_BOOTSTAT_NOIMG 0 false; let s := s.mapPort (fun c => { c with page := c.page % 8 });
       let s := s.setB F.PH_CFG_USED 7 true; let s := s.setF F.PH_CFG_CLUSTER 7 s.port.page.toNat;
       s), { read := true, data := [], clocks := 0x0#8 }, by unfold State.wireOpen Wire.asks; decide +kernel⟩,
   ⟨(let s := base; let s := s.notDev .boot; let s := s.setF F.DEV_PWRSTAT_LSTAGE 0 0;
       let s := s.mapPower (fun c => { c with heartbeatLost := false }); let s := s.setB F.HST_STAT_AWAKE 0 true;
       let s := s.setB F.IMG_BOOTSTAT_NOIMG 0 false; let s := s.mapPort (fun c => { c with page := c.page % 8 });
       let s := s.setB F.PH_CFG_USED 7 true; let s := s.setF F.PH_CFG_CLUSTER 7 s.port.page.toNat;
       s), { read := true, data := [], clocks := 0x0#8 }, by unfold State.wireOpen Wire.asks; decide +kernel⟩,
   ⟨(let s := base; let s := s.notDev .boot; let s := s.setF F.DEV_PWRSTAT_LSTAGE 0 0;
       let s := s.mapPower (fun c => { c with heartbeatLost := false }); let s := s.setB F.HST_STAT_AWAKE 0 true;
       let s := s.setB F.IMG_BOOTSTAT_NOIMG 0 false; let s := s.mapPort (fun c => { c with page := c.page % 8 });
       let s := s.setB F.PH_CFG_USED 7 true; let s := s.setF F.PH_CFG_CLUSTER 7 s.port.page.toNat;
       s), { read := true, data := [], clocks := 0x0#8 }, by unfold State.wireOpen Wire.asks; decide +kernel⟩,
   ⟨(let s := base; let s := s.notDev .boot; let s := s.setF F.DEV_PWRSTAT_LSTAGE 0 0;
       let s := s.mapPower (fun c => { c with heartbeatLost := false }); let s := s.setB F.HST_STAT_AWAKE 0 true;
       let s := s.setB F.IMG_BOOTSTAT_NOIMG 0 false; let s := s.mapPort (fun c => { c with page := c.page % 8 });
       let s := s.setB F.PH_CFG_USED 7 true; let s := s.setF F.PH_CFG_CLUSTER 7 s.port.page.toNat;
       s), { read := true, data := [], clocks := 0x0#8 }, by unfold State.wireOpen Wire.asks; decide +kernel⟩,
   ⟨(let s := base; let s := s.notDev .boot; let s := s.setF F.DEV_PWRSTAT_LSTAGE 0 0;
       let s := s.mapPower (fun c => { c with heartbeatLost := false }); let s := s.setB F.HST_STAT_AWAKE 0 true;
       let s := s.setB F.IMG_BOOTSTAT_NOIMG 0 false; let s := s.mapPort (fun c => { c with page := c.page % 8 });
       let s := s.setB F.PH_CFG_USED 7 true; let s := s.setF F.PH_CFG_CLUSTER 7 s.port.page.toNat;
       s), { read := true, data := [], clocks := 0x0#8 }, by unfold State.wireOpen Wire.asks; decide +kernel⟩,
   ⟨(let s := base; let s := s.notDev .boot; let s := s.setF F.DEV_PWRSTAT_LSTAGE 0 0;
       let s := s.mapPower (fun c => { c with heartbeatLost := false }); let s := s.setB F.HST_STAT_AWAKE 0 true;
       let s := s.setB F.IMG_BOOTSTAT_NOIMG 0 false; let s := s.mapPort (fun c => { c with page := c.page % 8 });
       let s := s.setB F.PH_CFG_USED 7 true; let s := s.setF F.PH_CFG_CLUSTER 7 s.port.page.toNat;
       s), { read := true, data := [], clocks := 0x0#8 }, by unfold State.wireOpen Wire.asks; decide +kernel⟩,
   ⟨(let s := base; let s := s.notDev .boot; let s := s.setF F.DEV_PWRSTAT_LSTAGE 0 0;
       let s := s.mapPower (fun c => { c with heartbeatLost := false }); let s := s.setB F.HST_STAT_AWAKE 0 true;
       let s := s.setB F.IMG_BOOTSTAT_NOIMG 0 false; let s := s.mapPort (fun c => { c with page := c.page % 8 });
       let s := s.setB F.PH_CFG_USED 7 true; let s := s.setF F.PH_CFG_CLUSTER 7 s.port.page.toNat;
       s), { read := true, data := [], clocks := 0x0#8 }, by unfold State.wireOpen Wire.asks; decide +kernel⟩,
   ⟨(let s := base; let s := s.notDev .boot; let s := s.setF F.DEV_PWRSTAT_LSTAGE 0 0;
       let s := s.mapPower (fun c => { c with heartbeatLost := false }); let s := s.setB F.HST_STAT_AWAKE 0 true;
       let s := s.setB F.IMG_BOOTSTAT_NOIMG 0 false; let s := s.mapPort (fun c => { c with page := 16 + c.page % 3 });
       let s := s.setB F.FEED_CFG_EN s.pageFeed true;
       s), { read := true, data := [], clocks := 0x0#8 }, by unfold State.wireOpen Wire.asks; decide +kernel⟩,
   ⟨(let s := base; let s := s.notDev .boot; let s := s.setF F.DEV_PWRSTAT_LSTAGE 0 0;
       let s := s.mapPower (fun c => { c with heartbeatLost := false }); let s := s.setB F.HST_STAT_AWAKE 0 true;
       let s := s.setB F.IMG_BOOTSTAT_NOIMG 0 false; let s := s.mapPort (fun c => { c with page := c.page % 8 });
       let s := s.setB F.PH_CFG_USED 7 true; let s := s.setF F.PH_CFG_CLUSTER 7 s.port.page.toNat;
       s), { read := true, data := [], clocks := 0x0#8 }, by unfold State.wireOpen Wire.asks; decide +kernel⟩,
   ⟨(let s := base; let s := s.notDev .boot; let s := s.setF F.DEV_PWRSTAT_LSTAGE 0 0;
       let s := s.mapPower (fun c => { c with heartbeatLost := false }); let s := s.setB F.HST_STAT_AWAKE 0 true;
       let s := s.setB F.IMG_BOOTSTAT_NOIMG 0 false; let s := s.mapPort (fun c => { c with page := c.page % 8 });
       let s := s.setB F.PH_CFG_USED 7 true; let s := s.setF F.PH_CFG_CLUSTER 7 s.port.page.toNat;
       s), { read := true, data := [], clocks := 0x0#8 }, by unfold State.wireOpen Wire.asks; decide +kernel⟩,
   ⟨(let s := base; let s := s.notDev .boot; let s := s.setF F.DEV_PWRSTAT_LSTAGE 0 0;
       let s := s.mapPower (fun c => { c with heartbeatLost := false }); let s := s.setB F.HST_STAT_AWAKE 0 true;
       let s := s.setB F.IMG_BOOTSTAT_NOIMG 0 false; let s := s.mapPort (fun c => { c with page := 16 + c.page % 3 });
       let s := s.setB F.FEED_CFG_EN s.pageFeed true;
       s), { read := true, data := [], clocks := 0x0#8 }, by unfold State.wireOpen Wire.asks; decide +kernel⟩,
   ⟨(let s := base; let s := s.notDev .boot; let s := s.setF F.DEV_PWRSTAT_LSTAGE 0 0;
       let s := s.mapPower (fun c => { c with heartbeatLost := false }); let s := s.setB F.HST_STAT_AWAKE 0 true;
       let s := s.setB F.IMG_BOOTSTAT_NOIMG 0 false; let s := s.mapPort (fun c => { c with page := c.page % 8 });
       let s := s.setB F.PH_CFG_USED 7 true; let s := s.setF F.PH_CFG_CLUSTER 7 s.port.page.toNat;
       s), { read := true, data := [], clocks := 0x0#8 }, by unfold State.wireOpen Wire.asks; decide +kernel⟩,
   ⟨(let s := base; let s := s.notDev .boot; let s := s.setF F.DEV_PWRSTAT_LSTAGE 0 0;
       let s := s.mapPower (fun c => { c with heartbeatLost := false }); let s := s.setB F.HST_STAT_AWAKE 0 true;
       let s := s.setB F.IMG_BOOTSTAT_NOIMG 0 false; let s := s.mapPort (fun c => { c with page := c.page % 8 });
       let s := s.setB F.PH_CFG_USED 7 true; let s := s.setF F.PH_CFG_CLUSTER 7 s.port.page.toNat;
       s), { read := true, data := [], clocks := 0x0#8 }, by unfold State.wireOpen Wire.asks; decide +kernel⟩,
   ⟨(let s := base; let s := s.notDev .boot; let s := s.setF F.DEV_PWRSTAT_LSTAGE 0 0;
       let s := s.mapPower (fun c => { c with heartbeatLost := false }); let s := s.setB F.HST_STAT_AWAKE 0 true;
       let s := s.setB F.IMG_BOOTSTAT_NOIMG 0 false; let s := s.mapPort (fun c => { c with page := 16 + c.page % 3 });
       let s := s.setB F.FEED_CFG_EN s.pageFeed true;
       s), { read := true, data := [], clocks := 0x0#8 }, by unfold State.wireOpen Wire.asks; decide +kernel⟩,
   ⟨(let s := base; let s := s.notDev .boot; let s := s.setF F.DEV_PWRSTAT_LSTAGE 0 0;
       let s := s.mapPower (fun c => { c with heartbeatLost := false }); let s := s.setB F.HST_STAT_AWAKE 0 true;
       let s := s.setB F.IMG_BOOTSTAT_NOIMG 0 false; let s := s.mapPort (fun c => { c with page := c.page % 8 });
       let s := s.setB F.PH_CFG_USED 7 true; let s := s.setF F.PH_CFG_CLUSTER 7 s.port.page.toNat;
       s), { read := true, data := [], clocks := 0x0#8 }, by unfold State.wireOpen Wire.asks; decide +kernel⟩,
   ⟨(let s := base; let s := s.notDev .boot; let s := s.setF F.DEV_PWRSTAT_LSTAGE 0 0;
       let s := s.mapPower (fun c => { c with heartbeatLost := false }); let s := s.setB F.HST_STAT_AWAKE 0 true;
       let s := s.setB F.IMG_BOOTSTAT_NOIMG 0 false; let s := s.mapPort (fun c => { c with page := 16 + c.page % 3 });
       let s := s.setB F.FEED_CFG_EN s.pageFeed true;
       s), { read := true, data := [], clocks := 0x0#8 }, by unfold State.wireOpen Wire.asks; decide +kernel⟩,
   ⟨(let s := base; let s := s.notDev .boot; let s := s.setF F.DEV_PWRSTAT_LSTAGE 0 0;
       let s := s.mapPower (fun c => { c with heartbeatLost := false }); let s := s.setB F.HST_STAT_AWAKE 0 true;
       let s := s.setB F.IMG_BOOTSTAT_NOIMG 0 false; let s := s.mapPort (fun c => { c with page := c.page % 8 });
       let s := s.setB F.PH_CFG_USED 7 true; let s := s.setF F.PH_CFG_CLUSTER 7 s.port.page.toNat;
       s), { read := true, data := [], clocks := 0x0#8 }, by unfold State.wireOpen Wire.asks; decide +kernel⟩,
   ⟨(let s := base; let s := s.notDev .boot; let s := s.setF F.DEV_PWRSTAT_LSTAGE 0 0;
       let s := s.mapPower (fun c => { c with heartbeatLost := false }); let s := s.setB F.HST_STAT_AWAKE 0 true;
       let s := s.setB F.IMG_BOOTSTAT_NOIMG 0 false; let s := s.mapPort (fun c => { c with page := 16 + c.page % 3 });
       let s := s.setB F.FEED_CFG_EN s.pageFeed true;
       s), { read := true, data := [], clocks := 0x0#8 }, by unfold State.wireOpen Wire.asks; decide +kernel⟩,
   ⟨(let s := base; let s := s.notDev .boot; let s := s.setF F.DEV_PWRSTAT_LSTAGE 0 0;
       let s := s.mapPower (fun c => { c with heartbeatLost := false }); let s := s.setB F.HST_STAT_AWAKE 0 true;
       let s := s.setB F.IMG_BOOTSTAT_NOIMG 0 false; let s := s.mapPort (fun c => { c with page := c.page % 8 });
       let s := s.setB F.PH_CFG_USED 7 true; let s := s.setF F.PH_CFG_CLUSTER 7 s.port.page.toNat;
       s), { read := true, data := [], clocks := 0x0#8 }, by unfold State.wireOpen Wire.asks; decide +kernel⟩,
   ⟨(let s := base; let s := s.notDev .boot; let s := s.setF F.DEV_PWRSTAT_LSTAGE 0 0;
       let s := s.mapPower (fun c => { c with heartbeatLost := false }); let s := s.setB F.HST_STAT_AWAKE 0 true;
       let s := s.setB F.IMG_BOOTSTAT_NOIMG 0 false; let s := s.mapPort (fun c => { c with page := c.page % 8 });
       let s := s.setB F.PH_CFG_USED 7 true; let s := s.setF F.PH_CFG_CLUSTER 7 s.port.page.toNat;
       s), { read := true, data := [], clocks := 0x0#8 }, by unfold State.wireOpen Wire.asks; decide +kernel⟩,
   ⟨(let s := base; let s := s.notDev .boot; let s := s.setF F.DEV_PWRSTAT_LSTAGE 0 0;
       let s := s.mapPower (fun c => { c with heartbeatLost := false }); let s := s.setB F.HST_STAT_AWAKE 0 true;
       let s := s.setB F.IMG_BOOTSTAT_NOIMG 0 false; let s := s.mapPort (fun c => { c with page := c.page % 8 });
       let s := s.setB F.PH_CFG_USED 7 true; let s := s.setF F.PH_CFG_CLUSTER 7 s.port.page.toNat;
       s), { read := true, data := [], clocks := 0x0#8 }, by unfold State.wireOpen Wire.asks; decide +kernel⟩,
   ⟨(let s := base; let s := s.notDev .boot; let s := s.setF F.DEV_PWRSTAT_LSTAGE 0 0;
       let s := s.mapPower (fun c => { c with heartbeatLost := false }); let s := s.setB F.HST_STAT_AWAKE 0 true;
       let s := s.setB F.IMG_BOOTSTAT_NOIMG 0 false; let s := s.mapPort (fun c => { c with page := c.page % 8 });
       let s := s.setB F.PH_CFG_USED 7 true; let s := s.setF F.PH_CFG_CLUSTER 7 s.port.page.toNat;
       s), { read := true, data := [], clocks := 0x0#8 }, by unfold State.wireOpen Wire.asks; decide +kernel⟩,
   ⟨(let s := base; let s := s.notDev .boot; let s := s.setF F.DEV_PWRSTAT_LSTAGE 0 0;
       let s := s.mapPower (fun c => { c with heartbeatLost := false }); let s := s.setB F.HST_STAT_AWAKE 0 true;
       let s := s.setB F.IMG_BOOTSTAT_NOIMG 0 false; let s := s.mapPort (fun c => { c with page := 16 + c.page % 3 });
       let s := s.setB F.FEED_CFG_EN s.pageFeed true;
       s), { read := true, data := [], clocks := 0x0#8 }, by unfold State.wireOpen Wire.asks; decide +kernel⟩,
   ⟨(let s := base; let s := s.notDev .boot; let s := s.setF F.DEV_PWRSTAT_LSTAGE 0 0;
       let s := s.mapPower (fun c => { c with heartbeatLost := false }); let s := s.setB F.HST_STAT_AWAKE 0 true;
       let s := s.setB F.IMG_BOOTSTAT_NOIMG 0 false; let s := s.mapImg (fun z' => { z' with blevel := 1 });
       s), { read := true, data := [], clocks := 0x0#8 }, by unfold State.wireOpen Wire.asks; decide +kernel⟩⟩

theorem witness_pmbusWritesAndPortEventsComplete :
    (∃ (s : State) (w : Wire) (v : Byte), s.wireOpen ∧ s.takes 0x00 w [v] ∧
        (v = 0xFF ∨ (s.pagesOf onBoth).contains v.toNat = true)) ∧
    (∃ (s : State) (w : Wire), s.wireOpen ∧ s.takes 0x01 w [0x80] ∧ s.port.page = 0xFF) ∧
    (∃ (s : State) (w : Wire), s.wireOpen ∧ s.takes 0x01 w [0x40] ∧ s.port.page = 0xFF ∧ s.dev ≠ .run) ∧
    (∃ (s : State) (w : Wire), s.wireOpen ∧ s.takes 0x01 w [0x40] ∧ (s.pagesOf onClusters).contains s.port.page.toNat = true ∧
        s.dev = .run ∧ s.hvAbove s.pageCl = false ∧ s.fB F.CL_SEQC_OPOFF s.pageCl = false) ∧
    (∃ (s : State) (w : Wire), s.wireOpen ∧ s.takes 0x01 w [0x80] ∧ (s.pagesOf onClusters).contains s.port.page.toNat = true ∧
        s.dev = .run ∧ (s.cl.get s.pageCl).run = .off ∧ s.clBarred s.pageCl = false ∧ s.srcGood s.pageCl = true ∧
        s.nAv s.pageCl ≠ 0 ∧ ((∀ p : Fin 48, (s.ph.get p).laneFail = false))) ∧
    (∃ (s : State) (w : Wire), s.wireOpen ∧ s.takes 0x03 w [] ∧ s.port.page.toNat < 19) ∧
    (∃ (s : State) (w : Wire), s.wireOpen ∧ s.takes 0x03 w [] ∧ s.port.page = 0xFF) ∧
    (∃ (s : State) (w : Wire), s.wireOpen ∧ s.takes 0x15 w [] ∧ s.storeRefusal = 0) ∧
    (∃ (s : State) (w : Wire) (x : Byte) (y : Byte), s.wireOpen ∧ s.takes 0x21 w [x, y] ∧
        (s.pagesOf onClusters).contains s.port.page.toNat = true ∧ s.txnState = 0 ∧
        roundAway (s.ofLin16 s.port.page.toNat (x.toNat + 256 * y.toNat) * 1000000 / s.gPage s.port.page.toNat / 25) < 65536 ∧
        ((s.hostStore (F.CL_VSET_S.addr s.port.page.toNat) (BitVec.ofInt 32 (roundAway (s.ofLin16 s.port.page.toNat (x.toNat + 256 * y.toNat) * 1000000 / s.gPage s.port.page.toNat / 25)))).checkChanged [F.CL_VSET_S.addr s.port.page.toNat]).isNone = true) ∧
    (∃ (s : State) (w : Wire) (x : Byte) (y : Byte), s.wireOpen ∧ s.takes 0x46 w [x, y] ∧
        (s.pagesOf onClusters).contains s.port.page.toNat = true ∧ s.txnState = 0 ∧
        0 ≤ roundAway (ofLinear11 (x.toNat + 256 * y.toNat) * 10) ∧
        roundAway (ofLinear11 (x.toNat + 256 * y.toNat) * 10) < 2 ^ F.CL_OL_OLIM.w ∧
        State.rangeFails (s.setReg (F.CL_OL_OLIM.addr s.port.page.toNat) (F.CL_OL_OLIM.insert (s.reg (F.CL_OL_OLIM.addr s.port.page.toNat)) (roundAway (ofLinear11 (x.toNat + 256 * y.toNat) * 10)).toNat)) (F.CL_OL_OLIM.addr s.port.page.toNat) = false) ∧
    (∃ (s : State) (w : Wire) (m : Byte), s.wireOpen ∧ s.takes 0x7A w [m] ∧
        (s.pagesOf onClusters).contains s.port.page.toNat = true) ∧
    (∃ (s : State) (w : Wire) (m : Byte), s.wireOpen ∧ s.takes 0x7B w [m] ∧
        (s.pagesOf onClusters).contains s.port.page.toNat = true) ∧
    (∃ (s : State) (w : Wire) (m : Byte), s.wireOpen ∧ s.takes 0x7C w [m] ∧ (s.pagesOf onFeeds).contains s.port.page.toNat = true) ∧
    (∃ (s : State) (w : Wire) (m : Byte), s.wireOpen ∧ s.takes 0x7D w [m] ∧
        (s.pagesOf onClusters).contains s.port.page.toNat = true) ∧
    (∃ (s : State) (w : Wire) (m : Byte), s.wireOpen ∧ s.takes 0x7E w [m]) ∧
    (∃ (s : State) (w : Wire) (x : Byte) (y : Byte), s.wireOpen ∧ s.takes 0xD0 w [x, y]) ∧
    (∃ (s : State) (w : Wire), s.wireOpen ∧ Wire.asks w 6 ∧ 5 ≤ w.clocks.toNat) ∧
    (∃ (s : State) (w : Wire) (b0 : Byte) (b1 : Byte) (b2 : Byte) (b3 : Byte), s.wireOpen ∧ s.takes 0xD1 w [4, b0, b1, b2, b3] ∧
        s.f F.HST_WADDR_ADDR = 0x2E08) ∧
    (∃ (s : State) (w : Wire) (x : Word) (r : _), s.wireOpen ∧ s.img.blevel = 1 ∧ Wire.asks w 7 ∧ 7 = w.clocks.toNat ∧
        s.f F.CAP_FSTAT_PKT_WAIT ≠ 0 ∧ s.stream.fifo.drop s.stream.rd = (x, true) :: r) ∧
    (∃ (s : State) (w : Wire), s.wireOpen ∧ s.img.blevel = 1 ∧ s.takes 0xE1 w [2] ∧ s.atBoundary = true) ∧
    (∃ (s : State), s.portUp = true ∧ s.fB F.HST_STAT_AWAKE = false) ∧
    (∃ (s : State), (s.dev = .standby ∨ s.dev = .dormouse)) ∧
    (∃ (s : State), s.portUp = true) ∧
    (∃ (s : State), s.portUp = true) ∧
    (∃ (s : State) (clocks : BitVec 8), s.portUp = true ∧ s.fB F.HST_STAT_AWAKE = true ∧ s.fB F.HST_ALERT_PEND = true ∧
        clocks.toNat ≤ 2) ∧
    (∃ (s : State) (code : Byte), s.portUp = true ∧ s.fB F.HST_STAT_AWAKE = true ∧ s.pmKnown code.toNat = false) ∧
    (∃ (s : State) (code : Byte), s.portLive .stream = true ∧ knownCode .stream code.toNat = false) :=
  ⟨⟨(let s := base; let s := s.notDev .boot; let s := s.setF F.DEV_PWRSTAT_LSTAGE 0 0;
      let s := s.mapPower (fun c => { c with heartbeatLost := false }); let s := s.setB F.HST_STAT_AWAKE 0 true;
      let s := s.setB F.IMG_BOOTSTAT_NOIMG 0 false; let s := s.setB F.HST_CFG_PECREQ 0 false; let s := s.notDev .dormouse;
      let s := s.notDev .boot; let s := s.setB F.FEED_CFG_EN 1 true;
      s), { read := false, data := [0xFF#8], clocks := 0x0#8 }, 0xFF#8, by unfold State.wireOpen State.takes; decide +kernel⟩,
   ⟨(let s := base; let s := s.notDev .boot; let s := s.setF F.DEV_PWRSTAT_LSTAGE 0 0;
       let s := s.mapPower (fun c => { c with heartbeatLost := false }); let s := s.setB F.HST_STAT_AWAKE 0 true;
       let s := s.setB F.IMG_BOOTSTAT_NOIMG 0 false; let s := s.setB F.HST_CFG_PECREQ 0 false; let s := s.notDev .dormouse;
       let s := s.notDev .boot; let s := s.mapPort (fun z' => { z' with page := 0xFF });
       s), { read := false, data := [0x80#8], clocks := 0x0#8 }, by unfold State.wireOpen State.takes; decide +kernel⟩,
   ⟨(let s := base; let s := s.notDev .boot; let s := s.setF F.DEV_PWRSTAT_LSTAGE 0 0;
       let s := s.mapPower (fun c => { c with heartbeatLost := false }); let s := s.setB F.HST_STAT_AWAKE 0 true;
       let s := s.setB F.IMG_BOOTSTAT_NOIMG 0 false; let s := s.setB F.HST_CFG_PECREQ 0 false; let s := s.notDev .dormouse;
       let s := s.notDev .boot; let s := s.mapPort (fun z' => { z' with page := 0xFF }); let s := s.notDev .run;
       let s := s.inDev .standby;
       s), { read := false, data := [0x40#8], clocks := 0x0#8 }, by unfold State.wireOpen State.takes; decide +kernel⟩,
   ⟨(let s := base; let s := s.notDev .boot; let s := s.setF F.DEV_PWRSTAT_LSTAGE 0 0;
       let s := s.mapPower (fun c => { c with heartbeatLost := false }); let s := s.setB F.HST_STAT_AWAKE 0 true;
       let s := s.setB F.IMG_BOOTSTAT_NOIMG 0 false; let s := s.setB F.HST_CFG_PECREQ 0 false; let s := s.notDev .dormouse;
       let s := s.notDev .boot; let s := s.mapPort (fun c => { c with page := c.page % 8 }); let s := s.setB F.PH_CFG_USED 7 true;
       let s := s.setF F.PH_CFG_CLUSTER 7 s.port.page.toNat; let s := s.each clusters (fun s n => s.setB F.CL_CFG_KIND n false);
       let s := s.inDev .run; let s := s.setB F.CL_SEQC_OPOFF s.pageCl false;
       s), { read := false, data := [0x40#8], clocks := 0x0#8 }, by unfold State.wireOpen State.takes; decide +kernel⟩,
   ⟨(let s := base; let s := s.notDev .boot; let s := s.setF F.DEV_PWRSTAT_LSTAGE 0 0;
       let s := s.mapPower (fun c => { c with heartbeatLost := false }); let s := s.setB F.HST_STAT_AWAKE 0 true;
       let s := s.setB F.IMG_BOOTSTAT_NOIMG 0 false; let s := s.setB F.HST_CFG_PECREQ 0 false; let s := s.notDev .dormouse;
       let s := s.notDev .boot; let s := s.mapPort (fun c => { c with page := c.page % 8 }); let s := s.setB F.PH_CFG_USED 7 true;
       let s := s.setF F.PH_CFG_CLUSTER 7 s.port.page.toNat;
       let s := s.each phases (fun s k => s.mapPh k (fun c => { c with laneFail := false }));
       let s := s.setF F.CL_PHREM_REMMASK s.pageCl 0; let s := s.setPhShed 7 false; let s := s.inDev .run;
       let s := s.setFBit F.SUPV_CLLAT_CLOFFL 0 s.pageCl false; let s := s.setF F.THM_TSD_TSDMASK 0 0;
       let s := s.setB F.CL_WSTAT_SSSHORT s.pageCl false; let s := s.setB F.CL_PSCSTAT_REFUSED s.pageCl false;
       let s := s.mapCl s.pageCl (fun c => { c with seqShut := false });
       let s := s.each (List.finRange 4) (fun s x => s.setF F.RG_CFG_CLMASK x 0);
       s), { read := false, data := [0x80#8], clocks := 0x0#8 }, by unfold State.wireOpen State.takes; decide +kernel⟩,
   ⟨(let s := base; let s := s.notDev .boot; let s := s.setF F.DEV_PWRSTAT_LSTAGE 0 0;
       let s := s.mapPower (fun c => { c with heartbeatLost := false }); let s := s.setB F.HST_STAT_AWAKE 0 true;
       let s := s.setB F.IMG_BOOTSTAT_NOIMG 0 false; let s := s.setB F.HST_CFG_PECREQ 0 false; let s := s.notDev .dormouse;
       let s := s.notDev .boot; let s := s.mapPort (fun c => { c with page := c.page % 19 });
       s), { read := false, data := [], clocks := 0x0#8 }, by unfold State.wireOpen State.takes; decide +kernel⟩,
   ⟨(let s := base; let s := s.notDev .boot; let s := s.setF F.DEV_PWRSTAT_LSTAGE 0 0;
       let s := s.mapPower (fun c => { c with heartbeatLost := false }); let s := s.setB F.HST_STAT_AWAKE 0 true;
       let s := s.setB F.IMG_BOOTSTAT_NOIMG 0 false; let s := s.setB F.HST_CFG_PECREQ 0 false; let s := s.notDev .dormouse;
       let s := s.notDev .boot; let s := s.mapPort (fun z' => { z' with page := 0xFF });
       s), { read := false, data := [], clocks := 0x0#8 }, by unfold State.wireOpen State.takes; decide +kernel⟩,
   ⟨(let s := base; let s := s.notDev .boot; let s := s.setF F.DEV_PWRSTAT_LSTAGE 0 0;
       let s := s.mapPower (fun c => { c with heartbeatLost := false }); let s := s.setB F.HST_STAT_AWAKE 0 true;
       let s := s.setB F.IMG_BOOTSTAT_NOIMG 0 false; let s := s.setB F.HST_CFG_PECREQ 0 false; let s := s.notDev .dormouse;
       let s := s.notDev .boot; let s := s.setF F.TXN_STATUS_STATE 0 0; let s := s.setB F.STORE_STAT_BUSY 0 false;
       let s := s.setB F.IMG_OVLSTAT_MIGR_PEND 0 false; let s := s.setF F.UPD_STAT_SESSION 0 0;
       s), { read := false, data := [], clocks := 0x0#8 }, by unfold State.wireOpen State.takes; decide +kernel⟩,
   ⟨(let s := base; let s := s.notDev .boot; let s := s.setF F.DEV_PWRSTAT_LSTAGE 0 0;
       let s := s.mapPower (fun c => { c with heartbeatLost := false }); let s := s.setB F.HST_STAT_AWAKE 0 true;
       let s := s.setB F.IMG_BOOTSTAT_NOIMG 0 false; let s := s.setB F.HST_CFG_PECREQ 0 false; let s := s.notDev .dormouse;
       let s := s.notDev .boot; let s := s.mapPort (fun c => { c with page := c.page % 8 }); let s := s.setB F.PH_CFG_USED 7 true;
       let s := s.setF F.PH_CFG_CLUSTER 7 s.port.page.toNat; let s := s.setF F.CL_CFG_SGAIN s.port.page.toNat 0;
       let s := s.setF F.TXN_STATUS_STATE 0 0;
       s), { read := false, data := [0x0#8, 0x40#8], clocks := 0x0#8 }, 0x0#8, 0x40#8, by unfold State.wireOpen State.takes; decide +kernel⟩,
   ⟨(let s := base; let s := s.notDev .boot; let s := s.setF F.DEV_PWRSTAT_LSTAGE 0 0;
       let s := s.mapPower (fun c => { c with heartbeatLost := false }); let s := s.setB F.HST_STAT_AWAKE 0 true;
       let s := s.setB F.IMG_BOOTSTAT_NOIMG 0 false; let s := s.setB F.HST_CFG_PECREQ 0 false; let s := s.notDev .dormouse;
       let s := s.notDev .boot; let s := s.mapPort (fun c => { c with page := c.page % 8 }); let s := s.setB F.PH_CFG_USED 7 true;
       let s := s.setF F.PH_CFG_CLUSTER 7 s.port.page.toNat; let s := s.setF F.TXN_STATUS_STATE 0 0;
       let s := s.setF F.CL_OL_OLT s.port.page.toNat 1;
       s), { read := false, data := [0x64#8, 0x0#8], clocks := 0x0#8 }, 0x64#8, 0x0#8, by unfold State.wireOpen State.takes; decide +kernel⟩,
   ⟨(let s := base; let s := s.notDev .boot; let s := s.setF F.DEV_PWRSTAT_LSTAGE 0 0;
       let s := s.mapPower (fun c => { c with heartbeatLost := false }); let s := s.setB F.HST_STAT_AWAKE 0 true;
       let s := s.setB F.IMG_BOOTSTAT_NOIMG 0 false; let s := s.setB F.HST_CFG_PECREQ 0 false; let s := s.notDev .dormouse;
       let s := s.notDev .boot; let s := s.mapPort (fun c => { c with page := c.page % 8 }); let s := s.setB F.PH_CFG_USED 7 true;
       let s := s.setF F.PH_CFG_CLUSTER 7 s.port.page.toNat;
       s), { read := false, data := [0x2#8], clocks := 0x0#8 }, 0x2#8, by unfold State.wireOpen State.takes; decide +kernel⟩,
   ⟨(let s := base; let s := s.notDev .boot; let s := s.setF F.DEV_PWRSTAT_LSTAGE 0 0;
       let s := s.mapPower (fun c => { c with heartbeatLost := false }); let s := s.setB F.HST_STAT_AWAKE 0 true;
       let s := s.setB F.IMG_BOOTSTAT_NOIMG 0 false; let s := s.setB F.HST_CFG_PECREQ 0 false; let s := s.notDev .dormouse;
       let s := s.notDev .boot; let s := s.mapPort (fun c => { c with page := c.page % 8 }); let s := s.setB F.PH_CFG_USED 7 true;
       let s := s.setF F.PH_CFG_CLUSTER 7 s.port.page.toNat;
       s), { read := false, data := [0x2#8], clocks := 0x0#8 }, 0x2#8, by unfold State.wireOpen State.takes; decide +kernel⟩,
   ⟨(let s := base; let s := s.notDev .boot; let s := s.setF F.DEV_PWRSTAT_LSTAGE 0 0;
       let s := s.mapPower (fun c => { c with heartbeatLost := false }); let s := s.setB F.HST_STAT_AWAKE 0 true;
       let s := s.setB F.IMG_BOOTSTAT_NOIMG 0 false; let s := s.setB F.HST_CFG_PECREQ 0 false; let s := s.notDev .dormouse;
       let s := s.notDev .boot; let s := s.mapPort (fun c => { c with page := 16 + c.page % 3 });
       let s := s.setB F.FEED_CFG_EN s.pageFeed true;
       s), { read := false, data := [0x2#8], clocks := 0x0#8 }, 0x2#8, by unfold State.wireOpen State.takes; decide +kernel⟩,
   ⟨(let s := base; let s := s.notDev .boot; let s := s.setF F.DEV_PWRSTAT_LSTAGE 0 0;
       let s := s.mapPower (fun c => { c with heartbeatLost := false }); let s := s.setB F.HST_STAT_AWAKE 0 true;
       let s := s.setB F.IMG_BOOTSTAT_NOIMG 0 false; let s := s.setB F.HST_CFG_PECREQ 0 false; let s := s.notDev .dormouse;
       let s := s.notDev .boot; let s := s.mapPort (fun c => { c with page := c.page % 8 }); let s := s.setB F.PH_CFG_USED 7 true;
       let s := s.setF F.PH_CFG_CLUSTER 7 s.port.page.toNat;
       s), { read := false, data := [0x2#8], clocks := 0x0#8 }, 0x2#8, by unfold State.wireOpen State.takes; decide +kernel⟩,
   ⟨(let s := base; let s := s.notDev .boot; let s := s.setF F.DEV_PWRSTAT_LSTAGE 0 0;
       let s := s.mapPower (fun c => { c with heartbeatLost := false }); let s := s.setB F.HST_STAT_AWAKE 0 true;
       let s := s.setB F.IMG_BOOTSTAT_NOIMG 0 false; let s := s.setB F.HST_CFG_PECREQ 0 false; let s := s.notDev .dormouse;
       let s := s.notDev .boot;
       s), { read := false, data := [0x2#8], clocks := 0x0#8 }, 0x2#8, by unfold State.wireOpen State.takes; decide +kernel⟩,
   ⟨(let s := base; let s := s.notDev .boot; let s := s.setF F.DEV_PWRSTAT_LSTAGE 0 0;
       let s := s.mapPower (fun c => { c with heartbeatLost := false }); let s := s.setB F.HST_STAT_AWAKE 0 true;
       let s := s.setB F.IMG_BOOTSTAT_NOIMG 0 false; let s := s.setB F.HST_CFG_PECREQ 0 false; let s := s.notDev .dormouse;
       let s := s.notDev .boot;
       s), { read := false, data := [0x0#8, 0x80#8], clocks := 0x0#8 }, 0x0#8, 0x80#8, by unfold State.wireOpen State.takes; decide +kernel⟩,
   ⟨(let s := base; let s := s.notDev .boot; let s := s.setF F.DEV_PWRSTAT_LSTAGE 0 0;
       let s := s.mapPower (fun c => { c with heartbeatLost := false }); let s := s.setB F.HST_STAT_AWAKE 0 true;
       let s := s.setB F.IMG_BOOTSTAT_NOIMG 0 false; let s := s.setB F.HST_CFG_PECREQ 0 false; let s := s.notDev .dormouse;
       let s := s.notDev .boot;
       s), { read := true, data := [], clocks := 0x5#8 }, by unfold State.wireOpen Wire.asks; decide +kernel⟩,
   ⟨(let s := base; let s := s.notDev .boot; let s := s.setF F.DEV_PWRSTAT_LSTAGE 0 0;
       let s := s.mapPower (fun c => { c with heartbeatLost := false }); let s := s.setB F.HST_STAT_AWAKE 0 true;
       let s := s.setB F.IMG_BOOTSTAT_NOIMG 0 false; let s := s.setB F.HST_CFG_PECREQ 0 false; let s := s.notDev .dormouse;
       let s := s.notDev .boot; let s := s.setF F.HST_WADDR_ADDR 0 0x2E08;
       s), { read := false, data := [0x4#8, 0x0#8, 0xFF#8, 0x0#8, 0x8#8], clocks := 0x0#8 }, 0x0#8, 0xFF#8, 0x0#8, 0x8#8, by unfold State.wireOpen State.takes; decide +kernel⟩,
   ⟨(fun (x : Word) r => (let s := base; let s := s.notDev .boot; let s := s.setF F.DEV_PWRSTAT_LSTAGE 0 0;
       let s := s.mapPower (fun c => { c with heartbeatLost := false }); let s := s.setB F.HST_STAT_AWAKE 0 true;
       let s := s.setB F.IMG_BOOTSTAT_NOIMG 0 false; let s := s.setB F.HST_CFG_PECREQ 0 false; let s := s.notDev .dormouse;
       let s := s.notDev .boot; let s := s.mapImg (fun c => { c with blevel := 1 });
       let s := s.mapStream (fun c => { c with rd := 2, fifo := (4, false) :: (5, false) :: (x, true) :: r });
       let s := s.mapImg (fun z' => { z' with blevel := 1 }); let s := s.setF F.CAP_FSTAT_PKT_WAIT 0 1;
       s)) 0x6119A240#32 ([]), { read := true, data := [], clocks := 0x7#8 }, 0x6119A240#32, [], by unfold State.wireOpen Wire.asks; decide +kernel⟩,
   ⟨(let s := base; let s := s.notDev .boot; let s := s.setF F.DEV_PWRSTAT_LSTAGE 0 0;
       let s := s.mapPower (fun c => { c with heartbeatLost := false }); let s := s.setB F.HST_STAT_AWAKE 0 true;
       let s := s.setB F.IMG_BOOTSTAT_NOIMG 0 false; let s := s.setB F.HST_CFG_PECREQ 0 false; let s := s.notDev .dormouse;
       let s := s.notDev .boot; let s := s.mapImg (fun c => { c with blevel := 1 });
       let s := s.mapStream (fun c => { c with rd := 0 }); let s := s.mapImg (fun z' => { z' with blevel := 1 });
       s), { read := false, data := [0x2#8], clocks := 0x0#8 }, by unfold State.wireOpen State.takes; decide +kernel⟩,
   ⟨(let s := base; let s := s.notDev .boot; let s := s.setF F.DEV_PWRSTAT_LSTAGE 0 0;
       let s := s.mapPower (fun c => { c with heartbeatLost := false }); let s := s.setB F.HST_STAT_AWAKE 0 true;
       let s := s.setB F.IMG_BOOTSTAT_NOIMG 0 false; let s := s.setB F.HST_CFG_PECREQ 0 false; let s := s.notDev .dormouse;
       let s := s.notDev .boot; let s := hlive s; let s := s.setB F.HST_STAT_AWAKE 0 false; s), by decide +kernel⟩,
   ⟨(let s := base; let s := s.inDev .standby; s), by decide +kernel⟩,
   ⟨(let s := base; let s := s.notDev .boot; let s := s.setF F.DEV_PWRSTAT_LSTAGE 0 0;
       let s := s.mapPower (fun c => { c with heartbeatLost := false }); let s := s.setB F.HST_STAT_AWAKE 0 true;
       let s := s.setB F.IMG_BOOTSTAT_NOIMG 0 false; let s := s.setB F.HST_CFG_PECREQ 0 false; let s := s.notDev .dormouse;
       let s := s.notDev .boot; let s := hlive s; s), by decide +kernel⟩,
   ⟨(let s := base; let s := s.notDev .boot; let s := s.setF F.DEV_PWRSTAT_LSTAGE 0 0;
       let s := s.mapPower (fun c => { c with heartbeatLost := false }); let s := s.setB F.HST_STAT_AWAKE 0 true;
       let s := s.setB F.IMG_BOOTSTAT_NOIMG 0 false; let s := s.setB F.HST_CFG_PECREQ 0 false; let s := s.notDev .dormouse;
       let s := s.notDev .boot; let s := hlive s; s), by decide +kernel⟩,
   ⟨(let s := base; let s := s.notDev .boot; let s := s.setF F.DEV_PWRSTAT_LSTAGE 0 0;
       let s := s.mapPower (fun c => { c with heartbeatLost := false }); let s := s.setB F.HST_STAT_AWAKE 0 true;
       let s := s.setB F.IMG_BOOTSTAT_NOIMG 0 false; let s := s.setB F.HST_CFG_PECREQ 0 false; let s := s.notDev .dormouse;
       let s := s.notDev .boot; let s := hlive s; let s := s.setB F.HST_STAT_AWAKE 0 true; let s := s.setB F.HST_ALERT_PEND 0 true;
       s), 0x1#8, by decide +kernel⟩,
   ⟨(let s := base; let s := s.notDev .boot; let s := s.setF F.DEV_PWRSTAT_LSTAGE 0 0;
       let s := s.mapPower (fun c => { c with heartbeatLost := false }); let s := s.setB F.HST_STAT_AWAKE 0 true;
       let s := s.setB F.IMG_BOOTSTAT_NOIMG 0 false; let s := s.setB F.HST_CFG_PECREQ 0 false; let s := s.notDev .dormouse;
       let s := s.notDev .boot; let s := hlive s; let s := s.setB F.HST_STAT_AWAKE 0 true; s), 0xF4#8, by decide +kernel⟩,
   ⟨(let s := base; let s := hlive s; s), 0xF4#8, by decide +kernel⟩⟩

theorem witness_streamFramesComplete :
    (∃ (s : State) (f : StreamFrame), s.takesFrame 0x01 .read f ∧ f.len = 1) ∧
    (∃ (s : State) (f : StreamFrame), s.takesFrame 0x01 .read f ∧ 1 ≤ f.len.toNat ∧ f.len.toNat ≤ 512) ∧
    (∃ (s : State) (v : Word) (f : StreamFrame), s.takesFrame 0x02 .write f ∧ f.len = 1 ∧ f.data = [v] ∧
        (writeWord .stream f.addr.toNat v s).2 = 0 ∧ (writeWord .stream f.addr.toNat v s).1.portLive .stream = true) ∧
    (∃ (s : State) (v : Word) (f : StreamFrame), s.takesFrame 0x02 .write f ∧ f.len = 1 ∧ f.data = [v] ∧ s.hostOpen .stream ∧
        f.addr = 0x2E08) ∧
    (∃ (s : State) (f : StreamFrame) (x : Word × Bool) (r : List (Word × Bool)), s.takesFrame 0x03 .read f ∧ f.addr = 0 ∧
        f.len = 1 ∧ s.f F.CAP_FSTAT_PKT_WAIT ≠ 0 ∧ s.stream.rd = 0 ∧ s.img.blevel ≠ 1 ∧ s.stream.fifo = x :: r) ∧
    (∃ (s : State) (f : StreamFrame), s.takesFrame 0x03 .read f ∧ f.addr = 0 ∧ f.len = 1 ∧ s.f F.CAP_FSTAT_PKT_WAIT = 0) ∧
    (∃ (s : State) (f : StreamFrame), s.takesFrame 0x04 .none f ∧ f.len = 0 ∧ s.dev ≠ .dormouse ∧ f.addr.toNat % 256 = 1 ∧
        s.img.blevel ≠ 1 ∧ s.stream.out = [] ∧ s.stream.openPkt = [] ∧ s.stream.midRead = false) ∧
    (∃ (s : State) (f : StreamFrame), s.takesFrame 0x04 .none f ∧ f.len = 0 ∧ s.dev ≠ .dormouse ∧ f.addr.toNat % 256 = 2 ∧
        s.img.blevel = 1 ∧ s.atBoundary = true) ∧
    (∃ (s : State) (f : StreamFrame), s.takesFrame 0x05 .none f ∧ f.len = 0 ∧ s.dev ≠ .dormouse ∧ f.addr = 0xCA10 ∧
        s.storeRefusal = 0) :=
  ⟨⟨(let s := base; let s := s.notDev .boot; let s := s.setF F.DEV_PWRSTAT_LSTAGE 0 0;
      let s := s.mapPower (fun c => { c with heartbeatLost := false, dieHot := false });
      let s := s.setB F.IMG_BOOTSTAT_NOIMG 0 false; let s := s.notDev .dormouse; let s := s.notDev .boot;
      s), { addr := 0x27F4#16, len := 0x1#16, data := [], crc := 0xDE86#16, early := false }, by unfold State.takesFrame; decide +kernel⟩,
   ⟨(let s := base; let s := s.notDev .boot; let s := s.setF F.DEV_PWRSTAT_LSTAGE 0 0;
       let s := s.mapPower (fun c => { c with heartbeatLost := false, dieHot := false });
       let s := s.setB F.IMG_BOOTSTAT_NOIMG 0 false; let s := s.notDev .dormouse; let s := s.notDev .boot;
       s), { addr := 0xF7F4#16, len := 0x1#16, data := [], crc := 0xBB12#16, early := false }, by unfold State.takesFrame; decide +kernel⟩,
   ⟨(let s := base; let s := s.notDev .boot; let s := s.setF F.DEV_PWRSTAT_LSTAGE 0 0;
       let s := s.mapPower (fun c => { c with heartbeatLost := false, dieHot := false });
       let s := s.setB F.IMG_BOOTSTAT_NOIMG 0 false; let s := s.notDev .dormouse; let s := s.notDev .boot;
       let s := s.setF F.TXN_STATUS_STATE 0 0;
       s), 0x151AF7F4#32, { addr := 0x2E08#16, len := 0x1#16, data := [0x151AF7F4#32], crc := 0x4443#16, early := false }, by unfold State.takesFrame; decide +kernel⟩,
   ⟨(let s := base; let s := s.notDev .boot; let s := s.setF F.DEV_PWRSTAT_LSTAGE 0 0;
       let s := s.mapPower (fun c => { c with heartbeatLost := false, dieHot := false });
       let s := s.setB F.IMG_BOOTSTAT_NOIMG 0 false; let s := s.notDev .dormouse; let s := s.notDev .boot;
       s), 0x151AF7F4#32, { addr := 0x2E08#16, len := 0x1#16, data := [0x151AF7F4#32], crc := 0x4443#16, early := false }, by unfold State.hostOpen State.takesFrame; decide +kernel⟩,
   ⟨(fun (x : Word × Bool) (r : List (Word × Bool)) => (let s := base; let s := s.notDev .boot;
       let s := s.setF F.DEV_PWRSTAT_LSTAGE 0 0; let s := s.mapPower (fun c => { c with heartbeatLost := false, dieHot := false });
       let s := s.setB F.IMG_BOOTSTAT_NOIMG 0 false; let s := s.notDev .dormouse; let s := s.notDev .boot;
       let s := s.mapStream (fun c => { c with rd := 0, fifo := x :: r }); let s := s.mapImg (fun c => { c with blevel := 2 });
       let s := s.setF F.CAP_FSTAT_PKT_WAIT 0 1; let s := s.mapStream (fun z' => { z' with rd := 0 });
       let s := s.mapStream (fun z' => { z' with fifo := x :: r });
       s)) ((0xAC402D8D#32, true)) ([]), { addr := 0x0#16, len := 0x1#16, data := [], crc := 0xCCEF#16, early := false }, (0xAC402D8D#32, true), [], by unfold State.takesFrame; decide +kernel⟩,
   ⟨(let s := base; let s := s.notDev .boot; let s := s.setF F.DEV_PWRSTAT_LSTAGE 0 0;
       let s := s.mapPower (fun c => { c with heartbeatLost := false, dieHot := false });
       let s := s.setB F.IMG_BOOTSTAT_NOIMG 0 false; let s := s.notDev .dormouse; let s := s.notDev .boot;
       let s := s.setF F.CAP_FSTAT_PKT_WAIT 0 0;
       s), { addr := 0x0#16, len := 0x1#16, data := [], crc := 0xCCEF#16, early := false }, by unfold State.takesFrame; decide +kernel⟩,
   ⟨(let s := base; let s := s.notDev .boot; let s := s.setF F.DEV_PWRSTAT_LSTAGE 0 0;
       let s := s.mapPower (fun c => { c with heartbeatLost := false, dieHot := false });
       let s := s.setB F.IMG_BOOTSTAT_NOIMG 0 false; let s := s.notDev .dormouse; let s := s.notDev .boot;
       let s := s.mapImg (fun c => { c with blevel := 2 }); let s := s.notDev .dormouse;
       let s := s.mapStream (fun z' => { z' with out := [] }); let s := s.mapStream (fun z' => { z' with openPkt := [] });
       let s := s.mapStream (fun z' => { z' with midRead := false });
       s), { addr := 0xF401#16, len := 0x0#16, data := [], crc := 0xD12C#16, early := false }, by unfold State.takesFrame; decide +kernel⟩,
   ⟨(let s := base; let s := s.notDev .boot; let s := s.setF F.DEV_PWRSTAT_LSTAGE 0 0;
       let s := s.mapPower (fun c => { c with heartbeatLost := false, dieHot := false });
       let s := s.setB F.IMG_BOOTSTAT_NOIMG 0 false; let s := s.notDev .dormouse; let s := s.notDev .boot;
       let s := s.mapImg (fun c => { c with blevel := 1 }); let s := s.mapStream (fun c => { c with rd := 0 });
       let s := s.notDev .dormouse; let s := s.mapImg (fun z' => { z' with blevel := 1 });
       s), { addr := 0xF402#16, len := 0x0#16, data := [], crc := 0x4AF0#16, early := false }, by unfold State.takesFrame; decide +kernel⟩,
   ⟨(let s := base; let s := s.notDev .boot; let s := s.setF F.DEV_PWRSTAT_LSTAGE 0 0;
       let s := s.mapPower (fun c => { c with heartbeatLost := false, dieHot := false });
       let s := s.setB F.IMG_BOOTSTAT_NOIMG 0 false; let s := s.notDev .dormouse; let s := s.notDev .boot;
       let s := s.setF F.TXN_STATUS_STATE 0 0; let s := s.setB F.STORE_STAT_BUSY 0 false;
       let s := s.setB F.IMG_OVLSTAT_MIGR_PEND 0 false; let s := s.setF F.UPD_STAT_SESSION 0 0; let s := s.notDev .dormouse;
       s), { addr := 0xCA10#16, len := 0x0#16, data := [], crc := 0xC8CA#16, early := false }, by unfold State.takesFrame; decide +kernel⟩⟩

theorem witness_hostWritesTransactionsAndStoreComplete :
    (∃ (s : State) (p : Port) (a : BitVec 16) (v : Word), s.hostOpen p ∧ (commandWrite p a.toNat v s).isNone = true ∧
        specialReg a.toNat = false ∧ ((a.toNat < 0x1000 ∨ 0x2000 ≤ a.toNat ∨ a.toNat % 0x100 ≠ 0x13)) ∧ hasRwt a.toNat = false ∧
        ((s.hostStore a.toNat v).checkChanged [a.toNat]).isNone = true) ∧
    (∃ (s : State) (p : Port) (a : BitVec 16) (v : Word), s.portLive p = true ∧ s.noImg = false ∧ s.dev ≠ .dormouse ∧
        s.txnState = 1 ∧ s.txnOwner p = true ∧ hasStored a.toNat = true ∧ s.f F.TXN_STATUS_COUNT < 256 ∧
        specialReg a.toNat = false ∧
        (s.layShadows.setReg a.toNat (mergeStored a.toNat (s.layShadows.reg a.toNat) v)).rangeFails a.toNat = false) ∧
    (∃ (s : State) (p : Port), s.hostOpen p) ∧
    (∃ (s : State) (p : Port) (token : BitVec 8), s.portLive p = true ∧ s.noImg = false ∧ s.dev ≠ .dormouse ∧ s.txnState = 1 ∧
        s.f F.TXN_STATUS_TOKEN = token.toNat ∧ s.fB F.TXN_STATUS_OVF = false) ∧
    (∃ (s : State) (p : Port) (token : BitVec 8), s.portLive p = true ∧ s.noImg = false ∧ s.dev ≠ .dormouse ∧ s.txnState = 1 ∧
        s.f F.TXN_STATUS_TOKEN = token.toNat ∧ s.fB F.TXN_STATUS_OVF = true) ∧
    (∃ (s : State) (p : Port) (token : BitVec 8), s.portLive p = true ∧ s.noImg = false ∧ s.dev ≠ .dormouse ∧ s.txnState = 1 ∧
        s.f F.TXN_STATUS_TOKEN = token.toNat) ∧
    (∃ (s : State), s.txnState = 2 ∧ (s.layShadows.checkChanged (s.shadowList.map (·.1))).isNone = true ∧
        (claimsFail s s.shadowList).isNone = true) ∧
    (∃ (s : State) (c : Nat) (a : Nat), s.txnState = 2 ∧ s.layShadows.checkChanged (s.shadowList.map (·.1)) = some (c, a) ∧
        s.txn.single.isNone = true) ∧
    (∃ (s : State) (a : Nat) (v : Word), s.txnState = 3 ∧ s.clk.tmr.toNat % 1000 = 0 ∧ s.clk.tmr ≠ s.txn.passTick ∧
        s.txn.shadows = [(a, v)] ∧ specialReg a = false) ∧
    (∃ (s : State), s.txnState = 3 ∧ s.clk.tmr.toNat % 1000 = 0 ∧ s.clk.tmr ≠ s.txn.passTick ∧ s.txn.shadows = []) ∧
    (∃ (s : State), s.txnState = 1) ∧
    (∃ (s : State) (p : Port), s.hostOpen p ∧ s.storeRefusal = 0) ∧
    (∃ (s : State) (k : Fin 2) (b : Bank), s.nvm.storing = some (k, b)) ∧
    (∃ (s : State) (k : Fin 2) (b : Bank), s.nvm.storing = some (k, b)) :=
  ⟨⟨(let s := base; let s := hopen s; s), Port.stream, 0x3200#16, 0xFFFFFFFF#32, by unfold State.hostOpen; decide +kernel⟩,
   ⟨(fun (p : Port) => (let s := base; let s := s.notDev .boot; let s := s.setF F.DEV_PWRSTAT_LSTAGE 0 0;
       let s := s.mapPower (fun c => { c with heartbeatLost := false, dieHot := false });
       let s := s.setB F.IMG_BOOTSTAT_NOIMG 0 false; let s := s.notDev .dormouse; let s := s.notDev .boot;
       let s := s.setB F.HST_STAT_AWAKE 0 true; let s := s.setF F.TXN_STATUS_STATE 0 1;
       let s := s.setF F.TXN_STATUS_PORT 0 (portNum p); let s := s.setF F.TXN_STATUS_COUNT 0 3;
       let s := s.mapTxn (fun c => { c with shadows := [] }); let s := hlive s; let s := s.setB F.IMG_BOOTSTAT_NOIMG 0 false;
       let s := s.notDev .dormouse; let s := s.setF F.TXN_STATUS_STATE 0 1; let s := s.setF F.TXN_STATUS_COUNT 0 255;
       s)) Port.stream, Port.stream, 0x3200#16, 0xFFFFFFFF#32, by decide +kernel⟩,
   ⟨(let s := base; let s := hopen s; s), Port.stream, by unfold State.hostOpen; decide +kernel⟩,
   ⟨(fun (p : Port) (token : BitVec 8) => (let s := base; let s := s.notDev .boot; let s := s.setF F.DEV_PWRSTAT_LSTAGE 0 0;
       let s := s.mapPower (fun c => { c with heartbeatLost := false, dieHot := false });
       let s := s.setB F.IMG_BOOTSTAT_NOIMG 0 false; let s := s.notDev .dormouse; let s := s.notDev .boot;
       let s := s.setB F.HST_STAT_AWAKE 0 true; let s := s.setF F.TXN_STATUS_STATE 0 1;
       let s := s.setF F.TXN_STATUS_PORT 0 (portNum p); let s := s.setF F.TXN_STATUS_COUNT 0 3; let s := hlive s;
       let s := s.setB F.IMG_BOOTSTAT_NOIMG 0 false; let s := s.notDev .dormouse; let s := s.setF F.TXN_STATUS_STATE 0 1;
       let s := s.setB F.TXN_STATUS_OVF 0 false; let s := s.setF F.TXN_STATUS_TOKEN 0 token.toNat;
       s)) Port.stream 0xFF#8, Port.stream, 0xFF#8, by decide +kernel⟩,
   ⟨(fun (p : Port) (token : BitVec 8) => (let s := base; let s := s.notDev .boot; let s := s.setF F.DEV_PWRSTAT_LSTAGE 0 0;
       let s := s.mapPower (fun c => { c with heartbeatLost := false, dieHot := false });
       let s := s.setB F.IMG_BOOTSTAT_NOIMG 0 false; let s := s.notDev .dormouse; let s := s.notDev .boot;
       let s := s.setB F.HST_STAT_AWAKE 0 true; let s := s.setF F.TXN_STATUS_STATE 0 1;
       let s := s.setF F.TXN_STATUS_PORT 0 (portNum p); let s := s.setF F.TXN_STATUS_COUNT 0 3; let s := hlive s;
       let s := s.setB F.IMG_BOOTSTAT_NOIMG 0 false; let s := s.notDev .dormouse; let s := s.setF F.TXN_STATUS_STATE 0 1;
       let s := s.setB F.TXN_STATUS_OVF 0 true; let s := s.setF F.TXN_STATUS_TOKEN 0 token.toNat;
       s)) Port.stream 0xFF#8, Port.stream, 0xFF#8, by decide +kernel⟩,
   ⟨(fun (p : Port) (token : BitVec 8) => (let s := base; let s := s.notDev .boot; let s := s.setF F.DEV_PWRSTAT_LSTAGE 0 0;
       let s := s.mapPower (fun c => { c with heartbeatLost := false, dieHot := false });
       let s := s.setB F.IMG_BOOTSTAT_NOIMG 0 false; let s := s.notDev .dormouse; let s := s.notDev .boot;
       let s := s.setB F.HST_STAT_AWAKE 0 true; let s := s.setF F.TXN_STATUS_STATE 0 1;
       let s := s.setF F.TXN_STATUS_PORT 0 (portNum p); let s := s.setF F.TXN_STATUS_COUNT 0 3; let s := hlive s;
       let s := s.setB F.IMG_BOOTSTAT_NOIMG 0 false; let s := s.notDev .dormouse; let s := s.setF F.TXN_STATUS_STATE 0 1;
       let s := s.setF F.TXN_STATUS_TOKEN 0 token.toNat; s)) Port.stream 0xFF#8, Port.stream, 0xFF#8, by decide +kernel⟩,
   ⟨(let s := base; let s := s.mapTxn (fun c => { c with shadows := [] }); let s := s.setF F.TXN_STATUS_STATE 0 2;
       s), by decide +kernel⟩,
   ⟨(fun (c : Nat) => (let s := base; let s := s.mapTxn (fun c => { c with shadows := [(0x2C00, 0)], single := none });
       let s := s.setF F.TXN_STATUS_STATE 0 2; s)) 2, 2, 11264, by decide +kernel⟩,
   ⟨(fun (a : Nat) (v : Word) => (let s := base; let s := s.mapClk (fun c => { c with tmr := 5000000 });
       let s := s.setF F.TXN_STATUS_STATE 0 3; let s := s.mapTxn (fun z' => { z' with shadows := [(a, v)] });
       s)) 2 0x8#32, 2, 0x8#32, by decide +kernel⟩,
   ⟨(let s := base; let s := s.mapClk (fun c => { c with tmr := 5000000 }); let s := s.setF F.TXN_STATUS_STATE 0 3;
       let s := s.mapTxn (fun z' => { z' with shadows := [] }); s), by decide +kernel⟩,
   ⟨(let s := base; let s := s.setF F.TXN_STATUS_STATE 0 1; s), by decide +kernel⟩,
   ⟨(let s := base; let s := s.notDev .boot; let s := s.setF F.DEV_PWRSTAT_LSTAGE 0 0;
       let s := s.mapPower (fun c => { c with heartbeatLost := false, dieHot := false });
       let s := s.setB F.IMG_BOOTSTAT_NOIMG 0 false; let s := s.notDev .dormouse; let s := s.notDev .boot;
       let s := s.setB F.HST_STAT_AWAKE 0 true; let s := s.setF F.TXN_STATUS_STATE 0 0; let s := s.setB F.STORE_STAT_BUSY 0 false;
       let s := s.setB F.IMG_OVLSTAT_MIGR_PEND 0 false; let s := s.setF F.UPD_STAT_SESSION 0 0; let s := hopen s;
       s), Port.stream, by unfold State.hostOpen; decide +kernel⟩,
   ⟨(fun (k : Fin 2) (b : Bank) => (let s := base; let s := s.mapNvm (fun z' => { z' with storing := some (k, b) });
       s)) 1 ({ fmt := 0x3#16, seq := 0x0#32, hash := 0x100000#64, entries := [] }), 1, { fmt := 0x3#16, seq := 0x0#32, hash := 0x100000#64, entries := [] }, by decide +kernel⟩,
   ⟨(fun (k : Fin 2) (b : Bank) => (let s := base; let s := s.mapNvm (fun z' => { z' with storing := some (k, b) });
       s)) 1 ({ fmt := 0x3#16, seq := 0x0#32, hash := 0x100000#64, entries := [] }), 1, { fmt := 0x3#16, seq := 0x0#32, hash := 0x100000#64, entries := [] }, by decide +kernel⟩⟩

theorem witness_fieldBusCommandsComplete :
    (∃ (s : State) (b : Fin 2) (e : Nat) (l : List Nat), s.busLive b = true ∧ (s.bu b).cur = none ∧ (s.bu b).waitStop = false ∧
        (s.bu b).onDemand = e :: l ∧ e < 64) ∧
    (∃ (s : State) (b : Fin 2) (e : Nat), s.busLive b = true ∧ (s.bu b).cur = none ∧ (s.bu b).waitStop = false ∧
        (s.bu b).onDemand = [] ∧ s.nextPoll b = some e) ∧
    (∃ (s : State) (b : Fin 2) (e : Nat) (data : List Byte), (s.bu b).cur = some e ∧ e < 64 ∧
        (s.poll b F.POLL1_A_PROTO e ≠ 2 ∨ data.length = s.poll b F.POLL1_B_COUNT e) ∧
        (s.poll b F.POLL1_A_KIND e = 0 ∨ s.poll b F.POLL1_A_KIND e = 5 ∨ s.poll b F.POLL1_A_KIND e = 9)) ∧
    (∃ (s : State) (b : Fin 2) (e : Nat) (r : Fin 4), (s.bu b).cur = some e ∧ e < 64 ∧ (r = 1 ∨ r = 2)) ∧
    (∃ (s : State) (b : Fin 2) (e : Fin 64), s.busLive b = true ∧ s.pollOn b e = true ∧ s.poll b F.POLL1_A_PERIOD e ≠ 0 ∧
        staleKind (s.poll b F.POLL1_A_KIND e) = true ∧ s.poll b F.POLL1_A_KIND e ≠ 6 ∧ (s.bu b).stale.getLsbD e = false) ∧
    (∃ (s : State) (b : Fin 2), (s.bu b).cur.isSome = true ∧ (s.bu b).waitStop = false ∧ (s.bu b).lost < 8) ∧
    (∃ (s : State) (b : Fin 2) (e : Nat), (s.bu b).cur = some e ∧ e < 64 ∧ (s.bu b).waitStop = false ∧ (s.bu b).lost = 8) ∧
    (∃ (s : State) (b : Fin 2), (s.bu b).cure = .none) ∧
    (∃ (s : State) (b : Fin 2), s.busLive b = true ∧ (s.bu b).hangMs = []) ∧
    (∃ (s : State) (b : Fin 2) (x : Nat) (y : Nat) (z : Nat), s.busLive b = true ∧ (s.bu b).hangMs = [x, y, z] ∧
        s.clk.ms.toNat ≤ z + 10000) ∧
    (∃ (s : State) (b : Fin 2), (s.bu b).cure = .powerOff ∧ s.dev ≠ .boot) ∧
    (∃ (s : State) (b : Fin 2), (s.bu b).cure = .wait) ∧
    (∃ (s : State) (p : Port), s.hostOpen p) :=
  ⟨⟨(fun (b : Fin 2) (e : Nat) (l : List Nat) => (let s := base; let s := s.setB F.FLD_CFG_EN b true;
      let s := s.setB F.FLD_STAT_DISABLED b false; let s := s.mapBus b (fun c => { c with cure := .none });
      let s := s.setB F.IMG_BOOTSTAT_NOIMG 0 false; let s := s.inDev .run; let s := s.mapBus b (fun z' => { z' with cur := none });
      let s := s.mapBus b (fun z' => { z' with waitStop := false });
      let s := s.mapBus b (fun z' => { z' with onDemand := e :: l }); s)) 0 0 ([]), 0, 0, [], by decide +kernel⟩,
   ⟨(fun (b : Fin 2) => (let s := base; let s := s.setB F.FLD_CFG_EN b true; let s := s.setB F.FLD_STAT_DISABLED b false;
       let s := s.mapBus b (fun c => { c with cure := .none }); let s := s.setB F.IMG_BOOTSTAT_NOIMG 0 false;
       let s := s.inDev .run; let s := s.mapBus b (fun z' => { z' with cur := none });
       let s := s.mapBus b (fun z' => { z' with waitStop := false }); let s := s.mapBus b (fun z' => { z' with onDemand := [] });
       let s := s.setF (pollFld b F.POLL1_A_EN) 3 1; let s := s.setF (pollFld b F.POLL1_A_PERIOD) 3 1;
       s)) 0, 0, 3, by decide +kernel⟩,
   ⟨(fun (b : Fin 2) (e : Nat) => (let s := base; let s := s.mapBus b (fun z' => { z' with cur := some e });
       s)) 0 0, 0, 0, [], by decide +kernel⟩,
   ⟨(fun (b : Fin 2) (e : Nat) => (let s := base; let s := s.mapBus b (fun z' => { z' with cur := some e });
       s)) 0 0, 0, 0, 1, by decide +kernel⟩,
   ⟨(fun (b : Fin 2) (e : Fin 64) => (let s := base; let s := s.setB F.FLD_CFG_EN b true;
       let s := s.setB F.FLD_STAT_DISABLED b false; let s := s.mapBus b (fun c => { c with cure := .none });
       let s := s.setB F.IMG_BOOTSTAT_NOIMG 0 false; let s := s.inDev .run; let s := s.setF (pollFld b F.POLL1_A_EN) e 1;
       let s := s.setF (pollFld b F.POLL1_A_PERIOD) e 1; let s := s.setF (pollFld b F.POLL1_A_KIND) e 1;
       s)) 0 0, 0, 0, by decide +kernel⟩,
   ⟨(fun (b : Fin 2) => (let s := base; let s := s.mapBus b (fun z' => { z' with waitStop := false });
       let s := s.mapBus b (fun c => { c with cur := some 0 }); s)) 0, 0, by decide +kernel⟩,
   ⟨(fun (b : Fin 2) (e : Nat) => (let s := base; let s := s.mapBus b (fun z' => { z' with cur := some e });
       let s := s.mapBus b (fun z' => { z' with waitStop := false }); let s := s.mapBus b (fun z' => { z' with lost := 8 });
       s)) 0 0, 0, 0, by decide +kernel⟩,
   ⟨(fun (b : Fin 2) => (let s := base; let s := s.mapBus b (fun z' => { z' with cure := .none }); s)) 0, 0, by decide +kernel⟩,
   ⟨(fun (b : Fin 2) => (let s := base; let s := s.setB F.FLD_CFG_EN b true; let s := s.setB F.FLD_STAT_DISABLED b false;
       let s := s.mapBus b (fun c => { c with cure := .none }); let s := s.setB F.IMG_BOOTSTAT_NOIMG 0 false;
       let s := s.inDev .run; let s := s.mapBus b (fun z' => { z' with hangMs := [] }); s)) 0, 0, by decide +kernel⟩,
   ⟨(fun (b : Fin 2) (x : Nat) (y : Nat) (z : Nat) => (let s := base; let s := s.setB F.FLD_CFG_EN b true;
       let s := s.setB F.FLD_STAT_DISABLED b false; let s := s.mapBus b (fun c => { c with cure := .none });
       let s := s.setB F.IMG_BOOTSTAT_NOIMG 0 false; let s := s.inDev .run; let s := s.mapClk (fun c => { c with ms := 5000 });
       let s := s.mapBus b (fun z' => { z' with hangMs := [x, y, z] }); s)) 0 0 0 1000, 0, 0, 0, 1000, by decide +kernel⟩,
   ⟨(fun (b : Fin 2) => (let s := base; let s := s.mapBus b (fun z' => { z' with cure := .powerOff }); let s := s.notDev .boot;
       s)) 0, 0, by decide +kernel⟩,
   ⟨(fun (b : Fin 2) => (let s := base; let s := s.mapBus b (fun z' => { z' with cure := .wait }); s)) 0, 0, by decide +kernel⟩,
   ⟨(let s := base; let s := hopen s; s), Port.stream, by unfold State.hostOpen; decide +kernel⟩⟩

theorem witness_ringLinkAndMastershipComplete :
    (∃ (s : State), s.ringOn = true ∧ s.ring.rxUp = false) ∧
    (∃ (s : State), s.ringOn = true ∧ s.ring.rxUp = true) ∧
    (∃ (s : State), s.isMember = true ∧ s.ring.rxUp = false) ∧
    (∃ (s : State), s.ringOn = true ∧ s.shelf = true ∧ s.fB F.LNK_CFG_MCAP = true ∧ s.ring.rxUp = true ∧ s.f F.LNK_STAT_STATE ≠ 5 ∧
        s.dev ≠ .safe) ∧
    (∃ (s : State) (f : RingFrame), s.ringOn = true ∧ s.ring.rxUp = true ∧ s.f F.LNK_STAT_STATE = 3 ∧ f.pay.toList = s.claimPay ∧
        s.ring.claimHi = false) ∧
    (∃ (s : State) (f : RingFrame), s.ringOn = true ∧ s.ring.rxUp = true ∧ s.f F.LNK_STAT_STATE = 3 ∧ f.pay.toList ≠ s.claimPay ∧
        s.claimAbove f = true) ∧
    (∃ (s : State) (f : RingFrame), s.ringOn = true ∧ s.ring.rxUp = true ∧ s.f F.LNK_STAT_STATE = 5 ∧ f.b 0 ≤ 64) ∧
    (∃ (s : State) (f : RingFrame), s.ringOn = true ∧ s.ring.rxUp = true ∧ s.f F.LNK_STAT_STATE ≠ 5 ∧ 1 ≤ f.b 0 ∧ f.b 0 ≤ 63) ∧
    (∃ (s : State), s.isMaster = true) ∧
    (∃ (s : State) (f : RingFrame), s.ringOn = true ∧ s.ring.rxUp = true ∧ s.f F.LNK_STAT_STATE = 5 ∧ s.f F.LNK_STAT_NODES ≠ 0) ∧
    (∃ (s : State) (f : RingFrame), s.ringOn = true ∧ s.ring.rxUp = true ∧ s.f F.LNK_STAT_STATE ≠ 5 ∧
        s.fB F.LNK_STAT_ADDRV = true) ∧
    (∃ (s : State), s.isMaster = true) ∧
    (∃ (s : State), s.isMaster = true ∧ s.f F.LNK_STAT_PROT = 2) ∧
    (∃ (s : State), s.isMember = true ∧ s.ring.lost = false) ∧
    (∃ (s : State), s.f F.LNK_STAT_STATE = 5 ∧ s.fB F.LNK_STAT_BRKV = false) ∧
    (∃ (s : State), s.isMaster = true ∧ (s.fB F.LNK_STAT_BRKV = true ∨ s.ring.freeze = true)) ∧
    (∃ (s : State) (f : RingFrame), s.ringOn = true ∧ s.ring.rxUp = true ∧ s.f F.LNK_STAT_STATE = 5 ∧ f.b 0 < 64) :=
  ⟨⟨(let s := base; let s := s.setB F.LNK_CFG_EN 0 true; let s := s.inDev .run; let s := s.setB F.IMG_BOOTSTAT_NOIMG 0 false;
      let s := s.mapRing (fun z' => { z' with rxUp := false }); s), by decide +kernel⟩,
   ⟨(let s := base; let s := s.setB F.LNK_CFG_EN 0 true; let s := s.inDev .run; let s := s.setB F.IMG_BOOTSTAT_NOIMG 0 false;
       let s := s.setF F.LNK_STAT_STATE 0 4; let s := s.setB F.LNK_STAT_ADDRV 0 true;
       let s := s.mapRing (fun z' => { z' with rxUp := true }); s), by decide +kernel⟩,
   ⟨(let s := base; let s := s.setB F.LNK_CFG_EN 0 true; let s := s.inDev .run; let s := s.setB F.IMG_BOOTSTAT_NOIMG 0 false;
       let s := s.setF F.LNK_STAT_STATE 0 4; let s := s.setB F.LNK_STAT_ADDRV 0 true;
       let s := s.mapRing (fun z' => { z' with rxUp := false }); s), by decide +kernel⟩,
   ⟨(let s := base; let s := s.setB F.LNK_CFG_EN 0 true; let s := s.inDev .run; let s := s.setB F.IMG_BOOTSTAT_NOIMG 0 false;
       let s := s.mapImg (fun c => { c with role := true }); let s := s.setB F.LNK_CFG_MCAP 0 true;
       let s := s.mapRing (fun z' => { z' with rxUp := true }); let s := s.notDev .safe; s), by decide +kernel⟩,
   ⟨(let s := base; let s := s.setB F.LNK_CFG_EN 0 true; let s := s.inDev .run; let s := s.setB F.IMG_BOOTSTAT_NOIMG 0 false;
       let s := s.mapRing (fun z' => { z' with rxUp := true }); let s := s.setF F.LNK_STAT_STATE 0 3;
       let s := s.mapRing (fun z' => { z' with claimHi := false });
       s), { prot := 0x0#2, src := 0x0#6, dst := 0x0#6, bcast := true, seq := 0x0#8, pay := #v[0x0#8, 0x0#8, 0x0#8, 0x0#8, 0x0#8, 0x0#8, 0x0#8, 0x0#8] }, by decide +kernel⟩,
   ⟨(let s := base; let s := s.setB F.LNK_CFG_EN 0 true; let s := s.inDev .run; let s := s.setB F.IMG_BOOTSTAT_NOIMG 0 false;
       let s := s.setF F.LNK_CFG_MPRI 0 5; let s := s.mapRing (fun z' => { z' with rxUp := true });
       let s := s.setF F.LNK_STAT_STATE 0 3;
       s), { prot := 0x0#2, src := 0x0#6, dst := 0x0#6, bcast := true, seq := 0x0#8, pay := #v[0xFF#8, 0x2#8, 0x0#8, 0x80#8, 0x74#8, 0x0#8, 0xFF#8, 0x0#8] }, by decide +kernel⟩,
   ⟨(let s := base; let s := s.setB F.LNK_CFG_EN 0 true; let s := s.inDev .run; let s := s.setB F.IMG_BOOTSTAT_NOIMG 0 false;
       let s := s.mapRing (fun z' => { z' with rxUp := true }); let s := s.setF F.LNK_STAT_STATE 0 5;
       s), { prot := 0x0#2, src := 0x0#6, dst := 0x0#6, bcast := true, seq := 0x0#8, pay := #v[0x1#8, 0x2#8, 0x0#8, 0x80#8, 0x74#8, 0x0#8, 0xFF#8, 0x0#8] }, by decide +kernel⟩,
   ⟨(let s := base; let s := s.setB F.LNK_CFG_EN 0 true; let s := s.inDev .run; let s := s.setB F.IMG_BOOTSTAT_NOIMG 0 false;
       let s := s.mapRing (fun z' => { z' with rxUp := true });
       s), { prot := 0x0#2, src := 0x0#6, dst := 0x0#6, bcast := true, seq := 0x0#8, pay := #v[0x1#8, 0x2#8, 0x0#8, 0x80#8, 0x74#8, 0x0#8, 0xFF#8, 0x0#8] }, by decide +kernel⟩,
   ⟨(let s := base; let s := s.setB F.LNK_CFG_EN 0 true; let s := s.inDev .run; let s := s.setB F.IMG_BOOTSTAT_NOIMG 0 false;
       let s := s.setF F.LNK_STAT_STATE 0 5; s), by decide +kernel⟩,
   ⟨(let s := base; let s := s.setB F.LNK_CFG_EN 0 true; let s := s.inDev .run; let s := s.setB F.IMG_BOOTSTAT_NOIMG 0 false;
       let s := s.mapRing (fun z' => { z' with rxUp := true }); let s := s.setF F.LNK_STAT_STATE 0 5;
       let s := s.setF F.LNK_STAT_NODES 0 1;
       s), { prot := 0x0#2, src := 0x0#6, dst := 0x36#6, bcast := true, seq := 0x9B#8, pay := #v[0x0#8, 0x1#8, 0x7C#8, 0x31#8, 0x0#8, 0x0#8, 0xBC#8, 0xFF#8] }, by decide +kernel⟩,
   ⟨(let s := base; let s := s.setB F.LNK_CFG_EN 0 true; let s := s.inDev .run; let s := s.setB F.IMG_BOOTSTAT_NOIMG 0 false;
       let s := s.setF F.LNK_STAT_ADDR 0 9; let s := s.mapRing (fun z' => { z' with rxUp := true });
       let s := s.setB F.LNK_STAT_ADDRV 0 true;
       s), { prot := 0x0#2, src := 0x0#6, dst := 0x36#6, bcast := true, seq := 0x9B#8, pay := #v[0x9#8, 0x1#8, 0x7C#8, 0x31#8, 0x0#8, 0x0#8, 0xBC#8, 0xFF#8] }, by decide +kernel⟩,
   ⟨(let s := base; let s := s.setB F.LNK_CFG_EN 0 true; let s := s.inDev .run; let s := s.setB F.IMG_BOOTSTAT_NOIMG 0 false;
       let s := s.setF F.LNK_STAT_STATE 0 5; s), by decide +kernel⟩,
   ⟨(let s := base; let s := s.setB F.LNK_CFG_EN 0 true; let s := s.inDev .run; let s := s.setB F.IMG_BOOTSTAT_NOIMG 0 false;
       let s := s.setF F.LNK_STAT_STATE 0 5; let s := s.setF F.LNK_STAT_PROT 0 2; s), by decide +kernel⟩,
   ⟨(let s := base; let s := s.setB F.LNK_CFG_EN 0 true; let s := s.inDev .run; let s := s.setB F.IMG_BOOTSTAT_NOIMG 0 false;
       let s := s.setF F.LNK_STAT_STATE 0 4; let s := s.setB F.LNK_STAT_ADDRV 0 true;
       let s := s.mapRing (fun z' => { z' with lost := false }); s), by decide +kernel⟩,
   ⟨(let s := base; let s := s.setF F.LNK_STAT_STATE 0 5; let s := s.setB F.LNK_STAT_BRKV 0 false; s), by decide +kernel⟩,
   ⟨(let s := base; let s := s.setB F.LNK_CFG_EN 0 true; let s := s.inDev .run; let s := s.setB F.IMG_BOOTSTAT_NOIMG 0 false;
       let s := s.setF F.LNK_STAT_STATE 0 5; let s := s.setB F.LNK_STAT_BRKV 0 true; s), by decide +kernel⟩,
   ⟨(let s := base; let s := s.setB F.LNK_CFG_EN 0 true; let s := s.inDev .run; let s := s.setB F.IMG_BOOTSTAT_NOIMG 0 false;
       let s := s.mapRing (fun z' => { z' with rxUp := true }); let s := s.setF F.LNK_STAT_STATE 0 5;
       s), { prot := 0x0#2, src := 0x0#6, dst := 0x0#6, bcast := true, seq := 0x0#8, pay := #v[0x1#8, 0x2#8, 0x0#8, 0x80#8, 0x74#8, 0x0#8, 0xFF#8, 0x0#8] }, by decide +kernel⟩⟩

theorem witness_rackFramesAndBudgetComplete :
    (∃ (s : State) (f : RingFrame), s.ring.rxUp = true ∧ s.addressed f.dst.toNat f.dst.toNat = true) ∧
    (∃ (s : State) (f : RingFrame), s.ring.rxUp = true ∧ s.addressed (f.b 0) (f.b 1) = true ∧ s.f F.LNK_STAT_PROT = 2) ∧
    (∃ (s : State) (f : RingFrame), s.ring.rxUp = true ∧ s.addressed (f.b 0) (f.b 1) = true ∧ s.f F.LNK_STAT_PROT = 1) ∧
    (∃ (s : State) (f : RingFrame), s.ring.rxUp = true ∧ s.addressed (f.b 0) (f.b 1) = true ∧ f.b 2 = 2 ∧
        s.fB F.DEV_ONOFF_CFG_RING_USE = true) ∧
    (∃ (s : State) (f : RingFrame), s.ring.rxUp = true ∧ s.addressed (f.b 0) (f.b 1) = true ∧ f.b 2 = 1) ∧
    (∃ (s : State), s.ringOn = true ∧ s.ring.rxUp = true) ∧
    (∃ (s : State) (f : RingFrame), s.ring.rxUp = true ∧ s.isMember = true ∧ s.f F.LNK_STAT_PROT = 2) ∧
    (∃ (s : State) (f : RingFrame), s.ring.rxUp = true ∧ s.isMember = true ∧ s.f F.LNK_STAT_PROT = 2 ∧ s.shelf = true) ∧
    (∃ (s : State) (f : RingFrame), s.ringOn = true ∧ s.ring.rxUp = true ∧ s.f F.LNK_STAT_STATE = 5 ∧ f.src.toNat < 64) ∧
    (∃ (s : State), s.ringOn = true ∧ s.ring.rxUp = true) ∧
    (∃ (s : State), s.shelf = true ∧ s.ringOn = true ∧ s.isMaster = false) ∧
    (∃ (s : State), s.shelf = true ∧ s.isMaster = true) ∧
    (∃ (s : State) (k : Fin 12), s.shelf = true ∧ s.fB F.RKM_CFG_EN k = true ∧ s.fB F.RKM_STAT_ONLINE k = true) ∧
    (∃ (s : State) (p : Port) (v : Word), s.hostOpen p ∧ F.LNK_ORDER_ORDER.get v ≠ 3 ∧ F.LNK_ORDER_RDENS.get v ≤ 256 ∧
        s.isMaster = false) ∧
    (∃ (s : State) (p : Port) (v : Word), s.hostOpen p ∧ F.LNK_ORDER_ORDER.get v ≠ 3 ∧ F.LNK_ORDER_RDENS.get v ≤ 256 ∧
        s.isMaster = true ∧ F.LNK_ORDER_RDENS.get v ≠ s.f F.LNK_ORDER_RDENS) :=
  ⟨⟨(fun (f : RingFrame) => (let s := base; let s := s.setB F.LNK_CFG_EN 0 true; let s := s.inDev .run;
      let s := s.setB F.IMG_BOOTSTAT_NOIMG 0 false; let s := s.setF F.LNK_STAT_STATE 0 4; let s := s.setB F.LNK_STAT_ADDRV 0 true;
      let s := s.mapRing (fun c => { c with lost := false }); let s := s.setF F.LNK_STAT_ADDR 0 f.dst.toNat;
      let s := s.mapRing (fun z' => { z' with rxUp := true });
      s)) ({ prot := 0x0#2, src := 0x0#6, dst := 0x0#6, bcast := true, seq := 0x0#8, pay := #v[0x95#8, 0x2#8, 0x0#8, 0x80#8, 0x74#8, 0x0#8, 0xFF#8, 0x0#8] }), { prot := 0x0#2, src := 0x0#6, dst := 0x0#6, bcast := true, seq := 0x0#8, pay := #v[0x95#8, 0x2#8, 0x0#8, 0x80#8, 0x74#8, 0x0#8, 0xFF#8, 0x0#8] }, by decide +kernel⟩,
   ⟨(let s := base; let s := s.setB F.LNK_CFG_EN 0 true; let s := s.inDev .run; let s := s.setB F.IMG_BOOTSTAT_NOIMG 0 false;
       let s := s.setF F.LNK_STAT_STATE 0 4; let s := s.setB F.LNK_STAT_ADDRV 0 true;
       let s := s.mapRing (fun c => { c with lost := false }); let s := s.setF F.LNK_STAT_ADDR 0 5;
       let s := s.mapRing (fun z' => { z' with rxUp := true }); let s := s.setF F.LNK_STAT_PROT 0 2;
       s), { prot := 0x0#2, src := 0x0#6, dst := 0x0#6, bcast := true, seq := 0x0#8, pay := #v[0x1#8, 0x3F#8, 0x0#8, 0x80#8, 0x74#8, 0x0#8, 0xFF#8, 0x0#8] }, by decide +kernel⟩,
   ⟨(let s := base; let s := s.setB F.LNK_CFG_EN 0 true; let s := s.inDev .run; let s := s.setB F.IMG_BOOTSTAT_NOIMG 0 false;
       let s := s.setF F.LNK_STAT_STATE 0 4; let s := s.setB F.LNK_STAT_ADDRV 0 true;
       let s := s.mapRing (fun c => { c with lost := false }); let s := s.setF F.LNK_STAT_ADDR 0 5;
       let s := s.mapRing (fun z' => { z' with rxUp := true }); let s := s.setF F.LNK_STAT_PROT 0 1;
       s), { prot := 0x0#2, src := 0x0#6, dst := 0x0#6, bcast := true, seq := 0x0#8, pay := #v[0x1#8, 0x3F#8, 0x0#8, 0x80#8, 0x74#8, 0x0#8, 0xFF#8, 0x0#8] }, by decide +kernel⟩,
   ⟨(let s := base; let s := s.setB F.LNK_CFG_EN 0 true; let s := s.inDev .run; let s := s.setB F.IMG_BOOTSTAT_NOIMG 0 false;
       let s := s.setF F.LNK_STAT_STATE 0 4; let s := s.setB F.LNK_STAT_ADDRV 0 true;
       let s := s.mapRing (fun c => { c with lost := false }); let s := s.setF F.LNK_STAT_ADDR 0 5;
       let s := s.mapRing (fun z' => { z' with rxUp := true }); let s := s.setB F.DEV_ONOFF_CFG_RING_USE 0 true;
       s), { prot := 0x0#2, src := 0x0#6, dst := 0x0#6, bcast := true, seq := 0x0#8, pay := #v[0x1#8, 0x3F#8, 0x2#8, 0x80#8, 0x74#8, 0x0#8, 0xFF#8, 0x0#8] }, by decide +kernel⟩,
   ⟨(let s := base; let s := s.setB F.LNK_CFG_EN 0 true; let s := s.inDev .run; let s := s.setB F.IMG_BOOTSTAT_NOIMG 0 false;
       let s := s.setF F.LNK_STAT_STATE 0 4; let s := s.setB F.LNK_STAT_ADDRV 0 true;
       let s := s.mapRing (fun c => { c with lost := false }); let s := s.setF F.LNK_STAT_ADDR 0 5;
       let s := s.mapRing (fun z' => { z' with rxUp := true });
       s), { prot := 0x0#2, src := 0x0#6, dst := 0x0#6, bcast := true, seq := 0x0#8, pay := #v[0x1#8, 0x3F#8, 0x1#8, 0x80#8, 0x74#8, 0x0#8, 0xFF#8, 0x0#8] }, by decide +kernel⟩,
   ⟨(let s := base; let s := s.setB F.LNK_CFG_EN 0 true; let s := s.inDev .run; let s := s.setB F.IMG_BOOTSTAT_NOIMG 0 false;
       let s := s.mapRing (fun z' => { z' with rxUp := true }); s), by decide +kernel⟩,
   ⟨(let s := base; let s := s.setB F.LNK_CFG_EN 0 true; let s := s.inDev .run; let s := s.setB F.IMG_BOOTSTAT_NOIMG 0 false;
       let s := s.setF F.LNK_STAT_STATE 0 4; let s := s.setB F.LNK_STAT_ADDRV 0 true;
       let s := s.mapRing (fun z' => { z' with rxUp := true }); let s := s.setF F.LNK_STAT_PROT 0 2;
       s), { prot := 0x0#2, src := 0x0#6, dst := 0x0#6, bcast := true, seq := 0x0#8, pay := #v[0x95#8, 0x2#8, 0x0#8, 0x80#8, 0x74#8, 0x0#8, 0xFF#8, 0x0#8] }, by decide +kernel⟩,
   ⟨(let s := base; let s := s.setB F.LNK_CFG_EN 0 true; let s := s.inDev .run; let s := s.setB F.IMG_BOOTSTAT_NOIMG 0 false;
       let s := s.setF F.LNK_STAT_STATE 0 4; let s := s.setB F.LNK_STAT_ADDRV 0 true;
       let s := s.mapRing (fun z' => { z' with rxUp := true }); let s := s.setF F.LNK_STAT_PROT 0 2;
       let s := s.mapImg (fun c => { c with role := true });
       s), { prot := 0x0#2, src := 0x0#6, dst := 0x0#6, bcast := true, seq := 0x0#8, pay := #v[0x95#8, 0x2#8, 0x0#8, 0x80#8, 0x74#8, 0x0#8, 0xFF#8, 0x0#8] }, by decide +kernel⟩,
   ⟨(let s := base; let s := s.setB F.LNK_CFG_EN 0 true; let s := s.inDev .run; let s := s.setB F.IMG_BOOTSTAT_NOIMG 0 false;
       let s := s.mapRing (fun z' => { z' with rxUp := true }); let s := s.setF F.LNK_STAT_STATE 0 5;
       s), { prot := 0x0#2, src := 0x0#6, dst := 0x0#6, bcast := true, seq := 0x0#8, pay := #v[0x95#8, 0x2#8, 0x0#8, 0x80#8, 0x74#8, 0x0#8, 0xFF#8, 0x0#8] }, by decide +kernel⟩,
   ⟨(let s := base; let s := s.setB F.LNK_CFG_EN 0 true; let s := s.inDev .run; let s := s.setB F.IMG_BOOTSTAT_NOIMG 0 false;
       let s := s.mapRing (fun z' => { z' with rxUp := true }); s), by decide +kernel⟩,
   ⟨(let s := base; let s := s.setB F.LNK_CFG_EN 0 true; let s := s.inDev .run; let s := s.setB F.IMG_BOOTSTAT_NOIMG 0 false;
       let s := s.setF F.LNK_STAT_STATE 0 4; let s := s.mapImg (fun c => { c with role := true }); s), by decide +kernel⟩,
   ⟨(let s := base; let s := s.setB F.LNK_CFG_EN 0 true; let s := s.inDev .run; let s := s.setB F.IMG_BOOTSTAT_NOIMG 0 false;
       let s := s.setF F.LNK_STAT_STATE 0 5; let s := s.mapImg (fun c => { c with role := true }); s), by decide +kernel⟩,
   ⟨(fun (k : Fin 12) => (let s := base; let s := s.mapImg (fun c => { c with role := true }); let s := s.setB F.RKM_CFG_EN k true;
       let s := s.setB F.RKM_STAT_ONLINE k true; s)) 6, 6, by decide +kernel⟩,
   ⟨(let s := base; let s := s.setB F.LNK_CFG_EN 0 true; let s := s.inDev .run; let s := s.setB F.IMG_BOOTSTAT_NOIMG 0 false;
       let s := s.setF F.LNK_STAT_STATE 0 4; let s := hopen s;
       s), Port.stream, 0x3FFE#32, by unfold State.hostOpen; decide +kernel⟩,
   ⟨(let s := base; let s := s.setB F.LNK_CFG_EN 0 true; let s := s.inDev .run; let s := s.setB F.IMG_BOOTSTAT_NOIMG 0 false;
       let s := s.setF F.LNK_STAT_STATE 0 5; let s := hopen s;
       s), Port.stream, 0x190000#32, by unfold State.hostOpen; decide +kernel⟩⟩

theorem witness_owlRecorderCommandsComplete :
    (∃ (s : State), s.nvmOpen = true) ∧
    (∃ (s : State) (r : OwlRec) (rest : List OwlRec), s.nvmOpen = true ∧ s.fB F.OWL_STAT_CLRBUSY = false ∧
        s.owl.staging = r :: rest ∧ s.fB F.OWL_STAT_FULL = false ∧ s.f F.OWL_STAT_NEXT < 4095) ∧
    (∃ (s : State) (r : OwlRec) (rest : List OwlRec), s.nvmOpen = true ∧ s.fB F.OWL_STAT_CLRBUSY = false ∧
        s.owl.staging = r :: rest ∧ s.fB F.OWL_STAT_FULL = false ∧ s.f F.OWL_STAT_NEXT < 4094) ∧
    (∃ (s : State) (r : OwlRec) (rest : List OwlRec), s.nvmOpen = true ∧ s.fB F.OWL_STAT_CLRBUSY = false ∧
        s.owl.staging = r :: rest ∧ s.fB F.OWL_STAT_FULL = true) ∧
    (∃ (s : State), s.nvmOpen = true ∧ s.fB F.OWL_STAT_OVFW = true ∧ s.owl.ovfChanged = true) ∧
    (∃ (s : State) (p : Port) (v : Word) (w : List Word), s.hostOpen p ∧ s.owlSlot (F.OWL_IDX_IDX.get v) = some (.words w)) ∧
    (∃ (s : State) (p : Port) (v : Word), s.hostOpen p ∧ s.owlSlot (F.OWL_IDX_IDX.get v) = none) ∧
    (∃ (s : State) (p : Port), s.hostOpen p ∧ s.snapRefused = false) ∧
    (∃ (s : State) (p : Port), s.hostOpen p ∧ s.snapRefused = true) ∧
    (∃ (s : State), s.owl.snapTrig.isSome = true) ∧
    (∃ (s : State) (trig : Nat), s.owl.snapTrig = some trig ∧ s.owl.snapFrozen = true ∧ s.nvmOpen = true ∧
        s.f F.OWL_SNAPST_USED < 32) ∧
    (∃ (s : State), s.portLive .stream = true ∧ s.noImg = false ∧ s.f F.OWL_SNAPA_SNAP < s.owl.snapshots.length) ∧
    (∃ (s : State), s.portLive .twoWire = true ∧ s.noImg = false ∧ s.owl.snapshots.length ≤ s.f F.OWL_SNAPA_SNAP) ∧
    (∃ (s : State) (p : Port), s.hostOpen p ∧ (s.dev = .standby ∨ s.dev = .run) ∧ s.fB F.OWL_STAT_CLRBUSY = false ∧
        s.owl.fails < 4 ∧ s.clearToken = s.owl.tok.toList ∧ s.nvmOpen = true) ∧
    (∃ (s : State) (p : Port), s.hostOpen p ∧ (s.dev = .standby ∨ s.dev = .run) ∧ s.fB F.OWL_STAT_CLRBUSY = false ∧
        s.owl.fails < 4 ∧ s.clearToken ≠ s.owl.tok.toList) ∧
    (∃ (s : State), s.fB F.OWL_STAT_CLRBUSY = true ∧ s.owl.clrPend = true ∧ s.f F.DEV_PWRSTAT_LSTAGE < 2) :=
  ⟨⟨(let s := base; let s := s.setF F.DEV_PWRSTAT_LSTAGE 0 1; s), by decide +kernel⟩,
   ⟨(fun (r : OwlRec) (rest : List OwlRec) => (let s := base; let s := s.setF F.DEV_PWRSTAT_LSTAGE 0 1;
       let s := s.setB F.OWL_STAT_CLRBUSY 0 false; let s := s.mapOwl (fun z' => { z' with staging := r :: rest });
       let s := s.setB F.OWL_STAT_FULL 0 false; let s := s.setF F.OWL_STAT_NEXT 0 4094;
       s)) ({ type := 3, seq := 0xFFFFFFFF#32, ms := 0x2#48, us := 0, pcyc := 0x1#32, payload := [] }) ([]), { type := 3, seq := 0xFFFFFFFF#32, ms := 0x2#48, us := 0, pcyc := 0x1#32, payload := [] }, [], by decide +kernel⟩,
   ⟨(fun (r : OwlRec) (rest : List OwlRec) => (let s := base; let s := s.setF F.DEV_PWRSTAT_LSTAGE 0 1;
       let s := s.setB F.OWL_STAT_CLRBUSY 0 false; let s := s.mapOwl (fun z' => { z' with staging := r :: rest });
       let s := s.setB F.OWL_STAT_FULL 0 false; let s := s.setF F.OWL_STAT_NEXT 0 4093;
       s)) ({ type := 0, seq := 0x0#32, ms := 0x3E5EAE59EAF1#48, us := 50, pcyc := 0xFFFFFFFF#32, payload := [] }) ([]), { type := 0, seq := 0x0#32, ms := 0x3E5EAE59EAF1#48, us := 50, pcyc := 0xFFFFFFFF#32, payload := [] }, [], by decide +kernel⟩,
   ⟨(fun (r : OwlRec) (rest : List OwlRec) => (let s := base; let s := s.setF F.DEV_PWRSTAT_LSTAGE 0 1;
       let s := s.setB F.OWL_STAT_CLRBUSY 0 false; let s := s.mapOwl (fun z' => { z' with staging := r :: rest });
       let s := s.setB F.OWL_STAT_FULL 0 true;
       s)) ({ type := 0, seq := 0x0#32, ms := 0x0#48, us := 0, pcyc := 0x10E#32, payload := [] }) ([]), { type := 0, seq := 0x0#32, ms := 0x0#48, us := 0, pcyc := 0x10E#32, payload := [] }, [], by decide +kernel⟩,
   ⟨(let s := base; let s := s.setF F.DEV_PWRSTAT_LSTAGE 0 1; let s := s.setB F.OWL_STAT_OVFW 0 true;
       let s := s.mapOwl (fun z' => { z' with ovfChanged := true }); s), by decide +kernel⟩,
   ⟨(fun (v : Word) (w : List Word) => (let s := base;
       let s := s.mapOwl (fun c => { c with slots := [(F.OWL_IDX_IDX.get v, .words w)] }); let s := hopen s;
       s)) 0x0#32 ([]), Port.stream, 0x0#32, [], by unfold State.hostOpen; decide +kernel⟩,
   ⟨(let s := base; let s := s.mapOwl (fun c => { c with slots := [(5000, .bad)] }); let s := hopen s;
       s), Port.stream, 0xFFFFFFFF#32, by unfold State.hostOpen; decide +kernel⟩,
   ⟨(let s := base; let s := s.mapImg (fun c => { c with own := [⟨3, 9, 8, false⟩] }); let s := s.setB F.CH_STAT_RUN 9 true;
       let s := s.setB F.OWL_SNAPST_BUSY 0 false; let s := s.setF F.OWL_SNAPST_USED 0 3;
       let s := s.setB F.OWL_STAT_CLRBUSY 0 false; let s := hopen s; s), Port.stream, by unfold State.hostOpen; decide +kernel⟩,
   ⟨(let s := base; let s := s.setB F.OWL_SNAPST_BUSY 0 true; let s := hopen s;
       s), Port.stream, by unfold State.hostOpen; decide +kernel⟩,
   ⟨(let s := base; let s := s.mapOwl (fun c => { c with snapTrig := some 1 }); s), by decide +kernel⟩,
   ⟨(fun (trig : Nat) => (let s := base; let s := s.setF F.DEV_PWRSTAT_LSTAGE 0 1;
       let s := s.mapOwl (fun z' => { z' with snapTrig := some trig });
       let s := s.mapOwl (fun z' => { z' with snapFrozen := true }); let s := s.setF F.OWL_SNAPST_USED 0 31;
       s)) 1, 1, by decide +kernel⟩,
   ⟨(let s := base; let s := s.setF F.OWL_SNAPA_SNAP 0 1;
       let s := s.mapOwl (fun c => { c with snapshots := [Vector.replicate 1024 5, Vector.replicate 1024 6] }); let s := hlive s;
       let s := s.setB F.IMG_BOOTSTAT_NOIMG 0 false; s), by decide +kernel⟩,
   ⟨(let s := base; let s := s.setF F.OWL_SNAPA_SNAP 0 4;
       let s := s.mapOwl (fun c => { c with snapshots := [Vector.replicate 1024 5] }); let s := hlive s;
       let s := s.setB F.IMG_BOOTSTAT_NOIMG 0 false; s), by decide +kernel⟩,
   ⟨(let s := base; let s := s.mapOwl (fun c => { c with fails := c.fails % 4 });
       let s := s.mapOwl (fun c => { c with tok := Vector.ofFn (fun (k : Fin 4) => s.clearToken.getD k 0) }); let s := hopen s;
       let s := s.inDev .standby; let s := s.setB F.OWL_STAT_CLRBUSY 0 false; let s := s.inDev .run;
       let s := s.mapOwl (fun c => { c with tok := Vector.ofFn (fun (k : Fin 4) => s.clearToken.getD k 0) });
       s), Port.stream, by unfold State.hostOpen; decide +kernel⟩,
   ⟨(let s := base; let s := s.mapOwl (fun c => { c with fails := c.fails % 4 }); let s := hopen s; let s := s.inDev .standby;
       let s := s.setB F.OWL_STAT_CLRBUSY 0 false; let s := s.inDev .run;
       s), Port.stream, by unfold State.hostOpen; decide +kernel⟩,
   ⟨(let s := base; let s := s.setB F.OWL_STAT_CLRBUSY 0 true; let s := s.mapOwl (fun z' => { z' with clrPend := true });
       let s := s.setF F.DEV_PWRSTAT_LSTAGE 0 1; s), by decide +kernel⟩⟩

/-- A unit of full length with its CRC, whatever its words. -/
theorem longestUnit (d : List Word) (h : d.length = 512) :
    ∃ (s : State) (f : StreamFrame), s.takesFrame 0x11 .write f ∧ s.session = 1 ∧ f.addr.toNat < 2048 ∧ f.len = 512 :=
  ⟨(hlive base).setF F.UPD_STAT_SESSION 0 1, ⟨0x7F4, 512, d, crc16 (streamBytes 0x11 .write ⟨0x7F4, 512, d, 0, false⟩), false⟩,
    ⟨by decide +kernel, by decide +kernel, rfl, fun _ => h, rfl⟩, by decide +kernel, (by decide : (0x7F4#16).toNat < 2048), rfl⟩

theorem witness_fieldUpdateCommandsComplete :
    (∃ (s : State) (f : StreamFrame), s.takesFrame 0x10 .write f ∧ s.session < 2 ∧ f.addr = 0 ∧ f.len = 1 ∧ f.data = [0xCA10] ∧
        (s.dev = .standby ∨ s.dev = .sequp ∨ s.dev = .run ∨ s.dev = .seqdn) ∧ s.fB F.UPD_STAT_TRIAL = false) ∧
    (∃ (s : State) (f : StreamFrame), s.takesFrame 0x11 .write f ∧ s.session = 1 ∧ f.addr.toNat < 2048 ∧ f.len = 512) ∧
    (∃ (s : State) (f : StreamFrame) (a : List Word) (b : List Word), s.takesFrame 0x12 .write f ∧ s.session = 1 ∧
        f.addr.toNat < 2048 ∧ f.addr.toNat % 2 = 0 ∧ f.len = 1 ∧ s.unit f.addr.toNat = some a ∧
        s.unit (f.addr.toNat + 1) = some b ∧ f.data = [crcWords (a ++ b)]) ∧
    (∃ (s : State) (f : StreamFrame) (a : List Word) (b : List Word) (c : Word), s.takesFrame 0x12 .write f ∧ s.session = 1 ∧
        f.addr.toNat < 2048 ∧ f.addr.toNat % 2 = 0 ∧ f.len = 1 ∧ s.unit f.addr.toNat = some a ∧
        s.unit (f.addr.toNat + 1) = some b ∧ f.data = [c] ∧ c ≠ crcWords (a ++ b)) ∧
    (∃ (s : State) (f : StreamFrame), s.takesFrame 0x12 .write f ∧ s.session = 1 ∧ f.addr.toNat < 2048 ∧ f.addr.toNat % 2 = 0 ∧
        f.len = 1 ∧ s.unit f.addr.toNat = none) ∧
    (∃ (s : State) (b : Nat) (l : List Word), s.session = 2 ∧ s.nvmOpen = true ∧ s.upd.block = some b ∧
        Sparse.wf flashReset s.flash = true ∧ (s.unit (2 * b)).getD [] ++ (s.unit (2 * b + 1)).getD [] = l) ∧
    (∃ (s : State) (b : Nat) (r : Fin 3), s.session = 2 ∧ s.nvmOpen = true ∧ s.upd.block = some b ∧
        Sparse.wf flashReset s.flash = true ∧ r ≠ 0) ∧
    (∃ (s : State) (f : StreamFrame), s.takesFrame 0x13 .write f ∧ s.session = 1 ∧ f.addr = 0 ∧ f.len = 1 ∧ f.data = [0]) ∧
    (∃ (s : State) (f : StreamFrame), s.takesFrame 0x13 .write f ∧ s.session = 1 ∧ f.addr = 0 ∧ f.len = 1 ∧ f.data = [1]) ∧
    (∃ (s : State), s.session = 3 ∧ s.nvmOpen = true) ∧
    (∃ (s : State), s.session = 1) ∧
    (∃ (s : State) (p : Port), s.hostOpen p ∧ s.fB F.UPD_STAT_TRIAL = true) ∧
    (∃ (s : State) (p : Port) (k : Bool), s.hostOpen p ∧ s.nvm.boot.pend = some k) ∧
    (∃ (s : State), s.fB F.UPD_STAT_TRIAL = true ∧ 3600 ≤ s.f F.UPD_TRIALT_T) ∧
    (∃ (s : State), s.fB F.UPD_STAT_TRIAL = true ∧ s.nvmOpen = true) :=
  ⟨⟨(let s := base; let s := s.notDev .boot; let s := s.setF F.DEV_PWRSTAT_LSTAGE 0 0;
      let s := s.mapPower (fun c => { c with heartbeatLost := false, dieHot := false });
      let s := s.setB F.IMG_BOOTSTAT_NOIMG 0 false; let s := s.notDev .dormouse; let s := s.notDev .boot; let s := s.inDev .run;
      let s := s.setF F.UPD_STAT_SESSION 0 1; let s := s.inDev .standby; let s := s.setB F.UPD_STAT_TRIAL 0 false;
      s), { addr := 0x0#16, len := 0x1#16, data := [0xCA10#32], crc := 0xF4BD#16, early := false }, by unfold State.takesFrame; decide +kernel⟩,
   longestUnit (List.replicate 512 5) List.length_replicate,
   ⟨(fun (f : StreamFrame) (a : List Word) (b : List Word) => (let s := base; let s := s.notDev .boot;
       let s := s.setF F.DEV_PWRSTAT_LSTAGE 0 0; let s := s.mapPower (fun c => { c with heartbeatLost := false, dieHot := false });
       let s := s.setB F.IMG_BOOTSTAT_NOIMG 0 false; let s := s.notDev .dormouse; let s := s.notDev .boot;
       let s := s.setF F.UPD_STAT_SESSION 0 1;
       let s := s.mapUpd (fun c => { c with units := [(f.addr.toNat, a), (f.addr.toNat + 1, b)] });
       s)) ({ addr := 0x0#16, len := 0x1#16, data := [0x0#32], crc := 0xC84B#16, early := false }) ([]) ([]), { addr := 0x0#16, len := 0x1#16, data := [0x0#32], crc := 0xC84B#16, early := false }, [], [], by unfold State.takesFrame; decide +kernel⟩,
   ⟨(fun (f : StreamFrame) (a : List Word) (b : List Word) (c : Word) => (let s := base; let s := s.notDev .boot;
       let s := s.setF F.DEV_PWRSTAT_LSTAGE 0 0; let s := s.mapPower (fun c => { c with heartbeatLost := false, dieHot := false });
       let s := s.setB F.IMG_BOOTSTAT_NOIMG 0 false; let s := s.notDev .dormouse; let s := s.notDev .boot;
       let s := s.setF F.UPD_STAT_SESSION 0 1;
       let s := s.mapUpd (fun c => { c with units := [(f.addr.toNat, a), (f.addr.toNat + 1, b)] });
       s)) ({ addr := 0xC#16, len := 0x1#16, data := [0xB657AAD4#32], crc := 0x9166#16, early := false }) ([]) ([]) 0xB657AAD4#32, { addr := 0xC#16, len := 0x1#16, data := [0xB657AAD4#32], crc := 0x9166#16, early := false }, [], [], 0xB657AAD4#32, by unfold State.takesFrame; decide +kernel⟩,
   ⟨(let s := base; let s := s.notDev .boot; let s := s.setF F.DEV_PWRSTAT_LSTAGE 0 0;
       let s := s.mapPower (fun c => { c with heartbeatLost := false, dieHot := false });
       let s := s.setB F.IMG_BOOTSTAT_NOIMG 0 false; let s := s.notDev .dormouse; let s := s.notDev .boot;
       let s := s.setF F.UPD_STAT_SESSION 0 1; let s := s.mapUpd (fun c => { c with units := [] });
       s), { addr := 0x7E8#16, len := 0x1#16, data := [0x789#32], crc := 0x1433#16, early := false }, by unfold State.takesFrame; decide +kernel⟩,
   ⟨(fun (b : Nat) (l : List Word) => (let s := base; let s := s.setF F.UPD_STAT_SESSION 0 2;
       let s := s.setF F.DEV_PWRSTAT_LSTAGE 0 0;
       let s := s.mapUpd (fun c => { c with block := some b, units := [(2 * b, l.take 3), (2 * b + 1, l.drop 3)] });
       let s := s.mapUpd (fun z' => { z' with block := some b }); s)) 0 ([]), 0, [], by decide +kernel⟩,
   ⟨(fun (b : Nat) => (let s := base; let s := s.setF F.UPD_STAT_SESSION 0 2; let s := s.setF F.DEV_PWRSTAT_LSTAGE 0 0;
       let s := s.mapUpd (fun c => { c with block := some b }); let s := s.mapUpd (fun z' => { z' with block := some b });
       s)) 0, 0, 1, by decide +kernel⟩,
   ⟨(let s := base; let s := s.notDev .boot; let s := s.setF F.DEV_PWRSTAT_LSTAGE 0 0;
       let s := s.mapPower (fun c => { c with heartbeatLost := false, dieHot := false });
       let s := s.setB F.IMG_BOOTSTAT_NOIMG 0 false; let s := s.notDev .dormouse; let s := s.notDev .boot;
       let s := s.setF F.UPD_STAT_SESSION 0 1;
       s), { addr := 0x0#16, len := 0x1#16, data := [0x0#32], crc := 0x2368#16, early := false }, by unfold State.takesFrame; decide +kernel⟩,
   ⟨(let s := base; let s := s.notDev .boot; let s := s.setF F.DEV_PWRSTAT_LSTAGE 0 0;
       let s := s.mapPower (fun c => { c with heartbeatLost := false, dieHot := false });
       let s := s.setB F.IMG_BOOTSTAT_NOIMG 0 false; let s := s.notDev .dormouse; let s := s.notDev .boot;
       let s := s.setF F.UPD_STAT_SESSION 0 1;
       s), { addr := 0x0#16, len := 0x1#16, data := [0x1#32], crc := 0x55DC#16, early := false }, by unfold State.takesFrame; decide +kernel⟩,
   ⟨(let s := base; let s := s.setF F.UPD_STAT_SESSION 0 3; let s := s.setF F.DEV_PWRSTAT_LSTAGE 0 0; s), by decide +kernel⟩,
   ⟨(let s := base; let s := s.setF F.UPD_STAT_SESSION 0 1; s), by decide +kernel⟩,
   ⟨(let s := base; let s := hopen s; let s := s.setB F.UPD_STAT_TRIAL 0 true;
       s), Port.stream, by unfold State.hostOpen; decide +kernel⟩,
   ⟨(fun (k : Bool) => (let s := base; let s := hopen s;
       let s := s.mapNvm (fun c => { c with boot := { c.boot with pend := some k } });
       s)) true, Port.stream, true, by unfold State.hostOpen; decide +kernel⟩,
   ⟨(let s := base; let s := s.setF F.UPD_TRIALT_T 0 3700; let s := s.setB F.UPD_STAT_TRIAL 0 true;
       let s := s.setF F.UPD_TRIALT_T 0 3601; s), by decide +kernel⟩,
   ⟨(let s := base; let s := s.setF F.DEV_PWRSTAT_LSTAGE 0 1; let s := s.setB F.UPD_STAT_TRIAL 0 true; s), by decide +kernel⟩⟩

theorem witness_bootEndsAndMigratedOverlayIsWritten :
    (∃ (s : State), s.dev = .boot ∧ s.bootReady = true ∧ s.power.hotWait = false ∧ s.f F.DEV_PWRSTAT_LSTAGE = 0) ∧
    (∃ (s : State) (i : BootInput), s.dev = .boot ∧ s.bootReady = true ∧ s.power.hotWait = false ∧ s.f F.DEV_PWRSTAT_LSTAGE = 0 ∧
        i.flash = none) ∧
    (∃ (s : State) (b : Bank), s.img.migrBank = some b ∧ s.fB F.IMG_OVLSTAT_MIGR_PEND = true ∧ s.dev ≠ .boot ∧ s.nvmOpen = true) :=
  ⟨⟨(let s := base;
      let s := s.mapPower (fun c => { c with powered := true, v5Good := true, railsOk := true, rootLocked := true, vddioLatched := true, resetLow := false, hotWait := false });
      let s := s.setF F.DEV_PWRSTAT_LSTAGE 0 0; let s := s.inDev .boot;
      let s := s.mapPower (fun z' => { z' with hotWait := false }); let s := s.setF F.DEV_PWRSTAT_LSTAGE 0 0;
      s), by decide +kernel⟩,
   ⟨(let s := base;
       let s := s.mapPower (fun c => { c with powered := true, v5Good := true, railsOk := true, rootLocked := true, vddioLatched := true, resetLow := false, hotWait := false });
       let s := s.setF F.DEV_PWRSTAT_LSTAGE 0 0; let s := s.inDev .boot;
       let s := s.mapPower (fun z' => { z' with hotWait := false }); let s := s.setF F.DEV_PWRSTAT_LSTAGE 0 0;
       s), { flash := none, noise := [], rereads := 0x8#8, adr0 := 0x0#12, adr1 := 0x0#12, lanes := 0x789#48, skew := 0x95#8 }, by decide +kernel⟩,
   ⟨(fun (b : Bank) => (let s := base; let s := s.setF F.DEV_PWRSTAT_LSTAGE 0 1;
       let s := s.mapImg (fun z' => { z' with migrBank := some b }); let s := s.setB F.IMG_OVLSTAT_MIGR_PEND 0 true;
       let s := s.notDev .boot;
       s)) ({ fmt := 0x563#16, seq := 0xFFFFFFFF#32, hash := 0x0#64, entries := [] }), { fmt := 0x563#16, seq := 0xFFFFFFFF#32, hash := 0x0#64, entries := [] }, by decide +kernel⟩⟩

theorem witness_wrongConfirmKeyIsRefused :
    (∃ (s : State) (p : Port) (k : BitVec 16), s.hostOpen p ∧ k.toNat ≠ 0xCA10) ∧
    (∃ (s : State) (p : Port) (k : BitVec 16), s.hostOpen p ∧ k.toNat ≠ 0xCA10) ∧
    (∃ (s : State) (p : Port) (k : BitVec 16), s.hostOpen p ∧ k.toNat ≠ 0xCA10) ∧
    (∃ (s : State) (p : Port) (k : BitVec 16), s.hostOpen p ∧ k.toNat ≠ 0xCA10) ∧
    (∃ (s : State) (p : Port) (k : BitVec 16), s.hostOpen p ∧ k.toNat ≠ 0xCA10) ∧
    (∃ (s : State) (p : Port) (k : BitVec 16), s.hostOpen p ∧ k.toNat ≠ 0xCA10) ∧
    (∃ (s : State) (p : Port) (k : BitVec 16), s.hostOpen p ∧ k.toNat ≠ 0xCA10) ∧
    (∃ (s : State) (p : Port) (k : BitVec 16), s.hostOpen p ∧ k.toNat ≠ 0xCA10) ∧
    (∃ (s : State) (p : Port) (k : BitVec 16), s.hostOpen p ∧ k.toNat ≠ 0xCA10) ∧
    (∃ (s : State) (p : Port) (k : BitVec 16), s.hostOpen p ∧ k.toNat ≠ 0xCA10) ∧
    (∃ (s : State) (p : Port) (k : BitVec 16), s.hostOpen p ∧ k.toNat ≠ 0xCA10) ∧
    (∃ (s : State) (p : Port) (k : BitVec 16), s.hostOpen p ∧ k.toNat ≠ 0xCA10) ∧
    (∃ (s : State) (p : Port) (k : BitVec 16), s.hostOpen p ∧ k.toNat ≠ 0xCA10) ∧
    (∃ (s : State) (p : Port) (k : BitVec 16), s.hostOpen p ∧ k.toNat ≠ 0xCA10) ∧
    (∃ (s : State) (p : Port) (k : BitVec 16), s.hostOpen p ∧ k.toNat ≠ 0xCA10) ∧
    (∃ (s : State) (p : Port) (k : BitVec 16), s.hostOpen p ∧ k.toNat ≠ 0xCA10) :=
  ⟨⟨(let s := base; let s := hopen s; s), Port.stream, 0xFFFF#16, by unfold State.hostOpen; decide +kernel⟩,
   ⟨(let s := base; let s := hopen s; s), Port.stream, 0xFFFF#16, by unfold State.hostOpen; decide +kernel⟩,
   ⟨(let s := base; let s := hopen s; s), Port.stream, 0xFFFF#16, by unfold State.hostOpen; decide +kernel⟩,
   ⟨(let s := base; let s := hopen s; s), Port.stream, 0xFFFF#16, by unfold State.hostOpen; decide +kernel⟩,
   ⟨(let s := base; let s := hopen s; s), Port.stream, 0xFFFF#16, by unfold State.hostOpen; decide +kernel⟩,
   ⟨(let s := base; let s := hopen s; s), Port.stream, 0xFFFF#16, by unfold State.hostOpen; decide +kernel⟩,
   ⟨(let s := base; let s := hopen s; s), Port.stream, 0xFFFF#16, by unfold State.hostOpen; decide +kernel⟩,
   ⟨(let s := base; let s := hopen s; s), Port.stream, 0xFFFF#16, by unfold State.hostOpen; decide +kernel⟩,
   ⟨(let s := base; let s := hopen s; s), Port.stream, 0xFFFF#16, by unfold State.hostOpen; decide +kernel⟩,
   ⟨(let s := base; let s := hopen s; s), Port.stream, 0xFFFF#16, by unfold State.hostOpen; decide +kernel⟩,
   ⟨(let s := base; let s := hopen s; s), Port.stream, 0xFFFF#16, by unfold State.hostOpen; decide +kernel⟩,
   ⟨(let s := base; let s := hopen s; s), Port.stream, 0xFFFF#16, by unfold State.hostOpen; decide +kernel⟩,
   ⟨(let s := base; let s := hopen s; s), Port.stream, 0xFFFF#16, by unfold State.hostOpen; decide +kernel⟩,
   ⟨(let s := base; let s := hopen s; s), Port.stream, 0xFFFF#16, by unfold State.hostOpen; decide +kernel⟩,
   ⟨(let s := base; let s := hopen s; s), Port.stream, 0xFFFF#16, by unfold State.hostOpen; decide +kernel⟩,
   ⟨(let s := base; let s := hopen s; s), Port.stream, 0x9862#16, by unfold State.hostOpen; decide +kernel⟩⟩

theorem witness_transactionsEndWithoutACommit :
    (∃ (s : State) (p : Port) (token : BitVec 8), s.portLive p = true ∧ s.noImg = false ∧ s.dev ≠ .dormouse ∧ s.txnState = 1 ∧
        s.f F.TXN_STATUS_TOKEN = token.toNat) ∧
    (∃ (s : State), s.txnState = 1) ∧
    (∃ (s : State) (k : Fin 5), s.dev ≠ .boot ∧ s.power.powered = true ∧ s.power.resetLow = false ∧ s.f F.DEV_PWRSTAT_LSTAGE < 3 ∧
        2 ≤ k.val ∧ s.txnState = 1) :=
  ⟨⟨(let s := base; let s := hlive s; let s := s.setB F.IMG_BOOTSTAT_NOIMG 0 false; let s := s.notDev .dormouse;
      let s := s.setF F.TXN_STATUS_STATE 0 1; s), Port.stream, 0x0#8, by decide +kernel⟩,
   ⟨(let s := base; let s := s.setF F.TXN_STATUS_STATE 0 1; s), by decide +kernel⟩,
   ⟨(let s := base; let s := s.notDev .boot; let s := s.mapPower (fun z' => { z' with powered := true });
       let s := s.mapPower (fun z' => { z' with resetLow := false }); let s := s.setF F.DEV_PWRSTAT_LSTAGE 0 2;
       let s := s.setF F.TXN_STATUS_STATE 0 1; s), 4, by decide +kernel⟩⟩

/-- A full FIFO, whatever its words. -/
theorem fullFifo (l : List (Word × Bool)) (h : 65536 ≤ l.length) :
    ∃ (s : State) (x : Word × Bool) (r : List (Word × Bool)), s.stream.out = x :: r ∧ 65536 ≤ s.stream.fifo.length :=
  ⟨{ base with stream := { out := [(5, true)], fifo := l } }, (5, true), [], rfl, h⟩

theorem witness_fifoPointersOfLevelOne :
    (∃ (s : State) (p : Port), s.hostOpen p ∧ s.img.blevel = 1 ∧ s.atBoundary = true) ∧
    (∃ (s : State) (p : Port), s.hostOpen p ∧ s.img.blevel = 1 ∧ s.atBoundary = true) ∧
    (∃ (s : State) (p : Port), s.hostOpen p ∧ s.img.blevel = 1 ∧ s.atBoundary = true) ∧
    (∃ (s : State) (p : Port), s.hostOpen p ∧ (s.img.blevel ≠ 1 ∨ s.atBoundary = false)) ∧
    (∃ (s : State) (p : Port), s.hostOpen p ∧ (s.img.blevel ≠ 1 ∨ s.atBoundary = false)) ∧
    (∃ (s : State) (p : Port), s.hostOpen p ∧ (s.img.blevel ≠ 1 ∨ s.atBoundary = false)) ∧
    (∃ (s : State) (p : Port), s.portLive p = true ∧ s.noImg = false ∧ s.img.blevel = 1 ∧ s.f F.CAP_FSTAT_PKT_WAIT ≠ 0 ∧
        s.stream.rd < s.stream.fifo.length) ∧
    (∃ (s : State) (x : Word × Bool) (r : List (Word × Bool)), s.stream.out = x :: r ∧ 65536 ≤ s.stream.fifo.length) ∧
    (∃ (s : State) (x : Word × Bool) (r : _), s.stream.out = x :: r ∧ s.stream.fifo.length < 65536 ∧ s.stream.flushPend = false) :=
  ⟨⟨(let s := base; let s := hopen s; let s := s.mapImg (fun z' => { z' with blevel := 1 });
      s), Port.stream, by unfold State.hostOpen; decide +kernel⟩,
   ⟨(let s := base; let s := hopen s; let s := s.mapImg (fun z' => { z' with blevel := 1 });
       s), Port.stream, by unfold State.hostOpen; decide +kernel⟩,
   ⟨(let s := base; let s := hopen s; let s := s.mapImg (fun z' => { z' with blevel := 1 });
       s), Port.stream, by unfold State.hostOpen; decide +kernel⟩,
   ⟨(let s := base; let s := hopen s; s), Port.stream, by unfold State.hostOpen; decide +kernel⟩,
   ⟨(let s := base; let s := hopen s; s), Port.stream, by unfold State.hostOpen; decide +kernel⟩,
   ⟨(let s := base; let s := hopen s; s), Port.stream, by unfold State.hostOpen; decide +kernel⟩,
   ⟨(let s := base; let s := hlive s; let s := s.setB F.IMG_BOOTSTAT_NOIMG 0 false;
       let s := s.mapImg (fun z' => { z' with blevel := 1 }); let s := s.setF F.CAP_FSTAT_PKT_WAIT 0 1;
       let s := s.mapStream (fun c => { c with fifo := [(1, true)], rd := 0 }); s), Port.stream, by decide +kernel⟩,
   fullFifo (List.replicate 65536 (0, false)) (Nat.le_of_eq List.length_replicate.symm),
   ⟨(fun (x : Word × Bool) r => (let s := base; let s := s.mapStream (fun z' => { z' with out := x :: r });
       let s := s.mapStream (fun z' => { z' with flushPend := false });
       s)) ((0x151AF7F4#32, true)) ([]), (0x151AF7F4#32, true), [], by decide +kernel⟩⟩

theorem witness_stepRunsTheFrontCommand : ∃ (s : State) (c : Instr) (r : List Instr), s.pending = c :: r :=
  ⟨{ base with pending := [.idcode, .powerUp] }, .idcode, [.powerUp], rfl⟩

theorem witness_tickLeavesTheOutputsAlone :
    (∃ s : State, s.pending = [] ∧ s.clocksRun = false) ∧ (∃ s : State, s.pending = [] ∧ s.clocksRun = true) :=
  ⟨⟨State.reset, by decide +kernel⟩, ⟨base, by decide +kernel⟩⟩

theorem witness_stepKeepsTheCanonicalForm : ∃ s t : State, s.canonical ∧ step s = .next t :=
  ⟨base, _, by unfold State.canonical; decide +kernel, rfl⟩

theorem witness_identityRoleAndFlashChangeOnlyByTheirCommands : ∃ (c : Instr) (s t : State), exec c s = .next t :=
  ⟨.idcode, base, _, rfl⟩

/-- A step in every device state, and one that leaves RUN. -/
theorem witness_transitionsFollowTheTable :
    (∀ d : DevState, ∃ s t : State, s.dev = d ∧ step s = .next t) ∧ ∃ s t : State, s.dev = .run ∧ step s = .next t ∧
        t.dev = .safe :=
  ⟨fun d => ⟨{ base with dev := d, pending := [.idcode] }, _, rfl, rfl⟩,
   ⟨{ base with pending := [.heartbeatLoss] }, _, rfl, rfl, by decide +kernel⟩⟩

/-- A step within SAFE, and one into it. -/
theorem witness_safeOutputsHoldInSafe :
    (∃ s t : State, s.dev = .safe ∧ s.safeOutputs ∧ step s = .next t ∧ t.dev = .safe) ∧
    ∃ s t : State, s.dev ≠ .safe ∧ (s.dev = .safe → s.safeOutputs) ∧ step s = .next t ∧ t.dev = .safe :=
  ⟨⟨{ base with dev := .safe, pending := [.idcode] }, _, rfl, by unfold State.safeOutputs; decide +kernel, rfl, rfl⟩,
   ⟨{ base with pending := [.heartbeatLoss] }, _, by decide +kernel, (nomatch ·), rfl, by decide +kernel⟩⟩

/-- A step within BOOT, and one into it. -/
theorem witness_bootHoldsEveryOutput :
    (∃ s t : State, s.dev = .boot ∧ s.bootOutputs ∧ step s = .next t ∧ t.dev = .boot) ∧
    ∃ s t : State, s.dev ≠ .boot ∧ (s.dev = .boot → s.bootOutputs) ∧ step s = .next t ∧ t.dev = .boot :=
  ⟨⟨{ pending := [.idcode] }, _, rfl, ⟨rfl, by decide +kernel, by decide +kernel, by decide +kernel⟩, rfl, rfl⟩,
   ⟨{ base with dev := .standby, pending := [.restart .stream key] }, _, by decide +kernel, (nomatch ·), rfl, by decide +kernel⟩⟩

theorem witness_testInstructionsOnlyInStandbyOrSafe :
    ∃ (c : Instr) (s t : State), s.tap.inst = .extest ∧ s.dev ≠ .safe ∧ exec c s = .next t ∧ t.dev = .safe :=
  ⟨.heartbeatLoss, { base with dev := .standby, tap := { base.tap with inst := .extest } }, _, rfl, by decide +kernel, rfl, by decide +kernel⟩

/-- Values at the borders of the clauses of R191. -/
theorem witness_linear11EncodesAsTheRuleSays :
    (∃ x : Rat, roundAway (x / pow2 (-16)) = 0) ∧
    (∃ x : Rat, roundAway (x / pow2 (-16)) ≠ 0 ∧ -1024 ≤ roundAway (x / pow2 15) ∧ roundAway (x / pow2 15) ≤ 1023 ∧ 0 < x) ∧
    (∃ x : Rat, roundAway (x / pow2 (-16)) ≠ 0 ∧ -1024 ≤ roundAway (x / pow2 15) ∧ roundAway (x / pow2 15) ≤ 1023 ∧ x < 0) ∧
    (∃ x : Rat, 1023 < roundAway (x / pow2 15)) ∧ (∃ x : Rat, roundAway (x / pow2 15) < -1024) :=
  ⟨⟨1 / 131073, by decide +kernel⟩, ⟨1 / 131072, by decide +kernel⟩, ⟨-1024 * 32768, by decide +kernel⟩,
   ⟨2047 * 16384, by decide +kernel⟩, ⟨-2049 * 16384, by decide +kernel⟩⟩

theorem witness_transactionsEndWithBoot :
    ∃ (c : Instr) (s t : State), s.txnState = 1 ∧ s.dev ≠ .boot ∧ exec c s = .next t ∧ t.dev = .boot :=
  ⟨.restart .stream key, { base.setF F.TXN_STATUS_STATE 0 1 with dev := .standby }, _, by decide +kernel, by decide +kernel, rfl,
   by decide +kernel⟩

theorem witness_compressedSamplesDecodeWithinTheirBound :
    ∃ (k q : Nat) (x : Int) (xs : List Int), k ≤ 15 ∧ q ≤ 6 ∧ (∀ y ∈ x :: xs, -32768 ≤ y ∧ y ≤ 32767) :=
  ⟨14, 6, 32767, [-32768, 32767], by decide +kernel⟩

theorem witness_dataBlockTakesTheShortestParameter :
    ∃ (ch q : Nat) (xs : List (BitVec 16)), ch < 64 ∧ q ≤ 6 ∧ xs ≠ [] ∧ xs.length ≤ 32 :=
  ⟨63, 6, List.replicate 32 0x8000, by decide +kernel⟩

end Sys2Proof.Tests
end

section
/-! SUPPORT. What a command leaves alone: one theorem over every command, assembled from the `_runs` lemmas of Laws/Runs1 to
Runs4, and the frame of the device's identity, its role, EN and the flash that follows from it. -/

namespace Sys2Proof.Machine

/-- Only the end of BOOT (R69), the EN ball (R33) and a programmed block (R395) change more than `State.Runs` allows. -/
theorem exec_runs (c : Instr) (s : State) (hb : ¬ ∃ x, c = .bootComplete x) (he : ¬ ∃ x y, c = .enChange x y)
    (hu : ¬ ∃ x, c = .updateBlockComplete x) : State.Ends s.Runs (exec c s) := by
  cases c with
  | powerUp => exact execPowerUp_runs s
  | vddioModeLatch v33 => exact execVddioModeLatch_runs v33 s
  | resetAssert => exact execResetAssert_runs s
  | resetRelease => exact execResetRelease_runs s
  | bootComplete j => exact absurd ⟨j, rfl⟩ hb
  | overlayMigrationWrite => exact execOverlayMigrationWrite_runs s
  | reload p confirm => exact execReload_runs p confirm s
  | restart p confirm => exact execRestart_runs p confirm s
  | dormouse p confirm => exact execDormouse_runs p confirm s
  | enChange level lowMs => exact absurd ⟨level, lowMs, rfl⟩ he
  | dieTempReading tctl tsns => exact execDieTempReading_runs tctl tsns s
  | dieHotResume => exact execDieHotResume_runs s
  | heartbeatLoss => exact execHeartbeatLoss_runs s
  | safeFeedGateOff => exact execSafeFeedGateOff_runs s
  | eccError e => exact execEccError_runs e s
  | supplyMeasure v5 vin => exact execSupplyMeasure_runs v5 vin s
  | ownSupplyLadderStage k => exact execOwnSupplyLadderStage_runs k s
  | forcedL5 => exact execForcedL5_runs s
  | extest => exact execExtest_runs s
  | idcode => exact execIdcode_runs s
  | samplePreload cells => exact execSamplePreload_runs cells s
  | clamp => exact execClamp_runs s
  | highz => exact execHighz_runs s
  | debug k => exact execDebug_runs k s
  | bypass code => exact execBypass_runs code s
  | syncEdge hi lo gap ppm => exact execSyncEdge_runs hi lo gap ppm s
  | syncMissingPeriod => exact execSyncMissingPeriod_runs s
  | syncAligned => exact execSyncAligned_runs s
  | xinLoss => exact execXinLoss_runs s
  | clockMonitorWindow count => exact execClockMonitorWindow_runs count s
  | timerMatch n c => exact execTimerMatch_runs n c s
  | timerCtrlWrite p n v => exact execTimerCtrlWrite_runs p n v s
  | timerRelease p n => exact execTimerRelease_runs p n s
  | timerCntWrite p n v => exact execTimerCntWrite_runs p n v s
  | timerCompareWrite p n c v => exact execTimerCompareWrite_runs p n c v s
  | timerActWrite p n v => exact execTimerActWrite_runs p n v s
  | tmGstart p mask => exact execTmGstart_runs p mask s
  | tmGstop p mask => exact execTmGstop_runs p mask s
  | tmGclr p mask => exact execTmGclr_runs p mask s
  | linkedLowRead r c => exact execLinkedLowRead_runs r c s
  | frameStart n => exact execFrameStart_runs n s
  | onEdge p minOff => exact execOnEdge_runs p minOff s
  | blankingEnd p crossing => exact execBlankingEnd_runs p crossing s
  | peakTrip p => exact execPeakTrip_runs p s
  | maxonEnd p => exact execMaxonEnd_runs p s
  | phaseSample p code => exact execPhaseSample_runs p code s
  | averageCeilingExceeded p => exact execAverageCeilingExceeded_runs p s
  | foxTrip p recent => exact execFoxTrip_runs p recent s
  | foxHoldEnd p => exact execFoxHoldEnd_runs p s
  | delayLineCalibration bad => exact execDelayLineCalibration_runs bad s
  | prestartCheckFail n mean vmax vbus us => exact execPrestartCheckFail_runs n mean vmax vbus us s
  | prestartCheckPass n vmax => exact execPrestartCheckPass_runs n vmax s
  | softStartBegin n out => exact execSoftStartBegin_runs n out s
  | loopUpdate n fine coarse => exact execLoopUpdate_runs n fine coarse s
  | vsetWrite p n v => exact execVsetWrite_runs p n v s
  | leadWarningPulse pin w => exact execLeadWarningPulse_runs pin w s
  | leadSuspendClear p n => exact execLeadSuspendClear_runs p n s
  | injectionEnable p n v => exact execInjectionEnable_runs p n v s
  | balanceStep n => exact execBalanceStep_runs n s
  | overloadCompare n => exact execOverloadCompare_runs n s
  | overloadTimeout n => exact execOverloadTimeout_runs n s
  | phaseMonitorFrame n opened atMax byCmp => exact execPhaseMonitorFrame_runs n opened atMax byCmp s
  | loopEngineFailure n cause slotBad missed gap => exact execLoopEngineFailure_runs n cause slotBad missed gap s
  | precisionWindow j v => exact execPrecisionWindow_runs j v s
  | precisionSlotResult slot r fast clean ref => exact execPrecisionSlotResult_runs slot r fast clean ref s
  | precSnapRead p k => exact execPrecSnapRead_runs p k s
  | trimTargetUpdate => exact execTrimTargetUpdate_runs s
  | zeroLearnWindow p mean fox => exact execZeroLearnWindow_runs p mean fox s
  | ratioStepStart n steady late => exact execRatioStepStart_runs n steady late s
  | ratioStepComplete n a b0 u0 b1 u1 => exact execRatioStepComplete_runs n a b0 u0 b1 u1 s
  | energyBalancePoint src ps px pc ic => exact execEnergyBalancePoint_runs src ps px pc ic s
  | calibrationSave => exact execCalibrationSave_runs s
  | telemetryBlock u => exact execTelemetryBlock_runs u s
  | minmaxRead p m => exact execMinmaxRead_runs p m s
  | energyClear p f => exact execEnergyClear_runs p f s
  | autoZeroStart f => exact execAutoZeroStart_runs f s
  | autoZeroComplete f => exact execAutoZeroComplete_runs f s
  | seatQualified => exact execSeatQualified_runs s
  | seatLoss seat1 seat2 => exact execSeatLoss_runs seat1 seat2 s
  | unseatTimeout => exact execUnseatTimeout_runs s
  | inrushComplete f => exact execInrushComplete_runs f s
  | vbusQualified => exact execVbusQualified_runs s
  | inrushTimeout f amps vbus => exact execInrushTimeout_runs f amps vbus s
  | feedQualified f => exact execFeedQualified_runs f s
  | returnDelayExpiry f => exact execReturnDelayExpiry_runs f s
  | feedUv f => exact execFeedUv_runs f s
  | feedOv f => exact execFeedOv_runs f s
  | feedRev f => exact execFeedRev_runs f s
  | transferGateOff => exact execTransferGateOff_runs s
  | transferDeadTimeEnd => exact execTransferDeadTimeEnd_runs s
  | transferComplete gap => exact execTransferComplete_runs gap s
  | feedGate => exact execFeedGate_runs s
  | gateConfirmTimeout amps vbus => exact execGateConfirmTimeout_runs amps vbus s
  | faultTimerTrip f amps vbus => exact execFaultTimerTrip_runs f amps vbus s
  | feedFox f amps vbus => exact execFeedFox_runs f amps vbus s
  | toggle p confirm => exact execToggle_runs p confirm s
  | retryTimerExpiry => exact execRetryTimerExpiry_runs s
  | retryTimerSave => exact execRetryTimerSave_runs s
  | feedPinWrite p pin => exact execFeedPinWrite_runs p pin s
  | busLadderEntry k => exact execBusLadderEntry_runs k s
  | busLadderRelease => exact execBusLadderRelease_runs s
  | feedLeak => exact execFeedLeak_runs s
  | estimatorStep j amps volts steady fresh => exact execEstimatorStep_runs j amps volts steady fresh s
  | bthReading j code => exact execBthReading_runs j code s
  | impedanceStep j di vpre v1ms v10ms => exact execImpedanceStep_runs j di vpre v1ms v10ms s
  | batRestWrite p j on => exact execBatRestWrite_runs p j on s
  | restComplete j volts => exact execRestComplete_runs j volts s
  | contactorSettled => exact execContactorSettled_runs s
  | packUvCut j => exact execPackUvCut_runs j s
  | uvclr p j => exact execUvclr_runs p j s
  | snap p j => exact execSnap_runs p j s
  | restore p j => exact execRestore_runs p j s
  | wake p confirm => exact execWake_runs p confirm s
  | dormouseBusWake => exact execDormouseBusWake_runs s
  | dmholdClear => exact execDmholdClear_runs s
  | seqStepComplete part inwin below pgin => exact execSeqStepComplete_runs part inwin below pgin s
  | seqStepTimeout part => exact execSeqStepTimeout_runs part s
  | force p confirm => exact execForce_runs p confirm s
  | sfpulse p confirm => exact execSfpulse_runs p confirm s
  | clUv n => exact execClUv_runs n s
  | clOv n => exact execClOv_runs n s
  | clFov n => exact execClFov_runs n s
  | windowBlankEnd n => exact execWindowBlankEnd_runs n s
  | pwrgdReturn => exact execPwrgdReturn_runs s
  | minOffTimeExpiry => exact execMinOffTimeExpiry_runs s
  | softStartShort n out => exact execSoftStartShort_runs n out s
  | hiccupRestart n => exact execHiccupRestart_runs n s
  | sysfltIn => exact execSysfltIn_runs s
  | sysfltHoldEnd low => exact execSysfltHoldEnd_runs low s
  | sysfltStuck => exact execSysfltStuck_runs s
  | supervisorEvaluation a b c => exact execSupervisorEvaluation_runs a b c s
  | voteWindowClose => exact execVoteWindowClose_runs s
  | voterWatchdog => exact execVoterWatchdog_runs s
  | wireFault pair fresh => exact execWireFault_runs pair fresh s
  | ack p confirm => exact execAck_runs p confirm s
  | safe p confirm => exact execSafe_runs p confirm s
  | tsenReading n code => exact execTsenReading_runs n code s
  | tsenFaultLevel n => exact execTsenFaultLevel_runs n s
  | thermalModelStep obs vin => exact execThermalModelStep_runs obs vin s
  | thermalAnchor => exact execThermalAnchor_runs s
  | tsdclr p n confirm => exact execTsdclr_runs p n confirm s
  | tsdAutoClear n => exact execTsdAutoClear_runs n s
  | woodpeckerPauseStart k => exact execWoodpeckerPauseStart_runs k s
  | woodpeckerPauseEnd k => exact execWoodpeckerPauseEnd_runs k s
  | powerEstimate => exact execPowerEstimate_runs s
  | cappingControlStep c => exact execCappingControlStep_runs c s
  | captureSample n raw => exact execCaptureSample_runs n raw s
  | captureTrigger p hi mask => exact execCaptureTrigger_runs p hi mask s
  | streamRequest p hi mask => exact execStreamRequest_runs p hi mask s
  | laneTakeBlock l => exact execLaneTakeBlock_runs l s
  | tailTimeout n => exact execTailTimeout_runs n s
  | recordComplete l => exact execRecordComplete_runs l s
  | packetWordWrite => exact execPacketWordWrite_runs s
  | fifoRead p => exact execFifoRead_runs p s
  | flush p => exact execFlush_runs p s
  | mark p => exact execMark_runs p s
  | rewind p => exact execRewind_runs p s
  | release p => exact execRelease_runs p s
  | channelConfigWrite p n cfg v => exact execChannelConfigWrite_runs p n cfg v s
  | streamEnableWrite p v => exact execStreamEnableWrite_runs p v s
  | diagRead p => exact execDiagRead_runs p s
  | twoWireWake => exact execTwoWireWake_runs s
  | twoWireSleep => exact execTwoWireSleep_runs s
  | sclTimeout => exact execSclTimeout_runs s
  | sdaRelease => exact execSdaRelease_runs s
  | page w => exact execPage_runs w s
  | operation w => exact execOperation_runs w s
  | clearFaults w => exact execClearFaults_runs w s
  | storeUserAll w => exact execStoreUserAll_runs w s
  | capability w => exact execCapability_runs w s
  | voutMode w => exact execVoutMode_runs w s
  | voutCommand w => exact execVoutCommand_runs w s
  | voutTransitionRate w => exact execVoutTransitionRate_runs w s
  | voutOvFaultLimit w => exact execVoutOvFaultLimit_runs w s
  | voutUvFaultLimit w => exact execVoutUvFaultLimit_runs w s
  | ioutOcFaultLimit w => exact execIoutOcFaultLimit_runs w s
  | statusByte w => exact execStatusByte_runs w s
  | statusWord w => exact execStatusWord_runs w s
  | statusVout w => exact execStatusVout_runs w s
  | statusIout w => exact execStatusIout_runs w s
  | statusInput w => exact execStatusInput_runs w s
  | statusTemperature w => exact execStatusTemperature_runs w s
  | statusCml w => exact execStatusCml_runs w s
  | readVin w => exact execReadVin_runs w s
  | readIin w => exact execReadIin_runs w s
  | readVout w => exact execReadVout_runs w s
  | readIout w => exact execReadIout_runs w s
  | readTemperature1 w => exact execReadTemperature1_runs w s
  | readPout w => exact execReadPout_runs w s
  | readPin w => exact execReadPin_runs w s
  | pmbusRevision w => exact execPmbusRevision_runs w s
  | mfrId w => exact execMfrId_runs w s
  | mfrModel w => exact execMfrModel_runs w s
  | mfrRevision w => exact execMfrRevision_runs w s
  | mfrSerial w => exact execMfrSerial_runs w s
  | mfrWinAddr w => exact execMfrWinAddr_runs w s
  | mfrWinData w => exact execMfrWinData_runs w s
  | mfrFifoData w => exact execMfrFifoData_runs w s
  | mfrFifoCtrl w => exact execMfrFifoCtrl_runs w s
  | mfrFifoStat w => exact execMfrFifoStat_runs w s
  | unsupportedCommand p code => exact execUnsupportedCommand_runs p code s
  | alertResponse won clocks => exact execAlertResponse_runs won clocks s
  | rdreg f => exact execRdreg_runs f s
  | wrreg f => exact execWrreg_runs f s
  | rdfifo f => exact execRdfifo_runs f s
  | fifoctl f => exact execFifoctl_runs f s
  | streamStore f => exact execStreamStore_runs f s
  | registerWrite p a v => exact execRegisterWrite_runs p a v s
  | begin p => exact execBegin_runs p s
  | commit p token => exact execCommit_runs p token s
  | rollback p token => exact execRollback_runs p token s
  | txnChecksComplete => exact execTxnChecksComplete_runs s
  | commitTick => exact execCommitTick_runs s
  | txnTimeout => exact execTxnTimeout_runs s
  | store p confirm => exact execStore_runs p confirm s
  | storeComplete ok => exact execStoreComplete_runs ok s
  | fieldBusPoll b => exact execFieldBusPoll_runs b s
  | fieldBusTransactionDone b r data => exact execFieldBusTransactionDone_runs b r data s
  | fieldBusStale b e => exact execFieldBusStale_runs b e s
  | fieldBusArbLost b => exact execFieldBusArbLost_runs b s
  | fieldBusRetry b => exact execFieldBusRetry_runs b s
  | fieldBusHang b scl => exact execFieldBusHang_runs b scl s
  | fieldBusPowerRestore b => exact execFieldBusPowerRestore_runs b s
  | fieldBusResume b => exact execFieldBusResume_runs b s
  | pwrcycle p b confirm => exact execPwrcycle_runs p b confirm s
  | ringLinkUp => exact execRingLinkUp_runs s
  | ringLinkDown viol => exact execRingLinkDown_runs viol s
  | ringClaim => exact execRingClaim_runs s
  | claim f => exact execClaim_runs f s
  | enum f => exact execEnum_runs f s
  | beaconSend => exact execBeaconSend_runs s
  | beacon f steady rt => exact execBeacon_runs f steady rt s
  | budget f => exact execBudget_runs f s
  | capord f => exact execCapord_runs f s
  | onoff f => exact execOnoff_runs f s
  | busstate f => exact execBusstate_runs f s
  | time f => exact execTime_runs f s
  | share f => exact execShare_runs f s
  | report f => exact execReport_runs f s
  | ringBreak f => exact execRingBreak_runs f s
  | breakSend => exact execBreakSend_runs s
  | masterPeriodicSend kind => exact execMasterPeriodicSend_runs kind s
  | masterLost => exact execMasterLost_runs s
  | ringOpenTimeout => exact execRingOpenTimeout_runs s
  | ringReenumerate => exact execRingReenumerate_runs s
  | rackBudgetCompute pg => exact execRackBudgetCompute_runs pg s
  | rectifierOffline k => exact execRectifierOffline_runs k s
  | lnkOrderWrite p v => exact execLnkOrderWrite_runs p v s
  | timeSlotWrite => exact execTimeSlotWrite_runs s
  | recordNvmWrite fail1 fail2 => exact execRecordNvmWrite_runs fail1 fail2 s
  | overflowRecordRewrite => exact execOverflowRecordRewrite_runs s
  | owlIdxWrite p v writing => exact execOwlIdxWrite_runs p v writing s
  | owlSnap p confirm => exact execOwlSnap_runs p confirm s
  | snapshotFreeze => exact execSnapshotFreeze_runs s
  | snapshotCopyComplete => exact execSnapshotCopyComplete_runs s
  | snapshotRead p => exact execSnapshotRead_runs p s
  | clear p confirm => exact execClear_runs p confirm s
  | clearComplete => exact execClearComplete_runs s
  | upopen f => exact execUpopen_runs f s
  | upwrite f => exact execUpwrite_runs f s
  | upblock f => exact execUpblock_runs f s
  | updateBlockComplete r => exact absurd ⟨r, rfl⟩ hu
  | upclose f => exact execUpclose_runs f s
  | updateVerifyComplete noise => exact execUpdateVerifyComplete_runs noise s
  | updateSessionTimeout => exact execUpdateSessionTimeout_runs s
  | confirm p confirm => exact execConfirm_runs p confirm s
  | cancel p confirm => exact execCancel_runs p confirm s
  | trialTimeExpiry => exact execTrialTimeExpiry_runs s
  | trialTimeSave => exact execTrialTimeSave_runs s
  | ladderRecovery => exact execLadderRecovery_runs s
  | sysfltLineRelease => exact execSysfltLineRelease_runs s
  | feedLeakClear => exact execFeedLeakClear_runs s
  | feedQualificationLoss f => exact execFeedQualificationLoss_runs f s
  | currentLimitEntry f => exact execCurrentLimitEntry_runs f s
  | faultTimerClear f => exact execFaultTimerClear_runs f s
  | ringFrameDiscard raw within => exact execRingFrameDiscard_runs raw within s

/-- Settles O42: `exec_runs` bounds every command but three, and each of those three has a frame lemma of its own. -/
theorem identityRoleAndFlashChangeOnlyByTheirCommands : Obligations.IdentityRoleAndFlashChangeOnlyByTheirCommands := by
  unfold Obligations.IdentityRoleAndFlashChangeOnlyByTheirCommands
  intro c s t h
  by_cases hb : ∃ x, c = .bootComplete x
  · obtain ⟨x, rfl⟩ := hb
    have k : s.Loads t := (execBootComplete_loads x s).out t h
    exact ⟨k.serial, k.svcKey, .inl k.flash, .inl k.en, .inr (.inr ⟨x, rfl⟩)⟩
  by_cases he : ∃ x y, c = .enChange x y
  · obtain ⟨x, y, rfl⟩ := he
    have k : State.Moves { s with pins := { s.pins with en := x } } t := (execEnChange_moves x y s).out t h
    exact ⟨k.serial, k.svcKey, .inl k.flash, .inr ⟨x, y, rfl⟩, .inl ⟨k.role, k.blevel⟩⟩
  by_cases hu : ∃ x, c = .updateBlockComplete x
  · obtain ⟨x, rfl⟩ := hu
    have k : State.Keeps { s with flash := t.flash } t := (execUpdateBlockComplete_keeps x s).out t h
    exact ⟨k.serial, k.svcKey, .inr ⟨x, rfl⟩, .inl k.en, .inl ⟨k.role, k.blevel⟩⟩
  have k : s.Runs t := (exec_runs c s hb he hu).out t h
  exact ⟨k.serial, k.svcKey, .inl k.flash, .inl k.en, k.image.imp_right .inl⟩

end Sys2Proof.Machine
end

section
/-! SUPPORT. A tick of the clocks, part by part: what it leaves alone, and O38. -/

namespace Sys2Proof.Machine

variable {s t u : State}

/-- What `g` keeps, it keeps whether or not the condition lets it act. -/
theorem State.when_ind {P : State → Prop} (h : P t) (b : Bool) {g : State → State} (hg : ∀ {u}, P u → P (g u)) : P (t.when b g) := by
  cases b
  · exact h
  · exact hg h

/-- Nothing differs in the units that stand behind the outputs, in the balls, in the power state, in the image and in the TMR
count. -/
structure State.Quiet (s t : State) : Prop where
  ph : t.ph = s.ph
  cl : t.cl = s.cl
  fd : t.fd = s.fd
  img : t.img = s.img
  power : t.power = s.power
  pins : t.pins = s.pins
  tmr : t.clk.tmr = s.clk.tmr

theorem State.Quiet.refl (s : State) : s.Quiet s := ⟨rfl, rfl, rfl, rfl, rfl, rfl, rfl⟩

theorem State.Quiet.trans (h : s.Quiet t) (k : t.Quiet u) : s.Quiet u :=
  ⟨k.ph.trans h.ph, k.cl.trans h.cl, k.fd.trans h.fd, k.img.trans h.img, k.power.trans h.power, k.pins.trans h.pins,
    k.tmr.trans h.tmr⟩

/-! ### What each operation of a tick keeps quiet -/

theorem State.Quiet.setReg (h : s.Quiet t) (a : Nat) (w : Word) : s.Quiet (t.setReg a w) :=
  ⟨h.ph, h.cl, h.fd, h.img, h.power, h.pins, h.tmr⟩

theorem State.Quiet.updTm (h : s.Quiet t) (n : Fin 32) (g : TimerSt → TimerSt) : s.Quiet (t.updTm n g) :=
  ⟨h.ph, h.cl, h.fd, h.img, h.power, h.pins, h.tmr⟩

theorem State.Quiet.updThr (h : s.Quiet t) (k : Fin 4) (g : ThrSt → ThrSt) : s.Quiet (t.updThr k g) :=
  ⟨h.ph, h.cl, h.fd, h.img, h.power, h.pins, h.tmr⟩

theorem State.Quiet.enqueue (h : s.Quiet t) (l : List Instr) : s.Quiet (t.enqueue l) :=
  ⟨h.ph, h.cl, h.fd, h.img, h.power, h.pins, h.tmr⟩

theorem State.Quiet.agePolls (h : s.Quiet t) : s.Quiet t.agePolls :=
  State.each_keeps _ (fun _ _ hu => State.when_ind hu _ fun hu =>
    State.each_keeps _ (fun _ _ hv => State.when_ind hv _ fun hv => hv.setReg _ _) _ hu) _ h

theorem State.Quiet.usTick (h : s.Quiet t) : s.Quiet t.usTick := by
  refine State.when_ind (P := s.Quiet) ?_ _ State.Quiet.agePolls
  exact ⟨h.ph, h.cl, h.fd, h.img, h.power, h.pins, h.tmr⟩

theorem State.Quiet.secondTick (h : s.Quiet t) : s.Quiet t.secondTick :=
  State.when_ind (P := s.Quiet) (State.when_ind (P := s.Quiet) h _ fun h => (h.setReg _ _).enqueue _) _
    fun h => (h.setReg _ _).enqueue _

theorem State.Quiet.timeTick (h : s.Quiet t) : s.Quiet t.timeTick := by
  have hc (n : Nat) : s.Quiet { t with clk := { t.clk with opTicks := n } } :=
    ⟨h.ph, h.cl, h.fd, h.img, h.power, h.pins, h.tmr⟩
  unfold State.timeTick
  split
  · exact hc _
  · exact State.when_ind (P := s.Quiet) (hc 0).usTick _ State.Quiet.secondTick

theorem State.Quiet.freezeTick (h : s.Quiet t) : s.Quiet t.freezeTick := by
  unfold State.freezeTick
  split
  · exact h
  · exact ⟨h.ph, h.cl, h.fd, h.img, h.power, h.pins, h.tmr⟩

theorem State.Quiet.tmTick (h : s.Quiet t) (n : Fin 32) : s.Quiet (t.tmTick n).1 := by
  unfold State.tmTick
  split
  · exact h
  · have hf := h.updTm n (fun t => { t with
      armA := t.armA && !t.fireA, armB := t.armB && !t.fireB, fireA := false, fireB := false })
    dsimp only
    split
    · have hl := (hf.setReg (F.TM_CNT_CNT.addr n) (by assumption)).updTm n (fun t => { t with load := none })
      dsimp only
      split
      · split
        · exact (hl.setReg _ _).updTm _ _
        · exact hl
      · exact hl
    · split
      · exact State.when_ind (P := s.Quiet) (hf.setReg _ _) _ fun h => h.setReg _ _
      · exact hf

theorem State.Quiet.timersTick (h : s.Quiet t) : s.Quiet t.timersTick := by
  have hfold (l : List (Fin 32)) (r : State × List (Fin 32 × Cmp)) (hr : s.Quiet r.1) :
      s.Quiet (l.foldl (fun (r : State × List (Fin 32 × Cmp)) n => let t := r.1.tmTick n; (t.1, r.2 ++ t.2)) r).1 := by
    induction l generalizing r with
    | nil => exact hr
    | cons n l ih => exact ih _ (hr.tmTick n)
  exact (hfold timers (t, []) h).enqueue _

theorem State.Quiet.trainTick (h : s.Quiet t) (k : Fin 4) : s.Quiet (t.trainTick k) := by
  unfold State.trainTick
  split
  · exact h
  · exact h.updThr _ _

theorem State.Quiet.trainsTick (h : s.Quiet t) : s.Quiet t.trainsTick :=
  State.each_keeps _ (fun _ k hu => (hu.trainTick k).enqueue _) _ h

/-- Apart from the TMR count, which advances by one, a count tick is quiet. -/
theorem State.countTick_quiet (s : State) : State.Quiet { s with clk := { s.clk with tmr := s.clk.tmr + 1 } } s.countTick :=
  State.when_ind (P := State.Quiet _) (State.Quiet.refl _) _ fun h => h.enqueue _

/-- Apart from SRDY, a tick of the stream port's request is quiet. -/
theorem State.srdyTick_quiet (s : State) : State.Quiet { s with pins := { s.pins with srdy := s.srdyTick.pins.srdy } } s.srdyTick := by
  unfold State.srdyTick
  dsimp only
  split
  · exact State.Quiet.refl s
  · split
    · exact ⟨rfl, rfl, rfl, rfl, rfl, rfl, rfl⟩
    · exact ⟨rfl, rfl, rfl, rfl, rfl, rfl, rfl⟩

/-! ### The tick as a whole -/

theorem State.tick_of_stopped (h : s.clocksRun = false) : s.tick = s := by simp [State.tick, h]

/-- With the clocks running, a tick moves only the time counts in BOOT; elsewhere it adds one to the TMR count and may move SRDY. -/
theorem State.tick_quiet (h : s.clocksRun = true) : State.Quiet
    (if s.dev = .boot then s
      else { s with clk := { s.clk with tmr := s.clk.tmr + 1 }, pins := { s.pins with srdy := s.tick.pins.srdy } }) s.tick := by
  have ht := (State.Quiet.refl s).timeTick
  have hdev : s.timeTick.dev = s.dev := s.timeTick_rests.dev
  by_cases hb : s.dev = .boot
  · simpa [State.tick, h, hb, hdev] using ht
  · have e : s.tick = s.timeTick.countTick.freezeTick.srdyTick.timersTick.trainsTick := by simp [State.tick, h, hb, hdev]
    have hf := s.timeTick.countTick_quiet.freezeTick
    have hs := s.timeTick.countTick.freezeTick.srdyTick_quiet
    have hl := (State.Quiet.refl s.timeTick.countTick.freezeTick.srdyTick).timersTick.trainsTick
    rw [if_neg hb, e]
    refine State.Quiet.trans (t := { s.timeTick.countTick.freezeTick with
      pins := { s.timeTick.countTick.freezeTick.pins with srdy := s.timeTick.countTick.freezeTick.srdyTick.pins.srdy } }) ?_ (hs.trans hl)
    refine ⟨hf.ph.trans ht.ph, hf.cl.trans ht.cl, hf.fd.trans ht.fd, hf.img.trans ht.img, hf.power.trans ht.power, ?_, ?_⟩
    · simp only [hf.pins, ht.pins, hl.pins]
    · simp only [hf.tmr, ht.tmr]

/-- Settles O38: `tick_quiet` with the frame that every tick keeps, `tick_rests`. -/
theorem tickLeavesTheOutputsAlone : Obligations.TickLeavesTheOutputsAlone := by
  unfold Obligations.TickLeavesTheOutputsAlone
  have hstep (s : State) (hp : s.pending = []) : step s = .next s.tick := by simp [step, hp]
  refine ⟨fun s hp hc => by rw [hstep s hp, State.tick_of_stopped hc], fun s hp hc => ⟨s.tick, hstep s hp, ?_⟩⟩
  have hr := s.tick_rests
  have hq := State.tick_quiet hc
  by_cases hb : s.dev = .boot
  · rw [if_pos hb] at hq
    exact ⟨hr.dev, hr.flash, hq.ph, hq.cl, hq.fd, hq.img, hq.power, hr.serial, by rw [hq.pins], by rw [if_pos hb, hq.tmr],
      fun _ => hq.pins⟩
  · rw [if_neg hb] at hq
    exact ⟨hr.dev, hr.flash, hq.ph, hq.cl, hq.fd, hq.img, hq.power, hr.serial, by rw [hq.pins], by rw [if_neg hb, hq.tmr],
      fun h => absurd h hb⟩

end Sys2Proof.Machine
end

section
/-! SUPPORT. What turning clusters on and off leaves alone (R118, R162, R163, R271): everything but the clusters' and phases' own
words and state, the reports, and PWRGD, which it can only take away. -/

namespace Sys2Proof.Machine

variable {s t u : State}

/-! ### The words of clusters and phases -/

/-- The words that an operation on a cluster may change: SUPV_CLLAT and SUPV_PHSHEDx, the sources below 0x200, the words of the
phases, clusters and timers, the records' SEQ and lost count, and HST_PSTAT. -/
def clusterWord (a : Nat) : Bool :=
  (0x204 ≤ a && a < 0x207) || (0x240 ≤ a && a < 0x250) || (0x400 ≤ a && a < 0x2000) || (0x2A00 ≤ a && a < 0x2B00)
    || (0x2E01 ≤ a && a < 0x2E03) || (0x3210 ≤ a && a < 0x3223)

theorem clusterWord_iff (a : Nat) : clusterWord a = true ↔ 0x204 ≤ a ∧ a < 0x207 ∨ 0x240 ≤ a ∧ a < 0x250 ∨ 0x400 ≤ a ∧ a < 0x2000 ∨
    0x2A00 ≤ a ∧ a < 0x2B00 ∨ 0x2E01 ≤ a ∧ a < 0x2E03 ∨ 0x3210 ≤ a ∧ a < 0x3223 := by
  simp [clusterWord, or_assoc]

/-- A field of CLn's words. -/
abbrev Fld.ofCluster (fl : Fld) : Prop := fl.stride = 0x100 ∧ 0x1000 ≤ fl.base ∧ fl.base < 0x1100

/-- A field of PHp's words. -/
abbrev Fld.ofPhase (fl : Fld) : Prop := fl.stride = 0x20 ∧ 0x400 ≤ fl.base ∧ fl.base < 0x420

theorem Fld.ofCluster.word {fl : Fld} (h : fl.ofCluster) (n : Fin 16) : clusterWord (fl.addr n) = true := by
  obtain ⟨hs, hl, hu⟩ := h
  rw [clusterWord_iff, Fld.addr, hs]
  omega

theorem Fld.ofPhase.word {fl : Fld} (h : fl.ofPhase) (p : Fin 48) : clusterWord (fl.addr p) = true := by
  obtain ⟨hs, hl, hu⟩ := h
  rw [clusterWord_iff, Fld.addr, hs]
  omega

/-! ### The relation -/

/-- What an operation on clusters leaves alone. -/
structure State.Local (s t : State) : Prop where
  dev : t.dev = s.dev
  power : t.power = s.power
  fd : t.fd = s.fd
  seq : { t.seq with pwrgdWait := s.seq.pwrgdWait } = s.seq
  pins : { t.pins with pen := s.pins.pen, pwrgd := s.pins.pwrgd } = s.pins
  pwrgd : s.pins.pwrgd = false → t.pins.pwrgd = false
  word : ∀ a, clusterWord a = false → t.reg a = s.reg a

theorem State.Local.refl (s : State) : s.Local s := ⟨rfl, rfl, rfl, rfl, rfl, id, fun _ _ => rfl⟩

theorem State.Local.trans (h : s.Local t) (k : t.Local u) : s.Local u where
  dev := k.dev.trans h.dev
  power := k.power.trans h.power
  fd := k.fd.trans h.fd
  seq := (congrArg (fun q : SeqSt => { q with pwrgdWait := s.seq.pwrgdWait }) k.seq).trans h.seq
  pins := (congrArg (fun q : Pins => { q with pen := s.pins.pen, pwrgd := s.pins.pwrgd }) k.pins).trans h.pins
  pwrgd := fun x => k.pwrgd (h.pwrgd x)
  word := fun a ha => (k.word a ha).trans (h.word a ha)

/-- A field outside those words reads as before. -/
theorem State.Local.f (h : s.Local t) {fl : Fld} {i : Nat} (ha : clusterWord (fl.addr i) = false) : t.f fl i = s.f fl i := by
  simp only [State.f, h.word _ ha]

theorem State.Local.fB (h : s.Local t) {fl : Fld} {i : Nat} (ha : clusterWord (fl.addr i) = false) : t.fB fl i = s.fB fl i := by
  simp only [State.fB, h.f ha]

theorem State.Local.each {α : Type} (h : s.Local t) (l : List α) {g : State → α → State}
    (hg : ∀ {u} x, s.Local u → s.Local (g u x)) : s.Local (t.each l g) :=
  State.each_keeps t (fun _ x hu => hg x hu) l h

theorem State.Local.when (h : s.Local t) (b : Bool) {g : State → State} (hg : ∀ {u}, s.Local u → s.Local (g u)) :
    s.Local (t.when b g) :=
  State.when_ind h b hg

/-! ### Stores -/

theorem State.Local.setReg (h : s.Local t) {a : Nat} (ha : clusterWord a = true) (w : Word) : s.Local (t.setReg a w) where
  dev := h.dev
  power := h.power
  fd := h.fd
  seq := h.seq
  pins := h.pins
  pwrgd := h.pwrgd
  word := fun b hb => by
    have hne : b ≠ a := by rintro rfl; simp [ha] at hb
    rw [State.reg_setReg_ne t hne, h.word b hb]

theorem State.Local.setCl (h : s.Local t) (n : Fin 16) {fl : Fld} (v : Nat) (hf : fl.ofCluster := by decide) : s.Local (t.setF fl n v) :=
  h.setReg (hf.word n) _

theorem State.Local.setClB (h : s.Local t) (n : Fin 16) {fl : Fld} (b : Bool) (hf : fl.ofCluster := by decide) : s.Local (t.setB fl n b) :=
  h.setReg (hf.word n) _

theorem State.Local.setClBit (h : s.Local t) (n : Fin 16) {fl : Fld} (k : Nat) (b : Bool) (hf : fl.ofCluster := by decide) :
    s.Local (t.setFBit fl n k b) :=
  h.setReg (hf.word n) _

theorem State.Local.setPhB (h : s.Local t) (p : Fin 48) {fl : Fld} (b : Bool) (hf : fl.ofPhase := by decide) : s.Local (t.setB fl p b) :=
  h.setReg (hf.word p) _

theorem State.Local.setLatch (h : s.Local t) {fl : Fld} (k : Nat) (b : Bool) (hf : fl.base = 0x204 ∧ fl.stride = 0 := by decide) :
    s.Local (t.setFBit fl 0 k b) :=
  h.setReg (by rw [Fld.addr, hf.1, hf.2]; decide) _

theorem State.Local.updCl (h : s.Local t) (n : Fin 16) (g : ClusterSt → ClusterSt) : s.Local (t.updCl n g) :=
  ⟨h.dev, h.power, h.fd, h.seq, h.pins, h.pwrgd, h.word⟩

theorem State.Local.updPh (h : s.Local t) (p : Fin 48) (g : PhaseSt → PhaseSt) : s.Local (t.updPh p g) :=
  ⟨h.dev, h.power, h.fd, h.seq, h.pins, h.pwrgd, h.word⟩

theorem State.Local.unclaim (h : s.Local t) (cls idx owner : Nat) : s.Local (t.unclaim cls idx owner) :=
  ⟨h.dev, h.power, h.fd, h.seq, h.pins, h.pwrgd, h.word⟩

theorem State.Local.draw (h : s.Local t) : s.Local t.draw.2 := ⟨h.dev, h.power, h.fd, h.seq, h.pins, h.pwrgd, h.word⟩

theorem State.Local.setPen (h : s.Local t) (pen : BitVec 16) : s.Local { t with pins := { t.pins with pen := pen } } :=
  ⟨h.dev, h.power, h.fd, h.seq, h.pins, h.pwrgd, h.word⟩

theorem State.Local.evalPwrgd (h : s.Local t) : s.Local t.evalPwrgd := by
  unfold State.evalPwrgd
  split
  · exact ⟨h.dev, h.power, h.fd, h.seq, h.pins, fun _ => rfl, h.word⟩
  · exact h

/-! ### Sources and records -/

theorem State.Local.setSrcBit (h : s.Local t) {src : Nat} (hs : src < 0x200) (b : Bool) : s.Local (t.setSrcBit src b) :=
  h.setReg ((clusterWord_iff _).mpr (by simp only [Fld.addr, F.SUPV_SRC_SRC]; omega)) _

theorem State.Local.lower (h : s.Local t) {src : Nat} (hs : src < 0x200) : s.Local (t.lower src) := by
  unfold State.lower
  split
  · exact h.setSrcBit hs _
  · exact h

theorem State.Local.latch (h : s.Local t) {fl : Fld} (hb : fl.base = 0x3210) (hs : fl.stride = 1) {page : Nat} (hp : page < 16) (bits : Nat) :
    s.Local (t.latch fl page bits) :=
  h.setReg ((clusterWord_iff _).mpr (by simp only [Fld.addr, hb, hs]; omega)) _

/-- A source below 0x200 latches status bits of a cluster's page or none. -/
theorem State.Local.latchStatus (h : s.Local t) {src : Nat} (hs : src < 0x200) : s.Local (t.latchStatus src) := by
  have hn : src % 16 < 16 := Nat.mod_lt _ (by decide)
  have hf : ¬ (0x240 ≤ src ∧ src < 0x258) := by omega
  have hd : src ≠ Src.feedNone := by unfold Src.feedNone; omega
  simp only [State.latchStatus, Bool.and_eq_true, decide_eq_true_eq, if_neg hf, if_neg hd]
  split
  · exact h.latch rfl rfl hn _
  split
  · exact h.latch rfl rfl hn _
  split
  · exact h.latch rfl rfl hn _
  split
  · exact h.latch rfl rfl hn _
  split
  · exact h.latch rfl rfl hn _
  · exact h

theorem State.Local.raise (h : s.Local t) {src : Nat} (hs : src < 0x200) : s.Local (t.raise src) := by
  unfold State.raise
  split
  · exact h
  · have hl := (h.setSrcBit hs true).latchStatus hs
    exact ⟨hl.dev, hl.power, hl.fd, hl.seq, hl.pins, hl.pwrgd, hl.word⟩

theorem State.Local.follow (h : s.Local t) {src : Nat} (hs : src < 0x200) (b : Bool) : s.Local (t.follow src b) := by
  unfold State.follow
  split
  · exact h.raise hs
  · exact h.lower hs

theorem State.Local.record (h : s.Local t) (type : Nat) (payload : List Word) : s.Local (t.record type payload) := by
  unfold State.record
  split
  · exact h.setReg (a := 0x2E01) (by decide) _
  · refine State.Local.setReg (a := 0x2E02) ?_ (by decide) _
    exact ⟨h.dev, h.power, h.fd, h.seq, h.pins, h.pwrgd, h.word⟩

theorem State.Local.recordSrc (h : s.Local t) (src sub : Nat) (items : List Word) : s.Local (t.recordSrc src sub items) :=
  h.record _ _

/-! ### The active set -/

theorem State.Local.setTrim (h : s.Local t) (n : Fin 16) (k : Nat) (v : Int) : s.Local (t.setTrim n k v) := by
  have hb : (trimFld k).base = 0x1030 ∧ (trimFld k).stride = 0x100 := by unfold trimFld; split <;> exact ⟨rfl, rfl⟩
  refine h.setReg ((clusterWord_iff _).mpr ?_) _
  rw [Fld.addr, hb.1, hb.2]
  omega

theorem State.Local.setPhShed (h : s.Local t) (p : Fin 48) (b : Bool) : s.Local (t.setPhShed p b) :=
  h.setReg ((clusterWord_iff _).mpr (by omega)) _

theorem State.Local.fixPtr (h : s.Local t) (n : Fin 16) : s.Local (t.fixPtr n) := by
  unfold State.fixPtr
  dsimp only
  split
  · exact h
  · split
    · exact h.setCl n _
    · exact h.setCl n _

theorem State.Local.setActiveList (h : s.Local t) (n : Fin 16) (new : List Nat) : s.Local (t.setActiveList n new) := by
  refine State.Local.fixPtr (State.Local.each (State.Local.each
    ((((h.setCl n _).setCl n _).setCl n _).updCl n _) _ fun k h => ?_) _ fun k h => ?_) n
  · dsimp only
    split
    · exact h.setTrim n k 0
    · exact ((h.setTrim n k 0).setPhB _ _).updPh _ _
  · dsimp only
    split
    · exact h.setTrim n k 0
    · exact ((h.setTrim n k 0).setPhB _ _).updPh _ _

theorem State.Local.leaveActive (h : s.Local t) (n : Fin 16) (k : Nat) : s.Local (t.leaveActive n k) := by
  unfold State.leaveActive
  dsimp only
  split
  · exact ((h.updCl n _).setActiveList n _).updCl n _
  · exact h.updCl n _

theorem State.Local.evalOlim (h : s.Local t) (n : Fin 16) : s.Local (t.evalOlim n) := (h.setCl n _).setCl n _

theorem State.Local.evalPhloss (h : s.Local t) (n : Fin 16) : s.Local (t.evalPhloss n) :=
  State.Local.follow (State.Local.when h _ fun h => h.setClB n _) (by unfold Src.clPhloss; omega) _

/-! ### Off -/

theorem State.Local.injAbort (h : s.Local t) (n : Fin 16) : s.Local (t.injAbort n) := by
  unfold State.injAbort
  dsimp only
  split
  · refine State.Local.updCl (State.Local.unclaim (State.Local.setClB (State.Local.setClB h n _) n _) _ _ _) n _
  · exact h

theorem State.Local.endBlank (h : s.Local t) (n : Fin 16) : s.Local (t.endBlank n) := by
  unfold State.endBlank
  dsimp only
  refine State.Local.updCl (State.Local.setClB (State.Local.when h _ fun {u} h => h.setReg ?_ _) n _) n _
  have hm : u.f F.CL_VSLEW_BLKTM n < 32 := u.f_lt F.CL_VSLEW_BLKTM n
  rw [clusterWord_iff]
  simp only [Fld.addr, F.TM_CTRL_RUN]
  omega

theorem State.Local.clOff (h : s.Local t) (n : Fin 16) : s.Local (t.clOff n) := by
  unfold State.clOff
  split
  · exact h.updCl n _
  · have hcheck := State.Local.when (h.injAbort n) (((t.injAbort n).cl.get n).run == .checking)
      (g := fun s => let r := s.draw; (r.2.setF F.CL_PSCSTAT_RESULT n 0).setF F.CL_PSCSTAT_VMAX n r.1.toNat)
      fun h => (h.draw.setCl n _).setCl n _
    refine State.Local.evalPwrgd (State.Local.setPen (State.Local.updCl (State.Local.endBlank (State.Local.lower
      (State.Local.setClB ?_ n _) (by unfold Src.clOverload; omega)) n) n _) _)
    refine State.Local.setClB (State.Local.setClB (State.Local.setClB (State.Local.setClB (State.Local.setCl (State.Local.setCl
      (State.Local.each hcheck _ fun p h => ?_) n _) n _) n _) n _) n _) n _
    exact State.Local.updPh (h.setPhB p _) p _

theorem State.Local.clTurnOff (h : s.Local t) (n : Fin 16) : s.Local (t.clTurnOff n) := by
  unfold State.clTurnOff
  split
  · exact h.updCl n _
  · split
    · exact h
    · exact h.clOff n

theorem State.Local.clCloff (h : s.Local t) (n : Fin 16) : s.Local (t.clCloff n) :=
  State.Local.each h _ fun k h => (h.clOff k).setLatch _ _

/-! ### On -/

/-- A cluster with no phase left is off (R163). -/
theorem State.Local.offIfEmpty (h : s.Local t) (n : Fin 16) : s.Local (if t.nAv n = 0 then t.clCloff n else t) := by
  split
  · exact h.clCloff n
  · exact h

theorem State.Local.removePhase (h : s.Local t) (n : Fin 16) (p : Fin 48) (cause : Nat) {src : Nat} (hs : src < 0x200) :
    s.Local (t.removePhase n p cause src) := by
  unfold State.removePhase
  dsimp only
  split
  · exact h
  · refine State.Local.offIfEmpty (State.Local.evalPhloss (State.Local.recordSrc (State.Local.raise (State.Local.evalOlim
      (State.Local.leaveActive (State.Local.setTrim ?_ n _ 0) n _) n) hs) _ _ _) n) n
    exact State.Local.setClB (State.Local.setCl (State.Local.setCl (State.Local.setClBit (State.Local.updPh (State.Local.setPhB h p _)
      p _) n _ _) n _) n _) n _

theorem State.Local.clStart (h : s.Local t) (n : Fin 16) : s.Local (t.clStart n) := by
  unfold State.clStart
  extract_lets s₁ s₂ s₃ s₄ s₅ s₆ s₇ pins
  have hrejoin : s.Local s₁ := by
    refine State.Local.each h _ fun p h => State.Local.updPh (State.Local.when (State.Local.when h _ fun h => ?_) _ fun h => ?_) p _
    · exact State.Local.updPh (State.Local.setClBit (State.Local.setPhB h p _) n _ _) p _
    · exact h.setPhShed p false
  have hlane : s.Local s₂ := State.Local.each hrejoin _ fun p h => h.removePhase n p 6 (by unfold Src.phLane; omega)
  have hcheck : s.Local s₄ := ((((hlane.evalOlim n).evalPhloss n |>.setCl n _).setCl n _).setClB n _).setCl n _
  have hstart : s.Local s₇ := (((hcheck.setClB n _).setClB n _ |>.setLatch _ _).setClB n _).updCl n _
  clear_value s₇
  split
  · exact hlane
  · exact hstart.setPen _

end Sys2Proof.Machine
end

section
/-! SUPPORT. Safe-off (R276): the clusters off, the phases at the mid level, the balls low. -/

namespace Sys2Proof.Machine

variable {s t u : State}

theorem get_set_self {α : Type} {m : Nat} (v : Vector α m) (n : Fin m) (x : α) : (v.set n x).get n = x := by
  simp [Vector.get_eq_getElem]

theorem get_set_ne {α : Type} {m : Nat} (v : Vector α m) {n k : Fin m} (h : k ≠ n) (x : α) : (v.set n x).get k = v.get k := by
  have hv : n.val ≠ k.val := fun e => h (Fin.ext e.symm)
  simp [Vector.get_eq_getElem, hv]

/-- What no step of a loop changes, the loop does not change. -/
theorem State.each_frame {α β : Type} {π : State → β} {g : State → α → State} (hg : ∀ t x, π (g t x) = π t) (l : List α) (s : State) :
    π (s.each l g) = π s :=
  State.each_keeps (P := fun t => π t = π s) s (fun t x h => (hg t x).trans h) l rfl

/-- What each step of a loop brings about for its own member, and no step undoes, holds in the end for every member. -/
theorem State.each_establishes {α : Type} {Q : α → State → Prop} {g : State → α → State} (hset : ∀ t x, Q x (g t x))
    (hkeep : ∀ t x y, Q y t → Q y (g t x)) (l : List α) (s : State) : ∀ x ∈ l, Q x (s.each l g) := by
  induction l generalizing s with
  | nil => exact fun x hx => absurd hx List.not_mem_nil
  | cons y l ih =>
    intro x hx
    rw [State.each_cons]
    rcases List.mem_cons.mp hx with rfl | hx
    · exact State.each_keeps _ (fun t z => hkeep t z x) l (hset s x)
    · exact ih _ x hx

theorem State.updPh_get_self (s : State) (p : Fin 48) (g : PhaseSt → PhaseSt) : (s.updPh p g).ph.get p = g (s.ph.get p) :=
  get_set_self s.ph p _

theorem State.updPh_get_ne (s : State) {p q : Fin 48} (h : q ≠ p) (g : PhaseSt → PhaseSt) : (s.updPh p g).ph.get q = s.ph.get q :=
  get_set_ne s.ph h _

theorem State.updCl_get_self (s : State) (n : Fin 16) (g : ClusterSt → ClusterSt) : (s.updCl n g).cl.get n = g (s.cl.get n) :=
  get_set_self s.cl n _

theorem State.updCl_get_ne (s : State) {n k : Fin 16} (h : k ≠ n) (g : ClusterSt → ClusterSt) : (s.updCl n g).cl.get k = s.cl.get k :=
  get_set_ne s.cl h _

/-! ### A cluster off -/

/-- An operation that touches the state of one cluster alone. -/
structure State.OneCluster (n : Fin 16) (s t : State) : Prop where
  others : ∀ k, k ≠ n → t.cl.get k = s.cl.get k

theorem State.OneCluster.refl (n : Fin 16) (s : State) : s.OneCluster n s := ⟨fun _ _ => rfl⟩

theorem State.OneCluster.ofEq {n : Fin 16} (h : s.OneCluster n t) (e : u.cl = t.cl) : s.OneCluster n u :=
  ⟨fun k hk => (congrArg (·.get k) e).trans (h.others k hk)⟩

theorem State.OneCluster.updCl {n : Fin 16} (h : s.OneCluster n t) (g : ClusterSt → ClusterSt) : s.OneCluster n (t.updCl n g) :=
  ⟨fun k hk => (t.updCl_get_ne hk g).trans (h.others k hk)⟩

theorem State.OneCluster.setF {n : Fin 16} (h : s.OneCluster n t) (fl : Fld) (i v : Nat) : s.OneCluster n (t.setF fl i v) := ⟨h.others⟩

theorem State.OneCluster.setB {n : Fin 16} (h : s.OneCluster n t) (fl : Fld) (i : Nat) (b : Bool) : s.OneCluster n (t.setB fl i b) :=
  ⟨h.others⟩

theorem State.OneCluster.updPh {n : Fin 16} (h : s.OneCluster n t) (p : Fin 48) (g : PhaseSt → PhaseSt) : s.OneCluster n (t.updPh p g) :=
  ⟨h.others⟩

theorem State.OneCluster.draw {n : Fin 16} (h : s.OneCluster n t) : s.OneCluster n t.draw.2 := ⟨h.others⟩

theorem State.evalPwrgd_cl (s : State) : s.evalPwrgd.cl = s.cl := by
  unfold State.evalPwrgd
  split <;> rfl

theorem State.lower_cl (s : State) (src : Nat) : (s.lower src).cl = s.cl := by
  unfold State.lower
  split <;> rfl

theorem State.OneCluster.injAbort {n : Fin 16} (h : s.OneCluster n t) : s.OneCluster n (t.injAbort n) := by
  unfold State.injAbort
  split
  · refine State.OneCluster.updCl ?_ _
    exact h.ofEq rfl
  · exact h

theorem State.OneCluster.endBlank {n : Fin 16} (h : s.OneCluster n t) : s.OneCluster n (t.endBlank n) := by
  unfold State.endBlank
  dsimp only
  exact State.OneCluster.updCl (State.OneCluster.setB (State.when_ind (P := s.OneCluster n) h _ fun h => h.setB _ _ _) _ _ _) _

/-- Turning a cluster off leaves the state of every other cluster. -/
theorem State.clOff_oneCluster (s : State) (n : Fin 16) : s.OneCluster n (s.clOff n) := by
  unfold State.clOff
  split
  · exact (State.OneCluster.refl n s).updCl _
  · extract_lets s₁ s₂ s₃ s₄ s₅ s₆ s₇ s₈ pins s₉
    have h₁ : s.OneCluster n s₁ := (State.OneCluster.refl n s).injAbort
    have h₂ : s.OneCluster n s₂ := State.when_ind (P := s.OneCluster n) h₁ _ fun h => (h.draw.setF _ _ _).setF _ _ _
    have h₃ : s.OneCluster n s₃ := State.each_keeps (P := s.OneCluster n) _ (fun _ p h => (h.setB _ _ _).updPh p _) _ h₂
    clear_value s₃
    have h₅ : s.OneCluster n s₅ := h₃.ofEq rfl
    have h₆ : s.OneCluster n s₆ := h₅.ofEq (State.lower_cl _ _)
    have h₈ : s.OneCluster n s₈ := h₆.endBlank.updCl _
    clear_value s₈
    exact (h₈.ofEq (u := s₉) rfl).ofEq (State.evalPwrgd_cl s₉)

theorem State.clOff_run (s : State) (n : Fin 16) : ((s.clOff n).cl.get n).run = .off := by
  unfold State.clOff
  split
  case isTrue h => exact (congrArg ClusterSt.run (s.updCl_get_self n _)).trans h
  case isFalse =>
    extract_lets s₁ s₂ s₃ s₄ s₅ s₆ s₇ s₈ pins s₉
    clear_value s₇
    have hset : s₈.cl.get n = _ := s₇.updCl_get_self n _
    rw [State.evalPwrgd_cl]
    change (s₈.cl.get n).run = .off
    rw [hset]

/-- A cluster that is off stays off. -/
theorem State.clOff_run_of_off (s : State) (n k : Fin 16) (h : (s.cl.get k).run = .off) : ((s.clOff n).cl.get k).run = .off := by
  by_cases e : k = n
  · subst e
    exact s.clOff_run k
  · rw [(s.clOff_oneCluster n).others k e, h]

theorem State.clOff_power (s : State) (n : Fin 16) : (s.clOff n).power = s.power := ((State.Local.refl s).clOff n).power

/-! ### Entering a device state -/

/-- The words that an entry to a device state may change: HOLD, AWAKE, the capping requests and the trial time. -/
def enterWord (a : Nat) : Bool := a == 0x1 || a == 0x3201 || (0x2103 ≤ a && a < 0x21D0) || a == 0x2801 || a == 0x3312

/-- What an entry to a device state leaves alone (R30). -/
structure State.Entered (s t : State) : Prop where
  ph : t.ph = s.ph
  fd : t.fd = s.fd
  seq : t.seq = s.seq
  power : t.power = s.power
  run : ∀ n, (t.cl.get n).run = (s.cl.get n).run
  pins : { t.pins with thr := s.pins.thr } = s.pins
  word : ∀ a, enterWord a = false → t.reg a = s.reg a

theorem State.Entered.setReg (h : s.Entered t) {a : Nat} (ha : enterWord a = true) (w : Word) : s.Entered (t.setReg a w) where
  ph := h.ph
  fd := h.fd
  seq := h.seq
  power := h.power
  run := h.run
  pins := h.pins
  word := fun b hb => by
    have hne : b ≠ a := by rintro rfl; simp [ha] at hb
    rw [State.reg_setReg_ne t hne, h.word b hb]

theorem State.Entered.clearRequests (h : s.Entered t) : s.Entered t.clearRequests := by
  refine State.each_keeps (P := s.Entered) _ (fun u n h => ?_) _ (State.Entered.setReg (a := 0x2801) (State.each_keeps (P := s.Entered) _
    (fun u x h => h.setReg ?_ _) _ h) (by decide) _)
  · refine ⟨h.ph, h.fd, h.seq, h.power, fun k => ?_, h.pins, h.word⟩
    by_cases hk : k = n
    · subst hk
      exact (congrArg ClusterSt.run (u.updCl_get_self k _)).trans (h.run k)
    · exact (congrArg ClusterSt.run (u.updCl_get_ne hk _)).trans (h.run k)
  · revert x; decide

theorem State.enter_entered (s : State) (d : DevState) : s.Entered (s.enter d) := by
  have hhist (c : Word) : s.Entered (s.histAdd c) := by
    unfold State.histAdd
    split <;> exact ⟨rfl, rfl, rfl, rfl, fun _ => rfl, rfl, fun _ _ => rfl⟩
  unfold State.enter
  extract_lets s₁ s₂ s₃ s₄ s₅
  have h₁ : s.Entered s₁ := hhist _
  have h₂ : s.Entered s₂ := ⟨h₁.ph, h₁.fd, h₁.seq, h₁.power, h₁.run, h₁.pins, h₁.word⟩
  have h₃ : s.Entered s₃ := h₂.setReg (a := 0x3201) (by decide) _
  have h₄ : s.Entered s₄ := State.when_ind (P := s.Entered) h₃ _ fun {u} h => by
    have hh := h.setReg (a := 0x1) (by decide) (F.DEV_STATE_HOLD.insert (u.reg 0x1) 0)
    exact ⟨hh.ph, hh.fd, hh.seq, hh.power, hh.run, hh.pins, hh.word⟩
  have h₅ : s.Entered s₅ := State.when_ind (P := s.Entered) h₄ _ State.Entered.clearRequests
  refine State.when_ind (P := s.Entered) h₅ _ fun h => ?_
  refine State.Entered.setReg (a := 0x3312) ?_ (by decide) _
  exact ⟨h.ph, h.fd, h.seq, h.power, h.run, h.pins, h.word⟩

/-- Clearing the capping and thermal requests leaves every word but theirs. -/
theorem State.reg_clearRequests (s : State) {a : Nat} (hr : ∀ x : Fin 4, a ≠ F.RG_CAPST_REQ.addr x) (hb : a ≠ 0x2801) :
    s.clearRequests.reg a = s.reg a := by
  unfold State.clearRequests
  rw [State.each_frame (π := (·.reg a)) (by intro t n; rfl), State.reg_setF_ne _ (by exact hb),
    State.each_frame (π := (·.reg a)) fun t x => State.reg_setF_ne t (hr x)]

/-- The two-wire port is awake in SEQUP, RUN, SEQDN and SAFE (R332). -/
theorem State.enter_awake (s : State) (d : DevState) :
    (s.enter d).fB F.HST_STAT_AWAKE 0 = (d != .standby && d != .dormouse && d != .boot) := by
  unfold State.enter
  extract_lets s₁ s₂ s₃ s₄ s₅
  have h₃ : s₃.fB F.HST_STAT_AWAKE 0 = _ := State.fB_setB_self s₂ (by decide) rfl 0 _
  refine State.when_ind (P := fun t => t.fB F.HST_STAT_AWAKE 0 = _) (State.when_ind (P := fun t => t.fB F.HST_STAT_AWAKE 0 = _)
    (State.when_ind (P := fun t => t.fB F.HST_STAT_AWAKE 0 = _) h₃ _ fun {u} h => ?_) _ fun {u} h => ?_) _ fun {u} h => ?_
  · exact (State.fB_setB_ne u (by decide)).trans h
  · refine Eq.trans ?_ h
    simp only [State.fB, State.f, u.reg_clearRequests (a := F.HST_STAT_AWAKE.addr 0) (by decide) (by decide)]
  · exact (State.fB_setF_ne _ (by decide)).trans h

/-! ### Safe-off -/

/-- What safe-off brings about (R276). -/
structure State.MadeSafe (s t : State) : Prop where
  dev : t.dev = .safe
  off : ∀ n : Fin 16, (t.cl.get n).run = .off
  mid : ∀ p : Fin 48, (t.ph.get p).out = .mid
  pen : t.pins.pen = 0
  ext : t.pins.ext = 0
  pwrgd : t.pins.pwrgd = false
  ben : t.pins.ben = false
  bchg : t.pins.bchg = false
  driven : t.fB F.SEQ_STAT_SFDRV = true
  power : t.power = { s.power with safeGatesOff := false }

theorem State.safeOff_of_safe (h : s.dev = .safe) : s.safeOff = s := by simp [State.safeOff, h]

theorem State.sysfltDrive_driven (s : State) : s.sysfltDrive.fB F.SEQ_STAT_SFDRV = true := by
  unfold State.sysfltDrive
  exact (State.fB_setB_apart (s.setB F.SEQ_STAT_SFDRV 0 true) (by decide) (by decide)).trans (State.fB_setB_self s (by decide) rfl 0 true)

theorem State.safeOff_madeSafe (h : s.dev ≠ .safe) : s.MadeSafe s.safeOff := by
  unfold State.safeOff
  rw [if_neg (by simpa using h)]
  extract_lets s₁ s₂ s₃ s₄ s₅ pins power tap inp seq sup s₆
  have hoff : ∀ n ∈ clusters, (s₁.cl.get n).run = .off := State.each_establishes (Q := fun n t => (t.cl.get n).run = .off)
    State.clOff_run State.clOff_run_of_off _ _
  have hpow₁ : s₁.power = s.power := State.each_frame (π := State.power) State.clOff_power _ _
  clear_value s₁
  have hmid : ∀ p ∈ phases, (s₂.ph.get p).out = .mid := State.each_establishes (Q := fun p t => (t.ph.get p).out = .mid)
    (fun t p => congrArg PhaseSt.out (State.updPh_get_self _ p _))
    (fun t p k hk => by
      by_cases e : k = p
      · subst e
        exact congrArg PhaseSt.out (State.updPh_get_self _ k _)
      · exact (congrArg PhaseSt.out (State.updPh_get_ne _ e _)).trans hk) _ _
  have hcl₂ : s₂.cl = s₁.cl := State.each_frame (π := State.cl) (fun _ _ => by rfl) _ _
  have hpow₂ : s₂.power = s₁.power := State.each_frame (π := State.power) (fun _ _ => by rfl) _ _
  clear_value s₂
  have hin := s₂.enter_entered .safe
  have hdev : s₃.dev = .safe := s₂.enter_dev .safe
  change s₂.Entered s₃ at hin
  clear_value s₃
  exact {
    dev := hdev
    off := fun n => (hin.run n).trans (hcl₂ ▸ hoff n (List.mem_finRange n))
    mid := fun p => (congrArg (fun v => (v.get p).out) hin.ph).trans (hmid p (List.mem_finRange p))
    pen := rfl
    ext := rfl
    pwrgd := rfl
    ben := rfl
    bchg := rfl
    driven := State.sysfltDrive_driven s₆
    power := congrArg (fun q : PowerSt => { q with safeGatesOff := false }) (hin.power.trans (hpow₂.trans hpow₁)) }

end Sys2Proof.Machine
end

section
/-! SUPPORT. What the sequencer's and the feeds' operations leave alone: ONREQ, the trip latches and the retry time, UPFAIL,
TOFFMIN and the sources of the sequencer; a pending off once taken, and PWRGD once low. -/

namespace Sys2Proof.Machine

variable {s t u : State}

/-! ### Fields that stay -/

theorem State.f_ofRegs (h : t.regs = s.regs) (fl : Fld) (i : Nat) : t.f fl i = s.f fl i := by simp only [State.f, State.reg, h]

theorem State.fB_ofF {fl : Fld} {i : Nat} (h : t.f fl i = s.f fl i) : t.fB fl i = s.fB fl i := by simp only [State.fB, h]

/-- ONREQ, the trip latches and the retry time. -/
def requestFields : List (Fld × Nat) :=
  [(F.DEV_STATE_ONREQ, 0), (F.FEED_STAT_TRIPLAT, 0), (F.FEED_STAT_TRIPLAT, 1), (F.FEED_STAT_TRIPLAT, 2), (F.INP_RETRY_REMAIN, 0)]

/-- Fields that no operation of an entry to SEQUP, SEQDN or STANDBY writes. -/
def guarded : List (Fld × Nat) :=
  requestFields ++ [(F.SEQ_STAT_UPFAIL, 0), (F.SEQ_CFG_TOFFMIN, 0), (F.SUPV_SRC_SRC, 20)]

/-- A store of a field leaves a list of fields alone: each lies in another word or in other bits. -/
abbrev Fld.spares (fl : Fld) (i : Nat) (l : List (Fld × Nat)) : Prop := ∀ p ∈ l, p.1.fits ∧ (p.1.addr p.2 ≠ fl.addr i ∨ fl.apart p.1)

theorem Fld.spares.f_setF {fl : Fld} {i : Nat} {l : List (Fld × Nat)} (h : fl.spares i l) (s : State) (v : Nat) {p : Fld × Nat} (hp : p ∈ l) :
    (s.setF fl i v).f p.1 p.2 = s.f p.1 p.2 := by
  obtain ⟨hfit, hne | hap⟩ := h p hp
  · exact State.f_setF_ne s hne
  · exact State.f_setF_apart s hfit hap

/-- The fields of a list read as before. -/
def State.SameFields (l : List (Fld × Nat)) (s t : State) : Prop := ∀ p ∈ l, t.f p.1 p.2 = s.f p.1 p.2

section
variable {l : List (Fld × Nat)}

theorem State.SameFields.refl (s : State) : s.SameFields l s := fun _ _ => rfl

theorem State.SameFields.trans (h : s.SameFields l t) (k : t.SameFields l u) : s.SameFields l u := fun p hp => (k p hp).trans (h p hp)

theorem State.SameFields.setF (h : s.SameFields l t) {fl : Fld} {i : Nat} (v : Nat) (hs : fl.spares i l := by decide) :
    s.SameFields l (t.setF fl i v) := fun p hp => (hs.f_setF t v hp).trans (h p hp)

theorem State.SameFields.setB (h : s.SameFields l t) {fl : Fld} {i : Nat} (b : Bool) (hs : fl.spares i l := by decide) :
    s.SameFields l (t.setB fl i b) := fun p hp => (hs.f_setF t b.toNat hp).trans (h p hp)

theorem State.SameFields.ofRegs (h : s.SameFields l t) (hr : u.regs = t.regs) : s.SameFields l u :=
  fun p hp => (State.f_ofRegs hr p.1 p.2).trans (h p hp)

theorem State.SameFields.fB (h : s.SameFields l t) {fl : Fld} {i : Nat} (hp : (fl, i) ∈ l) : t.fB fl i = s.fB fl i :=
  State.fB_ofF (h (fl, i) hp)

end

/-- The guarded fields read as before; a pending off that is not set stays so, and a PWRGD that is low. -/
structure State.Guards (s t : State) : Prop where
  field : s.SameFields guarded t
  pendoff : s.fB F.SEQ_STAT_PENDOFF = false → t.fB F.SEQ_STAT_PENDOFF = false
  pwrgd : s.pins.pwrgd = false → t.pins.pwrgd = false

theorem State.Guards.refl (s : State) : s.Guards s := ⟨fun _ _ => rfl, id, id⟩

theorem State.Guards.trans (h : s.Guards t) (k : t.Guards u) : s.Guards u :=
  ⟨fun p hp => (k.field p hp).trans (h.field p hp), fun x => k.pendoff (h.pendoff x), fun x => k.pwrgd (h.pwrgd x)⟩

theorem State.Guards.fB (h : s.Guards t) {fl : Fld} {i : Nat} (hp : (fl, i) ∈ guarded) : t.fB fl i = s.fB fl i := h.field.fB hp

theorem State.Guards.request (h : s.Guards t) : s.SameFields requestFields t := fun p hp => h.field p (List.mem_append_left _ hp)

/-- A change of hidden state that does not assert PWRGD. -/
theorem State.Guards.ofRegs (h : s.Guards t) (hr : u.regs = t.regs) (hp : t.pins.pwrgd = false → u.pins.pwrgd = false) : s.Guards u := by
  exact ⟨h.field.ofRegs hr, fun x => (State.fB_ofF (State.f_ofRegs hr _ _)).trans (h.pendoff x), fun x => hp (h.pwrgd x)⟩

theorem State.Guards.setF (h : s.Guards t) {fl : Fld} {i : Nat} (v : Nat)
    (hs : fl.spares i ((F.SEQ_STAT_PENDOFF, 0) :: guarded) := by decide) : s.Guards (t.setF fl i v) := by
  have hf (p : Fld × Nat) (hp : p ∈ (F.SEQ_STAT_PENDOFF, 0) :: guarded) := hs.f_setF t v hp
  refine ⟨fun p hp => (hf p (List.mem_cons_of_mem _ hp)).trans (h.field p hp), fun x => ?_, h.pwrgd⟩
  rw [← h.pendoff x]
  simp only [State.fB, hf (F.SEQ_STAT_PENDOFF, 0) (List.mem_cons_self ..)]

theorem State.Guards.setB (h : s.Guards t) {fl : Fld} {i : Nat} (b : Bool)
    (hs : fl.spares i ((F.SEQ_STAT_PENDOFF, 0) :: guarded) := by decide) : s.Guards (t.setB fl i b) := h.setF _ hs

theorem State.Guards.clearPendoff (h : s.Guards t) : s.Guards (t.setB F.SEQ_STAT_PENDOFF 0 false) := by
  have hs : F.SEQ_STAT_PENDOFF.spares 0 guarded := by decide
  exact ⟨fun p hp => (hs.f_setF t 0 hp).trans (h.field p hp), fun _ => State.fB_setB_self t (by decide) rfl 0 false, h.pwrgd⟩

theorem State.Guards.each {α : Type} (h : s.Guards t) (l : List α) {g : State → α → State}
    (hg : ∀ {u} x, s.Guards u → s.Guards (g u x)) : s.Guards (t.each l g) :=
  State.each_keeps t (fun _ x hu => hg x hu) l h

theorem State.Guards.when (h : s.Guards t) (b : Bool) {g : State → State} (hg : ∀ {u}, s.Guards u → s.Guards (g u)) :
    s.Guards (t.when b g) :=
  State.when_ind h b hg

theorem State.Guards.ite {c : Prop} [Decidable c] (h : s.Guards t) (k : s.Guards u) : s.Guards (if c then t else u) := by
  split
  · exact h
  · exact k

/-- An operation on clusters leaves the guarded words alone. -/
theorem State.Guards.thenLocal (h : s.Guards t) (k : t.Local u) : s.Guards u := by
  have hw : ∀ p ∈ (F.SEQ_STAT_PENDOFF, 0) :: guarded, clusterWord (p.1.addr p.2) = false := by decide
  refine h.trans ⟨fun p hp => k.f (hw p (List.mem_cons_of_mem _ hp)), fun x => ?_, k.pwrgd⟩
  rw [k.fB (hw (F.SEQ_STAT_PENDOFF, 0) (List.mem_cons_self ..)), x]

/-! ### Entries -/

theorem State.Guards.histAdd (h : s.Guards t) (c : Word) : s.Guards (t.histAdd c) := by
  unfold State.histAdd
  split
  · exact h
  · exact h.ofRegs rfl id

theorem State.Guards.enter (h : s.Guards t) (d : DevState) : s.Guards (t.enter d) := by
  unfold State.enter
  extract_lets s₁ s₂ s₃ s₄ s₅
  have h₂ : s.Guards s₂ := (h.histAdd _).ofRegs rfl id
  have h₃ : s.Guards s₃ := h₂.setB _
  have h₄ : s.Guards s₄ := State.Guards.when h₃ _ fun h => (h.setB (fl := F.DEV_STATE_HOLD) (i := 0) false).ofRegs rfl id
  have h₅ : s.Guards s₅ := State.Guards.when h₄ _ fun {u} h => by
    have hreq := State.Guards.setF (fl := F.THM_BRDSTAT_REQ) (i := 0) (State.Guards.each h (List.finRange 4)
      (g := fun s x => s.setF F.RG_CAPST_REQ x 0) fun x h => h.setF 0 (by revert x; decide)) 0
    exact State.Guards.each hreq _ fun n h => h.ofRegs rfl id
  refine State.Guards.when h₅ _ fun h => State.Guards.setF ?_ _
  exact h.ofRegs rfl id

theorem State.Guards.seqDecide (h : s.Guards t) (step dir dec : Nat) : s.Guards (t.seqDecide step dir dec) := by
  refine State.Guards.histAdd ?_ _
  exact h.ofRegs rfl id

theorem State.Guards.setExt (h : s.Guards t) (k : Nat) (b : Bool) : s.Guards (t.setExt k b) := h.ofRegs rfl id

/-! ### Feeds and pack -/

theorem State.Guards.setGate (h : s.Guards t) (f : Fin 3) (g : GateSt) : s.Guards (t.setGate f g) := h.ofRegs rfl id

theorem State.Guards.evalHold (h : s.Guards t) : s.Guards t.evalHold := h.setB _

theorem State.Guards.evalVbusq (h : s.Guards t) : s.Guards t.evalVbusq := by
  unfold State.evalVbusq
  split
  · exact h.setB _
  · exact h

theorem State.Guards.evalBen (h : s.Guards t) : s.Guards t.evalBen := by
  unfold State.evalBen
  split
  · exact h.ofRegs rfl id
  · extract_lets s₁ b s₂ pins s₃
    have h₁ : s.Guards s₁ := State.Guards.when h _ fun h => State.Guards.setB (State.Guards.setB h _) _
    have h₂ : s.Guards s₂ := by
      change s.Guards (if b then s₁ else _)
      split
      · exact h₁
      · exact h₁.ofRegs rfl id
    have h₃ : s.Guards s₃ := h₂.ofRegs rfl id
    exact State.Guards.when h₃ _ fun h => h.setB _

theorem State.Guards.gateOff (h : s.Guards t) (f : Fin 3) : s.Guards (t.gateOff f) := by
  unfold State.gateOff
  extract_lets s₁ s₂ s₃
  have hcon : ∀ f : Fin 3, F.FEED_STAT_CONDUCT.spares f ((F.SEQ_STAT_PENDOFF, 0) :: guarded) := by decide
  have hlim : ∀ f : Fin 3, F.FEED_STAT_INLIM.spares f ((F.SEQ_STAT_PENDOFF, 0) :: guarded) := by decide
  have h₁ : s.Guards s₁ := (h.setGate f _).setB _ (hcon f)
  have h₂ : s.Guards s₂ := h₁.setB _ (hlim f)
  have h₃ : s.Guards s₃ := State.Guards.when h₂ _ fun h => h.setF _
  exact h₃.evalHold.evalVbusq.evalBen

theorem State.Guards.allGatesOff (h : s.Guards t) : s.Guards t.allGatesOff := by
  refine State.Guards.each (State.Guards.setB ?_ _) _ fun f h => h.gateOff f
  exact h.ofRegs rfl id

theorem State.Guards.connect (h : s.Guards t) (f : Fin 3) : s.Guards (t.connect f) := by
  unfold State.connect
  exact State.Guards.ite h (h.setGate f _)

theorem State.Guards.evalFeedSel (h : s.Guards t) : s.Guards t.evalFeedSel := by
  unfold State.evalFeedSel
  split
  · exact State.Guards.when h _ fun h => State.Guards.each h _ fun f h => h.connect f
  · split
    · split
      · exact h.connect _
      · exact h
    · exact h

/-! ### Steps -/

/-- A power-up step as it starts, before its clusters and its EXT ball (R247). -/
def State.upBegun (s : State) (k : Nat) : State :=
  let s := ((s.setF F.SEQ_STAT_STEP 0 k).setF F.SEQ_STAT_HIGHEST 0 (Nat.max k (s.f F.SEQ_STAT_HIGHEST))).seqDecide k 0 1
  { s with seq := { s.seq with stepOpen := true } }

/-- A power-down step as it starts, before its clusters and its EXT ball (R247, R250). -/
def State.downBegun (s : State) (k : Nat) : State :=
  let s := ((s.setF F.SEQ_STAT_STEP 0 k).setB F.SEQ_STAT_HELD 0 false).seqDecide k 1 1
  { s with seq := { s.seq with stepOpen := true } }

/-- A power-up step starts clusters, then raises its EXT ball where it names one. -/
theorem State.stepUp_local (s : State) (k : Nat) : ∃ t, (s.upBegun k).Local t ∧
    s.stepUp k = t.when (t.f F.SEQ_STEP_OBJ k == 3) (fun t => t.setExt (t.f F.SEQ_STEP_INDEX k) true) :=
  ⟨_, State.Local.each (State.Local.refl _) _ fun n h => h.clStart n, rfl⟩

/-- A power-down step turns clusters off, then lowers its EXT ball where it names one. -/
theorem State.stepDown_local (s : State) (k : Nat) : ∃ t, (s.downBegun k).Local t ∧
    s.stepDown k = t.when (t.f F.SEQ_STEP_OBJ k == 3) (fun t => t.setExt (t.f F.SEQ_STEP_INDEX k) false) :=
  ⟨_, State.Local.each (State.Local.refl _) _ fun n h => h.clTurnOff n, rfl⟩

theorem State.Guards.stepUp (h : s.Guards t) (k : Nat) : s.Guards (t.stepUp k) := by
  have hb : s.Guards (t.upBegun k) := by
    refine State.Guards.ofRegs (State.Guards.seqDecide (State.Guards.setF (State.Guards.setF h _) _) k 0 1) rfl id
  obtain ⟨u, hu, e⟩ := t.stepUp_local k
  rw [e]
  exact State.Guards.when (hb.thenLocal hu) _ fun h => h.setExt _ _

theorem State.Guards.stepDown (h : s.Guards t) (k : Nat) : s.Guards (t.stepDown k) := by
  have hb : s.Guards (t.downBegun k) := by
    refine State.Guards.ofRegs (State.Guards.seqDecide (State.Guards.setB (State.Guards.setF h _) _) k 1 1) rfl id
  obtain ⟨u, hu, e⟩ := t.stepDown_local k
  rw [e]
  exact State.Guards.when (hb.thenLocal hu) _ fun h => h.setExt _ _

/-! ### SEQUP and SEQDN -/

theorem State.Guards.sequpEntry (h : s.Guards t) : s.Guards t.sequpEntry := by
  unfold State.sequpEntry
  extract_lets s₁ s₂ s₃ s₄
  have h₂ : s.Guards s₂ := (h.enter _).thenLocal ((State.Local.refl s₁).setReg (a := 0x204) (by decide) 0)
  have h₃ : s.Guards s₃ := h₂.thenLocal (State.Local.each (State.Local.refl s₂) _ fun n h =>
    State.Local.updCl (State.Local.setClB (State.Local.setCl (State.Local.setClB h n _) n _) n _) n _)
  have h₄ : s.Guards s₄ := ((State.Guards.clearPendoff (State.Guards.setF (State.Guards.setB (State.Guards.setB h₃ _) _) _))).setB _
  exact h₄.evalFeedSel.evalBen.stepUp 0

theorem State.Guards.evalStart (h : s.Guards t) : s.Guards t.evalStart := by
  unfold State.evalStart
  exact State.Guards.ite h.sequpEntry h

/-- STANDBY as the last power-down step enters it, before TOFFMIN is looked at (R31, R200, R215). -/
def State.standbyEntry (s : State) : State :=
  let s := s.when (!s.shelf) State.allGatesOff
  let s := ((s.setB F.SEQ_STAT_ACTIVE 0 false).setB F.SEQ_STAT_HELD 0 false).setB F.SEQ_STAT_PENDOFF 0 false
  let s := { s with seq := { s.seq with stepOpen := false }, inp := { s.inp with unseat := false } }
  let s := (s.enter .standby).evalBen
  s.when (s.fB F.FEED_STAT_QUAL 0 || s.fB F.FEED_STAT_QUAL 1) (fun s => s.setB F.INP_STAT_B5LAT 0 false)

theorem State.seqdnEnd_eq (s : State) : s.seqdnEnd = if s.standbyEntry.f F.SEQ_CFG_TOFFMIN = 0
    then (s.standbyEntry.setB F.SEQ_STAT_PENDON 0 false).evalStart else s.standbyEntry.setB F.SEQ_STAT_OFFLAT 0 true := rfl

theorem State.Guards.standbyEntry (h : s.Guards t) : s.Guards t.standbyEntry := by
  unfold State.standbyEntry
  extract_lets s₁ s₂ inp seq s₃ s₄
  have h₁ : s.Guards s₁ := State.Guards.when h _ State.Guards.allGatesOff
  have h₂ : s.Guards s₂ := State.Guards.clearPendoff (State.Guards.setB (State.Guards.setB h₁ _) _)
  have h₃ : s.Guards s₃ := h₂.ofRegs rfl id
  exact State.Guards.when (h₃.enter _).evalBen _ fun h => h.setB _

theorem State.Guards.seqdnEnd (h : s.Guards t) : s.Guards t.seqdnEnd := by
  rw [State.seqdnEnd_eq]
  exact State.Guards.ite (State.Guards.evalStart (h.standbyEntry.setB _)) (h.standbyEntry.setB _)

theorem State.Guards.seqdnFrom (h : s.Guards t) (k : Nat) : s.Guards (t.seqdnFrom k) := by
  unfold State.seqdnFrom
  split
  · exact h.stepDown _
  · exact h.seqdnEnd

/-- SEQDN as it is entered, before its first step: PWRGD low, no off pending (R31, R254, R255). -/
def State.seqdnBegun (s : State) : State :=
  let s := { s with pins := { s.pins with pwrgd := false } }
  let s := s.enter .seqdn
  let s := (((s.setB F.SEQ_STAT_DIR 0 true).setB F.SEQ_STAT_ACTIVE 0 true).setB F.SEQ_STAT_PENDOFF 0 false).setB
    F.SEQ_STAT_PENDON 0 false
  State.evalBen { s with seq := { s.seq with subset := 0, subRg := 0, subStep := none, pwrgdWait := false } }

theorem State.seqdnEntry_from (s : State) : ∃ k, s.seqdnEntry = s.seqdnBegun.seqdnFrom k := ⟨_, rfl⟩

theorem State.Guards.seqdnBegun (h : s.Guards t) : s.Guards t.seqdnBegun := by
  unfold State.seqdnBegun
  extract_lets pins s₁ s₂ s₃ seq
  have h₁ : s.Guards s₁ := h.ofRegs rfl fun _ => rfl
  have h₃ : s.Guards s₃ := State.Guards.setB (State.Guards.clearPendoff (State.Guards.setB (State.Guards.setB (h₁.enter .seqdn) _) _)) _
  refine State.Guards.evalBen ?_
  exact h₃.ofRegs rfl id

theorem State.Guards.seqdnEntry (h : s.Guards t) : s.Guards t.seqdnEntry := by
  obtain ⟨k, e⟩ := t.seqdnEntry_from
  rw [e]
  exact h.seqdnBegun.seqdnFrom k

end Sys2Proof.Machine
end

section
/-! SUPPORT. The gates turned off (R200, R201, R276), and what the level of BEN leaves alone (R231). -/

namespace Sys2Proof.Machine

variable {s t u : State}

/-- The units that the level of BEN does not touch. -/
structure State.SameFeeds (s t : State) : Prop where
  fd : t.fd = s.fd
  inp : t.inp = s.inp
  seq : t.seq = s.seq
  cl : t.cl = s.cl
  ph : t.ph = s.ph
  dev : t.dev = s.dev
  pins : { t.pins with ben := s.pins.ben, bchg := s.pins.bchg } = s.pins

theorem State.SameFeeds.refl (s : State) : s.SameFeeds s := ⟨rfl, rfl, rfl, rfl, rfl, rfl, rfl⟩

theorem State.SameFeeds.setReg (h : s.SameFeeds t) (a : Nat) (w : Word) : s.SameFeeds (t.setReg a w) :=
  ⟨h.fd, h.inp, h.seq, h.cl, h.ph, h.dev, h.pins⟩

theorem State.evalBen_sameFeeds (s : State) : s.SameFeeds s.evalBen := by
  unfold State.evalBen
  split
  · exact ⟨rfl, rfl, rfl, rfl, rfl, rfl, rfl⟩
  · extract_lets s₁ b s₂ pins s₃
    have h₁ : s.SameFeeds s₁ := State.when_ind (P := s.SameFeeds) (State.SameFeeds.refl s) _ fun h => (h.setReg _ _).setReg _ _
    have h₂ : s.SameFeeds s₂ := by
      change s.SameFeeds (if b then s₁ else _)
      split
      · exact h₁
      · exact ⟨h₁.fd, h₁.inp, h₁.seq, h₁.cl, h₁.ph, h₁.dev, h₁.pins⟩
    have h₃ : s.SameFeeds s₃ := ⟨h₂.fd, h₂.inp, h₂.seq, h₂.cl, h₂.ph, h₂.dev, h₂.pins⟩
    exact State.when_ind (P := s.SameFeeds) h₃ _ fun h => h.setReg _ _

/-- The level of BEN writes the rest of pack 0 and the qualification of a battery HOLD alone. -/
theorem State.evalBen_sameFields (s : State) {l : List (Fld × Nat)} (hr : F.BAT_STAT_RESTING.spares 0 l) (hc : F.BAT_CTRL_REST.spares 0 l)
    (hq : F.FEED_STAT_QUAL.spares 2 l) : s.SameFields l s.evalBen := by
  unfold State.evalBen
  split
  · exact State.SameFields.ofRegs (State.SameFields.refl s) rfl
  · extract_lets s₁ b s₂ pins s₃
    have h₁ : s.SameFields l s₁ := State.when_ind (P := s.SameFields l) (State.SameFields.refl s) _ fun h => (h.setB _ hr).setB _ hc
    have h₂ : s.SameFields l s₂ := by
      change s.SameFields l (if b then s₁ else _)
      split
      · exact h₁
      · exact h₁.ofRegs rfl
    have h₃ : s.SameFields l s₃ := h₂.ofRegs rfl
    exact State.when_ind (P := s.SameFields l) h₃ _ fun h => h.setB _ hq

/-! ### One gate -/

/-- A gate turned off, before the levels that follow (R198). -/
def State.gateOpened (s : State) (f : Fin 3) : State :=
  let s := (s.setGate f .off).setB F.FEED_STAT_CONDUCT f false
  let s := s.setB F.FEED_STAT_INLIM f false
  s.when (s.f F.INP_STAT_SEL == f.val) (fun s => s.setF F.INP_STAT_SEL 0 3)

theorem State.gateOff_eq (s : State) (f : Fin 3) : s.gateOff f = (s.gateOpened f).evalHold.evalVbusq.evalBen := rfl

theorem feed4_injective : Function.Injective feed4 := by decide

theorem State.gateOpened_fd (s : State) (f : Fin 3) : (s.gateOpened f).fd = (s.setGate f .off).fd := by
  unfold State.gateOpened
  extract_lets s₁ s₂
  have h₂ : s₂.fd = (s.setGate f .off).fd := rfl
  exact State.when_ind (P := fun t => t.fd = (s.setGate f .off).fd) h₂ _ fun {u} h => (State.setF_fd u _ _ _).trans h

theorem State.gateOpened_inp (s : State) (f : Fin 3) : (s.gateOpened f).inp = s.inp := by
  unfold State.gateOpened
  extract_lets s₁ s₂
  have h₂ : s₂.inp = s.inp := rfl
  exact State.when_ind (P := fun t => t.inp = s.inp) h₂ _ fun {u} h => (State.setF_inp u _ _ _).trans h

theorem State.evalVbusq_fd (s : State) : s.evalVbusq.fd = s.fd := by
  unfold State.evalVbusq
  split <;> rfl

theorem State.evalVbusq_inp (s : State) : s.evalVbusq.inp = s.inp := by
  unfold State.evalVbusq
  split <;> rfl

theorem State.gateOff_fd (s : State) (f : Fin 3) : (s.gateOff f).fd = (s.setGate f .off).fd := by
  rw [State.gateOff_eq, (State.evalBen_sameFeeds _).fd, State.evalVbusq_fd]
  exact s.gateOpened_fd f

theorem State.gateOff_inp (s : State) (f : Fin 3) : (s.gateOff f).inp = s.inp := by
  rw [State.gateOff_eq, (State.evalBen_sameFeeds _).inp, State.evalVbusq_inp]
  exact s.gateOpened_inp f

theorem State.gate_setGate_self (s : State) (f : Fin 3) (g : GateSt) : (s.setGate f g).gate f = g :=
  congrArg FeedSt.gate (get_set_self s.fd (feed4 f) _)

theorem State.gate_setGate_ne (s : State) {f h : Fin 3} (hne : h ≠ f) (g : GateSt) : (s.setGate f g).gate h = s.gate h :=
  congrArg FeedSt.gate (get_set_ne s.fd (fun e => hne (feed4_injective e)) _)

theorem State.gate_ofFd (h : t.fd = s.fd) (f : Fin 3) : t.gate f = s.gate f := by simp only [State.gate, h]

theorem State.gateOff_gate_self (s : State) (f : Fin 3) : (s.gateOff f).gate f = .off :=
  (State.gate_ofFd (s.gateOff_fd f) f).trans (s.gate_setGate_self f .off)

/-- A gate that is off stays off. -/
theorem State.gateOff_gate_of_off (s : State) (f g : Fin 3) (h : s.gate g = .off) : (s.gateOff f).gate g = .off := by
  by_cases e : g = f
  · subst e
    exact s.gateOff_gate_self g
  · exact (State.gate_ofFd (s.gateOff_fd f) g).trans ((s.gate_setGate_ne e .off).trans h)

/-- The CONDUCT flags of the three feeds. -/
def conductFields : List (Fld × Nat) := [(F.FEED_STAT_CONDUCT, 0), (F.FEED_STAT_CONDUCT, 1), (F.FEED_STAT_CONDUCT, 2)]

/-- Of the CONDUCT flags, turning a gate off clears its own. -/
theorem State.gateOff_conduct (s : State) (f : Fin 3) :
    State.SameFields conductFields ((s.setGate f .off).setB F.FEED_STAT_CONDUCT f false) (s.gateOff f) := by
  have hlim : ∀ f : Fin 3, F.FEED_STAT_INLIM.spares f conductFields := by decide
  have hopen : State.SameFields conductFields ((s.setGate f .off).setB F.FEED_STAT_CONDUCT f false) (s.gateOpened f) :=
    State.when_ind (P := State.SameFields conductFields _) ((State.SameFields.refl _).setB _ (hlim f)) _ fun h => h.setF _
  have hhold := State.SameFields.setB hopen (fl := F.DEV_STATE_HOLD) (i := 0)
    ((s.gateOpened f).gate 2 == .conducting && !(s.gateOpened f).shelf
      && ((s.gateOpened f).dev == .sequp || (s.gateOpened f).dev == .run || (s.gateOpened f).dev == .seqdn))
  rw [State.gateOff_eq]
  refine State.SameFields.trans ?_ (State.evalBen_sameFields _ (by decide) (by decide) (by decide))
  unfold State.evalVbusq
  split
  · exact State.SameFields.setB hhold _
  · exact hhold

theorem State.gateOff_conduct_self (s : State) (f : Fin 3) : (s.gateOff f).fB F.FEED_STAT_CONDUCT f = false := by
  have hm : ∀ f : Fin 3, (F.FEED_STAT_CONDUCT, f.val) ∈ conductFields := by decide
  exact ((s.gateOff_conduct f).fB (hm f)).trans (State.fB_setB_self _ (by decide) rfl f false)

theorem State.gateOff_conduct_of_off (s : State) (f g : Fin 3) (h : s.fB F.FEED_STAT_CONDUCT g = false) :
    (s.gateOff f).fB F.FEED_STAT_CONDUCT g = false := by
  by_cases e : g = f
  · subst e
    exact s.gateOff_conduct_self g
  · have hm : ∀ f : Fin 3, (F.FEED_STAT_CONDUCT, f.val) ∈ conductFields := by decide
    have hne : ∀ f g : Fin 3, g ≠ f → F.FEED_STAT_CONDUCT.addr g ≠ F.FEED_STAT_CONDUCT.addr f := by decide
    exact ((s.gateOff_conduct f).fB (hm g)).trans ((State.fB_setB_ne _ (hne f g e)).trans h)

/-- With no other gate on and no transfer, VBUS loses its qualification with the gate (R201). -/
theorem State.gateOff_vbusq (s : State) (f : Fin 3) (hg : ∀ g : Fin 3, g ≠ f → s.gate g = .off) (hx : s.inp.xfer = .idle) :
    (s.gateOff f).fB F.INP_STAT_VBUSQ = false := by
  have hgate (g : Fin 3) : (s.gateOpened f).evalHold.gate g = .off := by
    refine (State.gate_ofFd (s := s.setGate f .off) (s.gateOpened_fd f) g).trans ?_
    by_cases e : g = f
    · subst e
      exact s.gate_setGate_self g .off
    · exact (s.gate_setGate_ne e .off).trans (hg g e)
  have hidle : (s.gateOpened f).evalHold.inp.xfer = .idle := (congrArg InpSt.xfer (s.gateOpened_inp f)).trans hx
  have hbusy : (s.gateOpened f).evalHold.gateBusy = false := by simp [State.gateBusy, hgate]
  have hq : (s.gateOpened f).evalHold.evalVbusq.fB F.INP_STAT_VBUSQ = false := by
    unfold State.evalVbusq
    rw [hbusy, hidle]
    exact State.fB_setB_self _ (by decide) rfl 0 false
  rw [State.gateOff_eq]
  exact ((State.evalBen_sameFields _ (l := [(F.INP_STAT_VBUSQ, 0)]) (by decide) (by decide) (by decide)).fB (by decide)).trans hq

/-! ### Every gate -/

/-- Every gate turned off, none conducts. -/
theorem State.allGatesOff_gate (s : State) (f : Fin 3) : s.allGatesOff.gate f = .off :=
  State.each_establishes (Q := fun f t => t.gate f = .off) State.gateOff_gate_self State.gateOff_gate_of_off feeds3 _ f (List.mem_finRange f)

theorem State.allGatesOff_conduct (s : State) (f : Fin 3) : s.allGatesOff.fB F.FEED_STAT_CONDUCT f = false :=
  State.each_establishes (Q := fun (f : Fin 3) t => t.fB F.FEED_STAT_CONDUCT f = false) State.gateOff_conduct_self
    State.gateOff_conduct_of_off feeds3 _ f (List.mem_finRange f)

theorem State.allGatesOff_vbusq (s : State) : s.allGatesOff.fB F.INP_STAT_VBUSQ = false := by
  have hall : s.allGatesOff = State.gateOff (State.gateOff (State.gateOff
    (State.setB { s with inp := { s.inp with xfer := .idle, old := none, queuedTrig := none } } F.INP_STAT_XFER 0 false) 0) 1) 2 := rfl
  rw [hall]
  refine State.gateOff_vbusq _ 2 (fun g hg => ?_) ?_
  · have hg01 : ∀ g : Fin 3, g ≠ 2 → g = 0 ∨ g = 1 := by decide
    rcases hg01 g hg with rfl | rfl
    · exact State.gateOff_gate_of_off _ 1 0 (State.gateOff_gate_self _ 0)
    · exact State.gateOff_gate_self _ 1
  · rw [State.gateOff_inp, State.gateOff_inp]
    rfl

end Sys2Proof.Machine
end

section
/-! SUPPORT. The raise of a source of the service core, the trips cleared, and the on request (R33, R211, R269). -/

namespace Sys2Proof.Machine

variable {s t u : State}

/-! ### Sources that latch no status bit -/

theorem testBit_setBitN_self (x k : Nat) (b : Bool) : (setBitN x k b).testBit k = b := by
  unfold setBitN
  split
  · assumption
  case isFalse h =>
    cases b with
    | true =>
      have hx : x.testBit k = false := by simpa using h
      rw [if_pos rfl, Nat.add_comm, Nat.testBit_two_pow_add_eq, hx, Bool.not_false]
    | false =>
      have hx : x.testBit k = true := by simpa using h
      have hge : 2 ^ k ≤ x := Nat.ge_two_pow_of_testBit hx
      have hadd := Nat.testBit_two_pow_add_eq (x - 2 ^ k) k
      rw [Nat.add_sub_cancel' hge, hx] at hadd
      rw [if_neg Bool.false_ne_true]
      simpa using hadd.symm

/-- A stored source bit reads what was stored. -/
theorem State.srcBit_setSrcBit_self (s : State) (src : Nat) (b : Bool) : (s.setSrcBit src b).srcBit src = b := by
  have hk : src % 32 < 32 := Nat.mod_lt _ (by decide)
  simp only [State.srcBit, State.fBit, State.setSrcBit, State.setFBit]
  rw [State.f_setF_self s (by decide), Nat.testBit_mod_two_pow, testBit_setBitN_self]
  simp [F.SUPV_SRC_SRC, hk]

theorem State.latchStatus_of_service (s : State) {src : Nat} (h : 0x259 ≤ src) : s.latchStatus src = s := by
  have hd : src ≠ Src.feedNone := by unfold Src.feedNone; omega
  have h0 : ¬ src < 0x130 := by omega
  have h1 : ¬ src < 0x150 := by omega
  have h2 : ¬ src < 0x180 := by omega
  have h3 : ¬ src < 0x1D0 := by omega
  have h4 : ¬ src < 0x1E0 := by omega
  have h5 : ¬ src < 0x258 := by omega
  simp [State.latchStatus, h0, h1, h2, h3, h4, h5, hd]

theorem State.onlyRegs.trans {l m : List Nat} (h : s.onlyRegs t l) (k : t.onlyRegs u m) : s.onlyRegs u (l ++ m) :=
  ⟨(congrArg (fun x : State => { x with regs := s.regs }) k.1).trans h.1, fun a ha => by
    rw [k.2 a fun x => ha (List.mem_append_right _ x), h.2 a fun x => ha (List.mem_append_left _ x)]⟩

theorem State.reportsOnly.trans {l m : List Nat} (h : s.reportsOnly t l) (k : t.reportsOnly u m) : s.reportsOnly u (l ++ m) :=
  ⟨(congrArg (fun x : State => { x with regs := s.regs, sup := { x.sup with pend := s.sup.pend } }) k.1).trans h.1, fun a ha hr => by
    rw [k.2 a (fun x => ha (List.mem_append_right _ x)) hr, h.2 a (fun x => ha (List.mem_append_left _ x)) hr]⟩

theorem State.onlyRegs.reportsOnly {l : List Nat} (h : s.onlyRegs t l) : s.reportsOnly t l :=
  ⟨(congrArg (fun x : State => { x with sup := { x.sup with pend := s.sup.pend } }) h.1), fun a ha _ => h.2 a ha⟩

theorem State.onlyRegs_setF (s : State) (fl : Fld) (i v : Nat) : s.onlyRegs (s.setF fl i v) [fl.addr i] :=
  ⟨rfl, fun _ ha => State.reg_setF_ne s (by simpa using ha)⟩

/-- The raise of a source past the feeds' sets its bit and reports it, and does nothing else (R269). -/
theorem State.raise_service (s : State) {src : Nat} (h : 0x259 ≤ src) (hs : src < 0x2E0) :
    (s.raise src).srcBit src = true ∧ s.reportsOnly (s.raise src) [] := by
  unfold State.raise
  split
  case isTrue hb =>
    exact ⟨(Bool.and_eq_true_iff.mp hb).2, rfl, fun _ _ _ => rfl⟩
  case isFalse =>
    rw [State.latchStatus_of_service _ h]
    refine ⟨State.srcBit_setSrcBit_self s src true, rfl, fun a _ ha => State.reg_setFBit_ne s ?_⟩
    rintro rfl
    simp [reportWord, Fld.addr, F.SUPV_SRC_SRC] at ha
    omega

/-- The end of a source's condition clears its bit and does nothing else (R269). -/
theorem State.lower_spec (s : State) (src : Nat) :
    (s.lower src).srcBit src = false ∧ s.onlyRegs (s.lower src) [F.SUPV_SRC_SRC.addr (src / 32)] := by
  unfold State.lower
  split
  · exact ⟨State.srcBit_setSrcBit_self s src false, s.onlyRegs_setF _ _ _⟩
  case isFalse h => exact ⟨by simpa using h, rfl, fun _ _ => rfl⟩

/-! ### EN (R33, R211) -/

theorem State.saveState_regs (s : State) : s.saveState.regs = s.regs := by
  unfold State.saveState
  split <;> rfl

theorem State.saveState_oper (s : State) : s.saveState.oper = s.oper := by
  unfold State.saveState
  split <;> rfl

theorem State.saveState_ring (s : State) : s.saveState.ring = s.ring := by
  unfold State.saveState
  split <;> rfl

/-- The registers as clearing the trips leaves them (R211). -/
def State.tripsCleared (s : State) : State :=
  let s := s.each feeds3 (fun s f => s.setB F.FEED_STAT_TRIPLAT f false)
  ((s.setF F.INP_RETRY_REMAIN 0 0).setB F.INP_RETRY_RUNNING 0 false).setB F.INP_SEAT_RESEATPEND 0 false

theorem State.clearTrips_f (s : State) (fl : Fld) (i : Nat) : s.clearTrips.f fl i = s.tripsCleared.f fl i :=
  State.f_ofRegs s.tripsCleared.saveState_regs fl i

/-- Clearing the trips leaves no trip latched (R211). -/
theorem State.tripsCleared_triplat (s : State) (f : Fin 3) : s.tripsCleared.fB F.FEED_STAT_TRIPLAT f = false := by
  have hfeeds : ∀ f ∈ feeds3, (s.each feeds3 (fun s f => s.setB F.FEED_STAT_TRIPLAT f false)).fB F.FEED_STAT_TRIPLAT f = false :=
    State.each_establishes (Q := fun (f : Fin 3) t => t.fB F.FEED_STAT_TRIPLAT f = false)
      (fun t f => State.fB_setB_self t (by decide) rfl f false)
      (fun t f g hg => by
        by_cases e : g = f
        · subst e
          exact State.fB_setB_self t (by decide) rfl g false
        · have hne : ∀ f g : Fin 3, g ≠ f → F.FEED_STAT_TRIPLAT.addr g ≠ F.FEED_STAT_TRIPLAT.addr f := by decide
          rw [State.fB_setB_ne t (hne f g e), hg]) feeds3 s
  have hretry : ∀ f : Fin 3, F.FEED_STAT_TRIPLAT.addr f ≠ 0x2462 := by decide
  have hseat : ∀ f : Fin 3, F.FEED_STAT_TRIPLAT.addr f ≠ 0x2461 := by decide
  unfold State.tripsCleared
  rw [State.fB_setB_ne _ (hseat f), State.fB_setB_ne _ (hretry f), State.fB_setF_ne _ (hretry f), hfeeds f (List.mem_finRange f)]

theorem State.tripsCleared_remain (s : State) : s.tripsCleared.f F.INP_RETRY_REMAIN = 0 := by
  unfold State.tripsCleared
  rw [State.f_setB_ne _ (by decide), State.f_setB_apart _ (by decide) (by decide), State.f_setF_self _ (by decide), Nat.zero_mod]

/-- The fields that the on request is made of (R33). -/
def onreqInputs : List (Fld × Nat) :=
  [(F.DEV_ONOFF_CFG_EN_USE, 0), (F.DEV_ONOFF_CFG_OPR_USE, 0), (F.DEV_ONOFF_CFG_RING_USE, 0), (F.DEV_ONOFF_CFG_SEAT_USE, 0),
    (F.INP_SEAT_SEATOK, 0), (F.IMG_BOOTSTAT_NOIMG, 0)]

theorem State.tripsCleared_inputs (s : State) {p : Fld × Nat} (hp : p ∈ onreqInputs) : s.tripsCleared.f p.1 p.2 = s.f p.1 p.2 := by
  have htrip : ∀ f : Fin 3, F.FEED_STAT_TRIPLAT.spares f onreqInputs := by decide
  have hremain : F.INP_RETRY_REMAIN.spares 0 onreqInputs := by decide
  have hrunning : F.INP_RETRY_RUNNING.spares 0 onreqInputs := by decide
  have hreseat : F.INP_SEAT_RESEATPEND.spares 0 onreqInputs := by decide
  refine (hreseat.f_setF _ _ hp).trans ((hrunning.f_setF _ _ hp).trans ((hremain.f_setF _ _ hp).trans ?_))
  exact State.each_frame (π := fun t => t.f p.1 p.2) (fun t f => (htrip f).f_setF t _ hp) _ _

theorem State.onreqVal_congr (hf : ∀ p ∈ onreqInputs, t.f p.1 p.2 = s.f p.1 p.2) (hen : t.pins.en = s.pins.en)
    (hoper : t.oper = s.oper) (hring : t.ring = s.ring) (hrole : t.img.role = s.img.role) : t.onreqVal = s.onreqVal := by
  have hB {fl : Fld} (hp : (fl, 0) ∈ onreqInputs) : t.fB fl = s.fB fl := State.fB_ofF (hf (fl, 0) hp)
  simp only [State.onreqVal, State.shelf, hB (fl := F.DEV_ONOFF_CFG_EN_USE) (by decide), hB (fl := F.DEV_ONOFF_CFG_OPR_USE) (by decide),
    hB (fl := F.DEV_ONOFF_CFG_RING_USE) (by decide), hB (fl := F.DEV_ONOFF_CFG_SEAT_USE) (by decide),
    hB (fl := F.INP_SEAT_SEATOK) (by decide), hen, hoper, hring, hrole]

theorem State.clearTrips_oper (s : State) : s.clearTrips.oper = s.oper := by
  refine s.tripsCleared.saveState_oper.trans ?_
  simp only [State.tripsCleared, State.setB_oper, State.setF_oper]
  exact State.each_frame (π := State.oper) (fun t f => t.setB_oper _ _ _) feeds3 s

theorem State.clearTrips_ring (s : State) : s.clearTrips.ring = s.ring := by
  refine s.tripsCleared.saveState_ring.trans ?_
  simp only [State.tripsCleared, State.setB_ring, State.setF_ring]
  exact State.each_frame (π := State.ring) (fun t f => t.setB_ring _ _ _) feeds3 s

/-- What the on request is made of is not touched by clearing the trips. -/
theorem State.clearTrips_onreq (s : State) : (s.clearTrips.onreqVal && s.clearTrips.dev != .boot && !s.clearTrips.noImg) =
    (s.onreqVal && s.dev != .boot && !s.noImg) := by
  have hf : ∀ p ∈ onreqInputs, s.clearTrips.f p.1 p.2 = s.f p.1 p.2 :=
    fun p hp => (s.clearTrips_f p.1 p.2).trans (s.tripsCleared_inputs hp)
  have hnoImg : s.clearTrips.noImg = s.noImg := State.fB_ofF (hf (F.IMG_BOOTSTAT_NOIMG, 0) (by decide))
  have hkeeps := State.clearTrips_keeps (State.keeps_refl s)
  rw [State.onreqVal_congr hf hkeeps.en s.clearTrips_oper s.clearTrips_ring hkeeps.role, hnoImg, hkeeps.dev]

/-- Once ONREQ is stored, nothing that its evaluation brings about writes it, a trip latch or the retry time. -/
theorem State.evalOnreq_sameFields (s : State) :
    (s.setB F.DEV_STATE_ONREQ 0 (s.onreqVal && s.dev != .boot && !s.noImg)).SameFields requestFields s.evalOnreq := by
  unfold State.evalOnreq
  extract_lets old v s₁ s₂ s₃
  have h₂ : s₁.SameFields requestFields s₂ := State.when_ind (P := s₁.SameFields requestFields) (fun _ _ => rfl) _ fun {u} h => by
    have hf : s₁.SameFields requestFields (u.setB F.SEQ_STAT_UPFAIL 0 false) := h.setB _
    dsimp only
    split
    · exact hf.setB _
    · exact hf.trans (State.Guards.refl _).seqdnEntry.request
    · exact hf.setB _
    · exact hf
  have h₃ : s₁.SameFields requestFields s₃ := State.when_ind (P := s₁.SameFields requestFields) h₂ _ fun {u} h => by
    split
    · exact h.setB _
    · exact h.setB _
    · exact h
  exact h₃.trans (State.Guards.refl s₃).evalStart.request

/-- ONREQ after its evaluation is the combined request of R33. -/
theorem State.evalOnreq_onreq (s : State) :
    s.evalOnreq.fB F.DEV_STATE_ONREQ = (s.onreqVal && s.dev != .boot && !s.noImg) := by
  have hf := s.evalOnreq_sameFields (F.DEV_STATE_ONREQ, 0) (by decide)
  exact (State.fB_ofF hf).trans (State.fB_setB_self s (by decide) rfl 0 _)

end Sys2Proof.Machine
end

section
/-! SUPPORT. Stored readings, counted errors, suspended capture, and what EN, the die temperatures, the heartbeat and the supply
measurements do (R18, R19, R24, R33, R49, R276, R323). -/

namespace Sys2Proof.Machine

variable {s t u : State}

theorem State.when_of_true (s : State) {b : Bool} (h : b = true) (g : State → State) : s.when b g = g s := by rw [h, State.when_true]

theorem State.when_of_false (s : State) {b : Bool} (h : b = false) (g : State → State) : s.when b g = s := by rw [h, State.when_false]

/-! ### Readings and counts -/

/-- A stored 16-bit reading, read as a signed number. -/
theorem toSigned_toNat (x : BitVec 16) : toSigned 16 (x.toNat % 2 ^ 16) = x.toInt := by
  have hlt := x.isLt
  rw [toSigned, Nat.mod_eq_of_lt hlt, BitVec.toInt_eq_toNat_cond]
  split <;> split <;> omega

theorem State.onlyRegs.setF {l : List Nat} (h : s.onlyRegs t l) {fl : Fld} {i : Nat} (ha : fl.addr i ∈ l) (v : Nat) :
    s.onlyRegs (t.setF fl i v) l :=
  ⟨h.1, fun a hna => (State.reg_setF_ne t fun e => hna (by rwa [e])).trans (h.2 a hna)⟩

/-- Two fields of one word stored: the first reads what was stored. -/
theorem State.f_setF_setF_fst (s : State) {fl g : Fld} (h : fl.fits) (hg : g.apart fl) (v w : Nat) :
    ((s.setF fl 0 v).setF g 0 w).f fl = v % 2 ^ fl.w :=
  (State.f_setF_apart _ h hg).trans (State.f_setF_self s h 0 v)

theorem State.f_incF_self (s : State) {fl : Fld} (h : fl.fits) (i n : Nat) :
    (s.incF fl i n).f fl i = Nat.min (2 ^ fl.w - 1) (s.f fl i + n) := by
  have hpos : 0 < 2 ^ fl.w := Nat.two_pow_pos _
  have hle : Nat.min (2 ^ fl.w - 1) (s.f fl i + n) ≤ 2 ^ fl.w - 1 := Nat.min_le_left _ _
  exact (State.f_setF_self s h i _).trans (Nat.mod_eq_of_lt (by omega))

/-- An uncorrectable error counted and reported by a source of the service core (R24). -/
theorem State.countedRaise (s : State) {src : Nat} (h : 0x259 ≤ src) (hs : src < 0x2E0) :
    ((s.incF F.DEV_ECC_UNCORR 0).raise src).srcBit src = true ∧
      ((s.incF F.DEV_ECC_UNCORR 0).raise src).f F.DEV_ECC_UNCORR = Nat.min (2 ^ F.DEV_ECC_UNCORR.w - 1) (s.f F.DEV_ECC_UNCORR + 1) ∧
      s.reportsOnly ((s.incF F.DEV_ECC_UNCORR 0).raise src) [F.DEV_ECC_UNCORR.addr 0] := by
  obtain ⟨hbit, hrest⟩ := (s.incF F.DEV_ECC_UNCORR 0).raise_service h hs
  refine ⟨hbit, ?_, (s.onlyRegs_setF F.DEV_ECC_UNCORR 0 _).reportsOnly.trans hrest⟩
  have hword := hrest.2 (F.DEV_ECC_UNCORR.addr 0) (by decide) (by decide)
  simp only [State.f, hword]
  exact s.f_incF_self (by decide) 0 1

/-! ### Suspended capture (R323) -/

theorem State.closePkt_stream (s : State) : ∃ st, s.closePkt = { s with stream := st } ∧ st.suspTick = s.stream.suspTick := by
  unfold State.closePkt
  dsimp only
  split
  · exact ⟨s.stream, rfl, rfl⟩
  · exact ⟨_, rfl, rfl⟩

theorem State.closeSnap_stream (s : State) : ∃ st, s.closeSnap = { s with stream := st } ∧ st.suspTick = s.stream.suspTick := by
  unfold State.closeSnap
  dsimp only
  split
  · exact ⟨s.stream, rfl, rfl⟩
  · split
    · exact ⟨_, rfl, rfl⟩
    · exact ⟨_, rfl, rfl⟩

/-- A suspension notes its tick; beyond it, it closes packets and does nothing else. -/
theorem State.capSuspend_stream (s : State) : ∃ st, s.capSuspend = { s with stream := st } ∧ st.suspTick = some s.clk.tmr := by
  unfold State.capSuspend State.stopClose
  split
  · obtain ⟨st, hst, htick⟩ := State.closePkt_stream { s with stream := { s.stream with suspTick := some s.clk.tmr } }
    rw [hst]
    obtain ⟨st', hst', htick'⟩ := State.closeSnap_stream { s with stream := st }
    exact ⟨st', hst', htick'.trans htick⟩
  · exact ⟨_, rfl, rfl⟩

/-- Where capture resumes, the channels' rings gain gaps; what does not read the channels sees the suspension gone alone. -/
theorem State.capResume_frame {β : Type} {π : State → β} (hπ : ∀ (t : State) n g, π (t.updCh n g) = π t) (s : State) :
    π s.capResume = π { s with stream := { s.stream with suspTick := none } } := by
  unfold State.capResume
  split
  case h_1 h => rw [← h]
  case h_2 =>
    refine State.each_frame (π := π) (fun t n => ?_) _ _
    dsimp only
    split
    · rfl
    · split
      · exact hπ t n _
      · rfl

theorem State.capResume_suspTick (s : State) : s.capResume.stream.suspTick = none :=
  s.capResume_frame (π := fun t => t.stream.suspTick) fun _ _ _ => rfl

theorem State.capResume_power (s : State) : s.capResume.power = s.power :=
  s.capResume_frame (π := State.power) fun _ _ _ => rfl

theorem State.capResume_srcBit (s : State) (src : Nat) : s.capResume.srcBit src = s.srcBit src :=
  s.capResume_frame (π := fun t => t.srcBit src) fun _ _ _ => rfl

/-! ### EN and the die temperatures, as the commands bring them about -/

/-- The state in which EN's level is taken and a rising EN has cleared the trips (R33, R211). -/
def State.enTaken (s : State) (level : Bool) (lowMs : BitVec 16) : State :=
  State.when { s with pins := { s.pins with en := level } }
    ((level && !s.pins.en) && s.fB F.DEV_ONOFF_CFG_EN_USE && decide (1 ≤ lowMs.toNat) && s.dev != .boot) State.clearTrips

theorem exec_enChange (s : State) (level : Bool) (lowMs : BitVec 16) :
    exec (.enChange level lowMs) s = .next (s.enTaken level lowMs).evalOnreq := rfl

theorem State.enTaken_evalOnreq_en (s : State) (level : Bool) (lowMs : BitVec 16) : (s.enTaken level lowMs).evalOnreq.pins.en = level :=
  State.Moves.en (s := { s with pins := { s.pins with en := level } }) (State.evalOnreq_moves
    (State.when_moves (State.moves_refl _) _ fun h => State.clearTrips_moves h))

theorem State.enTaken_onreq (s : State) (level : Bool) (lowMs : BitVec 16) : (s.enTaken level lowMs).evalOnreq.fB F.DEV_STATE_ONREQ =
    (State.onreqVal { s with pins := { s.pins with en := level } } && s.dev != .boot && !s.noImg) := by
  rw [State.evalOnreq_onreq]
  unfold State.enTaken State.when
  split
  · exact State.clearTrips_onreq { s with pins := { s.pins with en := level } }
  · rfl

/-- A rising EN leaves no trip latched and no retry time. -/
theorem State.enTaken_trips (s : State) {lowMs : BitVec 16} (hen : s.pins.en = false) (huse : s.fB F.DEV_ONOFF_CFG_EN_USE = true)
    (hlow : 1 ≤ lowMs.toNat) (hboot : s.dev ≠ .boot) :
    (∀ f : Fin 3, (s.enTaken true lowMs).evalOnreq.fB F.FEED_STAT_TRIPLAT f = false) ∧
      (s.enTaken true lowMs).evalOnreq.f F.INP_RETRY_REMAIN = 0 := by
  have htaken : s.enTaken true lowMs = State.clearTrips { s with pins := { s.pins with en := true } } :=
    State.when_of_true _ (by simp [hen, huse, hlow, hboot]) _
  rw [htaken]
  generalize { s with pins := { s.pins with en := true } } = t
  have hsame {p : Fld × Nat} (hp : p ∈ requestFields.tail) : t.clearTrips.evalOnreq.f p.1 p.2 = t.tripsCleared.f p.1 p.2 := by
    have hspare : F.DEV_STATE_ONREQ.spares 0 requestFields.tail := by decide
    exact (State.evalOnreq_sameFields _ p (List.mem_of_mem_tail hp)).trans ((hspare.f_setF _ _ hp).trans (t.clearTrips_f p.1 p.2))
  refine ⟨fun f => ?_, (hsame (p := (F.INP_RETRY_REMAIN, 0)) (by decide)).trans t.tripsCleared_remain⟩
  have hmem : ∀ f : Fin 3, (F.FEED_STAT_TRIPLAT, f.val) ∈ requestFields.tail := by decide
  exact (State.fB_ofF (hsame (hmem f))).trans (t.tripsCleared_triplat f)

/-- The readings as DEV_TEMP shows them. -/
def State.tempShown (s : State) (tctl tsns : BitVec 16) : State :=
  (s.setF F.DEV_TEMP_TCTL 0 tctl.toNat).setF F.DEV_TEMP_TSNS 0 tsns.toNat

/-- The state after a reading, before a reading of 150 degrees forces SAFE (R19). -/
def State.tempActed (s : State) (tctl tsns : BitVec 16) : State :=
  let hot (c : Int) : Bool := decide (c * 128 ≤ tctl.toInt) || decide (c * 128 ≤ tsns.toInt)
  let s := s.tempShown tctl tsns
  if s.dev == .boot then
    let wait := hot 135 && (s.power.hotWait || !s.power.tempRead)
    State.when { s with power := { s.power with hotWait := wait, tempRead := true } } wait (fun s => s.setB F.IMG_BOOTSTAT_HOTWAIT 0 true)
  else s.when (hot 140 && !s.power.dieHot) (fun s => ({ s with power := { s.power with dieHot := true } }.raise Src.dieHot).capSuspend)

theorem exec_dieTempReading (s : State) (tctl tsns : BitVec 16) (hp : s.power.powered = true) (hr : s.power.resetLow = false) :
    exec (.dieTempReading tctl tsns) s =
      .next ((s.tempActed tctl tsns).when (decide (150 * 128 ≤ tctl.toInt) || decide (150 * 128 ≤ tsns.toInt)) State.safeOff) := by
  change execDieTempReading tctl tsns s = _
  unfold execDieTempReading
  rw [hp, hr]
  rfl

theorem State.tempActed_dev (s : State) (tctl tsns : BitVec 16) : (s.tempActed tctl tsns).dev = s.dev := by
  have hshown : (s.tempShown tctl tsns).Keeps (s.tempActed tctl tsns) := by
    have hrefl := State.keeps_refl (s.tempShown tctl tsns)
    unfold State.tempActed
    dsimp only
    split
    · exact State.when_keeps (State.keeps_lit hrefl rfl rfl rfl rfl rfl) _ fun h => State.setB_keeps h _ _ _
    · exact State.when_keeps hrefl _ fun h => State.capSuspend_keeps (State.raise_keeps (State.keeps_lit h rfl rfl rfl rfl rfl) _)
  exact hshown.dev

/-- Below 140 degrees outside BOOT a reading is shown and does nothing else. -/
theorem State.tempActed_cool (s : State) {tctl tsns : BitVec 16} (hb : s.dev ≠ .boot) (h : tctl.toInt < 140 * 128) (k : tsns.toInt < 140 * 128) :
    s.tempActed tctl tsns = s.tempShown tctl tsns := by
  have hcool : (decide (140 * 128 ≤ tctl.toInt) || decide (140 * 128 ≤ tsns.toInt)) = false := by simp; omega
  have hboot : ¬((s.tempShown tctl tsns).dev == .boot) = true := fun e => hb (eq_of_beq e)
  exact (if_neg hboot).trans (State.when_of_false _ (Bool.and_eq_false_iff.mpr (.inl hcool)) _)

/-- The state after DIE_HOT is raised, with capture suspended (R19, R323). -/
def State.dieHotActed (s : State) : State := (State.raise { s with power := { s.power with dieHot := true } } Src.dieHot).capSuspend

/-- What the raise of DIE_HOT brings about and leaves alone. -/
structure State.HotActed (s t : State) : Prop where
  dieHot : t.power.dieHot = true
  bit : t.srcBit Src.dieHot = true
  susp : t.stream.suspTick = some s.clk.tmr
  dev : t.dev = s.dev
  pins : t.pins = s.pins
  ph : t.ph = s.ph
  cl : t.cl = s.cl

theorem State.reportsOnly.hotActed {l : List Nat} {st : StreamSt} (h : s.reportsOnly t l) (hd : s.power.dieHot = true)
    (hb : t.srcBit Src.dieHot = true) (hs : st.suspTick = some t.clk.tmr) : s.HotActed { t with stream := st } := by
  have hunits := h.1
  refine ⟨?_, hb, ?_, ?_, ?_, ?_, ?_⟩
  · rw [← hunits] at hd
    exact hd
  · rw [← hunits]
    exact hs
  all_goals rw [← hunits]

theorem State.dieHotActed_hotActed (s : State) : s.HotActed s.dieHotActed := by
  have hraise := State.raise_service { s with power := { s.power with dieHot := true } } (src := Src.dieHot) (by decide) (by decide)
  obtain ⟨st, hst, htick⟩ := State.capSuspend_stream (State.raise { s with power := { s.power with dieHot := true } } Src.dieHot)
  have hacted := hraise.2.hotActed rfl hraise.1 htick
  rw [← hst] at hacted
  exact ⟨hacted.dieHot, hacted.bit, hacted.susp, hacted.dev, hacted.pins, hacted.ph, hacted.cl⟩

/-- The first reading of 140 degrees raises DIE_HOT and suspends capture. -/
theorem State.tempActed_hot (s : State) {tctl tsns : BitVec 16} (hb : s.dev ≠ .boot) (h : 140 * 128 ≤ tctl.toInt ∨ 140 * 128 ≤ tsns.toInt)
    (hd : s.power.dieHot = false) : s.tempActed tctl tsns = (s.tempShown tctl tsns).dieHotActed := by
  have hhot : (decide (140 * 128 ≤ tctl.toInt) || decide (140 * 128 ≤ tsns.toInt)) = true := by simpa using h
  have hnot : (!(s.tempShown tctl tsns).power.dieHot) = true := by rw [Bool.not_eq_true']; exact hd
  have hboot : ¬((s.tempShown tctl tsns).dev == .boot) = true := fun e => hb (eq_of_beq e)
  exact (if_neg hboot).trans (State.when_of_true _ (Bool.and_eq_true_iff.mpr ⟨hhot, hnot⟩) _)

/-- The state after DIE_HOT has ended, before capture resumes. -/
def State.dieHotEnded (s : State) : State := State.lower { s with power := { s.power with dieHot := false } } Src.dieHot

theorem State.dieHotEnded_lstage (s : State) : s.dieHotEnded.f F.DEV_PWRSTAT_LSTAGE = s.f F.DEV_PWRSTAT_LSTAGE := by
  have hword := (State.lower_spec { s with power := { s.power with dieHot := false } } Src.dieHot).2.2 (F.DEV_PWRSTAT_LSTAGE.addr 0) (by decide)
  exact congrArg F.DEV_PWRSTAT_LSTAGE.get hword

theorem State.lower_power (s : State) (src : Nat) : (s.lower src).power = s.power := by
  unfold State.lower
  split <;> rfl

theorem State.dieHotEnded_dieHot (s : State) : s.dieHotEnded.power.dieHot = false := by
  unfold State.dieHotEnded
  rw [State.lower_power]

theorem exec_dieHotResume (s : State) (hd : s.power.dieHot = true) :
    exec .dieHotResume s = .next (if 1 ≤ s.f F.DEV_PWRSTAT_LSTAGE then s.dieHotEnded else s.dieHotEnded.capResume) := by
  rw [← s.dieHotEnded_lstage]
  exact if_pos hd

/-- The state after the heartbeat is lost, before the history is put back (R18, R277). -/
def State.heartbeatGone (s : State) : State := State.safeOff { s with power := { s.power with heartbeatLost := true } }

theorem State.heartbeatGone_madeSafe (h : s.dev ≠ .safe) :
    State.MadeSafe { s with power := { s.power with heartbeatLost := true } } s.heartbeatGone := State.safeOff_madeSafe h

theorem exec_heartbeatLoss (s : State) :
    exec .heartbeatLoss s = .next { s.heartbeatGone with sup := { s.heartbeatGone.sup with hist := s.sup.hist } } := rfl

theorem exec_safeFeedGateOff (s : State) (h : s.dev = .safe) :
    exec .safeFeedGateOff s = .next { s.allGatesOff with power := { s.power with safeGatesOff := true } } :=
  if_pos (beq_iff_eq.mpr h)

/-- The measurements as DEV_SUPPLY shows them (R49). -/
def State.supplyShown (s : State) (v5 vin : BitVec 16) : State :=
  (s.setF F.DEV_SUPPLY_V5 0 v5.toNat).setF F.DEV_SUPPLY_VIN 0 vin.toNat

theorem exec_supplyMeasure (s : State) (v5 vin : BitVec 16) (hp : s.power.powered = true) (hr : s.power.resetLow = false) :
    exec (.supplyMeasure v5 vin) s = .next (s.supplyShown v5 vin) := by
  change execSupplyMeasure v5 vin s = _
  unfold execSupplyMeasure
  rw [hp, hr]
  rfl

end Sys2Proof.Machine
end

section
/-! THE STATEMENT ON EN, DIE TEMPERATURES, HEARTBEAT, ECC AND SUPPLIES (O3). -/

namespace Sys2Proof.Machine

/-- Settles O3: each event's operation brings about what its rule says, by the lemmas above on the request, the readings, the raise of a
service source, safe-off and the gates. -/
theorem pinAndWatchEventsComplete : Obligations.PinAndWatchEventsComplete := by
  unfold Obligations.PinAndWatchEventsComplete
  refine ⟨?_, ?_, ?_, ?_, ?_, ?_, ?_, ?_, ?_, ?_, ?_, ?_, ?_⟩
  · intro s level lowMs
    exact ⟨_, exec_enChange s level lowMs, s.enTaken_evalOnreq_en level lowMs, s.enTaken_onreq level lowMs⟩
  · intro s lowMs hen huse hlow hboot
    exact ⟨_, exec_enChange s true lowMs, s.enTaken_trips hen huse hlow hboot⟩
  · intro s tctl tsns hp hr hb h k
    have hcold : (decide (150 * 128 ≤ tctl.toInt) || decide (150 * 128 ≤ tsns.toInt)) = false := by simp; omega
    refine ⟨_, exec_dieTempReading s tctl tsns hp hr, ?_⟩
    rw [State.when_of_false _ hcold, s.tempActed_cool hb h k]
    refine ⟨?_, ?_, (s.onlyRegs_setF F.DEV_TEMP_TCTL 0 _).setF (fl := F.DEV_TEMP_TSNS) (i := 0) (by decide) _⟩
    · exact (congrArg (toSigned 16) (s.f_setF_setF_fst (by decide) (by decide) _ _)).trans (toSigned_toNat tctl)
    · exact (congrArg (toSigned 16) (State.f_setF_self _ (by decide) 0 _)).trans (toSigned_toNat tsns)
  · intro s tctl tsns hp hr hb hhot h k hd
    have hbelow : (decide (150 * 128 ≤ tctl.toInt) || decide (150 * 128 ≤ tsns.toInt)) = false := by simp; omega
    have hacted := (s.tempShown tctl tsns).dieHotActed_hotActed
    refine ⟨_, exec_dieTempReading s tctl tsns hp hr, ?_⟩
    rw [State.when_of_false _ hbelow, s.tempActed_hot hb hhot hd]
    exact ⟨hacted.dieHot, hacted.bit, hacted.susp, hacted.dev, hacted.pins, hacted.ph, hacted.cl⟩
  · intro s tctl tsns hp hr hhot
    have hover : (decide (150 * 128 ≤ tctl.toInt) || decide (150 * 128 ≤ tsns.toInt)) = true := by simpa using hhot
    have hdev := s.tempActed_dev tctl tsns
    refine ⟨_, exec_dieTempReading s tctl tsns hp hr, ?_⟩
    rw [State.when_of_true _ hover]
    by_cases hs : s.dev = .safe
    · rw [State.safeOff_of_safe (hdev.trans hs)]
      exact ⟨hdev.trans hs, fun hne => absurd hs hne⟩
    · have hsafe := State.safeOff_madeSafe (hdev.trans_ne hs)
      exact ⟨hsafe.dev, fun _ => ⟨hsafe.pen, hsafe.ext, hsafe.pwrgd, hsafe.ben, hsafe.bchg, hsafe.driven⟩⟩
  · intro s hd hl
    obtain ⟨hbit, hrest⟩ := State.lower_spec { s with power := { s.power with dieHot := false } } Src.dieHot
    refine ⟨s.dieHotEnded, ?_, hbit, hrest⟩
    rw [exec_dieHotResume s hd, if_pos hl]
  · intro s hd hl
    have hbit := (State.lower_spec { s with power := { s.power with dieHot := false } } Src.dieHot).1
    refine ⟨s.dieHotEnded.capResume, ?_, ?_, State.capResume_suspTick _, (State.capResume_srcBit _ _).trans hbit⟩
    · rw [exec_dieHotResume s hd, if_neg (by omega)]
    · rw [State.capResume_power, State.dieHotEnded_dieHot]
  · intro s hs
    have hsafe := State.heartbeatGone_madeSafe hs
    refine ⟨_, exec_heartbeatLoss s, ?_⟩
    generalize s.heartbeatGone = t at hsafe
    exact ⟨hsafe.dev, congrArg PowerSt.heartbeatLost hsafe.power, rfl, hsafe.pen, hsafe.ext, hsafe.pwrgd, hsafe.ben, hsafe.bchg,
      hsafe.mid, hsafe.off, hsafe.driven⟩
  · intro s hs
    have hdev := (State.allGatesOff_keeps (State.keeps_refl s)).dev.trans hs
    have hgate := s.allGatesOff_gate
    have hconduct := s.allGatesOff_conduct
    have hvbusq := s.allGatesOff_vbusq
    refine ⟨_, exec_safeFeedGateOff s hs, ?_⟩
    generalize s.allGatesOff = t at hdev hgate hconduct hvbusq
    exact ⟨rfl, hdev, fun f => ⟨hgate f, hconduct f⟩, hvbusq⟩
  · intro s
    exact ⟨_, rfl, s.f_incF_self (by decide) 0 1, s.onlyRegs_setF _ 0 _⟩
  · intro s
    exact ⟨_, rfl, s.countedRaise (by decide) (by decide)⟩
  · intro s
    exact ⟨_, rfl, s.countedRaise (by decide) (by decide)⟩
  · intro s v5 vin hp hr
    refine ⟨s.supplyShown v5 vin, exec_supplyMeasure s v5 vin hp hr, ?_, ?_, ?_⟩
    · exact (s.f_setF_setF_fst (by decide) (by decide) _ _).trans (Nat.mod_eq_of_lt v5.isLt)
    · exact (State.f_setF_self _ (by decide) 0 _).trans (Nat.mod_eq_of_lt vin.isLt)
    · exact (s.onlyRegs_setF F.DEV_SUPPLY_V5 0 _).setF (fl := F.DEV_SUPPLY_VIN) (i := 0) (by decide) _

end Sys2Proof.Machine
end

section
/-! SUPPORT. The boundary between two steps of the sequencer, and the steps themselves (R247, R250). -/

namespace Sys2Proof.Machine

variable {s t u : State}

/-! ### Decisions -/

/-- A decision of the sequencer is shown to the supervisor and noted in the history, no more. -/
theorem State.seqDecide_eq (s : State) (step dir dec : Nat) :
    ∃ d h, s.seqDecide step dir dec = { s with seq := { s.seq with dec := d }, sup := { s.sup with hist := h } } := by
  unfold State.seqDecide State.histAdd
  extract_lets w seq q
  split
  · exact ⟨BitVec.ofNat 9 w, s.sup.hist, rfl⟩
  · exact ⟨BitVec.ofNat 9 w, q.drop (q.length - 32), rfl⟩

theorem State.seqDecide_regs (s : State) (step dir dec : Nat) : (s.seqDecide step dir dec).regs = s.regs := by
  obtain ⟨d, h, e⟩ := s.seqDecide_eq step dir dec
  rw [e]

/-! ### A boundary -/

/-- The words that no sample of the comparators, no report and no decision changes. -/
def stepWord (a : Nat) : Bool := a != 0x2202 && !reportWord a && !(0x1000 ≤ a && a < 0x2000)

/-- The fields of SEQ_STAT that the next step rests on. -/
def stepFields : List (Fld × Nat) := [(F.SEQ_STAT_STEP, 0), (F.SEQ_STAT_HIGHEST, 0), (F.SEQ_STAT_PENDOFF, 0)]

/-- What lies between the end of a step and what follows it: samples, reports, decisions, and the flags of SEQ_STAT. -/
structure State.AtBoundary (s t : State) : Prop where
  dev : t.dev = s.dev
  pins : t.pins = s.pins
  fd : t.fd = s.fd
  cl : t.cl = s.cl
  ph : t.ph = s.ph
  img : t.img = s.img
  seq : { t.seq with dec := s.seq.dec } = s.seq
  field : s.SameFields stepFields t
  word : ∀ a, stepWord a = true → t.reg a = s.reg a

theorem State.AtBoundary.refl (s : State) : s.AtBoundary s := ⟨rfl, rfl, rfl, rfl, rfl, rfl, rfl, fun _ _ => rfl, fun _ _ => rfl⟩

theorem State.AtBoundary.f (h : s.AtBoundary t) {fl : Fld} {i : Nat} (ha : stepWord (fl.addr i) = true) : t.f fl i = s.f fl i := by
  simp only [State.f, h.word _ ha]

theorem State.AtBoundary.fB (h : s.AtBoundary t) {fl : Fld} {i : Nat} (ha : stepWord (fl.addr i) = true) : t.fB fl i = s.fB fl i :=
  State.fB_ofF (h.f ha)

theorem State.AtBoundary.step (h : s.AtBoundary t) : t.f F.SEQ_STAT_STEP = s.f F.SEQ_STAT_STEP := h.field (F.SEQ_STAT_STEP, 0) (by decide)

theorem State.AtBoundary.highest (h : s.AtBoundary t) : t.f F.SEQ_STAT_HIGHEST = s.f F.SEQ_STAT_HIGHEST :=
  h.field (F.SEQ_STAT_HIGHEST, 0) (by decide)

theorem State.AtBoundary.pendoff (h : s.AtBoundary t) : t.fB F.SEQ_STAT_PENDOFF = s.fB F.SEQ_STAT_PENDOFF := h.field.fB (by decide)

theorem State.AtBoundary.setReg (h : s.AtBoundary t) {a : Nat} (ha : stepWord a = false) (h2 : a ≠ 0x2202) (w : Word) :
    s.AtBoundary (t.setReg a w) where
  dev := h.dev
  pins := h.pins
  fd := h.fd
  cl := h.cl
  ph := h.ph
  img := h.img
  seq := h.seq
  field := fun p hp => by
    have hstat : ∀ p ∈ stepFields, p.1.addr p.2 = 0x2202 := by decide
    have hne : p.1.addr p.2 ≠ a := by rw [hstat p hp]; exact h2.symm
    exact (State.f_setReg_ne t hne).trans (h.field p hp)
  word := fun b hb => by
    have hne : b ≠ a := by rintro rfl; simp [ha] at hb
    rw [State.reg_setReg_ne t hne, h.word b hb]

/-- A flag of SEQ_STAT. -/
theorem State.AtBoundary.setFlag (h : s.AtBoundary t) {fl : Fld} (b : Bool) (hs : fl.spares 0 stepFields := by decide)
    (ha : fl.addr 0 = 0x2202 := by decide) : s.AtBoundary (t.setB fl 0 b) where
  dev := h.dev
  pins := h.pins
  fd := h.fd
  cl := h.cl
  ph := h.ph
  img := h.img
  seq := h.seq
  field := h.field.setB b hs
  word := fun a hw => by
    have hne : a ≠ fl.addr 0 := by rw [ha]; rintro rfl; simp [stepWord] at hw
    rw [State.reg_setB_ne t hne, h.word a hw]

theorem State.AtBoundary.seqDecide (h : s.AtBoundary t) (step dir dec : Nat) : s.AtBoundary (t.seqDecide step dir dec) := by
  obtain ⟨d, q, e⟩ := t.seqDecide_eq step dir dec
  rw [e]
  exact ⟨h.dev, h.pins, h.fd, h.cl, h.ph, h.img, h.seq, h.field, h.word⟩

theorem State.sample_atBoundary (s : State) (inwin below : BitVec 16) (pgin : BitVec 8) :
    State.AtBoundary { s with pins := { s.pins with pgin := pgin } } (s.sample inwin below pgin) := by
  refine State.each_keeps (P := State.AtBoundary _) _ (fun u n h => ?_) _ (State.AtBoundary.refl _)
  have hword (fl : Fld) (hb : fl.base = 0x1063 ∧ fl.stride = 0x100) : stepWord (fl.addr n) = false ∧ fl.addr n ≠ 0x2202 := by
    rw [Fld.addr, hb.1, hb.2]
    revert n
    decide
  obtain ⟨hin, hin'⟩ := hword F.CL_WSTAT_INWIN ⟨rfl, rfl⟩
  obtain ⟨hbelow, hbelow'⟩ := hword F.CL_WSTAT_BELOW ⟨rfl, rfl⟩
  exact (h.setReg hin hin' _).setReg hbelow hbelow' _

/-- A report leaves the boundary as it is. -/
theorem State.reportsOnly.atBoundary (h : s.reportsOnly t []) : s.AtBoundary t := by
  have hunits := h.1
  have hword (a : Nat) (ha : reportWord a = false) : t.reg a = s.reg a := h.2 a List.not_mem_nil ha
  refine ⟨?_, ?_, ?_, ?_, ?_, ?_, ?_, fun p hp => ?_, fun a ha => hword a ?_⟩
  · rw [← hunits]
  · rw [← hunits]
  · rw [← hunits]
  · rw [← hunits]
  · rw [← hunits]
  · rw [← hunits]
  · exact congrArg (fun x : State => { x.seq with dec := s.seq.dec }) hunits
  · have hstat : ∀ p ∈ stepFields, reportWord (p.1.addr p.2) = false := by decide
    simp only [State.f, hword _ (hstat p hp)]
  · simp only [stepWord, Bool.and_eq_true, Bool.not_eq_true'] at ha
    exact ha.1.2

/-! ### A power-up step -/

theorem State.getLsbD_setExt (s : State) (k : Nat) (b : Bool) : (s.setExt k b).pins.ext.getLsbD (k % 8) = b := by
  have hk : k % 8 < 8 := Nat.mod_lt _ (by decide)
  change (BitVec.ofNat 8 (setBitN s.pins.ext.toNat (k % 8) b)).getLsbD (k % 8) = b
  rw [BitVec.getLsbD_ofNat, testBit_setBitN_self, decide_eq_true hk, Bool.true_and]

/-- A power-up step as it starts (R247). -/
structure State.SteppedUp (s : State) (k : Nat) (t : State) : Prop where
  step : t.f F.SEQ_STAT_STEP = k
  highest : t.f F.SEQ_STAT_HIGHEST = Nat.max k (s.f F.SEQ_STAT_HIGHEST)
  forced : t.fB F.SEQ_STAT_TOFORCED = s.fB F.SEQ_STAT_TOFORCED
  stepOpen : t.seq.stepOpen = true
  dev : t.dev = s.dev
  pgin : t.pins.pgin = s.pins.pgin
  fd : t.fd = s.fd

/-- The words of the steps are no cluster's and not SEQ_STAT. -/
theorem clusterWord_step {k : Nat} (hk : k < 32) : clusterWord (0x2210 + 1 * k) = false := by
  rw [← Bool.not_eq_true, clusterWord_iff]
  omega

theorem State.upBegun_regs (s : State) (k : Nat) :
    (s.upBegun k).regs = ((s.setF F.SEQ_STAT_STEP 0 k).setF F.SEQ_STAT_HIGHEST 0 (Nat.max k (s.f F.SEQ_STAT_HIGHEST))).regs :=
  State.seqDecide_regs _ k 0 1

theorem State.upBegun_f (s : State) (k : Nat) (fl : Fld) (i : Nat) : (s.upBegun k).f fl i =
    ((s.setF F.SEQ_STAT_STEP 0 k).setF F.SEQ_STAT_HIGHEST 0 (Nat.max k (s.f F.SEQ_STAT_HIGHEST))).f fl i :=
  State.f_ofRegs (s.upBegun_regs k) fl i

theorem State.upBegun_f_step (s : State) (k : Nat) {fl : Fld} (hfl : fl.base = 0x2210 ∧ fl.stride = 1) (i : Nat) :
    (s.upBegun k).f fl i = s.f fl i := by
  have hne : fl.addr i ≠ 0x2202 := by rw [Fld.addr, hfl.1, hfl.2]; omega
  exact (s.upBegun_f k fl i).trans ((State.f_setF_ne _ hne).trans (State.f_setF_ne s hne))

theorem State.upBegun_steppedUp (s : State) {k : Nat} (hk : k < 32) : s.SteppedUp k (s.upBegun k) := by
  have hhigh : s.f F.SEQ_STAT_HIGHEST < 32 := s.f_lt F.SEQ_STAT_HIGHEST 0
  have hmax : Nat.max k (s.f F.SEQ_STAT_HIGHEST) < 32 := Nat.max_lt.mpr ⟨hk, hhigh⟩
  obtain ⟨d, q, e⟩ := State.seqDecide_eq ((s.setF F.SEQ_STAT_STEP 0 k).setF F.SEQ_STAT_HIGHEST 0 (Nat.max k (s.f F.SEQ_STAT_HIGHEST))) k 0 1
  refine ⟨?_, ?_, ?_, rfl, ?_, ?_, ?_⟩
  · rw [State.upBegun_f, State.f_setF_apart _ (by decide) (by decide), State.f_setF_self _ (by decide)]
    exact Nat.mod_eq_of_lt hk
  · rw [State.upBegun_f, State.f_setF_self _ (by decide)]
    exact Nat.mod_eq_of_lt hmax
  · exact State.fB_ofF ((s.upBegun_f k _ 0).trans ((State.f_setF_apart _ (by decide) (by decide)).trans
      (State.f_setF_apart s (by decide) (by decide))))
  all_goals
    unfold State.upBegun
    rw [e]
    rfl

theorem State.SteppedUp.thenLocal {k : Nat} (h : s.SteppedUp k t) (l : t.Local u) : s.SteppedUp k u where
  step := (l.f (by decide)).trans h.step
  highest := (l.f (by decide)).trans h.highest
  forced := (l.fB (by decide)).trans h.forced
  stepOpen := (congrArg SeqSt.stepOpen l.seq).trans h.stepOpen
  dev := l.dev.trans h.dev
  pgin := (congrArg Pins.pgin l.pins).trans h.pgin
  fd := l.fd.trans h.fd

theorem State.SteppedUp.setExt {k : Nat} (h : s.SteppedUp k t) (i : Nat) (b : Bool) : s.SteppedUp k (t.setExt i b) :=
  ⟨h.step, h.highest, h.forced, h.stepOpen, h.dev, h.pgin, h.fd⟩

theorem State.stepUp_steppedUp (s : State) {k : Nat} (hk : k < 32) : s.SteppedUp k (s.stepUp k) := by
  obtain ⟨u, hu, e⟩ := s.stepUp_local k
  rw [e]
  exact State.when_ind (P := s.SteppedUp k) ((s.upBegun_steppedUp hk).thenLocal hu) _ fun h => h.setExt _ _

/-- A step with the object EXT raises its ball (R247). -/
theorem State.stepUp_ext (s : State) {k : Nat} (hk : k < 32) (h3 : s.f F.SEQ_STEP_OBJ k = 3) :
    (s.stepUp k).pins.ext.getLsbD (s.f F.SEQ_STEP_INDEX k % 8) = true := by
  obtain ⟨u, hu, e⟩ := s.stepUp_local k
  have hf {fl : Fld} (hfl : fl.base = 0x2210 ∧ fl.stride = 1) : u.f fl k = s.f fl k := by
    refine (hu.f ?_).trans (s.upBegun_f_step k hfl k)
    rw [Fld.addr, hfl.1, hfl.2]
    exact clusterWord_step hk
  rw [e, hf (fl := F.SEQ_STEP_OBJ) ⟨rfl, rfl⟩, h3, ← hf (fl := F.SEQ_STEP_INDEX) ⟨rfl, rfl⟩]
  exact u.getLsbD_setExt _ true

/-! ### A power-down step -/

/-- A power-down step as it starts (R247, R250). -/
structure State.SteppedDown (s : State) (k : Nat) (t : State) : Prop where
  step : t.f F.SEQ_STAT_STEP = k
  held : t.fB F.SEQ_STAT_HELD = false
  forced : t.fB F.SEQ_STAT_TOFORCED = s.fB F.SEQ_STAT_TOFORCED
  stepOpen : t.seq.stepOpen = true
  dev : t.dev = s.dev
  fd : t.fd = s.fd

theorem State.SteppedDown.thenLocal {k : Nat} (h : s.SteppedDown k t) (l : t.Local u) : s.SteppedDown k u where
  step := (l.f (by decide)).trans h.step
  held := (l.fB (by decide)).trans h.held
  forced := (l.fB (by decide)).trans h.forced
  stepOpen := (congrArg SeqSt.stepOpen l.seq).trans h.stepOpen
  dev := l.dev.trans h.dev
  fd := l.fd.trans h.fd

theorem State.SteppedDown.setExt {k : Nat} (h : s.SteppedDown k t) (i : Nat) (b : Bool) : s.SteppedDown k (t.setExt i b) :=
  ⟨h.step, h.held, h.forced, h.stepOpen, h.dev, h.fd⟩

theorem State.downBegun_f (s : State) (k : Nat) (fl : Fld) (i : Nat) : (s.downBegun k).f fl i =
    ((s.setF F.SEQ_STAT_STEP 0 k).setB F.SEQ_STAT_HELD 0 false).f fl i :=
  State.f_ofRegs (State.seqDecide_regs _ k 1 1) fl i

theorem State.downBegun_steppedDown (s : State) {k : Nat} (hk : k < 32) : s.SteppedDown k (s.downBegun k) := by
  obtain ⟨d, q, e⟩ := State.seqDecide_eq ((s.setF F.SEQ_STAT_STEP 0 k).setB F.SEQ_STAT_HELD 0 false) k 1 1
  refine ⟨?_, ?_, ?_, rfl, ?_, ?_⟩
  · rw [State.downBegun_f, State.f_setB_apart _ (by decide) (by decide), State.f_setF_self _ (by decide)]
    exact Nat.mod_eq_of_lt hk
  · exact (State.fB_ofF (s.downBegun_f k _ 0)).trans (State.fB_setB_self _ (by decide) rfl 0 false)
  · exact State.fB_ofF ((s.downBegun_f k _ 0).trans ((State.f_setB_apart _ (by decide) (by decide)).trans
      (State.f_setF_apart s (by decide) (by decide))))
  all_goals
    unfold State.downBegun
    rw [e]
    rfl

theorem State.stepDown_steppedDown (s : State) {k : Nat} (hk : k < 32) : s.SteppedDown k (s.stepDown k) := by
  obtain ⟨u, hu, e⟩ := s.stepDown_local k
  rw [e]
  exact State.when_ind (P := s.SteppedDown k) ((s.downBegun_steppedDown hk).thenLocal hu) _ fun h => h.setExt _ _

/-- Power-down goes on with the step itself where it is not skipped. -/
theorem State.seqdnFrom_eq_stepDown (s : State) {k : Nat} (h : s.skipDown k = false) : s.seqdnFrom k = s.stepDown k := by
  have hfind : (List.range (k + 1)).reverse.find? (fun j => !s.skipDown j) = some k := by
    rw [List.range_succ, List.reverse_append, List.reverse_singleton, List.singleton_append, List.find?_cons_of_pos]
    simp [h]
  unfold State.seqdnFrom
  rw [hfind]

end Sys2Proof.Machine
end

section
/-! SUPPORT. The ends of power-up and power-down, and the entry to SEQDN (R31, R200, R254, R255, R256). -/

namespace Sys2Proof.Machine

variable {s t u : State}

/-! ### RUN (R31, R254) -/

/-- RUN as the last power-up step enters it, before PWRGD is looked at. -/
def State.runEntered (s : State) : State :=
  let s := { s with seq := { s.seq with stepOpen := false } }
  let s := (s.setB F.SEQ_STAT_ACTIVE 0 false).enter .run
  { s with pins := { s.pins with pwrgd := true }, seq := { s.seq with pwrgdWait := false } }

theorem State.nextUp_eq_run (s : State) {k : Nat} (hp : s.fB F.SEQ_STAT_PENDOFF = false) (hk : s.f F.SEQ_CFG_NSTEP ≤ k + 1) :
    s.nextUp k = s.runEntered.evalPwrgd.evalBen := by
  unfold State.nextUp
  rw [hp, if_neg Bool.false_ne_true, if_neg (Nat.not_lt.mpr hk)]
  rfl

theorem State.nextUp_eq_stepUp (s : State) {k : Nat} (hp : s.fB F.SEQ_STAT_PENDOFF = false) (hk : k + 1 < s.f F.SEQ_CFG_NSTEP) :
    s.nextUp k = s.stepUp (k + 1) := by
  unfold State.nextUp
  rw [hp, if_neg Bool.false_ne_true, if_pos hk]

theorem State.nextUp_eq_seqdnEntry (s : State) (k : Nat) (hp : s.fB F.SEQ_STAT_PENDOFF = true) : s.nextUp k = s.seqdnEntry := by
  unfold State.nextUp
  rw [hp, if_pos rfl]

theorem State.histAdd_eq (s : State) (c : Word) : ∃ h, s.histAdd c = { s with sup := { s.sup with hist := h } } := by
  unfold State.histAdd
  extract_lets q
  split
  · exact ⟨s.sup.hist, rfl⟩
  · exact ⟨q.drop (q.length - 32), rfl⟩

/-- The entry to RUN sets AWAKE and changes no unit. -/
theorem State.enter_run (s : State) : ∃ h, s.enter .run = State.setB { s with dev := .run, sup := { s.sup with hist := h } } F.HST_STAT_AWAKE 0 true := by
  obtain ⟨h, e⟩ := s.histAdd_eq (histCode 1 (s.dev.code + 16 * DevState.run.code))
  have hrun : s.enter .run = State.setB { s.histAdd (histCode 1 (s.dev.code + 16 * DevState.run.code)) with dev := .run } F.HST_STAT_AWAKE 0 true := rfl
  rw [e] at hrun
  exact ⟨h, hrun⟩

/-- What is seen of the device in RUN as the sequencer enters it. -/
structure State.InRun (s t : State) : Prop where
  dev : t.dev = .run
  active : t.fB F.SEQ_STAT_ACTIVE = false
  stepOpen : t.seq.stepOpen = false
  awake : t.fB F.HST_STAT_AWAKE = true
  cl : t.cl = s.cl
  ph : t.ph = s.ph
  fd : t.fd = s.fd

theorem State.runEntered_inRun (s : State) : s.InRun s.runEntered ∧ s.runEntered.pins.pwrgd = true := by
  unfold State.runEntered
  extract_lets seq s₁ s₂ pins seq'
  obtain ⟨h, e⟩ := (s₁.setB F.SEQ_STAT_ACTIVE 0 false).enter_run
  have hactive : s₂.fB F.SEQ_STAT_ACTIVE = false := by
    change (State.enter _ _).fB _ = _
    rw [e]
    exact (State.fB_setB_ne _ (by decide)).trans (State.fB_setB_self s₁ (by decide) rfl 0 false)
  have hawake : s₂.fB F.HST_STAT_AWAKE = true := (s₁.setB F.SEQ_STAT_ACTIVE 0 false).enter_awake .run
  have hunits : s₂.dev = .run ∧ s₂.seq = s₁.seq ∧ s₂.cl = s.cl ∧ s₂.ph = s.ph ∧ s₂.fd = s.fd := by
    change (State.enter _ _).dev = _ ∧ (State.enter _ _).seq = _ ∧ (State.enter _ _).cl = _ ∧ (State.enter _ _).ph = _ ∧ (State.enter _ _).fd = _
    rw [e]
    exact ⟨rfl, rfl, rfl, rfl, rfl⟩
  obtain ⟨hdev, hseq, hcl, hph, hfd⟩ := hunits
  clear_value s₂
  exact ⟨⟨hdev, hactive, congrArg SeqSt.stepOpen hseq, hawake, hcl, hph, hfd⟩, rfl⟩

theorem State.InRun.evalPwrgd (h : s.InRun t) : s.InRun t.evalPwrgd := by
  unfold State.evalPwrgd
  split
  · exact ⟨h.dev, h.active, h.stepOpen, h.awake, h.cl, h.ph, h.fd⟩
  · exact h

theorem State.InRun.evalBen (h : s.InRun t) : s.InRun t.evalBen := by
  have hfields : t.SameFields [(F.SEQ_STAT_ACTIVE, 0), (F.HST_STAT_AWAKE, 0)] t.evalBen :=
    t.evalBen_sameFields (by decide) (by decide) (by decide)
  have hfeeds := t.evalBen_sameFeeds
  exact ⟨hfeeds.dev.trans h.dev, (hfields.fB (by decide)).trans h.active, (congrArg SeqSt.stepOpen hfeeds.seq).trans h.stepOpen,
    (hfields.fB (by decide)).trans h.awake, hfeeds.cl.trans h.cl, hfeeds.ph.trans h.ph, hfeeds.fd.trans h.fd⟩

/-- What PWRGD is made of: PGMASK and the clusters' windows (R254). -/
def pwrgdFields : List (Fld × Nat) :=
  (F.SEQ_CFG_PGMASK, 0) :: (clusters.map (fun n => (F.CL_WSTAT_INWIN, n.val)) ++ clusters.map (fun n => (F.CL_WSTAT_BLANKED, n.val)))

theorem State.pwrgdBad_congr (h : s.SameFields pwrgdFields t) (hcl : t.cl = s.cl) : t.pwrgdBad = s.pwrgdBad := by
  have hmask : t.f F.SEQ_CFG_PGMASK = s.f F.SEQ_CFG_PGMASK := h (F.SEQ_CFG_PGMASK, 0) (by decide)
  have hmem : ∀ n : Fin 16, (F.CL_WSTAT_INWIN, n.val) ∈ pwrgdFields ∧ (F.CL_WSTAT_BLANKED, n.val) ∈ pwrgdFields := by decide
  have hin (n : Fin 16) : t.fB F.CL_WSTAT_INWIN n = s.fB F.CL_WSTAT_INWIN n := h.fB (hmem n).1
  have hblank (n : Fin 16) : t.fB F.CL_WSTAT_BLANKED n = s.fB F.CL_WSTAT_BLANKED n := h.fB (hmem n).2
  simp only [State.pwrgdBad, State.fBit, hmask, hin, hblank, hcl]

/-- In RUN with PWRGD asserted, its evaluation leaves it asserted unless a cluster of PGMASK is bad. -/
theorem State.evalPwrgd_pwrgd (hdev : s.dev = .run) (hp : s.pins.pwrgd = true) : s.evalPwrgd.pins.pwrgd = !s.evalPwrgd.pwrgdBad := by
  have hrun : (s.dev == .run) = true := by rw [hdev]; rfl
  unfold State.evalPwrgd
  rw [hrun, Bool.true_and]
  split
  case isTrue h =>
    rw [show State.pwrgdBad { s with pins := { s.pins with pwrgd := false }, seq := { s.seq with pwrgdWait := true } } = s.pwrgdBad from rfl, h]
    rfl
  case isFalse h => rw [hp, Bool.eq_false_of_not_eq_true h, Bool.not_false]

theorem State.evalBen_pwrgd (s : State) : s.evalBen.pins.pwrgd = s.pins.pwrgd ∧ s.evalBen.pwrgdBad = s.pwrgdBad := by
  have hfeeds := s.evalBen_sameFeeds
  have hpwrgd := congrArg Pins.pwrgd hfeeds.pins
  refine ⟨hpwrgd, State.pwrgdBad_congr ?_ hfeeds.cl⟩
  exact s.evalBen_sameFields (by decide) (by decide) (by decide)

/-- The last power-up step complete: RUN, with PWRGD asserted unless a cluster of PGMASK is bad. -/
theorem State.nextUp_run (s : State) {k : Nat} (hp : s.fB F.SEQ_STAT_PENDOFF = false) (hk : s.f F.SEQ_CFG_NSTEP ≤ k + 1) :
    s.InRun (s.nextUp k) ∧ (s.nextUp k).pins.pwrgd = !(s.nextUp k).pwrgdBad := by
  obtain ⟨hrun, hasserted⟩ := s.runEntered_inRun
  rw [s.nextUp_eq_run hp hk]
  refine ⟨hrun.evalPwrgd.evalBen, ?_⟩
  obtain ⟨hpin, hbad⟩ := s.runEntered.evalPwrgd.evalBen_pwrgd
  rw [hpin, hbad, State.evalPwrgd_pwrgd hrun.dev hasserted]

/-! ### STANDBY (R31, R200, R256) -/

/-- What is seen of the device in STANDBY as the last power-down step enters it. -/
structure State.InStandby (s t : State) : Prop where
  dev : t.dev = .standby
  active : t.fB F.SEQ_STAT_ACTIVE = false
  stepOpen : t.seq.stepOpen = false
  awake : t.fB F.HST_STAT_AWAKE = false
  gates : s.shelf = false → ∀ f : Fin 3, t.gate f = .off

theorem State.InStandby.setB (h : s.InStandby t) {fl : Fld} {i : Nat} (b : Bool)
    (hs : fl.spares i [(F.SEQ_STAT_ACTIVE, 0), (F.HST_STAT_AWAKE, 0)] := by decide) : s.InStandby (t.setB fl i b) := by
  have hfields : t.SameFields [(F.SEQ_STAT_ACTIVE, 0), (F.HST_STAT_AWAKE, 0)] (t.setB fl i b) := (State.SameFields.refl t).setB b hs
  exact ⟨h.dev, (hfields.fB (by decide)).trans h.active, h.stepOpen, (hfields.fB (by decide)).trans h.awake, h.gates⟩

theorem State.InStandby.evalBen (h : s.InStandby t) : s.InStandby t.evalBen := by
  have hfields : t.SameFields [(F.SEQ_STAT_ACTIVE, 0), (F.HST_STAT_AWAKE, 0)] t.evalBen :=
    t.evalBen_sameFields (by decide) (by decide) (by decide)
  have hfeeds := t.evalBen_sameFeeds
  exact ⟨hfeeds.dev.trans h.dev, (hfields.fB (by decide)).trans h.active, (congrArg SeqSt.stepOpen hfeeds.seq).trans h.stepOpen,
    (hfields.fB (by decide)).trans h.awake, fun hs f => (State.gate_ofFd hfeeds.fd f).trans (h.gates hs f)⟩

theorem State.standbyEntry_inStandby (s : State) : s.InStandby s.standbyEntry := by
  unfold State.standbyEntry
  extract_lets s₁ s₂ inp seq s₃ s₄
  have hgates : s.shelf = false → ∀ f : Fin 3, s₁.gate f = .off := fun hs f => by
    have hoff : s₁ = s.allGatesOff := State.when_of_true s (by rw [hs]; rfl) _
    rw [hoff]
    exact s.allGatesOff_gate f
  clear_value s₁
  have hactive : s₂.fB F.SEQ_STAT_ACTIVE = false := (State.fB_setB_apart _ (by decide) (by decide)).trans
    ((State.fB_setB_apart _ (by decide) (by decide)).trans (State.fB_setB_self s₁ (by decide) rfl 0 false))
  have hfd : s₂.fd = s₁.fd := rfl
  clear_value s₂
  have hin := s₃.enter_entered .standby
  have hstandby : s.InStandby (s₃.enter .standby) := {
    dev := s₃.enter_dev .standby
    active := (State.fB_ofF (congrArg F.SEQ_STAT_ACTIVE.get (hin.word (F.SEQ_STAT_ACTIVE.addr 0) (by decide)))).trans hactive
    stepOpen := congrArg SeqSt.stepOpen hin.seq
    awake := s₃.enter_awake .standby
    gates := fun hs f => (State.gate_ofFd (hin.fd.trans hfd) f).trans (hgates hs f) }
  exact State.when_ind (P := s.InStandby) hstandby.evalBen _ fun h => h.setB _

/-- With a minimum off time, the end of power-down is STANDBY with OFFLAT (R256). -/
theorem State.seqdnEnd_offlat (s : State) (h : s.f F.SEQ_CFG_TOFFMIN ≠ 0) :
    s.InStandby s.seqdnEnd ∧ s.seqdnEnd.fB F.SEQ_STAT_OFFLAT = true := by
  have hmin : s.standbyEntry.f F.SEQ_CFG_TOFFMIN = s.f F.SEQ_CFG_TOFFMIN :=
    (State.Guards.refl s).standbyEntry.field (F.SEQ_CFG_TOFFMIN, 0) (by decide)
  rw [s.seqdnEnd_eq, if_neg (by rwa [hmin])]
  exact ⟨s.standbyEntry_inStandby.setB _, State.fB_setB_self _ (by decide) rfl 0 true⟩

/-! ### SEQDN (R31, R255) -/

theorem State.evalStart_of_upfail (s : State) (h : s.fB F.SEQ_STAT_UPFAIL = true) : s.evalStart = s := by
  unfold State.evalStart State.startBarred
  simp [h]

/-- After a failed power-up, the end of power-down stays in STANDBY. -/
theorem State.seqdnEnd_dev_of_upfail (s : State) (h : s.fB F.SEQ_STAT_UPFAIL = true) : s.seqdnEnd.dev = .standby := by
  have hfail : (s.standbyEntry.setB F.SEQ_STAT_PENDON 0 false).fB F.SEQ_STAT_UPFAIL = true :=
    (State.Guards.fB ((State.Guards.refl s).standbyEntry.setB _) (by decide)).trans h
  rw [s.seqdnEnd_eq]
  split
  · rw [State.evalStart_of_upfail _ hfail]
    exact s.standbyEntry_inStandby.dev
  · exact s.standbyEntry_inStandby.dev

theorem State.seqdnBegun_dev (s : State) : s.seqdnBegun.dev = .seqdn := by
  unfold State.seqdnBegun
  extract_lets pins s₁ s₂ s₃ seq
  have hdev : s₂.dev = .seqdn := s₁.enter_dev .seqdn
  exact (State.evalBen_sameFeeds _).dev.trans hdev

theorem State.seqdnBegun_pendoff (s : State) : s.seqdnBegun.fB F.SEQ_STAT_PENDOFF = false := by
  unfold State.seqdnBegun
  extract_lets pins s₁ s₂ s₃ seq
  have hcleared : s₃.fB F.SEQ_STAT_PENDOFF = false :=
    (State.fB_setB_apart _ (by decide) (by decide)).trans (State.fB_setB_self _ (by decide) rfl 0 false)
  clear_value s₃
  refine Eq.trans (State.SameFields.fB (l := [(F.SEQ_STAT_PENDOFF, 0)]) (State.SameFields.trans
    (State.SameFields.ofRegs (State.SameFields.refl s₃) ?_) (State.evalBen_sameFields _ (by decide) (by decide) (by decide))) (by decide)) hcleared
  rfl

/-- The entry to SEQDN takes a pending off and deasserts PWRGD. -/
theorem State.seqdnEntry_taken (s : State) : s.seqdnEntry.pins.pwrgd = false ∧ s.seqdnEntry.fB F.SEQ_STAT_PENDOFF = false := by
  have hsame : State.seqdnEntry { s with pins := { s.pins with pwrgd := false } } = s.seqdnEntry := rfl
  have hlow := State.Guards.seqdnEntry (State.Guards.refl { s with pins := { s.pins with pwrgd := false } })
  rw [hsame] at hlow
  obtain ⟨k, e⟩ := s.seqdnEntry_from
  refine ⟨hlow.pwrgd rfl, ?_⟩
  rw [e]
  exact ((State.Guards.refl _).seqdnFrom k).pendoff s.seqdnBegun_pendoff

/-- After a failed power-up, the entry to SEQDN does not lead back to SEQUP. -/
theorem State.seqdnEntry_dev_of_upfail (s : State) (h : s.fB F.SEQ_STAT_UPFAIL = true) : s.seqdnEntry.dev ≠ .sequp := by
  have hfail : s.seqdnBegun.fB F.SEQ_STAT_UPFAIL = true := ((State.Guards.refl s).seqdnBegun.fB (by decide)).trans h
  obtain ⟨k, e⟩ := s.seqdnEntry_from
  rw [e]
  unfold State.seqdnFrom
  split
  · rw [(State.stepDown_keeps (State.keeps_refl s.seqdnBegun) _).dev, s.seqdnBegun_dev]
    decide
  · rw [State.seqdnEnd_dev_of_upfail _ hfail]
    decide

/-! ### The end of a partial shutdown (R251) -/

theorem State.AtBoundary.phCluster (h : s.AtBoundary t) (p : Fin 48) : t.phCluster p = s.phCluster p := by
  have hword : ∀ p : Fin 48, stepWord (F.PH_CFG_USED.addr p) = true ∧ stepWord (F.PH_CFG_CLUSTER.addr p) = true := by decide
  simp only [State.phCluster, h.fB (hword p).1, h.f (hword p).2]

theorem State.AtBoundary.nCfg (h : s.AtBoundary t) (n : Fin 16) : t.nCfg n = s.nCfg n := by
  have hword : ∀ p : Fin 48, stepWord (F.PH_CFG_ORDER.addr p) = true := by decide
  have horder (p : Fin 48) : t.order p = s.order p := h.f (hword p)
  simp only [State.nCfg, State.cfgMask, State.clPhases, h.phCluster, funext horder]

theorem stepWord_step {k : Nat} (hk : k < 32) : stepWord (0x2210 + 1 * k) = true := by
  simp [stepWord, reportWord]
  omega

theorem State.AtBoundary.stepField (h : s.AtBoundary t) {k : Nat} (hk : k < 32) {fl : Fld} (hfl : fl.base = 0x2210 ∧ fl.stride = 1) :
    t.f fl k = s.f fl k := by
  refine h.f ?_
  rw [Fld.addr, hfl.1, hfl.2]
  exact stepWord_step hk

theorem State.AtBoundary.skipDown (h : s.AtBoundary t) {k : Nat} (hk : k < 32) : t.skipDown k = s.skipDown k := by
  simp only [State.skipDown, State.fB, h.stepField hk (fl := F.SEQ_STEP_UPONLY) ⟨rfl, rfl⟩, h.stepField hk (fl := F.SEQ_STEP_OBJ) ⟨rfl, rfl⟩]

theorem State.AtBoundary.rgClusters (h : s.AtBoundary t) {x : Nat} (hx : x < 16) : t.rgClusters x = s.rgClusters x := by
  have hword : ∀ x : Fin 16, stepWord (F.RG_CFG_CLMASK.addr x) = true := by decide
  simp only [State.rgClusters, State.fBit, h.f (hword ⟨x, hx⟩)]

theorem State.AtBoundary.stepClusters (h : s.AtBoundary t) {k : Nat} (hk : k < 32) : t.stepClusters k = s.stepClusters k := by
  have hindex : t.f F.SEQ_STEP_INDEX k = s.f F.SEQ_STEP_INDEX k := h.stepField hk ⟨rfl, rfl⟩
  simp only [State.stepClusters, h.stepField hk (fl := F.SEQ_STEP_OBJ) ⟨rfl, rfl⟩, hindex,
    h.rgClusters (s.f_lt F.SEQ_STEP_INDEX k), funext h.nCfg]

theorem State.AtBoundary.inSubset (h : s.AtBoundary t) {k : Nat} (hk : k < 32) : t.inSubset k = s.inSubset k := by
  have hset := congrArg SeqSt.subset h.seq
  have hrg := congrArg SeqSt.subRg h.seq
  dsimp only at hset hrg
  simp only [State.inSubset, State.fBit, h.stepField hk (fl := F.SEQ_STEP_OBJ) ⟨rfl, rfl⟩,
    h.stepField hk (fl := F.SEQ_STEP_RGTAG) ⟨rfl, rfl⟩, h.stepClusters hk, h.skipDown hk, hset, hrg]

/-- With no step of the subset below, the partial shutdown ends. -/
theorem State.AtBoundary.subFrom_eq (h : s.AtBoundary t) {k : Nat} (hk : k ≤ 32) (hno : ∀ j : Fin 32, s.inSubset j = false) :
    t.subFrom k = { t with seq := { t.seq with subset := 0, subRg := 0, subStep := none } } := by
  have hfind : (List.range k).reverse.find? (fun j => t.inSubset j) = none := by
    rw [List.find?_eq_none]
    intro j hj
    have hlt : j < 32 := Nat.lt_of_lt_of_le (List.mem_range.mp (List.mem_reverse.mp hj)) hk
    rw [h.inSubset hlt, hno ⟨j, hlt⟩]
    exact Bool.false_ne_true
  unfold State.subFrom
  rw [hfind]

end Sys2Proof.Machine
end

section
/-! SUPPORT. The sequencer's commands at a step boundary: completion, timeout and FORCE (R247, R248, R251). -/

namespace Sys2Proof.Machine

variable {s t u : State}

/-! ### What follows a boundary -/

theorem State.Guards.srcBit_seqTimeout (h : s.Guards t) : t.srcBit Src.seqTimeout = s.srcBit Src.seqTimeout := by
  have hword : t.f F.SUPV_SRC_SRC 20 = s.f F.SUPV_SRC_SRC 20 := h.field (F.SUPV_SRC_SRC, 20) (by decide)
  exact congrArg (fun x : Nat => x.testBit (Src.seqTimeout % 32)) hword

theorem State.Guards.nextDown (h : s.Guards t) (k : Nat) : s.Guards (t.nextDown k) := by
  unfold State.nextDown
  extract_lets seq s₁
  have h₁ : s.Guards s₁ := h.ofRegs rfl id
  exact State.Guards.ite h₁.seqdnEnd (h₁.seqdnFrom _)

/-- A complete power-down step starts the one below. -/
theorem State.AtBoundary.nextDown_steppedDown (h : s.AtBoundary t) {k : Nat} (hpos : 1 ≤ k) (hk : k < 32) (hskip : s.skipDown (k - 1) = false) :
    t.SteppedDown (k - 1) (t.nextDown k) := by
  unfold State.nextDown
  extract_lets seq s₁
  have hs₁ : s₁.skipDown (k - 1) = false := (h.skipDown (by omega)).trans hskip
  rw [if_neg (by omega), State.seqdnFrom_eq_stepDown _ hs₁]
  have hdown := s₁.stepDown_steppedDown (k := k - 1) (by omega)
  exact ⟨hdown.step, hdown.held, hdown.forced, hdown.stepOpen, hdown.dev, hdown.fd⟩

theorem State.AtBoundary.histAdd (h : s.AtBoundary t) (c : Word) : s.AtBoundary (t.histAdd c) := by
  obtain ⟨q, e⟩ := t.histAdd_eq c
  rw [e]
  exact ⟨h.dev, h.pins, h.fd, h.cl, h.ph, h.img, h.seq, h.field, h.word⟩

theorem State.AtBoundary.subStep (h : s.AtBoundary t) : t.seq.subStep = s.seq.subStep := by
  have hsub := congrArg SeqSt.subStep h.seq
  exact hsub

theorem State.AtBoundary.stepOpen (h : s.AtBoundary t) : t.seq.stepOpen = s.seq.stepOpen := by
  have hopen := congrArg SeqSt.stepOpen h.seq
  exact hopen

/-! ### Completion -/

/-- A complete power-up step of the main program. -/
theorem exec_seqStepComplete_up (s : State) {inwin below : BitVec 16} {pgin : BitVec 8} (hdev : s.dev = .sequp) (hopen : s.seq.stepOpen = true)
    (hdone : (s.sample inwin below pgin).upDone (s.f F.SEQ_STAT_STEP) = true) :
    ∃ t, State.AtBoundary { s with pins := { s.pins with pgin := pgin } } t ∧
      exec (.seqStepComplete false inwin below pgin) s = .next (t.nextUp (s.f F.SEQ_STAT_STEP)) := by
  have hb := s.sample_atBoundary inwin below pgin
  refine ⟨_, hb.seqDecide (s.f F.SEQ_STAT_STEP) 0 2, ?_⟩
  change Host.Outcome.next (s.sample inwin below pgin).stepComplete = _
  unfold State.stepComplete
  have hstep : (s.sample inwin below pgin).f F.SEQ_STAT_STEP = s.f F.SEQ_STAT_STEP := hb.step
  have hopen' : (s.sample inwin below pgin).seq.stepOpen = true := hb.stepOpen.trans hopen
  have hdev' : (s.sample inwin below pgin).dev = .sequp := hb.dev.trans hdev
  simp only [hstep, hopen', hdev', hdone, Bool.and_self, if_true]

/-- A complete power-down step of the main program. -/
theorem exec_seqStepComplete_down (s : State) {inwin below : BitVec 16} {pgin : BitVec 8} (hdev : s.dev = .seqdn) (hopen : s.seq.stepOpen = true)
    (hdone : (s.sample inwin below pgin).downDone (s.f F.SEQ_STAT_STEP) = true) :
    ∃ t, State.AtBoundary { s with pins := { s.pins with pgin := pgin } } t ∧
      exec (.seqStepComplete false inwin below pgin) s = .next (t.nextDown (s.f F.SEQ_STAT_STEP)) := by
  have hb := s.sample_atBoundary inwin below pgin
  refine ⟨_, (hb.seqDecide (s.f F.SEQ_STAT_STEP) 1 2).setFlag (fl := F.SEQ_STAT_HELD) false, ?_⟩
  change Host.Outcome.next (s.sample inwin below pgin).stepComplete = _
  unfold State.stepComplete
  have hstep : (s.sample inwin below pgin).f F.SEQ_STAT_STEP = s.f F.SEQ_STAT_STEP := hb.step
  have hopen' : (s.sample inwin below pgin).seq.stepOpen = true := hb.stepOpen.trans hopen
  have hdev' : (s.sample inwin below pgin).dev = .seqdn := hb.dev.trans hdev
  simp only [hstep, hopen', hdev', hdone, Bool.and_self, if_true]

/-- A complete step of a partial shutdown. -/
theorem exec_seqStepComplete_part (s : State) {inwin below : BitVec 16} {pgin : BitVec 8} {k : Nat} (hk : s.seq.subStep = some k)
    (hdone : (s.sample inwin below pgin).subDone k = true) :
    ∃ t, State.AtBoundary { s with pins := { s.pins with pgin := pgin } } t ∧ t.fB F.SEQ_STAT_HELD = false ∧
      exec (.seqStepComplete true inwin below pgin) s = .next (t.subFrom k) := by
  have hb := s.sample_atBoundary inwin below pgin
  refine ⟨_, (hb.seqDecide k 1 2).setFlag (fl := F.SEQ_STAT_HELD) false, State.fB_setB_self _ (by decide) rfl 0 false, ?_⟩
  change Host.Outcome.next (s.sample inwin below pgin).subComplete = _
  unfold State.subComplete
  have hsub : (s.sample inwin below pgin).seq.subStep = some k := hb.subStep.trans hk
  simp only [hsub, hdone, if_true]

/-! ### Timeout -/

/-- Of the registers, a source past the feeds' changes its own word alone. -/
theorem State.reg_raise_service (s : State) {src a : Nat} (h : 0x259 ≤ src) (ha : a ≠ F.SUPV_SRC_SRC.addr (src / 32)) :
    (s.raise src).reg a = s.reg a := by
  unfold State.raise
  split
  · rfl
  · rw [State.latchStatus_of_service _ h]
    exact State.reg_setFBit_ne s ha

/-- The report of a timeout. -/
theorem State.raise_seqTimeout (s : State) :
    (s.raise Src.seqTimeout).srcBit Src.seqTimeout = true ∧ s.reportsOnly (s.raise Src.seqTimeout) [] :=
  s.raise_service (by decide) (by decide)

theorem State.raise_seqTimeout_toact (s : State) (k : Nat) : (s.raise Src.seqTimeout).fB F.SEQ_STEP_TOACT k = s.fB F.SEQ_STEP_TOACT k := by
  have hne : F.SEQ_STEP_TOACT.addr k ≠ F.SUPV_SRC_SRC.addr (Src.seqTimeout / 32) := by
    simp [Fld.addr, F.SEQ_STEP_TOACT, F.SUPV_SRC_SRC, Src.seqTimeout]
    omega
  simp only [State.fB, State.f, s.reg_raise_service (src := Src.seqTimeout) (by decide) hne]

/-- A power-up step that times out with TOACT fails the power-up (R248). -/
theorem exec_seqStepTimeout_fail (s : State) (hdev : s.dev = .sequp) (hopen : s.seq.stepOpen = true)
    (hobj : s.f F.SEQ_STEP_OBJ (s.f F.SEQ_STAT_STEP) ≠ 5) (hdone : s.upDone (s.f F.SEQ_STAT_STEP) = false)
    (hact : s.fB F.SEQ_STEP_TOACT (s.f F.SEQ_STAT_STEP) = true) (hpend : s.fB F.SEQ_STAT_PENDOFF = false) :
    exec (.seqStepTimeout false) s = .next ((((s.raise Src.seqTimeout).seqDecide (s.f F.SEQ_STAT_STEP) 0 3).setB F.SEQ_STAT_UPFAIL 0 true).seqdnEntry) := by
  have hpend' : ((s.raise Src.seqTimeout).seqDecide (s.f F.SEQ_STAT_STEP) 0 3).fB F.SEQ_STAT_PENDOFF = false :=
    (s.raise_seqTimeout.2.atBoundary.seqDecide _ 0 3).pendoff.trans hpend
  change execSeqStepTimeout false s = _
  unfold execSeqStepTimeout
  simp [hdev, hopen, hobj, hdone, s.raise_seqTimeout_toact, hact, hpend']

/-- A power-up step that times out without TOACT is forced on (R248). -/
theorem exec_seqStepTimeout_up (s : State) (hdev : s.dev = .sequp) (hopen : s.seq.stepOpen = true)
    (hobj : s.f F.SEQ_STEP_OBJ (s.f F.SEQ_STAT_STEP) ≠ 5) (hdone : s.upDone (s.f F.SEQ_STAT_STEP) = false)
    (hact : s.fB F.SEQ_STEP_TOACT (s.f F.SEQ_STAT_STEP) = false) :
    exec (.seqStepTimeout false) s = .next (((s.raise Src.seqTimeout).forceOn (s.f F.SEQ_STAT_STEP) 0).nextUp (s.f F.SEQ_STAT_STEP)) := by
  change execSeqStepTimeout false s = _
  unfold execSeqStepTimeout
  simp [hdev, hopen, hobj, hdone, s.raise_seqTimeout_toact, hact]

/-- The state in which a timed-out power-down step holds (R248). -/
def State.heldOn (s : State) (k : Nat) : State := ((s.raise Src.seqTimeout).seqDecide k 1 3).setB F.SEQ_STAT_HELD 0 true

/-- A power-down step that times out holds or is forced on, as TOACT says (R248). -/
theorem exec_seqStepTimeout_down (s : State) (hdev : s.dev = .seqdn) (hopen : s.seq.stepOpen = true)
    (hobj : s.f F.SEQ_STEP_OBJ (s.f F.SEQ_STAT_STEP) ≠ 5) (hdone : s.downDone (s.f F.SEQ_STAT_STEP) = false) :
    exec (.seqStepTimeout false) s = .next (if s.fB F.SEQ_STEP_TOACT (s.f F.SEQ_STAT_STEP) then s.heldOn (s.f F.SEQ_STAT_STEP)
      else ((s.raise Src.seqTimeout).forceOn (s.f F.SEQ_STAT_STEP) 1).nextDown (s.f F.SEQ_STAT_STEP)) := by
  change execSeqStepTimeout false s = _
  unfold execSeqStepTimeout
  simp [hdev, hopen, hobj, hdone, s.raise_seqTimeout_toact, State.heldOn]

/-- A step of a partial shutdown that times out with TOACT holds (R248). -/
theorem exec_seqStepTimeout_part (s : State) {k : Nat} (hk : s.seq.subStep = some k) (hdone : s.subDone k = false)
    (hobj : s.f F.SEQ_STEP_OBJ k ≠ 5) (hact : s.fB F.SEQ_STEP_TOACT k = true) : exec (.seqStepTimeout true) s = .next (s.heldOn k) := by
  change execSeqStepTimeout true s = _
  unfold execSeqStepTimeout
  simp [hk, hdone, hobj, s.raise_seqTimeout_toact, hact, State.heldOn]

/-- A step that holds sets HELD and reports the timeout, and does nothing else. -/
theorem State.heldOn_spec (s : State) (k : Nat) : (s.heldOn k).fB F.SEQ_STAT_HELD = true ∧ (s.heldOn k).srcBit Src.seqTimeout = true ∧
    State.reportsOnly { s with seq := { s.seq with dec := (s.heldOn k).seq.dec }, sup := { s.sup with hist := (s.heldOn k).sup.hist } }
      (s.heldOn k) [F.SEQ_STAT_HELD.addr 0] := by
  obtain ⟨hbit, hunits, hwords⟩ := s.raise_seqTimeout
  have hguards : (s.raise Src.seqTimeout).Guards (s.heldOn k) := ((State.Guards.refl _).seqDecide k 1 3).setB _
  refine ⟨State.fB_setB_self _ (by decide) rfl 0 true, hguards.srcBit_seqTimeout.trans hbit, ?_, fun a ha hr => ?_⟩
  · obtain ⟨d, h, e⟩ := (s.raise Src.seqTimeout).seqDecide_eq k 1 3
    unfold State.heldOn
    rw [e]
    exact congrArg (fun x : State => { x with seq := { x.seq with dec := d }, sup := { x.sup with hist := h } }) hunits
  · have hregs := State.seqDecide_regs (s.raise Src.seqTimeout) k 1 3
    refine (State.reg_setB_ne _ (by simpa using ha)).trans (Eq.trans ?_ (hwords a List.not_mem_nil hr))
    simp only [State.reg, hregs]

/-- A step forced on: at its boundary, with TOFORCED set and the timeout reported. -/
theorem State.forceOn_spec (s : State) (k dir : Nat) : s.AtBoundary ((s.raise Src.seqTimeout).forceOn k dir) ∧
    ((s.raise Src.seqTimeout).forceOn k dir).fB F.SEQ_STAT_TOFORCED = true ∧
    ((s.raise Src.seqTimeout).forceOn k dir).srcBit Src.seqTimeout = true := by
  obtain ⟨hbit, hreport⟩ := s.raise_seqTimeout
  have hguards : (s.raise Src.seqTimeout).Guards ((s.raise Src.seqTimeout).forceOn k dir) := ((State.Guards.refl _).setB _).seqDecide k dir 4
  refine ⟨(hreport.atBoundary.setFlag _).seqDecide k dir 4, ?_, hguards.srcBit_seqTimeout.trans hbit⟩
  exact (State.fB_ofF (State.f_ofRegs (State.seqDecide_regs _ k dir 4) _ _)).trans (State.fB_setB_self _ (by decide) rfl 0 true)

/-! ### FORCE -/

/-- Where a port's write acts at once, its command is carried out (R350). -/
theorem State.hostDo_of_hostOpen {p : Port} (h : s.hostOpen p) (a : Nat) (v : Word) (g : State → State × Nat) :
    s.hostDo p a v g = s.byPort p a g := by
  obtain ⟨hlive, hnoImg, hdev, htxn⟩ := h
  have hbarred : s.writeBarred p a v = Code.ok := by simp [State.writeBarred, State.served, hnoImg, hdev, htxn]
  have hgated : gated p a v g s = g s := by simp [gated, hbarred, htxn]
  simp only [State.hostDo, hlive, if_true, State.byPort, hgated]

/-- FORCE taken: the history notes it, and HELD is cleared. -/
def State.forceTaken (s : State) : State := (s.accepted 0x2203 1).setB F.SEQ_STAT_HELD 0 false

theorem State.forceTaken_atBoundary (s : State) : s.AtBoundary s.forceTaken := ((State.AtBoundary.refl s).histAdd _).setFlag _

theorem seqForce_part (s : State) {k : Nat} (hheld : s.fB F.SEQ_STAT_HELD = true) (hk : s.seq.subStep = some k) :
    seqForce key s = ((s.forceTaken.seqDecide k 1 4).subFrom k, Code.ok) := by
  have hkey : ¬ key.toNat ≠ confirmKey := by decide
  have hnot : ¬ (!s.fB F.SEQ_STAT_HELD) = true := by rw [hheld]; decide
  have hsub : s.forceTaken.seq.subStep = some k := s.forceTaken_atBoundary.subStep.trans hk
  unfold State.forceTaken at hsub ⊢
  unfold seqForce
  rw [if_neg hkey, if_neg hnot]
  dsimp only
  rw [hsub]

theorem seqForce_main (s : State) (hheld : s.fB F.SEQ_STAT_HELD = true) (hk : s.seq.subStep = none) (hdev : s.dev = .seqdn) :
    seqForce key s = ((s.forceTaken.seqDecide (s.f F.SEQ_STAT_STEP) 1 4).nextDown (s.f F.SEQ_STAT_STEP), Code.ok) := by
  have hkey : ¬ key.toNat ≠ confirmKey := by decide
  have hnot : ¬ (!s.fB F.SEQ_STAT_HELD) = true := by rw [hheld]; decide
  have hsub : s.forceTaken.seq.subStep = none := s.forceTaken_atBoundary.subStep.trans hk
  have hstep : s.forceTaken.f F.SEQ_STAT_STEP = s.f F.SEQ_STAT_STEP := s.forceTaken_atBoundary.step
  have hdown : (s.forceTaken.dev == .seqdn) = true := by rw [s.forceTaken_atBoundary.dev, hdev]; rfl
  unfold State.forceTaken at hsub hstep hdown ⊢
  unfold seqForce
  rw [if_neg hkey, if_neg hnot]
  dsimp only
  rw [hsub]
  dsimp only
  rw [hstep, hdown, if_pos rfl]

/-- A FORCE that answers OK is carried out, with nothing refused (R340). -/
theorem exec_force (s : State) {p : Port} (h : s.hostOpen p) (ht : seqForce key s = (t, Code.ok)) : exec (.force p key) s = .next t := by
  change Host.Outcome.next (s.hostDo p 0x2203 (cmdWord 1 key) (seqForce key)) = _
  rw [State.hostDo_of_hostOpen h]
  unfold State.byPort
  rw [ht]
  rfl

end Sys2Proof.Machine
end

section
/-! THE STATEMENT ON THE SEQUENCER'S STEPS (O20). -/

namespace Sys2Proof.Machine

/-- Settles O20: a sample, a report and a decision leave the boundary as it is; from there the next step, RUN, STANDBY, SEQDN or the end of
the partial shutdown follows by the lemma on that entry. -/
theorem sequencerStepsComplete : Obligations.SequencerStepsComplete := by
  unfold Obligations.SequencerStepsComplete
  refine ⟨?_, ?_, ?_, ?_, ?_, ?_, ?_, ?_, ?_, ?_, ?_, ?_, ?_⟩
  · intro s inwin below pgin hdev hopen hdone hpend hnstep hlt
    obtain ⟨t, hb, he⟩ := exec_seqStepComplete_up s hdev hopen hdone
    refine ⟨_, he, ?_⟩
    have hnstep' : s.f F.SEQ_STAT_STEP + 1 < t.f F.SEQ_CFG_NSTEP := hnstep.trans_eq (hb.f (by decide)).symm
    have hup := t.stepUp_steppedUp (k := s.f F.SEQ_STAT_STEP + 1) (by omega)
    have hstep {fl : Fld} (hfl : fl.base = 0x2210 ∧ fl.stride = 1) : t.f fl (s.f F.SEQ_STAT_STEP + 1) = s.f fl (s.f F.SEQ_STAT_STEP + 1) :=
      hb.stepField (by omega) hfl
    rw [t.nextUp_eq_stepUp (hb.pendoff.trans hpend) hnstep']
    refine ⟨hup.step, hup.highest.trans (congrArg _ hb.highest), hup.stepOpen, hup.dev.trans (hb.dev.trans hdev),
      hup.pgin.trans (congrArg Pins.pgin hb.pins), fun h3 => ?_, hup.fd.trans hb.fd⟩
    rw [← hstep (fl := F.SEQ_STEP_INDEX) ⟨rfl, rfl⟩]
    exact t.stepUp_ext (by omega) ((hstep ⟨rfl, rfl⟩).trans h3)
  · intro s inwin below pgin hdev hopen hdone hpend hnstep
    obtain ⟨t, hb, he⟩ := exec_seqStepComplete_up s hdev hopen hdone
    have hnstep' : t.f F.SEQ_CFG_NSTEP ≤ s.f F.SEQ_STAT_STEP + 1 := (hb.f (by decide)).trans_le hnstep
    obtain ⟨hrun, hpwrgd⟩ := t.nextUp_run (hb.pendoff.trans hpend) hnstep'
    exact ⟨_, he, hrun.dev, hrun.active, hrun.stepOpen, hrun.awake, hpwrgd, hrun.cl.trans hb.cl, hrun.ph.trans hb.ph, hrun.fd.trans hb.fd⟩
  · intro s inwin below pgin hdev hopen hdone hpend
    obtain ⟨t, hb, he⟩ := exec_seqStepComplete_up s hdev hopen hdone
    refine ⟨_, he, ?_⟩
    rw [t.nextUp_eq_seqdnEntry _ (hb.pendoff.trans hpend)]
    exact t.seqdnEntry_taken
  · intro s inwin below pgin hdev hopen hdone hpos hskip
    obtain ⟨t, hb, he⟩ := exec_seqStepComplete_down s hdev hopen hdone
    have hdown := hb.nextDown_steppedDown hpos (s.f_lt F.SEQ_STAT_STEP 0) hskip
    exact ⟨_, he, hdown.step, hdown.held, hdown.stepOpen, hdown.dev.trans (hb.dev.trans hdev), hdown.fd.trans hb.fd⟩
  · intro s inwin below pgin hdev hopen hdone hzero hmin
    obtain ⟨t, hb, he⟩ := exec_seqStepComplete_down s hdev hopen (hzero.symm ▸ hdone)
    have hmin' : t.f F.SEQ_CFG_TOFFMIN ≠ 0 := (hb.f (by decide)).trans_ne hmin
    obtain ⟨hstandby, hlat⟩ := State.seqdnEnd_offlat { t with seq := { t.seq with stepOpen := false } } hmin'
    have hrole : t.shelf = s.shelf := congrArg ImgSt.role hb.img
    rw [hzero] at he
    exact ⟨_, he, hstandby.dev, hlat, hstandby.active, hstandby.stepOpen, hstandby.awake, fun hs => hstandby.gates (hrole.trans hs)⟩
  · intro s inwin below pgin k hk hdone hno hle
    obtain ⟨t, hb, hheld, he⟩ := exec_seqStepComplete_part s hk hdone
    rw [hb.subFrom_eq hle hno] at he
    exact ⟨_, he, rfl, rfl, rfl, hheld, hb.dev, hb.cl⟩
  · intro s hdev hopen hobj hdone hact hpend
    refine ⟨_, exec_seqStepTimeout_fail s hdev hopen hobj hdone hact hpend, ?_⟩
    obtain ⟨hbit, -⟩ := s.raise_seqTimeout
    generalize s.raise Src.seqTimeout = r at hbit
    have hfail : ((r.seqDecide (s.f F.SEQ_STAT_STEP) 0 3).setB F.SEQ_STAT_UPFAIL 0 true).fB F.SEQ_STAT_UPFAIL = true :=
      State.fB_setB_self _ (by decide) rfl 0 true
    have hsrc : ((r.seqDecide (s.f F.SEQ_STAT_STEP) 0 3).setB F.SEQ_STAT_UPFAIL 0 true).srcBit Src.seqTimeout = true :=
      (congrArg (Nat.testBit · _) (State.f_setB_ne _ (by decide))).trans
        (((State.Guards.refl r).seqDecide (s.f F.SEQ_STAT_STEP) 0 3).srcBit_seqTimeout.trans hbit)
    generalize (r.seqDecide (s.f F.SEQ_STAT_STEP) 0 3).setB F.SEQ_STAT_UPFAIL 0 true = u at hfail hsrc
    have hguards := (State.Guards.refl u).seqdnEntry
    exact ⟨(hguards.fB (by decide)).trans hfail, hguards.srcBit_seqTimeout.trans hsrc, u.seqdnEntry_taken.1, u.seqdnEntry_dev_of_upfail hfail⟩
  · intro s hdev hopen hobj hdone hact hpend hnstep hlt
    obtain ⟨hb, hforced, hbit⟩ := s.forceOn_spec (s.f F.SEQ_STAT_STEP) 0
    refine ⟨_, exec_seqStepTimeout_up s hdev hopen hobj hdone hact, ?_⟩
    generalize (s.raise Src.seqTimeout).forceOn (s.f F.SEQ_STAT_STEP) 0 = t at hb hforced hbit
    have hnstep' : s.f F.SEQ_STAT_STEP + 1 < t.f F.SEQ_CFG_NSTEP := hnstep.trans_eq (hb.f (by decide)).symm
    have hup := t.stepUp_steppedUp (k := s.f F.SEQ_STAT_STEP + 1) (by omega)
    rw [t.nextUp_eq_stepUp (hb.pendoff.trans hpend) hnstep']
    exact ⟨hup.forced.trans hforced, ((State.Guards.refl t).stepUp _).srcBit_seqTimeout.trans hbit, hup.step, hup.dev.trans (hb.dev.trans hdev)⟩
  · intro s hdev hopen hobj hdone hact
    refine ⟨s.heldOn (s.f F.SEQ_STAT_STEP), ?_, s.heldOn_spec _⟩
    rw [exec_seqStepTimeout_down s hdev hopen hobj hdone, hact, if_pos rfl]
  · intro s hdev hopen hobj hdone hact hpos hskip
    obtain ⟨hb, hforced, hbit⟩ := s.forceOn_spec (s.f F.SEQ_STAT_STEP) 1
    have he := exec_seqStepTimeout_down s hdev hopen hobj hdone
    rw [hact, if_neg Bool.false_ne_true] at he
    refine ⟨_, he, ?_⟩
    generalize (s.raise Src.seqTimeout).forceOn (s.f F.SEQ_STAT_STEP) 1 = t at hb hforced hbit
    have hdown := hb.nextDown_steppedDown hpos (s.f_lt F.SEQ_STAT_STEP 0) hskip
    exact ⟨hdown.forced.trans hforced, ((State.Guards.refl t).nextDown _).srcBit_seqTimeout.trans hbit, hdown.step,
      hdown.dev.trans (hb.dev.trans hdev)⟩
  · intro s k hk hdone hobj hact
    exact ⟨_, exec_seqStepTimeout_part s hk hdone hobj hact, s.heldOn_spec k⟩
  · intro s p hport hheld hdev hsub hpos hskip
    have hb := s.forceTaken_atBoundary.seqDecide (s.f F.SEQ_STAT_STEP) 1 4
    have hdown := hb.nextDown_steppedDown hpos (s.f_lt F.SEQ_STAT_STEP 0) hskip
    exact ⟨_, exec_force s hport (seqForce_main s hheld hsub hdev), hdown.held, hdown.step, hdown.dev.trans (hb.dev.trans hdev),
      hdown.fd.trans hb.fd⟩
  · intro s p k hport hheld hsub hno hle
    have hb := s.forceTaken_atBoundary.seqDecide k 1 4
    have he := exec_force s hport (seqForce_part s hheld hsub)
    rw [hb.subFrom_eq hle hno] at he
    obtain ⟨d, q, hdecide⟩ := s.forceTaken.seqDecide_eq k 1 4
    obtain ⟨q', hhist⟩ := s.histAdd_eq (histCode 3 (0x2203 % 65536 + 65536 * (1 % 256)))
    have htaken : s.forceTaken = State.setB { s with sup := { s.sup with hist := q' } } F.SEQ_STAT_HELD 0 false :=
      congrArg (State.setB · F.SEQ_STAT_HELD 0 false) hhist
    rw [hdecide, htaken] at he
    refine ⟨_, he, ?_, rfl, rfl, rfl, fun a ha => ?_⟩
    · exact State.fB_setB_self { s with sup := { s.sup with hist := q' } } (by decide) rfl 0 false
    · exact State.reg_setB_ne { s with sup := { s.sup with hist := q' } } (by simpa using ha)

end Sys2Proof.Machine
end

section
/-! THE STATEMENTS ON RESET (O39) AND ON THE OUTPUTS IN BOOT (O45). -/

namespace Sys2Proof.Machine

/-! ### Reset (R2, R36) -/

/-- No phase unit is active at reset (R36). -/
theorem regReset_phaseActive : ∀ p : Fin 48, F.PH_STAT_ACTIVE.get (regReset (F.PH_STAT_ACTIVE.addr p)) = 0 := by decide

/-- No feed is latched as tripped at reset (R36). -/
theorem regReset_feedTrip : ∀ f : Fin 3, F.FEED_STAT_TRIPLAT.get (regReset (F.FEED_STAT_TRIPLAT.addr f)) = 0 := by decide

theorem State.reset_reg (a : Nat) : State.reset.reg a = regReset a := rfl

theorem State.reset_fB {fl : Fld} {i : Nat} (h : fl.get (regReset (fl.addr i)) = 0) : State.reset.fB fl i = false := by
  simp [State.fB, State.f, State.reset_reg, h]

theorem get_replicate {α : Type} {m : Nat} (x : α) (n : Fin m) : (Vector.replicate m x).get n = x := by
  simp [Vector.get_eq_getElem]

/-- Before the supply rises every output stands as R36 gives it. -/
theorem State.reset_bootOutputs : State.reset.bootOutputs := by
  refine ⟨rfl, fun n => congrArg ClusterSt.run (get_replicate _ n), fun p => ⟨congrArg PhaseSt.out (get_replicate _ p), ?_⟩,
    fun f => congrArg FeedSt.gate (get_replicate _ (feed4 f))⟩
  exact State.reset_fB (regReset_phaseActive p)

/-- Settles O39: the register file is empty over its reset values, and every other piece of state has its declared value. -/
theorem resetLeavesEveryRegisterAndOutputAsGiven : Obligations.ResetLeavesEveryRegisterAndOutputAsGiven := by
  unfold Obligations.ResetLeavesEveryRegisterAndOutputAsGiven
  exact ⟨⟨rfl, rfl⟩, State.reset_bootOutputs, rfl, rfl, by decide, State.reset_reg, rfl, by decide,
    fun i => congrArg LaneSt.ch (get_replicate _ i), rfl, rfl, fun f => State.reset_fB (regReset_feedTrip f)⟩

/-! ### The outputs in BOOT (R31, R36) -/

/-- A store in a word that shows no phase leaves the outputs of BOOT as they stand. -/
theorem State.bootOutputs.setB {s : State} (h : s.bootOutputs) {fl : Fld} {i : Nat} (b : Bool)
    (hf : ∀ p : Fin 48, F.PH_STAT_ACTIVE.addr p ≠ fl.addr i) : (s.setB fl i b).bootOutputs := by
  obtain ⟨hpins, hrun, hphase, hgate⟩ := h
  exact ⟨hpins, hrun, fun p => ⟨(hphase p).1, (s.fB_setB_ne (hf p)).trans (hphase p).2⟩, hgate⟩

/-- In BOOT, with every output as R36 gives it, a feed transfer stands in its dead time, with HOLD enabled and qualified; the end of
the dead time is the command that waits. -/
def State.bootInDeadTime : State :=
  (({ State.reset with pending := [.transferDeadTimeEnd], inp := { xfer := .deadTime } }.setB F.FEED_CFG_EN 2 true)).setB
    F.FEED_STAT_QUAL 2 true

theorem State.bootInDeadTime_outputs : State.bootInDeadTime.bootOutputs := by
  refine State.bootOutputs.setB (State.bootOutputs.setB ?_ true (by decide)) true (by decide)
  exact State.reset_bootOutputs

/-- TRANSFER_DEAD_TIME_END asks for no device state (R205): the gate charges, in BOOT. -/
theorem State.bootInDeadTime_step : ∃ t, step State.bootInDeadTime = .next t ∧ t.dev = .boot ∧ t.gate 2 = .charging := ⟨_, rfl, rfl, rfl⟩

/-- Refutes O45: the outputs of R36 alone are no invariant. A transfer that stands in its dead time (R205) goes on in BOOT and
charges the gate of HOLD. (An entry to BOOT ends a transfer, but the statement's hypothesis speaks of the outputs only.) -/
theorem not_bootHoldsEveryOutput : ¬ Obligations.BootHoldsEveryOutput := by
  unfold Obligations.BootHoldsEveryOutput
  intro h
  obtain ⟨t, hstep, hdev, hgate⟩ := State.bootInDeadTime_step
  obtain ⟨_, _, _, hoff⟩ := h State.bootInDeadTime t (fun _ => State.bootInDeadTime_outputs) hstep hdev
  exact absurd (hgate.symm.trans (hoff 2)) (by decide)

end Sys2Proof.Machine
end

section
/-! THE STATEMENT ON THE TEST ACCESS PORT (O4). -/

namespace Sys2Proof.Machine

/-- Loading an instruction touches the test port's own state alone. -/
theorem State.tapLoad_frame (s : State) (code : BitVec 8) (inst : TapInst) : { s.tapLoad code inst with tap := s.tap } = s := rfl

/-- EXTEST, CLAMP and HIGHZ take effect in STANDBY and SAFE; elsewhere BYPASS does (R55, R56). -/
theorem State.tapDrive_inst (s : State) (code : BitVec 8) (inst : TapInst) :
    (s.tapDrive code inst).tap.inst = if s.dev = .standby ∨ s.dev = .safe then inst else .bypass := by
  simp [State.tapDrive, State.tapLoad]

/-- An instruction that drives the balls halts nothing, whether it is accepted or selects BYPASS (R70). -/
theorem State.tapDrive_halted (s : State) (code : BitVec 8) {inst : TapInst} (h : inst.drives = true) :
    (s.tapDrive code inst).tap.halted = false := by
  have hne : inst ≠ .debug := by
    rintro rfl
    exact absurd h (by decide)
  change ((if s.dev == .standby || s.dev == .safe then inst else .bypass) == .debug) = false
  split
  · simpa using hne
  · rfl

/-- What an instruction that drives the balls does to the test port, and that it does nothing else. -/
theorem State.tapDrive_loaded (s : State) (code : BitVec 8) {inst : TapInst} (h : inst.drives = true) :
    (s.tapDrive code inst).tap.inst = (if s.dev = .standby ∨ s.dev = .safe then inst else .bypass) ∧
      (s.tapDrive code inst).tap.ir = code ∧ (s.tapDrive code inst).tap.halted = false ∧
      (s.tapDrive code inst).tap.forcedMid = false ∧ (s.tapDrive code inst).tap.boundary = s.tap.boundary ∧
      { s.tapDrive code inst with tap := s.tap } = s :=
  ⟨s.tapDrive_inst code inst, rfl, s.tapDrive_halted code h, rfl, rfl, s.tapLoad_frame _ _⟩

/-- The sixteen debug codes are 0x80 to 0x8F (R70). -/
theorem debugCode_toNat (k : BitVec 4) : (0x80#8 ||| k.setWidth 8).toNat = 0x80 + k.toNat := by
  revert k
  decide

/-- After a scan every cell reads what was shifted in, 0 where the scan gave none (R55). -/
theorem cells_getD (cells : List (BitVec 3)) (k : Fin 115) : ((List.range 115).map fun k => cells.getD k 0).getD k 0 = cells.getD k 0 := by
  simp [List.getD_eq_getElem?_getD]

/-- Settles O4: what `tapDrive` and `tapLoad` do to the test port, instruction by instruction. -/
theorem testPortInstructionsComplete : Obligations.TestPortInstructionsComplete := by
  unfold Obligations.TestPortInstructionsComplete
  refine ⟨fun s => ⟨_, rfl, s.tapDrive_loaded 0x00 rfl⟩, fun s => ⟨_, rfl, s.tapDrive_loaded 0x04 rfl⟩,
    fun s => ⟨_, rfl, s.tapDrive_loaded 0x05 rfl⟩, fun s => ⟨_, rfl, rfl, rfl, rfl, rfl, s.tapLoad_frame _ _⟩,
    fun s cells => ⟨_, rfl, rfl, rfl, rfl, cells_getD cells, rfl⟩, fun s k => ⟨_, rfl, debugCode_toNat k, rfl, rfl, ?_, s.tapLoad_frame _ _⟩,
    fun s code => ⟨_, rfl, rfl, rfl, rfl, rfl, s.tapLoad_frame _ _⟩⟩
  change ((if s.fB F.IMG_BOOTSTAT_DEBUG_EN then TapInst.debug else .bypass) == .debug) = s.fB F.IMG_BOOTSTAT_DEBUG_EN
  cases s.fB F.IMG_BOOTSTAT_DEBUG_EN <;> rfl

end Sys2Proof.Machine
end

section
/-! SUPPORT. What a reset or an entry to BOOT leaves: the state cleared, the fields kept, the boot record shown (R36, R39, R44, R283,
R379, R397). -/

namespace Sys2Proof.Machine

variable {s t u : State}

/-! ### The clear -/

/-- A filter by address leaves the entries of the addresses that it lets through. -/
theorem Sparse.get_filter_of_kept {α : Type} {d : Nat → α} {p : Nat → Bool} {a : Nat} (h : p a = true) (l : List (Nat × α)) :
    Sparse.get d (l.filter fun e => p e.1) a = Sparse.get d l a := by
  induction l with
  | nil => rfl
  | cons e l ih =>
    by_cases hp : p e.1 = true
    · simp [hp, Sparse.get, ih]
    · have hne : a ≠ e.1 := by
        rintro rfl
        exact hp h
      simp [hp, Sparse.get, hne, ih]

/-- A word that a BOOT keeps whole (R283, R381). -/
theorem State.bootClear_reg (s : State) (cold reload : Bool) {a : Nat} (h : keptAddr cold a = true) :
    (s.bootClear cold reload).reg a = s.reg a :=
  Sparse.get_filter_of_kept (p := fun a => keptAddr cold a || (reload && (a == 0x101 || a == 0x102))) (by simp [h]) s.regs

theorem NvmSt.dropStore_state (n : NvmSt) : n.dropStore.state = n.state := by
  unfold NvmSt.dropStore
  split <;> rfl

theorem NvmSt.dropStore_timeSlot (n : NvmSt) : n.dropStore.timeSlot = n.timeSlot := by
  unfold NvmSt.dropStore
  split <;> rfl

/-! ### What follows the clear -/

/-- The words that are written after the clear, DEV_PWRSTAT apart: the fields kept, the recorder's SEQ and lost counts, and the words
that show the boot record. -/
def bootWords : List Nat := [0x200, 0x2461, 0x2E00, 0x2E01, 0x2E02, 0x2E07, 0x3300, 0x3310, 0x3314]

/-- What the work after the clear leaves alone. -/
structure State.Prepares (l : List Nat) (s t : State) : Prop where
  pins : t.pins = s.pins
  power : t.power = s.power
  nvm : { t.nvm with boot := s.nvm.boot } = s.nvm
  slots : t.owl.slots = s.owl.slots
  word : ∀ a, a ∉ l → t.reg a = s.reg a

variable {l : List Nat}

theorem State.Prepares.refl (l : List Nat) (s : State) : s.Prepares l s := ⟨rfl, rfl, rfl, rfl, fun _ _ => rfl⟩

theorem State.Prepares.trans (h : s.Prepares l t) (k : t.Prepares l u) : s.Prepares l u where
  pins := k.pins.trans h.pins
  power := k.power.trans h.power
  nvm := (congrArg (fun n : NvmSt => { n with boot := s.nvm.boot }) k.nvm).trans h.nvm
  slots := k.slots.trans h.slots
  word := fun a ha => (k.word a ha).trans (h.word a ha)

theorem State.Prepares.mono {m : List Nat} (h : s.Prepares l t) (hl : l ⊆ m) : s.Prepares m t :=
  ⟨h.pins, h.power, h.nvm, h.slots, fun a ha => h.word a fun hm => ha (hl hm)⟩

theorem State.Prepares.timeSlot (h : s.Prepares l t) : t.nvm.timeSlot = s.nvm.timeSlot := (congrArg NvmSt.timeSlot h.nvm :)

theorem State.Prepares.state (h : s.Prepares l t) : t.nvm.state = s.nvm.state := (congrArg NvmSt.state h.nvm :)

theorem State.Prepares.f (h : s.Prepares l t) {fl : Fld} {i : Nat} (ha : fl.addr i ∉ l) : t.f fl i = s.f fl i := by
  simp only [State.f, h.word _ ha]

theorem State.Prepares.setReg (h : s.Prepares l t) {a : Nat} (ha : a ∈ l) (w : Word) : s.Prepares l (t.setReg a w) :=
  ⟨h.pins, h.power, h.nvm, h.slots, fun b hb => (State.reg_setReg_ne t (fun e => hb (by rwa [e])) w).trans (h.word b hb)⟩

theorem State.Prepares.setF (h : s.Prepares bootWords t) {fl : Fld} (v : Nat) (ha : fl.addr 0 ∈ bootWords := by decide) :
    s.Prepares bootWords (t.setF fl 0 v) := h.setReg ha _

theorem State.Prepares.setB (h : s.Prepares bootWords t) {fl : Fld} (b : Bool) (ha : fl.addr 0 ∈ bootWords := by decide) :
    s.Prepares bootWords (t.setB fl 0 b) := h.setReg ha _

theorem State.Prepares.record (h : s.Prepares bootWords t) (type : Nat) (payload : List Word) : s.Prepares bootWords (t.record type payload) := by
  unfold State.record
  split
  · exact h.setF _
  · refine State.Prepares.setReg ?_ (a := 0x2E02) (by decide) _
    exact ⟨h.pins, h.power, h.nvm, h.slots, h.word⟩

theorem State.Prepares.showBootRec (h : s.Prepares bootWords t) : s.Prepares bootWords t.showBootRec :=
  State.Prepares.setF (State.Prepares.setB (State.Prepares.setB (State.Prepares.setB (State.Prepares.setF (State.Prepares.setB
    (State.Prepares.setB (State.Prepares.setB h _) _) _) _) _) _) _) _

theorem State.Prepares.setBootRec (h : s.Prepares bootWords t) (g : BootRec → BootRec) : s.Prepares bootWords (t.setBootRec g) := by
  refine State.Prepares.showBootRec ?_
  exact ⟨h.pins, h.power, h.nvm, h.slots, h.word⟩

theorem State.Prepares.activate (h : s.Prepares bootWords t) (cause : Nat) : s.Prepares bootWords (t.activate cause) := by
  unfold State.activate
  split
  · split
    · exact (h.setBootRec _).record _ _
    · split
      · exact h.setBootRec _
      · exact h.showBootRec
  · split
    · exact h.setBootRec _
    · exact h.showBootRec

theorem State.Prepares.restoreLost (h : s.Prepares bootWords t) : s.Prepares bootWords t.restoreLost := by
  unfold State.restoreLost
  split
  · rename_i w _
    have hs := (h.setF (fl := F.OWL_LOST_EVENTS) (w.getD 5 0).toNat).setF (fl := F.OWL_LOST_SNAPS) (w.getD 8 0).toNat
    exact ⟨hs.pins, hs.power, hs.nvm, hs.slots, hs.word⟩
  · have hs := State.Prepares.setReg h (a := 0x2E01) (by decide) 0
    exact ⟨hs.pins, hs.power, hs.nvm, hs.slots, hs.word⟩

theorem State.Prepares.copyFields (h : s.Prepares bootWords t) (v : State) {l : List Fld} (hl : ∀ fl ∈ l, fl.addr 0 ∈ bootWords) :
    s.Prepares bootWords (t.copyFields v l) := by
  unfold State.copyFields
  induction l generalizing t with
  | nil => exact h
  | cons fl l ih => exact ih (h.setF _ (hl fl (List.mem_cons_self ..))) fun g hg => hl g (List.mem_cons_of_mem _ hg)

theorem keptFields_bootWords (cold : Bool) : ∀ fl ∈ keptFields cold, fl.addr 0 ∈ bootWords := by
  cases cold <;> decide

/-! ### The state of a reset -/

/-- The fields kept, on a cleared state. -/
def State.bootKept (s : State) (cold reload : Bool) : State :=
  ((s.bootClear cold reload).copyFields s (keptFields cold)).when (s.hotRead && !cold) (fun t => t.setB F.IMG_BOOTSTAT_HOTWAIT 0 true)

theorem State.bootKept_prepares (s : State) (cold reload : Bool) : (s.bootClear cold reload).Prepares bootWords (s.bootKept cold reload) :=
  State.when_ind (P := State.Prepares bootWords _) (State.Prepares.copyFields (State.Prepares.refl _ _) s (keptFields_bootWords cold)) _
    fun h => h.setB _

/-- The fields kept leave the NVM as the clear leaves it: the store in progress dropped (R353). -/
theorem State.bootKept_nvm (s : State) (cold reload : Bool) : (s.bootKept cold reload).nvm = s.nvm.dropStore := by
  have hc : ((s.bootClear cold reload).copyFields s (keptFields cold)).nvm = s.nvm.dropStore :=
    State.each_frame (π := State.nvm) (g := fun t fl => t.setF fl 0 (s.f fl)) (fun _ _ => rfl) _ _
  unfold State.bootKept State.when
  split
  · exact hc
  · exact hc

/-- After a reset of the running supply. -/
theorem State.bootBase_warm (s : State) (reload : Bool) :
    s.bootBase false reload = (s.bootKept false reload).setF F.DEV_PWRSTAT_LSTAGE 0 0 := rfl

/-- After a power-up, or at the first BOOT. -/
theorem State.bootBase_cold (s : State) (reload : Bool) : State.Prepares bootWords
    (((s.bootKept true reload).setF F.DEV_PWRSTAT_LSTAGE 0 0).setF F.DEV_PWRSTAT_IOMODE 0 (s.f F.DEV_PWRSTAT_IOMODE))
    (s.bootBase true reload) :=
  State.Prepares.restoreLost (State.Prepares.setReg (State.Prepares.refl _ _) (a := 0x2E02) (by decide) _)

theorem State.bootBase_prepares (s : State) (cold reload : Bool) :
    (s.bootClear cold reload).Prepares (0x21 :: bootWords) (s.bootBase cold reload) := by
  have hk := (s.bootKept_prepares cold reload).mono (List.subset_cons_self 0x21 bootWords)
  have hl : State.Prepares (0x21 :: bootWords) _ ((s.bootKept cold reload).setF F.DEV_PWRSTAT_LSTAGE 0 0) := hk.setReg (by decide) _
  cases cold with
  | false => exact hl
  | true =>
    have hi : State.Prepares (0x21 :: bootWords) _ (((s.bootKept true reload).setF F.DEV_PWRSTAT_LSTAGE 0 0).setF F.DEV_PWRSTAT_IOMODE 0
      (s.f F.DEV_PWRSTAT_IOMODE)) := hl.setReg (by decide) _
    have hc := (s.bootBase_cold reload).mono (List.subset_cons_self 0x21 bootWords)
    exact hi.trans hc

theorem State.bootBase_lstage (s : State) (cold reload : Bool) : (s.bootBase cold reload).f F.DEV_PWRSTAT_LSTAGE = 0 := by
  have hl : ((s.bootKept cold reload).setF F.DEV_PWRSTAT_LSTAGE 0 0).f F.DEV_PWRSTAT_LSTAGE = 0 := State.f_setF_self _ (by decide) 0 0
  cases cold with
  | false => exact hl
  | true => exact ((s.bootBase_cold reload).f (by decide)).trans ((State.f_setF_apart _ (by decide) (by decide)).trans hl)

/-- The VDDIO mode outlasts the first entry to BOOT (R39). -/
theorem State.bootBase_iomode (s : State) (reload : Bool) : (s.bootBase true reload).f F.DEV_PWRSTAT_IOMODE = s.f F.DEV_PWRSTAT_IOMODE := by
  refine ((s.bootBase_cold reload).f (by decide)).trans ((State.f_setF_self _ (by decide) 0 _).trans (Nat.mod_eq_of_lt ?_))
  exact s.f_lt F.DEV_PWRSTAT_IOMODE 0

end Sys2Proof.Machine
end

section
/-! SUPPORT. What the commands of supply, reset and ladder bring about: the entry to BOOT with its cause, and the stages of the ladder
(R36, R39, R45, R47, R50). -/

namespace Sys2Proof.Machine

variable {s t u : State}

/-! ### The entry to BOOT -/

theorem State.leaveForBoot_entered (s : State) : s.Entered s.leaveForBoot := by
  unfold State.leaveForBoot
  split
  · exact ⟨rfl, rfl, rfl, rfl, fun _ => rfl, rfl, fun _ _ => rfl⟩
  · exact s.enter_entered .boot

theorem State.histAdd_nvm (s : State) (code : Word) : (s.histAdd code).nvm = s.nvm := by
  unfold State.histAdd
  split <;> rfl

theorem State.leaveForBoot_nvm (s : State) : s.leaveForBoot.nvm = s.nvm := by
  unfold State.leaveForBoot
  split
  · rfl
  · exact s.histAdd_nvm _

/-- The output balls of a cleared state stand at reset; the input balls keep their levels. -/
theorem State.Entered.outputsReset (h : s.Entered t) {cold reload : Bool} (hu : u.pins = (t.bootClear cold reload).pins) :
    s.outputsReset u :=
  hu.trans (congrArg (fun p : Pins => ({ en := p.en, pgin := p.pgin, lead := p.lead, syncIn := p.syncIn } : Pins)) h.pins :)

/-- A reset puts every output at its state of R36. -/
theorem State.bootBase_outputsReset (s : State) (cold reload : Bool) : s.outputsReset (s.leaveForBoot.bootBase cold reload) :=
  s.leaveForBoot_entered.outputsReset (s.leaveForBoot.bootBase_prepares cold reload).pins

/-- BOOT as it is entered, before the boot record is looked at: the cause is shown, and a cold start counts a power cycle (R50,
R379). -/
def State.bootStart (s : State) (cause : Nat) : State :=
  let s := (s.leaveForBoot.bootBase (cause == 0) (cause == 4)).setF F.DEV_PWRSTAT_BCAUSE 0 cause
  let s := { s with power := { s.power with booted := true } }
  if cause = 0 then { s with nvm := { s.nvm with timeSlot := (s.clk.ms, s.nvm.timeSlot.2 + 1) } } else s

theorem State.enterBoot_eq (s : State) (cause : Nat) : s.enterBoot cause = (s.bootStart cause).activate cause := rfl

theorem State.enterBoot_prepares (s : State) (cause : Nat) : (s.bootStart cause).Prepares bootWords (s.enterBoot cause) :=
  (State.Prepares.refl _ _).activate cause

theorem State.bootStart_pins (s : State) (cause : Nat) :
    (s.bootStart cause).pins = (s.leaveForBoot.bootBase (cause == 0) (cause == 4)).pins := by
  unfold State.bootStart
  dsimp only
  split <;> rfl

theorem State.bootStart_f (s : State) (cause : Nat) (fl : Fld) (i : Nat) : (s.bootStart cause).f fl i =
    ((s.leaveForBoot.bootBase (cause == 0) (cause == 4)).setF F.DEV_PWRSTAT_BCAUSE 0 cause).f fl i := by
  unfold State.bootStart
  dsimp only
  split <;> rfl

theorem State.enterBoot_outputsReset (s : State) (cause : Nat) : s.outputsReset (s.enterBoot cause) :=
  (s.enterBoot_prepares cause).pins.trans ((s.bootStart_pins cause).trans (s.bootBase_outputsReset _ _))

theorem State.enterBoot_bcause (s : State) {cause : Nat} (h : cause < 16) : (s.enterBoot cause).f F.DEV_PWRSTAT_BCAUSE = cause := by
  refine ((s.enterBoot_prepares cause).f (by decide)).trans ((s.bootStart_f cause _ _).trans ((State.f_setF_self _ (by decide) 0 _).trans ?_))
  exact Nat.mod_eq_of_lt h

theorem State.enterBoot_lstage (s : State) (cause : Nat) : (s.enterBoot cause).f F.DEV_PWRSTAT_LSTAGE = 0 :=
  ((s.enterBoot_prepares cause).f (by decide)).trans ((s.bootStart_f cause _ _).trans ((State.f_setF_apart _ (by decide) (by decide)).trans
    (State.bootBase_lstage _ _ _)))

/-- The first entry to BOOT keeps the VDDIO mode (R39). -/
theorem State.enterBoot_iomode (s : State) : (s.enterBoot 0).f F.DEV_PWRSTAT_IOMODE = s.f F.DEV_PWRSTAT_IOMODE := by
  refine ((s.enterBoot_prepares 0).f (by decide)).trans ((s.bootStart_f 0 _ _).trans ((State.f_setF_apart _ (by decide) (by decide)).trans
    ((State.bootBase_iomode _ _).trans ?_)))
  simp only [State.f, s.leaveForBoot_entered.word (F.DEV_PWRSTAT_IOMODE.addr 0) (by decide)]

/-- An entry to BOOT leaves the supplies and RESET# as they are. -/
theorem State.enterBoot_power (s : State) (cause : Nat) : ∃ p : PowerSt, (s.enterBoot cause).power = { s.power with
    dieHot := p.dieHot, hotWait := p.hotWait, tempRead := p.tempRead, heartbeatLost := false, safeGatesOff := false, feedsBarred := false
    booted := true } := by
  have hb := (s.leaveForBoot.bootBase_prepares (cause == 0) (cause == 4)).power
  have hs : (s.bootStart cause).power = { (s.leaveForBoot.bootBase (cause == 0) (cause == 4)).power with booted := true } := by
    unfold State.bootStart
    dsimp only
    split <;> rfl
  rw [(s.enterBoot_prepares cause).power, hs, hb]
  refine ⟨(s.leaveForBoot.bootClear (cause == 0) (cause == 4)).power, ?_⟩
  simp only [State.bootClear, s.leaveForBoot_entered.power]

/-- The first BOOT counts a power cycle in the time slot (R379). -/
theorem State.enterBoot_powerCycles (s : State) : (s.enterBoot 0).nvm.timeSlot.2 = s.nvm.timeSlot.2 + 1 := by
  have hb := (s.leaveForBoot.bootBase_prepares true false).timeSlot
  rw [(s.enterBoot_prepares 0).timeSlot]
  change (s.leaveForBoot.bootBase true false).nvm.timeSlot.2 + 1 = _
  rw [hb]
  change s.leaveForBoot.nvm.dropStore.timeSlot.2 + 1 = _
  rw [NvmSt.dropStore_timeSlot, s.leaveForBoot_nvm]

/-- Where the conditions of R44 hold, BOOT begins: with cause 0 the first time, with the cause given after that (R50). -/
theorem State.bootIfReady_of_ready (h : s.bootReady = true) (warm : Nat) :
    s.bootIfReady warm = s.enterBoot (if s.power.booted then warm else 0) := by
  rw [State.bootIfReady, if_pos h]

/-- A later BOOT begins with the cause given, every output at reset and no ladder stage (R36, R50). -/
theorem State.bootIfReady_warm (h : s.bootReady = true) (hb : s.power.booted = true) {warm : Nat} (hw : warm < 16) :
    (s.bootIfReady warm).dev = .boot ∧ (s.bootIfReady warm).f F.DEV_PWRSTAT_BCAUSE = warm ∧
      (s.bootIfReady warm).f F.DEV_PWRSTAT_LSTAGE = 0 ∧ s.outputsReset (s.bootIfReady warm) := by
  rw [State.bootIfReady_of_ready h, hb, if_pos rfl]
  exact ⟨s.enterBoot_dev warm, s.enterBoot_bcause hw, s.enterBoot_lstage warm, s.enterBoot_outputsReset warm⟩

theorem State.bootIfReady_of_not (h : s.bootReady = false) (warm : Nat) : s.bootIfReady warm = s := by simp [State.bootIfReady, h]

/-! ### The ladder in BOOT (R47) -/

theorem State.stage_of_boot (h : s.dev = .boot) (k : Nat) : s.stage k = s.setF F.DEV_PWRSTAT_LSTAGE 0 k := by simp [State.stage, h]

/-- The stages that a fall through stage `k` crosses, from the one that was reached. -/
def crossed (reached k : Nat) : List Nat := (List.range (k + 1)).filter fun j => reached ≤ j

theorem crossed_of_lt {reached k : Nat} (h : k < reached) : crossed reached k = [] := by
  rw [crossed, List.filter_eq_nil_iff]
  intro j hj
  have := List.mem_range.mp hj
  simp
  omega

theorem crossed_of_le {reached k : Nat} (h : reached ≤ k) : crossed reached k = ((List.range k).filter fun j => reached ≤ j) ++ [k] := by
  simp [crossed, List.range_succ, List.filter_append, h]

/-- In BOOT the stages crossed are shown and do nothing else. -/
theorem State.stages_of_boot (h : s.dev = .boot) (l : List Nat) :
    (s.each l fun s j => s.stage (j + 1)).dev = .boot ∧ s.onlyRegs (s.each l fun s j => s.stage (j + 1)) [F.DEV_PWRSTAT_LSTAGE.addr 0] := by
  refine State.each_keeps (P := fun t => t.dev = .boot ∧ s.onlyRegs t [F.DEV_PWRSTAT_LSTAGE.addr 0]) s (fun t j ⟨hd, ho⟩ => ?_) l
    ⟨h, rfl, fun _ _ => rfl⟩
  rw [State.stage_of_boot hd]
  exact ⟨hd, ho.setF (by decide) _⟩

/-- After the stages crossed the ladder shows the deeper one. -/
theorem State.stages_lstage (h : s.dev = .boot) {k : Nat} (hk : k < 4) :
    (s.each (crossed (s.f F.DEV_PWRSTAT_LSTAGE) k) fun s j => s.stage (j + 1)).f F.DEV_PWRSTAT_LSTAGE =
      Nat.max (k + 1) (s.f F.DEV_PWRSTAT_LSTAGE) := by
  rcases Nat.lt_or_ge k (s.f F.DEV_PWRSTAT_LSTAGE) with hlt | hle
  · rw [crossed_of_lt hlt, State.each_nil]
    exact (Nat.max_eq_right hlt).symm
  · have happ (l : List Nat) (g : State → Nat → State) : s.each (l ++ [k]) g = g (s.each l g) k := by
      simp [State.each, List.foldl_append]
    rw [crossed_of_le hle, happ, State.stage_of_boot (s.stages_of_boot h _).1, State.f_setF_self _ (by decide)]
    exact (Nat.mod_eq_of_lt (by simp [F.DEV_PWRSTAT_LSTAGE]; omega)).trans (Nat.max_eq_left (by omega)).symm

end Sys2Proof.Machine
end

section
/-! THE STATEMENT ON SUPPLY AND RESET (O1). -/

namespace Sys2Proof.Machine

variable {s : State}

/-- POWER_UP leaves BOOT begun, what only power keeps lost, and what the NVM keeps as it was (R44, R283, R381). -/
theorem powerUp_completes (s : State) : completes .powerUp s (fun t => t.dev = .boot ∧ s.outputsReset t ∧ t.f F.DEV_PWRSTAT_IOMODE = 0 ∧
    t.f F.DEV_PWRSTAT_LSTAGE = 0 ∧ t.power.powered = true ∧ t.power.v5Good = true ∧ t.power.railsOk = true ∧
    t.power.rootLocked = true ∧ t.power.vddioLatched = false ∧ t.power.resetLow = s.power.resetLow ∧
    t.pending = s.pending ∧ t.flash = s.flash ∧ t.owl.slots = s.owl.slots ∧ t.nvm.state = s.nvm.state ∧
    ∀ a ∈ ([0x2E05, 0x2806, 0x3315] : List Nat), t.reg a = s.reg a) := by
  have hword : ∀ a ∈ ([0x2E05, 0x2806, 0x3315] : List Nat), a ∉ 0x21 :: bootWords ∧ keptAddr true a = true ∧ a ≠ 0x21 := by decide
  have hp := State.bootBase_prepares { s with dev := .boot } true false
  have hk := State.bootBase_runs { s with dev := .boot } true false
  have hdev := State.bootBase_dev { s with dev := .boot } true false
  have hl := State.bootBase_lstage { s with dev := .boot } true false
  have hexec : exec .powerUp s = .next { ({ s with dev := .boot }.bootBase true false).setF F.DEV_PWRSTAT_IOMODE 0 0 with
    power := { resetLow := s.power.resetLow, powered := true, v5Good := true, railsOk := true, rootLocked := true } } := rfl
  generalize State.bootBase { s with dev := .boot } true false = b at hp hk hdev hl hexec
  refine ⟨_, hexec, hdev, hp.pins, b.f_setF_self (by decide) 0 0, (b.f_setF_apart (by decide) (by decide)).trans hl, rfl, rfl, rfl, rfl,
    rfl, rfl, hk.pending, hk.flash, hp.slots, hp.state.trans (NvmSt.dropStore_state _), fun a ha => ?_⟩
  obtain ⟨hout, hkept, hne⟩ := hword a ha
  exact (b.reg_setF_ne hne).trans ((hp.word a hout).trans (State.bootClear_reg _ true false hkept))

/-- The latch of the VDDIO mode as the last condition of R44 begins the first BOOT (R39, R379). -/
theorem vddioModeLatch_boots (v : Bool) (hp : s.power.powered = true) (hl : s.power.vddioLatched = false)
    (hc : (s.power.v5Good && s.power.railsOk && s.power.rootLocked) = true) (hr : s.power.resetLow = false) :
    completes (.vddioModeLatch v) s (fun t => t.dev = .boot ∧ t.fB F.DEV_PWRSTAT_IOMODE = v ∧ t.f F.DEV_PWRSTAT_BCAUSE = 0 ∧
      t.power.vddioLatched = true ∧ t.nvm.timeSlot.2 = s.nvm.timeSlot.2 + 1) := by
  let u := State.setB { s with power := { s.power with vddioLatched := true } } F.DEV_PWRSTAT_IOMODE 0 v
  have hready : u.bootReady = true := by simpa [u, State.bootReady, hp, hr, and_assoc] using hc
  have hexec : exec (.vddioModeLatch v) s = .next (u.enterBoot 0) := by
    have hcold : (if u.power.booted then 0 else 0) = 0 := ite_self 0
    rw [← hcold, ← State.bootIfReady_of_ready hready 0]
    simp [exec, execVddioModeLatch, hp, hl, u]
  obtain ⟨p, hpow⟩ := u.enterBoot_power 0
  have hmode : (u.enterBoot 0).fB F.DEV_PWRSTAT_IOMODE = v :=
    (State.fB_ofF u.enterBoot_iomode).trans (State.fB_setB_self _ (by decide) rfl 0 v)
  exact ⟨_, hexec, u.enterBoot_dev 0, hmode, u.enterBoot_bcause (by decide), congrArg PowerSt.vddioLatched hpow, u.enterBoot_powerCycles⟩

/-- The latch of the VDDIO mode while V5 is away shows the mode and begins nothing (R39). -/
theorem vddioModeLatch_waits (v : Bool) (hp : s.power.powered = true) (hl : s.power.vddioLatched = false) (hv : s.power.v5Good = false) :
    completes (.vddioModeLatch v) s (fun t => t.fB F.DEV_PWRSTAT_IOMODE = v ∧
      State.onlyRegs { s with power := { s.power with vddioLatched := true } } t [F.DEV_PWRSTAT_IOMODE.addr 0]) := by
  let u := State.setB { s with power := { s.power with vddioLatched := true } } F.DEV_PWRSTAT_IOMODE 0 v
  have hready : u.bootReady = false := by simp [u, State.bootReady, hv]
  have hexec : exec (.vddioModeLatch v) s = .next u := by
    rw [← State.bootIfReady_of_not hready 0]
    simp [exec, execVddioModeLatch, hp, hl, u]
  exact ⟨u, hexec, State.fB_setB_self _ (by decide) rfl 0 v, State.onlyRegs_setF _ _ 0 _⟩

/-- RESET# low (R45, R50). -/
theorem resetAssert_completes (hp : s.power.powered = true) : completes .resetAssert s (fun t => t.dev = .boot ∧
    t.power.resetLow = true ∧ s.outputsReset t ∧ t.f F.DEV_PWRSTAT_LSTAGE = 0 ∧ t.pending = s.pending ∧ t.flash = s.flash ∧
    t.nvm = s.leaveForBoot.nvm.dropStore) := by
  let u : State := { s with power := { s.power with resetLow := true } }
  have hexec : exec .resetAssert s = .next (u.leaveForBoot.bootBase false false) :=
    congrArg Host.Outcome.next (State.when_of_true u hp _)
  have hk := (State.leaveForBoot_runs u).thenBoot (State.bootBase_runs _ false false) (State.bootBase_dev _ _ _)
  have hlow : (u.leaveForBoot.bootBase false false).power.resetLow = true := by
    rw [(u.leaveForBoot.bootBase_prepares false false).power]
    exact congrArg PowerSt.resetLow u.leaveForBoot_entered.power
  have hnvm : (u.leaveForBoot.bootBase false false).nvm = s.leaveForBoot.nvm.dropStore := by
    rw [State.bootBase_warm, s.leaveForBoot_nvm]
    exact (u.leaveForBoot.bootKept_nvm false false).trans (congrArg NvmSt.dropStore u.leaveForBoot_nvm)
  exact ⟨_, hexec, State.bootBase_dev _ _ _, hlow, u.bootBase_outputsReset false false, State.bootBase_lstage _ _ _, hk.pending, hk.flash, hnvm⟩

/-- The release of RESET# begins BOOT with cause 2 (R45, R50). -/
theorem resetRelease_completes (hl : s.power.resetLow = true)
    (hready : State.bootReady { s with power := { s.power with resetLow := false } } = true) (hb : s.power.booted = true) :
    completes .resetRelease s (fun t => t.dev = .boot ∧ t.power.resetLow = false ∧ t.f F.DEV_PWRSTAT_BCAUSE = 2 ∧ s.outputsReset t) := by
  let u : State := { s with power := { s.power with resetLow := false } }
  have hexec : exec .resetRelease s = .next (u.bootIfReady 2) := if_pos hl
  obtain ⟨hdev, hcause, -, hout⟩ := State.bootIfReady_warm hready hb (warm := 2) (by decide)
  have hlow : (u.bootIfReady 2).power.resetLow = false := by
    obtain ⟨p, hpow⟩ := u.enterBoot_power (if u.power.booted then 2 else 0)
    rw [State.bootIfReady_of_ready hready]
    exact congrArg PowerSt.resetLow hpow
  exact ⟨_, hexec, hdev, hlow, hcause, hout⟩

theorem State.stage5_lstage (s : State) : s.stage5.f F.DEV_PWRSTAT_LSTAGE = 0 := s.leaveForBoot.bootBase_lstage false false

/-- L5 resets, with the core supply gone (R47). -/
theorem ownSupplyLadderStage_five (hp : s.power.powered = true) (hr : s.power.resetLow = false) :
    completes (.ownSupplyLadderStage 4) s (fun t => t.dev = .boot ∧ t.power.v5Good = false ∧ t.power.railsOk = false ∧
      t.f F.DEV_PWRSTAT_LSTAGE = 0 ∧ t.flash = s.flash) := by
  have hexec : exec (.ownSupplyLadderStage 4) s = .next (State.stage5 (State.each { s with power := { s.power with v5Good := false } }
      ((List.range (Nat.min 4 5)).filter fun j => s.f F.DEV_PWRSTAT_LSTAGE ≤ j) fun s j => s.stage (j + 1))) := if_neg (by simp [hp, hr])
  have hflash := ((execOwnSupplyLadderStage_runs 4 s).out _ hexec).flash
  generalize State.each _ _ _ = u at hexec hflash
  exact ⟨_, hexec, u.stage5_dev, rfl, rfl, u.stage5_lstage, hflash⟩

/-- In BOOT a fall through the thresholds of L1 to L4 shows the deepest stage and does nothing else (R47). -/
theorem ownSupplyLadderStage_inBoot (hp : s.power.powered = true) (hr : s.power.resetLow = false) (hd : s.dev = .boot) {k : Fin 5}
    (hk : k < (4 : Fin 5)) : completes (.ownSupplyLadderStage k) s (fun t =>
      t.f F.DEV_PWRSTAT_LSTAGE = Nat.max (k.val + 1) (s.f F.DEV_PWRSTAT_LSTAGE) ∧
      State.onlyRegs { s with power := { s.power with v5Good := false } } t [F.DEV_PWRSTAT_LSTAGE.addr 0]) := by
  let u : State := { s with power := { s.power with v5Good := false } }
  have hk4 : k.val < 4 := hk
  have hexec : exec (.ownSupplyLadderStage k) s =
      .next (u.each (crossed (u.f F.DEV_PWRSTAT_LSTAGE) k.val) fun s j => s.stage (j + 1)) := by
    have hmin : Nat.min 4 (k.val + 1) = k.val + 1 := Nat.min_eq_right hk4
    have hne : (k == 4) = false := by simpa using ne_of_lt hk
    refine (if_neg (by simp [hp, hr])).trans (congrArg Host.Outcome.next ?_)
    rw [hmin, hne]
    rfl
  exact ⟨_, hexec, State.stages_lstage (s := u) hd hk4, (State.stages_of_boot (s := u) hd _).2⟩

/-- The forced end of the ladder begins BOOT with cause 1 (R47). -/
theorem forcedL5_completes (hready : State.bootReady { s with power := { s.power with v5Good := true } } = true)
    (hl : 3 ≤ s.f F.DEV_PWRSTAT_LSTAGE) (hb : s.power.booted = true) : completes .forcedL5 s (fun t => t.dev = .boot ∧
      t.f F.DEV_PWRSTAT_BCAUSE = 1 ∧ t.f F.DEV_PWRSTAT_LSTAGE = 0 ∧ s.outputsReset t) := by
  have hcond : (s.power.powered && s.power.railsOk && !s.power.resetLow && 3 ≤ s.f F.DEV_PWRSTAT_LSTAGE) = true := by
    simp only [State.bootReady, Bool.and_eq_true] at hready ⊢
    simp [hready, hl]
  exact ⟨_, if_pos hcond, State.bootIfReady_warm hready hb (by decide)⟩

/-- The recovery of V5 after L5 begins BOOT with cause 1 (R47). -/
theorem ladderRecovery_completes (hp : s.power.powered = true) (hv : s.power.v5Good = false) (hra : s.power.railsOk = false)
    (hl : s.power.vddioLatched = true) (hr : s.power.resetLow = false) (hb : s.power.booted = true) :
    completes .ladderRecovery s (fun t => t.dev = .boot ∧ t.f F.DEV_PWRSTAT_BCAUSE = 1 ∧ t.power.railsOk = true ∧
      t.power.v5Good = true ∧ s.outputsReset t) := by
  let u : State := { s with power := { s.power with v5Good := true, railsOk := true, rootLocked := true } }
  have hexec : exec .ladderRecovery s = .next (u.bootIfReady 1) := by simp [exec, execLadderRecovery, hp, hv, hra, u]
  have hready : u.bootReady = true := by simp [u, State.bootReady, hp, hl, hr]
  obtain ⟨hdev, hcause, -, hout⟩ := State.bootIfReady_warm hready hb (warm := 1) (by decide)
  obtain ⟨p, hpow⟩ := u.enterBoot_power (if u.power.booted then 1 else 0)
  rw [← State.bootIfReady_of_ready hready] at hpow
  exact ⟨_, hexec, hdev, hcause, congrArg PowerSt.railsOk hpow, congrArg PowerSt.v5Good hpow, hout⟩

/-- Settles O1: each command's own theorem, through the state that a reset leaves and the entry to BOOT. -/
theorem supplyAndResetCommandsComplete : Obligations.SupplyAndResetCommandsComplete :=
  ⟨powerUp_completes, fun _ v hp hl hc hr _ => vddioModeLatch_boots v hp hl hc hr, fun _ v => vddioModeLatch_waits v, fun _ => resetAssert_completes,
    fun _ => resetRelease_completes, fun _ => ownSupplyLadderStage_five, fun _ _ hp hr hd => ownSupplyLadderStage_inBoot hp hr hd,
    fun _ => forcedL5_completes, fun _ => ladderRecovery_completes⟩

end Sys2Proof.Machine
end

section
/-! SUPPORT. What leaves the tick count alone: the clock under the operations on clusters, sources and records. -/

namespace Sys2Proof.Machine

variable {s : State}

@[simp] theorem State.when_clk (s : State) (b : Bool) {g : State → State} (hg : ∀ u, (g u).clk = u.clk) : (s.when b g).clk = s.clk :=
  State.when_ind (P := fun t => t.clk = s.clk) rfl b fun h => (hg _).trans h

@[simp] theorem State.each_clk {α : Type} (s : State) (l : List α) {g : State → α → State} (hg : ∀ u x, (g u x).clk = u.clk) :
    (s.each l g).clk = s.clk := State.each_frame (π := State.clk) hg l s

/-! ### Sources and records -/

@[simp] theorem State.latchStatus_clk (s : State) (src : Nat) : (s.latchStatus src).clk = s.clk := by
  unfold State.latchStatus State.latch
  repeat' split
  all_goals simp -implicitDefEqProofs

@[simp] theorem State.raise_clk (s : State) (src : Nat) : (s.raise src).clk = s.clk := by
  unfold State.raise State.setSrcBit
  split <;> simp -implicitDefEqProofs

@[simp] theorem State.lower_clk (s : State) (src : Nat) : (s.lower src).clk = s.clk := by
  unfold State.lower State.setSrcBit
  split <;> simp -implicitDefEqProofs

@[simp] theorem State.follow_clk (s : State) (src : Nat) (b : Bool) : (s.follow src b).clk = s.clk := by
  unfold State.follow
  split <;> simp -implicitDefEqProofs

@[simp] theorem State.record_clk (s : State) (type : Nat) (payload : List Word) : (s.record type payload).clk = s.clk := by
  unfold State.record
  split <;> simp -implicitDefEqProofs

@[simp] theorem State.recordSrc_clk (s : State) (src sub : Nat) (items : List Word) : (s.recordSrc src sub items).clk = s.clk :=
  s.record_clk _ _

/-! ### Clusters -/

@[simp] theorem State.setTrim_clk (s : State) (n : Fin 16) (k : Nat) (v : Int) : (s.setTrim n k v).clk = s.clk := rfl

@[simp] theorem State.setPhShed_clk (s : State) (p : Fin 48) (b : Bool) : (s.setPhShed p b).clk = s.clk := rfl

@[simp] theorem State.fixPtr_clk (s : State) (n : Fin 16) : (s.fixPtr n).clk = s.clk := by
  unfold State.fixPtr
  dsimp only
  repeat' split
  all_goals rfl

@[simp] theorem State.setActiveList_clk (s : State) (n : Fin 16) (new : List Nat) : (s.setActiveList n new).clk = s.clk := by
  unfold State.setActiveList
  refine (State.fixPtr_clk _ n).trans ((State.each_clk _ _ fun t k => ?_).trans (State.each_clk _ _ fun t k => ?_))
  · dsimp only
    split <;> rfl
  · dsimp only
    split <;> rfl

@[simp] theorem State.leaveActive_clk (s : State) (n : Fin 16) (k : Nat) : (s.leaveActive n k).clk = s.clk := by
  unfold State.leaveActive
  dsimp only
  split <;> simp -implicitDefEqProofs

@[simp] theorem State.evalOlim_clk (s : State) (n : Fin 16) : (s.evalOlim n).clk = s.clk := rfl

@[simp] theorem State.evalPhloss_clk (s : State) (n : Fin 16) : (s.evalPhloss n).clk = s.clk := by simp -implicitDefEqProofs [State.evalPhloss]

@[simp] theorem State.injAbort_clk (s : State) (n : Fin 16) : (s.injAbort n).clk = s.clk := by
  unfold State.injAbort
  dsimp only
  split <;> rfl

@[simp] theorem State.endBlank_clk (s : State) (n : Fin 16) : (s.endBlank n).clk = s.clk := by simp -implicitDefEqProofs [State.endBlank]

@[simp] theorem State.evalPwrgd_clk (s : State) : s.evalPwrgd.clk = s.clk := by
  unfold State.evalPwrgd
  split <;> rfl

@[simp] theorem State.clOff_clk (s : State) (n : Fin 16) : (s.clOff n).clk = s.clk := by
  unfold State.clOff
  split
  · rfl
  · simp -implicitDefEqProofs [State.draw]

@[simp] theorem State.clCloff_clk (s : State) (n : Fin 16) : (s.clCloff n).clk = s.clk := by simp -implicitDefEqProofs [State.clCloff]

@[simp] theorem State.removePhase_clk (s : State) (n : Fin 16) (p : Fin 48) (cause src : Nat) : (s.removePhase n p cause src).clk = s.clk := by
  unfold State.removePhase
  dsimp only
  split
  · rfl
  · split <;> simp -implicitDefEqProofs

@[simp] theorem State.clStart_clk (s : State) (n : Fin 16) : (s.clStart n).clk = s.clk := by
  unfold State.clStart
  dsimp only
  split <;> simp -implicitDefEqProofs

end Sys2Proof.Machine
end

section
/-! SUPPORT. BOOT's report (IMG_BOOTSTAT) from its end to STANDBY or SEQUP: what writes it, and that nothing after it does (R65 to R69,
R406). -/

namespace Sys2Proof.Machine

variable {s t u : State}

/-! ### Beside the report -/

/-- What leaves the clock and BOOT's report alone. -/
structure State.Aside (s t : State) : Prop where
  clk : t.clk = s.clk
  word : t.reg 0x3300 = s.reg 0x3300

theorem State.Aside.refl (s : State) : s.Aside s := ⟨rfl, rfl⟩

theorem State.Aside.trans (h : s.Aside t) (k : t.Aside u) : s.Aside u := ⟨k.clk.trans h.clk, k.word.trans h.word⟩

/-- A change of hidden state other than the clock. -/
theorem State.Aside.hidden (h : s.Aside t) (hr : u.regs = t.regs) (hc : u.clk = t.clk) : s.Aside u :=
  h.trans ⟨hc, congrArg (fun l => Sparse.get regReset l 0x3300) hr⟩

theorem State.Aside.setReg (h : s.Aside t) {a : Nat} (w : Word) (ha : a ≠ 0x3300 := by decide) : s.Aside (t.setReg a w) :=
  h.trans ⟨rfl, State.reg_setReg_ne t ha.symm w⟩

theorem State.Aside.setF (h : s.Aside t) {fl : Fld} {i : Nat} (v : Nat) (ha : fl.addr i ≠ 0x3300 := by decide) :
    s.Aside (t.setF fl i v) := h.setReg _ ha

theorem State.Aside.setB (h : s.Aside t) {fl : Fld} {i : Nat} (b : Bool) (ha : fl.addr i ≠ 0x3300 := by decide) :
    s.Aside (t.setB fl i b) := h.setReg _ ha

theorem State.Aside.each {α : Type} (h : s.Aside t) (l : List α) {g : State → α → State}
    (hg : ∀ {u} x, s.Aside u → s.Aside (g u x)) : s.Aside (t.each l g) :=
  State.each_keeps t (fun _ x hu => hg x hu) l h

theorem State.Aside.when (h : s.Aside t) (b : Bool) {g : State → State} (hg : ∀ {u}, s.Aside u → s.Aside (g u)) :
    s.Aside (t.when b g) :=
  State.when_ind h b hg

theorem State.Aside.ite {c : Prop} [Decidable c] (h : s.Aside t) (k : s.Aside u) : s.Aside (if c then t else u) := by
  split
  · exact h
  · exact k

theorem State.Aside.thenLocal (h : s.Aside t) (k : t.Local u) (hc : u.clk = t.clk) : s.Aside u := h.trans ⟨hc, k.word _ (by decide)⟩

theorem State.Aside.record (h : s.Aside t) (type : Nat) (payload : List Word) : s.Aside (t.record type payload) :=
  h.thenLocal ((State.Local.refl t).record type payload) (t.record_clk type payload)

/-! ### The entry to STANDBY and the start rule -/

theorem State.histAdd_clk (s : State) (c : Word) : (s.histAdd c).clk = s.clk := by
  unfold State.histAdd
  split <;> rfl

theorem State.Aside.histAdd (h : s.Aside t) (c : Word) : s.Aside (t.histAdd c) := by
  refine h.hidden ?_ (t.histAdd_clk c)
  unfold State.histAdd
  split <;> rfl

theorem State.clearRequests_clk (s : State) : s.clearRequests.clk = s.clk := by
  unfold State.clearRequests
  extract_lets s₁ s₂
  have h₁ : s₁.clk = s.clk := State.each_clk _ _ fun _ _ => rfl
  have h₂ : s₂.clk = s₁.clk := s₁.setF_clk F.THM_BRDSTAT_REQ 0 0
  clear_value s₂
  exact (State.each_clk s₂ _ fun t n => t.updCl_clk n _).trans (h₂.trans h₁)

theorem State.enter_clk (s : State) (d : DevState) : (s.enter d).clk = s.clk := by
  unfold State.enter
  extract_lets s₁ s₂ s₃ s₄ s₅
  have h₁ : s₁.clk = s.clk := s.histAdd_clk _
  have h₄ : s₄.clk = s₁.clk := State.when_clk _ _ fun _ => rfl
  have h₅ : s₅.clk = s₄.clk := State.when_clk _ _ State.clearRequests_clk
  refine Eq.trans (State.when_clk s₅ _ fun _ => ?_) (h₅.trans (h₄.trans h₁))
  rfl

theorem State.Aside.enter (h : s.Aside t) (d : DevState) : s.Aside (t.enter d) :=
  h.trans ⟨t.enter_clk d, (t.enter_entered d).word _ (by decide)⟩

theorem State.Aside.evalBen (h : s.Aside t) : s.Aside t.evalBen := by
  unfold State.evalBen
  split
  · exact h.hidden rfl rfl
  · extract_lets s₁ b s₂ pins s₃
    have h₁ : s.Aside s₁ := State.Aside.when h _ fun h => State.Aside.setB (State.Aside.setB h _) _
    have h₂ : s.Aside s₂ := by
      change s.Aside (if b then s₁ else _)
      split
      · exact h₁
      · exact h₁.hidden rfl rfl
    have h₃ : s.Aside s₃ := h₂.hidden rfl rfl
    exact State.Aside.when h₃ _ fun h => h.setB _

theorem State.Aside.connect (h : s.Aside t) (f : Fin 3) : s.Aside (t.connect f) := by
  unfold State.connect
  exact State.Aside.ite h (h.hidden rfl rfl)

theorem State.Aside.evalFeedSel (h : s.Aside t) : s.Aside t.evalFeedSel := by
  unfold State.evalFeedSel
  split
  · exact State.Aside.when h _ fun h => State.Aside.each h _ fun f h => h.connect f
  · split
    · split
      · exact h.connect _
      · exact h
    · exact h

theorem State.Aside.seqDecide (h : s.Aside t) (step dir dec : Nat) : s.Aside (t.seqDecide step dir dec) := by
  refine State.Aside.histAdd ?_ _
  exact h.hidden rfl rfl

theorem State.Aside.stepUp (h : s.Aside t) (k : Nat) : s.Aside (t.stepUp k) := by
  have hstep : s.Aside ((t.setF F.SEQ_STAT_STEP 0 k).setF F.SEQ_STAT_HIGHEST 0 (Nat.max k (t.f F.SEQ_STAT_HIGHEST))) :=
    State.Aside.setF (State.Aside.setF h _) _
  have hb : s.Aside (t.upBegun k) := by
    unfold State.upBegun
    exact State.Aside.hidden (hstep.seqDecide k 0 1) rfl rfl
  unfold State.stepUp
  refine State.Aside.when (State.Aside.thenLocal hb (State.Local.each (State.Local.refl _) _ fun n h => h.clStart n)
    (State.each_clk _ _ State.clStart_clk)) _ fun h => h.hidden rfl rfl

theorem State.Aside.sequpEntry (h : s.Aside t) : s.Aside t.sequpEntry := by
  unfold State.sequpEntry
  extract_lets s₁ s₂ s₃ s₄
  have h₂ : s.Aside s₂ := (h.enter _).setReg 0
  have h₃ : s.Aside s₃ := h₂.thenLocal (State.Local.each (State.Local.refl s₂) _ fun n h =>
    State.Local.updCl (State.Local.setClB (State.Local.setCl (State.Local.setClB h n _) n _) n _) n _) (State.each_clk _ _ fun _ _ => rfl)
  have h₄ : s.Aside s₄ := State.Aside.setB (State.Aside.setB (State.Aside.setF (State.Aside.setB (State.Aside.setB h₃ _) _) _) _) _
  exact h₄.evalFeedSel.evalBen.stepUp 0

theorem State.sequpEntry_dev (s : State) : s.sequpEntry.dev = .sequp := by
  have hk : (s.enter .sequp).Keeps s.sequpEntry := by
    unfold State.sequpEntry
    refine State.stepUp_keeps (State.evalBen_keeps (State.evalFeedSel_keeps (State.setB_keeps (State.setB_keeps (State.setF_keeps
      (State.setB_keeps (State.setB_keeps (State.each_keeps' (State.setReg_keeps (State.keeps_refl _) _ _) _ fun n h => ?_) _ _ _) _ _ _) _ _ _)
      _ _ _) _ _ _))) 0
    exact State.updCl_keeps (State.setB_keeps (State.setF_keeps (State.setB_keeps h _ _ _) _ _ _) _ _ _) _ _
  exact hk.dev.trans (s.enter_dev .sequp)

/-- In STANDBY the request is stored, a fallen request clears UPFAIL, and the start rule follows (R33, R34). -/
def State.requestStored (s : State) : State :=
  let v := s.onreqVal && s.dev != .boot && !s.noImg
  (s.setB F.DEV_STATE_ONREQ 0 v).when (s.fB F.DEV_STATE_ONREQ && !v) fun t => t.setB F.SEQ_STAT_UPFAIL 0 false

theorem State.requestStored_dev (s : State) : s.requestStored.dev = s.dev := by
  unfold State.requestStored State.when
  dsimp only
  split <;> rfl

theorem State.evalOnreq_of_standby (h : s.dev = .standby) : s.evalOnreq = s.requestStored.evalStart := by
  unfold State.evalOnreq
  extract_lets old v s₁ s₂ s₃
  have hd₁ : s₁.dev = .standby := h
  have h₂ : s₂ = s.requestStored := by
    unfold State.requestStored
    change State.when s₁ _ _ = State.when s₁ _ _
    unfold State.when
    split
    · simp only [State.setB_dev, hd₁]
    · rfl
  have hd₂ : s₂.dev = .standby := by rw [h₂, State.requestStored_dev, h]
  have h₃ : s₃ = s₂ := by
    change State.when s₂ _ _ = s₂
    unfold State.when
    split
    · simp only [hd₂]
    · rfl
  rw [h₃, h₂]

theorem State.Aside.requestStored (h : s.Aside t) : s.Aside t.requestStored := State.Aside.when (h.setB _) _ fun h => h.setB _

theorem State.evalOnreq_aside (h : s.dev = .standby) : s.Aside s.evalOnreq := by
  rw [State.evalOnreq_of_standby h, State.evalStart]
  have hs := (State.Aside.refl s).requestStored
  exact State.Aside.ite hs.sequpEntry hs

/-- From STANDBY the evaluation of the request ends in STANDBY, or in SEQUP where the request stands (R34). -/
theorem State.evalOnreq_dev (h : s.dev = .standby) :
    s.evalOnreq.dev = .standby ∨ (s.evalOnreq.dev = .sequp ∧ s.evalOnreq.fB F.DEV_STATE_ONREQ = true) := by
  have hreq := (State.Guards.refl s.requestStored).evalStart.request.fB (fl := F.DEV_STATE_ONREQ) (i := 0) (by decide)
  rw [State.evalOnreq_of_standby h]
  rw [hreq, State.evalStart]
  split
  case isTrue hc =>
    simp only [Bool.and_eq_true] at hc
    exact .inr ⟨State.sequpEntry_dev _, hc.1.2⟩
  case isFalse => exact .inl ((State.requestStored_dev s).trans h)

/-- What the entry to STANDBY from BOOT records and evaluates, before the request (R68, R211, R282, R384). -/
def State.standbyRecorded (s : State) (failed : List (Bool × Nat)) : State :=
  let s := s.setB F.SUPV_STAT_HDONE 0 (s.fB F.SUPV_STAT_FFOPEN)
  let s := s.each failed (fun s p => s.record 6 [item p.1.toNat, item p.2])
  let s := s.record 5 [s.reg 0x21, s.reg 0x3300, s.reg 0x3301]
  let s := s.when s.owl.clrPend State.finishClear
  let s := s.setB F.BAT_DMSTAT_WOKE 0 (s.f F.DEV_PWRSTAT_BCAUSE == 5)
  s.reseatAtBoot.evalBen

theorem State.enterStandby_eq (s : State) (failed : List (Bool × Nat)) :
    s.enterStandby failed = (State.standbyRecorded { s.enter .standby with clk := { s.clk with tmr := 0 } } failed).evalOnreq := rfl

theorem State.Aside.finishClear (h : s.Aside t) : s.Aside t.finishClear := by
  unfold State.finishClear
  refine State.Aside.setB (State.Aside.setB (State.Aside.setB (State.Aside.setF (State.Aside.setF (State.Aside.setReg
    (State.Aside.setReg (State.Aside.hidden h ?_ ?_) 0) 0) _) _) _) _) _ <;> rfl

theorem State.Aside.saveState (h : s.Aside t) : s.Aside t.saveState := by
  refine h.hidden t.saveState_regs ?_
  unfold State.saveState
  split <;> rfl

theorem State.Aside.clearTrips (h : s.Aside t) : s.Aside t.clearTrips := by
  have htrip : ∀ f : Fin 3, F.FEED_STAT_TRIPLAT.addr f ≠ 0x3300 := by decide
  exact State.Aside.saveState (State.Aside.setB (State.Aside.setB (State.Aside.setF (State.Aside.each h _ fun f h =>
    h.setB _ (htrip f)) _) _) _)

theorem State.Aside.reseatAtBoot (h : s.Aside t) : s.Aside t.reseatAtBoot := by
  unfold State.reseatAtBoot
  refine State.Aside.hidden (State.Aside.when h _ fun h => ?_) rfl rfl
  exact State.Aside.when (State.Aside.saveState (h.setB _)) _ State.Aside.clearTrips

theorem State.standbyRecorded_aside (s : State) (failed : List (Bool × Nat)) : s.Aside (s.standbyRecorded failed) := by
  refine State.Aside.evalBen (State.Aside.reseatAtBoot (State.Aside.setB (State.Aside.when (State.Aside.record (State.Aside.each
    (State.Aside.setB (State.Aside.refl s) _) failed fun p h => ?_) _ _) _ State.Aside.finishClear) _))
  exact h.record _ _

theorem State.standbyRecorded_dev (s : State) (failed : List (Bool × Nat)) : (s.standbyRecorded failed).dev = s.dev := by
  refine State.Keeps.dev (State.evalBen_keeps (State.reseatAtBoot_keeps (State.setB_keeps (State.when_keeps (State.record_keeps
    (State.each_keeps' (State.setB_keeps (State.keeps_refl s) _ _ _) failed fun p h => ?_) _ _) _ State.finishClear_keeps) _ _ _)))
  exact State.record_keeps h _ _

/-- The entry to STANDBY restarts the tick count and leaves BOOT's report (R65, R406). -/
theorem State.enterStandby_report (s : State) (failed : List (Bool × Nat)) :
    (s.enterStandby failed).clk.tmr = 0 ∧ (s.enterStandby failed).reg 0x3300 = s.reg 0x3300 := by
  let v : State := { s.enter .standby with clk := { s.clk with tmr := 0 } }
  have hrec := v.standbyRecorded_aside failed
  have hreq := State.evalOnreq_aside ((v.standbyRecorded_dev failed).trans (s.enter_dev .standby))
  rw [State.enterStandby_eq]
  have h := hrec.trans hreq
  refine ⟨by rw [h.clk], h.word.trans ?_⟩
  exact (s.enter_entered .standby).word _ (by decide)

theorem State.enterStandby_dev (s : State) (failed : List (Bool × Nat)) : (s.enterStandby failed).dev = .standby ∨
    ((s.enterStandby failed).dev = .sequp ∧ (s.enterStandby failed).fB F.DEV_STATE_ONREQ = true) := by
  rw [State.enterStandby_eq]
  exact State.evalOnreq_dev ((State.standbyRecorded_dev _ failed).trans (s.enter_dev .standby))

/-- In recovery the request is refused, so that the device stays in STANDBY (R33, R69). -/
theorem State.enterStandby_of_noImg (h : s.noImg = true) (failed : List (Bool × Nat)) :
    (s.enterStandby failed).fB F.DEV_STATE_ONREQ = false := by
  have hword := (State.standbyRecorded_aside { s.enter .standby with clk := { s.clk with tmr := 0 } } failed).word.trans
    ((s.enter_entered .standby).word 0x3300 (by decide))
  have hno : (State.standbyRecorded { s.enter .standby with clk := { s.clk with tmr := 0 } } failed).noImg = true := by
    rw [← h]
    exact congrArg (fun w => F.IMG_BOOTSTAT_NOIMG.get w != 0) hword
  rw [State.enterStandby_eq, State.evalOnreq_onreq, hno]
  exact Bool.and_false _

end Sys2Proof.Machine
end

section
/-! SUPPORT. The ends of BOOT: an image that runs, and recovery (R65 to R69, R406). -/

namespace Sys2Proof.Machine

variable {s t u : State}

/-! ### IMG_BOOTSTAT -/

/-- BOOT's report: the slot, whether it is the fallback, recovery, and the two slots' codes (R67 to R69). -/
structure State.Reports (t : State) (slot : Nat) (fallback : Bool) (errA errB : Nat) : Prop where
  slotShown : t.f F.IMG_BOOTSTAT_SLOT = slot % 4
  fallbackShown : t.fB F.IMG_BOOTSTAT_FALLBACK = fallback
  noImg : t.noImg = (slot == 3)
  errAShown : t.f F.IMG_BOOTSTAT_ERR_A = errA % 256
  errBShown : t.f F.IMG_BOOTSTAT_ERR_B = errB % 256

/-- The fields of BOOT's report. -/
def reportFields : List (Fld × Nat) :=
  [(F.IMG_BOOTSTAT_SLOT, 0), (F.IMG_BOOTSTAT_FALLBACK, 0), (F.IMG_BOOTSTAT_NOIMG, 0), (F.IMG_BOOTSTAT_ERR_A, 0),
    (F.IMG_BOOTSTAT_ERR_B, 0)]

theorem State.SameFields.ofWord (h : t.reg 0x3300 = s.reg 0x3300) : s.SameFields reportFields t := by
  have hw : ∀ p ∈ reportFields, p.1.addr p.2 = 0x3300 := by decide
  intro p hp
  simp only [State.f, hw p hp, h]

variable {slot errA errB : Nat} {fallback : Bool}

theorem State.Reports.sameFields (h : s.Reports slot fallback errA errB) (k : s.SameFields reportFields t) :
    t.Reports slot fallback errA errB where
  slotShown := (k (F.IMG_BOOTSTAT_SLOT, 0) (by decide)).trans h.slotShown
  fallbackShown := (k.fB (fl := F.IMG_BOOTSTAT_FALLBACK) (by decide)).trans h.fallbackShown
  noImg := (k.fB (fl := F.IMG_BOOTSTAT_NOIMG) (by decide)).trans h.noImg
  errAShown := (k (F.IMG_BOOTSTAT_ERR_A, 0) (by decide)).trans h.errAShown
  errBShown := (k (F.IMG_BOOTSTAT_ERR_B, 0) (by decide)).trans h.errBShown

/-- The report, as its fields are stored. -/
def State.reported (s : State) (slot : Nat) (fallback : Bool) (errA errB : Nat) : State :=
  let s := ((s.setF F.IMG_BOOTSTAT_SLOT 0 slot).setB F.IMG_BOOTSTAT_FALLBACK 0 fallback).setB F.IMG_BOOTSTAT_NOIMG 0 (slot == 3)
  (s.setF F.IMG_BOOTSTAT_ERR_A 0 errA).setF F.IMG_BOOTSTAT_ERR_B 0 errB

theorem State.reported_reports (s : State) (slot : Nat) (fallback : Bool) (errA errB : Nat) :
    (s.reported slot fallback errA errB).Reports slot fallback errA errB := by
  let s₁ := s.setF F.IMG_BOOTSTAT_SLOT 0 slot
  let s₂ := s₁.setB F.IMG_BOOTSTAT_FALLBACK 0 fallback
  let s₃ := s₂.setB F.IMG_BOOTSTAT_NOIMG 0 (slot == 3)
  let s₄ := s₃.setF F.IMG_BOOTSTAT_ERR_A 0 errA
  let s₅ := s₄.setF F.IMG_BOOTSTAT_ERR_B 0 errB
  have h₄ : s₄.SameFields [(F.IMG_BOOTSTAT_ERR_A, 0)] s₅ := (State.SameFields.refl s₄).setF _
  have h₃ : s₃.SameFields [(F.IMG_BOOTSTAT_NOIMG, 0)] s₅ := State.SameFields.setF (State.SameFields.setF (State.SameFields.refl s₃) _) _
  have h₂ : s₂.SameFields [(F.IMG_BOOTSTAT_FALLBACK, 0)] s₅ :=
    State.SameFields.setF (State.SameFields.setF (State.SameFields.setB (State.SameFields.refl s₂) _) _) _
  have h₁ : s₁.SameFields [(F.IMG_BOOTSTAT_SLOT, 0)] s₅ := State.SameFields.setF (State.SameFields.setF (State.SameFields.setB
    (State.SameFields.setB (State.SameFields.refl s₁) _) _) _) _
  exact {
    slotShown := (h₁ _ (List.mem_singleton.mpr rfl)).trans (s.f_setF_self (by decide) 0 slot)
    fallbackShown := (h₂.fB (List.mem_singleton.mpr rfl)).trans (s₁.fB_setB_self (by decide) rfl 0 fallback)
    noImg := (h₃.fB (List.mem_singleton.mpr rfl)).trans (s₂.fB_setB_self (by decide) rfl 0 _)
    errAShown := (h₄ _ (List.mem_singleton.mpr rfl)).trans (s₃.f_setF_self (by decide) 0 errA)
    errBShown := s₄.f_setF_self (by decide) 0 errB }

theorem State.bootReport_reports (s : State) (i : BootInput) (slot : Nat) (fallback : Bool) (errA errB : Nat) :
    (s.bootReport i slot fallback errA errB).Reports slot fallback errA errB := by
  refine (s.reported_reports slot fallback errA errB).sameFields ?_
  unfold State.bootReport
  extract_lets s₁ s₂ s₃
  have h₂ : (s.reported slot fallback errA errB).SameFields reportFields s₂ := (State.SameFields.refl _).setF _
  have h₃ : (s.reported slot fallback errA errB).SameFields reportFields s₃ := by
    change State.SameFields reportFields _ (match i.flash with | some d => _ | none => _)
    split
    · exact State.SameFields.setF (State.SameFields.setF (h₂.setF _) _) _
    · exact h₂
  exact h₃.setF _

/-! ### What follows the report -/

theorem State.Aside.showBootRec (h : s.Aside t) : s.Aside t.showBootRec :=
  State.Aside.setF (State.Aside.setB (State.Aside.setB (State.Aside.setB (State.Aside.setF (State.Aside.setB
    (State.Aside.setB (State.Aside.setB h _) _) _) _) _) _) _) _

theorem State.Aside.setBootRec (h : s.Aside t) (g : BootRec → BootRec) : s.Aside (t.setBootRec g) := by
  refine State.Aside.showBootRec ?_
  exact h.hidden rfl rfl

/-- The raise of a source of the service core. -/
theorem State.Aside.raiseService (h : s.Aside t) {src : Nat} (hl : 0x259 ≤ src) (hu : src < 0x2E0) : s.Aside (t.raise src) :=
  h.trans ⟨t.raise_clk src, (t.raise_service hl hu).2.2 0x3300 (by decide) (by decide)⟩

theorem State.Aside.setPins (h : s.Aside t) (p : Pins) : s.Aside { t with pins := p } := h.hidden rfl rfl

theorem State.Aside.restoreNvm (h : s.Aside t) : s.Aside t.restoreNvm := by
  unfold State.restoreNvm
  extract_lets n s₁ s₂ s₃ s₄ s₅ s₆
  have htrip : ∀ f : Fin 3, F.FEED_STAT_TRIPLAT.addr f ≠ 0x3300 ∧ F.FEED_STAT_CAUSE.addr f ≠ 0x3300 := by decide
  have htsd : ∀ k : Fin 16, F.CL_THSTAT_TSD.addr k ≠ 0x3300 := by decide
  have h₁ : s.Aside s₁ := State.Aside.each h _ fun f h => State.Aside.setF (h.setB _ (htrip f).1) _ (htrip f).2
  have h₂ : s.Aside s₂ := State.Aside.setB (State.Aside.setF (State.Aside.setB h₁ _) _) _
  have h₃ : s.Aside s₃ := State.Aside.setB (State.Aside.setB h₂ _) _
  have h₄ : s.Aside s₄ := State.Aside.setF h₃ _
  have h₅ : s.Aside s₅ := State.Aside.each h₄ _ fun k h => State.Aside.hidden (h.setB _ (htsd k)) rfl rfl
  have h₆ : s.Aside s₆ := State.Aside.setF (State.Aside.setReg h₅ _) _
  exact h₆.showBootRec

theorem State.Aside.startBat (h : s.Aside t) (i : Fin 6) : s.Aside (t.startBat i) := by
  have hrest : ∀ i : Fin 6, F.BAT_STAT_UNRESTORED.addr i ≠ 0x3300 := by decide
  unfold State.startBat
  refine State.Aside.setB ?_ true (hrest i)
  exact h.hidden rfl rfl

theorem State.Aside.lanes (h : s.Aside t) (i : BootInput) : s.Aside (t.lanes i) := by
  unfold State.lanes
  split
  · exact h
  · refine State.Aside.each (h.setF _) _ fun p h => State.Aside.when h _ fun {u} h => ?_
    have hfail : s.Aside (u.updPh p fun u => { u with laneFail := true }) := h.hidden rfl rfl
    exact hfail.thenLocal ((State.Local.refl _).raise (by unfold Src.phLane; omega)) (State.raise_clk _ _)

theorem State.Aside.beginChannels (h : s.Aside t) : s.Aside t.beginChannels := by
  have hrun : ∀ n : Fin 64, F.CH_STAT_RUN.addr n ≠ 0x3300 ∧ F.CH_STAT_WAIT.addr n ≠ 0x3300 := by decide
  refine State.Aside.each h _ fun n h => State.Aside.when h _ fun h => ?_
  refine State.Aside.setB (State.Aside.setB ?_ _ (hrun n).1) _ (hrun n).2
  exact h.hidden rfl rfl

/-- What an accepted image starts leaves the report alone (R397, R406). -/
theorem State.runImage_report (s : State) (i : BootInput) (im : Image) (slot fallback : Bool) (errA errB : Nat) (failed : List (Bool × Nat)) :
    ∃ u : State, s.runImage i im slot fallback errA errB failed = u.enterStandby failed ∧ u.Reports slot.toNat fallback errA errB := by
  unfold State.runImage
  extract_lets t₁ t₂ t₃ t₄ t₅ t₆ t₇ t₈ t₉ pins t₁₀ t₁₁ t₁₂
  have hrep : t₂.Reports slot.toNat fallback errA errB := t₁.bootReport_reports i slot.toNat fallback errA errB
  have hdebug : t₂.SameFields reportFields (t₂.setB F.IMG_BOOTSTAT_DEBUG_EN 0 im.debug) := (State.SameFields.refl t₂).setB _
  have h₃ : (t₂.setB F.IMG_BOOTSTAT_DEBUG_EN 0 im.debug).Aside t₃ := State.Aside.setF (State.Aside.setF (State.Aside.refl _) _) _
  have h₆ : t₃.Aside t₆ := State.Aside.setF (State.Aside.setF (State.Aside.setB (State.Aside.setReg (State.Aside.refl t₃) _) _) _) _
  have hbat : t₆.Aside (t₆.restoreNvm.each (List.finRange 6) State.startBat) :=
    State.Aside.each (State.Aside.refl t₆).restoreNvm _ fun i h => h.startBat i
  have h₇ : t₆.Aside t₇ := hbat.lanes i
  have hcl (t : State) (n : Fin 16) : t.Local ((t.setB F.CL_INJ_EN n false).when (t.clInUse n) fun t => t.evalOlim n) :=
    State.Local.when ((State.Local.refl t).setClB n false) _ fun h => h.evalOlim n
  have hclk (t : State) (n : Fin 16) : State.clk ((t.setB F.CL_INJ_EN n false).when (t.clInUse n) fun t => t.evalOlim n) = t.clk :=
    State.when_clk _ _ fun u => u.evalOlim_clk n
  have h₉ : t₇.Aside t₉ := State.Aside.beginChannels (State.Aside.each (State.Aside.refl t₇) _ fun n h => h.thenLocal (hcl _ n) (hclk _ n))
  have h₁₀ : t₉.Aside t₁₀ := State.Aside.setPins (State.Aside.refl t₉) _
  have h₁₁ : t₁₀.Aside t₁₁ := State.Aside.when (State.Aside.refl t₁₀) _ fun h => h.setF _
  have h₁₂ : t₁₁.Aside t₁₂ := State.Aside.when (State.Aside.refl t₁₁) _ fun h =>
    State.Aside.record ((h.setBootRec _).raiseService (by decide) (by decide)) _ _
  exact ⟨t₁₂, rfl, (hrep.sameFields hdebug).sameFields (State.SameFields.ofWord
    (h₃.trans (h₆.trans (h₇.trans (h₉.trans (h₁₀.trans (h₁₁.trans h₁₂)))))).word)⟩

/-! ### The two outcomes -/

/-- Recovery ends BOOT in STANDBY, with the request refused (R69). -/
theorem State.recover_ends {i : BootInput} {failed : List (Bool × Nat)} (ht : t = s.recover i errA errB failed) :
    t.dev = .standby ∧ t.fB F.DEV_STATE_ONREQ = false ∧ t.clk.tmr = 0 ∧ t.Reports 3 false errA errB := by
  let r := s.bootReport i 3 false errA errB
  have haside : r.Aside (r.restoreNvm.setB F.IMG_OVLSTAT_NONE 0 true) := (State.Aside.refl r).restoreNvm.setB true
  have hrep := (s.bootReport_reports i 3 false errA errB).sameFields (State.SameFields.ofWord haside.word)
  replace ht : t = (r.restoreNvm.setB F.IMG_OVLSTAT_NONE 0 true).enterStandby failed := ht
  generalize r.restoreNvm.setB F.IMG_OVLSTAT_NONE 0 true = u at hrep ht
  subst ht
  have honreq := State.enterStandby_of_noImg hrep.noImg failed
  obtain ⟨htmr, hword⟩ := u.enterStandby_report failed
  refine ⟨?_, honreq, htmr, hrep.sameFields (State.SameFields.ofWord hword)⟩
  refine (u.enterStandby_dev failed).resolve_right fun h => ?_
  exact Bool.false_ne_true (honreq.symm.trans h.2)

/-- The candidate takes the image's role and level. -/
theorem State.candidate_image (s : State) (im : Image) : (s.candidate im).img.role = im.role ∧ (s.candidate im).img.blevel = im.blevel := by
  have himg : (s.candidate im).img = { s.img with
      role := im.role, blevel := im.blevel, own := im.own, defaults := im.defaults, ovlHash := im.ovlHash, signer := im.signer } := by
    unfold State.candidate
    refine Eq.trans (State.each_frame (π := State.img) (fun t w => ?_) im.windows _) (State.each_frame (π := State.img)
      (fun t p => ?_) im.defaults _)
    · refine State.each_frame (π := State.img) (fun _ _ => ?_) (w.2.zip (List.range 256)) t
      rfl
    · split <;> rfl
  rw [himg]
  exact ⟨rfl, rfl⟩

theorem toNat_mod_four (b : Bool) : b.toNat % 4 = b.toNat := by cases b <;> rfl

theorem toNat_ne_three (b : Bool) : (b.toNat == 3) = false := by cases b <;> rfl

/-- An image that runs ends BOOT with its role, its level and its report (R67, R68). -/
theorem State.runImage_ends (hd : s.dev = .boot) {i : BootInput} {im : Image} {slot : Bool} {failed : List (Bool × Nat)}
    (ht : t = s.runImage i im slot fallback errA errB failed) : (t.dev = .standby ∨ t.dev = .sequp) ∧ t.clk.tmr = 0 ∧
      t.img.role = im.role ∧ t.img.blevel = im.blevel ∧ t.noImg = false ∧ t.f F.IMG_BOOTSTAT_SLOT = slot.toNat ∧
      t.fB F.IMG_BOOTSTAT_FALLBACK = fallback := by
  have hmoves := s.runImage_moves hd i im slot fallback errA errB failed
  obtain ⟨hrole, hlevel⟩ := s.candidate_image im
  obtain ⟨u, hrun, hrep⟩ := s.runImage_report i im slot fallback errA errB failed
  obtain ⟨htmr, hword⟩ := u.enterStandby_report failed
  have hdev := (u.enterStandby_dev failed).imp_right And.left
  have hend := hrep.sameFields (State.SameFields.ofWord hword)
  rw [← hrun, ← ht] at hdev htmr hend
  rw [← ht] at hmoves
  exact ⟨hdev, htmr, hmoves.role.trans hrole, hmoves.blevel.trans hlevel, hend.noImg.trans (toNat_ne_three slot),
    hend.slotShown.trans (toNat_mod_four slot), hend.fallbackShown⟩

end Sys2Proof.Machine
end

section
/-! THE STATEMENT ON THE END OF BOOT AND THE MIGRATED OVERLAY (O35). -/

namespace Sys2Proof.Machine

variable {s : State} {i : BootInput}

/-! ### The end of BOOT -/

/-- The code of a slot, from those of the slot tried first and of the other one. -/
def slotErr (first slot : Bool) (ca cb : Nat) : Nat := if slot = first then ca else cb

theorem State.strapped_eq (s : State) (i : BootInput) : s.strapped i = s.when (s.f F.DEV_PWRSTAT_BCAUSE != 4) (fun s =>
    s.setF F.DEV_PWRSTAT_STRAP 0 (4 * strapLevel i.adr1.toNat + strapLevel i.adr0.toNat)) := by
  unfold State.strapped State.when
  by_cases h : s.f F.DEV_PWRSTAT_BCAUSE = 4 <;> simp [h]

theorem State.strapped_dev (s : State) (i : BootInput) : (s.strapped i).dev = s.dev := by
  unfold State.strapped
  split <;> rfl

theorem State.strapped_firstSlot (s : State) (i : BootInput) : (s.strapped i).firstSlot = s.firstSlot := by
  unfold State.strapped
  split
  · rfl
  · unfold State.firstSlot
    rw [State.f_setF_apart _ (by decide) (by decide), State.f_setF_ne _ (by decide)]
    rfl

/-- BOOT as it ends, its conditions met: the slot tried first, the other one, or recovery (R65 to R69). -/
def State.bootEnd (s : State) (i : BootInput) (a : Bool) : State :=
  let r := s.trySlot i a
  let q := s.trySlot i (!a)
  match r.2 with
  | some im => s.runImage i im a false (slotErr a false 0 0xFF) (slotErr a true 0 0xFF) []
  | none =>
    match q.2 with
    | some im => s.runImage i im (!a) true (slotErr a false r.1 0) (slotErr a true r.1 0) [(a, r.1)]
    | none => s.recover i (slotErr a false r.1 q.1) (slotErr a true r.1 q.1) [(a, r.1), (!a, q.1)]

theorem exec_bootComplete (hd : s.dev = .boot) (hr : s.bootReady = true) (hw : s.power.hotWait = false)
    (hl : s.f F.DEV_PWRSTAT_LSTAGE = 0) : exec (.bootComplete i) s = .next ((s.strapped i).bootEnd i s.firstSlot) := by
  have hgo : ¬(s.dev != .boot || !s.bootReady || s.power.hotWait || s.f F.DEV_PWRSTAT_LSTAGE != 0) = true := by simp [hd, hr, hw, hl]
  refine (if_neg hgo).trans ?_
  rw [← State.strapped_eq, State.strapped_firstSlot]
  unfold State.bootEnd
  dsimp only
  cases ((s.strapped i).trySlot i s.firstSlot).2 with
  | some im => rfl
  | none => cases ((s.strapped i).trySlot i (!s.firstSlot)).2 <;> rfl

/-- The codes as the slots' own (R67). -/
theorem slotErr_trySlot (s : State) (i : BootInput) (a slot : Bool) :
    slotErr a slot (s.trySlot i a).1 (s.trySlot i (!a)).1 = (s.trySlot i slot).1 := by
  cases a <;> cases slot <;> rfl

variable {a : Bool} {im : Image}

theorem State.bootEnd_of_first (h : (s.trySlot i a).2 = some im) : ∃ errA errB, s.bootEnd i a = s.runImage i im a false errA errB [] := by
  unfold State.bootEnd
  dsimp only
  rw [h]
  exact ⟨_, _, rfl⟩

theorem State.bootEnd_of_other (hfirst : (s.trySlot i a).2 = none) (h : (s.trySlot i (!a)).2 = some im) :
    ∃ errA errB failed, s.bootEnd i a = s.runImage i im (!a) true errA errB failed := by
  unfold State.bootEnd
  dsimp only
  rw [hfirst, h]
  exact ⟨_, _, _, rfl⟩

theorem State.bootEnd_of_none (hfirst : (s.trySlot i a).2 = none) (h : (s.trySlot i (!a)).2 = none) :
    ∃ failed, s.bootEnd i a = s.recover i (s.trySlot i false).1 (s.trySlot i true).1 failed := by
  unfold State.bootEnd
  dsimp only
  rw [hfirst, h, slotErr_trySlot, slotErr_trySlot]
  exact ⟨_, rfl⟩

/-- Without a flash no slot is read (R65). -/
theorem State.trySlot_of_noFlash (s : State) (h : i.flash = none) (slot : Bool) : s.trySlot i slot = (1, none) := by
  unfold State.trySlot
  rw [h]
  rfl

/-! ### The migrated overlay (R77) -/

/-- The bank beside the one the overlay came from. -/
theorem otherBank_ne (p : Prop) [Decidable p] : (if p then (0 : Fin 2) else 1) ≠ if p then 1 else 0 := by split <;> decide

theorem overlayMigrationWrite_completes {b : Bank} (hb : s.img.migrBank = some b) (hp : s.fB F.IMG_OVLSTAT_MIGR_PEND = true)
    (hd : s.dev ≠ .boot) (ho : s.nvmOpen = true) :
    completes .overlayMigrationWrite s (fun t => t.nvm.banks.get (if s.f F.IMG_OVLSTAT_BANK = 0 then 1 else 0) = some b ∧
      t.nvm.banks.get (if s.f F.IMG_OVLSTAT_BANK = 0 then 0 else 1) = s.nvm.banks.get (if s.f F.IMG_OVLSTAT_BANK = 0 then 0 else 1) ∧
      t.img.migrBank = none ∧ t.fB F.IMG_OVLSTAT_MIGR_PEND = false ∧
      State.onlyRegs { s with nvm := t.nvm, img := { s.img with migrBank := none } } t [F.IMG_OVLSTAT_MIGR_PEND.addr 0]) := by
  let u := s.putBank (if s.f F.IMG_OVLSTAT_BANK = 0 then 1 else 0) b
  have hgo : (s.fB F.IMG_OVLSTAT_MIGR_PEND && s.dev != .boot && s.nvmOpen) = true := by simp [hp, hd, ho]
  have hexec : exec .overlayMigrationWrite s =
      .next (State.setB { u with img := { u.img with migrBank := none } } F.IMG_OVLSTAT_MIGR_PEND 0 false) := by
    change execOverlayMigrationWrite s = _
    unfold execOverlayMigrationWrite
    rw [hb]
    exact if_pos hgo
  exact ⟨_, hexec, get_set_self _ _ _, get_set_ne _ (otherBank_ne _) _, rfl, State.fB_setB_self _ (by decide) rfl 0 false,
    State.onlyRegs_setF _ _ 0 _⟩

/-- Settles O35: the end of BOOT by the slots' outcomes, whose report no later operation of the entry to STANDBY touches, and the write of
the migrated overlay. -/
theorem bootEndsAndMigratedOverlayIsWritten : Obligations.BootEndsAndMigratedOverlayIsWritten := by
  refine ⟨fun s i hd hr hw hl => ?_, fun s i hd hr hw hl hf => ?_, fun s b hb hp hd ho => overlayMigrationWrite_completes hb hp hd ho⟩
  · have hexec := exec_bootComplete (i := i) hd hr hw hl
    have hloads := (execBootComplete_loads i s).out _ hexec
    have hboot := (s.strapped_dev i).trans hd
    refine ⟨_, hexec, ?_⟩
    cases hfirst : ((s.strapped i).trySlot i s.firstSlot).2 with
    | some im =>
      obtain ⟨errA, errB, hend⟩ := State.bootEnd_of_first hfirst
      obtain ⟨hdev, htmr, hshown⟩ := State.runImage_ends hboot hend
      exact ⟨hdev, htmr, hloads.pending, hloads.flash, fun _ h => Option.some.inj h ▸ hshown, nofun, nofun⟩
    | none =>
      cases hother : ((s.strapped i).trySlot i (!s.firstSlot)).2 with
      | some im =>
        obtain ⟨errA, errB, failed, hend⟩ := State.bootEnd_of_other hfirst hother
        obtain ⟨hdev, htmr, hshown⟩ := State.runImage_ends hboot hend
        exact ⟨hdev, htmr, hloads.pending, hloads.flash, nofun, fun _ _ h => Option.some.inj h ▸ hshown, nofun⟩
      | none =>
        obtain ⟨failed, hend⟩ := State.bootEnd_of_none hfirst hother
        obtain ⟨hdev, honreq, htmr, hrep⟩ := State.recover_ends hend
        exact ⟨.inl hdev, htmr, hloads.pending, hloads.flash, nofun, nofun,
          fun _ _ => ⟨hdev, hrep.noImg, hrep.slotShown, honreq, hrep.errAShown, hrep.errBShown⟩⟩
  · have htry := (s.strapped i).trySlot_of_noFlash hf
    obtain ⟨failed, hend⟩ := State.bootEnd_of_none (a := s.firstSlot) (by rw [htry]) (by rw [htry])
    rw [htry, htry] at hend
    obtain ⟨hdev, -, -, hrep⟩ := State.recover_ends hend
    exact ⟨_, exec_bootComplete hd hr hw hl, hdev, hrep.noImg, hrep.errAShown, hrep.errBShown⟩

end Sys2Proof.Machine
end

section
/-! SUPPORT. What leaves DEV_STATE alone: the equations of `State.dev` under the operations that no transition of R31 is part of. -/

namespace Sys2Proof.Machine

variable {s t u : State}

@[simp] theorem State.lower_dev (src : Nat) : (t.lower src).dev = t.dev := (State.lower_keeps (State.keeps_refl t) src).dev
@[simp] theorem State.record_dev (ty : Nat) (payload : List Word) : (t.record ty payload).dev = t.dev :=
  (State.record_keeps (State.keeps_refl t) ty payload).dev
@[simp] theorem State.recordSrc_dev (src : Nat) (sub : Nat) (items : List Word) : (t.recordSrc src sub items).dev = t.dev :=
  (State.recordSrc_keeps (State.keeps_refl t) src sub items).dev
@[simp] theorem State.histAdd_dev (code : Word) : (t.histAdd code).dev = t.dev := (State.histAdd_keeps (State.keeps_refl t) code).dev
@[simp] theorem State.resBusy_dev (cls : Nat) (idx : Nat) : (t.resBusy cls idx).dev = t.dev :=
  (State.resBusy_keeps (State.keeps_refl t) cls idx).dev
@[simp] theorem State.latch_dev (fl : Fld) (page : Nat) (bits : Nat) : (t.latch fl page bits).dev = t.dev :=
  (State.latch_keeps (State.keeps_refl t) fl page bits).dev
@[simp] theorem State.raise_dev (src : Nat) : (t.raise src).dev = t.dev := (State.raise_keeps (State.keeps_refl t) src).dev
@[simp] theorem State.follow_dev (src : Nat) (b : Bool) : (t.follow src b).dev = t.dev :=
  (State.follow_keeps (State.keeps_refl t) src b).dev
@[simp] theorem State.evalAlert_dev : t.evalAlert.dev = t.dev := (State.evalAlert_keeps (State.keeps_refl t)).dev
@[simp] theorem State.draw_dev : t.draw.2.dev = t.dev := (State.draw_keeps (State.keeps_refl t)).dev
@[simp] theorem State.saveState_dev : t.saveState.dev = t.dev := (State.saveState_keeps (State.keeps_refl t)).dev
@[simp] theorem State.accepted_dev (addr : Nat) (code : Nat) : (t.accepted addr code).dev = t.dev :=
  (State.accepted_keeps (State.keeps_refl t) addr code).dev
@[simp] theorem State.injAbort_dev (n : Fin 16) : (t.injAbort n).dev = t.dev := (State.injAbort_keeps (State.keeps_refl t) n).dev
@[simp] theorem State.evalPwrgd_dev : t.evalPwrgd.dev = t.dev := (State.evalPwrgd_keeps (State.keeps_refl t)).dev
@[simp] theorem State.clOff_dev (n : Fin 16) : (t.clOff n).dev = t.dev := (State.clOff_keeps (State.keeps_refl t) n).dev
@[simp] theorem State.setActive_dev (n : Fin 16) (m : Nat) : (t.setActive n m).dev = t.dev :=
  (State.setActive_keeps (State.keeps_refl t) n m).dev
@[simp] theorem State.evalOlim_dev (n : Fin 16) : (t.evalOlim n).dev = t.dev := (State.evalOlim_keeps (State.keeps_refl t) n).dev
@[simp] theorem State.removePhase_dev (n : Fin 16) (p : Fin 48) (cause : Nat) (src : Nat) : (t.removePhase n p cause src).dev = t.dev :=
  (State.removePhase_keeps (State.keeps_refl t) n p cause src).dev
@[simp] theorem State.clStart_dev (n : Fin 16) : (t.clStart n).dev = t.dev := (State.clStart_keeps (State.keeps_refl t) n).dev
@[simp] theorem State.clTurnOff_dev (n : Fin 16) : (t.clTurnOff n).dev = t.dev := (State.clTurnOff_keeps (State.keeps_refl t) n).dev
@[simp] theorem State.refuse_dev (p : Port) (code : Nat) (addr : Nat) : (t.refuse p code addr).dev = t.dev :=
  (State.refuse_keeps (State.keeps_refl t) p code addr).dev
@[simp] theorem State.hostStore_dev (a : Nat) (v : Word) : (t.hostStore a v).dev = t.dev :=
  (State.hostStore_keeps (State.keeps_refl t) a v).dev
@[simp] theorem State.queueWrites_dev (kind : Nat) (inst : Option Nat) : (t.queueWrites kind inst).dev = t.dev :=
  (State.queueWrites_keeps (State.keeps_refl t) kind inst).dev
@[simp] theorem timerCompareWrite_dev (n : Fin 32) (c : Cmp) (v : Word) : (timerCompareWrite n c v t).1.dev = t.dev :=
  (timerCompareWrite_keeps (State.keeps_refl t) n c v).dev
@[simp] theorem timerRelease_dev (n : Fin 32) : (timerRelease n t).1.dev = t.dev := (timerRelease_keeps (State.keeps_refl t) n).dev
@[simp] theorem timerCtrlWrite_dev (n : Fin 32) (v : Word) : (timerCtrlWrite n v t).1.dev = t.dev :=
  (timerCtrlWrite_keeps (State.keeps_refl t) n v).dev
@[simp] theorem timerGstop_dev (mask : Word) : (timerGstop mask t).1.dev = t.dev := (timerGstop_keeps (State.keeps_refl t) mask).dev
@[simp] theorem timerGclr_dev (mask : Word) : (timerGclr mask t).1.dev = t.dev := (timerGclr_keeps (State.keeps_refl t) mask).dev
@[simp] theorem timerActWrite_dev (n : Fin 32) (v : Word) : (timerActWrite n v t).1.dev = t.dev :=
  (timerActWrite_keeps (State.keeps_refl t) n v).dev
@[simp] theorem timerCntWrite_dev (n : Fin 32) (v : Word) : (timerCntWrite n v t).1.dev = t.dev :=
  (timerCntWrite_keeps (State.keeps_refl t) n v).dev
@[simp] theorem timerGstart_dev (mask : Word) : (timerGstart mask t).1.dev = t.dev := (timerGstart_keeps (State.keeps_refl t) mask).dev
@[simp] theorem State.setGate_dev (f : Fin 3) (g : GateSt) : (t.setGate f g).dev = t.dev :=
  (State.setGate_keeps (State.keeps_refl t) f g).dev
@[simp] theorem State.evalFeedSel_dev : t.evalFeedSel.dev = t.dev := (State.evalFeedSel_keeps (State.keeps_refl t)).dev
@[simp] theorem State.evalBen_dev : t.evalBen.dev = t.dev := (State.evalBen_keeps (State.keeps_refl t)).dev
@[simp] theorem State.allGatesOff_dev : t.allGatesOff.dev = t.dev := (State.allGatesOff_keeps (State.keeps_refl t)).dev
@[simp] theorem State.clearTrips_dev : t.clearTrips.dev = t.dev := (State.clearTrips_keeps (State.keeps_refl t)).dev
@[simp] theorem State.feedTrip_dev (f : Fin 3) (cause : Nat) (amps : Int) (vbus : Nat) : (t.feedTrip f cause amps vbus).dev = t.dev :=
  (State.feedTrip_keeps (State.keeps_refl t) f cause amps vbus).dev
@[simp] theorem State.rangeCheck_dev (p : Fin 48) (code : Nat) : (t.rangeCheck p code).dev = t.dev :=
  (State.rangeCheck_keeps (State.keeps_refl t) p code).dev
@[simp] theorem State.endHigh_dev (p : Fin 48) : (t.endHigh p).dev = t.dev := (State.endHigh_keeps (State.keeps_refl t) p).dev
@[simp] theorem State.peakEnd_dev (p : Fin 48) : (t.peakEnd p).dev = t.dev := (State.peakEnd_keeps (State.keeps_refl t) p).dev
@[simp] theorem State.rsFrame_dev (n : Fin 16) : (t.rsFrame n).dev = t.dev := (State.rsFrame_keeps (State.keeps_refl t) n).dev
@[simp] theorem State.diode_dev (p : Fin 48) (i : Rat) : (t.diode p i).dev = t.dev := (State.diode_keeps (State.keeps_refl t) p i).dev
@[simp] theorem State.startHigh_dev (p : Fin 48) : (t.startHigh p).dev = t.dev := (State.startHigh_keeps (State.keeps_refl t) p).dev
@[simp] theorem State.placePhases_dev (n : Fin 16) : (t.placePhases n).dev = t.dev := (State.placePhases_keeps (State.keeps_refl t) n).dev
@[simp] theorem State.loadCal_dev (n : Fin 16) : (t.loadCal n).dev = t.dev := (State.loadCal_keeps (State.keeps_refl t) n).dev
@[simp] theorem leadSuspendClear_dev (n : Fin 16) : (leadSuspendClear n t).1.dev = t.dev :=
  (leadSuspendClear_keeps (State.keeps_refl t) n).dev
@[simp] theorem State.leadAct_dev (n : Fin 16) (pin : Fin 4) (cls : Nat) : (t.leadAct n pin cls).dev = t.dev :=
  (State.leadAct_keeps (State.keeps_refl t) n pin cls).dev
@[simp] theorem State.phaseBase_dev (n : Fin 16) : (t.phaseBase n).dev = t.dev := (State.phaseBase_keeps (State.keeps_refl t) n).dev
@[simp] theorem State.telBase_dev (n : Fin 16) (v : Rat) (i : Rat) : (t.telBase n v i).dev = t.dev :=
  (State.telBase_keeps (State.keeps_refl t) n v i).dev
@[simp] theorem State.writeCheckpoint_dev (n : Fin 16) : (t.writeCheckpoint n).dev = t.dev :=
  (State.writeCheckpoint_keeps (State.keeps_refl t) n).dev
@[simp] theorem State.loopStep_dev (n : Fin 16) (fine : List (BitVec 12)) (coarse : BitVec 10) : (t.loopStep n fine coarse).dev = t.dev :=
  (State.loopStep_keeps (State.keeps_refl t) n fine coarse).dev
@[simp] theorem injWrite_dev (n : Fin 16) (v : Word) : (injWrite n v t).1.dev = t.dev := (injWrite_keeps (State.keeps_refl t) n v).dev
@[simp] theorem State.engineFailure_dev (n : Fin 16) (code : Nat) (slotBad : Bool) (missed : Nat) (gap : Nat) :
    (t.engineFailure n code slotBad missed gap).dev = t.dev :=
  (State.engineFailure_keeps (State.keeps_refl t) n code slotBad missed gap).dev
@[simp] theorem State.balance_dev (n : Fin 16) : (t.balance n).dev = t.dev := (State.balance_keeps (State.keeps_refl t) n).dev
@[simp] theorem energyClear_dev (f : Fin 4) : (energyClear f t).1.dev = t.dev := (energyClear_keeps (State.keeps_refl t) f).dev
@[simp] theorem State.refResult_dev (ref : Rat) : (t.refResult ref).dev = t.dev := (State.refResult_keeps (State.keeps_refl t) ref).dev
@[simp] theorem State.hvResult_dev (k : Fin 6) (code : Int) (hv : Rat) : (t.hvResult k code hv).dev = t.dev :=
  (State.hvResult_keeps (State.keeps_refl t) k code hv).dev
@[simp] theorem telCluster_dev (n : Fin 16) : (telCluster n t).dev = t.dev := (telCluster_keeps (State.keeps_refl t) n).dev
@[simp] theorem State.saveCal_dev : t.saveCal.dev = t.dev := (State.saveCal_keeps (State.keeps_refl t)).dev
@[simp] theorem State.clusterResult_dev (n : Fin 16) (code : Int) (fast : Rat) (clean : Bool) :
    (t.clusterResult n code fast clean).dev = t.dev :=
  (State.clusterResult_keeps (State.keeps_refl t) n code fast clean).dev
@[simp] theorem telPhase_dev (p : Fin 48) : (telPhase p t).dev = t.dev := (telPhase_keeps (State.keeps_refl t) p).dev
@[simp] theorem State.rsAccept_dev (n : Fin 16) (p : Fin 48) (r : Rat) : (t.rsAccept n p r).dev = t.dev :=
  (State.rsAccept_keeps (State.keeps_refl t) n p r).dev
@[simp] theorem State.ebTake_dev (n : Fin 16) (k : Rat) : (t.ebTake n k).dev = t.dev := (State.ebTake_keeps (State.keeps_refl t) n k).dev
@[simp] theorem State.trimTarget_dev (n : Fin 16) : (t.trimTarget n).dev = t.dev := (State.trimTarget_keeps (State.keeps_refl t) n).dev
@[simp] theorem State.snapLatch_dev (k : Fin 8) (v : Int) (slot : Nat) : (t.snapLatch k v slot).dev = t.dev :=
  (State.snapLatch_keeps (State.keeps_refl t) k v slot).dev
@[simp] theorem State.feedWindow_dev (f : Fin 4) (code : BitVec 24) (v : Vector Rat 6) : (t.feedWindow f code v).dev = t.dev :=
  (State.feedWindow_keeps (State.keeps_refl t) f code v).dev
@[simp] theorem telFeed_dev (f : Fin 4) : (telFeed f t).dev = t.dev := (telFeed_keeps (State.keeps_refl t) f).dev
@[simp] theorem State.evalHdone_dev : t.evalHdone.dev = t.dev := (State.evalHdone_keeps (State.keeps_refl t)).dev
@[simp] theorem State.seqDecide_dev (step : Nat) (dir : Nat) (dec : Nat) : (t.seqDecide step dir dec).dev = t.dev :=
  (State.seqDecide_keeps (State.keeps_refl t) step dir dec).dev
@[simp] theorem State.stepDown_dev (k : Nat) : (t.stepDown k).dev = t.dev := (State.stepDown_keeps (State.keeps_refl t) k).dev
@[simp] theorem State.stepUp_dev (k : Nat) : (t.stepUp k).dev = t.dev := (State.stepUp_keeps (State.keeps_refl t) k).dev
@[simp] theorem State.sysfltDrive_dev : t.sysfltDrive.dev = t.dev := (State.sysfltDrive_keeps (State.keeps_refl t)).dev
@[simp] theorem State.subFrom_dev (k : Nat) : (t.subFrom k).dev = t.dev := (State.subFrom_keeps (State.keeps_refl t) k).dev
@[simp] theorem State.partialOff_dev (ns : List (Fin 16)) (xs : List (Fin 4)) (mark : Bool) : (t.partialOff ns xs mark).dev = t.dev :=
  (State.partialOff_keeps (State.keeps_refl t) ns xs mark).dev
@[simp] theorem State.seqRefuse_dev (code : Nat) : (t.seqRefuse code).1.dev = t.dev := (State.seqRefuse_keeps (State.keeps_refl t) code).dev
@[simp] theorem seqSfpulse_dev (confirm : BitVec 16) : (seqSfpulse confirm t).1.dev = t.dev :=
  (seqSfpulse_keeps (State.keeps_refl t) confirm).dev
@[simp] theorem State.sample_dev (inwin : BitVec 16) (below : BitVec 16) (pgin : BitVec 8) : (t.sample inwin below pgin).dev = t.dev :=
  (State.sample_keeps (State.keeps_refl t) inwin below pgin).dev
@[simp] theorem State.winFault_dev (n : Fin 16) (flag : Fld) (src : Nat) : (t.winFault n flag src).dev = t.dev :=
  (State.winFault_keeps (State.keeps_refl t) n flag src).dev
@[simp] theorem State.subComplete_dev : t.subComplete.dev = t.dev := (State.subComplete_keeps (State.keeps_refl t)).dev
@[simp] theorem State.forceOn_dev (k : Nat) (dir : Nat) : (t.forceOn k dir).dev = t.dev :=
  (State.forceOn_keeps (State.keeps_refl t) k dir).dev
@[simp] theorem State.estFilter_dev (i : Fin 6) (amps : Rat) (volts : Rat) (temp : Rat) : (t.estFilter i amps volts temp).dev = t.dev :=
  (State.estFilter_keeps (State.keeps_refl t) i amps volts temp).dev
@[simp] theorem State.topOfCharge_dev (i : Fin 6) (amps : Rat) (vmax : Rat) : (t.topOfCharge i amps vmax).1.dev = t.dev :=
  (State.topOfCharge_keeps (State.keeps_refl t) i amps vmax).dev
@[simp] theorem State.setRest_dev (i : Fin 6) (on : Bool) : (t.setRest i on).dev = t.dev :=
  (State.setRest_keeps (State.keeps_refl t) i on).dev
@[simp] theorem batRest_dev (i : Fin 6) (on : Bool) : (batRest i on t).1.dev = t.dev := (batRest_keeps (State.keeps_refl t) i on).dev
@[simp] theorem State.applyRestore_dev (i : Fin 6) : (t.applyRestore i).dev = t.dev := (State.applyRestore_keeps (State.keeps_refl t) i).dev
@[simp] theorem State.refPoint_dev (i : Fin 6) (kind : Nat) (z : Rat) (var : Rat) : (t.refPoint i kind z var).dev = t.dev :=
  (State.refPoint_keeps (State.keeps_refl t) i kind z var).dev
@[simp] theorem batRestore_dev (i : Fin 6) : (batRestore i t).1.dev = t.dev := (batRestore_keeps (State.keeps_refl t) i).dev
@[simp] theorem batSnap_dev (i : Fin 6) : (batSnap i t).1.dev = t.dev := (batSnap_keeps (State.keeps_refl t) i).dev
@[simp] theorem State.refAge_dev (i : Fin 6) : (t.refAge i).dev = t.dev := (State.refAge_keeps (State.keeps_refl t) i).dev
@[simp] theorem State.showBat_dev (i : Fin 6) (range : Rat × Rat) : (t.showBat i range).dev = t.dev :=
  (State.showBat_keeps (State.keeps_refl t) i range).dev
@[simp] theorem batUvclr_dev (i : Fin 6) : (batUvclr i t).1.dev = t.dev := (batUvclr_keeps (State.keeps_refl t) i).dev
@[simp] theorem State.criteria_dev (i : Fin 6) (amps : Rat) (volts : Rat) (vmin : Rat) : (t.criteria i amps volts vmin).dev = t.dev :=
  (State.criteria_keeps (State.keeps_refl t) i amps volts vmin).dev
@[simp] theorem State.evalHot_dev (i : Fin 6) : (t.evalHot i).dev = t.dev := (State.evalHot_keeps (State.keeps_refl t) i).dev
@[simp] theorem State.holdCap_dev (rs : List Raise) : (t.holdCap rs).dev = t.dev := (State.holdCap_keeps (State.keeps_refl t) rs).dev
@[simp] theorem State.takeRaise_dev (r : Raise) : (t.takeRaise r).dev = t.dev := (State.takeRaise_keeps (State.keeps_refl t) r).dev
@[simp] theorem State.doShed_dev (ts : List Nat) : (t.doShed ts).dev = t.dev := (State.doShed_keeps (State.keeps_refl t) ts).dev
@[simp] theorem State.doCloff_dev (ts : List Nat) : (t.doCloff ts).dev = t.dev := (State.doCloff_keeps (State.keeps_refl t) ts).dev
@[simp] theorem State.supvRefuse_dev (code : Nat) : (t.supvRefuse code).1.dev = t.dev :=
  (State.supvRefuse_keeps (State.keeps_refl t) code).dev
@[simp] theorem supvAck_dev (confirm : BitVec 16) : (supvAck confirm t).1.dev = t.dev := (supvAck_keeps (State.keeps_refl t) confirm).dev
@[simp] theorem State.evalBound_dev : t.evalBound.dev = t.dev := (State.evalBound_keeps (State.keeps_refl t)).dev
@[simp] theorem supvSafe_dev (confirm : BitVec 16) : (supvSafe confirm t).1.dev = t.dev := (supvSafe_keeps (State.keeps_refl t) confirm).dev
@[simp] theorem State.unseatStart_dev : t.unseatStart.dev = t.dev := (State.unseatStart_keeps (State.keeps_refl t)).dev
@[simp] theorem State.releaseB3_dev : t.releaseB3.dev = t.dev := (State.releaseB3_keeps (State.keeps_refl t)).dev
@[simp] theorem State.leaveFeed_dev (f : Fin 3) : (t.leaveFeed f).dev = t.dev := (State.leaveFeed_keeps (State.keeps_refl t) f).dev
@[simp] theorem State.returnTo_dev (f : Fin 3) : (t.returnTo f).dev = t.dev := (State.returnTo_keeps (State.keeps_refl t) f).dev
@[simp] theorem State.afterTransfer_dev : t.afterTransfer.dev = t.dev := (State.afterTransfer_keeps (State.keeps_refl t)).dev
@[simp] theorem State.conductNow_dev (f : Fin 3) : (t.conductNow f).dev = t.dev := (State.conductNow_keeps (State.keeps_refl t) f).dev
@[simp] theorem State.unqualify_dev (f : Fin 3) : (t.unqualify f).dev = t.dev := (State.unqualify_keeps (State.keeps_refl t) f).dev
@[simp] theorem State.noFeed_dev : t.noFeed.dev = t.dev := (State.noFeed_keeps (State.keeps_refl t)).dev
@[simp] theorem feedPinWrite_dev (pin : BitVec 2) : (feedPinWrite pin t).1.dev = t.dev := (feedPinWrite_keeps (State.keeps_refl t) pin).dev
@[simp] theorem State.setThr_dev (k : Fin 4) (b : Bool) : (t.setThr k b).dev = t.dev := (State.setThr_keeps (State.keeps_refl t) k b).dev
@[simp] theorem State.tsdClear_dev (n : Fin 16) : (t.tsdClear n).dev = t.dev := (State.tsdClear_keeps (State.keeps_refl t) n).dev
@[simp] theorem thmTsdclr_dev (n : Fin 16) (confirm : BitVec 16) : (thmTsdclr n confirm t).1.dev = t.dev :=
  (thmTsdclr_keeps (State.keeps_refl t) n confirm).dev
@[simp] theorem State.setReq_dev (c : Fin 5) (v : Nat) : (t.setReq c v).dev = t.dev := (State.setReq_keeps (State.keeps_refl t) c v).dev
@[simp] theorem State.capEstimate_dev (c : Fin 5) : (t.capEstimate c).dev = t.dev := (State.capEstimate_keeps (State.keeps_refl t) c).dev
@[simp] theorem State.capSaturate_dev (c : Fin 5) (sat : Bool) : (t.capSaturate c sat).dev = t.dev :=
  (State.capSaturate_keeps (State.keeps_refl t) c sat).dev
@[simp] theorem State.modelCluster_dev (n : Fin 16) (obs : List (Fin 48 × Rat × Rat × Nat)) (vin : Vector Rat 3) :
    (t.modelCluster n obs vin).dev = t.dev :=
  (State.modelCluster_keeps (State.keeps_refl t) n obs vin).dev
@[simp] theorem State.tsenRange_dev (n : Fin 16) (inRange : Bool) : (t.tsenRange n inRange).dev = t.dev :=
  (State.tsenRange_keeps (State.keeps_refl t) n inRange).dev
@[simp] theorem State.tsenGood_dev (n : Fin 16) (zt : Rat) : (t.tsenGood n zt).dev = t.dev :=
  (State.tsenGood_keeps (State.keeps_refl t) n zt).dev
@[simp] theorem State.capRefuse_dev (code : Nat) : (t.capRefuse code).1.dev = t.dev := (State.capRefuse_keeps (State.keeps_refl t) code).dev
@[simp] theorem State.closeSnap_dev : t.closeSnap.dev = t.dev := (State.closeSnap_keeps (State.keeps_refl t)).dev
@[simp] theorem capRewind_dev : (capRewind t).1.dev = t.dev := (capRewind_keeps (State.keeps_refl t)).dev
@[simp] theorem State.laneTake_dev (l : Fin 4) (n : Fin 64) : (t.laneTake l n).dev = t.dev :=
  (State.laneTake_keeps (State.keeps_refl t) l n).dev
@[simp] theorem State.evalFifo_dev : t.evalFifo.dev = t.dev := (State.evalFifo_keeps (State.keeps_refl t)).dev
@[simp] theorem capRelease_dev : (capRelease t).1.dev = t.dev := (capRelease_keeps (State.keeps_refl t)).dev
@[simp] theorem State.closePkt_dev : t.closePkt.dev = t.dev := (State.closePkt_keeps (State.keeps_refl t)).dev
@[simp] theorem State.stopClose_dev : t.stopClose.dev = t.dev := (State.stopClose_keeps (State.keeps_refl t)).dev
@[simp] theorem State.capSuspend_dev : t.capSuspend.dev = t.dev := (State.capSuspend_keeps (State.keeps_refl t)).dev
@[simp] theorem State.ringSample_dev (n : Fin 64) (x : BitVec 16) : (t.ringSample n x).dev = t.dev :=
  (State.ringSample_keeps (State.keeps_refl t) n x).dev
@[simp] theorem chCfgWrite_dev (n : Fin 64) (v : Word) : (chCfgWrite n v t).1.dev = t.dev := (chCfgWrite_keeps (State.keeps_refl t) n v).dev
@[simp] theorem State.fifoPop_dev : (t.fifoPop).1.dev = t.dev := (State.fifoPop_keeps (State.keeps_refl t)).dev
@[simp] theorem State.addSnap_dev (r : List Word) : (t.addSnap r).dev = t.dev := (State.addSnap_keeps (State.keeps_refl t) r).dev
@[simp] theorem chSrcWrite_dev (n : Fin 64) (v : Word) : (chSrcWrite n v t).1.dev = t.dev := (chSrcWrite_keeps (State.keeps_refl t) n v).dev
@[simp] theorem State.flushNow_dev : t.flushNow.dev = t.dev := (State.flushNow_keeps (State.keeps_refl t)).dev
@[simp] theorem capFlush_dev : (capFlush t).1.dev = t.dev := (capFlush_keeps (State.keeps_refl t)).dev
@[simp] theorem capMark_dev : (capMark t).1.dev = t.dev := (capMark_keeps (State.keeps_refl t)).dev
@[simp] theorem State.addRecord_dev (r : List Word) : (t.addRecord r).dev = t.dev := (State.addRecord_keeps (State.keeps_refl t) r).dev
@[simp] theorem capRequest_dev (hi : Bool) (mask : Word) : (capRequest hi mask t).1.dev = t.dev :=
  (capRequest_keeps (State.keeps_refl t) hi mask).dev
@[simp] theorem State.srdyPulse_dev : t.srdyPulse.dev = t.dev := (State.srdyPulse_keeps (State.keeps_refl t)).dev
@[simp] theorem capCfgWrite_dev (v : Word) : (capCfgWrite v t).1.dev = t.dev := (capCfgWrite_keeps (State.keeps_refl t) v).dev
@[simp] theorem State.capResume_dev : t.capResume.dev = t.dev := (State.capResume_keeps (State.keeps_refl t)).dev
@[simp] theorem capTrigger_dev (hi : Bool) (mask : Word) : (capTrigger hi mask t).1.dev = t.dev :=
  (capTrigger_keeps (State.keeps_refl t) hi mask).dev
@[simp] theorem State.edgeFollow_dev (ppm : Int) : (t.edgeFollow ppm).dev = t.dev := (State.edgeFollow_keeps (State.keeps_refl t) ppm).dev
@[simp] theorem State.edgeQualify_dev (ppm : Int) : (t.edgeQualify ppm).dev = t.dev :=
  (State.edgeQualify_keeps (State.keeps_refl t) ppm).dev
@[simp] theorem State.tmAct_dev (code : Nat) (tgt : Nat) : (t.tmAct code tgt).dev = t.dev :=
  (State.tmAct_keeps (State.keeps_refl t) code tgt).dev
@[simp] theorem State.blankMatch_dev (n : Fin 32) : (t.blankMatch n).dev = t.dev := (State.blankMatch_keeps (State.keeps_refl t) n).dev
@[simp] theorem State.send_dev (ty : Nat) (dst : Nat) (bcast : Bool) (pay : List Byte) : (t.send ty dst bcast pay).dev = t.dev :=
  (State.send_keeps (State.keeps_refl t) ty dst bcast pay).dev
@[simp] theorem State.sendReport_dev : t.sendReport.dev = t.dev := (State.sendReport_keeps (State.keeps_refl t)).dev
@[simp] theorem State.startEnum_dev : t.startEnum.dev = t.dev := (State.startEnum_keeps (State.keeps_refl t)).dev
@[simp] theorem State.forward_dev (ty : Nat) (f : RingFrame) : (t.forward ty f).dev = t.dev :=
  (State.forward_keeps (State.keeps_refl t) ty f).dev
@[simp] theorem State.segmentCheck_dev : t.segmentCheck.dev = t.dev := (State.segmentCheck_keeps (State.keeps_refl t)).dev
@[simp] theorem State.countOnline_dev : t.countOnline.dev = t.dev := (State.countOnline_keeps (State.keeps_refl t)).dev
@[simp] theorem State.allocate_dev : t.allocate.dev = t.dev := (State.allocate_keeps (State.keeps_refl t)).dev
@[simp] theorem State.rectOffline_dev (k : Nat) : (t.rectOffline k).dev = t.dev := (State.rectOffline_keeps (State.keeps_refl t) k).dev
@[simp] theorem State.ringBegin_dev : t.ringBegin.dev = t.dev := (State.ringBegin_keeps (State.keeps_refl t)).dev
@[simp] theorem State.enumOn_dev (f : RingFrame) : (t.enumOn f).dev = t.dev := (State.enumOn_keeps (State.keeps_refl t) f).dev
@[simp] theorem State.sendBreak_dev : t.sendBreak.dev = t.dev := (State.sendBreak_keeps (State.keeps_refl t)).dev
@[simp] theorem State.nodesReset_dev (nodes : Nat) : (t.nodesReset nodes).dev = t.dev :=
  (State.nodesReset_keeps (State.keeps_refl t) nodes).dev
@[simp] theorem State.masterChange_dev : t.masterChange.dev = t.dev := (State.masterChange_keeps (State.keeps_refl t)).dev
@[simp] theorem lnkOrderWrite_dev (v : Word) : (lnkOrderWrite v t).1.dev = t.dev := (lnkOrderWrite_keeps (State.keeps_refl t) v).dev
@[simp] theorem State.endPoll_dev (b : Fin 2) (e : Nat) (code : Nat) : (t.endPoll b e code).dev = t.dev :=
  (State.endPoll_keeps (State.keeps_refl t) b e code).dev
@[simp] theorem State.consume_dev (b : Fin 2) (e : Nat) (data : List Byte) : (t.consume b e data).dev = t.dev :=
  (State.consume_keeps (State.keeps_refl t) b e data).dev
@[simp] theorem State.hangCur_dev (b : Fin 2) : (t.hangCur b).dev = t.dev := (State.hangCur_keeps (State.keeps_refl t) b).dev
@[simp] theorem State.cureBus_dev (b : Fin 2) (line : Nat) : (t.cureBus b line).dev = t.dev :=
  (State.cureBus_keeps (State.keeps_refl t) b line).dev
@[simp] theorem fldPwrcycle_dev (b : Fin 2) (confirm : BitVec 16) : (fldPwrcycle b confirm t).1.dev = t.dev :=
  (fldPwrcycle_keeps (State.keeps_refl t) b confirm).dev
@[simp] theorem State.followStale_dev : t.followStale.dev = t.dev := (State.followStale_keeps (State.keeps_refl t)).dev
@[simp] theorem State.startPoll_dev (b : Fin 2) (e : Nat) : (t.startPoll b e).dev = t.dev :=
  (State.startPoll_keeps (State.keeps_refl t) b e).dev
@[simp] theorem State.owlRefuse_dev (code : Nat) : (t.owlRefuse code).1.dev = t.dev := (State.owlRefuse_keeps (State.keeps_refl t) code).dev
@[simp] theorem owlClear_dev (confirm : BitVec 16) : (owlClear confirm t).1.dev = t.dev := (owlClear_keeps (State.keeps_refl t) confirm).dev
@[simp] theorem owlSnap_dev (confirm : BitVec 16) : (owlSnap confirm t).1.dev = t.dev := (owlSnap_keeps (State.keeps_refl t) confirm).dev
@[simp] theorem State.finishClear_dev : t.finishClear.dev = t.dev := (State.finishClear_keeps (State.keeps_refl t)).dev
@[simp] theorem State.overflowRecord_dev : t.overflowRecord.dev = t.dev := (State.overflowRecord_keeps (State.keeps_refl t)).dev
@[simp] theorem State.tryRecord_dev (r : OwlRec) (fails : Bool) : (t.tryRecord r fails).1.dev = t.dev :=
  (State.tryRecord_keeps (State.keeps_refl t) r fails).dev
@[simp] theorem owlIdxWrite_dev (v : Word) (writing : Bool) : (owlIdxWrite v writing t).1.dev = t.dev :=
  (owlIdxWrite_keeps (State.keeps_refl t) v writing).dev
@[simp] theorem State.writeTimeSlot_dev : t.writeTimeSlot.dev = t.dev := (State.writeTimeSlot_keeps (State.keeps_refl t)).dev
@[simp] theorem State.putBank_dev (k : Fin 2) (b : Bank) : (t.putBank k b).dev = t.dev := (State.putBank_keeps (State.keeps_refl t) k b).dev
@[simp] theorem State.endTxn_dev (result : Nat) : (t.endTxn result).dev = t.dev := (State.endTxn_keeps (State.keeps_refl t) result).dev
@[simp] theorem storeBegin_dev : (storeBegin t).1.dev = t.dev := (storeBegin_keeps (State.keeps_refl t)).dev
@[simp] theorem storeCommand_dev (confirm : BitVec 16) : (storeCommand confirm t).1.dev = t.dev :=
  (storeCommand_keeps (State.keeps_refl t) confirm).dev
@[simp] theorem txnCommit_dev (token : BitVec 8) : (txnCommit token t).1.dev = t.dev := (txnCommit_keeps (State.keeps_refl t) token).dev
@[simp] theorem txnBegin_dev (p : Port) : (txnBegin p t).1.dev = t.dev := (txnBegin_keeps (State.keeps_refl t) p).dev
@[simp] theorem txnRollback_dev (token : BitVec 8) : (txnRollback token t).1.dev = t.dev :=
  (txnRollback_keeps (State.keeps_refl t) token).dev
@[simp] theorem State.updRecord_dev (sub : Nat) (slot : Bool) (secver : Nat) : (t.updRecord sub slot secver).dev = t.dev :=
  (State.updRecord_keeps (State.keeps_refl t) sub slot secver).dev
@[simp] theorem State.setBootRec_dev (g : BootRec → BootRec) : (t.setBootRec g).dev = t.dev :=
  (State.setBootRec_keeps (State.keeps_refl t) g).dev
@[simp] theorem State.lastGasp_dev : t.lastGasp.dev = t.dev := (State.lastGasp_keeps (State.keeps_refl t)).dev
@[simp] theorem State.devRefuse_dev (code : Nat) : (t.devRefuse code).1.dev = t.dev := (State.devRefuse_keeps (State.keeps_refl t) code).dev
@[simp] theorem State.abandonStore_dev : t.abandonStore.dev = t.dev := (State.abandonStore_keeps (State.keeps_refl t)).dev
@[simp] theorem State.dropTxn_dev (result : Nat) : (t.dropTxn result).dev = t.dev := (State.dropTxn_keeps (State.keeps_refl t) result).dev
@[simp] theorem State.eccBadAt_dev (x0 : EccAt) : (t.eccBadAt x0).dev = t.dev := (State.eccBadAt_keeps (State.keeps_refl t) x0).dev
@[simp] theorem State.tapLoad_dev (code : BitVec 8) (inst : TapInst) : (t.tapLoad code inst).dev = t.dev :=
  (State.tapLoad_keeps (State.keeps_refl t) code inst).dev
@[simp] theorem State.tapDrive_dev (code : BitVec 8) (inst : TapInst) : (t.tapDrive code inst).dev = t.dev :=
  (State.tapDrive_keeps (State.keeps_refl t) code inst).dev
@[simp] theorem State.setDmFlag_dev (b : Bool) : (t.setDmFlag b).dev = t.dev := (State.setDmFlag_keeps (State.keeps_refl t) b).dev
@[simp] theorem State.readLow_dev (r : Reader) (c : Counter64) : (t.readLow r c).1.dev = t.dev :=
  (State.readLow_keeps (State.keeps_refl t) r c).dev
@[simp] theorem State.readReg_dev (p : Port) (a : Nat) : (t.readReg p a).dev = t.dev := (State.readReg_keeps (State.keeps_refl t) p a).dev
@[simp] theorem State.answerFrame_dev (status : Nat) (aux : Word) (data : List Word) (marks : List Bool) :
    (t.answerFrame status aux data marks).dev = t.dev :=
  (State.answerFrame_keeps (State.keeps_refl t) status aux data marks).dev
@[simp] theorem State.answerRefused_dev (cmd : Nat) (kind : FrameData) (f : StreamFrame) (code : Nat) (aux : Word) :
    (t.answerRefused cmd kind f code aux).dev = t.dev :=
  (State.answerRefused_keeps (State.keeps_refl t) cmd kind f code aux).dev
@[simp] theorem State.refuseFrame_dev (cmd : Nat) (kind : FrameData) (f : StreamFrame) (code : Nat) :
    (t.refuseFrame cmd kind f code).dev = t.dev :=
  (State.refuseFrame_keeps (State.keeps_refl t) cmd kind f code).dev
@[simp] theorem State.updRefuse_dev (code : Nat) : (t.updRefuse code).1.dev = t.dev := (State.updRefuse_keeps (State.keeps_refl t) code).dev
@[simp] theorem State.confirmTrial_dev : t.confirmTrial.dev = t.dev := (State.confirmTrial_keeps (State.keeps_refl t)).dev
@[simp] theorem updConfirm_dev (confirm : BitVec 16) : (updConfirm confirm t).1.dev = t.dev :=
  (updConfirm_keeps (State.keeps_refl t) confirm).dev
@[simp] theorem State.endSession_dev (result : Nat) : (t.endSession result).dev = t.dev :=
  (State.endSession_keeps (State.keeps_refl t) result).dev
@[simp] theorem State.blockFails_dev (result : Nat) : (t.blockFails result).dev = t.dev :=
  (State.blockFails_keeps (State.keeps_refl t) result).dev
@[simp] theorem updCancel_dev (confirm : BitVec 16) : (updCancel confirm t).1.dev = t.dev :=
  (updCancel_keeps (State.keeps_refl t) confirm).dev
@[simp] theorem batCtrlWrite_dev (i : Fin 6) (v : Word) : (batCtrlWrite i v t).1.dev = t.dev :=
  (batCtrlWrite_keeps (State.keeps_refl t) i v).dev
@[simp] theorem shadowWrite_dev (a : Nat) (v : Word) : (shadowWrite a v t).1.dev = t.dev := (shadowWrite_keeps (State.keeps_refl t) a v).dev
@[simp] theorem timerWrite_dev (n : Fin 32) (k : Nat) (v : Word) : (timerWrite n k v t).1.dev = t.dev :=
  (timerWrite_keeps (State.keeps_refl t) n k v).dev
@[simp] theorem State.failTxn_dev (result : Nat) (code : Nat) (addr : Nat) : (t.failTxn result code addr).dev = t.dev :=
  (State.failTxn_keeps (State.keeps_refl t) result code addr).dev
@[simp] theorem txnCtrlWrite_dev (p : Port) (v : Word) : (txnCtrlWrite p v t).1.dev = t.dev :=
  (txnCtrlWrite_keeps (State.keeps_refl t) p v).dev
@[simp] theorem clrtokWrite_dev (k : Fin 4) (v : Word) : (clrtokWrite k v t).1.dev = t.dev :=
  (clrtokWrite_keeps (State.keeps_refl t) k v).dev
@[simp] theorem State.twAnswer_dev (ack : Bool) (l : List Byte) : (t.twAnswer ack l).dev = t.dev :=
  (State.twAnswer_keeps (State.keeps_refl t) ack l).dev
@[simp] theorem State.twWake_dev : t.twWake.dev = t.dev := (State.twWake_keeps (State.keeps_refl t)).dev
@[simp] theorem State.pmRefuse_dev (c : PmCmd) (code : Nat) : (t.pmRefuse c code).dev = t.dev :=
  (State.pmRefuse_keeps (State.keeps_refl t) c code).dev
@[simp] theorem State.pmUnsupported_dev (c : PmCmd) : (t.pmUnsupported c).dev = t.dev :=
  (State.pmUnsupported_keeps (State.keeps_refl t) c).dev
@[simp] theorem State.freeBytes_dev (k : Nat) : (t.freeBytes k).2.dev = t.dev := (State.freeBytes_keeps (State.keeps_refl t) k).dev
@[simp] theorem State.twRead_dev (code : Nat) (w : Wire) (l : List Byte) : (t.twRead code w l).dev = t.dev :=
  (State.twRead_keeps (State.keeps_refl t) code w l).dev
@[simp] theorem State.wireBlock_dev (c : PmCmd) (w : Wire) (l : State → List Byte) : (t.wireBlock c w l).dev = t.dev :=
  (State.wireBlock_keeps (State.keeps_refl t) c w l).dev
@[simp] theorem State.portReset_dev (cnt : Fld) (src : Nat) : (t.portReset cnt src).dev = t.dev :=
  (State.portReset_keeps (State.keeps_refl t) cnt src).dev
@[simp] theorem State.wireRead_dev (c : PmCmd) (w : Wire) (n : Nat) (v : State → Nat) : (t.wireRead c w n v).dev = t.dev :=
  (State.wireRead_keeps (State.keeps_refl t) c w n v).dev
@[simp] theorem oneWrite_dev (c : PmCmd) (l : List (Nat × Word)) : (oneWrite c l t).1.dev = t.dev :=
  (oneWrite_keeps (State.keeps_refl t) c l).dev
@[simp] theorem winRead_dev (k a : Nat) : (winRead k a t).1.dev = t.dev := (winRead_keeps (State.keeps_refl t) k a).dev
@[simp] theorem operationOff_dev (n : Fin 16) : (operationOff n t).1.dev = t.dev := (operationOff_keeps (State.keeps_refl t) n).dev
@[simp] theorem operationOn_dev (n : Fin 16) : (operationOn n t).1.dev = t.dev := (operationOn_keeps (State.keeps_refl t) n).dev
@[simp] theorem State.winNext_dev (k : Nat) : (t.winNext k).dev = t.dev := (State.winNext_keeps (State.keeps_refl t) k).dev
@[simp] theorem State.clearStatus_dev (p : Nat) : (t.clearStatus p).dev = t.dev := (State.clearStatus_keeps (State.keeps_refl t) p).dev
@[simp] theorem fifoBlock_dev (k : Nat) : (fifoBlock k t).1.dev = t.dev := (fifoBlock_keeps (State.keeps_refl t) k).dev
@[simp] theorem State.wireLin11_dev (code : Nat) (k : PageSet) (w : Wire) (v : State → Rat) : (t.wireLin11 code k w v).dev = t.dev :=
  (State.wireLin11_keeps (State.keeps_refl t) code k w v).dev
@[simp] theorem State.wireStatus_dev (code : Nat) (k : PageSet) (w : Wire) (fl : Fld) : (t.wireStatus code k w fl).dev = t.dev :=
  (State.wireStatus_keeps (State.keeps_refl t) code k w fl).dev
@[simp] theorem State.readWords_dev (l : List Nat) : (t.readWords l).1.dev = t.dev := (State.readWords_keeps (State.keeps_refl t) l).dev
@[simp] theorem fifoSlots_dev (k : Nat) : (fifoSlots k t).1.dev = t.dev := (fifoSlots_keeps (State.keeps_refl t) k).dev

end Sys2Proof.Machine
end

section
/-! SUPPORT. The operations that may change DEV_STATE, of which only safe-off leads to SAFE (R31, R276).  A lemma `foo_safe` says that
`foo` ends in SAFE just where it began there, a lemma `foo_notSafe` that `foo` does not end in SAFE. -/

namespace Sys2Proof.Machine

variable {s t u : State}

/-! ### Choices, loops and outcomes -/

@[simp] theorem State.ite_safe {c : Prop} [Decidable c] {a b : State} :
    (if c then a else b).dev = .safe ↔ if c then a.dev = .safe else b.dev = .safe := by split <;> rfl

@[simp] theorem State.ite_fst_safe {α : Type} {c : Prop} [Decidable c] {a b : State × α} :
    (if c then a else b).1.dev = .safe ↔ if c then a.1.dev = .safe else b.1.dev = .safe := by split <;> rfl

@[simp] theorem State.when_safe (b : Bool) {g : State → State} :
    (t.when b g).dev = .safe ↔ if b then (g t).dev = .safe else t.dev = .safe := by cases b <;> simp [State.when]

@[simp] theorem State.fold_safe {α : Type} (l : List α) {g : State → α → State}
    (hg : ∀ u x, (g u x).dev = .safe ↔ u.dev = .safe) : (l.foldl g t).dev = .safe ↔ t.dev = .safe := by
  induction l generalizing t with
  | nil => rfl
  | cons x l ih => exact ih.trans (hg t x)

@[simp] theorem State.each_safe {α : Type} (l : List α) {g : State → α → State}
    (hg : ∀ u x, (g u x).dev = .safe ↔ u.dev = .safe) : (t.each l g).dev = .safe ↔ t.dev = .safe := State.fold_safe l hg

theorem State.each_notSafe {α : Type} (h : t.dev ≠ .safe) (l : List α) {g : State → α → State}
    (hg : ∀ u x, (g u x).dev = .safe ↔ u.dev = .safe) : (t.each l g).dev ≠ .safe := fun hs => h ((State.each_safe l hg).1 hs)

@[simp] theorem State.each_dev {α : Type} (s : State) (l : List α) {g : State → α → State} (hg : ∀ u x, (g u x).dev = u.dev) :
    (s.each l g).dev = s.dev := State.each_frame (π := State.dev) hg l s

@[simp] theorem State.ends_next_iff {R : State → Prop} {t : State} : State.Ends R (.next t) ↔ R t :=
  ⟨fun h => h.out t rfl, State.ends_next⟩

@[simp] theorem State.ends_ite_iff {R : State → Prop} {c : Prop} [Decidable c] {a b : Host.Outcome State Fault Refusal} :
    State.Ends R (if c then a else b) ↔ (c → State.Ends R a) ∧ (¬c → State.Ends R b) := by
  split <;> simp [*]

/-! ### Power-up and power-down -/

@[simp] theorem State.enter_safe (d : DevState) : (t.enter d).dev = .safe ↔ d = .safe := by rw [State.enter_dev]

@[simp] theorem State.evalStart_safe : t.evalStart.dev = .safe ↔ t.dev = .safe := by
  unfold State.evalStart
  split
  case isTrue hc =>
    have hd : t.dev = .standby := by simp_all
    simp [State.sequpEntry_dev, hd]
  case isFalse => rfl

@[simp] theorem State.standbyEntry_notSafe : t.standbyEntry.dev ≠ .safe := by
  unfold State.standbyEntry
  extract_lets _ _ _ _ _ u
  have hu : u.dev ≠ .safe := by simp [u]
  simp [hu]

@[simp] theorem State.seqdnEnd_notSafe : t.seqdnEnd.dev ≠ .safe := by simp [State.seqdnEnd_eq]

@[simp] theorem State.seqdnFrom_notSafe (h : t.dev ≠ .safe) (k : Nat) : (t.seqdnFrom k).dev ≠ .safe := by
  unfold State.seqdnFrom
  split <;> simp [h]

@[simp] theorem State.seqdnEntry_notSafe : t.seqdnEntry.dev ≠ .safe := by simp [State.seqdnEntry]

@[simp] theorem State.evalOnreq_safe : t.evalOnreq.dev = .safe ↔ t.dev = .safe := by
  unfold State.evalOnreq
  extract_lets old v a b c
  have hb : b.dev = .safe ↔ t.dev = .safe := by
    rw [State.when_safe]
    cases h : t.dev <;> simp [a, h]
  rw [State.evalStart_safe, State.when_safe, ← hb]
  cases h : b.dev <;> simp [h]

@[simp] theorem State.packageOff_safe : t.packageOff.dev = .safe ↔ t.dev = .safe := by
  cases h : t.dev <;> simp [State.packageOff, h]

@[simp] theorem State.nextUp_notSafe (h : t.dev ≠ .safe) (k : Nat) : (t.nextUp k).dev ≠ .safe := by
  simp [State.nextUp, h]

@[simp] theorem State.nextDown_notSafe (h : t.dev ≠ .safe) (k : Nat) : (t.nextDown k).dev ≠ .safe := by
  simp [State.nextDown, h]

@[simp] theorem State.stepComplete_safe : t.stepComplete.dev = .safe ↔ t.dev = .safe := by
  cases h : t.dev <;> simp [State.stepComplete, h]

@[simp] theorem seqForce_safe (confirm : BitVec 16) : (seqForce confirm t).1.dev = .safe ↔ t.dev = .safe := by
  unfold seqForce
  cases h : t.dev <;> simp [h] <;> split <;> simp [h]

@[simp] theorem State.lineHigh_safe : t.lineHigh.dev = .safe ↔ t.dev = .safe := by simp [State.lineHigh]

@[simp] theorem State.doSeqoff_safe (ts : List Nat) : (t.doSeqoff ts).dev = .safe ↔ t.dev = .safe := by simp [State.doSeqoff]

@[simp] theorem inpToggle_safe (confirm : BitVec 16) : (inpToggle confirm t).1.dev = .safe ↔ t.dev = .safe := by simp [inpToggle]

@[simp] theorem State.ladderAct_safe (k : Nat) : (t.ladderAct k).dev = .safe ↔ t.dev = .safe := by
  unfold State.ladderAct; split <;> simp

@[simp] theorem State.setOrder_safe (o : RingOrder) : (t.setOrder o).dev = .safe ↔ t.dev = .safe := by simp [State.setOrder]

/-! ### The commands of DEV_CMD and the wakes -/

@[simp] theorem devCommand_notSafe (h : t.dev ≠ .safe) (confirm : BitVec 16) (cmd : Nat) (ok : Bool) {g : State → State}
    (hg : ∀ u, (g u).dev ≠ .safe) : (devCommand confirm cmd ok g t).1.dev ≠ .safe := by simp [devCommand, h, hg]

@[simp] theorem devDormouse_notSafe (h : t.dev ≠ .safe) (confirm : BitVec 16) : (devDormouse confirm t).1.dev ≠ .safe := by
  simp [devDormouse, h]

@[simp] theorem State.enterBoot_notSafe (cause : Nat) : (t.enterBoot cause).dev ≠ .safe := by simp [State.enterBoot_dev]

@[simp] theorem devReload_notSafe (h : t.dev ≠ .safe) (confirm : BitVec 16) : (devReload confirm t).1.dev ≠ .safe := by
  simp [devReload, h]

@[simp] theorem devRestart_notSafe (h : t.dev ≠ .safe) (confirm : BitVec 16) : (devRestart confirm t).1.dev ≠ .safe := by
  simp [devRestart, h]

@[simp] theorem State.wake_notSafe : t.wake.dev ≠ .safe := by simp [State.wake]

@[simp] theorem batWake_notSafe (h : t.dev ≠ .safe) (confirm : BitVec 16) : (batWake confirm t).1.dev ≠ .safe := by simp [batWake, h]

@[simp] theorem State.bootIfReady_notSafe (h : t.dev ≠ .safe) (warm : Nat) : (t.bootIfReady warm).dev ≠ .safe := by
  simp [State.bootIfReady, h]

/-! ### Writes of registers -/

@[simp] theorem State.afterWrite_safe (a : Nat) : (t.afterWrite a).dev = .safe ↔ t.dev = .safe := by
  simp -implicitDefEqProofs [State.afterWrite]

@[simp] theorem storeChecked_safe (a : Nat) (v : Word) : (storeChecked a v t).1.dev = .safe ↔ t.dev = .safe := by
  unfold storeChecked; dsimp only; split
  · rfl
  · split <;> simp

@[simp] theorem thenDo_safe (r : State × Nat) (b : Bool) {g : State → State × Nat} (hg : ∀ u, (g u).1.dev = .safe ↔ u.dev = .safe) :
    (thenDo r b g).1.dev = .safe ↔ r.1.dev = .safe := by
  simp [thenDo, hg]

@[simp] theorem prioWrite_safe (v : Word) : (prioWrite v t).1.dev = .safe ↔ t.dev = .safe := by simp [prioWrite]

@[simp] theorem feedTcfgWrite_safe (f : Fin 4) (v : Word) : (feedTcfgWrite f v t).1.dev = .safe ↔ t.dev = .safe := by simp [feedTcfgWrite]

@[simp] theorem leadStatWrite_safe (n : Fin 16) (v : Word) : (leadStatWrite n v t).1.dev = .safe ↔ t.dev = .safe := by simp [leadStatWrite]

@[simp] theorem chOwned_safe (n : Fin 64) {g : State → State × Nat} (hg : ∀ u, (g u).1.dev = .safe ↔ u.dev = .safe) :
    (chOwned n g t).1.dev = .safe ↔ t.dev = .safe := by simp [chOwned, hg]

@[simp] theorem channelWrite_safe (n : Fin 64) (k : Nat) (v : Word) : (channelWrite n k v t).1.dev = .safe ↔ t.dev = .safe := by
  unfold channelWrite
  split <;> simp

@[simp] theorem specialWrite_safe (a : Nat) (v : Word) : (specialWrite a v t).1.dev = .safe ↔ t.dev = .safe := by simp [specialWrite]

@[simp] theorem State.copyShadows_safe : t.copyShadows.dev = .safe ↔ t.dev = .safe := by simp [State.copyShadows]

theorem ite_some_notSafe {c : Prop} [Decidable c] {x : State × Nat} {y : Option (State × Nat)} (hx : x.1.dev ≠ .safe)
    (hy : ∀ r, y = some r → r.1.dev ≠ .safe) : ∀ r, (if c then some x else y) = some r → r.1.dev ≠ .safe := by
  intro r hr
  split at hr
  · exact Option.some.inj hr ▸ hx
  · exact hy r hr

theorem commandWrite_notSafe (h : t.dev ≠ .safe) (p : Port) (a : Nat) (v : Word) :
    ∀ r, commandWrite p a v t = some r → r.1.dev ≠ .safe := by
  unfold commandWrite
  dsimp only
  repeat' refine ite_some_notSafe ?_ ?_
  all_goals repeat' split
  all_goals simp [h, -Fin.ofNat_eq_cast]

@[simp] theorem route_notSafe (h : t.dev ≠ .safe) (p : Port) (a : Nat) (v : Word) : (route p a v t).1.dev ≠ .safe := by
  unfold route
  split
  · exact commandWrite_notSafe h p a v _ ‹_›
  · simp [h]

@[simp] theorem gated_notSafe (h : t.dev ≠ .safe) (p : Port) (a : Nat) (v : Word) {g : State → State × Nat}
    (hg : (g t).1.dev ≠ .safe) : (gated p a v g t).1.dev ≠ .safe := by simp [gated, h, hg]

@[simp] theorem State.byPort_safe (p : Port) (a : Nat) (g : State → State × Nat) : (t.byPort p a g).dev = .safe ↔ (g t).1.dev = .safe := by
  simp [State.byPort]

@[simp] theorem State.hostDo_notSafe (h : t.dev ≠ .safe) (p : Port) (a : Nat) (v : Word) {g : State → State × Nat}
    (hg : (g t).1.dev ≠ .safe) : (t.hostDo p a v g).dev ≠ .safe := by simp [State.hostDo, h, hg]

@[simp] theorem writeWord_notSafe (h : t.dev ≠ .safe) (p : Port) (a : Nat) (v : Word) : (writeWord p a v t).1.dev ≠ .safe := by
  simp [writeWord, h]

@[simp] theorem State.hostReg_notSafe (h : t.dev ≠ .safe) (p : Port) (a : Nat) (v : Word) : (t.hostReg p a v).dev ≠ .safe := by
  simp [State.hostReg, h]

@[simp] theorem writeWords_notSafe (h : t.dev ≠ .safe) (l : List (Nat × Word)) (n : Nat) : (writeWords l n t).1.dev ≠ .safe := by
  induction l generalizing t n with
  | nil => exact h
  | cons x l ih =>
    have k := writeWord_notSafe h .stream x.1 x.2
    unfold writeWords
    dsimp only
    split
    · exact k
    · split
      · exact ih k _
      · exact k

@[simp] theorem winWrite_notSafe (h : t.dev ≠ .safe) (l : List Byte) (a : Nat) : (winWrite l a t).dev ≠ .safe := by
  fun_induction winWrite l a t with
  | case1 b0 b1 b2 b3 l a t a' r hr => simp [r, h]
  | case2 b0 b1 b2 b3 l a t a' r hr hp ih => exact ih (writeWord_notSafe h _ _ _)
  | case3 b0 b1 b2 b3 l a t a' r hr hp => exact writeWord_notSafe h _ _ _
  | case4 => exact h

@[simp] theorem allWrites_notSafe (h : t.dev ≠ .safe) (l : List (Nat × Word)) {g : Nat → Word → State → State × Nat}
    (hg : ∀ a v u, u.dev ≠ .safe → (g a v u).1.dev ≠ .safe) : (allWrites l g t).1.dev ≠ .safe := by
  have k (r : State × Nat) (hr : r.1.dev ≠ .safe) :
      (l.foldl (fun (r : State × Nat) x => if r.2 = Code.ok then g x.1 x.2 r.1 else r) r).1.dev ≠ .safe := by
    induction l generalizing r with
    | nil => exact hr
    | cons x l ih => exact ih _ (by dsimp only; split <;> simp [hr, hg])
  simp [allWrites, h, k (t, Code.ok) h]

@[simp] theorem numWrite_notSafe (h : t.dev ≠ .safe) (c : PmCmd) (m : PmNum) (d : List Byte) : (numWrite c m d t).1.dev ≠ .safe := by
  simp +contextual [numWrite, h]

/-! ### Transactions of the two-wire port, stream frames and ring frames -/

@[simp] theorem State.twWrite_notSafe (h : t.dev ≠ .safe) (c : PmCmd) (w : Wire) {g : List Byte → State → State × Nat}
    (hg : ∀ d, (g d t).1.dev ≠ .safe) : (t.twWrite c w g).dev ≠ .safe := by
  unfold State.twWrite
  split <;> simp [h, hg]

@[simp] theorem State.wire_notSafe (h : t.dev ≠ .safe) (c : PmCmd) (w : Wire) {rd : State → State} {wr : List Byte → State → State × Nat}
    (hrd : (rd t).dev ≠ .safe) (hwr : ∀ d, (wr d t).1.dev ≠ .safe) : (t.wire c w rd wr).dev ≠ .safe := by
  simp [State.wire, h, hrd, hwr]

@[simp] theorem State.wireNum_notSafe (h : t.dev ≠ .safe) (code : Nat) (k : PageSet) (w : Wire) (m : PmNum) :
    (t.wireNum code k w m).dev ≠ .safe := by
  simp [State.wireNum, h]

@[simp] theorem State.frame_notSafe (h : t.dev ≠ .safe) (cmd : Nat) (kind : FrameData) (rc : Bool) (f : StreamFrame) {g : State → State}
    (hg : (g t).dev ≠ .safe) : (t.frame cmd kind rc f g).dev ≠ .safe := by simp [State.frame, h, hg]

@[simp] theorem State.sessionFrame_notSafe (h : t.dev ≠ .safe) (cmd : Nat) (rc : Bool) (f : StreamFrame) {g : State → State}
    (hg : (g t).dev ≠ .safe) : (t.sessionFrame cmd rc f g).dev ≠ .safe := by simp [State.sessionFrame, h, hg]

@[simp] theorem State.receive_notSafe (h : t.dev ≠ .safe) (ty : Nat) (f : RingFrame) {g : State → State}
    (hg : ∀ u, u.dev ≠ .safe → (g u).dev ≠ .safe) : (t.receive ty f g).dev ≠ .safe := by
  have k := hg (t.ringBegin.forward ty f) (by simp [h])
  simp [State.receive, h, k]

@[simp] theorem State.level1_notSafe (h : t.dev ≠ .safe) (c : PmCmd) {g : State → State} (hg : (g t).dev ≠ .safe) :
    (t.level1 c g).dev ≠ .safe := by simp [State.level1, h, hg]

@[simp] theorem State.commandFrame_notSafe (h : t.dev ≠ .safe) (cmd : Nat) (f : StreamFrame) {g : State → State × Nat}
    (hg : (g t).1.dev ≠ .safe) : (t.commandFrame cmd f g).dev ≠ .safe := by simp [State.commandFrame, h, hg]

/-! ### The end of BOOT -/

theorem State.enterStandby_notSafe (failed : List (Bool × Nat)) : (t.enterStandby failed).dev ≠ .safe := by
  rcases t.enterStandby_dev failed with h | h <;> simp [h]

@[simp] theorem State.runImage_notSafe (i : BootInput) (im : Image) (slot fallback : Bool) (errA errB : Nat) (failed : List (Bool × Nat)) :
    (t.runImage i im slot fallback errA errB failed).dev ≠ .safe := State.enterStandby_notSafe _

@[simp] theorem State.recover_notSafe (i : BootInput) (errA errB : Nat) (failed : List (Bool × Nat)) :
    (t.recover i errA errB failed).dev ≠ .safe := State.enterStandby_notSafe _

end Sys2Proof.Machine
end

section
/-! SUPPORT. The commands that force no safe-off: none leads to SAFE (R31). -/

namespace Sys2Proof.Machine

variable {s t u : State}

/-! ### Commands whose choices need a split -/

theorem execPhaseMonitorFrame_notSafe (h : s.dev ≠ .safe) (n : Fin 16) (open' atMax byCmp : BitVec 16) :
    State.Ends (·.dev ≠ .safe) (execPhaseMonitorFrame n open' atMax byCmp s) := by
  refine State.ends_next (State.each_notSafe h _ fun u k => ?_)
  dsimp only
  split <;> simp

theorem execPrecisionSlotResult_notSafe (h : s.dev ≠ .safe) (slot : Fin 6) (r : Vector (BitVec 24) 4) (fast : Vector Rat 4)
    (clean : BitVec 4) (ref : Rat) : State.Ends (·.dev ≠ .safe) (execPrecisionSlotResult slot r fast clean ref s) := by
  unfold execPrecisionSlotResult
  split
  · simp [h]
  · refine State.ends_next (State.each_notSafe h _ fun u j => ?_)
    dsimp only
    repeat' split
    all_goals simp

theorem execEstimatorStep_notSafe (h : s.dev ≠ .safe) (i : Fin 6) (amps volts : Rat) (steady fresh : Bool) :
    State.Ends (·.dev ≠ .safe) (execEstimatorStep i amps volts steady fresh s) := by
  unfold execEstimatorStep
  split
  · simp [h]
  · extract_lets a temp range bad b c d e f g t q j k
    have ha : a.dev ≠ .safe := by simp [a, h]
    split
    · simp [b, ha]
    · have ht : t.1.dev ≠ .safe := by simp [t, g, f, e, d, c, ha]
      have hq : q.dev ≠ .safe := by
        simp only [q]
        split
        · simp [ht]
        · split <;> simp [ht]
      simp [k, j, hq]

theorem execThermalAnchor_notSafe (h : s.dev ≠ .safe) : State.Ends (·.dev ≠ .safe) (execThermalAnchor s) := by
  refine State.ends_next (State.each_notSafe h _ fun u n => ?_)
  split <;> simp

theorem execFieldBusPoll_notSafe (h : s.dev ≠ .safe) (b : Fin 2) : State.Ends (·.dev ≠ .safe) (execFieldBusPoll b s) := by
  unfold execFieldBusPoll
  repeat' split
  all_goals simp [h]

theorem execResetAssert_notSafe (h : s.dev ≠ .safe) : State.Ends (·.dev ≠ .safe) (execResetAssert s) := by
  simp [execResetAssert, State.bootBase_dev, h]

theorem execPowerUp_notSafe : State.Ends (·.dev ≠ .safe) (execPowerUp s) := by simp [execPowerUp, State.bootBase_dev]

theorem execLinkedLowRead_notSafe (h : s.dev ≠ .safe) (r : Reader) (c : Counter64) :
    State.Ends (·.dev ≠ .safe) (execLinkedLowRead r c s) := by
  unfold execLinkedLowRead
  repeat' split
  all_goals simp [h]

theorem execUpblock_notSafe (h : s.dev ≠ .safe) (f : StreamFrame) : State.Ends (·.dev ≠ .safe) (execUpblock f s) := by
  refine State.ends_next (State.sessionFrame_notSafe h _ _ _ ?_)
  dsimp only
  repeat' split
  all_goals simp [h]

theorem execMfrFifoStat_notSafe (h : s.dev ≠ .safe) (w : Wire) : State.Ends (·.dev ≠ .safe) (execMfrFifoStat w s) := by
  simp [execMfrFifoStat, h]

theorem execMfrFifoData_notSafe (h : s.dev ≠ .safe) (w : Wire) : State.Ends (·.dev ≠ .safe) (execMfrFifoData w s) := by
  simp [execMfrFifoData, h]

theorem execMfrFifoCtrl_notSafe (h : s.dev ≠ .safe) (w : Wire) : State.Ends (·.dev ≠ .safe) (execMfrFifoCtrl w s) := by
  refine State.ends_next (State.level1_notSafe h _ (State.wire_notSafe h _ _ h fun d => ?_))
  split <;> simp [h]

theorem execFifoctl_notSafe (h : s.dev ≠ .safe) (f : StreamFrame) : State.Ends (·.dev ≠ .safe) (execFifoctl f s) := by
  refine State.ends_next (State.commandFrame_notSafe h _ _ ?_)
  split <;> simp [h]

theorem execRdreg_notSafe (h : s.dev ≠ .safe) (f : StreamFrame) : State.Ends (·.dev ≠ .safe) (execRdreg f s) := by
  refine State.ends_next (State.frame_notSafe h _ _ _ _ ?_)
  dsimp only
  split <;> simp [h]

theorem execStreamStore_notSafe (h : s.dev ≠ .safe) (f : StreamFrame) : State.Ends (·.dev ≠ .safe) (execStreamStore f s) := by
  simp [execStreamStore, h]

theorem execBootComplete_notSafe (h : s.dev ≠ .safe) (i : BootInput) : State.Ends (·.dev ≠ .safe) (execBootComplete i s) := by
  unfold execBootComplete
  split
  · simp [h]
  · dsimp only
    repeat' split
    all_goals simp

theorem execUpdateBlockComplete_notSafe (h : s.dev ≠ .safe) (r : Fin 3) : State.Ends (·.dev ≠ .safe) (execUpdateBlockComplete r s) :=
  ⟨fun t ht hs => h (((execUpdateBlockComplete_keeps r s).out t ht).dev.symm.trans hs)⟩

theorem execOverlayMigrationWrite_notSafe (h : s.dev ≠ .safe) :
    State.Ends (·.dev ≠ .safe) (execOverlayMigrationWrite s) := by
  unfold execOverlayMigrationWrite
  split <;> simp [h]

theorem execFoxTrip_notSafe (h : s.dev ≠ .safe) (p : Fin 48) (recent : BitVec 4) :
    State.Ends (·.dev ≠ .safe) (execFoxTrip p recent s) := by
  unfold execFoxTrip
  dsimp only
  repeat' split
  all_goals simp [h]

theorem execPrestartCheckFail_notSafe (h : s.dev ≠ .safe) (n : Fin 16) (mean : Option (Fin 48)) (vmax : BitVec 16)
    (vbus : BitVec 20) (us : BitVec 32) :
    State.Ends (·.dev ≠ .safe) (execPrestartCheckFail n mean vmax vbus us s) := by
  unfold execPrestartCheckFail
  dsimp only
  repeat' split
  all_goals simp -implicitDefEqProofs [h]

theorem execLeadWarningPulse_notSafe (h : s.dev ≠ .safe) (pin : Fin 4) (w : BitVec 16) :
    State.Ends (·.dev ≠ .safe) (execLeadWarningPulse pin w s) := by
  unfold execLeadWarningPulse
  dsimp only
  repeat' split
  all_goals simp [h]

theorem execRatioStepStart_notSafe (h : s.dev ≠ .safe) (n : Fin 16) (steady : Bool) (late : Bool) :
    State.Ends (·.dev ≠ .safe) (execRatioStepStart n steady late s) := by
  unfold execRatioStepStart
  dsimp only
  repeat' split
  all_goals simp [h]

theorem execRatioStepComplete_notSafe (h : s.dev ≠ .safe) (n : Fin 16) (a : Rat) (b0 : Rat) (u0 : Rat) (b1 : Rat) (u1 : Rat) :
    State.Ends (·.dev ≠ .safe) (execRatioStepComplete n a b0 u0 b1 u1 s) := by
  unfold execRatioStepComplete
  dsimp only
  repeat' split
  all_goals simp [h]

theorem execTelemetryBlock_notSafe (h : s.dev ≠ .safe) (u : TelUnit) :
    State.Ends (·.dev ≠ .safe) (execTelemetryBlock u s) := by
  unfold execTelemetryBlock
  split <;> simp [h]

theorem execAutoZeroComplete_notSafe (h : s.dev ≠ .safe) (f : Fin 3) :
    State.Ends (·.dev ≠ .safe) (execAutoZeroComplete f s) := by
  unfold execAutoZeroComplete
  split <;> simp [h]

theorem execTransferGateOff_notSafe (h : s.dev ≠ .safe) :
    State.Ends (·.dev ≠ .safe) (execTransferGateOff s) := by
  unfold execTransferGateOff
  dsimp only
  repeat' split
  all_goals simp [h]

theorem execTransferDeadTimeEnd_notSafe (h : s.dev ≠ .safe) :
    State.Ends (·.dev ≠ .safe) (execTransferDeadTimeEnd s) := by
  unfold execTransferDeadTimeEnd
  dsimp only
  repeat' split
  all_goals simp [h]

theorem execTransferComplete_notSafe (h : s.dev ≠ .safe) (gap : BitVec 16) :
    State.Ends (·.dev ≠ .safe) (execTransferComplete gap s) := by
  unfold execTransferComplete
  split <;> simp [h]

theorem execFeedGate_notSafe (h : s.dev ≠ .safe) :
    State.Ends (·.dev ≠ .safe) (execFeedGate s) := by
  unfold execFeedGate
  split <;> simp [h]

theorem execGateConfirmTimeout_notSafe (h : s.dev ≠ .safe) (amps : Int) (vbus : BitVec 20) :
    State.Ends (·.dev ≠ .safe) (execGateConfirmTimeout amps vbus s) := by
  unfold execGateConfirmTimeout
  split <;> simp [h]

theorem execSeqStepTimeout_notSafe (h : s.dev ≠ .safe) (part : Bool) :
    State.Ends (·.dev ≠ .safe) (execSeqStepTimeout part s) := by
  unfold execSeqStepTimeout
  dsimp only
  repeat' split
  all_goals simp [h]

theorem execLaneTakeBlock_notSafe (h : s.dev ≠ .safe) (l : Fin 4) :
    State.Ends (·.dev ≠ .safe) (execLaneTakeBlock l s) := by
  unfold execLaneTakeBlock
  dsimp only
  repeat' split
  all_goals simp [h]

theorem execRecordComplete_notSafe (h : s.dev ≠ .safe) (l : Fin 4) :
    State.Ends (·.dev ≠ .safe) (execRecordComplete l s) := by
  unfold execRecordComplete
  dsimp only
  repeat' split
  all_goals simp [h]

theorem execPacketWordWrite_notSafe (h : s.dev ≠ .safe) :
    State.Ends (·.dev ≠ .safe) (execPacketWordWrite s) := by
  unfold execPacketWordWrite
  split <;> simp [h]

theorem execChannelConfigWrite_notSafe (h : s.dev ≠ .safe) (p : Port) (n : Fin 64) (cfg : Bool) (v : Word) :
    State.Ends (·.dev ≠ .safe) (execChannelConfigWrite p n cfg v s) := by
  unfold execChannelConfigWrite
  split <;> simp [h]

theorem execUnsupportedCommand_notSafe (h : s.dev ≠ .safe) (p : Port) (code : Byte) :
    State.Ends (·.dev ≠ .safe) (execUnsupportedCommand p code s) := by
  unfold execUnsupportedCommand
  split <;> simp [h]

theorem execTxnChecksComplete_notSafe (h : s.dev ≠ .safe) :
    State.Ends (·.dev ≠ .safe) (execTxnChecksComplete s) := by
  unfold execTxnChecksComplete
  dsimp only
  repeat' split
  all_goals simp [h]

theorem execStoreComplete_notSafe (h : s.dev ≠ .safe) (ok : Bool) :
    State.Ends (·.dev ≠ .safe) (execStoreComplete ok s) := by
  unfold execStoreComplete
  split <;> simp [h]

theorem execFieldBusTransactionDone_notSafe (h : s.dev ≠ .safe) (b : Fin 2) (r : Fin 4) (data : List Byte) :
    State.Ends (·.dev ≠ .safe) (execFieldBusTransactionDone b r data s) := by
  unfold execFieldBusTransactionDone
  split <;> simp -implicitDefEqProofs [h]

theorem execFieldBusArbLost_notSafe (h : s.dev ≠ .safe) (b : Fin 2) :
    State.Ends (·.dev ≠ .safe) (execFieldBusArbLost b s) := by
  unfold execFieldBusArbLost
  split <;> simp -implicitDefEqProofs [h]

theorem execOnoff_notSafe (h : s.dev ≠ .safe) (f : RingFrame) :
    State.Ends (·.dev ≠ .safe) (execOnoff f s) := by
  unfold execOnoff
  split <;> simp [h]

theorem execMasterPeriodicSend_notSafe (h : s.dev ≠ .safe) (kind : Fin 4) :
    State.Ends (·.dev ≠ .safe) (execMasterPeriodicSend kind s) := by
  unfold execMasterPeriodicSend
  dsimp only
  repeat' split
  all_goals simp [h]

theorem execRecordNvmWrite_notSafe (h : s.dev ≠ .safe) (fail1 : Bool) (fail2 : Bool) :
    State.Ends (·.dev ≠ .safe) (execRecordNvmWrite fail1 fail2 s) := by
  unfold execRecordNvmWrite
  dsimp only
  repeat' split
  all_goals simp [h]

theorem execSnapshotCopyComplete_notSafe (h : s.dev ≠ .safe) :
    State.Ends (·.dev ≠ .safe) (execSnapshotCopyComplete s) := by
  unfold execSnapshotCopyComplete
  split <;> simp [h]

/-! ### Every command -/

/-- The commands that may force a safe-off. -/
def forcesSafe : Instr → Bool
  | .dieTempReading _ _ | .heartbeatLoss | .ownSupplyLadderStage _ | .clockMonitorWindow _ |
    .voteWindowClose | .voterWatchdog | .wireFault _ _ => true
  | _ => false

theorem exec_notSafe (c : Instr) (hc : forcesSafe c = false) (h : s.dev ≠ .safe) : State.Ends (·.dev ≠ .safe) (exec c s) := by
  cases c with
  | powerUp => exact execPowerUp_notSafe
  | vddioModeLatch v33 => simp -implicitDefEqProofs [exec, execVddioModeLatch, h]
  | resetAssert => exact execResetAssert_notSafe h
  | resetRelease => simp [exec, execResetRelease, h]
  | bootComplete j => exact execBootComplete_notSafe h j
  | overlayMigrationWrite => exact execOverlayMigrationWrite_notSafe h
  | reload p confirm => simp [exec, execReload, h]
  | restart p confirm => simp [exec, execRestart, h]
  | dormouse p confirm => simp [exec, execDormouse, h]
  | enChange level lowMs => simp [exec, execEnChange, h]
  | dieTempReading tctl tsns => exact nomatch hc
  | dieHotResume => simp [exec, execDieHotResume, h]
  | heartbeatLoss => exact nomatch hc
  | safeFeedGateOff => simp [exec, execSafeFeedGateOff, h]
  | eccError e => simp [exec, execEccError, h]
  | supplyMeasure v5 vin => simp [exec, execSupplyMeasure, h]
  | ownSupplyLadderStage k => exact nomatch hc
  | forcedL5 => simp [exec, execForcedL5, h]
  | extest => simp [exec, execExtest, h]
  | idcode => simp [exec, execIdcode, h]
  | samplePreload cells => simp [exec, execSamplePreload, h]
  | clamp => simp [exec, execClamp, h]
  | highz => simp [exec, execHighz, h]
  | debug k => simp [exec, execDebug, h]
  | bypass code => simp [exec, execBypass, h]
  | syncEdge hi lo gap ppm => simp [exec, execSyncEdge, h]
  | syncMissingPeriod => simp -implicitDefEqProofs [exec, execSyncMissingPeriod, h]
  | syncAligned => simp [exec, execSyncAligned, h]
  | xinLoss => simp [exec, execXinLoss, h]
  | clockMonitorWindow count => exact nomatch hc
  | timerMatch n c => simp [exec, execTimerMatch, h]
  | timerCtrlWrite p n v => simp [exec, execTimerCtrlWrite, h]
  | timerRelease p n => simp [exec, execTimerRelease, h]
  | timerCntWrite p n v => simp [exec, execTimerCntWrite, h]
  | timerCompareWrite p n c v => simp [exec, execTimerCompareWrite, h]
  | timerActWrite p n v => simp [exec, execTimerActWrite, h]
  | tmGstart p mask => simp [exec, execTmGstart, h]
  | tmGstop p mask => simp [exec, execTmGstop, h]
  | tmGclr p mask => simp [exec, execTmGclr, h]
  | linkedLowRead r c => exact execLinkedLowRead_notSafe h r c
  | frameStart n => simp [exec, execFrameStart, h]
  | onEdge p minOff => simp [exec, execOnEdge, h]
  | blankingEnd p crossing => simp [exec, execBlankingEnd, h]
  | peakTrip p => simp [exec, execPeakTrip, h]
  | maxonEnd p => simp [exec, execMaxonEnd, h]
  | phaseSample p code => simp [exec, execPhaseSample, h]
  | averageCeilingExceeded p => simp [exec, execAverageCeilingExceeded, h]
  | foxTrip p recent => exact execFoxTrip_notSafe h p recent
  | foxHoldEnd p => simp [exec, execFoxHoldEnd, h]
  | delayLineCalibration bad => simp [exec, execDelayLineCalibration, h]
  | prestartCheckFail n mean vmax vbus us => exact execPrestartCheckFail_notSafe h n mean vmax vbus us
  | prestartCheckPass n vmax => simp [exec, execPrestartCheckPass, h]
  | softStartBegin n out => simp [exec, execSoftStartBegin, h]
  | loopUpdate n fine coarse => simp [exec, execLoopUpdate, h]
  | vsetWrite p n v => simp [exec, execVsetWrite, h]
  | leadWarningPulse pin w => exact execLeadWarningPulse_notSafe h pin w
  | leadSuspendClear p n => simp [exec, execLeadSuspendClear, h]
  | injectionEnable p n v => simp [exec, execInjectionEnable, h]
  | balanceStep n => simp -implicitDefEqProofs [exec, execBalanceStep, h]
  | overloadCompare n => simp [exec, execOverloadCompare, h]
  | overloadTimeout n => simp [exec, execOverloadTimeout, h]
  | phaseMonitorFrame n opened atMax byCmp => exact execPhaseMonitorFrame_notSafe h n opened atMax byCmp
  | loopEngineFailure n cause slotBad missed gap => simp [exec, execLoopEngineFailure, h]
  | precisionWindow j v => simp [exec, execPrecisionWindow, h]
  | precisionSlotResult slot r fast clean ref => exact execPrecisionSlotResult_notSafe h slot r fast clean ref
  | precSnapRead p k => simp [exec, execPrecSnapRead, h]
  | trimTargetUpdate => simp [exec, execTrimTargetUpdate, h]
  | zeroLearnWindow p mean fox => simp [exec, execZeroLearnWindow, h]
  | ratioStepStart n steady late => exact execRatioStepStart_notSafe h n steady late
  | ratioStepComplete n a b0 u0 b1 u1 => exact execRatioStepComplete_notSafe h n a b0 u0 b1 u1
  | energyBalancePoint src ps px pc ic => simp [exec, execEnergyBalancePoint, h]
  | calibrationSave => simp [exec, execCalibrationSave, h]
  | telemetryBlock u => exact execTelemetryBlock_notSafe h u
  | minmaxRead p m => simp [exec, execMinmaxRead, h]
  | energyClear p f => simp [exec, execEnergyClear, h]
  | autoZeroStart f => simp [exec, execAutoZeroStart, h]
  | autoZeroComplete f => exact execAutoZeroComplete_notSafe h f
  | seatQualified => simp [exec, execSeatQualified, h]
  | seatLoss seat1 seat2 => simp [exec, execSeatLoss, h]
  | unseatTimeout => simp [exec, execUnseatTimeout, h]
  | inrushComplete f => simp [exec, execInrushComplete, h]
  | vbusQualified => simp [exec, execVbusQualified, h]
  | inrushTimeout f amps vbus => simp [exec, execInrushTimeout, h]
  | feedQualified f => simp [exec, execFeedQualified, h]
  | returnDelayExpiry f => simp [exec, execReturnDelayExpiry, h]
  | feedUv f => simp [exec, execFeedUv, h]
  | feedOv f => simp [exec, execFeedOv, h]
  | feedRev f => simp [exec, execFeedRev, h]
  | transferGateOff => exact execTransferGateOff_notSafe h
  | transferDeadTimeEnd => exact execTransferDeadTimeEnd_notSafe h
  | transferComplete gap => exact execTransferComplete_notSafe h gap
  | feedGate => exact execFeedGate_notSafe h
  | gateConfirmTimeout amps vbus => exact execGateConfirmTimeout_notSafe h amps vbus
  | faultTimerTrip f amps vbus => simp [exec, execFaultTimerTrip, h]
  | feedFox f amps vbus => simp [exec, execFeedFox, h]
  | toggle p confirm => simp [exec, execToggle, h]
  | retryTimerExpiry => simp [exec, execRetryTimerExpiry, h]
  | retryTimerSave => simp [exec, execRetryTimerSave, h]
  | feedPinWrite p pin => simp [exec, execFeedPinWrite, h]
  | busLadderEntry k => simp [exec, execBusLadderEntry, h]
  | busLadderRelease => simp [exec, execBusLadderRelease, h]
  | feedLeak => simp [exec, execFeedLeak, h]
  | estimatorStep j amps volts steady fresh => exact execEstimatorStep_notSafe h j amps volts steady fresh
  | bthReading j code => simp [exec, execBthReading, h]
  | impedanceStep j di vpre v1ms v10ms => simp [exec, execImpedanceStep, h]
  | batRestWrite p j on => simp [exec, execBatRestWrite, h]
  | restComplete j volts => simp [exec, execRestComplete, h]
  | contactorSettled => simp [exec, execContactorSettled, h]
  | packUvCut j => simp [exec, execPackUvCut, h]
  | uvclr p j => simp [exec, execUvclr, h]
  | snap p j => simp [exec, execSnap, h]
  | restore p j => simp [exec, execRestore, h]
  | wake p confirm => simp [exec, execWake, h]
  | dormouseBusWake => simp [exec, execDormouseBusWake, h]
  | dmholdClear => simp [exec, execDmholdClear, h]
  | seqStepComplete part inwin below pgin => simp [exec, execSeqStepComplete, h]
  | seqStepTimeout part => exact execSeqStepTimeout_notSafe h part
  | force p confirm => simp [exec, execForce, h]
  | sfpulse p confirm => simp [exec, execSfpulse, h]
  | clUv n => simp [exec, execClUv, h]
  | clOv n => simp [exec, execClOv, h]
  | clFov n => simp [exec, execClFov, h]
  | windowBlankEnd n => simp [exec, execWindowBlankEnd, h]
  | pwrgdReturn => simp [exec, execPwrgdReturn, h]
  | minOffTimeExpiry => simp [exec, execMinOffTimeExpiry, h]
  | softStartShort n out => simp [exec, execSoftStartShort, h]
  | hiccupRestart n => simp [exec, execHiccupRestart, h]
  | sysfltIn => simp [exec, execSysfltIn, h]
  | sysfltHoldEnd low => simp [exec, execSysfltHoldEnd, h]
  | sysfltStuck => simp [exec, execSysfltStuck, h]
  | supervisorEvaluation a b c => simp [exec, execSupervisorEvaluation, h]
  | voteWindowClose => exact nomatch hc
  | voterWatchdog => exact nomatch hc
  | wireFault pair fresh => exact nomatch hc
  | ack p confirm => simp [exec, execAck, h]
  | safe p confirm => simp [exec, execSafe, h]
  | tsenReading n code => simp [exec, execTsenReading, h]
  | tsenFaultLevel n => simp [exec, execTsenFaultLevel, h]
  | thermalModelStep obs vin => simp [exec, execThermalModelStep, h]
  | thermalAnchor => exact execThermalAnchor_notSafe h
  | tsdclr p n confirm => simp [exec, execTsdclr, h]
  | tsdAutoClear n => simp [exec, execTsdAutoClear, h]
  | woodpeckerPauseStart k => simp [exec, execWoodpeckerPauseStart, h]
  | woodpeckerPauseEnd k => simp [exec, execWoodpeckerPauseEnd, h]
  | powerEstimate => simp [exec, execPowerEstimate, h]
  | cappingControlStep c => simp [exec, execCappingControlStep, h]
  | captureSample n raw => simp [exec, execCaptureSample, h]
  | captureTrigger p hi mask => simp [exec, execCaptureTrigger, h]
  | streamRequest p hi mask => simp [exec, execStreamRequest, h]
  | laneTakeBlock l => exact execLaneTakeBlock_notSafe h l
  | tailTimeout n => simp [exec, execTailTimeout, h]
  | recordComplete l => exact execRecordComplete_notSafe h l
  | packetWordWrite => exact execPacketWordWrite_notSafe h
  | fifoRead p => simp [exec, execFifoRead, h]
  | flush p => simp [exec, execFlush, h]
  | mark p => simp [exec, execMark, h]
  | rewind p => simp [exec, execRewind, h]
  | release p => simp [exec, execRelease, h]
  | channelConfigWrite p n cfg v => exact execChannelConfigWrite_notSafe h p n cfg v
  | streamEnableWrite p v => simp [exec, execStreamEnableWrite, h]
  | diagRead p => simp [exec, execDiagRead, h]
  | twoWireWake => simp [exec, execTwoWireWake, h]
  | twoWireSleep => simp [exec, execTwoWireSleep, h]
  | sclTimeout => simp [exec, execSclTimeout, h]
  | sdaRelease => simp [exec, execSdaRelease, h]
  | page w => simp [exec, execPage, h]
  | operation w => simp [exec, execOperation, h]
  | clearFaults w => simp -implicitDefEqProofs [exec, execClearFaults, h]
  | storeUserAll w => simp [exec, execStoreUserAll, h]
  | capability w => simp [exec, execCapability, h]
  | voutMode w => simp [exec, execVoutMode, h]
  | voutCommand w => simp [exec, execVoutCommand, h]
  | voutTransitionRate w => simp [exec, execVoutTransitionRate, h]
  | voutOvFaultLimit w => simp [exec, execVoutOvFaultLimit, h]
  | voutUvFaultLimit w => simp [exec, execVoutUvFaultLimit, h]
  | ioutOcFaultLimit w => simp [exec, execIoutOcFaultLimit, h]
  | statusByte w => simp [exec, execStatusByte, h]
  | statusWord w => simp [exec, execStatusWord, h]
  | statusVout w => simp [exec, execStatusVout, h]
  | statusIout w => simp [exec, execStatusIout, h]
  | statusInput w => simp [exec, execStatusInput, h]
  | statusTemperature w => simp [exec, execStatusTemperature, h]
  | statusCml w => simp -implicitDefEqProofs [exec, execStatusCml, h]
  | readVin w => simp [exec, execReadVin, h]
  | readIin w => simp [exec, execReadIin, h]
  | readVout w => simp [exec, execReadVout, h]
  | readIout w => simp [exec, execReadIout, h]
  | readTemperature1 w => simp [exec, execReadTemperature1, h]
  | readPout w => simp [exec, execReadPout, h]
  | readPin w => simp [exec, execReadPin, h]
  | pmbusRevision w => simp [exec, execPmbusRevision, h]
  | mfrId w => simp [exec, execMfrId, h]
  | mfrModel w => simp [exec, execMfrModel, h]
  | mfrRevision w => simp [exec, execMfrRevision, h]
  | mfrSerial w => simp [exec, execMfrSerial, h]
  | mfrWinAddr w => simp -implicitDefEqProofs [exec, execMfrWinAddr, h]
  | mfrWinData w => simp [exec, execMfrWinData, h]
  | mfrFifoData w => exact execMfrFifoData_notSafe h w
  | mfrFifoCtrl w => exact execMfrFifoCtrl_notSafe h w
  | mfrFifoStat w => exact execMfrFifoStat_notSafe h w
  | unsupportedCommand p code => exact execUnsupportedCommand_notSafe h p code
  | alertResponse won clocks => simp [exec, execAlertResponse, h]
  | rdreg f => exact execRdreg_notSafe h f
  | wrreg f => simp [exec, execWrreg, h]
  | rdfifo f => simp [exec, execRdfifo, h]
  | fifoctl f => exact execFifoctl_notSafe h f
  | streamStore f => exact execStreamStore_notSafe h f
  | registerWrite p a v => simp [exec, execRegisterWrite, h]
  | begin p => simp [exec, execBegin, h]
  | commit p token => simp [exec, execCommit, h]
  | rollback p token => simp [exec, execRollback, h]
  | txnChecksComplete => exact execTxnChecksComplete_notSafe h
  | commitTick => simp [exec, execCommitTick, h]
  | txnTimeout => simp [exec, execTxnTimeout, h]
  | store p confirm => simp [exec, execStore, h]
  | storeComplete ok => exact execStoreComplete_notSafe h ok
  | fieldBusPoll b => exact execFieldBusPoll_notSafe h b
  | fieldBusTransactionDone b r data => exact execFieldBusTransactionDone_notSafe h b r data
  | fieldBusStale b e => simp [exec, execFieldBusStale, h]
  | fieldBusArbLost b => exact execFieldBusArbLost_notSafe h b
  | fieldBusRetry b => simp [exec, execFieldBusRetry, h]
  | fieldBusHang b scl => simp [exec, execFieldBusHang, h]
  | fieldBusPowerRestore b => simp [exec, execFieldBusPowerRestore, h]
  | fieldBusResume b => simp [exec, execFieldBusResume, h]
  | pwrcycle p b confirm => simp [exec, execPwrcycle, h]
  | ringLinkUp => simp [exec, execRingLinkUp, h]
  | ringLinkDown viol => simp [exec, execRingLinkDown, h]
  | ringClaim => simp [exec, execRingClaim, h]
  | claim f => simp [exec, execClaim, h]
  | enum f => simp [exec, execEnum, h]
  | beaconSend => simp [exec, execBeaconSend, h]
  | beacon f steady rt => simp [exec, execBeacon, h]
  | budget f => simp [exec, execBudget, h]
  | capord f => simp [exec, execCapord, h]
  | onoff f => exact execOnoff_notSafe h f
  | busstate f => simp [exec, execBusstate, h]
  | time f => simp [exec, execTime, h]
  | share f => simp [exec, execShare, h]
  | report f => simp [exec, execReport, h]
  | ringBreak f => simp [exec, execRingBreak, h]
  | breakSend => simp [exec, execBreakSend, h]
  | masterPeriodicSend kind => exact execMasterPeriodicSend_notSafe h kind
  | masterLost => simp [exec, execMasterLost, h]
  | ringOpenTimeout => simp [exec, execRingOpenTimeout, h]
  | ringReenumerate => simp [exec, execRingReenumerate, h]
  | rackBudgetCompute pg => simp -implicitDefEqProofs [exec, execRackBudgetCompute, h]
  | rectifierOffline k => simp [exec, execRectifierOffline, h]
  | lnkOrderWrite p v => simp [exec, execLnkOrderWrite, h]
  | timeSlotWrite => simp [exec, execTimeSlotWrite, h]
  | recordNvmWrite fail1 fail2 => exact execRecordNvmWrite_notSafe h fail1 fail2
  | overflowRecordRewrite => simp [exec, execOverflowRecordRewrite, h]
  | owlIdxWrite p v writing => simp [exec, execOwlIdxWrite, h]
  | owlSnap p confirm => simp [exec, execOwlSnap, h]
  | snapshotFreeze => simp [exec, execSnapshotFreeze, h]
  | snapshotCopyComplete => exact execSnapshotCopyComplete_notSafe h
  | snapshotRead p => simp [exec, execSnapshotRead, h]
  | clear p confirm => simp [exec, execClear, h]
  | clearComplete => simp [exec, execClearComplete, h]
  | upopen f => simp -implicitDefEqProofs [exec, execUpopen, h]
  | upwrite f => simp [exec, execUpwrite, h]
  | upblock f => exact execUpblock_notSafe h f
  | updateBlockComplete r => exact execUpdateBlockComplete_notSafe h r
  | upclose f => simp [exec, execUpclose, h]
  | updateVerifyComplete noise => simp [exec, execUpdateVerifyComplete, h]
  | updateSessionTimeout => simp [exec, execUpdateSessionTimeout, h]
  | confirm p confirm => simp [exec, execConfirm, h]
  | cancel p confirm => simp [exec, execCancel, h]
  | trialTimeExpiry => simp [exec, execTrialTimeExpiry, h]
  | trialTimeSave => simp [exec, execTrialTimeSave, h]
  | ladderRecovery => simp [exec, execLadderRecovery, h]
  | sysfltLineRelease => simp [exec, execSysfltLineRelease, h]
  | feedLeakClear => simp [exec, execFeedLeakClear, h]
  | feedQualificationLoss f => simp [exec, execFeedQualificationLoss, h]
  | currentLimitEntry f => simp [exec, execCurrentLimitEntry, h]
  | faultTimerClear f => simp [exec, execFaultTimerClear, h]
  | ringFrameDiscard raw within => simp [exec, execRingFrameDiscard, h]

end Sys2Proof.Machine
end

section
/-! SUPPORT. The commands that may force a safe-off: in SAFE every PWM ball is then at the mid level (R56, R276). -/

namespace Sys2Proof.Machine

variable {s t u : State}

/-! ### What the PWM balls show -/

/-- What decides the levels of the PWM balls, and the device state. -/
def State.pwmSources (s : State) : DevState × TapSt × Vector PhaseSt 48 := (s.dev, s.tap, s.ph)

/-- In SAFE every PWM ball stands at the mid level. -/
def State.SafeIsMid (s : State) : Prop := s.dev = .safe → ∀ p : Fin 48, s.pwmBall p = .mid

theorem State.SafeIsMid.of_ne (h : s.dev ≠ .safe) : s.SafeIsMid := fun hs => absurd hs h

theorem State.SafeIsMid.congr (h : s.SafeIsMid) (e : t.pwmSources = s.pwmSources) : t.SafeIsMid := by
  obtain ⟨hdev, htap, hph⟩ : t.dev = s.dev ∧ t.tap = s.tap ∧ t.ph = s.ph := by simpa [State.pwmSources] using e
  intro hs p
  simpa [State.pwmBall, State.cells, htap, hph] using h (hdev ▸ hs) p

theorem State.safeOff_pwmBall (h : s.dev ≠ .safe) (p : Fin 48) : s.safeOff.pwmBall p = .mid := by
  have hmid : (s.safeOff.ph.get p).out = .mid := (State.safeOff_madeSafe h).mid p
  have htap : s.safeOff.tap.forcedMid = s.safeOff.tap.inst.drives := by
    unfold State.safeOff
    rw [if_neg (by simpa using h)]
    rfl
  unfold State.pwmBall
  cases hi : s.safeOff.tap.inst <;> simp [htap, hi, TapInst.drives, hmid]

theorem State.SafeIsMid.safeOff (h : s.SafeIsMid) : s.safeOff.SafeIsMid := by
  by_cases hs : s.dev = .safe
  · rwa [State.safeOff_of_safe hs]
  · exact fun _ => State.safeOff_pwmBall hs

/-! ### Operations that leave the balls alone -/

@[simp] theorem State.setF_pwmSources (fl : Fld) (i v : Nat) : (s.setF fl i v).pwmSources = s.pwmSources := rfl

@[simp] theorem State.incF_pwmSources (fl : Fld) (i n : Nat) : (s.incF fl i n).pwmSources = s.pwmSources := rfl

@[simp] theorem State.setSrcBit_pwmSources (src : Nat) (b : Bool) : (s.setSrcBit src b).pwmSources = s.pwmSources := rfl

@[simp] theorem State.evalAlert_pwmSources : s.evalAlert.pwmSources = s.pwmSources := rfl

@[simp] theorem State.when_pwmSources (b : Bool) {g : State → State} (hg : ∀ u, (g u).pwmSources = u.pwmSources) :
    (s.when b g).pwmSources = s.pwmSources :=
  State.when_ind (P := fun t => t.pwmSources = s.pwmSources) rfl b fun h => (hg _).trans h

@[simp] theorem State.each_pwmSources {α : Type} (l : List α) {g : State → α → State}
    (hg : ∀ u x, (g u x).pwmSources = u.pwmSources) : (s.each l g).pwmSources = s.pwmSources :=
  State.each_frame (π := State.pwmSources) hg l s

@[simp] theorem State.latchStatus_pwmSources (src : Nat) : (s.latchStatus src).pwmSources = s.pwmSources := by
  unfold State.latchStatus State.latch
  repeat' split
  all_goals simp -implicitDefEqProofs

@[simp] theorem State.raise_pwmSources (src : Nat) : (s.raise src).pwmSources = s.pwmSources := by
  unfold State.raise
  split
  · rfl
  · exact (State.latchStatus_pwmSources src).trans (State.setSrcBit_pwmSources src true)

@[simp] theorem State.histAdd_pwmSources (code : Word) : (s.histAdd code).pwmSources = s.pwmSources := by
  unfold State.histAdd
  split <;> rfl

@[simp] theorem State.evalHdone_pwmSources : s.evalHdone.pwmSources = s.pwmSources := by
  unfold State.evalHdone
  dsimp only
  split <;> rfl

/-! ### The commands that force a safe-off -/

theorem State.SafeIsMid.disagree (h : s.SafeIsMid) : s.disagree.SafeIsMid := (h.congr (State.raise_pwmSources _)).safeOff

theorem State.SafeIsMid.when (h : s.SafeIsMid) (b : Bool) {g : State → State} (hg : (g s).SafeIsMid) : (s.when b g).SafeIsMid := by
  cases b
  · exact h
  · exact hg

theorem State.carryOut_safeIsMid (h : s.dev ≠ .safe) (acts : Vector (BitVec 69) 6) : (s.carryOut acts).SafeIsMid := by
  unfold State.carryOut
  extract_lets t
  have ht : t.dev ≠ .safe := by simp [t, h]
  split
  · exact (State.SafeIsMid.of_ne ht).safeOff
  · exact .of_ne (by simp [ht])

theorem State.SafeIsMid.judgeChannels (h : s.SafeIsMid) (acts : Vector (BitVec 69) 6) (dec : BitVec 9) :
    (s.judgeChannels acts dec).SafeIsMid := by
  unfold State.judgeChannels
  extract_lets out t
  have ht : t.SafeIsMid := h.congr (State.each_pwmSources _ fun u k => State.when_pwmSources _ fun _ => State.incF_pwmSources _ _ _)
  split
  · exact ht
  · exact ht.congr ((State.raise_pwmSources _).trans (State.histAdd_pwmSources _))
  · exact ht.disagree

theorem voteWindowClose_safeIsMid (h : s.dev ≠ .safe) : (voteWindowClose s).SafeIsMid := by
  unfold voteWindowClose
  extract_lets valid acts dec rs enough seq sup begun held taken carried judged voted lowered sup' cleared
  have htaken : taken.dev ≠ .safe := by simp [taken, held, begun, h]
  have hcarried : carried.SafeIsMid := (State.SafeIsMid.of_ne htaken).when _ (State.carryOut_safeIsMid htaken _)
  have hvoted : voted.SafeIsMid := by
    have hjudged : judged.SafeIsMid := hcarried.judgeChannels _ _
    unfold voted
    split
    · split
      · exact hcarried
      · exact hcarried.disagree
    · exact hjudged.when _ hjudged.disagree
  have hlowered : lowered.SafeIsMid :=
    hvoted.congr (State.each_pwmSources _ fun u r => State.when_pwmSources _ fun v => State.setSrcBit_pwmSources _ _)
  exact hlowered.congr (State.evalAlert_pwmSources.trans (State.evalHdone_pwmSources (s := cleared)))

theorem execHeartbeatLoss_safeIsMid (h : s.dev ≠ .safe) : State.Ends State.SafeIsMid (execHeartbeatLoss s) :=
  State.ends_next ((State.SafeIsMid.of_ne (s := { s with power := { s.power with heartbeatLost := true } }) h).safeOff.congr rfl)

theorem State.wirePair_safeIsMid (h : s.dev ≠ .safe) (pair : Nat) : (s.wirePair pair).SafeIsMid := by
  unfold State.wirePair
  repeat' split
  · exact .of_ne (by simpa using h)
  · exact .of_ne h
  · exact (State.SafeIsMid.of_ne (s := { s with power := { s.power with heartbeatLost := true } }) h).safeOff
  · exact (State.SafeIsMid.of_ne h).safeOff
  · exact .of_ne h

theorem execWireFault_safeIsMid (h : s.dev ≠ .safe) (pair : BitVec 10) (fresh : Bool) :
    State.Ends State.SafeIsMid (execWireFault pair fresh s) := by
  unfold execWireFault
  exact State.ends_ite (State.ends_next (.of_ne h)) (State.ends_next (State.wirePair_safeIsMid (by simp [h]) _))

theorem execVoterWatchdog_safeIsMid (h : s.dev ≠ .safe) : State.Ends State.SafeIsMid (execVoterWatchdog s) :=
  State.ends_ite (State.ends_next (.of_ne h)) (State.ends_next (State.SafeIsMid.of_ne h).disagree)

theorem execVoteWindowClose_safeIsMid (h : s.dev ≠ .safe) : State.Ends State.SafeIsMid (execVoteWindowClose s) :=
  State.ends_ite (State.ends_next (.of_ne h)) (State.ends_next (voteWindowClose_safeIsMid h))

theorem execClockMonitorWindow_safeIsMid (h : s.dev ≠ .safe) (count : BitVec 16) :
    State.Ends State.SafeIsMid (execClockMonitorWindow count s) :=
  State.ends_ite (State.ends_next (.of_ne h)) (State.ends_ite
    (State.ends_next (State.SafeIsMid.safeOff (.of_ne (by simpa using h)))) (State.ends_next (.of_ne (by simpa using h))))

theorem execDieTempReading_safeIsMid (h : s.dev ≠ .safe) (tctl tsns : BitVec 16) :
    State.Ends State.SafeIsMid (execDieTempReading tctl tsns s) := by
  unfold execDieTempReading
  split
  · exact State.ends_next (.of_ne h)
  · extract_lets t hot wait power u
    have hu : u.dev ≠ .safe := by simp [u, t, h]
    exact State.ends_next ((State.SafeIsMid.of_ne hu).when _ (State.SafeIsMid.of_ne hu).safeOff)

/-- The first three stages lead to no entry to SAFE. -/
theorem State.stage_notSafe (h : s.dev ≠ .safe) {j : Nat} (hj : j < 3) : (s.stage (j + 1)).dev ≠ .safe := by
  obtain rfl | rfl | rfl : j = 0 ∨ j = 1 ∨ j = 2 := by omega
  all_goals simp [State.stage, State.stageAct, h]

theorem State.stage_safeIsMid (h : s.dev ≠ .safe) : (s.stage 4).SafeIsMid := by
  unfold State.stage
  extract_lets t
  split
  · exact .of_ne (by simpa [t] using h)
  · exact State.SafeIsMid.safeOff (.of_ne (by simpa [t] using h))

theorem State.stages_notSafe (h : s.dev ≠ .safe) {l : List Nat} (hl : ∀ j ∈ l, j < 3) :
    (s.each l (fun s j => s.stage (j + 1))).dev ≠ .safe := by
  induction l generalizing s with
  | nil => exact h
  | cons j l ih => exact ih (State.stage_notSafe h (hl j (.head _))) fun k hk => hl k (.tail _ hk)

theorem State.each_append {α : Type} (l l' : List α) (g : State → α → State) : s.each (l ++ l') g = (s.each l g).each l' g :=
  List.foldl_append

theorem State.stages_safeIsMid (h : s.dev ≠ .safe) (p : Nat → Bool) {m : Nat} (hm : m ≤ 4) :
    (s.each ((List.range m).filter p) (fun s j => s.stage (j + 1))).SafeIsMid := by
  have k {m : Nat} (hm : m ≤ 3) : ∀ j ∈ (List.range m).filter p, j < 3 := fun j hj =>
    (List.mem_range.1 (List.mem_filter.1 hj).1).trans_le hm
  obtain hm | rfl : m ≤ 3 ∨ m = 4 := by omega
  · exact .of_ne (State.stages_notSafe h (k hm))
  · have h3 := State.stages_notSafe h (k le_rfl)
    rw [List.range_succ, List.filter_append, State.each_append, List.filter_singleton]
    cases p 3
    · exact .of_ne h3
    · exact State.stage_safeIsMid h3

theorem execOwnSupplyLadderStage_safeIsMid (h : s.dev ≠ .safe) (k : Fin 5) :
    State.Ends State.SafeIsMid (execOwnSupplyLadderStage k s) := by
  unfold execOwnSupplyLadderStage
  split
  · exact State.ends_next (.of_ne h)
  · exact State.ends_next ((State.stages_safeIsMid (by exact h) _ (Nat.min_le_left _ _)).when _ (.of_ne (by simp [State.stage5_dev])))

theorem exec_safeIsMid (c : Instr) (h : s.dev ≠ .safe) : State.Ends State.SafeIsMid (exec c s) := by
  cases hc : forcesSafe c
  · exact ⟨fun t ht => .of_ne ((exec_notSafe c hc h).out t ht)⟩
  · cases c with
    | dieTempReading tctl tsns => exact execDieTempReading_safeIsMid h tctl tsns
    | heartbeatLoss => exact execHeartbeatLoss_safeIsMid h
    | ownSupplyLadderStage k => exact execOwnSupplyLadderStage_safeIsMid h k
    | clockMonitorWindow count => exact execClockMonitorWindow_safeIsMid h count
    | voteWindowClose => exact execVoteWindowClose_safeIsMid h
    | voterWatchdog => exact execVoterWatchdog_safeIsMid h
    | wireFault pair fresh => exact execWireFault_safeIsMid h pair fresh
    | _ => exact nomatch hc

end Sys2Proof.Machine
end

section
/-! THE STATEMENT ON EXTEST, CLAMP AND HIGHZ (O46). -/

namespace Sys2Proof.Machine

variable {s t u : State}

theorem State.tapDrive_inst_iff (s : State) (code : BitVec 8) {inst : TapInst} (h : inst ≠ .bypass) :
    (s.tapDrive code inst).tap.inst = inst ↔ s.dev = .standby ∨ s.dev = .safe := by
  rw [State.tapDrive_inst]
  split <;> simp [*, h.symm]

/-- Settles O46: what `tapDrive` loads, and `exec_safeIsMid`. -/
theorem testInstructionsOnlyInStandbyOrSafe : Obligations.TestInstructionsOnlyInStandbyOrSafe := by
  unfold Obligations.TestInstructionsOnlyInStandbyOrSafe
  exact ⟨fun s => ⟨_, rfl, s.tapDrive_inst_iff 0x00 nofun⟩, fun s => ⟨_, rfl, s.tapDrive_inst_iff 0x04 nofun⟩,
    fun s => ⟨_, rfl, s.tapDrive_inst_iff 0x05 nofun⟩, fun c s t h ht hd => (exec_safeIsMid c h).out t ht hd⟩

end Sys2Proof.Machine
end

section
/-! THE STATEMENT ON CRC-32 (O47): a bit taken into the reflected register is one step of the rule's register, most significant bit
first, seen in a mirror (R63). -/

namespace Sys2Proof.Machine

/-- One step of the reflected register that takes one bit of the input: the bit meets the register's lowest. -/
def crcTake (c : Word) (b : Bool) : Word := if c.getLsbD 0 != b then (c >>> 1) ^^^ 0xEDB88320#32 else c >>> 1

/-- A register whose pending input is mixed in shifts it out bit by bit: the lowest bit is taken, the others move down. -/
theorem crcBit_xor (c w : Word) : crcBit (c ^^^ w) = crcTake c (w.getLsbD 0) ^^^ (w >>> 1) := by
  have hbit : (c ^^^ w).getLsbD 0 = (c.getLsbD 0 != w.getLsbD 0) := by simp
  have hshift : (c ^^^ w) >>> 1 = c >>> 1 ^^^ w >>> 1 := BitVec.ushiftRight_xor_distrib ..
  unfold crcBit crcTake
  rw [hbit, hshift]
  split
  · rw [BitVec.xor_assoc, BitVec.xor_comm (w >>> 1), ← BitVec.xor_assoc]
  · rfl

theorem crcBits_xor (c w : Word) (n : Nat) : (List.range n).foldl (fun c _ => crcBit c) (c ^^^ w) =
    ((List.range n).map w.getLsbD).foldl crcTake c ^^^ (w >>> n) := by
  induction n with
  | zero => simp
  | succ n ih =>
    have hbit : (w >>> n).getLsbD 0 = w.getLsbD n := by simp
    rw [List.range_succ, List.foldl_append, ih]
    simp only [List.foldl_cons, List.foldl_nil, List.map_append, List.map_cons, List.map_nil, List.foldl_append, crcBit_xor, hbit,
      BitVec.shiftRight_add]

theorem crcByte_eq (c : Word) (b : Byte) : crcByte c b = ((List.range 8).map b.getLsbD).foldl crcTake c := by
  have hbits : (List.range 8).map (b.setWidth 32).getLsbD = (List.range 8).map b.getLsbD := by
    simp [List.range_succ]
  have hout : b.setWidth 32 >>> 8 = 0#32 := by bv_omega
  rw [crcByte, crcBits_xor, hbits, hout, BitVec.xor_zero]

theorem reverse_shiftLeft_one (c : Word) : (c <<< 1).reverse = c.reverse >>> 1 := by
  refine BitVec.eq_of_getLsbD_eq fun i hi => ?_
  rw [BitVec.getLsbD_reverse, BitVec.getMsbD_shiftLeft, BitVec.getLsbD_ushiftRight, BitVec.getLsbD_reverse, Nat.add_comm]

theorem reverse_xor (c d : Word) : (c ^^^ d).reverse = c.reverse ^^^ d.reverse := by
  refine BitVec.eq_of_getLsbD_eq fun i hi => ?_
  simp only [BitVec.getLsbD_reverse, BitVec.getMsbD_xor, BitVec.getLsbD_xor]

theorem crcTake_reverse (c : Word) (b : Bool) : crcTake c.reverse b = (crcRefBit c b).reverse := by
  have hpoly : (0x04C11DB7#32).reverse = 0xEDB88320#32 := by decide +kernel
  have hbit : c.reverse.getLsbD 0 = c.getLsbD 31 := BitVec.getLsbD_reverse.trans (by simp [BitVec.getMsbD_eq_getLsbD])
  unfold crcTake crcRefBit
  rw [hbit]
  split
  · rw [reverse_xor, reverse_shiftLeft_one, hpoly]
  · exact (reverse_shiftLeft_one c).symm

theorem crcTakes_reverse (c : Word) (l : List Bool) : l.foldl crcTake c.reverse = (l.foldl crcRefBit c).reverse := by
  induction l generalizing c with
  | nil => rfl
  | cons b l ih => rw [List.foldl_cons, crcTake_reverse, ih, List.foldl_cons]

theorem crc32_eq_crcRef (l : List Byte) : crc32 l = crcRef l := by
  have hinit : (0xFFFFFFFF#32).reverse = 0xFFFFFFFF#32 := by decide +kernel
  have hbytes : l.foldl crcByte 0xFFFFFFFF#32 = (l.flatMap fun b => (List.range 8).map b.getLsbD).foldl crcTake 0xFFFFFFFF#32 := by
    rw [List.foldl_flatMap, funext₂ crcByte_eq]
  rw [crc32, crcRef, hbytes, ← crcTakes_reverse, hinit]

/-- Settles O47: bit by bit the model's register is the reflection of the rule's; the check value is computed. -/
theorem crc32IsTheOneOfTheRule : Obligations.Crc32IsTheOneOfTheRule := by
  unfold Obligations.Crc32IsTheOneOfTheRule
  exact ⟨crc32_eq_crcRef, by decide +kernel⟩

end Sys2Proof.Machine
end

section
/-! SUPPORT. What the operations on clusters leave alone besides the units that `State.Local` names: everything but the clusters, the
phases, the words, the reports, the claims, the balls and the free values. -/

namespace Sys2Proof.Machine

variable {s t : State}

/-- A state with everything blank that an operation on clusters may change: what is left, it leaves alone. -/
def State.besideClusters (s : State) : State :=
  { s with
    regs := [], freeIdx := 0, pins := {}, ph := Vector.replicate 48 {}, cl := Vector.replicate 16 {}, seq := {}, sup := {}, owl := {}
    img := {} }

theorem State.nvm_of_besideClusters (h : t.besideClusters = s.besideClusters) : t.nvm = s.nvm := (congrArg State.nvm h :)

@[simp] theorem State.setF_besideClusters (s : State) (fl : Fld) (i v : Nat) : (s.setF fl i v).besideClusters = s.besideClusters := rfl

@[simp] theorem State.setB_besideClusters (s : State) (fl : Fld) (i : Nat) (b : Bool) : (s.setB fl i b).besideClusters = s.besideClusters := rfl

@[simp] theorem State.updCl_besideClusters (s : State) (n : Fin 16) (g : ClusterSt → ClusterSt) :
    (s.updCl n g).besideClusters = s.besideClusters := rfl

@[simp] theorem State.updPh_besideClusters (s : State) (p : Fin 48) (g : PhaseSt → PhaseSt) :
    (s.updPh p g).besideClusters = s.besideClusters := rfl

@[simp] theorem State.setFBit_besideClusters (s : State) (fl : Fld) (i k : Nat) (b : Bool) :
    (s.setFBit fl i k b).besideClusters = s.besideClusters := rfl

theorem State.setSup_besideClusters (s : State) (sup : SupSt) : State.besideClusters { s with sup := sup } = s.besideClusters := rfl

theorem State.setPen_besideClusters (s : State) (pen : BitVec 16) :
    State.besideClusters { s with pins := { s.pins with pen := pen } } = s.besideClusters := rfl

@[simp] theorem State.when_besideClusters (s : State) (b : Bool) {g : State → State} (hg : ∀ u, (g u).besideClusters = u.besideClusters) :
    (s.when b g).besideClusters = s.besideClusters :=
  State.when_ind (P := fun t => t.besideClusters = s.besideClusters) rfl b fun h => (hg _).trans h

@[simp] theorem State.each_besideClusters {α : Type} (s : State) (l : List α) {g : State → α → State}
    (hg : ∀ u x, (g u x).besideClusters = u.besideClusters) : (s.each l g).besideClusters = s.besideClusters :=
  State.each_frame (π := State.besideClusters) hg l s

/-! ### Sources and records -/

@[simp] theorem State.latch_besideClusters (s : State) (fl : Fld) (page bits : Nat) :
    (s.latch fl page bits).besideClusters = s.besideClusters := rfl

@[simp] theorem State.latchStatus_besideClusters (s : State) (src : Nat) : (s.latchStatus src).besideClusters = s.besideClusters := by
  unfold State.latchStatus
  dsimp only
  repeat' split
  all_goals simp -implicitDefEqProofs

@[simp] theorem State.raise_besideClusters (s : State) (src : Nat) : (s.raise src).besideClusters = s.besideClusters := by
  unfold State.raise
  split
  · rfl
  · exact (State.setSup_besideClusters _ _).trans ((State.latchStatus_besideClusters _ src).trans (s.setFBit_besideClusters _ _ _ _))

@[simp] theorem State.lower_besideClusters (s : State) (src : Nat) : (s.lower src).besideClusters = s.besideClusters := by
  unfold State.lower
  split <;> rfl

@[simp] theorem State.record_besideClusters (s : State) (type : Nat) (payload : List Word) :
    (s.record type payload).besideClusters = s.besideClusters := by
  unfold State.record
  split <;> rfl

@[simp] theorem State.recordSrc_besideClusters (s : State) (src sub : Nat) (items : List Word) :
    (s.recordSrc src sub items).besideClusters = s.besideClusters := s.record_besideClusters _ _

@[simp] theorem State.follow_besideClusters (s : State) (src : Nat) (b : Bool) : (s.follow src b).besideClusters = s.besideClusters := by
  unfold State.follow
  split
  · exact s.raise_besideClusters src
  · exact s.lower_besideClusters src

/-! ### The active set -/

@[simp] theorem State.fixPtr_besideClusters (s : State) (n : Fin 16) : (s.fixPtr n).besideClusters = s.besideClusters := by
  unfold State.fixPtr
  dsimp only
  repeat' split
  all_goals rfl

@[simp] theorem State.setTrim_besideClusters (s : State) (n : Fin 16) (k : Nat) (v : Int) :
    (s.setTrim n k v).besideClusters = s.besideClusters := rfl

@[simp] theorem State.setPhShed_besideClusters (s : State) (p : Fin 48) (b : Bool) :
    (s.setPhShed p b).besideClusters = s.besideClusters := rfl

@[simp] theorem State.setActiveList_besideClusters (s : State) (n : Fin 16) (new : List Nat) :
    (s.setActiveList n new).besideClusters = s.besideClusters := by
  unfold State.setActiveList
  dsimp only
  rw [State.fixPtr_besideClusters, State.each_besideClusters, State.each_besideClusters]
  · simp -implicitDefEqProofs
  · intro t k
    split <;> simp -implicitDefEqProofs
  · intro t k
    split <;> simp -implicitDefEqProofs

@[simp] theorem State.leaveActive_besideClusters (s : State) (n : Fin 16) (k : Nat) :
    (s.leaveActive n k).besideClusters = s.besideClusters := by
  unfold State.leaveActive
  dsimp only
  split
  · exact (State.updCl_besideClusters _ n _).trans (State.setActiveList_besideClusters _ n _)
  · rfl

@[simp] theorem State.evalOlim_besideClusters (s : State) (n : Fin 16) : (s.evalOlim n).besideClusters = s.besideClusters := by
  simp -implicitDefEqProofs [State.evalOlim]

@[simp] theorem State.evalPhloss_besideClusters (s : State) (n : Fin 16) : (s.evalPhloss n).besideClusters = s.besideClusters := by
  simp -implicitDefEqProofs [State.evalPhloss]

/-! ### Clusters off and on -/

@[simp] theorem State.unclaim_besideClusters (s : State) (cls idx owner : Nat) :
    (s.unclaim cls idx owner).besideClusters = s.besideClusters := rfl

@[simp] theorem State.injAbort_besideClusters (s : State) (n : Fin 16) : (s.injAbort n).besideClusters = s.besideClusters := by
  unfold State.injAbort
  dsimp only
  split <;> simp -implicitDefEqProofs

@[simp] theorem State.endBlank_besideClusters (s : State) (n : Fin 16) : (s.endBlank n).besideClusters = s.besideClusters := by
  simp -implicitDefEqProofs [State.endBlank]

@[simp] theorem State.evalPwrgd_besideClusters (s : State) : s.evalPwrgd.besideClusters = s.besideClusters := by
  unfold State.evalPwrgd
  split <;> rfl

@[simp] theorem State.draw_besideClusters (s : State) : s.draw.2.besideClusters = s.besideClusters := rfl

@[simp] theorem State.clOff_besideClusters (s : State) (n : Fin 16) : (s.clOff n).besideClusters = s.besideClusters := by
  unfold State.clOff
  split
  · rfl
  · refine (State.evalPwrgd_besideClusters _).trans ((State.setPen_besideClusters _ _).trans ?_)
    simp -implicitDefEqProofs

@[simp] theorem State.clCloff_besideClusters (s : State) (n : Fin 16) : (s.clCloff n).besideClusters = s.besideClusters := by
  simp -implicitDefEqProofs [State.clCloff]

@[simp] theorem State.removePhase_besideClusters (s : State) (n : Fin 16) (p : Fin 48) (cause src : Nat) :
    (s.removePhase n p cause src).besideClusters = s.besideClusters := by
  unfold State.removePhase
  dsimp only
  split
  · rfl
  · split <;> simp -implicitDefEqProofs

@[simp] theorem State.clStart_besideClusters (s : State) (n : Fin 16) : (s.clStart n).besideClusters = s.besideClusters := by
  unfold State.clStart
  dsimp only
  split
  · simp -implicitDefEqProofs
  · refine (State.setPen_besideClusters _ _).trans ?_
    simp -implicitDefEqProofs

end Sys2Proof.Machine
end

section
/-! SUPPORT. What an entry to a device state, the level of BEN and the start rule leave alone: the NVM but for its boot record, and
every word but theirs (R30, R34, R231). -/

namespace Sys2Proof.Machine

variable {s t u : State}

/-- The words that an entry to a device state, the level of BEN or the start rule may change: those of the entry and of the clusters,
SEQ_STAT, the status of HOLD, and the rest of pack 0. -/
def startWord (a : Nat) : Bool := enterWord a || (clusterWord a || a == 0x2202 || a == 0x2443 || a == 0x2607 || a == 0x2608)

theorem enterWord_of_startWord {a : Nat} (h : startWord a = false) : enterWord a = false := (Bool.or_eq_false_iff.mp h).1

theorem clusterWord_of_startWord {a : Nat} (h : startWord a = false) : clusterWord a = false := by
  simp only [startWord, Bool.or_eq_false_iff] at h
  obtain ⟨-, ⟨⟨⟨hcluster, -⟩, -⟩, -⟩, -⟩ := h
  exact hcluster

/-- What an entry to a device state, the level of BEN and the start rule leave alone: the NVM but for its boot record, and every other
word. -/
structure State.Starts (s t : State) : Prop where
  nvm : { t.nvm with boot := s.nvm.boot } = s.nvm
  word : ∀ a, startWord a = false → t.reg a = s.reg a

theorem State.Starts.refl (s : State) : s.Starts s := ⟨rfl, fun _ _ => rfl⟩

theorem State.Starts.trans (h : s.Starts t) (k : t.Starts u) : s.Starts u :=
  ⟨(congrArg (fun n : NvmSt => { n with boot := s.nvm.boot }) k.nvm).trans h.nvm, fun a ha => (k.word a ha).trans (h.word a ha)⟩

theorem State.Starts.nvmState (h : s.Starts t) : t.nvm.state = s.nvm.state := (congrArg NvmSt.state h.nvm :)

theorem State.Starts.f (h : s.Starts t) {fl : Fld} {i : Nat} (ha : startWord (fl.addr i) = false) : t.f fl i = s.f fl i := by
  simp only [State.f, h.word _ ha]

theorem State.Starts.fB (h : s.Starts t) {fl : Fld} {i : Nat} (ha : startWord (fl.addr i) = false) : t.fB fl i = s.fB fl i :=
  State.fB_ofF (h.f ha)

/-- A change of hidden state other than the NVM. -/
theorem State.Starts.hidden (h : s.Starts t) (hr : u.regs = t.regs) (hn : u.nvm = t.nvm) : s.Starts u :=
  h.trans ⟨by rw [hn], fun a _ => congrArg (fun l => Sparse.get regReset l a) hr⟩

theorem State.Starts.setReg (h : s.Starts t) {a : Nat} (w : Word) (ha : startWord a = true) : s.Starts (t.setReg a w) :=
  h.trans ⟨rfl, fun b hb => State.reg_setReg_ne t (fun e => by simp [e, ha] at hb) w⟩

theorem State.Starts.setF (h : s.Starts t) {fl : Fld} {i : Nat} (v : Nat) (ha : startWord (fl.addr i) = true := by decide) :
    s.Starts (t.setF fl i v) := h.setReg _ ha

theorem State.Starts.setB (h : s.Starts t) {fl : Fld} {i : Nat} (b : Bool) (ha : startWord (fl.addr i) = true := by decide) :
    s.Starts (t.setB fl i b) := h.setReg _ ha

theorem State.Starts.each {α : Type} (h : s.Starts t) (l : List α) {g : State → α → State}
    (hg : ∀ {u} x, s.Starts u → s.Starts (g u x)) : s.Starts (t.each l g) :=
  State.each_keeps t (fun _ x hu => hg x hu) l h

theorem State.Starts.when (h : s.Starts t) (b : Bool) {g : State → State} (hg : ∀ {u}, s.Starts u → s.Starts (g u)) :
    s.Starts (t.when b g) :=
  State.when_ind h b hg

theorem State.Starts.ite {c : Prop} [Decidable c] (h : s.Starts t) (k : s.Starts u) : s.Starts (if c then t else u) := by
  split
  · exact h
  · exact k

/-- An operation on clusters. -/
theorem State.Starts.thenLocal (h : s.Starts t) (k : t.Local u) (hb : u.besideClusters = t.besideClusters) : s.Starts u :=
  h.trans ⟨by rw [State.nvm_of_besideClusters hb], fun a ha => k.word a (clusterWord_of_startWord ha)⟩

theorem State.Starts.recordSrc (h : s.Starts t) (src sub : Nat) (items : List Word) : s.Starts (t.recordSrc src sub items) :=
  h.thenLocal ((State.Local.refl t).recordSrc src sub items) (t.recordSrc_besideClusters src sub items)

theorem State.Starts.histAdd (h : s.Starts t) (c : Word) : s.Starts (t.histAdd c) := by
  obtain ⟨q, hq⟩ := t.histAdd_eq c
  rw [hq]
  exact h.hidden rfl rfl

theorem State.clearRequests_nvm (s : State) : s.clearRequests.nvm = s.nvm := by
  unfold State.clearRequests
  extract_lets s₁ s₂
  have h₁ : s₁.nvm = s.nvm := State.each_frame (π := State.nvm) (fun _ _ => by rfl) _ _
  have h₂ : s₂.nvm = s₁.nvm := s₁.setF_nvm F.THM_BRDSTAT_REQ 0 0
  clear_value s₂
  exact (State.each_frame (π := State.nvm) (fun t n => t.updCl_nvm n _) _ _).trans (h₂.trans h₁)

/-- An entry to a device state writes nothing of the NVM but the trial time, and that only in SAFE (R399). -/
theorem State.enter_nvm (s : State) (d : DevState) : { (s.enter d).nvm with boot := s.nvm.boot } = s.nvm := by
  unfold State.enter
  extract_lets s₁ s₂ s₃ s₄ s₅
  have h₃ : s₃.nvm = s.nvm := s.histAdd_nvm _
  have h₄ : s₄.nvm = s.nvm := State.when_ind (P := fun t => t.nvm = s.nvm) h₃ _ fun {u} h => h
  have h₅ : s₅.nvm = s.nvm := State.when_ind (P := fun t => t.nvm = s.nvm) h₄ _ fun {u} h => u.clearRequests_nvm.trans h
  refine State.when_ind (P := fun t => { t.nvm with boot := s.nvm.boot } = s.nvm) (by rw [h₅]) _ fun {u} h => ?_
  exact h

theorem State.Starts.enter (h : s.Starts t) (d : DevState) : s.Starts (t.enter d) :=
  h.trans ⟨t.enter_nvm d, fun a ha => (t.enter_entered d).word a (enterWord_of_startWord ha)⟩

/-! ### Feeds and pack -/

theorem State.Starts.evalBen (h : s.Starts t) : s.Starts t.evalBen := by
  unfold State.evalBen
  split
  · exact h.hidden rfl rfl
  · extract_lets s₁ b s₂ pins s₃
    have h₁ : s.Starts s₁ := State.Starts.when h _ fun h => State.Starts.setB (State.Starts.setB h _) _
    have h₂ : s.Starts s₂ := by
      change s.Starts (if b then s₁ else _)
      split
      · exact h₁
      · exact h₁.hidden rfl rfl
    have h₃ : s.Starts s₃ := h₂.hidden rfl rfl
    exact State.Starts.when h₃ _ fun h => h.setB _

theorem State.Starts.connect (h : s.Starts t) (f : Fin 3) : s.Starts (t.connect f) := by
  unfold State.connect
  exact State.Starts.ite h (h.hidden rfl rfl)

theorem State.Starts.evalFeedSel (h : s.Starts t) : s.Starts t.evalFeedSel := by
  unfold State.evalFeedSel
  split
  · exact State.Starts.when h _ fun h => State.Starts.each h _ fun f h => h.connect f
  · split
    · split
      · exact h.connect _
      · exact h
    · exact h

/-! ### The start rule -/

theorem State.Starts.seqDecide (h : s.Starts t) (step dir dec : Nat) : s.Starts (t.seqDecide step dir dec) := by
  refine State.Starts.histAdd ?_ _
  exact h.hidden rfl rfl

theorem State.Starts.upBegun (h : s.Starts t) (k : Nat) : s.Starts (t.upBegun k) := by
  have hstep : s.Starts ((t.setF F.SEQ_STAT_STEP 0 k).setF F.SEQ_STAT_HIGHEST 0 (Nat.max k (t.f F.SEQ_STAT_HIGHEST))) :=
    State.Starts.setF (State.Starts.setF h _) _
  unfold State.upBegun
  exact State.Starts.hidden (hstep.seqDecide k 0 1) rfl rfl

theorem State.Starts.stepUp (h : s.Starts t) (k : Nat) : s.Starts (t.stepUp k) := by
  have hb := h.upBegun k
  unfold State.stepUp
  exact State.Starts.when (State.Starts.thenLocal hb (State.Local.each (State.Local.refl _) _ fun n h => h.clStart n)
    (State.each_besideClusters _ _ State.clStart_besideClusters)) _ fun h => h.hidden rfl rfl

theorem State.Starts.sequpEntry (h : s.Starts t) : s.Starts t.sequpEntry := by
  unfold State.sequpEntry
  extract_lets s₁ s₂ s₃ s₄
  have h₂ : s.Starts s₂ := (h.enter _).setReg 0 (by decide)
  have h₃ : s.Starts s₃ := h₂.thenLocal (State.Local.each (State.Local.refl s₂) _ fun n h =>
    State.Local.updCl (State.Local.setClB (State.Local.setCl (State.Local.setClB h n _) n _) n _) n _)
    (State.each_besideClusters _ _ fun _ _ => by simp -implicitDefEqProofs)
  have h₄ : s.Starts s₄ := State.Starts.setB (State.Starts.setB (State.Starts.setF (State.Starts.setB (State.Starts.setB h₃ _) _) _) _) _
  exact h₄.evalFeedSel.evalBen.stepUp 0

theorem State.Starts.evalStart (h : s.Starts t) : s.Starts t.evalStart := by
  unfold State.evalStart
  exact State.Starts.ite h.sequpEntry h

end Sys2Proof.Machine
end

section
/-! SUPPORT. What DEV_CTRL, DORMOUSE and its wakes bring about: the entry to BOOT, the root clock that RELOAD keeps, DMFLAG in the state
record, and the pack's balls (R31, R78, R241 to R243). -/

namespace Sys2Proof.Machine

variable {s t : State}

/-! ### Commands taken -/

/-- What the history's note of a command leaves alone (R280). -/
theorem State.accepted_rest (s : State) (a c : Nat) : (s.accepted a c).regs = s.regs ∧ (s.accepted a c).pins = s.pins ∧
    (s.accepted a c).clk = s.clk ∧ (s.accepted a c).nvm = s.nvm := by
  obtain ⟨q, hq⟩ := s.histAdd_eq (histCode 3 (a % 65536 + 65536 * (c % 256)))
  rw [State.accepted, hq]
  exact ⟨rfl, rfl, rfl, rfl⟩

theorem State.outputsReset.ofPins {u : State} (h : u.outputsReset t) (hp : u.pins = s.pins) : s.outputsReset t := by
  rwa [State.outputsReset, hp] at h

/-- A write that answers OK is carried out, with nothing refused (R340). -/
theorem State.byPort_of_ok (p : Port) (a : Nat) {g : State → State × Nat} (hg : g s = (t, Code.ok)) : s.byPort p a g = t := by
  rw [State.byPort, hg]
  exact if_pos rfl

/-- So is a port's command where its write acts at once (R350). -/
theorem State.hostDo_of_ok {p : Port} (h : s.hostOpen p) {a : Nat} {v : Word} {g : State → State × Nat} (hg : g s = (t, Code.ok)) :
    s.hostDo p a v g = t := (State.hostDo_of_hostOpen h a v g).trans (State.byPort_of_ok p a hg)

/-- DEV_CTRL with the confirm key, in a state that it is for and with nothing in progress. -/
theorem devCommand_of_ready (cmd : Nat) {ok : Bool} (hok : ok = true) (hbusy : s.nvmBusy = false) (g : State → State) :
    devCommand key cmd ok g s = (g (s.accepted 4 cmd), Code.ok) := by
  have hkey : ¬ key.toNat ≠ confirmKey := by decide
  rw [devCommand, if_neg hkey, if_neg (by simp [hok]), if_neg (by simp [hbusy])]

/-! ### The entry to BOOT -/

/-- An entry to BOOT keeps the NVM's state record (R381). -/
theorem State.enterBoot_nvmState (s : State) (cause : Nat) : (s.enterBoot cause).nvm.state = s.nvm.state := by
  have hstart : (s.bootStart cause).nvm.state = (s.leaveForBoot.bootBase (cause == 0) (cause == 4)).nvm.state := by
    unfold State.bootStart
    dsimp only
    split <;> rfl
  calc (s.enterBoot cause).nvm.state
    _ = (s.leaveForBoot.bootBase (cause == 0) (cause == 4)).nvm.state := (s.enterBoot_prepares cause).state.trans hstart
    _ = s.leaveForBoot.nvm.dropStore.state := (s.leaveForBoot.bootBase_prepares (cause == 0) (cause == 4)).state
    _ = s.nvm.state := by rw [NvmSt.dropStore_state, s.leaveForBoot_nvm]

theorem State.leaveForBoot_clk (s : State) : s.leaveForBoot.clk = s.clk := by
  unfold State.leaveForBoot
  split
  · rfl
  · exact s.enter_clk .boot

theorem State.setBootRec_clk (s : State) (g : BootRec → BootRec) : (s.setBootRec g).clk = s.clk := rfl

theorem State.activate_clk (s : State) (cause : Nat) : (s.activate cause).clk = s.clk := by
  unfold State.activate
  split
  · split
    · exact (State.record_clk _ _ _).trans (s.setBootRec_clk _)
    · split <;> rfl
  · split <;> rfl

theorem State.bootKept_clk (s : State) (cold reload : Bool) : (s.bootKept cold reload).clk = (s.bootClear cold reload).clk := by
  unfold State.bootKept State.copyFields
  rw [State.when_clk _ _ fun t => t.setB_clk _ _ _, State.each_clk _ _ fun t fl => t.setF_clk fl 0 _]

/-- RELOAD keeps the root clock; the counts of ticks and of time start again (R78). -/
theorem State.reload_clk (s : State) : (s.enterBoot 4).clk =
    { s.clk with tmr := 0, opTicks := 0, us := 0, usBoot := 0, sub := 0, ms := s.nvm.restoredMs } := by
  calc (s.enterBoot 4).clk
    _ = (s.bootStart 4).clk := State.activate_clk _ 4
    _ = (s.leaveForBoot.bootKept false true).clk := rfl
    _ = (s.leaveForBoot.bootClear false true).clk := State.bootKept_clk _ _ _
    _ = _ := by simp only [State.bootClear, if_true, s.leaveForBoot_clk, s.leaveForBoot_nvm]

/-! ### DMFLAG -/

theorem State.setDmFlag_f (s : State) (b : Bool) (fl : Fld) (i : Nat) : (s.setDmFlag b).f fl i = (s.setB F.BAT_DMSTAT_DMFLAG 0 b).f fl i :=
  State.f_ofRegs (State.saveState_regs _) fl i

theorem State.setDmFlag_flag (s : State) (b : Bool) : (s.setDmFlag b).fB F.BAT_DMSTAT_DMFLAG = b :=
  (State.fB_ofF (s.setDmFlag_f b _ _)).trans (State.fB_setB_self s (by decide) rfl 0 b)

/-- Until the ladder's stage L4 the state record takes DMFLAG at once (R26, R381). -/
theorem State.setDmFlag_saved (s : State) (b : Bool) (h : s.f F.DEV_PWRSTAT_LSTAGE < 4) : (s.setDmFlag b).nvm.state.dmFlag = b := by
  have hopen : (s.setB F.BAT_DMSTAT_DMFLAG 0 b).nvmOpen = true := by
    rw [State.nvmOpen, State.setB, State.f_setF_ne s (by decide), decide_eq_true h]
  rw [State.setDmFlag, State.saveState, if_pos hopen]
  exact State.fB_setB_self s (by decide) rfl 0 b

/-- A wake clears DMFLAG and begins BOOT with cause 5 (R242). -/
theorem State.wake_taken (s : State) : s.wake.dev = .boot ∧ s.wake.f F.DEV_PWRSTAT_BCAUSE = 5 ∧
    (s.f F.DEV_PWRSTAT_LSTAGE < 4 → s.wake.nvm.state.dmFlag = false) := by
  refine ⟨State.enterBoot_dev _ 5, State.enterBoot_bcause _ (by decide), fun h => ?_⟩
  rw [State.wake, State.enterBoot_nvmState]
  exact s.setDmFlag_saved false h

/-! ### The balls of the pack in DORMOUSE -/

theorem State.benLevel_dormouse (h : s.dev = .dormouse) : s.benLevel = false := by simp [State.benLevel, h]

theorem State.bchgLevel_dormouse (h : s.dev = .dormouse) : s.bchgLevel = false := by simp [State.bchgLevel, State.benLevel_dormouse h]

/-- In the board role BEN and BCHG are low in DORMOUSE (R231, R241). -/
theorem State.evalBen_dormouse (hrole : s.shelf = false) (hdev : s.dev = .dormouse) :
    s.evalBen.pins.ben = false ∧ s.evalBen.pins.bchg = false := by
  unfold State.evalBen
  rw [if_neg (by simp [hrole])]
  extract_lets s₁ b s₂ pins s₃
  have h₁ : s₁.dev = .dormouse := State.when_ind (P := fun t => t.dev = .dormouse) hdev _ fun h => h
  have h₂ : s₂.dev = .dormouse := by
    change State.dev (if b then s₁ else _) = _
    split
    · exact h₁
    · exact h₁
  have h₃ : s₃.pins.ben = false ∧ s₃.pins.bchg = false := ⟨State.benLevel_dormouse h₁, State.bchgLevel_dormouse h₂⟩
  exact State.when_ind (P := fun t => t.pins.ben = false ∧ t.pins.bchg = false) h₃ _ fun h => h

end Sys2Proof.Machine
end

section
/-! THE STATEMENT ON DEV_CTRL, DORMOUSE AND ITS WAKES (O2). -/

namespace Sys2Proof.Machine

variable {s : State}

/-- RELOAD keeps the root clock and the NVM's state record (R31, R78). -/
theorem reload_completes {p : Port} (hopen : s.hostOpen p) (hdev : s.dev = .standby) (hbusy : s.nvmBusy = false) :
    completes (.reload p key) s (fun t => t.dev = .boot ∧ t.f F.DEV_PWRSTAT_BCAUSE = 4 ∧ s.outputsReset t ∧
      t.clk.xinDead = s.clk.xinDead ∧ t.clk.qualified = s.clk.qualified ∧ t.pending = s.pending ∧ t.flash = s.flash ∧
      t.nvm.state = s.nvm.state) := by
  have ⟨_, himg, _, _⟩ := hopen
  have hdo : devReload key s = ((s.accepted 4 1).enterBoot 4, Code.ok) := devCommand_of_ready 1 (by simp [hdev, himg]) hbusy _
  have hexec : exec (.reload p key) s = .next ((s.accepted 4 1).enterBoot 4) := congrArg Host.Outcome.next (State.hostDo_of_ok hopen hdo)
  have hruns := (execReload_runs p key s).out _ hexec
  obtain ⟨-, hpins, hclk, hnvm⟩ := s.accepted_rest 4 1
  have hroot := (s.accepted 4 1).reload_clk
  refine ⟨_, hexec, State.enterBoot_dev _ 4, State.enterBoot_bcause _ (by decide), (State.enterBoot_outputsReset _ 4).ofPins hpins,
    ?_, ?_, hruns.pending, hruns.flash, (State.enterBoot_nvmState _ 4).trans (congrArg NvmSt.state hnvm)⟩
  · rw [hroot, hclk]
  · rw [hroot, hclk]

/-- RESTART (R31). -/
theorem restart_completes {p : Port} (hopen : s.hostOpen p) (hdev : s.dev = .standby ∨ s.dev = .safe) (hbusy : s.nvmBusy = false) :
    completes (.restart p key) s (fun t => t.dev = .boot ∧ t.f F.DEV_PWRSTAT_BCAUSE = 3 ∧ s.outputsReset t ∧
      t.pending = s.pending ∧ t.flash = s.flash) := by
  have hdo : devRestart key s = ((s.accepted 4 2).enterBoot 3, Code.ok) := devCommand_of_ready 2 (by simpa using hdev) hbusy _
  have hexec : exec (.restart p key) s = .next ((s.accepted 4 2).enterBoot 3) := congrArg Host.Outcome.next (State.hostDo_of_ok hopen hdo)
  have hruns := (execRestart_runs p key s).out _ hexec
  obtain ⟨-, hpins, -, -⟩ := s.accepted_rest 4 2
  exact ⟨_, hexec, State.enterBoot_dev _ 3, State.enterBoot_bcause _ (by decide), (State.enterBoot_outputsReset _ 3).ofPins hpins,
    hruns.pending, hruns.flash⟩

/-- DORMOUSE recorded: the command noted, the pack's balls low, the record made (R241). -/
def State.dormouseRecorded (s : State) : State :=
  let t := { s.accepted 4 3 with pins := { (s.accepted 4 3).pins with bchg := false, ben := false } }
  t.recordSrc 0x3FF 1 t.dormouseItems

theorem State.dormouseRecorded_starts (s : State) : s.Starts s.dormouseRecorded := by
  unfold State.dormouseRecorded
  refine State.Starts.recordSrc ?_ _ _ _
  exact ((State.Starts.refl s).histAdd _).hidden rfl rfl

theorem State.dormouseRecorded_keeps (s : State) : s.Keeps s.dormouseRecorded := by
  unfold State.dormouseRecorded
  refine State.recordSrc_keeps ?_ _ _ _
  exact State.keeps_lit (State.accepted_keeps (State.keeps_refl s) 4 3) rfl rfl rfl rfl rfl

theorem devDormouse_of_ready (himg : s.noImg = false) (hdev : s.dev = .standby) (hbusy : s.nvmBusy = false) (hrole : s.shelf = false)
    (hsrc : s.fB F.INP_HOLDCAP_HSRC = false) (hbat : s.fB F.BAT_CFG_EN 0 = true) :
    devDormouse key s = (((s.dormouseRecorded.setDmFlag true).enter .dormouse).evalBen, Code.ok) := by
  have hok : (s.dev == .standby && !s.noImg && !s.shelf && !s.fB F.INP_HOLDCAP_HSRC && s.fB F.BAT_CFG_EN) = true := by
    simp [himg, hdev, hrole, hsrc, hbat]
  unfold devDormouse
  exact devCommand_of_ready 3 hok hbusy _

/-- DORMOUSE (R241, R332). -/
theorem dormouse_completes {p : Port} (hopen : s.hostOpen p) (hdev : s.dev = .standby) (hbusy : s.nvmBusy = false)
    (hrole : s.shelf = false) (hsrc : s.fB F.INP_HOLDCAP_HSRC = false) (hbat : s.fB F.BAT_CFG_EN 0 = true) :
    completes (.dormouse p key) s (fun t => t.dev = .dormouse ∧ t.pins.ben = false ∧ t.pins.bchg = false ∧
      t.fB F.BAT_DMSTAT_DMFLAG = true ∧ t.fB F.HST_STAT_AWAKE = false ∧
      (s.f F.DEV_PWRSTAT_LSTAGE < 4 → t.nvm.state.dmFlag = true) ∧ t.flash = s.flash) := by
  let u := s.dormouseRecorded.setDmFlag true
  have ⟨_, himg, _, _⟩ := hopen
  have hexec : exec (.dormouse p key) s = .next (u.enter .dormouse).evalBen :=
    congrArg Host.Outcome.next (State.hostDo_of_ok hopen (devDormouse_of_ready himg hdev hbusy hrole hsrc hbat))
  have hkeep : s.Keeps u := State.setDmFlag_keeps s.dormouseRecorded_keeps true
  have hshelf : (u.enter .dormouse).shelf = false :=
    (hkeep.toMoves.enter .dormouse fun h => absurd (hkeep.dev.symm.trans h) (by simp [hdev])).role.trans hrole
  obtain ⟨hben, hbchg⟩ := State.evalBen_dormouse hshelf (u.enter_dev .dormouse)
  have hawake : (u.enter .dormouse).evalBen.fB F.HST_STAT_AWAKE = (u.enter .dormouse).fB F.HST_STAT_AWAKE :=
    (State.evalBen_sameFields _ (l := [(F.HST_STAT_AWAKE, 0)]) (by decide) (by decide) (by decide)).fB (by decide)
  have hstart : u.Starts (u.enter .dormouse).evalBen := ((State.Starts.refl u).enter .dormouse).evalBen
  refine ⟨_, hexec, State.evalBen_dev.trans (u.enter_dev .dormouse), hben, hbchg, ?_, hawake.trans (u.enter_awake .dormouse), fun h => ?_,
    ((execDormouse_runs p key s).out _ hexec).flash⟩
  · exact (hstart.fB (by decide)).trans (s.dormouseRecorded.setDmFlag_flag true)
  · have hstage : s.dormouseRecorded.f F.DEV_PWRSTAT_LSTAGE < 4 := (s.dormouseRecorded_starts.f (by decide)).trans_lt h
    exact (congrArg StateRec.dmFlag hstart.nvmState).trans (s.dormouseRecorded.setDmFlag_saved true hstage)

/-- The write of WAKE is one that DORMOUSE takes, to a register that no transaction shadows (R242, R350). -/
theorem gated_wake (p : Port) (himg : s.noImg = false) (hdev : s.dev = .dormouse) :
    gated p 0x2780 (cmdWord 1 key) (batWake key) s = ((s.accepted 0x2780 1).wake, Code.ok) := by
  have hkey : ¬ key.toNat ≠ confirmKey := by decide
  have hstored : hasStored 0x2780 = false := by decide +kernel
  have hbarred : s.writeBarred p 0x2780 (cmdWord 1 key) = Code.ok := by simp [State.writeBarred, State.served, himg, hstored]
  have hwake : batWake key s = ((s.accepted 0x2780 1).wake, Code.ok) := by rw [batWake, if_neg hkey, if_neg (by simp [hdev])]
  simp [gated, hbarred, hstored, hwake]

/-- WAKE (R242). -/
theorem wake_completes {p : Port} (hlive : s.portLive p = true) (himg : s.noImg = false) (hdev : s.dev = .dormouse) :
    completes (.wake p key) s (fun t => t.dev = .boot ∧ t.f F.DEV_PWRSTAT_BCAUSE = 5 ∧
      (s.f F.DEV_PWRSTAT_LSTAGE < 4 → t.nvm.state.dmFlag = false)) := by
  have hexec : exec (.wake p key) s = .next (s.accepted 0x2780 1).wake := by
    refine congrArg Host.Outcome.next ?_
    rw [State.hostDo, if_pos hlive, State.byPort_of_ok p _ (gated_wake p himg hdev)]
  obtain ⟨hregs, -, -, -⟩ := s.accepted_rest 0x2780 1
  obtain ⟨hboot, hcause, hflag⟩ := (s.accepted 0x2780 1).wake_taken
  exact ⟨_, hexec, hboot, hcause, fun h => hflag ((State.f_ofRegs hregs _ _).trans_lt h)⟩

/-- The return of the bus in DORMOUSE (R242). -/
theorem dormouseBusWake_completes (hdev : s.dev = .dormouse) : completes .dormouseBusWake s (fun t => t.dev = .boot ∧
    t.f F.DEV_PWRSTAT_BCAUSE = 5 ∧ (s.f F.DEV_PWRSTAT_LSTAGE < 4 → t.nvm.state.dmFlag = false)) :=
  ⟨_, congrArg Host.Outcome.next (State.when_of_true s (by simp [hdev]) _), s.wake_taken⟩

/-- DMHOLD ends with WOKE and without DMFLAG; the record, the level of BEN and the start rule that follow leave them (R243). -/
theorem dmholdClear_completes (hdev : s.dev ≠ .boot) (hhold : s.fB F.BAT_DMSTAT_DMHOLD = true) :
    completes .dmholdClear s (fun t => t.fB F.BAT_DMSTAT_DMHOLD = false ∧ t.fB F.BAT_DMSTAT_WOKE = true ∧
      t.fB F.BAT_DMSTAT_DMFLAG = false ∧ (s.f F.DEV_PWRSTAT_LSTAGE < 4 → t.nvm.state.dmFlag = false)) := by
  let u := (s.setB F.BAT_DMSTAT_DMHOLD 0 false).setB F.BAT_DMSTAT_WOKE 0 true
  have hexec : exec .dmholdClear s = .next (((u.setDmFlag false).recordSrc 0x3FF 2 []).evalBen).evalStart :=
    if_neg (by simp [hdev, hhold])
  have hstart := ((State.Starts.refl (u.setDmFlag false)).recordSrc 0x3FF 2 []).evalBen.evalStart
  have hstay {fl : Fld} (hf : fl.fits) (hap : F.BAT_DMSTAT_DMFLAG.apart fl) : (u.setDmFlag false).fB fl = u.fB fl :=
    (State.fB_ofF (u.setDmFlag_f false fl 0)).trans (State.fB_setB_apart u hf hap)
  refine ⟨_, hexec, ?_, ?_, ?_, fun h => ?_⟩
  · have hhold' : u.fB F.BAT_DMSTAT_DMHOLD = false :=
      (State.fB_setB_apart _ (by decide) (by decide)).trans (State.fB_setB_self s (by decide) rfl 0 false)
    exact (hstart.fB (by decide)).trans ((hstay (by decide) (by decide)).trans hhold')
  · have hwoke : u.fB F.BAT_DMSTAT_WOKE = true := State.fB_setB_self _ (by decide) rfl 0 true
    exact (hstart.fB (by decide)).trans ((hstay (by decide) (by decide)).trans hwoke)
  · exact (hstart.fB (by decide)).trans (u.setDmFlag_flag false)
  · have hstage : u.f F.DEV_PWRSTAT_LSTAGE < 4 :=
      ((State.f_setF_ne _ (by decide)).trans (State.f_setF_ne s (by decide))).trans_lt h
    exact (congrArg StateRec.dmFlag hstart.nvmState).trans (u.setDmFlag_saved false hstage)

/-- Settles O2: each command's own theorem, through the entry to BOOT, or through DMFLAG and what the start rule leaves alone. -/
theorem deviceCommandsAndWakesComplete : Obligations.DeviceCommandsAndWakesComplete := by
  unfold Obligations.DeviceCommandsAndWakesComplete
  exact ⟨fun _ _ => reload_completes, fun _ _ => restart_completes, fun _ _ => dormouse_completes, fun _ _ => wake_completes,
    fun _ => dormouseBusWake_completes, fun _ => dmholdClear_completes⟩

end Sys2Proof.Machine
end

section
/-! SUPPORT. The root reference: the clock's hidden state beside a frame of registers, the edges and missing periods of SYNC_IN, and
what safe-off leaves of the clock monitor's source (R80 to R84). -/

namespace Sys2Proof.Machine

variable {s t u : State} {l m : List Nat}

/-! ### Frames of registers -/

theorem State.onlyRegs.mono (h : s.onlyRegs t l) (hl : l ⊆ m) : s.onlyRegs t m := ⟨h.1, fun a ha => h.2 a fun hm => ha (hl hm)⟩

theorem State.reportsOnly.mono (h : s.reportsOnly t l) (hl : l ⊆ m) : s.reportsOnly t m :=
  ⟨h.1, fun a ha => h.2 a fun hm => ha (hl hm)⟩

/-- A field of a word that a report leaves alone reads as before. -/
theorem State.reportsOnly.f (h : s.reportsOnly t l) {fl : Fld} {i : Nat} (hr : reportWord (fl.addr i) = false) (ha : fl.addr i ∉ l) :
    t.f fl i = s.f fl i := congrArg fl.get (h.2 _ ha hr)

theorem State.onlyRegs.f (h : s.onlyRegs t l) {fl : Fld} {i : Nat} (ha : fl.addr i ∉ l) : t.f fl i = s.f fl i :=
  congrArg fl.get (h.2 _ ha)

/-- Hidden state is as before. -/
theorem State.onlyRegs.hidden {β : Type} (h : s.onlyRegs t l) {π : State → β} (hπ : ∀ (x : State) r, π { x with regs := r } = π x) :
    π t = π s := (hπ t s.regs).symm.trans (congrArg π h.1)

/-- The frame of registers does not read the clock's hidden state. -/
theorem State.onlyRegs.ofClk {c : ClockSt} (h : State.onlyRegs { s with clk := c } t l) (d : ClockSt) :
    State.onlyRegs { s with clk := d } { t with clk := d } l := ⟨congrArg (fun x : State => { x with clk := d }) h.1, h.2⟩

/-! ### PPM and the followed root -/

theorem toSigned_ofSigned {w : Nat} {v : Int} (hl : -2 ^ w ≤ v) (hu : v < 2 ^ w) :
    toSigned (w + 1) (ofSigned (w + 1) v % 2 ^ (w + 1)) = v := by
  have hw : (2 : Int) ^ (w + 1) = 2 * 2 ^ w := by rw [pow_succ, mul_comm]
  have hpow : ((2 ^ w : Nat) : Int) = 2 ^ w := by push_cast; rfl
  have hmod : ((ofSigned (w + 1) v % 2 ^ (w + 1) : Nat) : Int) = v % (2 * 2 ^ w) := by
    rw [ofSigned]
    push_cast
    rw [Int.toNat_of_nonneg (Int.emod_nonneg _ (by positivity)), hw, Int.emod_emod_of_dvd _ (dvd_refl _)]
  unfold toSigned
  rw [Nat.add_sub_cancel]
  rcases Int.lt_or_le v 0 with hneg | hpos
  · have hval : v % (2 * 2 ^ w) = v + 2 * 2 ^ w := by
      rw [← Int.add_emod_right, Int.emod_eq_of_lt (by omega) (by omega)]
    rw [if_neg (by omega), hmod, hval]
    push_cast
    omega
  · have hval : v % (2 * 2 ^ w) = v := Int.emod_eq_of_lt hpos (by omega)
    rw [if_pos (by omega), hmod, hval]

/-- A frequency within 1,000 ppm fits PPM. -/
theorem State.fS_setPpm (s : State) {ppm : Int} (hl : -10000 ≤ ppm) (hu : ppm ≤ 10000) :
    (s.setS F.CLK_STAT_PPM 0 ppm).fS F.CLK_STAT_PPM = ppm :=
  (State.fS_setS_self s (by decide) 0 ppm).trans (toSigned_ofSigned (w := 15) (by omega) (by omega))

/-- The root that begins to follow SYNC_IN (R80, R82). -/
theorem State.followSync_stat (s : State) {ppm : Int} (hl : -10000 ≤ ppm) (hu : ppm ≤ 10000) :
    (s.followSync ppm).f F.CLK_STAT_SRC = 1 ∧ (s.followSync ppm).fB F.CLK_STAT_ALIGNED = false ∧
      (s.followSync ppm).fS F.CLK_STAT_PPM = ppm := by
  refine ⟨?_, ?_, State.fS_setPpm _ hl hu⟩
  · exact (State.f_setS_apart _ (by decide) (by decide)).trans
      ((State.f_setB_apart _ (by decide) (by decide)).trans (State.f_setF_self _ (by decide) 0 1))
  · exact (State.fB_setS_apart _ (by decide) (by decide)).trans (State.fB_setB_self _ (by decide) rfl 0 false)

theorem State.onlyRegs.followSync {c : ClockSt} (h : State.onlyRegs { s with clk := c } t l) (ha : F.CLK_STAT_SRC.addr 0 ∈ l) (ppm : Int) :
    State.onlyRegs { s with clk := (t.followSync ppm).clk } (t.followSync ppm) l :=
  (((h.ofClk { t.clk with steering := true }).setF ha 1).setF (fl := F.CLK_STAT_ALIGNED) (i := 0) ha _).setF
    (fl := F.CLK_STAT_PPM) (i := 0) ha _

/-! ### Edges -/

/-- The clock as an accepted edge leaves it, before it counts for qualification or following (R81). -/
def State.edgeAccepted (s : State) : State := { s with clk := { s.clk with missing := 0, alignEdge := 0 } }

theorem exec_syncEdge_refused {hi lo gap : BitVec 32} (h : s.edgeOk hi.toNat lo.toNat gap.toNat = false) (ppm : Int) :
    exec (.syncEdge hi lo gap ppm) s = .next s := if_pos (by simp [h])

theorem exec_syncEdge_accepted {hi lo gap : BitVec 32} (h : s.edgeOk hi.toNat lo.toNat gap.toNat = true) (ppm : Int) :
    exec (.syncEdge hi lo gap ppm) s =
      .next (if s.clk.qualified then s.edgeAccepted.edgeFollow ppm else s.edgeAccepted.edgeQualify ppm) := if_neg (by simp [h])

/-- An edge within 1,000 ppm of a SYNC_IN that the root follows already (R81). -/
theorem State.edgeFollow_eq (hsrc : s.f F.CLK_STAT_SRC = 1) {ppm : Int} (hl : -10000 ≤ ppm) (hu : ppm ≤ 10000) :
    s.edgeFollow ppm = State.setS { s with clk := { s.clk with
      alignCount := s.clk.alignCount + 1, alignEdge := s.alignEdges (s.clk.alignCount + 1), missing := 0, steering := true } }
      F.CLK_STAT_PPM 0 ppm := by
  have hin : ¬(ppm < -10000 ∨ 10000 < ppm) := by omega
  unfold State.edgeFollow
  rw [if_neg (by simpa using hin)]
  exact if_pos hsrc

/-- SYNC_IN as its sixteenth edge qualifies it (R80). -/
def State.syncQualified (s : State) : State :=
  State.lower { s with clk := { s.clk with qualCount := 16, qualified := true, alignCount := 0 } } Src.syncLoss

theorem State.edgeQualify_sixteenth (hq : s.clk.qualCount = 15) {ppm : Int} (hl : -10000 ≤ ppm) (hu : ppm ≤ 10000) :
    s.edgeQualify ppm = s.syncQualified.when s.mayFollow (fun s => s.followSync ppm) := by
  have hin : ¬(ppm < -10000 ∨ 10000 < ppm) := by omega
  unfold State.edgeQualify
  rw [State.when_of_false s (by simp [hq])]
  exact (if_neg (by simp [hq, hin])).trans rfl

/-- The sixteenth edge in a row: SYNC_LOSS ends, and the root follows where it may (R80). -/
theorem State.edgeQualify_qualifies (hq : s.clk.qualCount = 15) {ppm : Int} (hl : -10000 ≤ ppm) (hu : ppm ≤ 10000) :
    (s.edgeQualify ppm).clk.qualified = true ∧ (s.edgeQualify ppm).srcBit Src.syncLoss = false ∧
      (s.mayFollow = true → (s.edgeQualify ppm).f F.CLK_STAT_SRC = 1 ∧ (s.edgeQualify ppm).fB F.CLK_STAT_ALIGNED = false ∧
        (s.edgeQualify ppm).fS F.CLK_STAT_PPM = ppm ∧ (s.edgeQualify ppm).clk.steering = true) ∧
      (s.mayFollow = false → (s.edgeQualify ppm).f F.CLK_STAT_SRC = s.f F.CLK_STAT_SRC) ∧
      State.onlyRegs { s with clk := (s.edgeQualify ppm).clk } (s.edgeQualify ppm)
        [F.CLK_STAT_SRC.addr 0, F.SUPV_SRC_SRC.addr (Src.syncLoss / 32)] := by
  obtain ⟨hbit, hregs⟩ := State.lower_spec { s with clk := { s.clk with qualCount := 16, qualified := true, alignCount := 0 } } Src.syncLoss
  have hclk : s.syncQualified.clk.qualified = true := congrArg ClockSt.qualified (State.lower_clk _ _)
  have hsrc : s.syncQualified.f F.CLK_STAT_SRC = s.f F.CLK_STAT_SRC := hregs.f (by decide)
  have hframe := hregs.mono (m := [F.CLK_STAT_SRC.addr 0, F.SUPV_SRC_SRC.addr (Src.syncLoss / 32)]) (by simp)
  rw [State.edgeQualify_sixteenth hq hl hu]
  cases hfollow : s.mayFollow with
  | false => exact ⟨hclk, hbit, by simp, fun _ => hsrc, hframe.ofClk s.syncQualified.clk⟩
  | true =>
    obtain ⟨hone, haligned, hppm⟩ := s.syncQualified.followSync_stat hl hu
    refine ⟨hclk, ?_, fun _ => ⟨hone, haligned, hppm, rfl⟩, by simp, hframe.followSync (by decide) ppm⟩
    have hword : (s.syncQualified.followSync ppm).f F.SUPV_SRC_SRC (Src.syncLoss / 32) = s.syncQualified.f F.SUPV_SRC_SRC (Src.syncLoss / 32) :=
      (State.f_setS_ne _ (by decide)).trans ((State.f_setB_ne _ (by decide)).trans (State.f_setF_ne _ (by decide)))
    exact (congrArg (Nat.testBit · (Src.syncLoss % 32)) hword).trans hbit

/-! ### Missing periods and XIN -/

/-- The clock as a missing period leaves it (R81). -/
def State.periodMissed (s : State) : State :=
  { s with clk := { s.clk with missing := s.clk.missing + 1, steering := false, alignEdge := 0 } }

/-- The clock as the fourth missing period in a row leaves it (R81). -/
def State.syncGone (s : State) : State :=
  { s.periodMissed with clk := { s.periodMissed.clk with qualified := false, qualCount := 0, missing := 0 } }

/-- Holdover, or the root free-running where XIN is lost (R81, R83). -/
def State.holdover (s : State) : State :=
  let s := s.setS F.CLK_STAT_PPM 0 0
  if s.clk.xinDead then s.setF F.CLK_STAT_SRC 0 3 else (s.setF F.CLK_STAT_SRC 0 2).setB F.CLK_STAT_HOLDOVER 0 true

theorem exec_syncMissingPeriod_early (hq : s.clk.qualified = true) (hm : s.clk.missing < 3) :
    exec .syncMissingPeriod s = .next s.periodMissed :=
  (if_neg (by simp [hq])).trans (if_pos (by omega))

theorem exec_syncMissingPeriod_fourth (hq : s.clk.qualified = true) (hm : 3 ≤ s.clk.missing) (hsrc : s.f F.CLK_STAT_SRC = 1) :
    exec .syncMissingPeriod s = .next (s.syncGone.holdover.raise Src.syncLoss) :=
  (if_neg (by simp [hq])).trans ((if_neg (by omega)).trans (if_neg (not_not.mpr hsrc)))

theorem State.holdover_stat (s : State) : s.holdover.f F.CLK_STAT_SRC = (if s.clk.xinDead then 3 else 2) ∧
    s.holdover.fS F.CLK_STAT_PPM = 0 ∧ (s.clk.xinDead = false → s.holdover.fB F.CLK_STAT_HOLDOVER = true) ∧
    s.onlyRegs s.holdover [F.CLK_STAT_SRC.addr 0] := by
  have hppm : (s.setS F.CLK_STAT_PPM 0 0).f F.CLK_STAT_PPM = 0 := State.f_setF_self s (by decide) 0 _
  have hregs : s.onlyRegs (s.setS F.CLK_STAT_PPM 0 0) [F.CLK_STAT_SRC.addr 0] := s.onlyRegs_setF F.CLK_STAT_PPM 0 _
  unfold State.holdover
  dsimp only
  rw [State.setS_clk]
  cases s.clk.xinDead with
  | true =>
    refine ⟨State.f_setF_self _ (by decide) 0 3, ?_, by simp, hregs.setF (by decide) 3⟩
    exact congrArg (toSigned 16) ((State.f_setF_apart _ (by decide) (by decide)).trans hppm)
  | false =>
    refine ⟨State.f_setF_setF_fst _ (by decide) (by decide) 2 _, ?_, fun _ => State.fB_setB_self _ (by decide) rfl 0 true,
      (hregs.setF (by decide) 2).setF (fl := F.CLK_STAT_HOLDOVER) (i := 0) (by decide) _⟩
    exact congrArg (toSigned 16) ((State.f_setB_apart _ (by decide) (by decide)).trans
      ((State.f_setF_apart _ (by decide) (by decide)).trans hppm))

/-- CLK_STAT as the loss of XIN leaves it (R83). -/
def State.xinGone (s : State) : State :=
  let s := State.setB { s with clk := { s.clk with xinDead := true } } F.CLK_STAT_XINLOSS 0 true
  s.when (s.f F.CLK_STAT_SRC != 1) (fun s => s.setF F.CLK_STAT_SRC 0 3)

theorem State.xinGone_stat (s : State) : s.xinGone.fB F.CLK_STAT_XINLOSS = true ∧ s.xinGone.clk = { s.clk with xinDead := true } ∧
    s.xinGone.f F.CLK_STAT_SRC = (if s.f F.CLK_STAT_SRC = 1 then 1 else 3) ∧
    State.onlyRegs { s with clk := { s.clk with xinDead := true } } s.xinGone [F.CLK_STAT_SRC.addr 0] := by
  let u : State := State.setB { s with clk := { s.clk with xinDead := true } } F.CLK_STAT_XINLOSS 0 true
  have hsrc : u.f F.CLK_STAT_SRC = s.f F.CLK_STAT_SRC := State.f_setB_apart _ (by decide) (by decide)
  have hloss : u.fB F.CLK_STAT_XINLOSS = true := State.fB_setB_self _ (by decide) rfl 0 true
  have hregs : State.onlyRegs { s with clk := { s.clk with xinDead := true } } u [F.CLK_STAT_SRC.addr 0] :=
    State.onlyRegs_setF _ F.CLK_STAT_XINLOSS 0 _
  change (u.when _ _).fB _ _ = true ∧ (u.when _ _).clk = _ ∧ (u.when _ _).f _ _ = _ ∧ State.onlyRegs _ (u.when _ _) _
  by_cases hone : s.f F.CLK_STAT_SRC = 1
  · rw [State.when_of_false u (by rw [hsrc, hone]; rfl), if_pos hone]
    exact ⟨hloss, rfl, hsrc.trans hone, hregs⟩
  · rw [State.when_of_true u (by rw [hsrc]; simpa using hone), if_neg hone]
    exact ⟨(State.fB_setF_apart u (by decide) (by decide)).trans hloss, rfl, State.f_setF_self u (by decide) 0 3, hregs.setF (by decide) 3⟩

/-! ### The clock monitor -/

theorem State.Guards.sysfltDrive (h : s.Guards t) : s.Guards t.sysfltDrive := by
  have hdriven : s.Guards ((t.setB F.SEQ_STAT_SFDRV 0 true).setB F.SEQ_STAT_SFLOW 0 true) := (h.setB true).setB true
  exact hdriven.ofRegs rfl id

/-- Safe-off leaves the sources of the service core's clocks as they are. -/
theorem State.Guards.safeOff (h : s.Guards t) : s.Guards t.safeOff := by
  unfold State.safeOff
  split
  · exact h
  · extract_lets s₁ s₂ s₃ s₄ s₅ pins power tap inp seq sup s₆
    have h₁ : s.Guards s₁ := h.thenLocal ((State.Local.refl t).each _ fun n h => h.clOff n)
    have h₂ : s.Guards s₂ := h₁.thenLocal ((State.Local.refl s₁).each _ fun p h => (h.setPhB p false).updPh p _)
    clear_value s₂
    have h₅ : s.Guards s₅ := ((((h₂.enter .safe).setB _).setB _).clearPendoff).setB _
    clear_value s₅
    have h₆ : s.Guards s₆ := h₅.ofRegs rfl fun _ => rfl
    exact h₆.sysfltDrive

theorem State.safeOff_srcBit_clkMon (s : State) : s.safeOff.srcBit Src.clkMon = s.srcBit Src.clkMon :=
  congrArg (Nat.testBit · (Src.clkMon % 32)) ((State.Guards.refl s).safeOff.field (F.SUPV_SRC_SRC, 20) (by decide))

end Sys2Proof.Machine
end

section
/-! THE STATEMENT ON THE ROOT REFERENCE (O5). -/

namespace Sys2Proof.Machine

/-- Settles O5: the clauses by kind of event: edges, missing periods, the end of steering, the loss of XIN, the clock monitor. -/
theorem rootReferenceEventsComplete : Obligations.RootReferenceEventsComplete := by
  unfold Obligations.RootReferenceEventsComplete
  refine ⟨?_, ?_, ?_, ?_, ?_, ?_, ?_, ?_, ?_⟩
  · intro s hi lo gap ppm hok hq hsrc hl hu
    refine ⟨_, exec_syncEdge_accepted hok ppm, ?_⟩
    rw [if_pos hq, State.edgeFollow_eq (s := s.edgeAccepted) hsrc hl hu]
    exact ⟨State.fS_setPpm _ hl hu, rfl, rfl, rfl, State.onlyRegs_setF _ F.CLK_STAT_PPM 0 _⟩
  · intro s hi lo gap ppm hok hq hcount hl hu
    refine ⟨_, exec_syncEdge_accepted hok ppm, ?_⟩
    rw [if_neg (by simp [hq])]
    exact State.edgeQualify_qualifies (s := s.edgeAccepted) hcount hl hu
  · intro s hi lo gap ppm hok
    exact ⟨s, exec_syncEdge_refused hok ppm, rfl⟩
  · intro s hq hm hsrc
    obtain ⟨hbit, hreport⟩ := s.syncGone.holdover.raise_service (src := Src.syncLoss) (by decide) (by decide)
    obtain ⟨hstat, hppm, hhold, hregs⟩ := s.syncGone.holdover_stat
    have hclk : (s.syncGone.holdover.raise Src.syncLoss).clk = s.syncGone.clk := (State.raise_clk _ _).trans (hregs.hidden fun _ _ => rfl)
    have hfield (fl : Fld) (ha : reportWord (fl.addr 0) = false := by decide) :
        (s.syncGone.holdover.raise Src.syncLoss).f fl 0 = s.syncGone.holdover.f fl 0 := hreport.f ha List.not_mem_nil
    refine ⟨_, exec_syncMissingPeriod_fourth hq hm hsrc, congrArg ClockSt.qualified hclk, congrArg ClockSt.steering hclk,
      (congrArg (toSigned 16) (hfield F.CLK_STAT_PPM)).trans hppm, hbit, (hfield F.CLK_STAT_SRC).trans hstat,
      fun hx => (State.fB_ofF (hfield F.CLK_STAT_HOLDOVER)).trans (hhold hx), ?_⟩
    rw [hclk]
    exact hregs.reportsOnly.trans hreport
  · intro s hq hm
    exact ⟨s.periodMissed, exec_syncMissingPeriod_early hq hm, rfl⟩
  · intro s hsrc hsteer
    refine ⟨s.setB F.CLK_STAT_ALIGNED 0 true, congrArg Host.Outcome.next (State.when_of_true s (by simp [hsrc, hsteer]) _),
      State.fB_setB_self s (by decide) rfl 0 true, (State.f_setB_apart s (by decide) (by decide)).trans hsrc, s.onlyRegs_setF _ 0 _⟩
  · intro s
    obtain ⟨hbit, hreport⟩ := s.xinGone.raise_service (src := Src.xinLoss) (by decide) (by decide)
    obtain ⟨hloss, hclk, hsrc, hregs⟩ := s.xinGone_stat
    have hfield (fl : Fld) (ha : reportWord (fl.addr 0) = false := by decide) :
        (s.xinGone.raise Src.xinLoss).f fl 0 = s.xinGone.f fl 0 := hreport.f ha List.not_mem_nil
    exact ⟨_, rfl, (State.fB_ofF (hfield F.CLK_STAT_XINLOSS)).trans hloss, congrArg ClockSt.xinDead ((State.raise_clk _ _).trans hclk), hbit,
      (hfield F.CLK_STAT_SRC).trans hsrc, hregs.reportsOnly.trans hreport⟩
  · intro s count hdev hl hu
    have hin : ¬(count.toNat < 376 ∨ 424 < count.toNat) := by omega
    refine ⟨s.lower Src.clkMon, ?_, s.lower_spec Src.clkMon⟩
    exact (if_neg (by simpa using hdev)).trans (if_neg (by simpa using hin))
  · intro s count hdev hout
    obtain ⟨hbit, -⟩ := s.raise_service (src := Src.clkMon) (by decide) (by decide)
    refine ⟨(s.raise Src.clkMon).safeOff, (if_neg (by simpa using hdev)).trans (if_pos (by simpa using hout)),
      (State.safeOff_srcBit_clkMon _).trans hbit, ?_⟩
    by_cases hs : (s.raise Src.clkMon).dev = .safe
    · rw [State.safeOff_of_safe hs]
      exact ⟨hs, fun hne => absurd ((State.raise_dev _).symm.trans hs) hne⟩
    · obtain hsafe := State.safeOff_madeSafe hs
      exact ⟨hsafe.dev, fun _ => ⟨hsafe.pen, hsafe.ext, hsafe.pwrgd, hsafe.off, hsafe.driven⟩⟩

end Sys2Proof.Machine
end

section
/-! SUPPORT. The registers of the general timers: stored words and bits, the claim of a timer, and what a host write of each of a
timer's registers comes to (R87 to R92, R96). -/

namespace Sys2Proof.Machine

variable {s t u : State} {l m : List Nat} {n k : Fin 32} {v : Word}

/-! ### Stored words and bits -/

theorem State.onlyRegs.refl (s : State) (l : List Nat) : s.onlyRegs s l := ⟨rfl, fun _ _ => rfl⟩

theorem State.onlyRegs.setReg (h : s.onlyRegs t l) {a : Nat} (ha : a ∈ l) (w : Word) : s.onlyRegs (t.setReg a w) l :=
  ⟨h.1, fun b hb => (State.reg_setReg_ne t (fun e => hb (by rwa [e])) w).trans (h.2 b hb)⟩

theorem State.onlyRegs.setFBit (h : s.onlyRegs t l) {fl : Fld} {i : Nat} (ha : fl.addr i ∈ l) (k : Nat) (b : Bool) :
    s.onlyRegs (t.setFBit fl i k b) l := h.setF ha _

/-- What a loop's step keeps for each of its members, the loop keeps. -/
theorem State.each_keeps_mem {α : Type} {P : State → Prop} {g : State → α → State} {xs : List α}
    (hg : ∀ u, ∀ x ∈ xs, P u → P (g u x)) (h : P s) : P (s.each xs g) := by
  induction xs generalizing s with
  | nil => exact h
  | cons x xs ih =>
    exact ih (fun u y hy => hg u y (List.mem_cons_of_mem x hy)) (hg s x (List.mem_cons_self ..) h)

/-- A stored bit of a field reads what was stored. -/
theorem State.fBit_setFBit_self (s : State) {fl : Fld} (h : fl.fits) (i : Nat) {k : Nat} (hk : k < fl.w) (b : Bool) :
    (s.setFBit fl i k b).fBit fl i k = b := by
  simp only [State.fBit, State.setFBit]
  rw [State.f_setF_self s h, Nat.testBit_mod_two_pow, testBit_setBitN_self]
  simp [hk]

theorem Fld.insert_zero (f : Fld) (x : Word) : f.insert x 0 = x &&& ~~~f.mask := by simp [Fld.insert]

/-- A field that reads 0 is cleared already. -/
theorem Fld.insert_zero_of_get {f : Fld} {x : Word} (h : f.get x = 0) : f.insert x 0 = x := by
  refine BitVec.eq_of_getLsbD_eq fun k hk => ?_
  change (f.insert x 0).toNat.testBit k = x.toNat.testBit k
  rw [Fld.testBit_insert f x 0 k hk]
  split
  case isFalse => rfl
  case isTrue hin =>
    have hbit := f.testBit_get x (k - f.lo)
    rw [h, Nat.zero_testBit, Nat.add_sub_cancel' hin.1] at hbit
    have hlt : k - f.lo < f.w := by omega
    simpa [hlt] using hbit

/-- Registers stored at the values that a function gives them. -/
theorem State.setRegs_spec (f : Nat → Word) (l : List Nat) (s : State) :
    s.onlyRegs (s.setRegs (l.map fun a => (a, f a))) l ∧ ∀ a ∈ l, (s.setRegs (l.map fun a => (a, f a))).reg a = f a := by
  have hfold : s.setRegs (l.map fun a => (a, f a)) = s.each l (fun t a => t.setReg a (f a)) := List.foldl_map
  have hkeep : ∀ (t : State) a b, t.reg b = f b → (t.setReg a (f a)).reg b = f b := fun t a b hb => by
    by_cases e : b = a
    · rw [e, State.reg_setReg_self]
    · rw [State.reg_setReg_ne t e, hb]
  rw [hfold]
  exact ⟨State.each_keeps_mem (P := fun t => s.onlyRegs t l) (fun _ a ha h => h.setReg ha _) (State.onlyRegs.refl s l),
    State.each_establishes (Q := fun a t => t.reg a = f a) (fun t a => State.reg_setReg_self t a _) hkeep l s⟩

theorem State.updTm_get_self (s : State) (n : Fin 32) (g : TimerSt → TimerSt) : (s.updTm n g).tm.get n = g (s.tm.get n) :=
  get_set_self s.tm n _

theorem State.updTm_get_ne (s : State) (h : k ≠ n) (g : TimerSt → TimerSt) : (s.updTm n g).tm.get k = s.tm.get k :=
  get_set_ne s.tm h _

/-- The words of the timers lie eight apart: registers of different places in a timer's block are different words (R405). -/
theorem Fld.addr_ne_of_place {f g : Fld} (hf : f.stride = 8) (hg : g.stride = 8) (h : f.base % 8 ≠ g.base % 8) (i j : Nat) :
    f.addr i ≠ g.addr j := by
  simp only [Fld.addr, hf, hg]
  omega

/-! ### The claim (R72, R88) -/

theorem State.claim_eq (s : State) (cls idx owner : Nat) : ∃ img, s.claim cls idx owner = { s with img := img } := by
  unfold State.claim
  split
  · exact ⟨_, rfl⟩
  · exact ⟨s.img, rfl⟩

/-- A resource that nothing owns. -/
theorem State.owner_eq_zero {cls idx : Nat} (h : ∀ o ∈ s.img.own, ¬(o.cls = cls ∧ o.idx = idx)) : s.owner cls idx = 0 := by
  have hnone : s.img.own.find? (fun o => o.cls = cls && o.idx = idx) = none := List.find?_eq_none.mpr (by simpa using h)
  rw [State.owner, hnone]
  rfl

/-- A resource that nothing owns belongs to whoever claims it (R72). -/
theorem State.claim_owner {cls idx owner : Nat} (h : ∀ o ∈ s.img.own, ¬(o.cls = cls ∧ o.idx = idx)) :
    (s.claim cls idx owner).owner cls idx = owner := by
  have hnone : s.img.own.find? (fun o => o.cls = cls && o.idx = idx) = none := List.find?_eq_none.mpr (by simpa using h)
  rw [State.claim, if_pos (State.owner_eq_zero h)]
  simp [State.owner, List.find?_append, hnone]

theorem State.tmForeign_of_free (h : ∀ o ∈ s.img.own, ¬(o.cls = 2 ∧ o.idx = n.val)) : s.tmForeign n = false := by
  rw [State.tmForeign, State.owner_eq_zero h]
  rfl

theorem State.tmClaim_alone (hf : s.tmForeign n = false) (hl : s.linked n = false) : s.tmClaim n = (s.claim 2 n 0x0E, Code.ok) := by
  obtain ⟨img, himg⟩ := s.claim_eq 2 n 0x0E
  have hl' : State.linked { s with img := img } n = false := hl
  simp [State.tmClaim, hf, hl, himg, hl']

theorem State.tmClaim_pair (hf : s.tmForeign n = false) (hm : s.tmForeign (timerMate n) = false) (hl : s.linked n = true) :
    s.tmClaim n = ((s.claim 2 n 0x0E).claim 2 (timerMate n) 0x0E, Code.ok) := by
  obtain ⟨img, himg⟩ := s.claim_eq 2 n 0x0E
  have hl' : State.linked { s with img := img } n = true := hl
  simp [State.tmClaim, hf, hl, hm, himg, hl']

/-! ### The commands, where their writes answer OK (R350) -/

section
variable {p : Port} (h : s.hostOpen p)
include h

theorem exec_timerCtrlWrite (hg : timerCtrlWrite n v s = (t, Code.ok)) : exec (.timerCtrlWrite p n v) s = .next t :=
  congrArg Host.Outcome.next (State.hostDo_of_ok h hg)

theorem exec_timerRelease (hg : timerRelease n s = (t, Code.ok)) : exec (.timerRelease p n) s = .next t :=
  congrArg Host.Outcome.next (State.hostDo_of_ok h hg)

theorem exec_timerCntWrite (hg : timerCntWrite n v s = (t, Code.ok)) : exec (.timerCntWrite p n v) s = .next t :=
  congrArg Host.Outcome.next (State.hostDo_of_ok h hg)

theorem exec_timerCompareWrite {c : Cmp} (hg : timerCompareWrite n c v s = (t, Code.ok)) : exec (.timerCompareWrite p n c v) s = .next t :=
  congrArg Host.Outcome.next (State.hostDo_of_ok h hg)

theorem exec_timerActWrite (hg : timerActWrite n v s = (t, Code.ok)) : exec (.timerActWrite p n v) s = .next t :=
  congrArg Host.Outcome.next (State.hostDo_of_ok h hg)

end

/-! ### TMn_CTRL (R88) -/

/-- The control word as it is stored: LINK reads 0 already, and RELEASE is no state. -/
theorem ctrlWord_eq (h : F.TM_CTRL_LINK.get v = 0) :
    F.TM_CTRL_RELEASE.insert (F.TM_CTRL_LINK.insert v 0) 0 &&& 0xFFFF3FFF#32 = v &&& 0xFFFF3FFF := by
  have hmask : ~~~F.TM_CTRL_RELEASE.mask &&& 0xFFFF3FFF#32 = 0xFFFF3FFF := by decide
  rw [Fld.insert_zero_of_get h, Fld.insert_zero, BitVec.and_assoc, hmask]

theorem timerCtrlWrite_alone (hc : s.tmClaim n = (t, Code.ok)) (hr : F.TM_CTRL_RELEASE.get v = 0) (hl : F.TM_CTRL_LINK.get v = 0) :
    timerCtrlWrite n v s = (t.setReg (F.TM_CTRL_RUN.addr n) (v &&& 0xFFFF3FFF), Code.ok) := by
  have haddr : F.TM_CTRL_RUN.addr n = 0x2A00 + 8 * n.val := rfl
  simp [timerCtrlWrite, hr, hl, hc, ctrlWord_eq hl, haddr]

theorem timerRelease_alone (hf : s.tmForeign n = false) (hl : s.linked n = false) :
    timerRelease n s = ((s.tmReset n).unclaim 2 n 0x0E, Code.ok) := by
  simp [timerRelease, hf, hl]

/-- A released timer's registers read their reset values, and nothing else differs but what it holds beside them (R88). -/
theorem State.tmReset_spec (s : State) (n : Fin 32) :
    (∀ k : Fin 5, (s.tmReset n).reg (0x2A00 + 8 * n.val + k.val) = regReset (0x2A00 + 8 * n.val + k.val)) ∧
      State.onlyRegs { s with tm := s.tm.set n {} } (s.tmReset n) ((List.range 5).map (fun k => 0x2A00 + 8 * n.val + k)) := by
  obtain ⟨honly, hread⟩ := State.setRegs_spec regReset ((List.range 5).map (fun k => 0x2A00 + 8 * n.val + k)) { s with tm := s.tm.set n {} }
  rw [List.map_map] at honly hread
  exact ⟨fun k => hread _ (List.mem_map_of_mem (List.mem_range.mpr k.isLt)), honly⟩

/-! ### TMn_CNT (R87, R92) -/

theorem timerCntWrite_alone (hc : s.tmClaim n = (t, Code.ok)) (hl : t.linked n = false) :
    timerCntWrite n v s = (t.updTm n (fun u => { u with load := some v }), Code.ok) := by
  simp [timerCntWrite, hc, hl]

/-- The high word of a pair takes the low word that waits with it (R92). -/
theorem timerCntWrite_high (hc : s.tmClaim n = (t, Code.ok)) (hl : t.linkedHigh n = true) :
    timerCntWrite n v s = ((t.updTm (timerMate n) (fun u => { u with load := u.hold, hold := none })).updTm n
      (fun u => { u with load := some v }), Code.ok) := by
  obtain ⟨hodd, hlink⟩ : n.val % 2 = 1 ∧ t.linked n = true := by simpa [State.linkedHigh] using hl
  simp [timerCntWrite, hc, hlink, hodd]

theorem timerMate_ne (n : Fin 32) : timerMate n ≠ n := by decide +revert

/-! ### TMn_CMPA and TMn_CMPB (R90, R91) -/

/-- A compare as LATEACT directs after a write (R91). -/
def TimerSt.arm (c : Cmp) (act : Nat) (t : TimerSt) : TimerSt :=
  match c with
  | .a => { t with armA := act != 1, fireA := act == 2 }
  | .b => { t with armB := act != 1, fireB := act == 2 }

theorem timerCompareWrite_alone {c : Cmp} (hc : s.tmClaim n = (t, Code.ok)) (hl : t.linked n = false) :
    timerCompareWrite n c v s = ((t.setReg ((cmpFld c).addr n) v).tmArm n c, Code.ok) := by
  simp [timerCompareWrite, hc, hl]

/-- How far the count stands past a compare (R91). -/
def State.tmPast (s : State) (n : Fin 32) (c : Cmp) : Nat := (s.tmCount n + 2 ^ 32 - s.tmCompare n c % 2 ^ 32) % 2 ^ 32

/-- The arming of a compare of a timer in no pair. -/
theorem State.tmArm_alone (hl : s.linked n = false) (c : Cmp) : s.tmArm n c =
    if s.tmPast n c < s.f F.TM_CTRL_LATEWIN n then (s.setFBit F.TM_LATE_LATE 0 n true).updTm n (TimerSt.arm c (s.f F.TM_CTRL_LATEACT n))
    else s.updTm n (TimerSt.arm c 0) := by
  unfold State.tmArm State.tmPast
  simp only [hl, Bool.false_eq_true, if_false]
  by_cases h : (s.tmCount n + 2 ^ 32 - s.tmCompare n c % 2 ^ 32) % 2 ^ 32 < s.f F.TM_CTRL_LATEWIN n
  · rw [State.when_of_true s (decide_eq_true h), if_pos h, if_pos h]
    cases c <;> rfl
  · rw [State.when_of_false s (decide_eq_false h), if_neg h, if_neg h]
    cases c <;> rfl

/-- A state that is armed differs in the timer alone. -/
theorem State.onlyRegs.ofTimers {img : ImgSt} (h : State.onlyRegs { s with img := img } t l) (x : Vector TimerSt 32) :
    State.onlyRegs { s with img := t.img, tm := x } { t with tm := x } l :=
  ⟨congrArg (fun y : State => { y with img := t.img, tm := x }) h.1, h.2⟩

/-- CMPA armed at once, over a state that differs in registers and claims (R90). -/
theorem State.armed_a {img : ImgSt} (h : State.onlyRegs { s with img := img } t l) (hv : t.reg (F.TM_CMPA_CMPA.addr n) = v) :
    (t.updTm n (TimerSt.arm .a 0)).reg (F.TM_CMPA_CMPA.addr n) = v ∧ ((t.updTm n (TimerSt.arm .a 0)).tm.get n).armA = true ∧
      ((t.updTm n (TimerSt.arm .a 0)).tm.get n).fireA = false ∧
      ((t.updTm n (TimerSt.arm .a 0)).tm.get n).armB = (s.tm.get n).armB ∧
      State.onlyRegs { s with img := (t.updTm n (TimerSt.arm .a 0)).img, tm := (t.updTm n (TimerSt.arm .a 0)).tm }
        (t.updTm n (TimerSt.arm .a 0)) l := by
  have htm : t.tm = s.tm := h.hidden fun _ _ => rfl
  rw [State.updTm_get_self, htm]
  exact ⟨hv, rfl, rfl, rfl, h.ofTimers _⟩

/-- CMPB as LATEACT directs, over a state that differs in registers and claims (R91). -/
theorem State.armed_b {img : ImgSt} (h : State.onlyRegs { s with img := img } t l) (hv : t.reg (F.TM_CMPB_CMPB.addr n) = v)
    (hlate : t.fBit F.TM_LATE_LATE 0 n = true) (act : Nat) :
    (t.updTm n (TimerSt.arm .b act)).reg (F.TM_CMPB_CMPB.addr n) = v ∧
      ((t.updTm n (TimerSt.arm .b act)).tm.get n).armB = (act != 1) ∧ ((t.updTm n (TimerSt.arm .b act)).tm.get n).fireB = (act == 2) ∧
      (t.updTm n (TimerSt.arm .b act)).fBit F.TM_LATE_LATE 0 n = true ∧
      State.onlyRegs { s with img := (t.updTm n (TimerSt.arm .b act)).img, tm := (t.updTm n (TimerSt.arm .b act)).tm }
        (t.updTm n (TimerSt.arm .b act)) l := by
  rw [State.updTm_get_self]
  exact ⟨hv, rfl, rfl, hlate, h.ofTimers _⟩

theorem Fld.cmpb_ne_late (n : Fin 32) : F.TM_CMPB_CMPB.addr n ≠ F.TM_LATE_LATE.addr 0 := by
  simp only [Fld.addr, F.TM_CMPB_CMPB, F.TM_LATE_LATE]
  omega

theorem cmpFld_stride (c : Cmp) : (cmpFld c).stride = 8 := by cases c <;> rfl

/-- A stored compare leaves the control word and the count of every timer as they are. -/
theorem State.f_setCompare (s : State) {fl : Fld} (hs : fl.stride = 8) (hb : fl.base % 8 < 2) (c : Cmp) (i : Nat) :
    (s.setReg ((cmpFld c).addr n) v).f fl i = s.f fl i :=
  State.f_setReg_ne s (Fld.addr_ne_of_place hs (cmpFld_stride c) (by cases c <;> simp [cmpFld, F.TM_CMPA_CMPA, F.TM_CMPB_CMPB] <;> omega) i n)

theorem State.linked_setCompare (s : State) (c : Cmp) (k : Fin 32) : (s.setReg ((cmpFld c).addr n) v).linked k = s.linked k :=
  State.fB_ofF (s.f_setCompare rfl (by decide) c _)

theorem State.f_setCompare_self (s : State) (c : Cmp) : (s.setReg ((cmpFld c).addr n) v).f (cmpFld c) n = v.toNat := by
  rw [State.f, State.reg_setReg_self]
  have hfull : (cmpFld c).get v = v.toNat >>> 0 % 2 ^ 32 := by cases c <;> rfl
  rw [hfull, Nat.shiftRight_zero, Nat.mod_eq_of_lt v.isLt]

theorem State.tmPast_setCompare (hl : s.linked n = false) (c : Cmp) :
    (s.setReg ((cmpFld c).addr n) v).tmPast n c = (s.tmCount n + 2 ^ 32 - v.toNat) % 2 ^ 32 := by
  have hlt := v.isLt
  simp only [State.tmPast, State.tmCount, State.tmCompare, State.linked_setCompare, hl, State.f_setCompare_self,
    s.f_setCompare (fl := F.TM_CNT_CNT) rfl (by decide), Bool.false_eq_true, if_false, Nat.mod_eq_of_lt hlt]

/-- A compare written in time (R90). -/
theorem State.tmArm_inTime (hl : s.linked n = false) (c : Cmp) (h : s.f F.TM_CTRL_LATEWIN n ≤ (s.tmCount n + 2 ^ 32 - v.toNat) % 2 ^ 32) :
    (s.setReg ((cmpFld c).addr n) v).tmArm n c = (s.setReg ((cmpFld c).addr n) v).updTm n (TimerSt.arm c 0) := by
  rw [State.tmArm_alone ((s.linked_setCompare c n).trans hl), State.tmPast_setCompare hl, s.f_setCompare rfl (by decide), if_neg (by omega)]

/-- A compare that the count has just passed (R91). -/
theorem State.tmArm_late (hl : s.linked n = false) (c : Cmp) (h : (s.tmCount n + 2 ^ 32 - v.toNat) % 2 ^ 32 < s.f F.TM_CTRL_LATEWIN n) :
    (s.setReg ((cmpFld c).addr n) v).tmArm n c =
      ((s.setReg ((cmpFld c).addr n) v).setFBit F.TM_LATE_LATE 0 n true).updTm n (TimerSt.arm c (s.f F.TM_CTRL_LATEACT n)) := by
  rw [State.tmArm_alone ((s.linked_setCompare c n).trans hl), State.tmPast_setCompare hl, s.f_setCompare rfl (by decide),
    s.f_setCompare rfl (by decide), if_pos h]

/-! ### TMn_ACT (R96) -/

theorem actionTarget_none {act : Nat} (h : act < 4) (tgt : Nat) : actionTarget act tgt = none := by
  have h4 : act ≠ 4 := by omega
  have h5 : act ≠ 5 := by omega
  have h6 : ¬6 ≤ act := by omega
  simp [actionTarget, h4, h5, h6]

/-- Actions that name no target are stored. -/
theorem timerActWrite_stored (hc : s.tmClaim n = (t, Code.ok)) (ha : F.TM_ACT_ACTA.get v < 4) (hb : F.TM_ACT_ACTB.get v < 4) :
    timerActWrite n v s = (t.setReg (F.TM_ACT_ACTA.addr n) (v &&& 0x03FF03FF), Code.ok) := by
  have haddr : F.TM_ACT_ACTA.addr n = 0x2A04 + 8 * n.val := rfl
  simp [timerActWrite, hc, actionTarget_none ha, actionTarget_none hb, haddr]

end Sys2Proof.Machine
end

section
/-! THE STATEMENT ON THE TIMERS' REGISTERS (O6). -/

namespace Sys2Proof.Machine

/-- Settles O6: each write takes the timer's claim, and then comes to what the lemmas above say of its register. -/
theorem timerWritesComplete : Obligations.TimerWritesComplete := by
  unfold Obligations.TimerWritesComplete
  refine ⟨?_, ?_, ?_, ?_, ?_, ?_, ?_, ?_⟩
  · intro s p n v hopen hf hl hr hk
    obtain ⟨img, himg⟩ := s.claim_eq 2 n 0x0E
    refine ⟨_, exec_timerCtrlWrite hopen (timerCtrlWrite_alone (State.tmClaim_alone hf hl) hr hk), ?_⟩
    rw [himg]
    exact ⟨State.reg_setReg_self _ _ _, (State.onlyRegs.refl _ _).setReg (List.mem_singleton_self _) _⟩
  · intro s p n v hopen hfree hl hr hk
    have hclaim := State.tmClaim_alone (State.tmForeign_of_free hfree) hl
    exact ⟨_, exec_timerCtrlWrite hopen (timerCtrlWrite_alone hclaim hr hk), State.claim_owner hfree⟩
  · intro s p n hopen hf hl
    obtain ⟨hread, hregs⟩ := s.tmReset_spec n
    refine ⟨_, exec_timerRelease hopen (timerRelease_alone hf hl), ?_⟩
    generalize s.tmReset n = u at hread hregs
    have htm : u.tm = s.tm.set n {} := hregs.hidden fun _ _ => rfl
    refine ⟨?_, hread, congrArg (fun x : State => { x with img := (u.unclaim 2 n 0x0E).img }) hregs.1, hregs.2⟩
    exact (congrArg (·.get n) htm).trans (get_set_self s.tm n {})
  · intro s p n v hopen hf hl
    obtain ⟨img, himg⟩ := s.claim_eq 2 n 0x0E
    have hclaim := State.tmClaim_alone hf hl
    rw [himg] at hclaim
    refine ⟨_, exec_timerCntWrite hopen (timerCntWrite_alone hclaim hl), ?_, rfl, fun k hk => ?_⟩
    · exact congrArg TimerSt.load (State.updTm_get_self _ n _)
    · exact State.updTm_get_ne _ hk _
  · intro s p n v hopen hf hm hl
    obtain ⟨img, himg⟩ := s.claim_eq 2 n 0x0E
    obtain ⟨img', himg'⟩ := State.claim_eq { s with img := img } 2 (timerMate n) 0x0E
    have hlink : s.linked n = true := (Bool.and_eq_true_iff.mp hl).2
    have hclaim := State.tmClaim_pair hf hm hlink
    rw [himg, himg'] at hclaim
    refine ⟨_, exec_timerCntWrite hopen (timerCntWrite_high hclaim hl), ?_, ?_, rfl⟩
    · exact congrArg TimerSt.load (State.updTm_get_self _ n _)
    · exact (congrArg TimerSt.load (State.updTm_get_ne _ (timerMate_ne n) _)).trans (congrArg TimerSt.load (State.updTm_get_self _ _ _))
  · intro s p n v hopen hf hl hwin
    obtain ⟨img, himg⟩ := s.claim_eq 2 n 0x0E
    have hclaim := State.tmClaim_alone hf hl
    rw [himg] at hclaim
    refine ⟨_, exec_timerCompareWrite hopen (timerCompareWrite_alone hclaim hl), ?_⟩
    rw [State.tmArm_inTime (s := { s with img := img }) hl .a hwin]
    have hregs := (State.onlyRegs.refl { s with img := img } [F.TM_CMPA_CMPA.addr n]).setReg (List.mem_singleton_self _) v
    have hread := State.reg_setReg_self { s with img := img } (F.TM_CMPA_CMPA.addr n) v
    exact State.armed_a hregs hread
  · intro s p n v hopen hf hl hwin
    obtain ⟨img, himg⟩ := s.claim_eq 2 n 0x0E
    have hclaim := State.tmClaim_alone hf hl
    rw [himg] at hclaim
    refine ⟨_, exec_timerCompareWrite hopen (timerCompareWrite_alone hclaim hl), ?_⟩
    rw [State.tmArm_late (s := { s with img := img }) hl .b hwin, State.f_ofRegs (t := { s with img := img }) (s := s) rfl]
    have hregs := ((State.onlyRegs.refl { s with img := img } [F.TM_CMPB_CMPB.addr n, F.TM_LATE_LATE.addr 0]).setReg
      (List.mem_cons_self ..) v).setFBit (fl := F.TM_LATE_LATE) (i := 0) (by simp) n true
    have hlate := State.fBit_setFBit_self (State.setReg { s with img := img } (F.TM_CMPB_CMPB.addr n) v) (fl := F.TM_LATE_LATE)
      (by decide) 0 n.isLt true
    have hread := (State.reg_setFBit_ne (State.setReg { s with img := img } (F.TM_CMPB_CMPB.addr n) v) (k := n.val) (v := true)
      (Fld.cmpb_ne_late n)).trans (State.reg_setReg_self _ _ v)
    exact State.armed_b hregs hread hlate _
  · intro s p n v hopen hf hl ha hb
    obtain ⟨img, himg⟩ := s.claim_eq 2 n 0x0E
    refine ⟨_, exec_timerActWrite hopen (timerActWrite_stored (State.tmClaim_alone hf hl) ha hb), ?_⟩
    rw [himg]
    exact ⟨State.reg_setReg_self _ _ _, (State.onlyRegs.refl _ _).setReg (List.mem_singleton_self _) _⟩

end Sys2Proof.Machine
end

section
/-! SUPPORT. Global writes, matches and linked reads: what a loop over timers does, which registers a match's action leaves alone, and
the snapshot that a read of a low word leaves (R89, R93, R96). -/

namespace Sys2Proof.Machine

variable {s t : State} {n k : Fin 32} {c : Counter64}

/-! ### Global writes (R89) -/

theorem timerMate_timerMate (n : Fin 32) : timerMate (timerMate n) = n := by decide +revert

theorem timerGlobal_own {mask : Word} (h : ∀ n ∈ s.tmNamed mask, s.tmForeign n = false) (g : State → Fin 32 → State) :
    timerGlobal mask g s = (s.each (s.tmNamed mask) g, Code.ok) := by
  have hnone : (s.tmNamed mask).find? (fun n => s.tmForeign n) = none := List.find?_eq_none.mpr (by simpa using h)
  rw [timerGlobal, hnone]

theorem Fld.run_addr_ne (h : k ≠ n) : F.TM_CTRL_RUN.addr k ≠ F.TM_CTRL_RUN.addr n := by
  simp only [Fld.addr, F.TM_CTRL_RUN]
  omega

/-- RUN stored for every timer of a list, and for no other. -/
theorem State.eachRun_spec (s : State) (b : Bool) (l : List (Fin 32)) :
    (∀ n ∈ l, (s.each l (fun s n => s.setB F.TM_CTRL_RUN n b)).fB F.TM_CTRL_RUN n = b) ∧
      s.onlyRegs (s.each l (fun s n => s.setB F.TM_CTRL_RUN n b)) (l.map (fun (n : Fin 32) => F.TM_CTRL_RUN.addr n)) := by
  refine ⟨State.each_establishes (Q := fun (n : Fin 32) t => t.fB F.TM_CTRL_RUN n = b)
      (fun t n => State.fB_setB_self t (by decide) rfl n b) (fun t n k hk => ?_) l s,
    State.each_keeps_mem (P := fun t => s.onlyRegs t (l.map (fun (n : Fin 32) => F.TM_CTRL_RUN.addr n)))
      (fun t n hn h => h.setF (List.mem_map_of_mem hn) _) (State.onlyRegs.refl s _)⟩
  by_cases e : k = n
  · subst e
    exact State.fB_setB_self t (by decide) rfl k b
  · exact (State.fB_setB_ne t (Fld.run_addr_ne e)).trans hk

/-! ### Clearing (R89, R92) -/

theorem State.tmClear_frame (s : State) (n : Fin 32) : { s.tmClear n with tm := s.tm } = s := by
  unfold State.tmClear State.when
  dsimp only
  split <;> rfl

theorem State.tmClear_regs (s : State) (n : Fin 32) : (s.tmClear n).regs = s.regs := by
  have h := congrArg State.regs (s.tmClear_frame n)
  exact h

/-- The frame of registers does not read what a timer holds beside them. -/
theorem State.onlyRegs.tmClear {l : List Nat} (h : s.onlyRegs t l) (n : Fin 32) :
    State.onlyRegs { s with tm := (t.tmClear n).tm } (t.tmClear n) l := by
  have hunits := congrArg (fun x : State => { x with tm := (t.tmClear n).tm, regs := s.regs }) (t.tmClear_frame n)
  refine ⟨hunits.trans (congrArg (fun x : State => { x with tm := (t.tmClear n).tm }) h.1), fun a ha => Eq.trans ?_ (h.2 a ha)⟩
  simp only [State.reg, t.tmClear_regs n]

theorem State.linked_ofRegs (h : t.regs = s.regs) (n : Fin 32) : t.linked n = s.linked n := State.fB_ofF (State.f_ofRegs h _ _)

/-- A clear touches the timer, and the other of its pair where it is linked. -/
theorem State.tmClear_others (s : State) (hk : k ≠ n) (hm : k ≠ timerMate n) : (s.tmClear n).tm.get k = s.tm.get k := by
  unfold State.tmClear
  exact State.when_ind (P := fun t => t.tm.get k = s.tm.get k) (State.updTm_get_ne s hk _) _
    fun {u} h => (State.updTm_get_ne u hm _).trans h

/-- A timer that waits to load 0 goes on to. -/
theorem State.updTm_load_zero (h : (s.tm.get k).load = some 0) (n : Fin 32) :
    ((s.updTm n (fun t => { t with load := some 0 })).tm.get k).load = some 0 := by
  by_cases e : k = n
  · subst e
    exact congrArg TimerSt.load (State.updTm_get_self s k _)
  · exact (congrArg TimerSt.load (State.updTm_get_ne s e _)).trans h

theorem State.tmClear_load_kept (h : (s.tm.get k).load = some 0) (n : Fin 32) : ((s.tmClear n).tm.get k).load = some 0 := by
  unfold State.tmClear
  exact State.when_ind (P := fun t => (t.tm.get k).load = some 0) (State.updTm_load_zero h n) _
    fun h => State.updTm_load_zero h (timerMate n)

theorem State.tmClear_load (s : State) (n : Fin 32) : ((s.tmClear n).tm.get n).load = some 0 := by
  unfold State.tmClear
  exact State.when_ind (P := fun t => (t.tm.get n).load = some 0) (congrArg TimerSt.load (State.updTm_get_self s n _)) _
    fun h => State.updTm_load_zero h (timerMate n)

theorem State.tmClear_load_mate (h : s.linked n = true) : ((s.tmClear n).tm.get (timerMate n)).load = some 0 := by
  unfold State.tmClear
  dsimp only
  rw [State.when_of_true _ (by exact h)]
  exact congrArg TimerSt.load (State.updTm_get_self _ _ _)

/-- The timer waits to load 0, and in a linked pair the other does. -/
def State.cleared (n : Fin 32) (s : State) : Prop :=
  (s.tm.get n).load = some 0 ∧ (s.linked n = true → (s.tm.get (timerMate n)).load = some 0)

theorem State.tmClear_cleared (s : State) (n : Fin 32) : (s.tmClear n).cleared n :=
  ⟨s.tmClear_load n, fun h => State.tmClear_load_mate ((State.linked_ofRegs (s.tmClear_regs n) n).symm.trans h)⟩

theorem State.cleared.tmClear (h : s.cleared k) (n : Fin 32) : (s.tmClear n).cleared k :=
  ⟨State.tmClear_load_kept h.1 n, fun hl =>
    State.tmClear_load_kept (h.2 ((State.linked_ofRegs (s.tmClear_regs n) k).symm.trans hl)) n⟩

/-- Every timer of a list cleared, with the others of their pairs, and no other (R89). -/
theorem State.eachClear_spec (s : State) (l : List (Fin 32)) :
    (∀ n ∈ l, ((s.each l State.tmClear).tm.get n).load = some 0 ∧
      (s.linked n = true → ((s.each l State.tmClear).tm.get (timerMate n)).load = some 0)) ∧
    (∀ n, n ∉ l → timerMate n ∉ l → (s.each l State.tmClear).tm.get n = s.tm.get n) ∧
    { s.each l State.tmClear with tm := s.tm } = s := by
  have hregs : (s.each l State.tmClear).regs = s.regs := State.each_frame State.tmClear_regs l s
  refine ⟨fun n hn => ?_, fun n hn hm => ?_, ?_⟩
  · obtain ⟨hload, hmate⟩ := State.each_establishes (Q := State.cleared) State.tmClear_cleared (fun t n k h => h.tmClear n) l s n hn
    exact ⟨hload, fun h => hmate ((State.linked_ofRegs hregs n).trans h)⟩
  · refine State.each_keeps_mem (P := fun t => t.tm.get n = s.tm.get n) (fun t x hx h => (State.tmClear_others t ?_ ?_).trans h) rfl
    · exact fun e => hn (e ▸ hx)
    · exact fun e => hm (by rwa [e, timerMate_timerMate])
  · exact State.each_keeps (P := fun t => { t with tm := s.tm } = s) s
      (fun t x h => (congrArg (fun y : State => { y with tm := s.tm }) (t.tmClear_frame x)).trans h) l rfl

section
variable {p : Port} {mask : Word} (h : s.hostOpen p) (hown : ∀ n ∈ s.tmNamed mask, s.tmForeign n = false)
include h hown

theorem exec_tmGstart : exec (.tmGstart p mask) s = .next (s.each (s.tmNamed mask) (fun s n => s.setB F.TM_CTRL_RUN n true)) :=
  congrArg Host.Outcome.next (State.hostDo_of_ok h (timerGlobal_own hown _))

theorem exec_tmGstop : exec (.tmGstop p mask) s = .next (s.each (s.tmNamed mask) (fun s n => s.setB F.TM_CTRL_RUN n false)) :=
  congrArg Host.Outcome.next (State.hostDo_of_ok h (timerGlobal_own hown _))

theorem exec_tmGclr : exec (.tmGclr p mask) s = .next (s.each (s.tmNamed mask) State.tmClear) :=
  congrArg Host.Outcome.next (State.hostDo_of_ok h (timerGlobal_own hown _))

end

/-! ### Matches (R96) -/

theorem State.tmHead_self (h : s.linkedHigh n = false) : s.tmHead n = n := by
  have hn : Fin.ofNat 32 n.val = n := Fin.ofNat_val_eq_self n
  rw [State.tmHead, hn, h]
  rfl

/-- The state with the match flag of an action that is not 0 (R96). -/
def State.matchFlagged (s : State) (n : Fin 32) (c : Cmp) : State :=
  s.when ((s.tmAction n c).1 != 0) (fun s => s.setFBit (matchFld c) 0 n true)

theorem State.matchFlagged_eq {c : Cmp} (h : (s.tmAction n c).1 ≠ 0) : s.matchFlagged n c = s.setFBit (matchFld c) 0 n true :=
  State.when_of_true s (by simpa using h) _

/-- A match of CMPA also ends the blank windows that it times (R136). -/
theorem exec_timerMatch (h : s.linkedHigh n = false) (c : Cmp) : exec (.timerMatch n c) s =
    .next (((s.matchFlagged n c).tmAct (s.tmAction n c).1 (s.tmAction n c).2).when (c == .a) (fun s => s.blankMatch n)) := by
  change execTimerMatch n c s = _
  unfold execTimerMatch
  rw [State.tmHead_self h]
  rfl

theorem exec_timerMatch_b (h : s.linkedHigh n = false) : exec (.timerMatch n .b) s =
    .next ((s.matchFlagged n .b).tmAct (s.tmAction n .b).1 (s.tmAction n .b).2) := exec_timerMatch h .b

/-- Setting a match flag changes no pairing of timers. -/
theorem State.linkedHigh_flag (s : State) (n k : Fin 32) :
    (s.setFBit F.TM_MATCHB_MATCHB 0 n true).linkedHigh k = s.linkedHigh k := by
  have hne : F.TM_CTRL_LINK.addr (k.val - k.val % 2) ≠ F.TM_MATCHB_MATCHB.addr 0 := by
    simp only [Fld.addr, F.TM_CTRL_LINK, F.TM_MATCHB_MATCHB]
    omega
  have hlink : (s.setFBit F.TM_MATCHB_MATCHB 0 n true).linked k = s.linked k := State.fB_ofF (State.f_setF_ne s hne)
  simp only [State.linkedHigh, hlink]

/-- A match of CMPB with an action on a timer of no pair, or of its pair's low half: the flag, and the action on that timer. -/
theorem exec_timerMatch_target (h : s.linkedHigh n = false) (hk : s.linkedHigh k = false) {code : Nat}
    (ha : s.tmAction n .b = (code, k.val)) (hcode : code ≠ 0) :
    (s.setFBit F.TM_MATCHB_MATCHB 0 n true).tmHead k = k ∧
      exec (.timerMatch n .b) s = .next ((s.setFBit F.TM_MATCHB_MATCHB 0 n true).tmAct code k) := by
  refine ⟨State.tmHead_self ((s.linkedHigh_flag n k).trans hk), ?_⟩
  rw [exec_timerMatch_b h, State.matchFlagged_eq (by rwa [ha]), ha]
  rfl

/-- Codes 6 and 7 store RUN of the target. -/
theorem exec_timerMatch_run (h : s.linkedHigh n = false) (hk : s.linkedHigh k = false) (b : Bool)
    (ha : s.tmAction n .b = (if b then 6 else 7, k.val)) :
    exec (.timerMatch n .b) s = .next ((s.setFBit F.TM_MATCHB_MATCHB 0 n true).setB F.TM_CTRL_RUN k b) := by
  obtain ⟨hhead, hexec⟩ := exec_timerMatch_target h hk ha (by cases b <;> decide)
  have hact (u : State) : u.tmAct (if b then 6 else 7) k = u.setB F.TM_CTRL_RUN (u.tmHead k) b := by cases b <;> rfl
  rw [hexec, hact, hhead]

/-- Code 8 clears the target. -/
theorem exec_timerMatch_clear (h : s.linkedHigh n = false) (hk : s.linkedHigh k = false) (ha : s.tmAction n .b = (8, k.val)) :
    exec (.timerMatch n .b) s = .next ((s.setFBit F.TM_MATCHB_MATCHB 0 n true).tmClear k) := by
  obtain ⟨hhead, hexec⟩ := exec_timerMatch_target h hk ha (by decide)
  have hact (u : State) : u.tmAct 8 k = u.tmClear (u.tmHead k) := rfl
  rw [hexec, hact, hhead]

/-- The flag and RUN of the target, and nothing else. -/
theorem State.flagRun_spec (s : State) (n k : Fin 32) (b : Bool) :
    ((s.setFBit F.TM_MATCHB_MATCHB 0 n true).setB F.TM_CTRL_RUN k b).fB F.TM_CTRL_RUN k = b ∧
      s.onlyRegs ((s.setFBit F.TM_MATCHB_MATCHB 0 n true).setB F.TM_CTRL_RUN k b) [F.TM_MATCHB_MATCHB.addr 0, F.TM_CTRL_RUN.addr k] :=
  ⟨State.fB_setB_self _ (by decide) rfl k b,
    ((State.onlyRegs.refl s _).setFBit (List.mem_cons_self ..) n true).setF (fl := F.TM_CTRL_RUN) (i := k.val) (by simp) _⟩

/-- The match flags. -/
def matchFlags : List (Fld × Nat) := [(F.TM_MATCHA_MATCHA, 0), (F.TM_MATCHB_MATCHB, 0)]

theorem run_spares_matchFlags (n : Fin 32) : F.TM_CTRL_RUN.spares n matchFlags := by decide +revert

theorem chStat_spares_matchFlags (n : Fin 64) :
    F.CH_STAT_RUN.spares n matchFlags ∧ F.CH_STAT_WAIT.spares n matchFlags := by decide +revert

theorem State.evalAlert_matchFlags (s : State) : s.SameFields matchFlags s.evalAlert := by
  unfold State.evalAlert
  extract_lets c rise pend port s₁ s₂
  have h₁ : s.SameFields matchFlags s₁ := (State.SameFields.refl s).ofRegs rfl
  clear_value s₁
  have h₂ : s.SameFields matchFlags s₂ := (((h₁.setB _).setB _).setB _).setB _
  exact h₂.setB _

theorem State.runBegin_matchFlags (s : State) (n : Fin 64) : s.SameFields matchFlags (s.runBegin n) := by
  obtain ⟨hrun, hwait⟩ := chStat_spares_matchFlags n
  unfold State.runBegin
  dsimp only
  exact (((State.SameFields.refl s).ofRegs rfl).setB _ hrun).setB _ hwait

/-- No action of a match writes a match flag. -/
theorem State.tmAct_matchFlags (s : State) (code tgt : Nat) : s.SameFields matchFlags (s.tmAct code tgt) := by
  have hclear : s.SameFields matchFlags (s.tmClear (s.tmHead tgt)) := (State.SameFields.refl s).ofRegs (s.tmClear_regs _)
  unfold State.tmAct
  split
  · exact s.evalAlert_matchFlags
  · exact State.when_ind (P := s.SameFields matchFlags) (State.SameFields.refl s) _ fun h => h.ofRegs rfl
  · unfold State.trigger
    split
    · exact s.runBegin_matchFlags _
    · exact State.SameFields.refl s
  · unfold State.streamRequest
    split
    · exact s.runBegin_matchFlags _
    · exact State.SameFields.refl s
  · exact (State.SameFields.refl s).setB true (run_spares_matchFlags _)
  · exact (State.SameFields.refl s).setB false (run_spares_matchFlags _)
  · exact hclear
  · exact hclear.setB true (run_spares_matchFlags _)
  · exact State.SameFields.refl s

theorem State.blankMatch_matchFlags (h : s.SameFields matchFlags t) (n : Fin 32) : s.SameFields matchFlags (t.blankMatch n) := by
  refine State.each_keeps (P := s.SameFields matchFlags) t (fun u k h => ?_) clusters h
  split
  · exact State.SameFields.setB (h.ofRegs rfl) false (run_spares_matchFlags n)
  · exact h

theorem matchFld_mem (c : Cmp) : (matchFld c, 0) ∈ matchFlags := by cases c <;> decide

/-- A match whose action is not 0 sets its flag. -/
theorem timerMatch_flags {c : Cmp} (h : s.linkedHigh n = false) (ha : (s.tmAction n c).1 ≠ 0) :
    completes (.timerMatch n c) s (fun t => t.fBit (matchFld c) 0 n = true) := by
  refine ⟨_, exec_timerMatch h c, ?_⟩
  have hflag : (s.matchFlagged n c).fBit (matchFld c) 0 n = true := by
    rw [State.matchFlagged_eq ha]
    cases c
    · exact State.fBit_setFBit_self s (by decide) 0 n.isLt true
    · exact State.fBit_setFBit_self s (by decide) 0 n.isLt true
  have hact := (s.matchFlagged n c).tmAct_matchFlags (s.tmAction n c).1 (s.tmAction n c).2
  have hall := State.when_ind (P := (s.matchFlagged n c).SameFields matchFlags) hact (c == .a) (fun h => State.blankMatch_matchFlags h n)
  exact (congrArg (Nat.testBit · n.val) (hall _ (matchFld_mem c))).trans hflag

/-! ### Linked reads (R93) -/

/-- The low word of a counter is found at its address; a timer's, where the pair is linked. -/
theorem State.counterAt_low (h : ∀ k, c = .timer k → s.linked (Fin.ofNat 32 (2 * k.val)) = true) :
    s.counterAt (counterLow c) = some (c, false) := by
  cases c with
  | acc n =>
    have hat : (0x100C + 0x100 * n.val) % 0x100 = 0x0C ∧ (0x100C + 0x100 * n.val - 0x1000) / 0x100 = n.val := by omega
    have hin : 0x1000 ≤ 0x100C + 0x100 * n.val ∧ 0x100C + 0x100 * n.val < 0x2000 := by omega
    simp [State.counterAt, counterLow, hat, hin]
  | response n k =>
    have hat : (0x1018 + 0x100 * n.val + 2 * k.val) % 0x100 = 0x18 + 2 * k.val ∧
      (0x1018 + 0x100 * n.val + 2 * k.val - 0x1000) / 0x100 = n.val := by omega
    have hin : 0x1000 ≤ 0x1018 + 0x100 * n.val + 2 * k.val ∧ 0x1018 + 0x100 * n.val + 2 * k.val < 0x2000 := by omega
    have hne : 0x18 + 2 * k.val ≠ 0x0C ∧ 0x18 + 2 * k.val ≠ 0x0D := by omega
    have hword : 0x18 + 2 * k.val < 0x20 := by omega
    simp [State.counterAt, counterLow, hat, hin, hne, hword]
  | timer k =>
    have hout : ¬0x2A01 + 0x10 * k.val < 0x2000 := by omega
    have hin : 0x2A00 ≤ 0x2A01 + 0x10 * k.val ∧ 0x2A01 + 0x10 * k.val < 0x2B00 := by omega
    have hat : (0x2A01 + 0x10 * k.val) % 8 = 1 ∧ (0x2A01 + 0x10 * k.val - 0x2A00) / 8 = 2 * k.val := by omega
    have hpair : 2 * k.val % 32 / 2 = k.val ∧ 2 * k.val % 32 % 2 = 0 := by omega
    simpa [State.counterAt, counterLow, hout, hin, hat, hpair] using h k rfl
  | energy f =>
    have hout : ¬0x2484 + 0x10 * f.val < 0x2000 := by omega
    have hin : 0x2480 ≤ 0x2484 + 0x10 * f.val ∧ 0x2484 + 0x10 * f.val < 0x24C0 := by omega
    have hat : (0x2484 + 0x10 * f.val) % 16 = 4 ∧ (0x2484 + 0x10 * f.val - 0x2480) / 16 = f.val := by omega
    have htm : ¬0x2A00 ≤ 0x2484 + 0x10 * f.val := by omega
    simp [State.counterAt, counterLow, hout, hin, hat, htm]
  | capture => rfl
  | operating => rfl

theorem counterLow_ne (c : Counter64) : counterLow c ≠ 0x2C04 ∧ counterLow c ≠ 0x2C0B ∧ counterLow c ≠ 0x2E0D := by
  cases c <;> simp only [counterLow] <;> omega

theorem State.readLow_snapshot (s : State) (r : Reader) (c : Counter64) : (s.readLow r c).1.snapshot r c = (s.counterWords c).2 := by
  have hnone : (s.port.snaps.filter (fun x => !(x.1.1 = r && x.1.2 = counterLow c))).find? (fun x => x.1.1 = r && x.1.2 = counterLow c) =
      none := List.find?_eq_none.mpr fun x hx => by simpa [-not_and, ← not_and_or] using (List.mem_filter.mp hx).2
  unfold State.snapshot State.readLow
  dsimp only
  rw [List.find?_append, hnone]
  simp

/-- A port's read of a counter's low word (R93). -/
theorem State.readReg_low {p : Port} (hlive : s.portLive p = true) (himg : s.noImg = false)
    (h : ∀ k, c = .timer k → s.linked (Fin.ofNat 32 (2 * k.val)) = true) :
    s.readReg p (counterLow c) = (s.readLow (portReader p) c).1.answerWord p (s.counterWords c).1 := by
  obtain ⟨hfifo, hdiag, hsnap⟩ := counterLow_ne c
  have hserved : s.served (counterLow c) = true := by simp [State.served, himg]
  have hword : s.readWord p (counterLow c) = s.readLow (portReader p) c := by
    simp [State.readWord, hserved, hfifo, hdiag, hsnap, State.counterAt_low h]
  rw [State.readReg, if_pos hlive, hword]
  rfl

/-- The service core's read (R93). -/
theorem exec_linkedLowRead_service (h : ∀ k, c = .timer k → s.linked (Fin.ofNat 32 (2 * k.val)) = true) :
    exec (.linkedLowRead .service c) s = .next (s.readLow .service c).1 := by
  change execLinkedLowRead .service c s = _
  simp only [execLinkedLowRead, State.counterAt_low h]

end Sys2Proof.Machine
end

section
/-! THE STATEMENT ON GLOBAL WRITES, MATCHES AND LINKED READS (O7). -/

namespace Sys2Proof.Machine

/-- Settles O7: the loops over the named timers, the flag and the action of a match, and the snapshot of a read. -/
theorem timerGlobalsMatchesAndLinkedReadsComplete : Obligations.TimerGlobalsMatchesAndLinkedReadsComplete := by
  unfold Obligations.TimerGlobalsMatchesAndLinkedReadsComplete
  refine ⟨?_, ?_, ?_, ?_, ?_, ?_, ?_, ?_, ?_, ?_⟩
  · intro s p mask hopen hown
    exact ⟨_, exec_tmGstart hopen hown, s.eachRun_spec true _⟩
  · intro s p mask hopen hown
    exact ⟨_, exec_tmGstop hopen hown, s.eachRun_spec false _⟩
  · intro s p mask hopen hown
    exact ⟨_, exec_tmGclr hopen hown, s.eachClear_spec _⟩
  · intro s n c hn ha
    exact timerMatch_flags hn ha
  · intro s n hn ha
    refine ⟨s, ?_, rfl⟩
    rw [exec_timerMatch_b hn, ha, State.matchFlagged, State.when_of_false s (by rw [ha]; rfl)]
    rfl
  · intro s n k hn hk ha
    exact ⟨_, exec_timerMatch_run hn hk true ha, s.flagRun_spec n k true⟩
  · intro s n k hn hk ha
    exact ⟨_, exec_timerMatch_run hn hk false ha, s.flagRun_spec n k false⟩
  · intro s n k hn hk ha
    have hflag := (State.onlyRegs.refl s [F.TM_MATCHB_MATCHB.addr 0]).setFBit (List.mem_singleton_self _) n true
    exact ⟨_, exec_timerMatch_clear hn hk ha, State.tmClear_load _ k, hflag.tmClear k⟩
  · intro s p c hlive himg hlink
    refine ⟨s.readReg p (counterLow c), by cases p <;> rfl, ?_⟩
    rw [State.readReg_low hlive himg hlink]
    cases p with
    | twoWire => exact ⟨s.readLow_snapshot .twoWire c, fun _ => rfl, fun h => Port.noConfusion h, rfl⟩
    | stream => exact ⟨s.readLow_snapshot .stream c, fun h => Port.noConfusion h, fun _ => rfl, rfl⟩
  · intro s c hlink
    exact ⟨_, exec_linkedLowRead_service hlink, s.readLow_snapshot .service c, rfl⟩

end Sys2Proof.Machine
end

section
/-! SUPPORT. The high interval of a phase unit (R102 to R117): what an on-edge, an off edge and the ends of blanking and of a Fox hold do
to the phase, and that no other phase and no register beside those named changes. -/

namespace Sys2Proof.Machine

variable {s t : State} {p : Fin 48} {l : List Nat}

/-! ### Frames beside the phases -/

/-- The frame of registers does not read the phases' hidden state. -/
theorem State.onlyRegs.ofPh (h : s.onlyRegs t l) (v : Vector PhaseSt 48) :
    State.onlyRegs { s with ph := v } { t with ph := v } l := ⟨congrArg (fun x : State => { x with ph := v }) h.1, h.2⟩

/-- Words at different places within instances of one stride are different words. -/
theorem Fld.addr_ne_of_offset {f g : Fld} {d : Nat} (hf : f.stride = d) (hg : g.stride = d) (h : f.base % d ≠ g.base % d) (i j : Nat) :
    f.addr i ≠ g.addr j := by
  intro e
  apply h
  have hmod := congrArg (· % d) e
  simpa only [Fld.addr, hf, hg, Nat.add_mul_mod_self_left] using hmod

/-! ### On-edges (R102 to R104, R121) -/

/-- A phase that takes no on-edge: inactive, held by a Fox hold, or high already. -/
theorem exec_onEdge_absorbed (h : s.fB F.PH_STAT_ACTIVE p = false ∨ (s.ph.get p).foxHold = true ∨ (s.ph.get p).out = .high) (minOff : Bool) :
    exec (.onEdge p minOff) s = .next s := by
  change execOnEdge p minOff s = _
  rcases h with h | h | h <;> simp [execOnEdge, h]

/-- Any other phase begins its high interval, or waits for the end of MINOFF. -/
theorem exec_onEdge_taken (hact : s.fB F.PH_STAT_ACTIVE p = true) (hfox : (s.ph.get p).foxHold = false) (hout : (s.ph.get p).out ≠ .high)
    (hlong : s.tooShort p = false) (minOff : Bool) : exec (.onEdge p minOff) s =
      .next (if minOff || (s.ph.get p).minOffDone then s.startHigh p else s.updPh p (fun u => { u with onDeferred := true })) := by
  change execOnEdge p minOff s = _
  simp only [execOnEdge, hact, hfox, hlong, beq_eq_false_iff_ne.mpr hout, Bool.not_true, Bool.or_self, Bool.false_eq_true, if_false]
  split <;> rfl

theorem State.startHigh_phase (s : State) (p : Fin 48) : (s.startHigh p).ph.get p = { s.ph.get p with
    out := .high, onDeferred := false, minOffDone := false, blanking := s.f F.PH_BLANK_BLANK p != 0, dem := false, demRun := 0 } :=
  s.updPh_get_self p _

theorem State.startHigh_others (s : State) {p q : Fin 48} (h : q ≠ p) : (s.startHigh p).ph.get q = s.ph.get q := s.updPh_get_ne h _

/-! ### Off edges (R105, R111, R114) -/

/-- The level that an off edge takes the output to: the mid level, where the phase has left the active set. -/
def State.offLevel (s : State) (p : Fin 48) : PwmLevel := if s.fB F.PH_STAT_ACTIVE p then .low else .mid

theorem State.endHigh_phase (s : State) (p : Fin 48) :
    (s.endHigh p).ph.get p = { s.ph.get p with out := s.offLevel p, blanking := false } := s.updPh_get_self p _

theorem State.endHigh_others (s : State) {p q : Fin 48} (h : q ≠ p) : (s.endHigh p).ph.get q = s.ph.get q := s.updPh_get_ne h _

/-- A store of another flag of the phase's status leaves the level of its off edge. -/
theorem State.offLevel_setB (s : State) (p : Fin 48) {fl : Fld} (b : Bool) (h : fl.apart F.PH_STAT_ACTIVE := by decide) :
    (s.setB fl p b).offLevel p = s.offLevel p := by
  simp only [State.offLevel, s.fB_setB_apart (i := p) (j := p) (b := b) (by decide) h]

/-- The peak limit, flagged and counted (R114). -/
def State.peakCounted (s : State) (p : Fin 48) : State := (s.setB F.PH_STAT_PKLIM p true).incF F.PH_CNT_PKCNT p

theorem State.peakCounted_onlyRegs (s : State) (p : Fin 48) :
    s.onlyRegs (s.peakCounted p) [F.PH_STAT_PKLIM.addr p, F.PH_CNT_PKCNT.addr p] :=
  ((State.onlyRegs.refl s _).setF (fl := F.PH_STAT_PKLIM) (i := p.val) (by simp) _).setF (fl := F.PH_CNT_PKCNT) (i := p.val) (by simp) _

theorem State.stat_ne_cnt (p : Fin 48) : F.PH_CNT_PKCNT.addr p ≠ F.PH_STAT_PKLIM.addr p :=
  Fld.addr_ne_of_offset (f := F.PH_CNT_PKCNT) (g := F.PH_STAT_PKLIM) rfl rfl (by decide) p p

theorem State.peakCounted_flag (s : State) (p : Fin 48) : (s.peakCounted p).fB F.PH_STAT_PKLIM p = true :=
  (State.fB_setF_ne _ (State.stat_ne_cnt p).symm).trans (s.fB_setB_self (by decide) rfl p true)

theorem State.peakCounted_count (s : State) (p : Fin 48) :
    (s.peakCounted p).f F.PH_CNT_PKCNT p = Nat.min (2 ^ F.PH_CNT_PKCNT.w - 1) (s.f F.PH_CNT_PKCNT p + 1) := by
  rw [State.peakCounted, State.f_incF_self _ (by decide), s.f_setB_ne (State.stat_ne_cnt p)]

theorem State.peakCounted_offLevel (s : State) (p : Fin 48) : (s.peakCounted p).offLevel p = s.offLevel p := by
  have hact : (s.peakCounted p).fB F.PH_STAT_ACTIVE p = (s.setB F.PH_STAT_PKLIM p true).fB F.PH_STAT_ACTIVE p :=
    State.fB_setF_ne _ (State.stat_ne_cnt p).symm
  rw [← s.offLevel_setB p (fl := F.PH_STAT_PKLIM) true]
  simp only [State.offLevel, hact]

/-- The end at the peak, for a demand that stands clamped to IPEAK. -/
theorem State.peakEnd_atPeak (h : s.atPeak p = true) :
    s.peakEnd p = ((s.peakCounted p).updPh p (fun u => { u with pkBal := true })).endHigh p := by
  rw [State.peakEnd, h]
  rfl

theorem State.peakEnd_below (h : s.atPeak p = false) : s.peakEnd p = s.endHigh p := by
  rw [State.peakEnd, h]
  rfl

theorem exec_peakTrip (hout : (s.ph.get p).out = .high) (hblank : (s.ph.get p).blanking = false) :
    exec (.peakTrip p) s = .next (s.peakEnd p) := by
  change execPeakTrip p s = _
  simp [execPeakTrip, hout, hblank]

/-- The peak comparator's trip (R111, R114). -/
theorem peakTrip_completes (hout : (s.ph.get p).out = .high) (hblank : (s.ph.get p).blanking = false) : completes (.peakTrip p) s (fun t =>
    (t.ph.get p).out = s.offLevel p ∧ (s.atPeak p = true → t.fB F.PH_STAT_PKLIM p = true ∧
      t.f F.PH_CNT_PKCNT p = Nat.min (2 ^ F.PH_CNT_PKCNT.w - 1) (s.f F.PH_CNT_PKCNT p + 1)) ∧
    (s.atPeak p = false → { t with ph := s.ph } = s) ∧ (∀ q, q ≠ p → t.ph.get q = s.ph.get q) ∧
    State.onlyRegs { s with ph := t.ph } t [F.PH_STAT_PKLIM.addr p, F.PH_CNT_PKCNT.addr p]) := by
  refine ⟨_, exec_peakTrip hout hblank, ?_⟩
  by_cases hpeak : s.atPeak p = true
  · rw [State.peakEnd_atPeak hpeak]
    refine ⟨?_, fun _ => ⟨s.peakCounted_flag p, s.peakCounted_count p⟩, fun h => absurd (hpeak.symm.trans h) (by decide), fun q hq => ?_,
      (s.peakCounted_onlyRegs p).ofPh _⟩
    · rw [State.endHigh_phase]
      exact s.peakCounted_offLevel p
    · rw [State.endHigh_others _ hq]
      exact State.updPh_get_ne _ hq _
  · have hpeak : s.atPeak p = false := by simpa using hpeak
    rw [State.peakEnd_below hpeak]
    refine ⟨congrArg PhaseSt.out (s.endHigh_phase p), fun h => absurd (hpeak.symm.trans h) (by decide), fun _ => rfl,
      fun q hq => s.endHigh_others hq, (State.onlyRegs.refl s _).ofPh _⟩

/-! ### The longest on-time (R102, R103) -/

/-- The on-time that ends is shorter than the longest: the loop engine set it, in direct duty mode. -/
theorem exec_maxonEnd_short {n : Fin 16} (hout : (s.ph.get p).out = .high) (hcl : s.phCluster p = some n)
    (hdir : s.fB F.CL_FSW_DIRECT n = true) (hdem : s.demand n p < s.maxOn n) : exec (.maxonEnd p) s = .next (s.endHigh p) := by
  change execMaxonEnd p s = _
  simp [execMaxonEnd, hout, hcl, hdir, hdem]

theorem exec_maxonEnd_longest {n : Fin 16} (hout : (s.ph.get p).out = .high) (hcl : s.phCluster p = some n)
    (hdir : s.fB F.CL_FSW_DIRECT n = false) : exec (.maxonEnd p) s = .next ((s.setB F.PH_STAT_MAXON p true).endHigh p) := by
  change execMaxonEnd p s = _
  simp [execMaxonEnd, hout, hcl, hdir]

/-! ### Blanking and the end of a Fox hold (R113, R117) -/

theorem exec_blankingEnd_clear (h : (s.ph.get p).blanking = true) :
    exec (.blankingEnd p false) s = .next (s.updPh p (fun u => { u with blanking := false })) := by
  change execBlankingEnd p false s = _
  simp [execBlankingEnd, h]

theorem exec_foxHoldEnd (hold : (s.ph.get p).foxHold = true) (hlat : s.fB F.PH_STAT_FOXLAT p = false) :
    exec (.foxHoldEnd p) s = .next (s.updPh p (fun u => { u with foxHold := false, foxLeft := 0 })) := by
  change execFoxHoldEnd p s = _
  simp [execFoxHoldEnd, hold, hlat]

end Sys2Proof.Machine
end

section
/-! THE STATEMENT ON PHASE EDGES (O8). -/

namespace Sys2Proof.Machine

/-- Settles O8: each command stores one phase's record, and the off edges at the peak and at the longest on-time their flag and count
before it. -/
theorem phaseEdgesComplete : Obligations.PhaseEdgesComplete := by
  unfold Obligations.PhaseEdgesComplete
  refine ⟨?_, ?_, ?_, ?_, ?_, ?_, ?_, ?_⟩
  · intro s p minOff hact hfox hout hlong hoff
    have hnow : (minOff || (s.ph.get p).minOffDone) = true := Bool.or_eq_true_iff.mpr hoff
    have hp := s.startHigh_phase p
    exact ⟨s.startHigh p, by rw [exec_onEdge_taken hact hfox hout hlong, if_pos hnow], congrArg PhaseSt.out hp, congrArg PhaseSt.blanking hp,
      congrArg PhaseSt.minOffDone hp, fun q hq => s.startHigh_others hq, rfl⟩
  · intro s p hact hfox hout hlong hoff
    have hp := s.updPh_get_self p (fun u => { u with onDeferred := true })
    refine ⟨s.updPh p (fun u => { u with onDeferred := true }), ?_, congrArg PhaseSt.onDeferred hp, (congrArg PhaseSt.out hp :), rfl⟩
    rw [exec_onEdge_taken hact hfox hout hlong, hoff]
    rfl
  · intro s p minOff h
    exact ⟨s, exec_onEdge_absorbed h minOff, rfl⟩
  · intro s p hblank
    have hp := s.updPh_get_self p (fun u => { u with blanking := false })
    exact ⟨_, exec_blankingEnd_clear hblank, congrArg PhaseSt.blanking hp, (congrArg PhaseSt.out hp :), fun q hq => s.updPh_get_ne hq _, rfl⟩
  · intro s p hout hblank
    exact peakTrip_completes hout hblank
  · intro s p n hout hcl hdir
    have hp := (s.setB F.PH_STAT_MAXON p true).endHigh_phase p
    exact ⟨_, exec_maxonEnd_longest hout hcl hdir, (congrArg PhaseSt.out hp).trans (s.offLevel_setB p true),
      s.fB_setB_self (by decide) rfl p true, congrArg PhaseSt.blanking hp, fun q hq => State.endHigh_others _ hq,
      (s.onlyRegs_setF F.PH_STAT_MAXON p _).ofPh _⟩
  · intro s p n hout hcl hdir hdem
    exact ⟨_, exec_maxonEnd_short hout hcl hdir hdem, congrArg PhaseSt.out (s.endHigh_phase p), rfl⟩
  · intro s p hold hlat
    have hp := s.updPh_get_self p (fun u => { u with foxHold := false, foxLeft := 0 })
    exact ⟨_, exec_foxHoldEnd hold hlat, congrArg PhaseSt.foxHold hp, congrArg PhaseSt.foxLeft hp, fun q hq => s.updPh_get_ne hq _, rfl⟩

end Sys2Proof.Machine
end

section
/-! SUPPORT. The sources of phases and clusters that latch no status bit: what their raise does, and that it leaves the other sources
(R269, R338). -/

namespace Sys2Proof.Machine

variable {s t : State} {l m : List Nat}

/-! ### Bits of a mask -/

/-- Setting a bit that is clear leaves the others. -/
theorem testBit_add_two_pow_ne {x j k : Nat} (hx : x.testBit k = false) (h : j ≠ k) : (x + 2 ^ k).testBit j = x.testBit j := by
  rcases Nat.lt_or_gt_of_ne h with hlt | hgt
  · rw [Nat.add_comm, Nat.testBit_two_pow_add_gt hlt]
  · have heven : x / 2 ^ k % 2 = 0 := by simpa [Nat.testBit_eq_decide_div_mod_eq] using hx
    have hdiv : (x + 2 ^ k) / 2 ^ (k + 1) = x / 2 ^ (k + 1) := by
      rw [Nat.pow_succ, ← Nat.div_div_eq_div_mul, ← Nat.div_div_eq_div_mul, Nat.add_div_right _ (Nat.two_pow_pos k)]
      omega
    obtain ⟨d, rfl⟩ : ∃ d, j = d + (k + 1) := ⟨j - (k + 1), by omega⟩
    rw [← Nat.testBit_div_two_pow, ← Nat.testBit_div_two_pow, hdiv]

/-- A bit of a mask stored leaves the others. -/
theorem testBit_setBitN_ne (x : Nat) {j k : Nat} (h : j ≠ k) (b : Bool) : (setBitN x k b).testBit j = x.testBit j := by
  unfold setBitN
  split
  case isTrue => rfl
  case isFalse hk =>
    cases b with
    | true => exact testBit_add_two_pow_ne (by simpa using hk) h
    | false =>
      have hx : x.testBit k = true := by simpa using hk
      have hge : 2 ^ k ≤ x := Nat.ge_two_pow_of_testBit hx
      have hclear : (x - 2 ^ k).testBit k = false := by simpa [setBitN, hx] using testBit_setBitN_self x k false
      have hadd := testBit_add_two_pow_ne hclear h
      rw [Nat.sub_add_cancel hge] at hadd
      exact hadd.symm

/-! ### Source bits -/

theorem State.srcBit_setSrcBit_ne (s : State) {a b : Nat} (h : b ≠ a) (v : Bool) : (s.setSrcBit a v).srcBit b = s.srcBit b := by
  by_cases hw : b / 32 = a / 32
  · have hbit : b % 32 ≠ a % 32 := by omega
    have hk : b % 32 < 32 := Nat.mod_lt _ (by decide)
    simp only [State.srcBit, State.fBit, State.setSrcBit, State.setFBit, hw]
    rw [State.f_setF_self s (by decide), Nat.testBit_mod_two_pow, testBit_setBitN_ne _ hbit]
    simp [F.SUPV_SRC_SRC, hk]
  · have hne : F.SUPV_SRC_SRC.addr (b / 32) ≠ F.SUPV_SRC_SRC.addr (a / 32) := by simpa [Fld.addr, F.SUPV_SRC_SRC] using hw
    exact congrArg (Nat.testBit · (b % 32)) (State.f_setF_ne s hne)

theorem State.srcBit_lower_ne (s : State) {a b : Nat} (h : b ≠ a) : (s.lower a).srcBit b = s.srcBit b := by
  unfold State.lower
  split
  · exact s.srcBit_setSrcBit_ne h false
  · rfl

/-! ### Sources that latch no status bit -/

/-- A source of a phase, or of a cluster but for those whose raise latches a bit of its page's status. -/
abbrev silentSource (src : Nat) : Prop := src < 0x120 ∨ 0x150 ≤ src ∧ src < 0x170 ∨ 0x180 ≤ src ∧ src < 0x1C0

theorem State.latchStatus_of_silent (s : State) {src : Nat} (h : silentSource src) : s.latchStatus src = s := by
  have hd : src ≠ Src.feedNone := by unfold Src.feedNone; omega
  have h0 : ¬(0x120 ≤ src ∧ src < 0x130) := by omega
  have h1 : ¬(0x130 ≤ src ∧ src < 0x150) := by omega
  have h2 : ¬(0x170 ≤ src ∧ src < 0x180) := by omega
  have h3 : ¬(0x1C0 ≤ src ∧ src < 0x1D0) := by omega
  have h4 : ¬(0x1D0 ≤ src ∧ src < 0x1E0) := by omega
  have h5 : ¬(0x240 ≤ src ∧ src < 0x258) := by omega
  simp only [State.latchStatus, Bool.and_eq_true, decide_eq_true_eq, if_neg h0, if_neg h1, if_neg h2, if_neg h3, if_neg h4, if_neg h5,
    if_neg hd]

/-- The raise of such a source sets its bit and reports it, and does nothing else (R269). -/
theorem State.raise_silent (s : State) {src : Nat} (h : silentSource src) :
    (s.raise src).srcBit src = true ∧ s.reportsOnly (s.raise src) [] := by
  unfold State.raise
  split
  case isTrue hb =>
    exact ⟨(Bool.and_eq_true_iff.mp hb).2, rfl, fun _ _ _ => rfl⟩
  case isFalse =>
    rw [State.latchStatus_of_silent _ h]
    refine ⟨State.srcBit_setSrcBit_self s src true, rfl, fun a _ ha => State.reg_setFBit_ne s ?_⟩
    rintro rfl
    simp [reportWord, Fld.addr, F.SUPV_SRC_SRC] at ha
    omega

/-- It leaves the sources that are true. -/
theorem State.srcBit_raise_silent {a b : Nat} (h : silentSource a) (hb : s.srcBit b = true) : (s.raise a).srcBit b = true := by
  by_cases e : b = a
  · rw [e]
    exact (s.raise_silent h).1
  · unfold State.raise
    split
    · exact hb
    · rw [State.latchStatus_of_silent _ h]
      exact (s.srcBit_setSrcBit_ne e true).trans hb

/-! ### Frames of reports -/

theorem State.reportsOnly.refl (s : State) (l : List Nat) : s.reportsOnly s l := ⟨rfl, fun _ _ _ => rfl⟩

/-- Hidden state beside the raises that await an evaluation is as before. -/
theorem State.reportsOnly.hidden {β : Type} (h : s.reportsOnly t l) {π : State → β}
    (hπ : ∀ (x : State) r q, π { x with regs := r, sup := { x.sup with pend := q } } = π x) : π t = π s :=
  (hπ t s.regs s.sup.pend).symm.trans (congrArg π h.1)

/-- The frame of reports does not read the phases' hidden state. -/
theorem State.reportsOnly.ofPh (h : s.reportsOnly t l) (v : Vector PhaseSt 48) :
    State.reportsOnly { s with ph := v } { t with ph := v } l := ⟨congrArg (fun x : State => { x with ph := v }) h.1, h.2⟩

/-- No word of a phase is one that a report changes. -/
theorem Fld.ofPhase.reportWord {fl : Fld} (h : fl.ofPhase) (p : Fin 48) : reportWord (fl.addr p) = false := by
  obtain ⟨hs, hl, hu⟩ := h
  simp only [Machine.reportWord, Fld.addr, hs, Bool.or_eq_false_iff, Bool.and_eq_false_iff, decide_eq_false_iff_not]
  omega

/-- Words of one phase at different places. -/
theorem Fld.ofPhase.addr_ne {f g : Fld} (hf : f.ofPhase) (hg : g.ofPhase) (h : f.base ≠ g.base) (p q : Fin 48) : f.addr p ≠ g.addr q := by
  obtain ⟨hs, hl, hu⟩ := hf
  obtain ⟨ks, kl, ku⟩ := hg
  refine Fld.addr_ne_of_offset hs ks ?_ p q
  omega

end Sys2Proof.Machine
end

section
/-! SUPPORT. A phase's sample, its average ceiling, the first part of a Fox trip, and the delay lines (R101, R110, R114, R116, R181). -/

namespace Sys2Proof.Machine

variable {s t : State} {p : Fin 48}

/-! ### Samples (R110, R181) -/

theorem State.phCluster_congr (hu : t.fB F.PH_CFG_USED p = s.fB F.PH_CFG_USED p) (hc : t.f F.PH_CFG_CLUSTER p = s.f F.PH_CFG_CLUSTER p) :
    t.phCluster p = s.phCluster p := by
  rw [State.phCluster, State.phCluster, hu, hc]

/-- A calibrated current does not read the sample's register. -/
theorem State.calCurrent_shown (s : State) (p : Fin 48) (v code : Nat) :
    (s.setF F.PH_IRAW_CODE p v).calCurrent p code = s.calCurrent p code := by
  have hcfg (fl : Fld) (hfl : fl.ofPhase) (h : fl.base ≠ F.PH_IRAW_CODE.base) : (s.setF F.PH_IRAW_CODE p v).f fl p = s.f fl p :=
    State.f_setF_ne s (hfl.addr_ne (g := F.PH_IRAW_CODE) (by decide) h p p)
  have hcl : (s.setF F.PH_IRAW_CODE p v).phCluster p = s.phCluster p :=
    State.phCluster_congr (State.fB_ofF (hcfg F.PH_CFG_USED (by decide) (by decide))) (hcfg F.PH_CFG_CLUSTER (by decide) (by decide))
  simp only [State.calCurrent, hcl, hcfg F.PH_GAIN_GCS (by decide) (by decide), State.setF_ph, State.setF_cl]

/-- A sample shown and calibrated. -/
def State.sampled (s : State) (p : Fin 48) (code : Nat) : State :=
  let i := s.calCurrent p code
  (s.setF F.PH_IRAW_CODE p code).updPh p (fun u =>
    { u with iCal := i, updAcc := (u.updAcc.1 + i, u.updAcc.2 + 1), balAcc := (u.balAcc.1 + i, u.balAcc.2 + 1) })

/-- Diode emulation leaves the calibrated current and the sums. -/
theorem State.diode_eq (s : State) (p : Fin 48) (i : Rat) : ∃ g : PhaseSt → PhaseSt, s.diode p i = s.updPh p g ∧
    ∀ u, (g u).iCal = u.iCal ∧ (g u).updAcc = u.updAcc := by
  unfold State.diode
  exact ⟨_, rfl, fun _ => ⟨rfl, rfl⟩⟩

/-- A code within the span ends a run of bad samples. -/
theorem State.rangeCheck_within {code : Nat} (h0 : code ≠ 0) (h1 : code ≠ 4095) (s : State) (p : Fin 48) :
    s.rangeCheck p code = (s.updPh p (fun u => { u with rangeRun := 0 })).lower (Src.phIsrange p) := by
  simp [State.rangeCheck, h0, h1]

theorem exec_phaseSample {code : BitVec 12} (h0 : code ≠ 0) (h1 : code ≠ 4095) : ∃ g : PhaseSt → PhaseSt,
    exec (.phaseSample p code) s = .next (((s.sampled p code.toNat).updPh p g).lower (Src.phIsrange p)) ∧
    ∀ u, (g u).iCal = u.iCal ∧ (g u).updAcc = u.updAcc ∧ (g u).rangeRun = 0 := by
  have hcode0 : code.toNat ≠ 0 := fun e => h0 (BitVec.eq_of_toNat_eq e)
  have hcode1 : code.toNat ≠ 4095 := fun e => h1 (BitVec.eq_of_toNat_eq e)
  obtain ⟨g, hg, hkeep⟩ := (s.sampled p code.toNat).diode_eq p (s.calCurrent p code.toNat)
  refine ⟨fun u => { g u with rangeRun := 0 }, ?_, fun u => ⟨(hkeep u).1, (hkeep u).2, rfl⟩⟩
  have hexec : exec (.phaseSample p code) s =
      .next (((s.sampled p code.toNat).diode p (s.calCurrent p code.toNat)).rangeCheck p code.toNat) := by
    change execPhaseSample p code s = _
    simp only [execPhaseSample, State.calCurrent_shown]
    rfl
  rw [hexec, State.rangeCheck_within hcode0 hcode1, hg]
  congr 2
  simp only [State.updPh, get_set_self, Vector.set_set]

theorem phaseSample_completes {code : BitVec 12} (h0 : code ≠ 0) (h1 : code ≠ 4095) : completes (.phaseSample p code) s (fun t =>
    t.f F.PH_IRAW_CODE p = code.toNat ∧ (t.ph.get p).iCal = s.calCurrent p code.toNat ∧ (t.ph.get p).rangeRun = 0 ∧
    (t.ph.get p).updAcc = ((s.ph.get p).updAcc.1 + s.calCurrent p code.toNat, (s.ph.get p).updAcc.2 + 1) ∧
    t.srcBit (Src.phIsrange p) = false ∧ (∀ q, q ≠ p → t.ph.get q = s.ph.get q) ∧
    State.onlyRegs { s with ph := t.ph } t [F.PH_IRAW_CODE.addr p, F.SUPV_SRC_SRC.addr (Src.phIsrange p / 32)]) := by
  obtain ⟨g, hexec, hg⟩ := exec_phaseSample (s := s) (p := p) h0 h1
  refine ⟨_, hexec, ?_⟩
  generalize hu : (s.sampled p code.toNat).updPh p g = u
  obtain ⟨hbit, hlow⟩ := u.lower_spec (Src.phIsrange p)
  have hph : (u.lower (Src.phIsrange p)).ph = u.ph := hlow.hidden fun _ _ => rfl
  have hsampled := (s.setF F.PH_IRAW_CODE p code.toNat).updPh_get_self p (fun u => { u with
    iCal := s.calCurrent p code.toNat, updAcc := (u.updAcc.1 + s.calCurrent p code.toNat, u.updAcc.2 + 1)
    balAcc := (u.balAcc.1 + s.calCurrent p code.toNat, u.balAcc.2 + 1) })
  have hself : (u.lower (Src.phIsrange p)).ph.get p = g ((s.sampled p code.toNat).ph.get p) := by
    rw [hph, ← hu]
    exact State.updPh_get_self _ p g
  obtain ⟨hcal, hsum, hrun⟩ := hg ((s.sampled p code.toNat).ph.get p)
  have hframe : State.onlyRegs { s with ph := u.ph } u [F.PH_IRAW_CODE.addr p] := hu ▸ (s.onlyRegs_setF F.PH_IRAW_CODE p code.toNat).ofPh _
  have hraw : F.PH_IRAW_CODE.addr p ∉ [F.SUPV_SRC_SRC.addr (Src.phIsrange p / 32)] := by
    simp only [List.mem_singleton, Fld.addr, F.PH_IRAW_CODE, F.SUPV_SRC_SRC, Src.phIsrange]
    omega
  have hcode : u.f F.PH_IRAW_CODE p = code.toNat := by
    rw [← hu]
    exact (s.f_setF_self (by decide) p _).trans (Nat.mod_eq_of_lt code.isLt)
  refine ⟨(hlow.f hraw).trans hcode, ?_, ?_, ?_, hbit, fun q hq => ?_, ?_⟩
  · rw [hself, hcal]
    exact congrArg PhaseSt.iCal hsampled
  · rw [hself, hrun]
  · rw [hself, hsum]
    exact congrArg PhaseSt.updAcc hsampled
  · rw [hph, ← hu]
    exact (State.updPh_get_ne _ hq g).trans (State.updPh_get_ne _ hq _)
  · rw [hph]
    exact hframe.trans hlow

/-! ### Average ceilings (R114) -/

theorem phOcavg_silent (p : Fin 48) : silentSource (Src.phOcavg p) := Or.inl (by unfold Src.phOcavg; omega)

theorem averageCeilingExceeded_completes (h : s.fB F.PH_STAT_ACTIVE p = true) : completes (.averageCeilingExceeded p) s (fun t =>
    t.fB F.PH_STAT_OCAVG p = true ∧ t.srcBit (Src.phOcavg p) = true ∧ s.reportsOnly t [F.PH_STAT_OCAVG.addr p]) := by
  have hexec : exec (.averageCeilingExceeded p) s = .next ((s.setB F.PH_STAT_OCAVG p true).raise (Src.phOcavg p)) := by
    change execAverageCeilingExceeded p s = _
    simp only [execAverageCeilingExceeded, h, if_true]
  obtain ⟨hbit, hrest⟩ := (s.setB F.PH_STAT_OCAVG p true).raise_silent (phOcavg_silent p)
  have hflag := hrest.f (fl := F.PH_STAT_OCAVG) (i := p) (Fld.ofPhase.reportWord (by decide) p) List.not_mem_nil
  exact ⟨_, hexec, (State.fB_ofF hflag).trans (s.fB_setB_self (by decide) rfl p true), hbit,
    (s.onlyRegs_setF F.PH_STAT_OCAVG p _).reportsOnly.trans hrest⟩

/-! ### Delay lines (R101) -/

theorem phLane_silent (p : Fin 48) : silentSource (Src.phLane p) := Or.inl (by unfold Src.phLane; omega)

/-- The phases in use whose delay lines are bad. -/
def State.badLines (s : State) (bad : BitVec 48) : List (Fin 48) :=
  phases.filter (fun p : Fin 48 => bad.getLsbD p && s.fB F.PH_CFG_USED p)

theorem State.badLines_isEmpty (s : State) (bad : BitVec 48) :
    (s.badLines bad).isEmpty = phases.all (fun p : Fin 48 => !(bad.getLsbD p && s.fB F.PH_CFG_USED p)) := by
  rw [Bool.eq_iff_iff, List.isEmpty_iff, State.badLines, List.filter_eq_nil_iff, List.all_eq_true]
  simp only [Bool.not_eq_true, Bool.not_eq_true']

theorem State.eachRaised_reports (s : State) (l : List (Fin 48)) :
    s.reportsOnly (s.each l (fun s p => s.raise (Src.phLane p))) [] :=
  State.each_keeps (P := fun t => s.reportsOnly t []) s (fun t p h => h.trans (t.raise_silent (phLane_silent p)).2) l
    (State.reportsOnly.refl s [])

theorem State.eachRaised_srcBit (s : State) (l : List (Fin 48)) :
    ∀ p ∈ l, (s.each l (fun s p => s.raise (Src.phLane p))).srcBit (Src.phLane p) = true :=
  State.each_establishes (Q := fun (p : Fin 48) t => t.srcBit (Src.phLane p) = true) (fun t p => (t.raise_silent (phLane_silent p)).1)
    (fun _ q _ h => State.srcBit_raise_silent (phLane_silent q) h) l s

theorem delayLineCalibration_completes (bad : BitVec 48) : completes (.delayLineCalibration bad) s (fun t =>
    t.fB F.CLK_DLCAL_OK = phases.all (fun p => !(bad.getLsbD p && s.fB F.PH_CFG_USED p)) ∧
    (∀ p : Fin 48, bad.getLsbD p = true → s.fB F.PH_CFG_USED p = true → t.srcBit (Src.phLane p) = true) ∧
    s.reportsOnly t [F.CLK_DLCAL_OK.addr 0]) := by
  have hrest := (s.setB F.CLK_DLCAL_OK 0 (s.badLines bad).isEmpty).eachRaised_reports (s.badLines bad)
  have hflag := hrest.f (fl := F.CLK_DLCAL_OK) (i := 0) (by decide) List.not_mem_nil
  refine ⟨_, rfl, ?_, fun p hbad hused => ?_, (s.onlyRegs_setF F.CLK_DLCAL_OK 0 _).reportsOnly.trans hrest⟩
  · exact (State.fB_ofF hflag).trans ((s.fB_setB_self (by decide) rfl 0 _).trans (s.badLines_isEmpty bad))
  · exact State.eachRaised_srcBit _ _ p (List.mem_filter.mpr ⟨List.mem_finRange p, by rw [hbad, hused]; rfl⟩)

/-! ### A Fox trip reported and held (R116, R117) -/

theorem phFox_silent (p : Fin 48) : silentSource (Src.phFox p) := Or.inl (by unfold Src.phFox; omega)

/-- The phase held at the mid level, the trip shown, counted and raised. -/
def State.foxReported (s : State) (p : Fin 48) : State :=
  let s := s.updPh p (fun u => { u with out := .mid, foxHold := true, blanking := false, onDeferred := false, dem := false })
  ((s.setB F.PH_STAT_FOX p true).incF F.PH_CNT_FOXCNT p).raise (Src.phFox p)

/-- What the report of a Fox trip brings about and leaves alone. -/
structure State.FoxReported (p : Fin 48) (s t : State) : Prop where
  out : (t.ph.get p).out = .mid
  hold : (t.ph.get p).foxHold = true
  others : ∀ q, q ≠ p → t.ph.get q = s.ph.get q
  shown : t.fB F.PH_STAT_FOX p = true
  count : t.f F.PH_CNT_FOXCNT p = Nat.min (2 ^ F.PH_CNT_FOXCNT.w - 1) (s.f F.PH_CNT_FOXCNT p + 1)
  raised : t.srcBit (Src.phFox p) = true
  rest : State.reportsOnly { s with ph := t.ph } t [F.PH_STAT_FOX.addr p, F.PH_CNT_FOXCNT.addr p]

theorem State.foxReported_spec (s : State) (p : Fin 48) : s.FoxReported p (s.foxReported p) := by
  unfold State.foxReported
  extract_lets s₁
  have hp : s₁.ph.get p = _ := s.updPh_get_self p _
  have hq (q : Fin 48) (hq : q ≠ p) : s₁.ph.get q = s.ph.get q := s.updPh_get_ne hq _
  have hregs : s₁.regs = s.regs := rfl
  have hframe : { s with ph := s₁.ph } = s₁ := rfl
  clear_value s₁
  have hne : F.PH_STAT_FOX.addr p ≠ F.PH_CNT_FOXCNT.addr p :=
    Fld.ofPhase.addr_ne (f := F.PH_STAT_FOX) (g := F.PH_CNT_FOXCNT) (by decide) (by decide) (by decide) p p
  obtain ⟨hbit, hrest⟩ := ((s₁.setB F.PH_STAT_FOX p true).incF F.PH_CNT_FOXCNT p).raise_silent (phFox_silent p)
  have hph : (((s₁.setB F.PH_STAT_FOX p true).incF F.PH_CNT_FOXCNT p).raise (Src.phFox p)).ph = s₁.ph := hrest.hidden fun _ _ _ => rfl
  have hfox := hrest.f (fl := F.PH_STAT_FOX) (i := p) (Fld.ofPhase.reportWord (by decide) p) List.not_mem_nil
  have hcnt := hrest.f (fl := F.PH_CNT_FOXCNT) (i := p) (Fld.ofPhase.reportWord (by decide) p) List.not_mem_nil
  refine ⟨?_, ?_, fun q hq' => ?_, ?_, ?_, hbit, ?_⟩
  · rw [hph, hp]
  · rw [hph, hp]
  · rw [hph, hq q hq']
  · exact (State.fB_ofF hfox).trans ((State.fB_setF_ne _ hne).trans (s₁.fB_setB_self (by decide) rfl p true))
  · rw [hcnt, State.f_incF_self _ (by decide), s₁.f_setB_ne hne.symm, State.f_ofRegs hregs]
  · rw [hph, hframe]
    exact ((s₁.onlyRegs_setF F.PH_STAT_FOX p _).trans (State.onlyRegs_setF _ F.PH_CNT_FOXCNT p _)).reportsOnly.trans hrest

/-- The phase's configuration reads as before. -/
theorem State.FoxReported.cfg (h : s.FoxReported p t) {fl : Fld} (hf : fl.ofPhase := by decide)
    (hs : fl.base ≠ 0x408 ∧ fl.base ≠ 0x40A := by decide) : t.f fl p = s.f fl p := by
  have hstat := hf.addr_ne (g := F.PH_STAT_FOX) (by decide) hs.1 p p
  have hcnt := hf.addr_ne (g := F.PH_CNT_FOXCNT) (by decide) hs.2 p p
  exact (h.rest.f (hf.reportWord p) (by simp [hstat, hcnt]) :)

theorem State.FoxReported.cl (h : s.FoxReported p t) : t.cl = s.cl := h.rest.hidden (π := State.cl) fun _ _ _ => rfl

theorem State.FoxReported.phCluster (h : s.FoxReported p t) : t.phCluster p = s.phCluster p :=
  State.phCluster_congr (State.fB_ofF h.cfg) h.cfg

end Sys2Proof.Machine
end

section
/-! SUPPORT. The active set made anew (R151 to R155): what the cluster's counters then read, and what the loops over the phases that
leave and join change beside it. -/

namespace Sys2Proof.Machine

variable {s t u : State} {n : Fin 16}

/-! ### The loops over the phases that leave and join -/

/-- The words that the loops and the pointer write: those of the phases, the rotation pointers and the trims. -/
def regroupWord (a : Nat) : Bool :=
  0x400 ≤ a && a < 0x2000 && (a < 0x1000 || a % 0x100 == 0x23 || (0x30 ≤ a % 0x100 && a % 0x100 < 0x38))

theorem regroupWord_iff (a : Nat) : regroupWord a = true ↔
    0x400 ≤ a ∧ a < 0x2000 ∧ (a < 0x1000 ∨ a % 0x100 = 0x23 ∨ 0x30 ≤ a % 0x100 ∧ a % 0x100 < 0x38) := by
  simp [regroupWord, and_assoc, or_assoc]

/-- What phases that leave and join the active set leave alone: everything but the phases and those words; the calibration in force, a Fox
hold and the output it holds, and the flags of PHp_STAT beside ACTIVE. -/
structure State.Regroups (s t : State) : Prop where
  rest : { t with regs := s.regs, ph := s.ph } = s
  calF : ∀ p, (t.ph.get p).calF = (s.ph.get p).calF
  foxHold : ∀ p, (t.ph.get p).foxHold = (s.ph.get p).foxHold
  held : ∀ p, (s.ph.get p).foxHold = true → (s.ph.get p).out = .mid → (t.ph.get p).out = .mid
  stat : ∀ (p : Fin 48) (fl : Fld), fl.base = 0x408 ∧ fl.stride = 0x20 ∧ fl.fits ∧ F.PH_STAT_ACTIVE.apart fl → t.f fl p = s.f fl p
  word : ∀ a, regroupWord a = false → t.reg a = s.reg a

theorem State.Regroups.refl (s : State) : s.Regroups s :=
  ⟨rfl, fun _ => rfl, fun _ => rfl, fun _ _ h => h, fun _ _ _ => rfl, fun _ _ => rfl⟩

/-- Hidden state beside the phases' is as before. -/
theorem State.Regroups.hidden {β : Type} (h : s.Regroups t) {π : State → β} (hπ : ∀ (x : State) r v, π { x with regs := r, ph := v } = π x) :
    π t = π s := (hπ t s.regs s.ph).symm.trans (congrArg π h.rest)

/-- A trim or a pointer stored. -/
theorem State.Regroups.setReg (h : s.Regroups t) {a : Nat} (ha : regroupWord a = true) (hlo : 0x1000 ≤ a) (w : Word) :
    s.Regroups (t.setReg a w) where
  rest := h.rest
  calF := h.calF
  foxHold := h.foxHold
  held := h.held
  stat := fun p fl hfl => by
    obtain ⟨hb, hs, -⟩ := id hfl
    have hne : fl.addr p ≠ a := by
      rw [Fld.addr, hb, hs]
      omega
    exact (State.f_setReg_ne t hne).trans (h.stat p fl hfl)
  word := fun b hb => by
    have hne : b ≠ a := by rintro rfl; simp [ha] at hb
    exact (State.reg_setReg_ne t hne w).trans (h.word b hb)

theorem State.Regroups.setTrim (h : s.Regroups t) (n : Fin 16) (k : Nat) (v : Int) : s.Regroups (t.setTrim n k v) := by
  have hb : (trimFld k).base = 0x1030 ∧ (trimFld k).stride = 0x100 := by unfold trimFld; split <;> exact ⟨rfl, rfl⟩
  refine h.setReg ((regroupWord_iff _).mpr ?_) ?_ _
  all_goals
    rw [Fld.addr, hb.1, hb.2]
    omega

theorem State.Regroups.setPtr (h : s.Regroups t) (n : Fin 16) (v : Nat) : s.Regroups (t.setF F.CL_ROT_PTR n v) :=
  h.setReg ((regroupWord_iff _).mpr (by simp only [Fld.addr, F.CL_ROT_PTR]; omega)) (by simp only [Fld.addr, F.CL_ROT_PTR]; omega) _

theorem State.Regroups.setActiveFlag (h : s.Regroups t) (p : Fin 48) (b : Bool) : s.Regroups (t.setB F.PH_STAT_ACTIVE p b) where
  rest := h.rest
  calF := h.calF
  foxHold := h.foxHold
  held := h.held
  stat := fun q fl hfl => by
    obtain ⟨-, -, hfit, hap⟩ := id hfl
    exact (State.f_setB_apart t hfit hap).trans (h.stat q fl hfl)
  word := fun a ha => by
    have hne : a ≠ F.PH_STAT_ACTIVE.addr p := by
      rintro rfl
      have hin : regroupWord (F.PH_STAT_ACTIVE.addr p) = true :=
        (regroupWord_iff _).mpr (by simp only [Fld.addr, F.PH_STAT_ACTIVE]; omega)
      simp [hin] at ha
    exact (State.reg_setB_ne t hne).trans (h.word a ha)

theorem State.Regroups.updPh (h : s.Regroups t) (p : Fin 48) {g : PhaseSt → PhaseSt}
    (hg : ∀ u, (g u).calF = u.calF ∧ (g u).foxHold = u.foxHold ∧ (u.foxHold = true → u.out = .mid → (g u).out = .mid)) :
    s.Regroups (t.updPh p g) := by
  have hget (q : Fin 48) : (t.updPh p g).ph.get q = if q = p then g (t.ph.get q) else t.ph.get q := by
    split
    case isTrue e => rw [e, State.updPh_get_self]
    case isFalse e => exact State.updPh_get_ne t e g
  refine ⟨h.rest, fun q => ?_, fun q => ?_, fun q hf ho => ?_, h.stat, h.word⟩
  · rw [hget, ← h.calF q]
    split
    · exact (hg _).1
    · rfl
  · rw [hget, ← h.foxHold q]
    split
    · exact (hg _).2.1
    · rfl
  · rw [hget]
    split
    · exact (hg _).2.2 ((h.foxHold q).trans hf) (h.held q hf ho)
    · exact h.held q hf ho

theorem State.Regroups.fixPtr (h : s.Regroups t) (n : Fin 16) : s.Regroups (t.fixPtr n) := by
  unfold State.fixPtr
  dsimp only
  split
  · exact h
  · split
    · exact h.setPtr n _
    · exact h.setPtr n _

/-! ### The counters -/

/-- The active set's mask, its size and n_av, stored before the phases follow. -/
def State.counted (s : State) (n : Fin 16) (new : List Nat) : State :=
  let s := ((s.setF F.CL_PHSTAT_ACTMASK n (maskOf new)).setF F.CL_PHSTAT_M n new.length).setF F.CL_PHSTAT_NAV n (s.nAv n)
  s.updCl n (fun c => { c with mNext := new.length })

theorem State.counted_m (s : State) (n : Fin 16) {new : List Nat} (h : new.length < 32) :
    (s.counted n new).f F.CL_PHSTAT_M n = new.length := by
  have hm := (s.setF F.CL_PHSTAT_ACTMASK n (maskOf new)).f_setF_self (fl := F.CL_PHSTAT_M) (by decide) n new.length
  have hnav (u : State) := u.f_setF_apart (fl := F.CL_PHSTAT_NAV) (g := F.CL_PHSTAT_M) (i := n) (j := n) (v := s.nAv n) (by decide) (by decide)
  exact (hnav _).trans (hm.trans (Nat.mod_eq_of_lt h))

theorem State.setActiveList_regroups (s : State) (n : Fin 16) (new : List Nat) :
    (s.counted n new).Regroups (s.setActiveList n new) := by
  unfold State.setActiveList
  extract_lets old s₁ s₂ s₃ s₄
  have h₂ : (s.counted n new).Regroups s₂ := State.Regroups.refl _
  have h₃ : (s.counted n new).Regroups s₃ := State.each_keeps (P := (s.counted n new).Regroups) s₂ (fun u k h => by
    dsimp only
    split
    · exact h.setTrim n k 0
    · refine ((h.setTrim n k 0).setActiveFlag _ _).updPh _ fun u => ⟨rfl, rfl, fun _ ho => ?_⟩
      simp [ho]) _ h₂
  refine State.Regroups.fixPtr (State.each_keeps (P := (s.counted n new).Regroups) s₃ (fun u k h => ?_) _ h₃) n
  dsimp only
  split
  · exact h.setTrim n k 0
  · refine ((h.setTrim n k 0).setActiveFlag _ _).updPh _ fun u => ⟨rfl, rfl, fun hf ho => ?_⟩
    simp [hf, ho]

end Sys2Proof.Machine
end

section
/-! SUPPORT. A phase held by a latched Fox trip stays so while it is removed from its cluster (R116, R162, R163). -/

namespace Sys2Proof.Machine

variable {s t u : State} {p : Fin 48}

/-- The phase's output is held at the mid level, and its trip shown, latched and raised. -/
structure State.FoxHeld (p : Fin 48) (s : State) : Prop where
  out : (s.ph.get p).out = .mid
  hold : (s.ph.get p).foxHold = true
  latched : s.fB F.PH_STAT_FOXLAT p = true
  shown : s.fB F.PH_STAT_FOX p = true
  raised : s.srcBit (Src.phFox p) = true

theorem State.FoxHeld.hidden (h : s.FoxHeld p) (hr : t.regs = s.regs) (hph : t.ph = s.ph) : t.FoxHeld p where
  out := hph ▸ h.out
  hold := hph ▸ h.hold
  latched := (State.fB_ofF (State.f_ofRegs hr _ _)).trans h.latched
  shown := (State.fB_ofF (State.f_ofRegs hr _ _)).trans h.shown
  raised := (congrArg (Nat.testBit · _) (State.f_ofRegs hr _ _)).trans h.raised

/-! ### Stores -/

/-- A store outside the phases' words and the sources. -/
theorem State.FoxHeld.setReg (h : s.FoxHeld p) {a : Nat} (ha : a < 0x240 ∨ 0x1000 ≤ a) (w : Word) : (s.setReg a w).FoxHeld p := by
  have hstat : F.PH_STAT_FOX.addr p ≠ a := by simp only [Fld.addr, F.PH_STAT_FOX]; omega
  have hsrc : F.SUPV_SRC_SRC.addr (Src.phFox p / 32) ≠ a := by simp only [Fld.addr, F.SUPV_SRC_SRC, Src.phFox]; omega
  exact ⟨h.out, h.hold, (State.fB_setReg_ne s (g := F.PH_STAT_FOXLAT) hstat).trans h.latched, (State.fB_setReg_ne s hstat).trans h.shown,
    (congrArg (Nat.testBit · _) (State.f_setReg_ne s hsrc)).trans h.raised⟩

theorem State.FoxHeld.setCl (h : s.FoxHeld p) (n : Fin 16) {fl : Fld} (v : Nat) (hf : fl.ofCluster := by decide) :
    (s.setF fl n v).FoxHeld p :=
  h.setReg (Or.inr (by rw [Fld.addr]; exact Nat.le_add_right_of_le hf.2.1)) _

theorem State.FoxHeld.setActiveFlag (h : s.FoxHeld p) (q : Fin 48) (b : Bool) : (s.setB F.PH_STAT_ACTIVE q b).FoxHeld p := by
  have hsrc : F.SUPV_SRC_SRC.addr (Src.phFox p / 32) ≠ F.PH_STAT_ACTIVE.addr q := by
    simp only [Fld.addr, F.SUPV_SRC_SRC, F.PH_STAT_ACTIVE, Src.phFox]
    omega
  exact ⟨h.out, h.hold, (State.fB_setB_apart s (by decide) (by decide)).trans h.latched,
    (State.fB_setB_apart s (by decide) (by decide)).trans h.shown, (congrArg (Nat.testBit · _) (State.f_setB_ne s hsrc)).trans h.raised⟩

/-- A change of a phase that ends no Fox hold and drives no output that one holds. -/
theorem State.FoxHeld.updPh (h : s.FoxHeld p) (q : Fin 48) {g : PhaseSt → PhaseSt}
    (hg : ∀ u, (g u).foxHold = u.foxHold ∧ (u.out = .mid → (g u).out = .mid)) : (s.updPh q g).FoxHeld p := by
  by_cases e : p = q
  · subst e
    have hp := s.updPh_get_self p g
    exact ⟨hp ▸ (hg _).2 h.out, hp ▸ (hg _).1.trans h.hold, h.latched, h.shown, h.raised⟩
  · have hp := s.updPh_get_ne e g
    exact ⟨hp ▸ h.out, hp ▸ h.hold, h.latched, h.shown, h.raised⟩

theorem State.FoxHeld.updCl (h : s.FoxHeld p) (n : Fin 16) (g : ClusterSt → ClusterSt) : (s.updCl n g).FoxHeld p := h.hidden rfl rfl

theorem State.FoxHeld.each {α : Type} (h : s.FoxHeld p) (l : List α) {g : State → α → State}
    (hg : ∀ {u} x, u.FoxHeld p → (g u x).FoxHeld p) : (s.each l g).FoxHeld p :=
  State.each_keeps (P := State.FoxHeld p) s (fun _ x hu => hg x hu) l h

theorem State.FoxHeld.when (h : s.FoxHeld p) (b : Bool) {g : State → State} (hg : ∀ {u}, u.FoxHeld p → (g u).FoxHeld p) :
    (s.when b g).FoxHeld p := State.when_ind (P := State.FoxHeld p) h b hg

/-! ### Sources and records -/

theorem State.FoxHeld.ofReports (h : s.FoxHeld p) (k : s.reportsOnly t []) (hsrc : t.srcBit (Src.phFox p) = true) : t.FoxHeld p := by
  have hph : t.ph = s.ph := k.hidden fun _ _ _ => rfl
  have hstat (fl : Fld) (hf : fl.ofPhase) : t.fB fl p = s.fB fl p := State.fB_ofF (k.f (hf.reportWord p) List.not_mem_nil)
  exact ⟨hph ▸ h.out, hph ▸ h.hold, (hstat _ (by decide)).trans h.latched, (hstat _ (by decide)).trans h.shown, hsrc⟩

theorem State.FoxHeld.raise (h : s.FoxHeld p) {src : Nat} (hs : silentSource src) : (s.raise src).FoxHeld p :=
  h.ofReports (s.raise_silent hs).2 (State.srcBit_raise_silent hs h.raised)

theorem State.FoxHeld.lower (h : s.FoxHeld p) {src : Nat} (hs : 0x30 ≤ src ∧ src < 0x2E0) : (s.lower src).FoxHeld p := by
  obtain ⟨-, hrest⟩ := s.lower_spec src
  have hne : Src.phFox p ≠ src := by unfold Src.phFox; omega
  have hph : (s.lower src).ph = s.ph := hrest.hidden fun _ _ => rfl
  have hstat (fl : Fld) (hf : fl.ofPhase) : (s.lower src).fB fl p = s.fB fl p := by
    refine State.fB_ofF (hrest.f ?_)
    obtain ⟨hst, hlo, hhi⟩ := hf
    simp only [List.mem_singleton, Fld.addr, F.SUPV_SRC_SRC, hst]
    omega
  exact ⟨hph ▸ h.out, hph ▸ h.hold, (hstat _ (by decide)).trans h.latched, (hstat _ (by decide)).trans h.shown,
    (s.srcBit_lower_ne hne).trans h.raised⟩

theorem State.FoxHeld.record (h : s.FoxHeld p) (type : Nat) (payload : List Word) : (s.record type payload).FoxHeld p := by
  unfold State.record
  split
  · exact h.setReg (a := 0x2E01) (by decide) _
  · refine State.FoxHeld.setReg (a := 0x2E02) ?_ (by decide) _
    exact h.hidden rfl rfl

/-! ### The active set -/

theorem State.FoxHeld.regroups (h : s.FoxHeld p) (k : s.Regroups t) : t.FoxHeld p where
  out := k.held p h.hold h.out
  hold := (k.foxHold p).trans h.hold
  latched := (State.fB_ofF (k.stat p F.PH_STAT_FOXLAT (by decide))).trans h.latched
  shown := (State.fB_ofF (k.stat p F.PH_STAT_FOX (by decide))).trans h.shown
  raised := by
    have hsrc : regroupWord (F.SUPV_SRC_SRC.addr (Src.phFox p / 32)) = false := by
      rw [Bool.eq_false_iff, ne_eq, regroupWord_iff]
      simp only [Fld.addr, F.SUPV_SRC_SRC, Src.phFox]
      omega
    exact (congrArg (fun w => (F.SUPV_SRC_SRC.get w).testBit (Src.phFox p % 32)) (k.word _ hsrc)).trans h.raised

theorem State.FoxHeld.counted (h : s.FoxHeld p) (n : Fin 16) (new : List Nat) : (s.counted n new).FoxHeld p := by
  unfold State.counted
  exact (((h.setCl n _).setCl n _).setCl n _).updCl n _

theorem State.FoxHeld.setActiveList (h : s.FoxHeld p) (n : Fin 16) (new : List Nat) : (s.setActiveList n new).FoxHeld p :=
  (h.counted n new).regroups (s.setActiveList_regroups n new)

theorem State.FoxHeld.leaveActive (h : s.FoxHeld p) (n : Fin 16) (k : Nat) : (s.leaveActive n k).FoxHeld p := by
  unfold State.leaveActive
  dsimp only
  split
  · exact ((h.updCl n _).setActiveList n _).updCl n _
  · exact h.updCl n _

theorem State.FoxHeld.setTrim (h : s.FoxHeld p) (n : Fin 16) (k : Nat) (v : Int) : (s.setTrim n k v).FoxHeld p :=
  h.regroups ((State.Regroups.refl s).setTrim n k v)

theorem State.FoxHeld.evalOlim (h : s.FoxHeld p) (n : Fin 16) : (s.evalOlim n).FoxHeld p := (h.setCl n _).setCl n _

theorem State.FoxHeld.evalPhloss (h : s.FoxHeld p) (n : Fin 16) : (s.evalPhloss n).FoxHeld p := by
  have hloss := State.FoxHeld.when h (decide (s.nAv n < s.f F.CL_PHFAIL_MINAV n)) (g := fun s => s.setB F.CL_OLSTAT_PHLOSS n true)
    fun h => h.setCl n _
  unfold State.evalPhloss State.follow
  dsimp only
  split
  · exact hloss.raise (by unfold Src.clPhloss; omega)
  · exact hloss.lower (by unfold Src.clPhloss; omega)

/-! ### Off -/

theorem State.FoxHeld.injAbort (h : s.FoxHeld p) (n : Fin 16) : (s.injAbort n).FoxHeld p := by
  unfold State.injAbort
  split
  · exact State.FoxHeld.hidden ((h.setCl n (fl := F.CL_INJ_EN) false.toNat).setCl n (fl := F.CL_INJ_ABORT) true.toNat) rfl rfl
  · exact h

theorem State.FoxHeld.endBlank (h : s.FoxHeld p) (n : Fin 16) : (s.endBlank n).FoxHeld p := by
  unfold State.endBlank
  dsimp only
  refine State.FoxHeld.updCl (State.FoxHeld.setCl (State.FoxHeld.when h _ fun {u} h => h.setReg (Or.inr ?_) _) n _) n _
  simp only [Fld.addr, F.TM_CTRL_RUN]
  omega

theorem State.FoxHeld.evalPwrgd (h : s.FoxHeld p) : s.evalPwrgd.FoxHeld p := by
  unfold State.evalPwrgd
  split
  · exact h.hidden rfl rfl
  · exact h

theorem State.FoxHeld.clOff (h : s.FoxHeld p) (n : Fin 16) : (s.clOff n).FoxHeld p := by
  unfold State.clOff
  split
  · exact h.updCl n _
  · extract_lets s₁ s₂ s₃ s₄ s₅ s₆ s₇ s₈ pins s₉
    have h₁ : s₁.FoxHeld p := h.injAbort n
    have h₂ : s₂.FoxHeld p := h₁.when _ fun {u} h =>
      State.FoxHeld.setCl (State.FoxHeld.setCl (State.FoxHeld.hidden (t := u.draw.2) h rfl rfl) n _) n _
    have h₃ : s₃.FoxHeld p := h₂.each _ fun q h => (h.setActiveFlag q false).updPh q fun u => ⟨rfl, fun _ => rfl⟩
    clear_value s₃
    have h₄ : s₄.FoxHeld p := ((h₃.setCl n _).setCl n _).setCl n _
    have h₅ : s₅.FoxHeld p := ((h₄.setCl n _).setCl n _).setCl n _
    have h₆ : s₆.FoxHeld p := State.FoxHeld.lower (h₅.setCl n _) (by unfold Src.clOverload; omega)
    have h₈ : s₈.FoxHeld p := (h₆.endBlank n).updCl n _
    clear_value s₈
    exact (h₈.hidden (t := s₉) rfl rfl).evalPwrgd

theorem State.FoxHeld.clCloff (h : s.FoxHeld p) (n : Fin 16) : (s.clCloff n).FoxHeld p :=
  h.each _ fun k h => (h.clOff k).setReg (Or.inl (by decide)) _

theorem State.FoxHeld.removePhase (h : s.FoxHeld p) (n : Fin 16) (q : Fin 48) (cause : Nat) {src : Nat} (hs : silentSource src) :
    (s.removePhase n q cause src).FoxHeld p := by
  unfold State.removePhase
  extract_lets k
  split
  case isTrue => exact h
  case isFalse =>
    rename_i others s₁ s₂ s₃ s₄ s₅ s₆ hrem
    have h₁ : s₁.FoxHeld p := (h.setActiveFlag q false).updPh q fun u => ⟨rfl, fun _ => rfl⟩
    have h₂ : s₂.FoxHeld p := (((h₁.setCl n _).setCl n _).setCl n _).setCl n _
    have h₃ : s₃.FoxHeld p := ((h₂.setTrim n k 0).leaveActive n k).evalOlim n
    have h₆ : s₆.FoxHeld p := ((h₃.raise hs).record _ _).evalPhloss n
    clear_value s₆
    split
    · exact h₆.clCloff n
    · exact h₆

end Sys2Proof.Machine
end

section
/-! THE STATEMENT ON PHASE SAMPLES, CEILINGS, FOX TRIPS AND DELAY LINES (O9). -/

namespace Sys2Proof.Machine

variable {s t : State} {p : Fin 48} {n : Fin 16}

/-! ### Fox trips (R116, R117) -/

/-- A trip in the window of a pre-start check is noted (R119). -/
def State.foxNoted (s : State) (n : Fin 16) (p : Fin 48) : State :=
  s.when ((s.cl.get n).run == .checking) (fun s => s.updCl n (fun c => { c with pscFox := c.pscFox.or (some p.val) }))

/-- A trip that is not retried. -/
def State.foxLatched (s : State) (p : Fin 48) : State := (s.setB F.PH_STAT_FOXLAT p true).updPh p (fun u => { u with foxLeft := 0 })

theorem State.foxNoted_regs (s : State) (n : Fin 16) (p : Fin 48) : (s.foxNoted n p).regs = s.regs :=
  State.when_ind (P := fun t => t.regs = s.regs) rfl _ fun h => h

theorem State.foxNoted_ph (s : State) (n : Fin 16) (p : Fin 48) : (s.foxNoted n p).ph = s.ph :=
  State.when_ind (P := fun t => t.ph = s.ph) rfl _ fun h => h

theorem State.foxNoted_of_not (h : (s.cl.get n).run ≠ .checking) (p : Fin 48) : s.foxNoted n p = s :=
  s.when_of_false (by simpa using h) _

theorem State.phCluster_used (h : s.phCluster p = some n) : s.fB F.PH_CFG_USED p = true := by
  unfold State.phCluster at h
  split at h
  · assumption
  · cases h

theorem State.foxLatched_cfg (s : State) (p : Fin 48) {fl : Fld} (hf : fl.ofPhase) (hs : fl.base ≠ 0x408) :
    (s.foxLatched p).f fl p = s.f fl p := by
  have hregs : (s.foxLatched p).regs = (s.setB F.PH_STAT_FOXLAT p true).regs := rfl
  rw [State.f_ofRegs hregs, State.f_setB_ne s (hf.addr_ne (g := F.PH_STAT_FOXLAT) (by decide) hs p p)]

theorem State.foxLatched_phCluster (s : State) (p : Fin 48) : (s.foxLatched p).phCluster p = s.phCluster p :=
  State.phCluster_congr (State.fB_ofF (s.foxLatched_cfg p (by decide) (by decide))) (s.foxLatched_cfg p (by decide) (by decide))

theorem State.foxNoted_phCluster (s : State) (n : Fin 16) (p : Fin 48) : (s.foxNoted n p).phCluster p = s.phCluster p :=
  State.phCluster_congr (State.fB_ofF (State.f_ofRegs (s.foxNoted_regs n p) _ _)) (State.f_ofRegs (s.foxNoted_regs n p) _ _)

/-- The trip's report, the note, and then the latch with the removal, or the hold that is to be retried. -/
theorem exec_foxTrip (hcl : s.phCluster p = some n) (recent : BitVec 4) : exec (.foxTrip p recent) s = .next
    (if !s.fB F.PH_FOX_FOXMODE p || s.f F.PH_FOX_FOXMAX p ≤ recent.toNat
      then ((((s.foxReported p).foxNoted n p).foxLatched p).removePhase n p 5 (Src.phFox p))
      else ((s.foxReported p).foxNoted n p).updPh p (fun u => { u with foxLeft := s.f F.PH_FOX_FOXHOLD p })) := by
  change execFoxTrip p recent s = _
  have hrep := s.foxReported_spec p
  have hcl₁ : (s.foxReported p).phCluster p = some n := hrep.phCluster.trans hcl
  have hcl₃ : (((s.foxReported p).foxNoted n p).foxLatched p).phCluster p = some n := by
    rw [State.foxLatched_phCluster, State.foxNoted_phCluster, hcl₁]
  have hcfg (fl : Fld) (hf : fl.ofPhase) (hs : fl.base ≠ 0x408 ∧ fl.base ≠ 0x40A) :
      ((s.foxReported p).foxNoted n p).f fl p = s.f fl p :=
    (State.f_ofRegs (State.foxNoted_regs _ n p) fl p).trans (hrep.cfg hf hs)
  have hmode := State.fB_ofF (hcfg F.PH_FOX_FOXMODE (by decide) (by decide))
  have hmax := hcfg F.PH_FOX_FOXMAX (by decide) (by decide)
  have hhold := hcfg F.PH_FOX_FOXHOLD (by decide) (by decide)
  have hused : ¬(!s.fB F.PH_CFG_USED p) = true := by simp [State.phCluster_used hcl]
  unfold execFoxTrip
  rw [if_neg hused]
  extract_lets s₁ s₂ s₃ s₄
  have h₂ : s₂ = s.foxReported p := rfl
  have h₃ : s₃ = (s.foxReported p).foxNoted n p := by
    rw [← h₂] at hcl₁ ⊢
    simp only [s₃, hcl₁]
    rfl
  clear_value s₃
  have h₄ : s₄.phCluster p = some n := by
    rw [← hcl₃, ← h₃]
    rfl
  rw [h₄]
  subst h₃
  rw [hmode, hmax, hhold]
  split <;> rfl

/-! ### What the two ends of a trip bring about -/

theorem State.FoxReported.noted_srcBit (h : s.FoxReported p t) (n : Fin 16) : (t.foxNoted n p).srcBit (Src.phFox p) = true :=
  (congrArg (Nat.testBit · _) (State.f_ofRegs (t.foxNoted_regs n p) _ _)).trans h.raised

/-- A trip that is retried. -/
theorem foxTrip_retried {recent : BitVec 4} (hcl : s.phCluster p = some n) (hmode : s.fB F.PH_FOX_FOXMODE p = true)
    (hfew : recent.toNat < s.f F.PH_FOX_FOXMAX p) (hrun : (s.cl.get n).run ≠ .checking) : completes (.foxTrip p recent) s (fun t =>
      (t.ph.get p).out = .mid ∧ (t.ph.get p).foxHold = true ∧ (t.ph.get p).foxLeft = s.f F.PH_FOX_FOXHOLD p ∧
      t.fB F.PH_STAT_FOX p = true ∧ t.srcBit (Src.phFox p) = true ∧
      t.f F.PH_CNT_FOXCNT p = Nat.min (2 ^ F.PH_CNT_FOXCNT.w - 1) (s.f F.PH_CNT_FOXCNT p + 1) ∧
      (∀ q, q ≠ p → t.ph.get q = s.ph.get q) ∧
      State.reportsOnly { s with ph := t.ph } t [F.PH_STAT_FOX.addr p, F.PH_CNT_FOXCNT.addr p]) := by
  have hrep := s.foxReported_spec p
  have hexec := exec_foxTrip hcl recent
  have hretry : ¬(!s.fB F.PH_FOX_FOXMODE p || s.f F.PH_FOX_FOXMAX p ≤ recent.toNat) = true := by simp [hmode, hfew]
  rw [if_neg hretry, State.foxNoted_of_not (by rwa [hrep.cl])] at hexec
  generalize s.foxReported p = r at hrep hexec
  have hp := r.updPh_get_self p (fun u => { u with foxLeft := s.f F.PH_FOX_FOXHOLD p })
  exact ⟨_, hexec, (congrArg PhaseSt.out hp).trans hrep.out, (congrArg PhaseSt.foxHold hp).trans hrep.hold, congrArg PhaseSt.foxLeft hp,
    hrep.shown, hrep.raised, hrep.count, fun q hq => (r.updPh_get_ne hq _).trans (hrep.others q hq), hrep.rest.ofPh _⟩

/-- A trip that is latched: it stays so while the phase is removed. -/
theorem foxTrip_latched {recent : BitVec 4} (hused : s.fB F.PH_CFG_USED p = true)
    (hlatch : s.fB F.PH_FOX_FOXMODE p = false ∨ s.f F.PH_FOX_FOXMAX p ≤ recent.toNat) :
    completes (.foxTrip p recent) s (fun t => t.FoxHeld p) := by
  have hcl : s.phCluster p = some (Fin.ofNat 16 (s.f F.PH_CFG_CLUSTER p)) := by rw [State.phCluster, if_pos hused]
  generalize Fin.ofNat 16 (s.f F.PH_CFG_CLUSTER p) = n at hcl
  have hrep := s.foxReported_spec p
  have hexec := exec_foxTrip hcl recent
  have hlatch : (!s.fB F.PH_FOX_FOXMODE p || s.f F.PH_FOX_FOXMAX p ≤ recent.toNat) = true := by simpa using hlatch
  rw [if_pos hlatch] at hexec
  generalize s.foxReported p = r at hrep hexec
  refine ⟨_, hexec, State.FoxHeld.removePhase ?_ n p 5 (phFox_silent p)⟩
  have hph := r.foxNoted_ph n p
  have hp := ((r.foxNoted n p).setB F.PH_STAT_FOXLAT p true).updPh_get_self p (fun u => { u with foxLeft := 0 })
  have hsrc : F.SUPV_SRC_SRC.addr (Src.phFox p / 32) ≠ F.PH_STAT_FOXLAT.addr p := by
    simp only [Fld.addr, F.SUPV_SRC_SRC, F.PH_STAT_FOXLAT, Src.phFox]
    omega
  exact {
    out := (congrArg PhaseSt.out hp).trans ((congrArg (fun v => (v.get p).out) hph).trans hrep.out)
    hold := (congrArg PhaseSt.foxHold hp).trans ((congrArg (fun v => (v.get p).foxHold) hph).trans hrep.hold)
    latched := State.fB_setB_self (r.foxNoted n p) (by decide) rfl p true
    shown := (State.fB_setB_apart (r.foxNoted n p) (by decide) (by decide)).trans
      ((State.fB_ofF (State.f_ofRegs (r.foxNoted_regs n p) _ _)).trans hrep.shown)
    raised := (congrArg (Nat.testBit · _) (State.f_setB_ne (r.foxNoted n p) hsrc)).trans (hrep.noted_srcBit n) }

/-- Settles O9: the sample's chain of stores, the reports of the ceiling and the delay lines, and the two ends of a Fox trip. -/
theorem phaseSenseAndFoxComplete : Obligations.PhaseSenseAndFoxComplete := by
  unfold Obligations.PhaseSenseAndFoxComplete
  refine ⟨?_, ?_, ?_, ?_, ?_⟩
  · intro s p code h0 h1
    exact phaseSample_completes h0 h1
  · intro s p hact
    exact averageCeilingExceeded_completes hact
  · intro s p recent n hcl hmode hfew hrun
    exact foxTrip_retried hcl hmode hfew hrun
  · intro s p recent hused hlatch
    obtain ⟨t, hexec, held⟩ := foxTrip_latched hused hlatch
    exact ⟨t, hexec, held.out, held.hold, held.latched, held.shown, held.raised⟩
  · intro s bad
    exact delayLineCalibration_completes bad

end Sys2Proof.Machine
end

section
/-! SUPPORT. A frame's start (R99, R100, R181): the loops that load the calibration and place the phases, and the active set that takes
effect. -/

namespace Sys2Proof.Machine

variable {s t u : State} {n : Fin 16} {p : Fin 48}

/-! ### Loops over phases -/

/-- A loop that changes the records of different phases, each by what the registers say: every member's record is changed once, and
nothing else is. -/
theorem State.eachPh_spec {α : Type} (f : α → Fin 48) (g : State → α → PhaseSt → PhaseSt) (hg : ∀ t v x, g { t with ph := v } x = g t x)
    {l : List α} (hnd : (l.map f).Nodup) (s : State) : { s.each l (fun s x => s.updPh (f x) (g s x)) with ph := s.ph } = s ∧
      (∀ x ∈ l, (s.each l (fun s x => s.updPh (f x) (g s x))).ph.get (f x) = g s x (s.ph.get (f x))) ∧
      ∀ p, p ∉ l.map f → (s.each l (fun s x => s.updPh (f x) (g s x))).ph.get p = s.ph.get p := by
  induction l generalizing s with
  | nil => exact ⟨rfl, fun x hx => absurd hx List.not_mem_nil, fun _ _ => rfl⟩
  | cons y l ih =>
    rw [List.map_cons, List.nodup_cons] at hnd
    obtain ⟨hrest, hset, hkept⟩ := ih hnd.2 (s.updPh (f y) (g s y))
    rw [State.each_cons]
    refine ⟨congrArg (fun t : State => { t with ph := s.ph }) hrest, fun x hx => ?_, fun p hp => ?_⟩
    · rcases List.mem_cons.mp hx with rfl | hx
      · exact (hkept _ hnd.1).trans (s.updPh_get_self _ _)
      · have hne : f x ≠ f y := fun e => hnd.1 (e ▸ List.mem_map_of_mem hx)
        rw [hset x hx, s.updPh_get_ne hne]
        exact congrFun (hg s _ x) _
    · rw [List.map_cons, List.mem_cons, not_or] at hp
      exact (hkept p hp.2).trans (s.updPh_get_ne hp.1 _)

/-! ### The calibration in force (R181) -/

theorem State.clPhases_nodup (s : State) (n : Fin 16) : (s.clPhases n).Nodup := (List.nodup_finRange 48).filter _

/-- What loading the calibration brings about. -/
structure State.CalLoaded (n : Fin 16) (s t : State) : Prop where
  own : t.cl.get n = { s.cl.get n with ksF := s.f F.CL_KSCALE_KSCALE n }
  others : ∀ k, k ≠ n → t.cl.get k = s.cl.get k
  loaded : ∀ p ∈ s.clPhases n, t.ph.get p = { s.ph.get p with calF := (s.f F.PH_CAL_GREL p, s.fS F.PH_CAL_ZERO p) }
  kept : ∀ p, p ∉ s.clPhases n → t.ph.get p = s.ph.get p
  rest : { t with cl := s.cl, ph := s.ph } = s

theorem State.loadCal_calLoaded (s : State) (n : Fin 16) : s.CalLoaded n (s.loadCal n) := by
  obtain ⟨hrest, hset, hkept⟩ := State.eachPh_spec id
    (fun s p u => { u with calF := (s.f F.PH_CAL_GREL p, s.fS F.PH_CAL_ZERO p) }) (by intros; rfl)
    (l := s.clPhases n) (by simpa using s.clPhases_nodup n) (s.updCl n (fun c => { c with ksF := s.f F.CL_KSCALE_KSCALE n }))
  have hcl : (s.loadCal n).cl = (s.updCl n (fun c => { c with ksF := s.f F.CL_KSCALE_KSCALE n })).cl := (congrArg State.cl hrest :)
  exact {
    own := by rw [hcl, State.updCl_get_self]
    others := fun k hk => by rw [hcl, State.updCl_get_ne s hk]
    loaded := hset
    kept := fun p hp => hkept p (by simpa using hp)
    rest := congrArg (fun t : State => { t with cl := s.cl }) hrest }

theorem State.CalLoaded.regs (h : s.CalLoaded n t) : t.regs = s.regs := (congrArg State.regs h.rest :)

theorem State.CalLoaded.pins (h : s.CalLoaded n t) : t.pins = s.pins := (congrArg State.pins h.rest :)

/-! ### Placement (R100) -/

theorem State.posPhase_order {k : Nat} (h : s.posPhase n k = some p) : s.order p = k := by simpa using List.find?_some h

/-- Each phase has one position. -/
theorem State.activePhases_nodup (s : State) (n : Fin 16) : (s.activePhases n).Nodup := by
  have hpos : (s.activePos n).Nodup := List.nodup_range.filter _
  exact hpos.filterMap fun j k p hj hk => (State.posPhase_order hj).symm.trans (State.posPhase_order hk)

/-- The scheduled on-edge of the `k`-th of `m` active phases. -/
def State.placeOf (s : State) (n : Fin 16) (m : Nat) (p : Fin 48) (k : Nat) : Nat :=
  if s.fB F.CL_FSW_INTLV n then fixedPlace (s.f F.PH_CFG_OFS p) (s.f F.CL_FSW_PERIOD n) else evenPlace k m (s.f F.CL_FSW_PERIOD n)

/-- What placing the phases brings about. -/
structure State.Placed (n : Fin 16) (s t : State) : Prop where
  placed : ∀ q ∈ (s.activePhases n).zipIdx, (t.ph.get q.1).place = s.placeOf n (s.activePhases n).length q.1 q.2
  calF : ∀ p, (t.ph.get p).calF = (s.ph.get p).calF
  rest : { t with ph := s.ph } = s

theorem State.placePhases_placed (s : State) (n : Fin 16) : s.Placed n (s.placePhases n) := by
  have hzip : (s.activePhases n).zip (List.range (s.activePhases n).length) = (s.activePhases n).zipIdx := by
    rw [List.zipIdx_eq_zip_range', List.range_eq_range']
  have hfst : (s.activePhases n).zipIdx.map Prod.fst = s.activePhases n := by simp
  have hloop : s.placePhases n = s.each (s.activePhases n).zipIdx (fun t pk =>
      t.updPh pk.1 (fun u => { u with place := t.placeOf n (s.activePhases n).length pk.1 pk.2 })) := by
    rw [← hzip]
    rfl
  obtain ⟨hrest, hset, hkept⟩ := State.eachPh_spec Prod.fst
    (fun t pk u => { u with place := t.placeOf n (s.activePhases n).length pk.1 pk.2 }) (by intros; rfl)
    (l := (s.activePhases n).zipIdx) (by rw [hfst]; exact s.activePhases_nodup n) s
  rw [← hloop] at hrest hset hkept
  refine ⟨fun q hq => congrArg PhaseSt.place (hset q hq), fun p => ?_, hrest⟩
  by_cases hp : p ∈ (s.activePhases n).zipIdx.map Prod.fst
  · obtain ⟨q, hq, rfl⟩ := List.mem_map.mp hp
    exact (congrArg PhaseSt.calF (hset q hq) :)
  · rw [hkept p hp]

/-! ### The active set -/

theorem State.setActive_eq (hdrop : (s.cl.get n).rsDrop = none) (m : Nat) :
    s.setActive n m = s.setActiveList n ((bitsOf 16 (s.avMask n)).take m) := by
  simp only [State.setActive, hdrop]

theorem State.nAv_le (s : State) (n : Fin 16) : s.nAv n ≤ 16 := by
  simpa [State.nAv, bitsOf] using List.length_filter_le (fun k => (s.avMask n).testBit k) (List.range 16)

theorem State.reg_ofRegs (h : t.regs = s.regs) (a : Nat) : t.reg a = s.reg a := by simp only [State.reg, h]

/-- Only CLn_PHSTAT is stored before the phases follow. -/
theorem State.counted_word (s : State) (n : Fin 16) (new : List Nat) {a : Nat} (ha : a ≠ F.CL_PHSTAT_M.addr n) :
    (s.counted n new).reg a = s.reg a := by
  have hregs : (s.counted n new).regs = (((s.setF F.CL_PHSTAT_ACTMASK n (maskOf new)).setF F.CL_PHSTAT_M n new.length).setF
    F.CL_PHSTAT_NAV n (s.nAv n)).regs := rfl
  rw [State.reg_ofRegs hregs, State.reg_setF_ne _ (fl := F.CL_PHSTAT_NAV) ha, State.reg_setF_ne _ ha,
    State.reg_setF_ne _ (fl := F.CL_PHSTAT_ACTMASK) ha]

/-- What making the `m` lowest available positions active brings about and leaves alone. -/
structure State.Activated (n : Fin 16) (m : Nat) (s t : State) : Prop where
  size : t.f F.CL_PHSTAT_M n = Nat.min m (s.nAv n)
  own : t.cl.get n = { s.cl.get n with mNext := Nat.min m (s.nAv n) }
  others : ∀ k, k ≠ n → t.cl.get k = s.cl.get k
  calF : ∀ p, (t.ph.get p).calF = (s.ph.get p).calF
  rest : { t with regs := s.regs, cl := s.cl, ph := s.ph } = s
  word : ∀ a, regroupWord a = false → a ≠ F.CL_PHSTAT_M.addr n → t.reg a = s.reg a

theorem State.phstat_not_regroup (n : Fin 16) : regroupWord (F.CL_PHSTAT_M.addr n) = false := by
  rw [Bool.eq_false_iff, ne_eq, regroupWord_iff]
  simp only [Fld.addr, F.CL_PHSTAT_M]
  omega

theorem State.setActive_activated (hdrop : (s.cl.get n).rsDrop = none) (m : Nat) : s.Activated n m (s.setActive n m) := by
  rw [State.setActive_eq hdrop]
  have hlen : ((bitsOf 16 (s.avMask n)).take m).length = Nat.min m (s.nAv n) := List.length_take
  have hlt : ((bitsOf 16 (s.avMask n)).take m).length < 32 := by
    have hmin : Nat.min m (s.nAv n) ≤ s.nAv n := Nat.min_le_right _ _
    have hav := s.nAv_le n
    omega
  generalize (bitsOf 16 (s.avMask n)).take m = new at hlen hlt
  have hre := s.setActiveList_regroups n new
  have hcl : (s.setActiveList n new).cl = (s.counted n new).cl := hre.hidden fun _ _ _ => rfl
  have hrest : { s.counted n new with regs := s.regs, cl := s.cl } = s := rfl
  exact {
    size := (congrArg F.CL_PHSTAT_M.get (hre.word _ (State.phstat_not_regroup n))).trans ((s.counted_m n hlt).trans hlen)
    own := by
      rw [hcl, ← hlen]
      exact State.updCl_get_self _ n _
    others := fun k hk => by
      rw [hcl]
      exact State.updCl_get_ne _ hk _
    calF := hre.calF
    rest := (congrArg (fun t : State => { t with regs := s.regs, cl := s.cl }) hre.rest).trans hrest
    word := fun a hr ha => (hre.word a hr).trans (s.counted_word n new ha) }

/-! ### The command -/

/-- The active set of a frame: m as the loop engine set it, of the phases available (R153). -/
def State.frameSet (s : State) (n : Fin 16) : State :=
  let m := Nat.min (s.cl.get n).mNext (s.nAv n)
  if m = s.f F.CL_PHSTAT_M n then s else s.setActive n m

theorem exec_frameStart_off (htick : (s.cl.get n).ticking = true) (hrun : (s.cl.get n).run = .off) :
    exec (.frameStart n) s = .next (s.loadCal n) := by
  have hown := (s.loadCal_calLoaded n).own
  have hsw : (s.loadCal n).switching n = false := by simp [State.switching, hown, hrun]
  change execFrameStart n s = _
  simp [execFrameStart, htick, hsw]

theorem exec_frameStart_on (htick : (s.cl.get n).ticking = true) (hrun : (s.cl.get n).run = .on) (hrs : (s.cl.get n).rsRun = none) :
    exec (.frameStart n) s = .next (((s.loadCal n).frameSet n).placePhases n) := by
  have hown := (s.loadCal_calLoaded n).own
  have hsw : (s.loadCal n).switching n = true := by simp [State.switching, hown, hrun]
  have hrsf : (s.loadCal n).rsFrame n = s.loadCal n := by simp [State.rsFrame, hown, hrs]
  change execFrameStart n s = _
  simp only [execFrameStart, htick, hsw, hrsf, Bool.not_true, Bool.false_eq_true, if_false, if_true]
  rfl

end Sys2Proof.Machine
end

section
/-! SUPPORT. The commands at a frame's start, and the soft start's beginning (R99, R100, R138, R139, R181). -/

namespace Sys2Proof.Machine

variable {s t u : State} {n : Fin 16} {p : Fin 48}

/-! ### A frame's start -/

theorem State.frameSet_eq (h : s.f F.CL_PHSTAT_M n = Nat.min (s.cl.get n).mNext (s.nAv n)) : s.frameSet n = s := if_pos h.symm

/-- What the active set of a frame brings about and leaves alone. -/
structure State.FrameSet (n : Fin 16) (s t : State) : Prop where
  size : t.f F.CL_PHSTAT_M n = Nat.min (s.cl.get n).mNext (s.nAv n)
  others : ∀ k, k ≠ n → t.cl.get k = s.cl.get k
  calF : ∀ p, (t.ph.get p).calF = (s.ph.get p).calF
  pins : t.pins = s.pins

theorem State.frameSet_frameSet (hdrop : (s.cl.get n).rsDrop = none) : s.FrameSet n (s.frameSet n) := by
  by_cases h : s.f F.CL_PHSTAT_M n = Nat.min (s.cl.get n).mNext (s.nAv n)
  · rw [State.frameSet_eq h]
    exact ⟨h, fun _ _ => rfl, fun _ => rfl, rfl⟩
  · have hact := State.setActive_activated hdrop (Nat.min (s.cl.get n).mNext (s.nAv n))
    have hmin : Nat.min (Nat.min (s.cl.get n).mNext (s.nAv n)) (s.nAv n) = Nat.min (s.cl.get n).mNext (s.nAv n) :=
      Nat.min_eq_left (Nat.min_le_right _ _)
    rw [show s.frameSet n = s.setActive n (Nat.min (s.cl.get n).mNext (s.nAv n)) from if_neg fun e => h e.symm]
    exact ⟨hact.size.trans hmin, hact.others, hact.calF, (congrArg State.pins hact.rest :)⟩

theorem State.CalLoaded.nAv (h : s.CalLoaded n t) : t.nAv n = s.nAv n := (congrArg (fun t : State => t.nAv n) h.rest :)

theorem State.CalLoaded.calF (h : s.CalLoaded n t) (hp : p ∈ s.clPhases n) :
    (t.ph.get p).calF = (s.f F.PH_CAL_GREL p, s.fS F.PH_CAL_ZERO p) := by rw [h.loaded p hp]

theorem frameStart_off (htick : (s.cl.get n).ticking = true) (hrun : (s.cl.get n).run = .off) :
    completes (.frameStart n) s (fun t => s.CalLoaded n t) :=
  ⟨_, exec_frameStart_off htick hrun, s.loadCal_calLoaded n⟩

theorem frameStart_on (htick : (s.cl.get n).ticking = true) (hrun : (s.cl.get n).run = .on) (hrs : (s.cl.get n).rsRun = none)
    (hdrop : (s.cl.get n).rsDrop = none) : completes (.frameStart n) s (fun t =>
      t.f F.CL_PHSTAT_M n = Nat.min (s.cl.get n).mNext (s.nAv n) ∧
      (∀ p ∈ s.clPhases n, (t.ph.get p).calF = (s.f F.PH_CAL_GREL p, s.fS F.PH_CAL_ZERO p)) ∧ t.pins = s.pins ∧
      (∀ k, k ≠ n → t.cl.get k = s.cl.get k)) := by
  have hload := s.loadCal_calLoaded n
  have hset := State.frameSet_frameSet (s := s.loadCal n) (n := n) (by rw [hload.own, hdrop])
  have hplace := ((s.loadCal n).frameSet n).placePhases_placed n
  refine ⟨_, exec_frameStart_on htick hrun hrs, ?_, fun p hp => ?_, ?_, fun k hk => ?_⟩
  · have hm : (((s.loadCal n).frameSet n).placePhases n).f F.CL_PHSTAT_M n = ((s.loadCal n).frameSet n).f F.CL_PHSTAT_M n :=
      State.f_ofRegs (congrArg State.regs hplace.rest :) _ _
    rw [hm, hset.size, hload.own, hload.nAv]
  · rw [hplace.calF, hset.calF, hload.calF hp]
  · exact (congrArg State.pins hplace.rest :).trans (hset.pins.trans hload.pins)
  · have hcl : (((s.loadCal n).frameSet n).placePhases n).cl = ((s.loadCal n).frameSet n).cl := (congrArg State.cl hplace.rest :)
    rw [hcl, hset.others k hk, hload.others k hk]

theorem frameStart_even (htick : (s.cl.get n).ticking = true) (hrun : (s.cl.get n).run = .on) (hrs : (s.cl.get n).rsRun = none)
    (hm : s.f F.CL_PHSTAT_M n = Nat.min (s.cl.get n).mNext (s.nAv n)) (heven : s.fB F.CL_FSW_INTLV n = false) :
    completes (.frameStart n) s (fun t =>
      (∀ q ∈ (s.activePhases n).zipIdx, (t.ph.get q.1).place = evenPlace q.2 (s.activePhases n).length (s.f F.CL_FSW_PERIOD n)) ∧
      { t with cl := s.cl, ph := s.ph } = s) := by
  have hload := s.loadCal_calLoaded n
  have hf (fl : Fld) (i : Nat) : (s.loadCal n).f fl i = s.f fl i := State.f_ofRegs hload.regs fl i
  have hact : (s.loadCal n).activePhases n = s.activePhases n := (congrArg (fun t : State => t.activePhases n) hload.rest :)
  have hsame : (s.loadCal n).frameSet n = s.loadCal n := State.frameSet_eq (by rw [hf, hm, hload.own, hload.nAv])
  have hplace := (s.loadCal n).placePhases_placed n
  refine ⟨_, exec_frameStart_on htick hrun hrs, fun q hq => ?_, ?_⟩
  · rw [hsame, hplace.placed q (by rwa [hact]), State.placeOf, State.fB_ofF (hf _ _), heven, hact, if_neg Bool.false_ne_true, hf]
  · rw [hsame]
    exact (congrArg (fun t : State => { t with cl := s.cl, ph := s.ph }) hplace.rest).trans hload.rest

/-! ### The beginning of a soft start -/

/-- n_av reads the phases' configuration, the removals and the sheds alone. -/
theorem State.nAv_congr (h : ∀ a, a < 0x1000 ∨ a % 0x100 = 0x27 → t.reg a = s.reg a) : t.nAv n = s.nAv n := by
  have hph (fl : Fld) (hf : fl.ofPhase) (p : Fin 48) : t.f fl p = s.f fl p := by
    obtain ⟨hs, hl, hu⟩ := hf
    exact congrArg fl.get (h _ (Or.inl (by rw [Fld.addr, hs]; omega)))
  have hcl (p : Fin 48) : t.phCluster p = s.phCluster p :=
    State.phCluster_congr (State.fB_ofF (hph _ (by decide) p)) (hph _ (by decide) p)
  have hrem : t.f F.CL_PHREM_REMMASK n = s.f F.CL_PHREM_REMMASK n :=
    congrArg F.CL_PHREM_REMMASK.get (h _ (Or.inr (by simp only [Fld.addr, F.CL_PHREM_REMMASK]; omega)))
  have hshed (p : Fin 48) : t.phShed p = s.phShed p := by
    simp only [State.phShed, h (0x205 + p.val / 32) (Or.inl (by omega))]
  have horder : t.order = s.order := funext fun p => hph F.PH_CFG_ORDER (by decide) p
  simp only [State.nAv, State.avMask, State.clPhases, hcl, State.fBit, hrem, hshed, horder]

/-- The set-point at which a soft start begins: 0, or the output where it is pre-biased (R139). -/
def State.startCode (s : State) (n : Fin 16) (out : BitVec 16) : Nat :=
  if s.fB F.CL_SS_PREBIAS n then Nat.min (s.f F.CL_VSET_S n) out.toNat else 0

/-- The ramp of a soft start begun (R138). -/
def State.rampBegun (s : State) (n : Fin 16) (out : BitVec 16) : State :=
  let tgt := s.f F.CL_VSET_S n
  let v0 := s.startCode n out
  let uper := s.f F.CL_CFG_UPER n
  s.updCl n (fun c => { c with
    run := .softStart, acc := 0, ePrev := 0, lw := 0, lwAdder := 0, lwWin := 0, lwRamp := 0, lwCfg := none, lwNew := false
    llDrop := 0, capDrop := 0, vramp := v0 * 65536, step := softStep (tgt - v0) uper (s.f F.CL_SS_SSTIME n)
    ssLeft := Nat.max 1 (ceilDiv (40000 * s.f F.CL_SS_SSTIME n) uper), ssTarget := tgt, sForce := tgt
    outCount := 0, iSum := 0, dropTime := 0, holdLeft := 0, boundRun := 0 })

/-- CLn_VSTAT and HOLDALL as a soft start from code `v0` sets them. -/
def State.startShown (s : State) (n : Fin 16) (v0 : Nat) : State :=
  let s := ((s.setB F.CL_VSTAT_SSRUN n true).setB F.CL_VSTAT_SSDONE n false).setB F.CL_VSTAT_CAPACT n false
  let s := (s.setB F.CL_VSTAT_TRANS n false).setB F.CL_PHSTAT_HOLDALL n false
  s.setF F.CL_VSTAT_VREFEFF n (clampI 0 65535 ((v0 : Int) + s.fS F.CL_TRIM_TRIM n)).toNat

/-- The rotation pointer at the first active position. -/
def State.pointFirst (s : State) (n : Fin 16) : State := s.setF F.CL_ROT_PTR n ((s.activePos n).headD 0)

theorem exec_softStartBegin (hrun : (s.cl.get n).run = .delay) {out : BitVec 16}
    (ht : (s.rampBegun n out).startShown n (s.startCode n out) = t) :
    exec (.softStartBegin n out) s = .next ((t.setActive n (t.nAv n)).pointFirst n) := by
  have hdelay : ¬(s.cl.get n).run ≠ .delay := fun h => h hrun
  change execSoftStartBegin n out s = _
  rw [execSoftStartBegin, if_neg hdelay, ← ht]
  rfl

theorem State.startShown_onlyRegs (s : State) (n : Fin 16) (v0 : Nat) :
    s.onlyRegs (s.startShown n v0) [F.CL_VSTAT_SSRUN.addr n, F.CL_PHSTAT_M.addr n] := by
  have hv : F.CL_VSTAT_SSRUN.addr n ∈ [F.CL_VSTAT_SSRUN.addr n, F.CL_PHSTAT_M.addr n] := List.mem_cons_self ..
  have hm : F.CL_PHSTAT_M.addr n ∈ [F.CL_VSTAT_SSRUN.addr n, F.CL_PHSTAT_M.addr n] := List.mem_cons_of_mem _ (List.mem_singleton_self _)
  have h₁ : s.onlyRegs (((s.setB F.CL_VSTAT_SSRUN n true).setB F.CL_VSTAT_SSDONE n false).setB F.CL_VSTAT_CAPACT n false)
      [F.CL_VSTAT_SSRUN.addr n, F.CL_PHSTAT_M.addr n] :=
    (((State.onlyRegs.refl s _).setF (fl := F.CL_VSTAT_SSRUN) hv _).setF (fl := F.CL_VSTAT_SSDONE) hv _).setF (fl := F.CL_VSTAT_CAPACT) hv _
  exact ((h₁.setF (fl := F.CL_VSTAT_TRANS) hv _).setF (fl := F.CL_PHSTAT_HOLDALL) hm _).setF (fl := F.CL_VSTAT_VREFEFF) hv _

theorem State.startShown_flags (s : State) (n : Fin 16) (v0 : Nat) :
    (s.startShown n v0).fB F.CL_VSTAT_SSRUN n = true ∧ (s.startShown n v0).fB F.CL_VSTAT_SSDONE n = false := by
  have hsplit (fl : Fld) (hfit : fl.fits) (hap : F.CL_VSTAT_CAPACT.apart fl ∧ F.CL_VSTAT_TRANS.apart fl ∧ F.CL_VSTAT_VREFEFF.apart fl)
      (hne : fl.base = 0x1003 ∧ fl.stride = 0x100) :
      (s.startShown n v0).fB fl n = ((s.setB F.CL_VSTAT_SSRUN n true).setB F.CL_VSTAT_SSDONE n false).fB fl n := by
    have hhold : fl.addr n ≠ F.CL_PHSTAT_HOLDALL.addr n := by
      rw [Fld.addr, hne.1, hne.2]
      simp only [Fld.addr, F.CL_PHSTAT_HOLDALL]
      omega
    exact (State.fB_setF_apart _ hfit hap.2.2).trans ((State.fB_setB_ne _ hhold).trans ((State.fB_setB_apart _ hfit hap.2.1).trans
      (State.fB_setB_apart _ hfit hap.1)))
  constructor
  · rw [hsplit _ (by decide) (by decide) (by decide), State.fB_setB_apart _ (by decide) (by decide), State.fB_setB_self s (by decide) rfl]
  · rw [hsplit _ (by decide) (by decide) (by decide), State.fB_setB_self _ (by decide) rfl]

/-- The set-point, the sums and the active set of a soft start begun. -/
theorem State.rampBegun_own (s : State) (n : Fin 16) (out : BitVec 16) :
    let c := (s.rampBegun n out).cl.get n
    c.run = .softStart ∧ c.acc = 0 ∧ c.lw = 0 ∧ c.vramp = 65536 * s.startCode n out ∧ c.rsDrop = (s.cl.get n).rsDrop := by
  intro c
  have hc : c = _ := s.updCl_get_self n _
  rw [hc]
  exact ⟨rfl, rfl, rfl, Nat.mul_comm _ _, rfl⟩

theorem State.startShown_nAv (s : State) (n : Fin 16) (v0 : Nat) : (s.startShown n v0).nAv n = s.nAv n := by
  refine State.nAv_congr fun a ha => (s.startShown_onlyRegs n v0).2 a ?_
  simp only [Fld.addr, F.CL_VSTAT_SSRUN, F.CL_PHSTAT_M, List.mem_cons, List.not_mem_nil, or_false]
  omega

/-- CLn_VSTAT is no word of the regrouping. -/
theorem State.Activated.vstat {m : Nat} (h : State.Activated n m s t) {fl : Fld} (hf : fl.base = 0x1003 ∧ fl.stride = 0x100) :
    t.f fl n = s.f fl n := by
  refine congrArg fl.get (h.word _ ?_ ?_)
  · rw [Bool.eq_false_iff, ne_eq, regroupWord_iff, Fld.addr, hf.1, hf.2]
    omega
  · rw [Fld.addr, hf.1, hf.2]
    simp only [Fld.addr, F.CL_PHSTAT_M]
    omega

/-- The rotation pointer is no field of CLn_VSTAT or CLn_PHSTAT. -/
theorem State.pointFirst_f (s : State) (n : Fin 16) {fl : Fld} (hf : (fl.base = 0x1003 ∨ fl.base = 0x1026) ∧ fl.stride = 0x100) :
    (s.pointFirst n).f fl n = s.f fl n := by
  refine State.f_setF_ne s ?_
  rw [Fld.addr, hf.2]
  simp only [Fld.addr, F.CL_ROT_PTR]
  omega

theorem softStartBegin_completes (hrun : (s.cl.get n).run = .delay) (hdrop : (s.cl.get n).rsDrop = none) (out : BitVec 16) :
    completes (.softStartBegin n out) s (fun t => (t.cl.get n).run = .softStart ∧ (t.cl.get n).acc = 0 ∧
      t.fB F.CL_VSTAT_SSRUN n = true ∧ t.fB F.CL_VSTAT_SSDONE n = false ∧ (t.cl.get n).vramp = 65536 * s.startCode n out ∧
      t.f F.CL_PHSTAT_M n = s.nAv n ∧ (t.cl.get n).lw = 0 ∧ (∀ k, k ≠ n → t.cl.get k = s.cl.get k) ∧
      t.pins = s.pins ∧ { t with regs := s.regs, cl := s.cl, ph := s.ph } = s) := by
  obtain ⟨hss, hacc, hlw, hramp, hkeep⟩ := s.rampBegun_own n out
  have hnav : (s.rampBegun n out).nAv n = s.nAv n := rfl
  have hbegun : { s.rampBegun n out with cl := s.cl } = s := rfl
  have hother (k : Fin 16) (hk : k ≠ n) : (s.rampBegun n out).cl.get k = s.cl.get k := s.updCl_get_ne hk _
  have hexec := exec_softStartBegin hrun (out := out) rfl
  generalize s.rampBegun n out = r at *
  obtain ⟨hflagRun, hflagDone⟩ := r.startShown_flags n (s.startCode n out)
  have hshow := (r.startShown_onlyRegs n (s.startCode n out)).1
  have hnavShown := r.startShown_nAv n (s.startCode n out)
  generalize r.startShown n (s.startCode n out) = w at *
  have hcl : w.cl = r.cl := (congrArg State.cl hshow :)
  have hact := State.setActive_activated (s := w) (n := n) (by rw [hcl, hkeep, hdrop]) (w.nAv n)
  generalize w.setActive n (w.nAv n) = v at *
  have hown : v.cl.get n = { r.cl.get n with mNext := Nat.min (w.nAv n) (w.nAv n) } := by rw [hact.own, hcl]
  have hrest : { v.pointFirst n with regs := s.regs, cl := s.cl, ph := s.ph } = s :=
    ((congrArg (fun t : State => { t with regs := s.regs, cl := s.cl, ph := s.ph }) hact.rest).trans
      (congrArg (fun t : State => { t with cl := s.cl, ph := s.ph, regs := s.regs }) hshow)).trans
      (congrArg (fun t : State => { t with regs := s.regs, ph := s.ph }) hbegun)
  have hflag {fl : Fld} (hf : fl.base = 0x1003 ∧ fl.stride = 0x100) : (v.pointFirst n).fB fl n = w.fB fl n :=
    State.fB_ofF ((v.pointFirst_f n ⟨Or.inl hf.1, hf.2⟩).trans (hact.vstat hf))
  refine ⟨_, hexec, ?_, ?_, (hflag (by decide)).trans hflagRun, (hflag (by decide)).trans hflagDone, ?_, ?_, ?_, fun k hk => ?_,
    (congrArg State.pins hrest :), hrest⟩
  · exact (congrArg ClusterSt.run hown).trans hss
  · exact (congrArg ClusterSt.acc hown).trans hacc
  · exact (congrArg ClusterSt.vramp hown).trans hramp
  · rw [v.pointFirst_f n (by decide), hact.size, hnavShown, hnav]
    exact Nat.min_self _
  · exact (congrArg ClusterSt.lw hown).trans hlw
  · exact (hact.others k hk).trans ((congrArg (·.get k) hcl).trans (hother k hk))

end Sys2Proof.Machine
end

section
/-! SUPPORT. The pre-start check (R118 to R120): its result, the clusters refused, and the gates that an HV cluster's failure opens. -/

namespace Sys2Proof.Machine

variable {s t u : State} {n : Fin 16} {p : Fin 48}

/-! ### A check passed -/

theorem exec_prestartCheckPass (hrun : (s.cl.get n).run = .checking) (hgood : s.srcGood n = true) (vmax : BitVec 16) :
    exec (.prestartCheckPass n vmax) s = .next (((s.setF F.CL_PSCSTAT_RESULT n 1).setF F.CL_PSCSTAT_VMAX n vmax.toNat).updCl n
      (fun c => { c with run := .delay })) := by
  change execPrestartCheckPass n vmax s = _
  simp only [execPrestartCheckPass, hrun, hgood, decide_true, Bool.and_self, if_true]

theorem prestartCheckPass_completes (hrun : (s.cl.get n).run = .checking) (hgood : s.srcGood n = true) (vmax : BitVec 16) :
    completes (.prestartCheckPass n vmax) s (fun t => (t.cl.get n).run = .delay ∧ t.f F.CL_PSCSTAT_RESULT n = 1 ∧
      t.f F.CL_PSCSTAT_VMAX n = vmax.toNat ∧ (∀ k, k ≠ n → t.cl.get k = s.cl.get k) ∧
      State.onlyRegs { s with cl := t.cl } t [F.CL_PSCSTAT_RESULT.addr n]) := by
  have hresult : ((s.setF F.CL_PSCSTAT_RESULT n 1).setF F.CL_PSCSTAT_VMAX n vmax.toNat).f F.CL_PSCSTAT_RESULT n = 1 := by
    rw [State.f_setF_apart _ (by decide) (by decide), State.f_setF_self s (by decide)]
    rfl
  have hvmax : ((s.setF F.CL_PSCSTAT_RESULT n 1).setF F.CL_PSCSTAT_VMAX n vmax.toNat).f F.CL_PSCSTAT_VMAX n = vmax.toNat := by
    rw [State.f_setF_self _ (by decide)]
    exact Nat.mod_eq_of_lt vmax.isLt
  have honly := (s.onlyRegs_setF F.CL_PSCSTAT_RESULT n 1).setF (fl := F.CL_PSCSTAT_VMAX) (List.mem_singleton_self _) vmax.toNat
  have hexec := exec_prestartCheckPass hrun hgood vmax
  generalize (s.setF F.CL_PSCSTAT_RESULT n 1).setF F.CL_PSCSTAT_VMAX n vmax.toNat = u at *
  have hcl : u.cl = s.cl := (congrArg State.cl honly.1 :)
  have hown := u.updCl_get_self n (fun c => { c with run := .delay })
  exact ⟨_, hexec, congrArg ClusterSt.run hown, hresult, hvmax, fun k hk => (u.updCl_get_ne hk _).trans (congrArg (·.get k) hcl),
    congrArg (fun x : State => { x with cl := (u.updCl n (fun c => { c with run := .delay })).cl }) honly.1, honly.2⟩

/-! ### A cluster turned off -/

/-- The PEN of a cluster that was on is low. -/
theorem State.clOff_pen (h : (s.cl.get n).run ≠ .off) : (s.clOff n).pins.pen.getLsbD n = false := by
  have hpwrgd (t : State) : t.evalPwrgd.pins.pen = t.pins.pen := by
    unfold State.evalPwrgd
    split <;> rfl
  have hbit (x : BitVec 16) : (x &&& ~~~(BitVec.ofNat 16 (2 ^ n.val))).getLsbD n = false := by
    simp only [BitVec.getLsbD_and, BitVec.getLsbD_not, BitVec.getLsbD_ofNat, Nat.testBit_two_pow_self, n.isLt, decide_true, Bool.and_self,
      Bool.not_true, Bool.and_false]
  rw [State.clOff, if_neg h]
  extract_lets s₁ s₂ s₃ s₄ s₅ s₆ s₇ s₈ pins s₉
  rw [hpwrgd]
  exact hbit s₈.pins.pen

/-! ### The clusters downstream -/

/-- The clusters downstream follow from the regions' configuration. -/
theorem State.downClusters_congr (h : ∀ a, 0x2100 ≤ a → a < 0x2200 → t.reg a = s.reg a) : t.downClusters n = s.downClusters n := by
  have hf (fl : Fld) (hfl : fl.base = 0x2100 ∧ fl.stride = 0x40) (x : Fin 4) : t.f fl x = s.f fl x := by
    obtain ⟨hb, hs⟩ := hfl
    exact congrArg fl.get (h _ (by rw [Fld.addr, hb]; omega) (by rw [Fld.addr, hb, hs]; omega))
  have hmask (x : Fin 4) : t.f F.RG_CFG_CLMASK x = s.f F.RG_CFG_CLMASK x := hf _ (by decide) x
  have hup (x : Fin 4) : t.f F.RG_CFG_UPSRC x = s.f F.RG_CFG_UPSRC x := hf _ (by decide) x
  simp only [State.downClusters, State.downOf, State.region, State.downClosure, State.fedFrom, State.fBit, hmask, hup]

/-! ### The side of the feeds -/

/-- The words of the feeds, the input, the packs, HOLD, and the counts of the event log. -/
def feedWord (a : Nat) : Bool := a == 0x1 || (0x2400 ≤ a && a < 0x2700) || (0x2E01 ≤ a && a < 0x2E03)

theorem feedWord_iff (a : Nat) : feedWord a = true ↔ a = 0x1 ∨ 0x2400 ≤ a ∧ a < 0x2700 ∨ 0x2E01 ≤ a ∧ a < 0x2E03 := by
  simp [feedWord, or_assoc]

/-- What an operation on the side of the feeds leaves alone: the clusters, PEN, and the fields of every other word. -/
structure State.FeedSide (s t : State) : Prop where
  cl : t.cl = s.cl
  pen : t.pins.pen = s.pins.pen
  field : ∀ fl i, fl.fits → feedWord (fl.addr i) = false → t.f fl i = s.f fl i

theorem State.FeedSide.refl (s : State) : s.FeedSide s := ⟨rfl, rfl, fun _ _ _ _ => rfl⟩

/-- A field of another word. -/
theorem addr_ne_of_feedWord {fl : Fld} {i a : Nat} (hf : feedWord (fl.addr i) = false) (ha : feedWord a = true) : fl.addr i ≠ a :=
  fun e => Bool.false_ne_true (hf.symm.trans ((congrArg feedWord e).trans ha))

theorem State.FeedSide.setReg (h : s.FeedSide t) {a : Nat} (w : Word) (ha : feedWord a = true := by decide) : s.FeedSide (t.setReg a w) :=
  ⟨h.cl, h.pen, fun fl i hfit hf => (congrArg fl.get (State.reg_setReg_ne t (addr_ne_of_feedWord hf ha) w)).trans (h.field fl i hfit hf)⟩

theorem State.FeedSide.setPower (h : s.FeedSide t) (w : PowerSt) : s.FeedSide { t with power := w } := ⟨h.cl, h.pen, h.field⟩

theorem State.FeedSide.setFeed (h : s.FeedSide t) (f : Fin 3) {fl : Fld} (v : Nat) (hf : fl.base = 0x2403 ∧ fl.stride = 0x20 := by decide) :
    s.FeedSide (t.setF fl f v) := by
  refine h.setReg _ ((feedWord_iff _).mpr ?_)
  rw [Fld.addr, hf.1, hf.2]
  omega

theorem State.FeedSide.evalBen (h : s.FeedSide t) : s.FeedSide t.evalBen := by
  have hfeeds := t.evalBen_sameFeeds
  have hpen : t.evalBen.pins.pen = t.pins.pen := (congrArg Pins.pen hfeeds.pins :)
  refine ⟨hfeeds.cl.trans h.cl, hpen.trans h.pen, fun fl i hfit hf => Eq.trans ?_ (h.field fl i hfit hf)⟩
  have hspare (g : Fld) (j : Nat) (hg : feedWord (g.addr j) = true) : g.spares j [(fl, i)] := fun p hp => by
    rw [List.mem_singleton.mp hp]
    exact ⟨hfit, Or.inl (addr_ne_of_feedWord hf hg)⟩
  exact t.evalBen_sameFields (hspare F.BAT_STAT_RESTING 0 (by decide)) (hspare F.BAT_CTRL_REST 0 (by decide))
    (hspare F.FEED_STAT_QUAL 2 (by decide)) (fl, i) (List.mem_singleton_self _)

theorem State.FeedSide.gateOff (h : s.FeedSide t) (f : Fin 3) : s.FeedSide (t.gateOff f) := by
  have hopened : s.FeedSide (t.gateOpened f) := by
    have hgate : s.FeedSide (t.setGate f .off) := ⟨h.cl, h.pen, h.field⟩
    exact State.when_ind (P := s.FeedSide) ((hgate.setFeed f (fl := F.FEED_STAT_CONDUCT) _).setFeed f (fl := F.FEED_STAT_INLIM) _) _
      fun h => h.setReg (a := F.INP_STAT_SEL.addr 0) _
  have hheld : s.FeedSide (t.gateOpened f).evalHold := hopened.setReg (a := F.DEV_STATE_HOLD.addr 0) _
  rw [State.gateOff_eq]
  refine State.FeedSide.evalBen ?_
  unfold State.evalVbusq
  split
  · exact hheld.setReg (a := F.INP_STAT_VBUSQ.addr 0) _
  · exact hheld

theorem State.FeedSide.allGatesOff (h : s.FeedSide t) : s.FeedSide t.allGatesOff := by
  have hbegun : s.FeedSide { t with inp := { t.inp with xfer := .idle, old := none, queuedTrig := none } } := ⟨h.cl, h.pen, h.field⟩
  exact State.each_keeps (P := s.FeedSide) _ (fun _ f h => h.gateOff f) feeds3 (hbegun.setReg (a := F.INP_STAT_XFER.addr 0) _)

theorem State.FeedSide.record (h : s.FeedSide t) (type : Nat) (payload : List Word) : s.FeedSide (t.record type payload) := by
  unfold State.record
  split
  · exact h.setReg (a := 0x2E01) _
  · dsimp only
    refine State.FeedSide.setReg (a := 0x2E02) ?_ _
    exact ⟨h.cl, h.pen, h.field⟩

theorem State.FeedSide.recordSrc (h : s.FeedSide t) (src sub : Nat) (items : List Word) : s.FeedSide (t.recordSrc src sub items) :=
  h.record _ _

/-! ### A check failed -/

/-- CLn_PSCSTAT as a failed check shows it. -/
def State.checkShown (s : State) (n : Fin 16) (phase : Option Nat) (tsenf : Bool) (vmax : BitVec 16) : State :=
  (((s.setF F.CL_PSCSTAT_RESULT n 2).setF F.CL_PSCSTAT_PHASE n (phase.getD 0x3F)).setB F.CL_PSCSTAT_TSENF n tsenf).setF
    F.CL_PSCSTAT_VMAX n vmax.toNat

/-- Clusters refused until BOOT. -/
def State.startsRefused (s : State) (l : List (Fin 16)) : State := s.each l (fun s k => s.setB F.CL_PSCSTAT_REFUSED k true)

/-- The phase that a failed check names. -/
def State.markShort (s : State) (phase : Option Nat) : State :=
  match phase with | some p => s.setB F.PH_STAT_HSSHORT (p % 48) true | none => s

/-- A failed check, before its record and the feeds. -/
def State.checkFailed (s : State) (n : Fin 16) (phase : Option Nat) (vmax : BitVec 16) : State :=
  let t := (s.clOff n).checkShown n phase (s.fB F.CL_TSENV_FLT n) vmax
  ((t.startsRefused (n :: t.downClusters n)).markShort phase).raise (Src.clHsshort n)

/-- What follows a failed check is its record and, for an HV cluster fed by VBUS, the gates. -/
theorem exec_prestartCheckFail (hrun : (s.cl.get n).run = .checking) (mean : Option (Fin 48)) (vmax : BitVec 16) (vbus : BitVec 20)
    (us : BitVec 32) : ∃ t, exec (.prestartCheckFail n mean vmax vbus us) s = .next t ∧
      State.FeedSide (s.checkFailed n ((mean.map Fin.val).or (s.cl.get n).pscFox) vmax) t := by
  have hchecking : ¬(s.cl.get n).run ≠ .checking := fun h => h hrun
  change ∃ t, execPrestartCheckFail n mean vmax vbus us s = .next t ∧ _
  rw [execPrestartCheckFail, if_neg hchecking]
  extract_lets phase tsenf feed s₁ s₂ s₃ s₄ s₅ s₆
  have hrecord : State.FeedSide s₅ s₆ := (State.FeedSide.refl s₅).recordSrc _ _ _
  exact ⟨_, rfl, State.when_ind (P := State.FeedSide s₅) hrecord _ fun h => h.allGatesOff.setPower _⟩

/-! ### What a failed check shows -/

theorem State.checkShown_onlyRegs (s : State) (n : Fin 16) (phase : Option Nat) (tsenf : Bool) (vmax : BitVec 16) :
    s.onlyRegs (s.checkShown n phase tsenf vmax) [F.CL_PSCSTAT_RESULT.addr n] := by
  have hm : F.CL_PSCSTAT_RESULT.addr n ∈ [F.CL_PSCSTAT_RESULT.addr n] := List.mem_singleton_self _
  exact (((s.onlyRegs_setF F.CL_PSCSTAT_RESULT n 2).setF (fl := F.CL_PSCSTAT_PHASE) hm _).setF (fl := F.CL_PSCSTAT_TSENF) hm _).setF
    (fl := F.CL_PSCSTAT_VMAX) hm _

theorem State.checkShown_fields (s : State) (n : Fin 16) (phase : Option Nat) (tsenf : Bool) (vmax : BitVec 16) :
    (s.checkShown n phase tsenf vmax).f F.CL_PSCSTAT_RESULT n = 2 ∧ (s.checkShown n phase tsenf vmax).f F.CL_PSCSTAT_VMAX n = vmax.toNat ∧
      (s.checkShown n phase tsenf vmax).f F.CL_PSCSTAT_PHASE n = phase.getD 0x3F % 64 := by
  refine ⟨?_, ?_, ?_⟩
  · rw [State.checkShown, State.f_setF_apart _ (by decide) (by decide), State.f_setB_apart _ (by decide) (by decide),
      State.f_setF_apart _ (by decide) (by decide), State.f_setF_self s (by decide)]
    rfl
  · rw [State.checkShown, State.f_setF_self _ (by decide)]
    exact Nat.mod_eq_of_lt vmax.isLt
  · rw [State.checkShown, State.f_setF_apart _ (by decide) (by decide), State.f_setB_apart _ (by decide) (by decide),
      State.f_setF_self _ (by decide)]
    rfl

/-- Every cluster of the list is refused. -/
theorem State.startsRefused_refused (s : State) (l : List (Fin 16)) : ∀ k ∈ l, (s.startsRefused l).fB F.CL_PSCSTAT_REFUSED k = true := by
  have hset (t : State) (k : Fin 16) : (t.setB F.CL_PSCSTAT_REFUSED k true).fB F.CL_PSCSTAT_REFUSED k = true :=
    State.fB_setB_self t (by decide) rfl k true
  have hkeep (t : State) (j k : Fin 16) (hk : t.fB F.CL_PSCSTAT_REFUSED k = true) :
      (t.setB F.CL_PSCSTAT_REFUSED j true).fB F.CL_PSCSTAT_REFUSED k = true := by
    by_cases e : k = j
    · rw [e]
      exact hset t j
    · have hval : k.val ≠ j.val := fun h => e (Fin.ext h)
      have hne : F.CL_PSCSTAT_REFUSED.addr k ≠ F.CL_PSCSTAT_REFUSED.addr j := by
        simp only [Fld.addr, F.CL_PSCSTAT_REFUSED]
        omega
      exact (State.fB_setB_ne t hne).trans hk
  unfold State.startsRefused
  exact State.each_establishes (Q := fun (k : Fin 16) (t : State) => t.fB F.CL_PSCSTAT_REFUSED k = true) hset hkeep l s

theorem State.startsRefused_f (s : State) (l : List (Fin 16)) {fl : Fld} (hfit : fl.fits) (hap : F.CL_PSCSTAT_REFUSED.apart fl) (i : Nat) :
    (s.startsRefused l).f fl i = s.f fl i :=
  State.each_frame (π := fun t => t.f fl i) (fun t _ => State.f_setB_apart t hfit hap) l s

theorem State.startsRefused_hidden (s : State) (l : List (Fin 16)) : { s.startsRefused l with regs := s.regs } = s :=
  State.each_keeps (P := fun t => { t with regs := s.regs } = s) (g := fun s (k : Fin 16) => s.setB F.CL_PSCSTAT_REFUSED k true) s
    (fun _ _ h => h) l rfl

/-- The mark of a phase touches no cluster's word, and nothing beside registers. -/
theorem State.markShort_f (s : State) (phase : Option Nat) {fl : Fld} (hf : fl.ofCluster) (n : Fin 16) :
    (s.markShort phase).f fl n = s.f fl n := by
  obtain ⟨hs, hl, _⟩ := hf
  cases phase with
  | none => rfl
  | some p =>
    refine State.f_setB_ne s ?_
    simp only [Fld.addr, F.PH_STAT_HSSHORT]
    omega

theorem State.markShort_hidden (s : State) (phase : Option Nat) : { s.markShort phase with regs := s.regs } = s := by
  cases phase <;> rfl

theorem State.markShort_flag (s : State) (p : Fin 48) : (s.markShort (some p)).fB F.PH_STAT_HSSHORT p = true := by
  have hp : p.val % 48 = p.val := Nat.mod_eq_of_lt p.isLt
  rw [State.markShort, hp]
  exact State.fB_setB_self s (by decide) rfl p true

/-! ### A failed check -/

theorem clHsshort_silent (n : Fin 16) : silentSource (Src.clHsshort n) := Or.inr (Or.inl (by unfold Src.clHsshort; omega))

/-- No word of a cluster is one that a report changes. -/
theorem Fld.ofCluster.reportWord {fl : Fld} (h : fl.ofCluster) (n : Fin 16) : reportWord (fl.addr n) = false := by
  obtain ⟨hs, hl, hu⟩ := h
  simp only [Machine.reportWord, Fld.addr, hs, Bool.or_eq_false_iff, Bool.and_eq_false_iff, decide_eq_false_iff_not]
  omega

/-- The clusters downstream are not moved by the cluster's turning off or by its result. -/
theorem State.downClusters_checkShown (s : State) (n : Fin 16) (phase : Option Nat) (tsenf : Bool) (vmax : BitVec 16) :
    ((s.clOff n).checkShown n phase tsenf vmax).downClusters n = s.downClusters n := by
  refine State.downClusters_congr fun a hl hu => ?_
  refine (((s.clOff n).checkShown_onlyRegs n phase tsenf vmax).2 a ?_).trans (((State.Local.refl s).clOff n).word a ?_)
  · simp only [Fld.addr, F.CL_PSCSTAT_RESULT, List.mem_singleton]
    omega
  · rw [Bool.eq_false_iff, ne_eq, clusterWord_iff]
    omega

/-- What a failed check has brought about: a cluster off, its result, the refusals, the raise and the phase's flag. -/
structure State.Refused (n : Fin 16) (down : List (Fin 16)) (phase : Option Nat) (vmax : BitVec 16) (t : State) : Prop where
  run : (t.cl.get n).run = .off
  pen : t.pins.pen.getLsbD n = false
  result : t.f F.CL_PSCSTAT_RESULT n = 2
  vmaxShown : t.f F.CL_PSCSTAT_VMAX n = vmax.toNat
  phaseShown : t.f F.CL_PSCSTAT_PHASE n = phase.getD 0x3F % 64
  refused : ∀ k ∈ n :: down, t.fB F.CL_PSCSTAT_REFUSED k = true
  raised : t.srcBit (Src.clHsshort n) = true
  short : ∀ p : Fin 48, phase = some p.val → t.fB F.PH_STAT_HSSHORT p = true

theorem State.checkFailed_refused (hrun : (s.cl.get n).run = .checking) (phase : Option Nat) (vmax : BitVec 16) :
    State.Refused n (s.downClusters n) phase vmax (s.checkFailed n phase vmax) := by
  have hoff := s.clOff_run n
  have hpen := State.clOff_pen (s := s) (n := n) (by rw [hrun]; decide)
  have hdown := s.downClusters_checkShown n phase (s.fB F.CL_TSENV_FLT n) vmax
  have hshown := ((s.clOff n).checkShown_onlyRegs n phase (s.fB F.CL_TSENV_FLT n) vmax).1
  obtain ⟨hresult, hvmax, hphase⟩ := (s.clOff n).checkShown_fields n phase (s.fB F.CL_TSENV_FLT n) vmax
  unfold State.checkFailed
  dsimp only
  rw [hdown]
  generalize s.clOff n = s₁ at *
  generalize s₁.checkShown n phase (s.fB F.CL_TSENV_FLT n) vmax = s₂ at *
  have hrefused := s₂.startsRefused_refused (n :: s.downClusters n)
  have hkept {fl : Fld} (hfit : fl.fits) (hap : F.CL_PSCSTAT_REFUSED.apart fl) := s₂.startsRefused_f (n :: s.downClusters n) hfit hap n
  have hhid := s₂.startsRefused_hidden (n :: s.downClusters n)
  generalize s₂.startsRefused (n :: s.downClusters n) = s₃ at *
  obtain ⟨hbit, hreport⟩ := (s₃.markShort phase).raise_silent (clHsshort_silent n)
  have hcluster {fl : Fld} (hf : fl.ofCluster) (k : Fin 16) : ((s₃.markShort phase).raise (Src.clHsshort n)).f fl k = s₃.f fl k :=
    (hreport.f (hf.reportWord k) List.not_mem_nil).trans (s₃.markShort_f phase hf k)
  have hmark := s₃.markShort_hidden phase
  have hcl : ((s₃.markShort phase).raise (Src.clHsshort n)).cl = s₁.cl :=
    (hreport.hidden fun _ _ _ => rfl).trans ((congrArg State.cl hmark :).trans ((congrArg State.cl hhid :).trans (congrArg State.cl hshown :)))
  have hpins : ((s₃.markShort phase).raise (Src.clHsshort n)).pins = s₁.pins :=
    (hreport.hidden fun _ _ _ => rfl).trans
      ((congrArg State.pins hmark :).trans ((congrArg State.pins hhid :).trans (congrArg State.pins hshown :)))
  exact {
    run := by rw [hcl, hoff]
    pen := by rw [hpins, hpen]
    result := (hcluster (by decide) n).trans ((hkept (by decide) (by decide)).trans hresult)
    vmaxShown := (hcluster (by decide) n).trans ((hkept (by decide) (by decide)).trans hvmax)
    phaseShown := (hcluster (by decide) n).trans ((hkept (by decide) (by decide)).trans hphase)
    refused := fun k hk => (State.fB_ofF (hcluster (by decide) k)).trans (hrefused k hk)
    raised := hbit
    short := fun p hp => by
      rw [State.fB_ofF (hreport.f (Fld.ofPhase.reportWord (by decide) p) List.not_mem_nil), hp]
      exact s₃.markShort_flag p }

theorem State.Refused.feedSide {down : List (Fin 16)} {phase : Option Nat} {vmax : BitVec 16} (h : State.Refused n down phase vmax t)
    (k : t.FeedSide u) : State.Refused n down phase vmax u := by
  have hcluster {fl : Fld} (hfit : fl.fits) (hf : fl.ofCluster) (j : Fin 16) : u.f fl j = t.f fl j := k.field fl j hfit (by
    obtain ⟨hs, hl, hu⟩ := hf
    rw [Bool.eq_false_iff, ne_eq, feedWord_iff, Fld.addr, hs]
    omega)
  have hshort (p : Fin 48) : u.f F.PH_STAT_HSSHORT p = t.f F.PH_STAT_HSSHORT p := k.field _ _ (by decide) (by
    rw [Bool.eq_false_iff, ne_eq, feedWord_iff]
    simp only [Fld.addr, F.PH_STAT_HSSHORT]
    omega)
  have hsrc : u.f F.SUPV_SRC_SRC (Src.clHsshort n / 32) = t.f F.SUPV_SRC_SRC (Src.clHsshort n / 32) := k.field _ _ (by decide) (by
    rw [Bool.eq_false_iff, ne_eq, feedWord_iff]
    simp only [Fld.addr, F.SUPV_SRC_SRC, Src.clHsshort]
    omega)
  exact {
    run := by rw [k.cl, h.run]
    pen := by rw [k.pen, h.pen]
    result := (hcluster (by decide) (by decide) n).trans h.result
    vmaxShown := (hcluster (by decide) (by decide) n).trans h.vmaxShown
    phaseShown := (hcluster (by decide) (by decide) n).trans h.phaseShown
    refused := fun j hj => (State.fB_ofF (hcluster (by decide) (by decide) j)).trans (h.refused j hj)
    raised := (congrArg (·.testBit (Src.clHsshort n % 32)) hsrc).trans h.raised
    short := fun p hp => (State.fB_ofF (hshort p)).trans (h.short p hp) }

theorem prestartCheckFail_completes (hrun : (s.cl.get n).run = .checking) (mean : Option (Fin 48)) (vmax : BitVec 16) (vbus : BitVec 20)
    (us : BitVec 32) : completes (.prestartCheckFail n mean vmax vbus us) s (fun t =>
      (t.cl.get n).run = .off ∧ t.pins.pen.getLsbD n = false ∧ t.f F.CL_PSCSTAT_RESULT n = 2 ∧ t.f F.CL_PSCSTAT_VMAX n = vmax.toNat ∧
      t.fB F.CL_PSCSTAT_REFUSED n = true ∧ (∀ k ∈ s.downClusters n, t.fB F.CL_PSCSTAT_REFUSED k = true) ∧
      t.srcBit (Src.clHsshort n) = true ∧ (∀ p, mean = some p → t.f F.CL_PSCSTAT_PHASE n = p.val ∧ t.fB F.PH_STAT_HSSHORT p = true)) := by
  obtain ⟨t, hexec, hside⟩ := exec_prestartCheckFail hrun mean vmax vbus us
  have h := (State.checkFailed_refused hrun ((mean.map Fin.val).or (s.cl.get n).pscFox) vmax).feedSide hside
  refine ⟨t, hexec, h.run, h.pen, h.result, h.vmaxShown, h.refused n (List.mem_cons_self ..), fun k hk => h.refused k (List.mem_cons_of_mem _ hk),
    h.raised, fun p hp => ?_⟩
  have hphase : (mean.map Fin.val).or (s.cl.get n).pscFox = some p.val := by rw [hp]; rfl
  refine ⟨h.phaseShown.trans ?_, h.short p hphase⟩
  rw [hphase, Option.getD_some]
  omega

end Sys2Proof.Machine
end

section
/-! THE STATEMENT ON STARTING A CLUSTER (O10). -/

namespace Sys2Proof.Machine

/-- Settles O10: a frame's start loads, sets and places; a check passed or failed stores its result, and what follows a failure is on the
side of the feeds; a soft start begins its ramp before the active set is made. -/
theorem clusterStartCommandsComplete : Obligations.ClusterStartCommandsComplete := by
  unfold Obligations.ClusterStartCommandsComplete
  refine ⟨fun s n htick hrun => ?_, fun s n => frameStart_on, fun s n htick hrun hrs _ => frameStart_even htick hrun hrs,
    fun s n vmax hrun hgood => prestartCheckPass_completes hrun hgood vmax,
    fun s n mean vmax vbus us hrun => prestartCheckFail_completes hrun mean vmax vbus us,
    fun s n out hrun hdrop => softStartBegin_completes hrun hdrop out⟩
  obtain ⟨t, hexec, h⟩ := frameStart_off htick hrun
  exact ⟨t, hexec, congrArg ClusterSt.ksF h.own, h.loaded, h.kept, h.others, h.rest⟩

end Sys2Proof.Machine
end

section
/-! SUPPORT. The host writes of a cluster's set-point, lead-warning and injection registers: which meaning each takes, what it stores, and
what it leaves alone (R134, R144, R146 to R148). -/

namespace Sys2Proof.Machine

variable {s t : State} {l : List Nat} {p : Port} {n : Fin 16}

/-! ### Frames beside the clusters -/

/-- The frame of registers does not read the clusters' hidden state. -/
theorem State.onlyRegs.ofCl (h : s.onlyRegs t l) (v : Vector ClusterSt 16) :
    State.onlyRegs { s with cl := v } { t with cl := v } l := ⟨congrArg (fun x : State => { x with cl := v }) h.1, h.2⟩

/-- Fields at different places within the clusters' blocks lie in different words. -/
theorem Fld.ofCluster.addr_ne {f g : Fld} (hf : f.ofCluster) (hg : g.ofCluster) (h : f.base ≠ g.base) (i j : Nat) : f.addr i ≠ g.addr j := by
  obtain ⟨hfs, hfl, hfu⟩ := hf
  obtain ⟨hgs, hgl, hgu⟩ := hg
  refine Fld.addr_ne_of_offset hfs hgs ?_ i j
  omega

/-! ### VSET (R134) -/

/-- A cluster's word is no command register. -/
theorem commandWrite_cluster {a : Nat} (hl : 0x1000 ≤ a) (hu : a < 0x2000) (p : Port) (v : Word) (s : State) :
    commandWrite p a v s = none := by
  unfold commandWrite
  simp (disch := omega) only [if_neg, Bool.or_eq_true, Bool.and_eq_true, decide_eq_true_eq]

theorem regFields_vset (n : Fin 16) : regFields (F.CL_VSET_S.addr n) = [⟨F.CL_VSET_S, .rws, 0x0, 0, 65535, true⟩] := by
  decide +kernel +revert

/-- A write of CLn_VSET stores its one field. -/
theorem State.hostStore_vset (s : State) (n : Fin 16) (v : Word) :
    s.hostStore (F.CL_VSET_S.addr n) v = s.setF F.CL_VSET_S n (F.CL_VSET_S.get v) := by
  simp [State.hostStore, clearOnes, mergeStored, regFields_vset, Access.stored, State.setF]

/-- A write of CLn_VSET is no more than its field: no other chapter's level follows it (R348). -/
theorem route_vset (p : Port) (n : Fin 16) (v : Word) (s : State) :
    route p (F.CL_VSET_S.addr n) v s = storeChecked (F.CL_VSET_S.addr n) v s := by
  have haddr : F.CL_VSET_S.addr n = 0x1001 + 0x100 * n.val := rfl
  have hspecial : specialReg (F.CL_VSET_S.addr n) = false := by decide +revert
  have hlead : ¬(0x1000 ≤ F.CL_VSET_S.addr n && F.CL_VSET_S.addr n < 0x2000 && F.CL_VSET_S.addr n % 0x100 = 0x13) := by decide +revert
  rw [route, commandWrite_cluster (by omega) (by omega)]
  simp only [hspecial, hlead, Bool.false_eq_true, if_false]

theorem State.afterWrite_vset (s : State) (n : Fin 16) : s.afterWrite (F.CL_VSET_S.addr n) = s := by
  have haddr : F.CL_VSET_S.addr n = 0x1001 + 0x100 * n.val := rfl
  rw [haddr]
  unfold State.afterWrite
  simp (disch := omega) only [if_neg, Bool.or_eq_true, Bool.and_eq_true, decide_eq_true_eq]

theorem vsetWrite_completes (h : s.hostOpen p) (v : BitVec 16)
    (hok : State.checkChanged (s.hostStore (F.CL_VSET_S.addr n) (v.setWidth 32)) [F.CL_VSET_S.addr n] = none) :
    completes (.vsetWrite p n v) s (fun t => t.f F.CL_VSET_S n = v.toNat ∧ s.onlyRegs t [F.CL_VSET_S.addr n]) := by
  have hrwt : hasRwt (F.CL_VSET_S.addr n) = false := by simp [hasRwt, regFields_vset]
  have hroute : route p (F.CL_VSET_S.addr n) (v.setWidth 32) s = (s.hostStore (F.CL_VSET_S.addr n) (v.setWidth 32), Code.ok) := by
    simp [route_vset, storeChecked, hrwt, hok, State.afterWrite_vset]
  have hget : F.CL_VSET_S.get (v.setWidth 32) = v.toNat := by
    simp [Fld.get, F.CL_VSET_S]
    omega
  refine ⟨_, congrArg Host.Outcome.next (State.hostDo_of_ok h hroute), ?_⟩
  rw [State.hostStore_vset, hget]
  exact ⟨(s.f_setF_self (by decide) n _).trans (Nat.mod_eq_of_lt v.isLt), s.onlyRegs_setF _ _ _⟩

/-! ### LEADSTAT.SUSP (R144) -/

theorem leadSuspendClear_completes (h : s.hostOpen p) (n : Fin 16) : completes (.leadSuspendClear p n) s (fun t =>
    t.fB F.CL_LEADSTAT_SUSP n = false ∧ (t.cl.get n).suspMask = 0 ∧ (t.cl.get n).falseRun = Vector.replicate 4 0 ∧
    (∀ k, k ≠ n → t.cl.get k = s.cl.get k) ∧ State.onlyRegs { s with cl := t.cl } t [F.CL_LEADSTAT_SUSP.addr n]) := by
  have hown := (s.setB F.CL_LEADSTAT_SUSP n false).updCl_get_self n (fun c => { c with suspMask := 0, falseRun := Vector.replicate 4 0 })
  exact ⟨_, congrArg Host.Outcome.next (State.hostDo_of_ok h rfl), s.fB_setB_self (by decide) rfl n false,
    congrArg ClusterSt.suspMask hown, congrArg ClusterSt.falseRun hown, fun k hk => State.updCl_get_ne _ hk _,
    (s.onlyRegs_setF F.CL_LEADSTAT_SUSP n _).ofCl _⟩

/-! ### INJ (R146 to R148) -/

/-- A word of which the bits of the mask `m` are taken from `v`, and then those of `c` cleared where `v` has them set. -/
def mergedWord (m c old v : Word) : Word := ((old &&& ~~~m) ||| (v &&& m)) &&& ~~~(v &&& c)

theorem getLsbD_mergedWord (m c old v : Word) (k : Nat) : (mergedWord m c old v).getLsbD k =
    ((old.getLsbD k && !m.getLsbD k || v.getLsbD k && m.getLsbD k) && !(v.getLsbD k && c.getLsbD k)) := by
  by_cases hk : k < 32
  · simp [mergedWord, hk]
  · simp [mergedWord, BitVec.getLsbD_of_ge _ _ (Nat.le_of_not_lt hk)]

/-- A field within the mask reads what was written. -/
theorem Fld.get_mergedWord_inside {fl : Fld} {m c : Word}
    (h : ∀ k < fl.w, m.getLsbD (fl.lo + k) = true ∧ c.getLsbD (fl.lo + k) = false) (old v : Word) :
    fl.get (mergedWord m c old v) = fl.get v := by
  refine Nat.eq_of_testBit_eq fun k => ?_
  rw [Fld.testBit_get, Fld.testBit_get]
  by_cases hk : k < fl.w
  · have hbit := getLsbD_mergedWord m c old v (fl.lo + k)
    simp only [(h k hk).1, (h k hk).2, Bool.not_true, Bool.and_false, Bool.false_or, Bool.and_true, Bool.not_false] at hbit
    exact congrArg _ hbit
  · simp [hk]

/-- A field outside both masks reads as before. -/
theorem Fld.get_mergedWord_outside {fl : Fld} {m c : Word}
    (h : ∀ k < fl.w, m.getLsbD (fl.lo + k) = false ∧ c.getLsbD (fl.lo + k) = false) (old v : Word) :
    fl.get (mergedWord m c old v) = fl.get old := by
  refine Nat.eq_of_testBit_eq fun k => ?_
  rw [Fld.testBit_get, Fld.testBit_get]
  by_cases hk : k < fl.w
  · have hbit := getLsbD_mergedWord m c old v (fl.lo + k)
    simp only [(h k hk).1, (h k hk).2, Bool.not_false, Bool.and_true, Bool.and_false, Bool.or_false] at hbit
    exact congrArg _ hbit
  · simp [hk]

theorem State.injFields_eq (s : State) (n : Fin 16) (v : Word) : s.injFields n v =
    s.setReg (F.CL_INJ_EN.addr n) (mergedWord 0x7FFFE#32 0x300000#32 (s.reg (F.CL_INJ_EN.addr n)) v) := rfl

/-- CLn_INJ's own meaning of a write within its ranges. -/
theorem specialWrite_inj {v : Word} (hin : inRange (F.CL_INJ_EN.addr n) v = true) (s : State) :
    specialWrite (F.CL_INJ_EN.addr n) v s = injWrite n v s := by
  have haddr : F.CL_INJ_EN.addr n = 0x1014 + 0x100 * n.val := rfl
  have hidx : Fin.ofNat 16 ((F.CL_INJ_EN.addr n - 0x1000) / 0x100) = n := by
    clear hin
    decide +revert
  rw [specialWrite, hin, if_neg (by simp), if_pos (by omega), hidx]

theorem exec_injectionEnable {v : Word} (h : s.hostOpen p) (hin : inRange (F.CL_INJ_EN.addr n) v = true)
    (hw : injWrite n v s = (t, Code.ok)) : exec (.injectionEnable p n v) s = .next t :=
  congrArg Host.Outcome.next (State.hostDo_of_ok h ((specialWrite_inj hin s).trans hw))

/-- A write that leaves a stopped injection stopped sets the other fields alone. -/
theorem injectionEnable_stopped {v : Word} (h : s.hostOpen p) (hin : inRange (F.CL_INJ_EN.addr n) v = true)
    (hv : F.CL_INJ_EN.get v = 0) (hoff : s.fB F.CL_INJ_EN n = false) : completes (.injectionEnable p n v) s (fun t =>
      t.fB F.CL_INJ_EN n = false ∧ t.f F.CL_INJ_PRBSLEN n = F.CL_INJ_PRBSLEN.get v ∧ s.onlyRegs t [F.CL_INJ_EN.addr n]) := by
  have hw : injWrite n v s = (s.injFields n v, Code.ok) := by simp [injWrite, hv, hoff]
  have hword := s.reg_setReg_self (F.CL_INJ_EN.addr n) (mergedWord 0x7FFFE#32 0x300000#32 (s.reg (F.CL_INJ_EN.addr n)) v)
  refine ⟨_, exec_injectionEnable h hin hw, ?_, ?_, (State.onlyRegs.refl s _).setReg (List.mem_singleton_self _) _⟩
  · have hkept : (s.injFields n v).f F.CL_INJ_EN n = s.f F.CL_INJ_EN n :=
      (congrArg F.CL_INJ_EN.get hword).trans (Fld.get_mergedWord_outside (by decide) _ v)
    exact (State.fB_ofF hkept).trans hoff
  · exact (congrArg F.CL_INJ_PRBSLEN.get hword).trans (Fld.get_mergedWord_inside (by decide) _ v)

theorem State.owner_ofImg (h : t.img = s.img) (cls idx : Nat) : t.owner cls idx = s.owner cls idx := by simp only [State.owner, h]

/-- The registers of an injection that starts: its fields, EN without DONE, and the partition's write index at 0. -/
def State.injShown (s : State) (n : Fin 16) (v : Word) : State :=
  let s := (((s.injFields n v).setB F.CL_INJ_EN n true).setB F.CL_INJ_DONE n false).setF F.CAP_DIAG_WIDX 0 0
  s.setB F.CAP_DIAG_WRAP 0 false

/-- The signal of an injection that starts, in the cluster's state. -/
def ClusterSt.injBegun (v : Word) (c : ClusterSt) : ClusterSt :=
  { c with injPhase := 0, injStarted := false, injPer := 0, prbs := 2 ^ F.CL_INJ_PRBSLEN.get v - 1, chip := 0
           resA := (0, 0), resB := (0, 0) }

theorem injWrite_starts {v : Word} (hv : F.CL_INJ_EN.get v = 1) (hoff : s.fB F.CL_INJ_EN n = false)
    (hfree : ∀ o ∈ s.img.own, ¬ (o.cls = 4 ∧ o.idx = 2)) (hdev : s.dev = .run) (hrun : (s.cl.get n).run = .on)
    (hdone : s.fB F.CL_VSTAT_SSDONE n = true) (hrange : s.injRangeOk n v = true) :
    injWrite n v s = (((s.claim 4 2 9).injShown n v).updCl n (ClusterSt.injBegun v), Code.ok) := by
  have howner : s.owner 4 2 = 0 := State.owner_eq_zero hfree
  simp only [injWrite, hv, hoff, howner, hdev, hrun, hdone, hrange]
  rfl

theorem State.injShown_onlyRegs (s : State) (n : Fin 16) (v : Word) :
    s.onlyRegs (s.injShown n v) [F.CL_INJ_EN.addr n, F.CAP_DIAG_WIDX.addr 0] := by
  have hinj : F.CL_INJ_EN.addr n ∈ [F.CL_INJ_EN.addr n, F.CAP_DIAG_WIDX.addr 0] := List.mem_cons_self ..
  have hdiag : F.CAP_DIAG_WIDX.addr 0 ∈ [F.CL_INJ_EN.addr n, F.CAP_DIAG_WIDX.addr 0] := List.mem_cons_of_mem _ (List.mem_singleton_self _)
  have hfields : s.onlyRegs (s.injFields n v) [F.CL_INJ_EN.addr n, F.CAP_DIAG_WIDX.addr 0] := (State.onlyRegs.refl s _).setReg hinj _
  have hflags := (hfields.setF (fl := F.CL_INJ_EN) hinj true.toNat).setF (fl := F.CL_INJ_DONE) hinj false.toNat
  exact (hflags.setF (fl := F.CAP_DIAG_WIDX) hdiag 0).setF (fl := F.CAP_DIAG_WRAP) hdiag _

theorem State.injShown_flags (s : State) (n : Fin 16) (v : Word) : (s.injShown n v).fB F.CL_INJ_EN n = true ∧
    (s.injShown n v).fB F.CL_INJ_DONE n = false ∧ (s.injShown n v).f F.CAP_DIAG_WIDX = 0 := by
  have hdiag {fl : Fld} (hf : fl.ofCluster) {u : State} : ((u.setF F.CAP_DIAG_WIDX 0 0).setB F.CAP_DIAG_WRAP 0 false).fB fl n = u.fB fl n := by
    have hne : fl.addr n ≠ 0x2C09 := by
      obtain ⟨hs, hl, hu⟩ := hf
      rw [Fld.addr, hs]
      omega
    exact (State.fB_setB_ne _ hne).trans (State.fB_setF_ne _ hne)
  refine ⟨?_, ?_, ?_⟩
  · exact (hdiag (by decide)).trans ((State.fB_setB_apart _ (by decide) (by decide)).trans (State.fB_setB_self _ (by decide) rfl _ _))
  · exact (hdiag (by decide)).trans (State.fB_setB_self _ (by decide) rfl _ _)
  · exact (State.f_setB_apart _ (by decide) (by decide)).trans (State.f_setF_self _ (by decide) 0 0)

/-- An injection that nothing forbids starts (R146). -/
theorem injectionEnable_starts {v : Word} (h : s.hostOpen p) (hin : inRange (F.CL_INJ_EN.addr n) v = true)
    (hv : F.CL_INJ_EN.get v = 1) (hoff : s.fB F.CL_INJ_EN n = false) (hfree : ∀ o ∈ s.img.own, ¬ (o.cls = 4 ∧ o.idx = 2))
    (hdev : s.dev = .run) (hrun : (s.cl.get n).run = .on) (hdone : s.fB F.CL_VSTAT_SSDONE n = true)
    (hrange : s.injRangeOk n v = true) : completes (.injectionEnable p n v) s (fun t => t.fB F.CL_INJ_EN n = true ∧
      t.fB F.CL_INJ_DONE n = false ∧ t.owner 4 2 = 9 ∧ (t.cl.get n).injPhase = 0 ∧ (t.cl.get n).injPer = 0 ∧ t.f F.CAP_DIAG_WIDX = 0 ∧
      (∀ k, k ≠ n → t.cl.get k = s.cl.get k) ∧
      State.onlyRegs { s with cl := t.cl, img := t.img } t [F.CL_INJ_EN.addr n, F.CAP_DIAG_WIDX.addr 0]) := by
  have hexec := exec_injectionEnable h hin (injWrite_starts hv hoff hfree hdev hrun hdone hrange)
  have howner := State.claim_owner (owner := 9) hfree
  obtain ⟨img, himg⟩ := s.claim_eq 4 2 9
  rw [himg] at hexec howner
  obtain ⟨hen, hdone', hidx⟩ := State.injShown_flags { s with img := img } n v
  have hregs := State.injShown_onlyRegs { s with img := img } n v
  generalize State.injShown { s with img := img } n v = u at *
  have hown := u.updCl_get_self n (ClusterSt.injBegun v)
  have hcl : u.cl = s.cl := hregs.hidden fun _ _ => rfl
  have himg' : u.img = img := hregs.hidden fun _ _ => rfl
  have howner' : (u.updCl n (ClusterSt.injBegun v)).owner 4 2 = 9 := (State.owner_ofImg ((u.updCl_img n _).trans himg') 4 2).trans howner
  have hf (fl : Fld) (i : Nat) : (u.updCl n (ClusterSt.injBegun v)).f fl i = u.f fl i := State.f_ofRegs (u.updCl_regs n _) fl i
  refine ⟨_, hexec, (State.fB_ofF (hf _ _)).trans hen, (State.fB_ofF (hf _ _)).trans hdone', howner', congrArg ClusterSt.injPhase hown,
    congrArg ClusterSt.injPer hown, (hf _ _).trans hidx, fun k hk => ?_, ?_⟩
  · exact (u.updCl_get_ne hk _).trans (congrArg (·.get k) hcl)
  · rw [State.updCl_img, himg']
    exact hregs.ofCl _

end Sys2Proof.Machine
end

section
/-! SUPPORT. The all-phases response (R154), and what a lead warning does with it (R141, R142). -/

namespace Sys2Proof.Machine

variable {s t : State} {n : Fin 16} {pin : Fin 4} {w : BitVec 16}

/-! ### The all-phases response -/

theorem State.onRequestAt_eq (s : State) (p : Fin 48) : ∃ v, s.onRequestAt p = { s with ph := v } := by
  unfold State.onRequestAt
  dsimp only
  split
  · exact ⟨s.ph, rfl⟩
  · split
    · exact ⟨_, rfl⟩
    · exact ⟨_, rfl⟩

theorem State.onRequestAt_frame (s : State) (p : Fin 48) (v : Vector PhaseSt 48) : { s.onRequestAt p with ph := v } = { s with ph := v } := by
  obtain ⟨w, hw⟩ := s.onRequestAt_eq p
  rw [hw]

/-- An on request changes nothing but the phases. -/
theorem State.onRequest_frame (s : State) (n : Fin 16) : { s.onRequest n with ph := s.ph } = s :=
  State.each_frame (π := fun t : State => { t with ph := s.ph }) (fun t p => t.onRequestAt_frame p s.ph) (s.activePhases n) s

/-- The cluster's own state in a hold of `hold` updates with `m` phases: no ratio-step measurement, and no time below the drop threshold
(R154, R195). -/
def ClusterSt.heldAll (hold m : Nat) (c : ClusterSt) : ClusterSt :=
  { c with rsRun := none, rsDrop := none, rsAgain := none, dropTime := 0, holdLeft := hold, mNext := m }

/-- What the all-phases response brings about and leaves alone. -/
structure State.AllOn (n : Fin 16) (s t : State) : Prop where
  own : t.cl.get n = (s.cl.get n).heldAll (s.f F.CL_PHCNT2_APHOLD n) (s.nAv n)
  others : ∀ k, k ≠ n → t.cl.get k = s.cl.get k
  hold : t.fB F.CL_PHSTAT_HOLDALL n = true
  rest : { t with regs := s.regs, cl := s.cl, ph := s.ph } = s
  word : ∀ a, regroupWord a = false → a ≠ F.CL_PHSTAT_HOLDALL.addr n → t.reg a = s.reg a

/-- The hold begun, before the active set is made. -/
def State.holdBegun (s : State) (n : Fin 16) : State :=
  s.updCl n (fun c => c.heldAll (s.f F.CL_PHCNT2_APHOLD n) c.mNext)

theorem State.allPhases_eq (s : State) (n : Fin 16) :
    s.allPhases n = (((s.holdBegun n).setActive n (s.nAv n)).setB F.CL_PHSTAT_HOLDALL n true).onRequest n := rfl

theorem State.allPhases_allOn (s : State) (n : Fin 16) : s.AllOn n (s.allPhases n) := by
  have hown : (s.holdBegun n).cl.get n = (s.cl.get n).heldAll (s.f F.CL_PHCNT2_APHOLD n) (s.cl.get n).mNext := s.updCl_get_self n _
  have hother (k : Fin 16) (hk : k ≠ n) : (s.holdBegun n).cl.get k = s.cl.get k := s.updCl_get_ne hk _
  have hbegun : { s.holdBegun n with cl := s.cl } = s := rfl
  have hnav : (s.holdBegun n).nAv n = s.nAv n := rfl
  rw [State.allPhases_eq]
  generalize s.holdBegun n = r at *
  have hact := State.setActive_activated (s := r) (n := n) (by rw [hown]; rfl) (s.nAv n)
  generalize r.setActive n (s.nAv n) = v at *
  have hframe := (v.setB F.CL_PHSTAT_HOLDALL n true).onRequest_frame n
  have hhold := v.fB_setB_self (fl := F.CL_PHSTAT_HOLDALL) (by decide) rfl n true
  have hword {a : Nat} (ha : a ≠ F.CL_PHSTAT_HOLDALL.addr n) : (v.setB F.CL_PHSTAT_HOLDALL n true).reg a = v.reg a :=
    v.reg_setB_ne ha
  have hset : { v.setB F.CL_PHSTAT_HOLDALL n true with regs := v.regs } = v := rfl
  generalize v.setB F.CL_PHSTAT_HOLDALL n true = x at *
  generalize x.onRequest n = t at *
  have hcl : t.cl = v.cl := (congrArg State.cl hframe).trans (congrArg State.cl hset :)
  have hregs : t.regs = x.regs := (congrArg State.regs hframe :)
  have hreg : ∀ a, r.reg a = s.reg a := State.reg_ofRegs (congrArg State.regs hbegun :)
  exact {
    own := by
      have hmin : Nat.min (s.nAv n) (s.nAv n) = s.nAv n := Nat.min_self _
      rw [hcl, hact.own, hown, hnav, hmin]
      rfl
    others := fun k hk => by rw [hcl, hact.others k hk, hother k hk]
    hold := (State.fB_ofF (State.f_ofRegs hregs _ _)).trans hhold
    rest := ((congrArg (fun t : State => { t with regs := s.regs, cl := s.cl, ph := s.ph }) hframe).trans
      (congrArg (fun t : State => { t with regs := s.regs, cl := s.cl, ph := s.ph }) hset)).trans
      ((congrArg (fun t : State => { t with regs := s.regs, cl := s.cl, ph := s.ph }) hact.rest).trans
      (congrArg (fun t : State => { t with regs := s.regs, ph := s.ph }) hbegun))
    word := fun a hr ha => by rw [State.reg_ofRegs hregs, hword ha, hact.word a hr ha, hreg] }

/-! ### A decoded class -/

theorem State.disturb_onlyRegs (s : State) (n : Fin 16) : s.onlyRegs (s.disturb n) [F.CL_INJ_DISTURB.addr n] := by
  unfold State.disturb State.when
  split
  · exact s.onlyRegs_setF _ _ _
  · exact State.onlyRegs.refl s _

/-- The cluster's own state with a term `lw` in force, of a warning on pin `pin` under the configuration `cfg`, none having been before. -/
def ClusterSt.warned (cfg : Nat × Nat × Nat) (pin : Fin 4) (lw : Nat) (c : ClusterSt) : ClusterSt :=
  { c with lw := lw, lwAdder := c.lwAdder + (lw - c.lw), lwCfg := some cfg, lwWin := cfg.2.1 * 40, lwRamp := 0
           lwRef := c.iLoad, lwPin := pin.val, lwNew := true }

/-- What a warning reads of the cluster's registers: LWSTEP, LWWIN and LWABORT (R149). -/
def State.leadCfg (s : State) (n : Fin 16) : Nat × Nat × Nat :=
  (s.f F.CL_LEAD_LWSTEP n, s.f F.CL_LEAD_LWWIN n, s.f F.CL_LEAD2_LWABORT n)

/-- The term of a class, in mA (R142). -/
def State.leadTerm (s : State) (n : Fin 16) (cls : Nat) : Nat := cls * s.f F.CL_LEAD_LWSTEP n * 100

/-- CLn_LEADSTAT and the flag of a disturbed injection, as a warning of class `cls` sets them. -/
def State.warningShown (s : State) (n : Fin 16) (cls : Nat) (active : Bool) : State :=
  ((s.setF F.CL_LEADSTAT_CLASS n cls).setB F.CL_LEADSTAT_ACTIVE n active).disturb n

theorem State.leadAct_fresh (h : (s.cl.get n).lw = 0) (pin : Fin 4) (cls : Nat) : s.leadAct n pin cls =
    ((s.updCl n (ClusterSt.warned (s.leadCfg n) pin (s.leadTerm n cls))).warningShown n cls
      ((s.leadTerm n cls : Int) != 0)).allPhases n := by
  simp only [State.leadAct, h, decide_true, Bool.true_or, if_true]
  rfl

theorem State.warningShown_onlyRegs (s : State) (n : Fin 16) (cls : Nat) (active : Bool) :
    s.onlyRegs (s.warningShown n cls active) [F.CL_LEADSTAT_CLASS.addr n, F.CL_INJ_DISTURB.addr n] := by
  have hset : s.onlyRegs ((s.setF F.CL_LEADSTAT_CLASS n cls).setB F.CL_LEADSTAT_ACTIVE n active)
      [F.CL_LEADSTAT_CLASS.addr n, F.CL_INJ_DISTURB.addr n] :=
    ((State.onlyRegs.refl s _).setF (fl := F.CL_LEADSTAT_CLASS) (List.mem_cons_self ..) cls).setF (fl := F.CL_LEADSTAT_ACTIVE)
      (List.mem_cons_self ..) _
  unfold State.warningShown State.disturb State.when
  split
  · exact hset.setF (fl := F.CL_INJ_DISTURB) (List.mem_cons_of_mem _ (List.mem_singleton_self _)) _
  · exact hset

theorem State.warningShown_class (s : State) (n : Fin 16) {cls : Nat} (h : cls < 8) (active : Bool) :
    (s.warningShown n cls active).f F.CL_LEADSTAT_CLASS n = cls := by
  have hdisturb := ((s.setF F.CL_LEADSTAT_CLASS n cls).setB F.CL_LEADSTAT_ACTIVE n active).disturb_onlyRegs n
  have hne : F.CL_LEADSTAT_CLASS.addr n ≠ F.CL_INJ_DISTURB.addr n :=
    Fld.ofCluster.addr_ne (f := F.CL_LEADSTAT_CLASS) (g := F.CL_INJ_DISTURB) (by decide) (by decide) (by decide) n n
  exact (hdisturb.f (by simpa using hne)).trans ((State.f_setB_apart _ (by decide) (by decide)).trans
    ((s.f_setF_self (by decide) n cls).trans (Nat.mod_eq_of_lt h)))

/-- A pulse of a valid width has one of the classes 1 to 7 (R141). -/
theorem leadClass_valid {w : Nat} (hl : 4 ≤ w) (hu : w < 60) : 1 ≤ leadClass w ∧ leadClass w ≤ 7 := by
  rw [leadClass, if_neg (by omega), if_neg (by omega)]
  omega

theorem leadClass_invalid {w : Nat} (h : 60 ≤ w) : leadClass w = 8 := by
  rw [leadClass, if_neg (by omega), if_pos h]

section
variable (hpin : s.leadCluster pin = some n) (hrun : (s.cl.get n).run = .on) (hheard : (s.cl.get n).suspMask.getLsbD pin = false)
include hpin hrun hheard

theorem exec_leadWarningPulse_valid (hl : 4 ≤ w.toNat) (hu : w.toNat < 60) :
    exec (.leadWarningPulse pin w) s = .next (s.leadAct n pin (leadClass w.toNat)) := by
  obtain ⟨hpos, hseven⟩ := leadClass_valid hl hu
  change execLeadWarningPulse pin w s = _
  simp only [execLeadWarningPulse, hpin, hrun, hheard, beq_self_eq_true, Bool.true_or, Bool.not_true, Bool.or_self, Bool.false_eq_true, if_false]
  split
  · omega
  · omega
  · rfl

theorem exec_leadWarningPulse_invalid (h : 60 ≤ w.toNat) :
    exec (.leadWarningPulse pin w) s = .next (s.setB F.CL_LEADSTAT_INVALID n true) := by
  change execLeadWarningPulse pin w s = _
  simp only [execLeadWarningPulse, hpin, hrun, hheard, leadClass_invalid h, beq_self_eq_true, Bool.true_or, Bool.not_true, Bool.or_self,
    Bool.false_eq_true, if_false]

end

/-- A class in force: the term in the reference adder, its window, and every phase on (R142). -/
theorem leadWarning_acted (hpin : s.leadCluster pin = some n) (hrun : (s.cl.get n).run = .on)
    (hheard : (s.cl.get n).suspMask.getLsbD pin = false) (hlw : (s.cl.get n).lw = 0) (hl : 4 ≤ w.toNat) (hu : w.toNat < 60) :
    completes (.leadWarningPulse pin w) s (fun t =>
      (t.cl.get n).lw = (leadClass w.toNat * s.f F.CL_LEAD_LWSTEP n * 100 : Nat) ∧ t.f F.CL_LEADSTAT_CLASS n = leadClass w.toNat ∧
      (t.cl.get n).lwWin = s.f F.CL_LEAD_LWWIN n * 40 ∧ (t.cl.get n).lwRef = (s.cl.get n).iLoad ∧
      t.fB F.CL_PHSTAT_HOLDALL n = true ∧ (∀ k, k ≠ n → t.cl.get k = s.cl.get k) ∧ t.pins = s.pins) := by
  have hseven := (leadClass_valid hl hu).2
  have hexec := exec_leadWarningPulse_valid hpin hrun hheard hl hu
  generalize leadClass w.toNat = cls at *
  rw [State.leadAct_fresh hlw] at hexec
  have hown := s.updCl_get_self n (ClusterSt.warned (s.leadCfg n) pin (s.leadTerm n cls))
  have hother (k : Fin 16) (hk : k ≠ n) := s.updCl_get_ne hk (ClusterSt.warned (s.leadCfg n) pin (s.leadTerm n cls))
  have hpins := s.updCl_pins n (ClusterSt.warned (s.leadCfg n) pin (s.leadTerm n cls))
  generalize s.updCl n (ClusterSt.warned (s.leadCfg n) pin (s.leadTerm n cls)) = r at *
  have hclass := r.warningShown_class n (cls := cls) (by omega) ((s.leadTerm n cls : Int) != 0)
  have hshown := r.warningShown_onlyRegs n cls ((s.leadTerm n cls : Int) != 0)
  generalize r.warningShown n cls ((s.leadTerm n cls : Int) != 0) = x at *
  have hcl : x.cl = r.cl := hshown.hidden (π := State.cl) fun _ _ => rfl
  have hpins' : x.pins = r.pins := hshown.hidden (π := State.pins) fun _ _ => rfl
  have hall := x.allPhases_allOn n
  generalize x.allPhases n = t at *
  have hword : t.f F.CL_LEADSTAT_CLASS n = x.f F.CL_LEADSTAT_CLASS n := by
    refine congrArg F.CL_LEADSTAT_CLASS.get (hall.word _ ?_ ?_)
    · rw [Bool.eq_false_iff, ne_eq, regroupWord_iff]
      simp only [Fld.addr, F.CL_LEADSTAT_CLASS]
      omega
    · exact Fld.ofCluster.addr_ne (f := F.CL_LEADSTAT_CLASS) (g := F.CL_PHSTAT_HOLDALL) (by decide) (by decide) (by decide) n n
  have hfinal := hall.own
  rw [hcl, hown] at hfinal
  refine ⟨t, hexec, congrArg ClusterSt.lw hfinal, hword.trans hclass, congrArg ClusterSt.lwWin hfinal, congrArg ClusterSt.lwRef hfinal,
    hall.hold, fun k hk => ?_, ?_⟩
  · rw [hall.others k hk, hcl, hother k hk]
  · exact (congrArg State.pins hall.rest :).trans (hpins'.trans hpins)

/-- A pulse of an invalid width is flagged (R141). -/
theorem leadWarning_invalid (hpin : s.leadCluster pin = some n) (hrun : (s.cl.get n).run = .on)
    (hheard : (s.cl.get n).suspMask.getLsbD pin = false) (h : 60 ≤ w.toNat) : completes (.leadWarningPulse pin w) s (fun t =>
      t.fB F.CL_LEADSTAT_INVALID n = true ∧ s.onlyRegs t [F.CL_LEADSTAT_INVALID.addr n]) :=
  ⟨_, exec_leadWarningPulse_invalid hpin hrun hheard h, s.fB_setB_self (by decide) rfl n true, s.onlyRegs_setF _ _ _⟩

end Sys2Proof.Machine
end

section
/-! SUPPORT. The checkpoint of an update (R133, R165), and the update of a cluster that does not switch (R124, R188). -/

namespace Sys2Proof.Machine

variable {s t : State} {n : Fin 16}

/-! ### The checkpoint -/

/-- The cluster's own state after a checkpoint `fr`, of an integrator within its bound or not: frame A for an even SEQ, frame B for an odd
one. -/
def ClusterSt.saved (fr : Frame) (above : Bool) (c : ClusterSt) : ClusterSt :=
  { c with frameA := if c.seqNo.getLsbD 0 then c.frameA else some fr, frameB := if c.seqNo.getLsbD 0 then some fr else c.frameB
           boundRun := if above then c.boundRun + 1 else 0 }

/-- The next SEQ. -/
def ClusterSt.counted (c : ClusterSt) : ClusterSt := { c with seqNo := c.seqNo + 1 }

/-- A checkpoint of LE16 under check (R170). -/
def ClusterSt.spared (k : Nat) (c : ClusterSt) : ClusterSt := { c with spareRun := k }

/-- What a checkpoint brings about and leaves alone. -/
structure State.Checkpointed (n : Fin 16) (s t : State) : Prop where
  own : ∃ fr above k, t.cl.get n = (((s.cl.get n).counted.saved fr above).spared k)
  others : ∀ k, k ≠ n → t.cl.get k = s.cl.get k
  rest : State.onlyRegs { s with cl := t.cl } t [F.LE16_STAT_STATE.addr 0]

/-- The passed checkpoint counted for LE16, which has passed its check at the fifth (R170). -/
def State.spareCounted (s : State) (n : Fin 16) : State :=
  if s.f F.LE16_STAT_STATE = 1 && s.f F.LE16_STAT_CL = n.val then
    let k := (s.cl.get n).spareRun + 1
    (s.updCl n (ClusterSt.spared k)).when (decide (5 ≤ k)) (fun s => s.setF F.LE16_STAT_STATE 0 2)
  else s

theorem State.writeCheckpoint_eq (s : State) (n : Fin 16) : ∃ fr above,
    s.writeCheckpoint n = ((s.updCl n ClusterSt.counted).updCl n (ClusterSt.saved fr above)).spareCounted n := ⟨_, _, rfl⟩

theorem State.spareCounted_spec (s : State) (n : Fin 16) : (∃ k, (s.spareCounted n).cl.get n = (s.cl.get n).spared k) ∧
    (∀ k, k ≠ n → (s.spareCounted n).cl.get k = s.cl.get k) ∧
    State.onlyRegs { s with cl := (s.spareCounted n).cl } (s.spareCounted n) [F.LE16_STAT_STATE.addr 0] := by
  unfold State.spareCounted
  split
  case isFalse => exact ⟨⟨(s.cl.get n).spareRun, rfl⟩, fun _ _ => rfl, State.onlyRegs.refl s _⟩
  case isTrue =>
    dsimp only
    have hown := s.updCl_get_self n (ClusterSt.spared ((s.cl.get n).spareRun + 1))
    have hother (k : Fin 16) (hk : k ≠ n) := s.updCl_get_ne hk (ClusterSt.spared ((s.cl.get n).spareRun + 1))
    have hrest : { s with cl := (s.updCl n (ClusterSt.spared ((s.cl.get n).spareRun + 1))).cl } =
        s.updCl n (ClusterSt.spared ((s.cl.get n).spareRun + 1)) := rfl
    generalize s.updCl n (ClusterSt.spared ((s.cl.get n).spareRun + 1)) = r at *
    unfold State.when
    split
    · refine ⟨⟨_, hown⟩, hother, ?_⟩
      rw [State.setF_cl, hrest]
      exact r.onlyRegs_setF _ _ _
    · refine ⟨⟨_, hown⟩, hother, ?_⟩
      rw [hrest]
      exact State.onlyRegs.refl r _

theorem State.writeCheckpoint_checkpointed (s : State) (n : Fin 16) : s.Checkpointed n (s.writeCheckpoint n) := by
  obtain ⟨fr, above, heq⟩ := s.writeCheckpoint_eq n
  have hown : ((s.updCl n ClusterSt.counted).updCl n (ClusterSt.saved fr above)).cl.get n = (s.cl.get n).counted.saved fr above := by
    rw [State.updCl_get_self, State.updCl_get_self]
  have hother (k : Fin 16) (hk : k ≠ n) : ((s.updCl n ClusterSt.counted).updCl n (ClusterSt.saved fr above)).cl.get k = s.cl.get k := by
    rw [State.updCl_get_ne _ hk, State.updCl_get_ne _ hk]
  have hrest : { (s.updCl n ClusterSt.counted).updCl n (ClusterSt.saved fr above) with cl := s.cl } = s := rfl
  rw [heq]
  generalize (s.updCl n ClusterSt.counted).updCl n (ClusterSt.saved fr above) = r at *
  obtain ⟨⟨k, hspare⟩, hkept, hregs⟩ := r.spareCounted_spec n
  generalize r.spareCounted n = t at *
  refine ⟨⟨fr, above, k, by rw [hspare, hown]⟩, fun k hk => (hkept k hk).trans (hother k hk), ?_⟩
  have hs : { s with cl := t.cl } = { r with cl := t.cl } := (congrArg (fun x : State => { x with cl := t.cl }) hrest).symm
  rw [hs]
  exact hregs

theorem State.Checkpointed.seqNo (h : s.Checkpointed n t) : (t.cl.get n).seqNo = (s.cl.get n).seqNo + 1 := by
  obtain ⟨fr, above, k, hown⟩ := h.own
  rw [hown]
  simp only [ClusterSt.spared, ClusterSt.saved, ClusterSt.counted]

theorem State.Checkpointed.loop (h : s.Checkpointed n t) : (t.cl.get n).run = (s.cl.get n).run ∧ (t.cl.get n).acc = (s.cl.get n).acc ∧
    (t.cl.get n).ePrev = (s.cl.get n).ePrev := by
  obtain ⟨fr, above, k, hown⟩ := h.own
  rw [hown]
  simp only [ClusterSt.spared, ClusterSt.saved, ClusterSt.counted, and_self]

/-- An even SEQ is frame A's. -/
theorem State.Checkpointed.frameA (h : s.Checkpointed n t) (hbit : (t.cl.get n).seqNo.getLsbD 0 = false) :
    (t.cl.get n).frameA.isSome = true ∧ (t.cl.get n).frameB = (s.cl.get n).frameB := by
  obtain ⟨fr, above, k, hown⟩ := h.own
  have hseq := h.seqNo
  rw [hseq] at hbit
  rw [hown]
  simp only [ClusterSt.spared, ClusterSt.saved, ClusterSt.counted, hbit, Bool.false_eq_true, if_false, Option.isSome_some, and_self]

/-- An odd SEQ is frame B's. -/
theorem State.Checkpointed.frameB (h : s.Checkpointed n t) (hbit : (t.cl.get n).seqNo.getLsbD 0 = true) :
    (t.cl.get n).frameB.isSome = true ∧ (t.cl.get n).frameA = (s.cl.get n).frameA := by
  obtain ⟨fr, above, k, hown⟩ := h.own
  have hseq := h.seqNo
  rw [hseq] at hbit
  rw [hown]
  simp only [ClusterSt.spared, ClusterSt.saved, ClusterSt.counted, hbit, if_true, Option.isSome_some, and_self]

/-! ### Base samples (R188) -/

/-- The phases' base samples change nothing but the phases. -/
theorem State.phaseBase_frame (s : State) (n : Fin 16) : { s.phaseBase n with ph := s.ph } = s :=
  State.each_frame (π := fun t : State => { t with ph := s.ph }) (g := fun s p => s.updPh p _) (fun _ _ => rfl) (s.clPhases n) s

/-- The cluster's own state with a base sample `v`, `i` more. -/
def ClusterSt.sampled (v i : Rat) (c : ClusterSt) : ClusterSt :=
  { c with telV := (c.telV.1 + v, c.telV.2 + 1), telI := c.telI + i, telP := c.telP + v * i / 1000000 }

theorem State.telBase_eq (s : State) (n : Fin 16) (v i : Rat) : s.telBase n v i = s.updCl n (ClusterSt.sampled v i) := rfl

/-- What the base samples of a cluster and its phases bring about and leave alone. -/
theorem State.baseSamples_spec (s : State) (n : Fin 16) (v i : Rat) :
    ((s.telBase n v i).phaseBase n).cl.get n = (s.cl.get n).sampled v i ∧
    (∀ k, k ≠ n → ((s.telBase n v i).phaseBase n).cl.get k = s.cl.get k) ∧
    { (s.telBase n v i).phaseBase n with cl := s.cl, ph := s.ph } = s := by
  rw [State.telBase_eq]
  have hown := s.updCl_get_self n (ClusterSt.sampled v i)
  have hother (k : Fin 16) (hk : k ≠ n) := s.updCl_get_ne hk (ClusterSt.sampled v i)
  have hrest : { s.updCl n (ClusterSt.sampled v i) with cl := s.cl } = s := rfl
  generalize s.updCl n (ClusterSt.sampled v i) = r at *
  have hframe := r.phaseBase_frame n
  generalize r.phaseBase n = t at *
  have hcl : t.cl = r.cl := (congrArg State.cl hframe :)
  exact ⟨by rw [hcl, hown], fun k hk => by rw [hcl, hother k hk],
    (congrArg (fun x : State => { x with cl := s.cl, ph := s.ph }) hframe).trans (congrArg (fun x : State => { x with ph := s.ph }) hrest)⟩

/-! ### A cluster that does not switch -/

theorem exec_loopUpdate_off (htick : (s.cl.get n).ticking = true) (hok : s.engineOk n = true) (hrun : (s.cl.get n).run = .off)
    (fine : List (BitVec 12)) (coarse : BitVec 10) : ∃ v i,
      exec (.loopUpdate n fine coarse) s = .next (((s.telBase n v i).phaseBase n).writeCheckpoint n) := by
  have hsw : s.switching n = false := by simp [State.switching, hrun]
  refine ⟨(coarse.toNat : Rat) * 1600 * (s.gDiv n : Rat), s.iSumNow n, ?_⟩
  change execLoopUpdate n fine coarse s = _
  simp [execLoopUpdate, htick, hok, hsw]

theorem loopUpdate_off (htick : (s.cl.get n).ticking = true) (hok : s.engineOk n = true) (hrun : (s.cl.get n).run = .off)
    (fine : List (BitVec 12)) (coarse : BitVec 10) : completes (.loopUpdate n fine coarse) s (fun t =>
      (t.cl.get n).seqNo = (s.cl.get n).seqNo + 1 ∧ (t.cl.get n).acc = (s.cl.get n).acc ∧
      ((t.cl.get n).seqNo.getLsbD 0 = false → (t.cl.get n).frameA.isSome = true ∧ (t.cl.get n).frameB = (s.cl.get n).frameB) ∧
      ((t.cl.get n).seqNo.getLsbD 0 = true → (t.cl.get n).frameB.isSome = true ∧ (t.cl.get n).frameA = (s.cl.get n).frameA) ∧
      (∀ k, k ≠ n → t.cl.get k = s.cl.get k) ∧ State.onlyRegs { s with cl := t.cl, ph := t.ph } t [F.LE16_STAT_STATE.addr 0]) := by
  obtain ⟨v, i, hexec⟩ := exec_loopUpdate_off htick hok hrun fine coarse
  obtain ⟨hsample, hkept, hrest⟩ := s.baseSamples_spec n v i
  generalize (s.telBase n v i).phaseBase n = r at *
  have hcheck := r.writeCheckpoint_checkpointed n
  generalize r.writeCheckpoint n = t at *
  have hframeA := hcheck.frameA
  have hframeB := hcheck.frameB
  have hseq := hcheck.seqNo
  have hacc := hcheck.loop.2.1
  rw [hsample] at hframeA hframeB hseq hacc
  refine ⟨t, hexec, hseq, hacc, hframeA, hframeB, fun k hk => (hcheck.others k hk).trans (hkept k hk), ?_⟩
  have hph : t.ph = r.ph := hcheck.rest.hidden (π := State.ph) fun _ _ => rfl
  have hs : { s with cl := t.cl, ph := t.ph } = { r with cl := t.cl } := by
    rw [hph]
    exact (congrArg (fun x : State => { x with cl := t.cl, ph := r.ph }) hrest).symm
  rw [hs]
  exact hcheck.rest

end Sys2Proof.Machine
end

section
/-! SUPPORT. What an update issues, e, acc and u, and that its later parts leave it (R125 to R130). -/

namespace Sys2Proof.Machine

variable {s t : State} {n : Fin 16} {e u : Int} {acc : BitVec 48}

/-! ### Bounds -/

theorem clampI_bounds {lo hi a b : Int} (hlo : a ≤ lo ∧ lo ≤ b) (hhi : a ≤ hi ∧ hi ≤ b) (x : Int) :
    a ≤ clampI lo hi x ∧ clampI lo hi x ≤ b := by
  unfold clampI
  split
  · exact hlo
  · split
    · exact hhi
    · omega

theorem loopError_bounds (vref : Nat) (fine : List (BitVec 12)) (coarse : BitVec 10) :
    -32767 ≤ (loopError vref fine coarse).1 ∧ (loopError vref fine coarse).1 ≤ 32767 := by
  unfold loopError
  split <;> exact clampI_bounds (by decide) (by decide) _

theorem toSigned_bounds {x : Nat} (h : x < 2 ^ 16) : -32768 ≤ toSigned 16 x ∧ toSigned 16 x ≤ 32767 := by
  unfold toSigned
  split <;> omega

/-- The clamp of u lies within the 32 bits of CLn_IOUT (R124). -/
theorem State.uLo_bounds (s : State) (n : Fin 16) : -2 ^ 31 ≤ s.uLo n ∧ s.uLo n ≤ 2 ^ 31 - 1 := by
  have hmin : -32768 ≤ s.fS F.CL_IRLIM_IRMIN n ∧ s.fS F.CL_IRLIM_IRMIN n ≤ 32767 := toSigned_bounds (s.f_lt F.CL_IRLIM_IRMIN n)
  unfold State.uLo
  split <;> omega

theorem State.uHi_bounds (s : State) (n : Fin 16) : -2 ^ 31 ≤ s.uHi n ∧ s.uHi n ≤ 2 ^ 31 - 1 := by
  have hmax := s.f_lt F.CL_IRLIM_IRMAX n
  have hon := s.f_lt F.CL_FSW_MAXON n
  have hper := s.f_lt F.CL_FSW_PERIOD n
  have hprod := Nat.mul_le_mul (Nat.mul_le_mul_left 64 hon.le) hper.le
  simp only [F.CL_IRLIM_IRMAX, F.CL_FSW_MAXON, F.CL_FSW_PERIOD] at hmax hprod
  unfold State.uHi State.maxOn
  split
  · simp only [F.CL_FSW_MAXON, F.CL_FSW_PERIOD]
    omega
  · simp only [F.CL_IRLIM_IRMAX]
    omega

/-! ### What an update issues -/

/-- The integrator after an update with error `e` (R130). -/
def State.accNext (s : State) (n : Fin 16) (e : Int) : BitVec 48 := BitVec.ofInt 48 ((s.cl.get n).acc.toInt + s.f F.CL_GAIN_KI n * e)

/-- The output of an update with error `e` and no warning (R125). -/
def State.outNext (s : State) (n : Fin 16) (e : Int) : Int :=
  clampI (s.uLo n) (s.uHi n) (roundAway ((s.loopGain n e * e : Int) / (256 : Rat) +
    ((s.f F.CL_GAIN_KD n : Int) * (e - (s.cl.get n).ePrev) : Int) / (16 : Rat) + ((s.accNext n e).toInt : Rat) / (2 ^ 20 : Nat) +
    ((s.cl.get n).injI : Rat)))

/-- The cluster is on, and shows `e`, `acc` and `u` as those of its latest update. -/
structure State.Issued (n : Fin 16) (e : Int) (acc : BitVec 48) (u : Int) (s : State) : Prop where
  run : (s.cl.get n).run = .on
  ePrev : (s.cl.get n).ePrev = e
  acc : (s.cl.get n).acc = acc
  err : s.fS F.CL_ERR_E n = e
  out : s.fS F.CL_IOUT_U n = u

/-- What keeps these parts of the cluster's own state and CLn_ERR and CLn_IOUT. -/
theorem State.Issued.congr (h : s.Issued n e acc u) (hcl : (t.cl.get n).run = (s.cl.get n).run ∧ (t.cl.get n).acc = (s.cl.get n).acc ∧
    (t.cl.get n).ePrev = (s.cl.get n).ePrev) (hreg : ∀ a, a = F.CL_ERR_E.addr n ∨ a = F.CL_IOUT_U.addr n → t.reg a = s.reg a) :
    t.Issued n e acc u where
  run := hcl.1.trans h.run
  ePrev := hcl.2.2.trans h.ePrev
  acc := hcl.2.1.trans h.acc
  err := (congrArg (fun w => toSigned F.CL_ERR_E.w (F.CL_ERR_E.get w)) (hreg _ (Or.inl rfl))).trans h.err
  out := (congrArg (fun w => toSigned F.CL_IOUT_U.w (F.CL_IOUT_U.get w)) (hreg _ (Or.inr rfl))).trans h.out

/-! ### Stores -/

theorem State.Issued.updCl (h : s.Issued n e acc u) {g : ClusterSt → ClusterSt}
    (hg : ∀ c, (g c).run = c.run ∧ (g c).acc = c.acc ∧ (g c).ePrev = c.ePrev := by exact fun _ => ⟨rfl, rfl, rfl⟩) :
    (s.updCl n g).Issued n e acc u := by
  refine h.congr ?_ fun a _ => State.reg_ofRegs (s.updCl_regs n g) a
  rw [State.updCl_get_self]
  exact hg _

theorem State.Issued.setReg (h : s.Issued n e acc u) {a : Nat} (ha : a ≠ F.CL_ERR_E.addr n ∧ a ≠ F.CL_IOUT_U.addr n) (w : Word) :
    (s.setReg a w).Issued n e acc u := by
  refine h.congr ⟨rfl, rfl, rfl⟩ fun b hb => State.reg_setReg_ne s ?_ w
  rcases hb with rfl | rfl
  · exact ha.1.symm
  · exact ha.2.symm

/-- Another register of a cluster stored. -/
theorem State.Issued.setF (h : s.Issued n e acc u) {fl : Fld} (i v : Nat)
    (hf : fl.ofCluster ∧ fl.base ≠ F.CL_ERR_E.base ∧ fl.base ≠ F.CL_IOUT_U.base := by decide) : (s.setF fl i v).Issued n e acc u :=
  h.setReg ⟨hf.1.addr_ne (g := F.CL_ERR_E) (by decide) hf.2.1 i n, hf.1.addr_ne (g := F.CL_IOUT_U) (by decide) hf.2.2 i n⟩ _

theorem State.Issued.setB (h : s.Issued n e acc u) {fl : Fld} (i : Nat) (b : Bool)
    (hf : fl.ofCluster ∧ fl.base ≠ F.CL_ERR_E.base ∧ fl.base ≠ F.CL_IOUT_U.base := by decide) : (s.setB fl i b).Issued n e acc u :=
  h.setF i b.toNat hf

/-- Past the clusters' registers, no store reaches them. -/
theorem State.Issued.setBeyond (h : s.Issued n e acc u) {fl : Fld} (v : Nat) (ha : 0x2000 ≤ fl.addr 0 := by decide) :
    (s.setF fl 0 v).Issued n e acc u := by
  refine h.setReg ?_ _
  simp only [Fld.addr, F.CL_ERR_E, F.CL_IOUT_U] at ha ⊢
  omega

theorem State.Issued.when (h : s.Issued n e acc u) (b : Bool) {g : State → State} (hg : s.Issued n e acc u → (g s).Issued n e acc u) :
    (s.when b g).Issued n e acc u := by
  unfold State.when
  split
  · exact hg h
  · exact h

theorem State.Issued.disturb (h : s.Issued n e acc u) : (s.disturb n).Issued n e acc u := h.when _ fun h => h.setB _ _

/-! ### The phases (R153, R154, R157) -/

theorem State.Issued.onRequestAt (h : s.Issued n e acc u) (p : Fin 48) : (s.onRequestAt p).Issued n e acc u := by
  obtain ⟨v, hv⟩ := s.onRequestAt_eq p
  rw [hv]
  exact h.congr ⟨rfl, rfl, rfl⟩ fun _ _ => rfl

theorem State.Issued.allPhases (h : s.Issued n e acc u) : (s.allPhases n).Issued n e acc u := by
  have hall := s.allPhases_allOn n
  refine h.congr ?_ fun a ha => hall.word a ?_ ?_
  · rw [hall.own]
    exact ⟨rfl, rfl, rfl⟩
  · rw [Bool.eq_false_iff, ne_eq, regroupWord_iff]
    simp only [Fld.addr, F.CL_ERR_E, F.CL_IOUT_U] at ha
    omega
  · simp only [Fld.addr, F.CL_ERR_E, F.CL_IOUT_U, F.CL_PHSTAT_HOLDALL] at ha ⊢
    omega

theorem State.Issued.holdStep (h : s.Issued n e acc u) : (s.holdStep n).Issued n e acc u := by
  unfold State.holdStep
  dsimp only
  split
  · exact h
  · split
    · exact h.updCl.setB _ _
    · exact h.updCl

theorem State.Issued.rotate (h : s.Issued n e acc u) (single : Bool) : (s.rotate n single).Issued n e acc u := by
  unfold State.rotate
  dsimp only
  refine State.Issued.setF ?_ _ _
  split
  · split
    · exact h.onRequestAt _
    · exact h
  · exact h

theorem State.Issued.phaseCount (h : s.Issued n e acc u) : (s.phaseCount n).Issued n e acc u := by
  unfold State.phaseCount
  extract_lets c nav m minPh r
  exact h.updCl

theorem State.Issued.updatePhases (h : s.Issued n e acc u) (x y : Int) : (s.updatePhases n x y).Issued n e acc u := by
  unfold State.updatePhases
  extract_lets apthr trig starts rot detected s₁ s₂
  have h₁ : s₁.Issued n e acc u := by
    unfold s₁
    split
    · exact h.allPhases
    · exact h.holdStep
  have h₂ : s₂.Issued n e acc u := h₁.when _ fun h => h.rotate _
  split
  · exact h
  · exact h₂.updCl.phaseCount

/-! ### Base samples, the ramp, the outer loops and the checkpoint -/

theorem State.Issued.baseSamples (h : s.Issued n e acc u) (v i : Rat) : ((s.telBase n v i).phaseBase n).Issued n e acc u := by
  obtain ⟨hown, -, hrest⟩ := s.baseSamples_spec n v i
  refine h.congr ?_ fun a _ => State.reg_ofRegs (congrArg State.regs hrest :) a
  rw [hown]
  exact ⟨rfl, rfl, rfl⟩

theorem State.Issued.advanceRamp (h : s.Issued n e acc u) : (s.advanceRamp n).Issued n e acc u := by
  unfold State.advanceRamp
  simp only [h.run]
  split
  · exact h.updCl.setB _ _
  · exact h

theorem State.Issued.outerLoops (h : s.Issued n e acc u) (vref : Nat) : (s.outerLoops n vref).Issued n e acc u := by
  unfold State.outerLoops
  extract_lets c big icl g ll tgt tr tr' lim x cap s₁ s₂
  have h₁ : s₁.Issued n e acc u := (h.setF n _).updCl
  have h₂ : s₂.Issued n e acc u := h₁.setB _ _
  split
  · exact h
  · split
    · exact h.updCl
    · exact h₂.when _ State.Issued.disturb

theorem State.Issued.diagWrite (h : s.Issued n e acc u) (w : Word) : (s.diagWrite w).Issued n e acc u := by
  unfold State.diagWrite
  extract_lets i stream s₁ s₂
  have h₁ : s₁.Issued n e acc u := h.congr ⟨rfl, rfl, rfl⟩ fun _ _ => rfl
  have h₂ : s₂.Issued n e acc u := h₁.when _ fun h => h.setBeyond (fl := F.CAP_DIAG_WRAP) _
  exact h₂.setBeyond (fl := F.CAP_DIAG_WIDX) _

theorem State.Issued.respond (h : s.Issued n e acc u) (x : Int) (vref : Nat) (y : Int) (i : Rat) :
    (s.respond n x vref y i).Issued n e acc u := by
  unfold State.respond
  dsimp only
  split
  · exact h
  · split
    · exact (h.diagWrite _).diagWrite _
    · split
      · exact h.updCl
      · exact h

theorem State.Issued.writeCheckpoint (h : s.Issued n e acc u) : (s.writeCheckpoint n).Issued n e acc u := by
  have hcheck := s.writeCheckpoint_checkpointed n
  refine h.congr hcheck.loop fun a ha => hcheck.rest.2 a ?_
  simp only [Fld.addr, F.CL_ERR_E, F.CL_IOUT_U, F.LE16_STAT_STATE, List.mem_singleton] at ha ⊢
  omega

/-! ### An update in regulation -/

/-- The cluster's own state with the currents of an update taken. -/
def ClusterSt.metered (i iLoad : Rat) (c : ClusterSt) : ClusterSt :=
  { c with iLast := i, iSum := c.iSum + i, iLoad := iLoad, noKick := false }

/-- The error of an update stored, and its currents taken. -/
def State.errorTaken (s : State) (n : Fin 16) (e : Int) (coarse : Bool) (i iLoad : Rat) : State :=
  ((s.setB F.CL_LSTAT_COARSE n coarse).setS F.CL_ERR_E n e).updCl n (ClusterSt.metered i iLoad)

/-- What of a cluster's registers and own state the error and the currents leave alone. -/
structure State.ErrorTaken (n : Fin 16) (e : Int) (s t : State) : Prop where
  run : (t.cl.get n).run = (s.cl.get n).run
  acc : (t.cl.get n).acc = (s.cl.get n).acc
  ePrev : (t.cl.get n).ePrev = (s.cl.get n).ePrev
  lw : (t.cl.get n).lw = (s.cl.get n).lw
  injI : (t.cl.get n).injI = (s.cl.get n).injI
  err : t.fS F.CL_ERR_E n = e
  word : ∀ a, a ≠ F.CL_LSTAT_COARSE.addr n → a ≠ F.CL_ERR_E.addr n → t.reg a = s.reg a

theorem State.errorTaken_errorTaken (s : State) (n : Fin 16) {e : Int} (he : -32767 ≤ e ∧ e ≤ 32767) (coarse : Bool) (i iLoad : Rat) :
    s.ErrorTaken n e (s.errorTaken n e coarse i iLoad) := by
  have herr := (s.setB F.CL_LSTAT_COARSE n coarse).fS_setS_self (fl := F.CL_ERR_E) (by decide) n e
  have hword (a : Nat) (hl : a ≠ F.CL_LSTAT_COARSE.addr n) (he : a ≠ F.CL_ERR_E.addr n) :
      ((s.setB F.CL_LSTAT_COARSE n coarse).setS F.CL_ERR_E n e).reg a = s.reg a :=
    (State.reg_setS_ne _ he).trans (s.reg_setB_ne hl)
  have hcl : ((s.setB F.CL_LSTAT_COARSE n coarse).setS F.CL_ERR_E n e).cl = s.cl := rfl
  unfold State.errorTaken
  generalize (s.setB F.CL_LSTAT_COARSE n coarse).setS F.CL_ERR_E n e = r at *
  have hown := r.updCl_get_self n (ClusterSt.metered i iLoad)
  have hregs := r.updCl_regs n (ClusterSt.metered i iLoad)
  generalize r.updCl n (ClusterSt.metered i iLoad) = t at *
  rw [hcl] at hown
  have hkept {β : Type} (π : ClusterSt → β) (hπ : ∀ c, π (ClusterSt.metered i iLoad c) = π c) : π (t.cl.get n) = π (s.cl.get n) :=
    (congrArg π hown).trans (hπ _)
  refine ⟨hkept ClusterSt.run fun _ => rfl, hkept ClusterSt.acc fun _ => rfl, hkept ClusterSt.ePrev fun _ => rfl,
    hkept ClusterSt.lw fun _ => rfl, hkept ClusterSt.injI fun _ => rfl, ?_,
    fun a hl he => (State.reg_ofRegs hregs a).trans (hword a hl he)⟩
  exact (congrArg (toSigned F.CL_ERR_E.w) (State.f_ofRegs hregs _ _)).trans
    (herr.trans (toSigned_ofSigned (w := 15) (by omega) (by omega)))

/-- Another field of a cluster reads as before. -/
theorem State.ErrorTaken.f (h : s.ErrorTaken n e t) {fl : Fld}
    (hf : fl.ofCluster ∧ fl.base ≠ F.CL_LSTAT_COARSE.base ∧ fl.base ≠ F.CL_ERR_E.base := by decide) : t.f fl n = s.f fl n :=
  congrArg fl.get (h.word _ (hf.1.addr_ne (g := F.CL_LSTAT_COARSE) (by decide) hf.2.1 n n)
    (hf.1.addr_ne (g := F.CL_ERR_E) (by decide) hf.2.2 n n))

theorem State.ErrorTaken.uLo (h : s.ErrorTaken n e t) : t.uLo n = s.uLo n := by
  have hdirect := State.fB_ofF (h.f (fl := F.CL_FSW_DIRECT))
  simp only [State.uLo, State.fS, hdirect, h.f (fl := F.CL_IRLIM_IRMIN)]

theorem State.ErrorTaken.uHi (h : s.ErrorTaken n e t) : t.uHi n = s.uHi n := by
  have hdirect := State.fB_ofF (h.f (fl := F.CL_FSW_DIRECT))
  simp only [State.uHi, State.maxOn, hdirect, h.f (fl := F.CL_IRLIM_IRMAX), h.f (fl := F.CL_FSW_MAXON),
    h.f (fl := F.CL_FSW_PERIOD)]

theorem State.ErrorTaken.loopGain (h : s.ErrorTaken n e t) (x : Int) : t.loopGain n x = s.loopGain n x := by
  have hgain (k : Nat) : t.reg (0x4000 + k) = s.reg (0x4000 + k) := by
    refine h.word _ ?_ ?_
    · simp only [Fld.addr, F.CL_LSTAT_COARSE]
      omega
    · simp only [Fld.addr, F.CL_ERR_E]
      omega
  simp only [State.loopGain, h.f (fl := F.CL_GCFG_SP), Nat.add_assoc, hgain]

/-- What the update issues is what the state before the error was stored gives. -/
theorem State.ErrorTaken.accNext (h : s.ErrorTaken n e t) (x : Int) : t.accNext n x = s.accNext n x := by
  simp only [State.accNext, h.acc, h.f (fl := F.CL_GAIN_KI)]

theorem State.ErrorTaken.outNext (h : s.ErrorTaken n e t) (x : Int) : t.outNext n x = s.outNext n x := by
  simp only [State.outNext, h.uLo, h.uHi, h.loopGain, h.f (fl := F.CL_GAIN_KD), h.ePrev, h.accNext, h.injI]

/-- No warning is in force: it ends in no way (R143). -/
theorem State.leadStep_none (h : (s.cl.get n).lw = 0) (x : Int) (i : Rat) : s.leadStep n x i = (s, 0) := by
  simp only [State.leadStep, h, if_true]

theorem State.injStep_stopped (h : s.fB F.CL_INJ_EN n = false) : s.injStep n = s := by
  simp only [State.injStep, h, Bool.not_false, if_true]

theorem State.takeSet_same (h : s.f F.CL_VSET_S n = (s.cl.get n).sForce) : s.takeSet n = s := by
  simp only [State.takeSet, h, if_true]

/-- acc and u issued. -/
theorem State.issued_of_errorTaken (h : s.ErrorTaken n e t) (hrun : (s.cl.get n).run = .on) (hu : -2 ^ 31 ≤ u ∧ u ≤ 2 ^ 31 - 1) :
    ((t.setS F.CL_IOUT_U n u).updCl n (fun c => { c with acc := acc, ePrev := e, lwAdder := 0 })).Issued n e acc u := by
  have hown := (t.setS F.CL_IOUT_U n u).updCl_get_self n (fun c => { c with acc := acc, ePrev := e, lwAdder := 0 })
  have hregs := (t.setS F.CL_IOUT_U n u).updCl_regs n (fun c => { c with acc := acc, ePrev := e, lwAdder := 0 })
  generalize (t.setS F.CL_IOUT_U n u).updCl n (fun c => { c with acc := acc, ePrev := e, lwAdder := 0 }) = x at *
  have hne : F.CL_ERR_E.addr n ≠ F.CL_IOUT_U.addr n :=
    Fld.ofCluster.addr_ne (f := F.CL_ERR_E) (g := F.CL_IOUT_U) (by decide) (by decide) (by decide) n n
  refine ⟨(congrArg ClusterSt.run hown).trans (h.run.trans hrun), congrArg ClusterSt.ePrev hown, congrArg ClusterSt.acc hown, ?_, ?_⟩
  · exact (congrArg (toSigned F.CL_ERR_E.w) ((State.f_ofRegs hregs _ _).trans (t.f_setS_ne hne))).trans h.err
  · exact (congrArg (toSigned F.CL_IOUT_U.w) (State.f_ofRegs hregs _ _)).trans
      ((t.fS_setS_self (by decide) n u).trans (toSigned_ofSigned (w := 31) (by omega) (by omega)))

end Sys2Proof.Machine
end

section
/-! THE STATEMENT ON THE LOOP ENGINES' COMMANDS (O11). -/

namespace Sys2Proof.Machine

variable {s : State} {n : Fin 16}

/-- An update in regulation issues e, acc and u, and what follows in it leaves them (R125 to R130). -/
theorem State.loopStep_issued (hrun : (s.cl.get n).run = .on) (hset : s.f F.CL_VSET_S n = (s.cl.get n).sForce)
    (hlw : (s.cl.get n).lw = 0) (hinj : s.fB F.CL_INJ_EN n = false) (hkick : (s.cl.get n).noKick = false)
    (fine : List (BitVec 12)) (coarse : BitVec 10) {e : Int} (he : (loopError (s.f F.CL_VSTAT_VREFEFF n) fine coarse).1 = e) :
    (s.loopStep n fine coarse).Issued n e (s.accNext n e) (s.outNext n e) := by
  unfold State.loopStep
  rw [State.takeSet_same hset]
  extract_lets s₁ i vref er e' ePrev s₂ iLoad s₃ ls s₄ c sum acc wrapped u₀ u s₅ s₆ s₇ s₈ s₉ g v s₁₀ s₁₁ c₂ vr s₁₂
    s₁₃
  have hprev : ePrev = (s.cl.get n).ePrev := if_neg (ne_true_of_eq_false hkick)
  have hbounds := loopError_bounds vref fine coarse
  have he' : e' = e := he
  have h₃ : s.ErrorTaken n e s₃ := he' ▸ s.errorTaken_errorTaken n hbounds er.2 i iLoad
  have hls : ls = (s₃, 0) := State.leadStep_none (h₃.lw.trans hlw) e' iLoad
  clear_value s₃ ls ePrev e'
  subst hls he' hprev
  have h₄ : s₄ = s₃ := State.injStep_stopped ((State.fB_ofF h₃.f).trans hinj)
  clear_value s₄
  subst h₄
  have hacc : acc = s₄.accNext n e' := congrArg (BitVec.ofInt 48) (Int.add_zero _)
  have hterm : c.lw + c.injI = (s₄.cl.get n).injI := (congrArg (· + c.injI) (h₃.lw.trans hlw)).trans (Int.zero_add _)
  have hu : u = s₄.outNext n e' := by
    unfold u u₀
    rw [hacc, hterm, State.outNext, h₃.ePrev]
  have hlimits := clampI_bounds (s₄.uLo_bounds n) (s₄.uHi_bounds n) (roundAway u₀)
  have h₅ : s₅.Issued n e' acc u := State.issued_of_errorTaken h₃ hrun hlimits
  rw [← h₃.accNext, ← h₃.outNext, ← hacc, ← hu]
  clear_value u acc s₅
  have h₆ : s₆.Issued n e' acc u := h₅.when _ fun h => (h.setB n true).disturb
  have h₇ : s₇.Issued n e' acc u := h₆.when _ fun h => (h.setB n true).disturb
  have h₈ : s₈.Issued n e' acc u := h₇.when _ fun h => (h.setB n true).disturb
  have h₁₀ : s₁₀.Issued n e' acc u := (h₈.updatePhases _ _).baseSamples v i
  have h₁₁ : s₁₁.Issued n e' acc u := h₁₀.advanceRamp.outerLoops vref
  have h₁₃ : s₁₃.Issued n e' acc u := ((h₁₁.setF n vr.toNat).respond _ _ _ _).writeCheckpoint
  have hon : ¬((s₁₃.cl.get n).run = .softStop && decide ((s₁₃.cl.get n).vramp = 0)) := by simp [h₁₃.run]
  rw [if_neg hon]
  exact h₁₃

theorem exec_loopUpdate_on (htick : (s.cl.get n).ticking = true) (hok : s.engineOk n = true) (hrun : (s.cl.get n).run = .on)
    (fine : List (BitVec 12)) (coarse : BitVec 10) : exec (.loopUpdate n fine coarse) s = .next (s.loopStep n fine coarse) := by
  have hsw : s.switching n = true := by simp [State.switching, hrun]
  change execLoopUpdate n fine coarse s = _
  simp only [execLoopUpdate, htick, hok, hsw, Bool.not_true, Bool.or_self, Bool.false_eq_true, if_false, if_true]

/-- Settles O11: the updates of a cluster off and in regulation, the set-point, the lead warnings, and the host's writes of SUSP and of
CLn_INJ. -/
theorem loopCommandsComplete : Obligations.LoopCommandsComplete := by
  unfold Obligations.LoopCommandsComplete
  refine ⟨fun s n fine coarse htick hok hrun => loopUpdate_off htick hok hrun fine coarse,
    fun s n fine coarse htick hok hrun hset _ hlw hinj hkick => ?_,
    fun s p n v hopen hcheck => vsetWrite_completes hopen v hcheck,
    fun s pin w n hpin hrun hheard hlw hl hu => leadWarning_acted hpin hrun hheard hlw hl hu,
    fun s pin w n hpin hrun hheard h => leadWarning_invalid hpin hrun hheard h,
    fun s p n hopen => leadSuspendClear_completes hopen n,
    fun s p n v hopen hin hv hoff hfree hdev hrun hdone hrange => injectionEnable_starts hopen hin hv hoff hfree hdev hrun hdone hrange,
    fun s p n v hopen hin hv hoff => injectionEnable_stopped hopen hin hv hoff⟩
  have h := State.loopStep_issued hrun hset hlw hinj hkick fine coarse rfl
  exact ⟨_, exec_loopUpdate_on htick hok hrun fine coarse, h.err, h.ePrev, h.acc, h.out, h.run⟩

end Sys2Proof.Machine
end

section
/-! SUPPORT. The raise of any source: its bit, its report, and the status words that it may latch (R269, R338). -/

namespace Sys2Proof.Machine

variable {s t : State}

/-- The pages' HST_PSTAT, which a raise may latch (R338). -/
def statusWords : List Nat := (List.range 19).map (0x3210 + ·)

theorem mem_statusWords {a : Nat} : a ∈ statusWords ↔ 0x3210 ≤ a ∧ a < 0x3223 := by
  simp only [statusWords, List.mem_map, List.mem_range]
  exact ⟨by omega, fun h => ⟨a - 0x3210, by omega⟩⟩

theorem State.onlyRegs.latch (h : s.onlyRegs t statusWords) {fl : Fld} {page : Nat} (hp : page < 19) (bits : Nat)
    (hf : fl.base = 0x3210 ∧ fl.stride = 1 := by decide) : s.onlyRegs (t.latch fl page bits) statusWords :=
  h.setF (mem_statusWords.mpr (by rw [Fld.addr, hf.1, hf.2]; omega)) _

theorem State.latchStatus_onlyRegs (s : State) (src : Nat) : s.onlyRegs (s.latchStatus src) statusWords := by
  have hcl : src % 16 < 19 := by omega
  have hs := State.onlyRegs.refl s statusWords
  unfold State.latchStatus
  simp only [Bool.and_eq_true, decide_eq_true_eq]
  split
  · exact hs.latch hcl _
  split
  · exact hs.latch hcl _
  split
  · exact hs.latch hcl _
  split
  · exact hs.latch hcl _
  split
  · exact hs.latch hcl _
  split
  case isTrue =>
    have hfeed : 16 + (src - 0x240) / 8 < 19 := by omega
    split
    · exact hs.latch hfeed _
    split
    · exact hs.latch hfeed _
    split
    · exact hs.latch hfeed _
    · exact hs
  split
  · refine State.each_keeps (P := fun t => s.onlyRegs t statusWords) s (fun t f h => ?_) feeds3 hs
    exact State.when_ind (P := fun t => s.onlyRegs t statusWords) h _ fun h => h.latch (by omega) _
  · exact hs

/-- A raise leaves its source true; beside reports it changes nothing. -/
theorem State.raise_reports (s : State) {src : Nat} (h : src < 0x2E0) :
    (s.raise src).srcBit src = true ∧ s.reportsOnly (s.raise src) [] := by
  unfold State.raise
  split
  case isTrue hb => exact ⟨(Bool.and_eq_true_iff.mp hb).2, State.reportsOnly.refl s []⟩
  case isFalse =>
    have hlatch := (s.setSrcBit src true).latchStatus_onlyRegs src
    have hword : F.SUPV_SRC_SRC.addr (src / 32) ∉ statusWords := by
      simp only [mem_statusWords, Fld.addr, F.SUPV_SRC_SRC]
      omega
    have hframe : { (s.setSrcBit src true).latchStatus src with regs := s.regs } = s :=
      congrArg (fun x : State => { x with regs := s.regs }) hlatch.1
    refine ⟨?_, ?_, fun a _ ha => ?_⟩
    · exact (congrArg (Nat.testBit · (src % 32)) (hlatch.f hword)).trans (s.srcBit_setSrcBit_self src true)
    · exact congrArg (fun x : State => { x with sup := { x.sup with pend := s.sup.pend } }) hframe
    · have hne : a ≠ F.SUPV_SRC_SRC.addr (src / 32) := by
        rintro rfl
        simp [reportWord, Fld.addr, F.SUPV_SRC_SRC] at ha
        omega
      have hout : a ∉ statusWords := by
        intro hm
        have hstat := mem_statusWords.mp hm
        simp [reportWord, hstat] at ha
      exact (hlatch.2 a hout).trans (State.reg_setFBit_ne s hne)

/-- A record changes its staging, its SEQ and the lost count. -/
theorem State.recordSrc_spec (s : State) (src sub : Nat) (items : List Word) :
    { s.recordSrc src sub items with regs := s.regs, owl := s.owl } = s ∧
      ∀ a, a ≠ 0x2E01 → a ≠ 0x2E02 → (s.recordSrc src sub items).reg a = s.reg a := by
  unfold State.recordSrc State.record
  split
  · exact ⟨rfl, fun a hlost _ => State.reg_incF_ne s hlost⟩
  · exact ⟨rfl, fun a _ hseq => State.reg_setReg_ne _ hseq _⟩

end Sys2Proof.Machine
end

section
/-! SUPPORT. The balance trims (R155): a stored trim reads back, within TRIMMAX, and a balance step changes no other word. -/

namespace Sys2Proof.Machine

variable {s t : State} {n : Fin 16}

/-! ### Stored trims -/

theorem trimFld_spec (k : Nat) : (trimFld k).fits ∧ (trimFld k).w = 16 ∧ (trimFld k).addr = F.CL_BTRIM_TLO.addr := by
  unfold trimFld
  split <;> exact ⟨by decide, rfl, rfl⟩

theorem trimFld_apart {j k : Nat} (h : j % 2 ≠ k % 2) : (trimFld k).apart (trimFld j) := by
  unfold trimFld
  rcases Nat.mod_two_eq_zero_or_one k with hk | hk
  · have hj : j % 2 = 1 := by omega
    rw [hk, hj]
    decide
  · have hj : j % 2 = 0 := by omega
    rw [hk, hj]
    decide

/-- The words of a cluster's trims. -/
def trimWords (n : Fin 16) : List Nat := (List.range 8).map (fun j => F.CL_BTRIM_TLO.addr n + j)

theorem mem_trimWords {a : Nat} : a ∈ trimWords n ↔ F.CL_BTRIM_TLO.addr n ≤ a ∧ a < F.CL_BTRIM_TLO.addr n + 8 := by
  simp only [trimWords, List.mem_map, List.mem_range]
  exact ⟨by omega, fun h => ⟨a - F.CL_BTRIM_TLO.addr n, by omega⟩⟩

theorem State.onlyRegs.setTrim (h : s.onlyRegs t (trimWords n)) (k : Nat) (v : Int) : s.onlyRegs (t.setTrim n k v) (trimWords n) := by
  refine h.setReg (mem_trimWords.mpr ?_) _
  rw [(trimFld_spec k).2.2]
  omega

theorem State.trim_setTrim_self (s : State) (n : Fin 16) {j k : Nat} (h : j % 16 = k % 16) {v : Int} (hl : -2 ^ 15 ≤ v) (hu : v < 2 ^ 15) :
    (s.setTrim n k v).trim n j = v := by
  obtain ⟨hfit, hw, -⟩ := trimFld_spec k
  have hfld : trimFld j = trimFld k := by
    have hpar : j % 2 = k % 2 := by omega
    rw [trimFld, trimFld, hpar]
  rw [State.trim, State.setTrim, hfld, h, State.reg_setReg_self, Fld.get_insert_self _ hfit, hw]
  exact toSigned_ofSigned hl hu

theorem State.trim_setTrim_ne (s : State) (n : Fin 16) {j k : Nat} (h : j % 16 ≠ k % 16) (v : Int) :
    (s.setTrim n k v).trim n j = s.trim n j := by
  obtain ⟨hfit, -, haddr⟩ := trimFld_spec j
  obtain ⟨-, -, kaddr⟩ := trimFld_spec k
  rw [State.trim, State.trim, State.setTrim, haddr, kaddr]
  by_cases hword : j % 16 / 2 = k % 16 / 2
  · rw [hword, State.reg_setReg_self, Fld.get_insert_apart _ _ hfit (trimFld_apart (by omega))]
  · rw [State.reg_setReg_ne s (by omega)]

/-- Trims stored within a bound stand within it. -/
theorem State.eachTrim_bounded {lim : Nat} (hlim : lim < 2 ^ 15) {v : Nat × Int → Int} (hv : ∀ x, -(lim : Int) ≤ v x ∧ v x ≤ lim)
    (l : List (Nat × Int)) (s : State) (n : Fin 16) :
    ∀ x ∈ l, ((s.each l (fun s x => s.setTrim n x.1 (v x))).trim n x.1).natAbs ≤ lim := by
  have hstored (t : State) (x : Nat × Int) {j : Nat} (h : j % 16 = x.1 % 16) : ((t.setTrim n x.1 (v x)).trim n j).natAbs ≤ lim := by
    obtain ⟨hl, hu⟩ := hv x
    rw [t.trim_setTrim_self n h (by omega) (by omega)]
    omega
  refine State.each_establishes (Q := fun (x : Nat × Int) t => (t.trim n x.1).natAbs ≤ lim) (fun t x => hstored t x rfl)
    (fun t x y hy => ?_) l s
  by_cases h : y.1 % 16 = x.1 % 16
  · exact hstored t x h
  · rwa [t.trim_setTrim_ne n h]

/-! ### The balance step -/

/-- A balance step is taken: the cluster runs and balances, and nothing makes it skip this one. -/
def State.balanceTaken (s : State) (n : Fin 16) : Bool :=
  (s.switching n && !s.fB F.CL_BAL_ROT n && s.f F.CL_BAL_KBAL n != 0) &&
    !((s.cl.get n).run == .softStart || s.fB F.CL_PHSTAT_HOLDALL n || (s.cl.get n).balSkip
      || (s.activePhases n).any (fun p => (s.ph.get p).pkBal))

/-- The trims after a balance step, taken or skipped. -/
def State.balanced (s : State) (n : Fin 16) : State := if s.balanceTaken n then s.balance n else s

/-- The next balance step is skipped for what comes after this one alone. -/
def State.balRenewed (s : State) (n : Fin 16) : State := s.updCl n (fun c => { c with balSkip := false })

/-- The cluster's phases begin new accumulations. -/
def State.balCleared (s : State) (n : Fin 16) : State :=
  s.each (s.clPhases n) (fun s p => s.updPh p (fun u => { u with balAcc := (0, 0), pkBal := false }))

theorem exec_balanceStep (s : State) (n : Fin 16) :
    exec (.balanceStep n) s = .next (((s.balanced n).balRenewed n).balCleared n) := rfl

theorem State.balance_onlyRegs (s : State) (n : Fin 16) : s.onlyRegs (s.balance n) (trimWords n) :=
  State.each_keeps (P := fun t => s.onlyRegs t (trimWords n)) s (fun _ p h => h.setTrim p.1 _) _ (State.onlyRegs.refl s _)

theorem State.balanced_onlyRegs (s : State) (n : Fin 16) : s.onlyRegs (s.balanced n) (trimWords n) := by
  unfold State.balanced
  split
  · exact s.balance_onlyRegs n
  · exact State.onlyRegs.refl s _

/-- The configured phases of a cluster are a matter of the phases' words. -/
theorem State.clPhases_congr (h : ∀ a, 0x400 ≤ a ∧ a < 0x1000 → t.reg a = s.reg a) : t.clPhases n = s.clPhases n := by
  have hcfg (p : Fin 48) (fl : Fld) (hf : fl.ofPhase) : t.f fl p = s.f fl p := by
    obtain ⟨hs, hl, hu⟩ := hf
    exact congrArg fl.get (h _ (by rw [Fld.addr, hs]; omega))
  have hcl (p : Fin 48) : t.phCluster p = s.phCluster p :=
    State.phCluster_congr (State.fB_ofF (hcfg p F.PH_CFG_USED (by decide))) (hcfg p F.PH_CFG_CLUSTER (by decide))
  simp only [State.clPhases, hcl]

theorem State.onlyRegs.clPhases_ofTrims (h : s.onlyRegs t (trimWords n)) (k : Fin 16) : t.clPhases k = s.clPhases k :=
  State.clPhases_congr fun a ha => h.2 a fun hm => by
    have htrim := mem_trimWords.mp hm
    simp only [Fld.addr, F.CL_BTRIM_TLO] at htrim
    omega

/-- What beginning new accumulations brings about and leaves alone. -/
theorem State.balCleared_spec (s : State) (n : Fin 16) : { s.balCleared n with ph := s.ph } = s ∧
    (∀ p ∈ s.clPhases n, (s.balCleared n).ph.get p = { s.ph.get p with balAcc := (0, 0), pkBal := false }) ∧
    ∀ p, p ∉ s.clPhases n → (s.balCleared n).ph.get p = s.ph.get p := by
  have h := State.eachPh_spec id (fun _ _ u => { u with balAcc := (0, 0), pkBal := false }) (fun _ _ _ => rfl)
    (l := s.clPhases n) (by simpa using s.clPhases_nodup n) s
  rwa [List.map_id] at h

theorem balanceStep_completes (s : State) (n : Fin 16) : completes (.balanceStep n) s (fun t => (t.cl.get n).balSkip = false ∧
    (∀ p ∈ s.clPhases n, (t.ph.get p).balAcc = (0, 0) ∧ (t.ph.get p).pkBal = false) ∧
    (∀ p, p ∉ s.clPhases n → t.ph.get p = s.ph.get p) ∧ (∀ k, k ≠ n → t.cl.get k = s.cl.get k) ∧
    State.onlyRegs { s with cl := t.cl, ph := t.ph } t (trimWords n)) := by
  refine ⟨_, exec_balanceStep s n, ?_⟩
  have hb := s.balanced_onlyRegs n
  have hcl : (s.balanced n).cl = s.cl := hb.hidden fun _ _ => rfl
  have hph : ((s.balanced n).balRenewed n).ph = s.ph := hb.hidden (π := State.ph) fun _ _ => rfl
  have hmem : ((s.balanced n).balRenewed n).clPhases n = s.clPhases n := hb.clPhases_ofTrims n
  have hown : (((s.balanced n).balRenewed n).cl.get n).balSkip = false := congrArg ClusterSt.balSkip (State.updCl_get_self _ n _)
  have hother (k : Fin 16) (hk : k ≠ n) : ((s.balanced n).balRenewed n).cl.get k = s.cl.get k :=
    (State.updCl_get_ne _ hk _).trans (congrArg (·.get k) hcl)
  have hset : State.onlyRegs { s with cl := ((s.balanced n).balRenewed n).cl } ((s.balanced n).balRenewed n) (trimWords n) := hb.ofCl _
  generalize (s.balanced n).balRenewed n = r at *
  obtain ⟨hrest, hin, hout⟩ := r.balCleared_spec n
  rw [hmem] at hin hout
  have htcl : (r.balCleared n).cl = r.cl := (congrArg State.cl hrest :)
  refine ⟨by rw [htcl, hown], fun p hp => ?_, fun p hp => by rw [hout p hp, hph], fun k hk => by rw [htcl, hother k hk], ?_⟩
  · rw [hin p hp]
    exact ⟨rfl, rfl⟩
  · have hfin : r.balCleared n = { r with ph := (r.balCleared n).ph } :=
      congrArg (fun x : State => { x with ph := (r.balCleared n).ph }) hrest
    rw [htcl, hfin]
    exact hset.ofPh _

/-- Every active phase's trim is clamped to TRIMMAX (R155). -/
theorem State.balance_bounded (s : State) (n : Fin 16) :
    ∀ p ∈ s.activePhases n, ((s.balance n).trim n (s.order p)).natAbs ≤ 10 * s.f F.CL_BAL_TRIMMAX n := by
  have hmax : s.f F.CL_BAL_TRIMMAX n < 2 ^ 8 := s.f_lt F.CL_BAL_TRIMMAX n
  intro p hp
  unfold State.balance
  extract_lets act mean k raw t lim
  have hclamp (x : Nat × Int) : -((10 * s.f F.CL_BAL_TRIMMAX n : Nat) : Int) ≤ clampI (-lim) lim (x.2 - t) ∧
      clampI (-lim) lim (x.2 - t) ≤ ((10 * s.f F.CL_BAL_TRIMMAX n : Nat) : Int) := clampI_bounds (by omega) (by omega) _
  exact (State.eachTrim_bounded (by omega) hclamp raw s n _ (List.mem_map_of_mem hp) :)

theorem balanceStep_bounded (hrun : (s.cl.get n).run = .on) (hrot : s.fB F.CL_BAL_ROT n = false) (hk : s.f F.CL_BAL_KBAL n ≠ 0)
    (hhold : s.fB F.CL_PHSTAT_HOLDALL n = false) (hskip : (s.cl.get n).balSkip = false)
    (hpk : ∀ p ∈ s.activePhases n, (s.ph.get p).pkBal = false) : completes (.balanceStep n) s (fun t =>
      ∀ p ∈ s.activePhases n, (t.trim n (s.order p)).natAbs ≤ 10 * s.f F.CL_BAL_TRIMMAX n) := by
  have hnone : (s.activePhases n).any (fun p => (s.ph.get p).pkBal) = false :=
    List.any_eq_false.mpr fun p hp => Bool.not_eq_true _ ▸ hpk p hp
  have htaken : s.balanceTaken n = true := by
    simp [State.balanceTaken, State.switching, hrun, hrot, hk, hhold, hskip, hnone]
  refine ⟨_, exec_balanceStep s n, fun p hp => ?_⟩
  have hbal : s.balanced n = s.balance n := if_pos htaken
  have hregs : (((s.balanced n).balRenewed n).balCleared n).regs = (s.balance n).regs := by
    rw [← hbal]
    exact (congrArg State.regs (((s.balanced n).balRenewed n).balCleared_spec n).1 :)
  rw [State.trim, State.reg_ofRegs hregs]
  exact s.balance_bounded n p hp

end Sys2Proof.Machine
end

section
/-! SUPPORT. The slow overload limit (R159): its fourth sum above, its sixteenth below, and its timeout. -/

namespace Sys2Proof.Machine

variable {s t : State} {n : Fin 16}

/-- The counts of sums above and below the limit, as a comparison leaves them. -/
def ClusterSt.compared (above under : Nat) (c : ClusterSt) : ClusterSt := { c with olOver := Nat.min 4 above, olUnder := Nat.min 16 under }

/-- IOUT_OC_WARNING is latched, where CAPREQ is about to rise (R338). -/
def State.capWarned (s : State) (n : Fin 16) : State :=
  s.when (!s.fB F.CL_OLSTAT_CAPREQ n) (fun s => s.latch F.HST_PSTAT_IOUT n 0x20)

theorem State.capWarned_onlyRegs (s : State) (n : Fin 16) : s.onlyRegs (s.capWarned n) [F.HST_PSTAT_IOUT.addr n] := by
  have h := State.onlyRegs.refl s [F.HST_PSTAT_IOUT.addr n]
  exact State.when_ind (P := fun t => s.onlyRegs t [F.HST_PSTAT_IOUT.addr n]) h _ fun h => h.setF (List.mem_singleton_self _) _

/-- A fourth sum above the limit raises CAPREQ. -/
theorem exec_overloadCompare_fourth (hover : (s.cl.get n).olOver = 3)
    (hsum : 100 * (s.f F.CL_OLSTAT_OLIMEFF n : Rat) < sumQ ((s.clPhases n).map (fun p => (s.ph.get p).iCal))) : ∃ under,
      exec (.overloadCompare n) s =
        .next (((s.updCl n (ClusterSt.compared 4 under)).capWarned n).setB F.CL_OLSTAT_CAPREQ n true) := by
  refine ⟨if sumQ ((s.clPhases n).map (fun p => (s.ph.get p).iCal)) < 95 / 100 * (100 * (s.f F.CL_OLSTAT_OLIMEFF n : Rat))
    then (s.cl.get n).olUnder + 1 else 0, ?_⟩
  change execOverloadCompare n s = _
  simp only [execOverloadCompare, hover, if_pos hsum]
  rfl

theorem overloadCompare_fourth (hover : (s.cl.get n).olOver = 3)
    (hsum : 100 * (s.f F.CL_OLSTAT_OLIMEFF n : Rat) < sumQ ((s.clPhases n).map (fun p => (s.ph.get p).iCal))) :
    completes (.overloadCompare n) s (fun t => t.fB F.CL_OLSTAT_CAPREQ n = true ∧ (t.cl.get n).olOver = 4 ∧
      (s.fB F.CL_OLSTAT_CAPREQ n = false → (t.f F.HST_PSTAT_IOUT n).testBit 5 = true) ∧
      State.onlyRegs { s with cl := t.cl } t [F.CL_OLSTAT_CAPREQ.addr n, F.HST_PSTAT_IOUT.addr n]) := by
  obtain ⟨under, hexec⟩ := exec_overloadCompare_fourth hover hsum
  have hown : ((s.updCl n (ClusterSt.compared 4 under)).cl.get n).olOver = 4 := congrArg ClusterSt.olOver (s.updCl_get_self n _)
  have hreq : (s.updCl n (ClusterSt.compared 4 under)).fB F.CL_OLSTAT_CAPREQ n = s.fB F.CL_OLSTAT_CAPREQ n := rfl
  have hframe : { s with cl := (s.updCl n (ClusterSt.compared 4 under)).cl } = s.updCl n (ClusterSt.compared 4 under) := rfl
  generalize s.updCl n (ClusterSt.compared 4 under) = r at *
  have hwarn := r.capWarned_onlyRegs n
  have hcl : (r.capWarned n).cl = r.cl := hwarn.hidden fun _ _ => rfl
  refine ⟨_, hexec, State.fB_setB_self _ (by decide) rfl n true, ?_, fun hlow => ?_, ?_⟩
  · rw [State.setB_cl, hcl, hown]
  · have hne : F.HST_PSTAT_IOUT.addr n ≠ F.CL_OLSTAT_CAPREQ.addr n := by
      simp only [Fld.addr, F.HST_PSTAT_IOUT, F.CL_OLSTAT_CAPREQ]
      omega
    have hset : r.capWarned n = r.latch F.HST_PSTAT_IOUT n 0x20 := r.when_of_true (by rw [hreq, hlow, Bool.not_false]) _
    have hbit : Nat.testBit 0x20 5 = true := by decide
    rw [State.f_setB_ne _ hne, hset, State.latch, State.f_setF_self _ (by decide), Nat.testBit_mod_two_pow, Nat.testBit_or, hbit,
      Bool.or_true]
    rfl
  · rw [State.setB_cl, hcl, hframe]
    exact (hwarn.mono (List.subset_cons_self _ _)).setF (List.mem_cons_self ..) _

/-- A sixteenth sum below the limit's 95 % ends CAPREQ and the overload. -/
theorem exec_overloadCompare_sixteenth (hunder : (s.cl.get n).olUnder = 15)
    (hsum : sumQ ((s.clPhases n).map (fun p => (s.ph.get p).iCal)) < 95 / 100 * (100 * (s.f F.CL_OLSTAT_OLIMEFF n : Rat))) :
    exec (.overloadCompare n) s =
      .next (((s.updCl n (ClusterSt.compared 0 16)).setB F.CL_OLSTAT_CAPREQ n false).lower (Src.clOverload n)) := by
  have hlim : 0 ≤ (s.f F.CL_OLSTAT_OLIMEFF n : Rat) := Nat.cast_nonneg _
  have hnot : ¬ 100 * (s.f F.CL_OLSTAT_OLIMEFF n : Rat) < sumQ ((s.clPhases n).map (fun p => (s.ph.get p).iCal)) := by linarith
  change execOverloadCompare n s = _
  simp only [execOverloadCompare, hunder, if_pos hsum, if_neg hnot]
  rfl

theorem overloadCompare_sixteenth (hunder : (s.cl.get n).olUnder = 15)
    (hsum : sumQ ((s.clPhases n).map (fun p => (s.ph.get p).iCal)) < 95 / 100 * (100 * (s.f F.CL_OLSTAT_OLIMEFF n : Rat))) :
    completes (.overloadCompare n) s (fun t => t.fB F.CL_OLSTAT_CAPREQ n = false ∧ t.srcBit (Src.clOverload n) = false ∧
      State.onlyRegs { s with cl := t.cl } t [F.CL_OLSTAT_CAPREQ.addr n, F.SUPV_SRC_SRC.addr (Src.clOverload n / 32)]) := by
  refine ⟨_, exec_overloadCompare_sixteenth hunder hsum, ?_⟩
  have hframe : { s with cl := (s.updCl n (ClusterSt.compared 0 16)).cl } = s.updCl n (ClusterSt.compared 0 16) := rfl
  generalize s.updCl n (ClusterSt.compared 0 16) = r at *
  obtain ⟨hbit, hlow⟩ := (r.setB F.CL_OLSTAT_CAPREQ n false).lower_spec (Src.clOverload n)
  have hcl := hlow.hidden (π := State.cl) fun _ _ => rfl
  have hne : F.CL_OLSTAT_CAPREQ.addr n ∉ [F.SUPV_SRC_SRC.addr (Src.clOverload n / 32)] := by
    simp only [List.mem_singleton, Fld.addr, F.SUPV_SRC_SRC, F.CL_OLSTAT_CAPREQ, Src.clOverload]
    omega
  refine ⟨(State.fB_ofF (hlow.f hne)).trans (r.fB_setB_self (by decide) rfl n false), hbit, ?_⟩
  rw [hcl, State.setB_cl, hframe]
  exact (r.onlyRegs_setF F.CL_OLSTAT_CAPREQ n _).trans hlow

/-- CAPREQ that has stood for OLT is an overload. -/
theorem overloadTimeout_completes (hreq : s.fB F.CL_OLSTAT_CAPREQ n = true) : completes (.overloadTimeout n) s (fun t =>
    t.fB F.CL_OLSTAT_OVLD n = true ∧ t.srcBit (Src.clOverload n) = true ∧ s.reportsOnly t [F.CL_OLSTAT_OVLD.addr n]) := by
  have hexec : exec (.overloadTimeout n) s = .next ((s.setB F.CL_OLSTAT_OVLD n true).raise (Src.clOverload n)) := by
    change execOverloadTimeout n s = _
    rw [execOverloadTimeout, if_pos hreq]
  obtain ⟨hbit, hrest⟩ := (s.setB F.CL_OLSTAT_OVLD n true).raise_reports (src := Src.clOverload n) (by unfold Src.clOverload; omega)
  have hflag := hrest.f (fl := F.CL_OLSTAT_OVLD) (i := n) (Fld.ofCluster.reportWord (by decide) n) List.not_mem_nil
  exact ⟨_, hexec, (State.fB_ofF hflag).trans (s.fB_setB_self (by decide) rfl n true), hbit,
    (s.onlyRegs_setF F.CL_OLSTAT_OVLD n _).reportsOnly.trans hrest⟩

end Sys2Proof.Machine
end

section
/-! SUPPORT. A phase that has been taken out stays out (R162, R163): what removing a phase and turning clusters off never undo. -/

namespace Sys2Proof.Machine

variable {s t u : State} {n : Fin 16}

/-- An operation that starts no phase and puts none back: removals and their causes stand, an inactive phase stays inactive, an output at
the mid level stays there, and a true source of a phase stays true. -/
structure State.Stops (s t : State) : Prop where
  removal : ∀ a, 0x1000 ≤ a ∧ a < 0x2000 ∧ a % 0x100 = 0x27 → t.reg a = s.reg a
  inactive : ∀ p : Fin 48, s.fB F.PH_STAT_ACTIVE p = false → t.fB F.PH_STAT_ACTIVE p = false
  mid : ∀ p, (s.ph.get p).out = .mid → (t.ph.get p).out = .mid
  source : ∀ src, src < 0x120 → s.srcBit src = true → t.srcBit src = true

theorem State.Stops.refl (s : State) : s.Stops s := ⟨fun _ _ => rfl, fun _ => id, fun _ => id, fun _ _ => id⟩

theorem State.Stops.trans (h : s.Stops t) (k : t.Stops u) : s.Stops u where
  removal := fun a ha => (k.removal a ha).trans (h.removal a ha)
  inactive := fun p x => k.inactive p (h.inactive p x)
  mid := fun p x => k.mid p (h.mid p x)
  source := fun src hs x => k.source src hs (h.source src hs x)

/-- A removal and its cause read as before. -/
theorem State.Stops.phrem (h : s.Stops t) (n : Fin 16) (fl : Fld) (hf : fl.ofCluster ∧ fl.base = 0x1027) : t.f fl n = s.f fl n := by
  obtain ⟨⟨hs, -⟩, hb⟩ := hf
  exact congrArg fl.get (h.removal _ (by rw [Fld.addr, hs, hb]; omega))

/-! ### Stores -/

theorem State.Stops.hidden (h : s.Stops t) (hr : u.regs = t.regs) (hph : u.ph = t.ph) : s.Stops u where
  removal := fun a ha => (State.reg_ofRegs hr a).trans (h.removal a ha)
  inactive := fun p x => (State.fB_ofF (State.f_ofRegs hr _ _)).trans (h.inactive p x)
  mid := fun p x => hph ▸ h.mid p x
  source := fun src hs x => (congrArg (Nat.testBit · _) (State.f_ofRegs hr _ _)).trans (h.source src hs x)

/-- A store beside the removals, the phases' words and their sources. -/
theorem State.Stops.setReg (h : s.Stops t) {a : Nat}
    (ha : a < 0x240 ∨ 0x249 ≤ a ∧ a < 0x400 ∨ 0x1000 ≤ a ∧ (a < 0x2000 → a % 0x100 ≠ 0x27)) (w : Word) : s.Stops (t.setReg a w) where
  removal := fun b hb => by
    have hne : b ≠ a := by omega
    exact (State.reg_setReg_ne t hne w).trans (h.removal b hb)
  inactive := fun p x => by
    have hne : F.PH_STAT_ACTIVE.addr p ≠ a := by
      simp only [Fld.addr, F.PH_STAT_ACTIVE]
      omega
    exact (State.fB_setReg_ne t hne).trans (h.inactive p x)
  mid := h.mid
  source := fun src hs x => by
    have hne : F.SUPV_SRC_SRC.addr (src / 32) ≠ a := by
      simp only [Fld.addr, F.SUPV_SRC_SRC]
      omega
    exact (congrArg (Nat.testBit · _) (State.f_setReg_ne t hne)).trans (h.source src hs x)

theorem State.Stops.setCl (h : s.Stops t) (n : Fin 16) {fl : Fld} (v : Nat) (hf : fl.ofCluster ∧ fl.base ≠ 0x1027 := by decide) :
    s.Stops (t.setF fl n v) := by
  obtain ⟨⟨hs, hl, hu⟩, hb⟩ := hf
  refine h.setReg (Or.inr (Or.inr ?_)) _
  rw [Fld.addr, hs]
  omega

theorem State.Stops.clearActive (h : s.Stops t) (p : Fin 48) : s.Stops (t.setB F.PH_STAT_ACTIVE p false) where
  removal := fun a ha => by
    have hne : a ≠ F.PH_STAT_ACTIVE.addr p := by
      simp only [Fld.addr, F.PH_STAT_ACTIVE]
      omega
    exact (State.reg_setB_ne t hne).trans (h.removal a ha)
  inactive := fun q x => by
    by_cases e : q = p
    · rw [e]
      exact State.fB_setB_self t (by decide) rfl p false
    · have hne : F.PH_STAT_ACTIVE.addr q ≠ F.PH_STAT_ACTIVE.addr p := by
        simp only [Fld.addr, F.PH_STAT_ACTIVE]
        omega
      exact (State.fB_setB_ne t hne).trans (h.inactive q x)
  mid := h.mid
  source := fun src hs x => by
    have hne : F.SUPV_SRC_SRC.addr (src / 32) ≠ F.PH_STAT_ACTIVE.addr p := by
      simp only [Fld.addr, F.SUPV_SRC_SRC, F.PH_STAT_ACTIVE]
      omega
    exact (congrArg (Nat.testBit · _) (State.f_setB_ne t hne)).trans (h.source src hs x)

theorem State.Stops.updPh (h : s.Stops t) (p : Fin 48) {g : PhaseSt → PhaseSt} (hg : ∀ u, u.out = .mid → (g u).out = .mid) :
    s.Stops (t.updPh p g) where
  removal := h.removal
  inactive := h.inactive
  mid := fun q x => by
    by_cases e : q = p
    · rw [e, State.updPh_get_self]
      exact hg _ (h.mid p (e ▸ x))
    · rw [State.updPh_get_ne t e]
      exact h.mid q x
  source := h.source

theorem State.Stops.updCl (h : s.Stops t) (n : Fin 16) (g : ClusterSt → ClusterSt) : s.Stops (t.updCl n g) := h.hidden rfl rfl

theorem State.Stops.each {α : Type} (h : s.Stops t) (l : List α) {g : State → α → State}
    (hg : ∀ {u} x, s.Stops u → s.Stops (g u x)) : s.Stops (t.each l g) :=
  State.each_keeps (P := s.Stops) t (fun _ x hu => hg x hu) l h

theorem State.Stops.when (h : s.Stops t) (b : Bool) {g : State → State} (hg : ∀ {u}, s.Stops u → s.Stops (g u)) :
    s.Stops (t.when b g) :=
  State.when_ind (P := s.Stops) h b hg

/-! ### Sources and records -/

theorem State.Stops.raise (h : s.Stops t) {src : Nat} (hs : silentSource src) : s.Stops (t.raise src) := by
  have hreport := (t.raise_silent hs).2
  have hword (a : Nat) (ha : reportWord a = false) : (t.raise src).reg a = t.reg a := hreport.2 a List.not_mem_nil ha
  have hph : (t.raise src).ph = t.ph := hreport.hidden fun _ _ _ => rfl
  refine ⟨fun a ha => (hword a ?_).trans (h.removal a ha), fun p x => ?_, fun p x => hph ▸ h.mid p x, fun b hb x =>
    State.srcBit_raise_silent hs (h.source b hb x)⟩
  · simp [reportWord]
    omega
  · exact (State.fB_ofF (hreport.f (Fld.ofPhase.reportWord (by decide) p) List.not_mem_nil)).trans (h.inactive p x)

theorem State.Stops.lower (h : s.Stops t) {src : Nat} (hs : 0x120 ≤ src ∧ src < 0x2E0) : s.Stops (t.lower src) := by
  unfold State.lower
  split
  · refine h.setReg (Or.inr (Or.inl ?_)) _
    simp only [Fld.addr, F.SUPV_SRC_SRC]
    omega
  · exact h

theorem State.Stops.recordSrc (h : s.Stops t) (src sub : Nat) (items : List Word) : s.Stops (t.recordSrc src sub items) := by
  unfold State.recordSrc State.record
  split
  · exact h.setReg (a := 0x2E01) (by decide) _
  · refine State.Stops.setReg (a := 0x2E02) ?_ (by decide) _
    exact h.hidden rfl rfl

/-! ### The active set -/

theorem State.Stops.setTrim (h : s.Stops t) (n : Fin 16) (k : Nat) (v : Int) : s.Stops (t.setTrim n k v) := by
  refine h.setReg (Or.inr (Or.inr ?_)) _
  rw [(trimFld_spec k).2.2]
  simp only [Fld.addr, F.CL_BTRIM_TLO]
  omega

theorem State.Stops.fixPtr (h : s.Stops t) (n : Fin 16) : s.Stops (t.fixPtr n) := by
  unfold State.fixPtr
  dsimp only
  split
  · exact h
  · split
    · exact h.setCl n _
    · exact h.setCl n _

/-- An active set that no phase joins. -/
theorem State.Stops.setActiveList (h : s.Stops t) (n : Fin 16) {new : List Nat} (hsub : new ⊆ t.activePos n) :
    s.Stops (t.setActiveList n new) := by
  unfold State.setActiveList
  extract_lets old s₁ s₂ s₃ s₄
  have h₂ : s.Stops s₂ := (((h.setCl n _).setCl n _).setCl n _).updCl n _
  have h₃ : s.Stops s₃ := h₂.each _ fun k h => by
    dsimp only
    split
    · exact h.setTrim n k 0
    · exact ((h.setTrim n k 0).clearActive _).updPh _ fun u hu => by simp [hu]
  have hnone : new.filter (fun k => !old.contains k) = [] :=
    List.filter_eq_nil_iff.mpr fun k hk => by simp [old, hsub hk]
  have h₄ : s₄ = s₃ := by
    unfold s₄
    rw [hnone, State.each_nil]
  rw [h₄]
  exact h₃.fixPtr n

theorem State.Stops.leaveActive (h : s.Stops t) (n : Fin 16) (k : Nat) : s.Stops (t.leaveActive n k) := by
  unfold State.leaveActive
  dsimp only
  split
  · exact ((h.updCl n _).setActiveList n (List.filter_subset_self _)).updCl n _
  · exact h.updCl n _

theorem State.Stops.evalOlim (h : s.Stops t) (n : Fin 16) : s.Stops (t.evalOlim n) := (h.setCl n _).setCl n _

theorem State.Stops.evalPhloss (h : s.Stops t) (n : Fin 16) : s.Stops (t.evalPhloss n) := by
  have hloss := State.Stops.when h (decide (t.nAv n < t.f F.CL_PHFAIL_MINAV n)) (g := fun s => s.setB F.CL_OLSTAT_PHLOSS n true)
    fun h => h.setCl n _
  unfold State.evalPhloss State.follow
  dsimp only
  split
  · exact hloss.raise (by unfold Src.clPhloss; omega)
  · exact hloss.lower (by unfold Src.clPhloss; omega)

/-! ### Off -/

theorem State.Stops.injAbort (h : s.Stops t) (n : Fin 16) : s.Stops (t.injAbort n) := by
  unfold State.injAbort
  split
  · exact State.Stops.hidden ((h.setCl n (fl := F.CL_INJ_EN) false.toNat).setCl n (fl := F.CL_INJ_ABORT) true.toNat) rfl rfl
  · exact h

theorem State.Stops.endBlank (h : s.Stops t) (n : Fin 16) : s.Stops (t.endBlank n) := by
  unfold State.endBlank
  dsimp only
  refine State.Stops.updCl (State.Stops.setCl (State.Stops.when h _ fun {u} h => h.setReg (Or.inr (Or.inr ?_)) _) n _) n _
  simp only [Fld.addr, F.TM_CTRL_RUN]
  omega

theorem State.Stops.evalPwrgd (h : s.Stops t) : s.Stops t.evalPwrgd := by
  unfold State.evalPwrgd
  split
  · exact h.hidden rfl rfl
  · exact h

theorem State.Stops.clOff (h : s.Stops t) (n : Fin 16) : s.Stops (t.clOff n) := by
  unfold State.clOff
  split
  · exact h.updCl n _
  · extract_lets s₁ s₂ s₃ s₄ s₅ s₆ s₇ s₈ pins s₉
    have h₁ : s.Stops s₁ := h.injAbort n
    have h₂ : s.Stops s₂ := h₁.when _ fun {u} h =>
      State.Stops.setCl (State.Stops.setCl (State.Stops.hidden (u := u.draw.2) h rfl rfl) n _) n _
    have h₃ : s.Stops s₃ := h₂.each _ fun q h => (h.clearActive q).updPh q fun _ _ => rfl
    clear_value s₃
    have h₄ : s.Stops s₄ := ((h₃.setCl n _).setCl n _).setCl n _
    have h₅ : s.Stops s₅ := ((h₄.setCl n _).setCl n _).setCl n _
    have h₆ : s.Stops s₆ := State.Stops.lower (h₅.setCl n _) (by unfold Src.clOverload; omega)
    have h₈ : s.Stops s₈ := (h₆.endBlank n).updCl n _
    clear_value s₈
    exact (h₈.hidden (u := s₉) rfl rfl).evalPwrgd

theorem State.Stops.clCloff (h : s.Stops t) (n : Fin 16) : s.Stops (t.clCloff n) :=
  h.each _ fun k h => (h.clOff k).setReg (Or.inl (by decide)) _

end Sys2Proof.Machine
end

section
/-! SUPPORT. The phase monitor (R160, R162): a frame that meets no condition, and the third with both. -/

namespace Sys2Proof.Machine

variable {s t : State} {n : Fin 16} {k : Nat} {p : Fin 48}

/-! ### A frame that meets no condition -/

/-- The runs of both conditions end. -/
def PhaseSt.calm (u : PhaseSt) : PhaseSt := { u with openRun := 0, stuckRun := 0 }

/-- The judgement of a position that meets no condition. -/
def State.calmAt (n : Fin 16) (s : State) (k : Nat) : State :=
  match s.posPhase n k with
  | none => s
  | some p => s.updPh p PhaseSt.calm

theorem State.calmAt_eq (s : State) (n : Fin 16) (k : Nat) :
    s.calmAt n k = ((s.posPhase n k).elim s fun p => s.updPh p PhaseSt.calm) := by
  unfold State.calmAt
  cases s.posPhase n k <;> rfl

/-- Going through the positions is going through their phases. -/
theorem State.eachCalm_eq (n : Fin 16) (l : List Nat) (s : State) :
    s.each l (State.calmAt n) = s.each (l.filterMap (s.posPhase n)) (fun s p => s.updPh p PhaseSt.calm) := by
  induction l generalizing s with
  | nil => rfl
  | cons k l ih =>
    rw [State.each_cons, ih, State.calmAt_eq]
    cases h : s.posPhase n k with
    | none => rw [List.filterMap_cons_none h]; rfl
    | some p => rw [List.filterMap_cons_some h]; rfl

theorem exec_phaseMonitorFrame_calm (s : State) (n : Fin 16) (byCmp : BitVec 16) :
    exec (.phaseMonitorFrame n 0 0 byCmp) s = .next (s.each (s.activePhases n) (fun s p => s.updPh p PhaseSt.calm)) := by
  rw [State.activePhases, ← State.eachCalm_eq]
  change execPhaseMonitorFrame n 0 0 byCmp s = _
  unfold execPhaseMonitorFrame State.each
  dsimp only
  congr 2
  funext t k
  rw [State.calmAt_eq]
  have hzero : (0 : BitVec 16).getLsbD k = false := BitVec.getLsbD_zero
  cases t.posPhase n k with
  | none => rfl
  | some p =>
    simp only [hzero, Bool.false_and, Bool.false_eq_true, if_false, Nat.reduceLeDiff]
    rfl

theorem phaseMonitorFrame_calm (s : State) (n : Fin 16) (byCmp : BitVec 16) : completes (.phaseMonitorFrame n 0 0 byCmp) s (fun t =>
    (∀ p ∈ s.activePhases n, (t.ph.get p).openRun = 0 ∧ (t.ph.get p).stuckRun = 0) ∧
    (∀ p, p ∉ s.activePhases n → t.ph.get p = s.ph.get p) ∧ { t with ph := s.ph } = s) := by
  obtain ⟨hrest, hset, hkept⟩ := State.eachPh_spec id (fun _ _ => PhaseSt.calm) (fun _ _ _ => rfl)
    (l := s.activePhases n) (by simpa using s.activePhases_nodup n) s
  rw [List.map_id] at hkept
  exact ⟨_, exec_phaseMonitorFrame_calm s n byCmp,
    fun p hp => ⟨congrArg PhaseSt.openRun (hset p hp), congrArg PhaseSt.stuckRun (hset p hp)⟩, hkept, hrest⟩

/-! ### A phase removed -/

/-- What the removal of a phase brings about. -/
structure State.Removed (n : Fin 16) (p : Fin 48) (cause src : Nat) (s t : State) : Prop where
  removed : t.fBit F.CL_PHREM_REMMASK n (s.order p) = true
  cause : t.f F.CL_PHREM_CAUSE n = cause
  inactive : t.fB F.PH_STAT_ACTIVE p = false
  out : (t.ph.get p).out = .mid
  source : t.srcBit src = true

/-- The removal as CLn_PHREM shows it. -/
def State.removalShown (s : State) (n : Fin 16) (p : Fin 48) (k cause : Nat) : State :=
  (((s.setFBit F.CL_PHREM_REMMASK n k true).setF F.CL_PHREM_LASTPH n p).setF F.CL_PHREM_CAUSE n cause).setB F.CL_PHREM_NEWREM n true

theorem State.removalShown_spec (s : State) (n : Fin 16) (p : Fin 48) {k cause : Nat} (hk : k < 16) (hc : cause < 8) :
    (s.removalShown n p k cause).fBit F.CL_PHREM_REMMASK n k = true ∧ (s.removalShown n p k cause).f F.CL_PHREM_CAUSE n = cause := by
  unfold State.removalShown
  constructor
  · rw [State.fBit, State.f_setB_apart _ (by decide) (by decide), State.f_setF_apart _ (by decide) (by decide),
      State.f_setF_apart _ (by decide) (by decide)]
    exact s.fBit_setFBit_self (by decide) n hk true
  · rw [State.f_setB_apart _ (by decide) (by decide), State.f_setF_self _ (by decide)]
    exact Nat.mod_eq_of_lt hc

theorem State.removalShown_onlyRegs (s : State) (n : Fin 16) (p : Fin 48) (k cause : Nat) :
    s.onlyRegs (s.removalShown n p k cause) [F.CL_PHREM_REMMASK.addr n] := by
  have hmem (fl : Fld) (hf : fl.base = 0x1027 ∧ fl.stride = 0x100) : fl.addr n ∈ [F.CL_PHREM_REMMASK.addr n] := by
    rw [List.mem_singleton, Fld.addr, hf.1, hf.2, Fld.addr, F.CL_PHREM_REMMASK]
  have hmask := (State.onlyRegs.refl s _).setFBit (hmem F.CL_PHREM_REMMASK (by decide)) k true
  have hlast := hmask.setF (hmem F.CL_PHREM_LASTPH (by decide)) p
  have hcause := hlast.setF (hmem F.CL_PHREM_CAUSE (by decide)) cause
  exact hcause.setF (hmem F.CL_PHREM_NEWREM (by decide)) true.toNat

theorem State.removePhase_removed (hin : s.fBit F.CL_PHREM_REMMASK n (s.order p) = false) {cause src : Nat} (hc : cause < 8)
    (hs : src < 0x120) : s.Removed n p cause src (s.removePhase n p cause src) := by
  have horder : s.order p < 16 := s.f_lt F.PH_CFG_ORDER p
  unfold State.removePhase
  extract_lets k others s₁ s₂ s₃ s₄ s₅ s₆
  rw [if_neg (by simp [k, hin])]
  have hinactive : s₁.fB F.PH_STAT_ACTIVE p = false := s.fB_setB_self (by decide) rfl p false
  have hmid : (s₁.ph.get p).out = .mid := congrArg PhaseSt.out (State.updPh_get_self _ p _)
  obtain ⟨hrem, hcause⟩ := s₁.removalShown_spec n p horder hc
  have h₂ : s₂ = s₁.removalShown n p (s.order p) cause := rfl
  rw [← h₂] at hrem hcause
  have hne : F.PH_STAT_ACTIVE.addr p ∉ [F.CL_PHREM_REMMASK.addr n] := by
    simp only [List.mem_singleton, Fld.addr, F.PH_STAT_ACTIVE, F.CL_PHREM_REMMASK]
    omega
  have hinactive₂ : s₂.fB F.PH_STAT_ACTIVE p = false :=
    (State.fB_ofF ((s₁.removalShown_onlyRegs n p (s.order p) cause).f hne)).trans hinactive
  have hmid₂ : (s₂.ph.get p).out = .mid := hmid
  clear_value s₂
  have h₃ : s₂.Stops s₃ := (((State.Stops.refl s₂).setTrim n k 0).leaveActive n k).evalOlim n
  clear_value s₃
  have hsource : s₄.srcBit src = true := (s₃.raise_silent (Or.inl hs)).1
  have h₄ : s₂.Stops s₄ := h₃.raise (Or.inl hs)
  clear_value s₄
  have h₆ : s₄.Stops s₆ := ((State.Stops.refl s₄).recordSrc _ _ _).evalPhloss n
  clear_value s₆
  have hend : s₄.Stops (if s₆.nAv n = 0 then s₆.clCloff n else s₆) := by
    split
    · exact h₆.clCloff n
    · exact h₆
  have hall := h₄.trans hend
  exact {
    removed := (congrArg (Nat.testBit · _) (hall.phrem n F.CL_PHREM_REMMASK (by decide))).trans hrem
    cause := (hall.phrem n F.CL_PHREM_CAUSE (by decide)).trans hcause
    inactive := hall.inactive p hinactive₂
    out := hall.mid p hmid₂
    source := hend.source src hs hsource }

/-! ### The third frame with both conditions -/

theorem State.activePos_lt (h : k ∈ s.activePos n) : k < 16 := List.mem_range.mp (List.mem_of_mem_filter h)

/-- The third frame with both conditions removes the phase as open. -/
theorem exec_phaseMonitorFrame_third (hpos : s.activePos n = [k]) (hp : s.posPhase n k = some p) (hrun : (s.ph.get p).openRun = 2) :
    exec (.phaseMonitorFrame n (BitVec.ofNat 16 (2 ^ k)) 0 0) s =
      .next ((s.updPh p (fun u => { u with openRun := 3, stuckRun := 0 })).removePhase n p 1 (Src.phOpen p)) := by
  have hk : k < 16 := State.activePos_lt (s := s) (n := n) (hpos ▸ List.mem_singleton_self k)
  have hbit : (BitVec.ofNat 16 (2 ^ k)).getLsbD k = true := by
    rw [BitVec.getLsbD_ofNat, Nat.testBit_two_pow_self, decide_eq_true hk, Bool.and_true]
  have hzero : (0 : BitVec 16).getLsbD k = false := BitVec.getLsbD_zero
  change execPhaseMonitorFrame n (BitVec.ofNat 16 (2 ^ k)) 0 0 s = _
  simp only [execPhaseMonitorFrame, hpos, State.each_cons, State.each_nil, hp, hbit, hzero, hrun, if_true, Bool.false_and,
    Bool.false_eq_true, if_false, Nat.reduceAdd, Nat.le_refl]

theorem phaseMonitorFrame_third (hpos : s.activePos n = [k]) (hp : s.posPhase n k = some p) (hrun : (s.ph.get p).openRun = 2)
    (hin : s.fBit F.CL_PHREM_REMMASK n k = false) : completes (.phaseMonitorFrame n (BitVec.ofNat 16 (2 ^ k)) 0 0) s (fun t =>
      t.fBit F.CL_PHREM_REMMASK n k = true ∧ t.fB F.PH_STAT_ACTIVE p = false ∧ (t.ph.get p).out = .mid ∧
      t.f F.CL_PHREM_CAUSE n = 1 ∧ t.srcBit (Src.phOpen p) = true) := by
  have horder : s.order p = k := State.posPhase_order hp
  have hsame : (s.updPh p (fun u => { u with openRun := 3, stuckRun := 0 })).fBit F.CL_PHREM_REMMASK n (s.order p) = false :=
    (congrArg (s.fBit F.CL_PHREM_REMMASK n) horder).trans hin
  have h := State.removePhase_removed (s := s.updPh p (fun u => { u with openRun := 3, stuckRun := 0 })) hsame
    (cause := 1) (src := Src.phOpen p) (by decide) (by unfold Src.phOpen; omega)
  exact ⟨_, exec_phaseMonitorFrame_third hpos hp hrun, horder ▸ h.removed, h.inactive, h.out, h.cause, h.source⟩

end Sys2Proof.Machine
end

section
/-! SUPPORT. The failure of a loop engine with the spare free (R166 to R170): the takeover from a frame, and the spare's own failure. -/

namespace Sys2Proof.Machine

variable {s t u : State} {n : Fin 16}

/-! ### What the change of engines leaves alone -/

/-- An operation on one cluster's engine: the other clusters and the balls are as before, and a failed engine stays failed. -/
structure State.OneEngine (n : Fin 16) (s t : State) : Prop where
  others : ∀ k, k ≠ n → t.cl.get k = s.cl.get k
  failed : (s.cl.get n).leFailed = true → (t.cl.get n).leFailed = true
  pins : t.pins = s.pins

theorem State.OneEngine.refl (n : Fin 16) (s : State) : s.OneEngine n s := ⟨fun _ _ => rfl, id, rfl⟩

theorem State.OneEngine.trans (h : s.OneEngine n t) (k : t.OneEngine n u) : s.OneEngine n u :=
  ⟨fun j hj => (k.others j hj).trans (h.others j hj), fun x => k.failed (h.failed x), k.pins.trans h.pins⟩

theorem State.OneEngine.hidden (h : s.OneEngine n t) (hcl : u.cl = t.cl) (hpins : u.pins = t.pins) : s.OneEngine n u :=
  ⟨fun k hk => hcl ▸ h.others k hk, fun x => hcl ▸ h.failed x, hpins.trans h.pins⟩

theorem State.OneEngine.updCl (h : s.OneEngine n t) {g : ClusterSt → ClusterSt} (hg : ∀ c, c.leFailed = true → (g c).leFailed = true) :
    s.OneEngine n (t.updCl n g) where
  others := fun k hk => (t.updCl_get_ne hk g).trans (h.others k hk)
  failed := fun x => by
    rw [State.updCl_get_self]
    exact hg _ (h.failed x)
  pins := h.pins

theorem State.OneEngine.injAbort (h : s.OneEngine n t) : s.OneEngine n (t.injAbort n) := by
  unfold State.injAbort
  split
  · exact (h.hidden (u := ((t.setB F.CL_INJ_EN n false).setB F.CL_INJ_ABORT n true).unclaim 4 2 9) rfl rfl).updCl fun _ x => x
  · exact h

theorem State.fixPtr_cl (s : State) (n : Fin 16) : (s.fixPtr n).cl = s.cl ∧ (s.fixPtr n).pins = s.pins := by
  unfold State.fixPtr
  dsimp only
  split
  · exact ⟨rfl, rfl⟩
  · split <;> exact ⟨rfl, rfl⟩

/-- The trims that a frame loads are registers. -/
theorem State.loadTrims_oneEngine (h : s.OneEngine n t) (l : List Nat) (v : Nat → Int) :
    s.OneEngine n (t.each l (fun s k => s.setTrim n k (v k))) :=
  State.each_keeps (P := s.OneEngine n) t (fun t k h => h.hidden (u := t.setTrim n k (v k)) rfl rfl) l h

theorem State.loadFrame_oneEngine (s : State) (n : Fin 16) (w : List Word) (missed : Nat) : s.OneEngine n (s.loadFrame n w missed) := by
  unfold State.loadFrame
  extract_lets g c uper adder lwRamp lw vr tgt move ramping s₁ s₂ s₃
  have h₁ : s.OneEngine n s₁ := (State.OneEngine.refl n s).updCl fun _ x => x
  clear_value s₁
  have h₂ : s.OneEngine n s₂ := h₁.hidden rfl rfl
  have h₃ : s.OneEngine n s₃ := State.loadTrims_oneEngine h₂ _ _
  clear_value s₃
  obtain ⟨hcl, hpins⟩ := ((s₃.setReg (F.CL_IOUT_U.addr n) (g 28)).setF F.CL_ROT_PTR n (wbits (g 27) 0 4)).fixPtr_cl n
  exact h₃.hidden hcl hpins

/-! ### The failure reported -/

/-- The raise and the record of a failure leave LE16's status. -/
theorem State.failureReported_spec (s : State) {src : Nat} (h : src < 0x2E0) (sub : Nat) (items : List Word) :
    ((s.raise src).recordSrc src sub items).srcBit src = true ∧
    ((s.raise src).recordSrc src sub items).cl = s.cl ∧ ((s.raise src).recordSrc src sub items).pins = s.pins ∧
    ∀ fl : Fld, fl.base = 0x2000 ∧ fl.stride = 0 → ((s.raise src).recordSrc src sub items).f fl = s.f fl := by
  obtain ⟨hbit, hraise⟩ := s.raise_reports h
  obtain ⟨hrest, hword⟩ := (s.raise src).recordSrc_spec src sub items
  refine ⟨?_, (congrArg State.cl hrest :).trans (hraise.hidden fun _ _ _ => rfl),
    (congrArg State.pins hrest :).trans (hraise.hidden fun _ _ _ => rfl), fun fl hfl => ?_⟩
  · have hsrc := hword (F.SUPV_SRC_SRC.addr (src / 32)) (by simp only [Fld.addr, F.SUPV_SRC_SRC]; omega)
      (by simp only [Fld.addr, F.SUPV_SRC_SRC]; omega)
    exact (congrArg (fun w => (F.SUPV_SRC_SRC.get w).testBit (src % 32)) hsrc).trans hbit
  · have haddr : fl.addr 0 = 0x2000 := by rw [Fld.addr, hfl.1, hfl.2]
    have hstat : ((s.raise src).recordSrc src sub items).reg (fl.addr 0) = s.reg (fl.addr 0) := by
      rw [haddr, hword 0x2000 (by decide) (by decide), hraise.2 0x2000 List.not_mem_nil (by decide)]
    exact congrArg fl.get hstat

/-! ### The takeover -/

/-- LE16's status after a takeover (R168). -/
def State.takeoverShown (s : State) (n : Fin 16) (cause : Nat) (old : Bool) (missed gap : Nat) : State :=
  let s := (((s.setF F.LE16_STAT_STATE 0 1).setF F.LE16_STAT_CL 0 n).setF F.LE16_STAT_CAUSE 0 cause).setB F.LE16_STAT_OLDFRAME 0 old
  (s.setF F.LE16_STAT_MISSED 0 (Nat.min 63 missed)).setF F.LE16_STAT_GAP 0 gap

/-- What a takeover shows of itself. -/
structure State.ShowsTakeover (n : Fin 16) (cause : Nat) (old : Bool) (gap : Nat) (t : State) : Prop where
  state : t.f F.LE16_STAT_STATE = 1
  cl : t.f F.LE16_STAT_CL = n.val
  cause : t.f F.LE16_STAT_CAUSE = cause
  old : t.fB F.LE16_STAT_OLDFRAME = old
  gap : t.f F.LE16_STAT_GAP = gap

theorem State.ShowsTakeover.congr {cause gap : Nat} {old : Bool} (h : s.ShowsTakeover n cause old gap)
    (hf : ∀ fl : Fld, fl.base = 0x2000 ∧ fl.stride = 0 → t.f fl = s.f fl) : t.ShowsTakeover n cause old gap where
  state := (hf _ (by decide)).trans h.state
  cl := (hf _ (by decide)).trans h.cl
  cause := (hf _ (by decide)).trans h.cause
  old := (State.fB_ofF (hf _ (by decide))).trans h.old
  gap := (hf _ (by decide)).trans h.gap

theorem State.takeoverShown_shows (s : State) (n : Fin 16) {cause gap : Nat} (old : Bool) (missed : Nat) (hc : cause < 8)
    (hg : gap < 2 ^ 16) : (s.takeoverShown n cause old missed gap).ShowsTakeover n cause old gap := by
  unfold State.takeoverShown
  constructor
  · simp (disch := decide) only [State.f_setF_apart, State.f_setB_apart, State.f_setF_self]
    rfl
  · simp (disch := decide) only [State.f_setF_apart, State.f_setB_apart, State.f_setF_self]
    exact Nat.mod_eq_of_lt n.isLt
  · simp (disch := decide) only [State.f_setF_apart, State.f_setB_apart, State.f_setF_self]
    exact Nat.mod_eq_of_lt hc
  · simp (disch := decide) only [State.fB_setF_apart, State.fB_setB_self]
  · simp (disch := decide) only [State.f_setF_self]
    exact Nat.mod_eq_of_lt hg

/-- A takeover serves the cluster from its frame: its engine has failed, LE16 shows it, and no other cluster and no ball changes. -/
theorem State.takeover_spec (s : State) (n : Fin 16) {cause gap : Nat} (f : Frame) (old : Bool) (missed : Nat) (hc : cause < 8)
    (hg : gap < 2 ^ 16) : s.OneEngine n (s.takeover n cause f old missed gap) ∧
      ((s.takeover n cause f old missed gap).cl.get n).leFailed = true ∧
      (s.takeover n cause f old missed gap).ShowsTakeover n cause old gap := by
  unfold State.takeover
  extract_lets s₁ m s₂ s₃ s₄ s₅
  have h₁ : s.OneEngine n s₁ := (State.OneEngine.refl n s).updCl fun _ _ => rfl
  have hfailed : (s₁.cl.get n).leFailed = true := congrArg ClusterSt.leFailed (s.updCl_get_self n _)
  clear_value s₁
  have h₂ : s₁.OneEngine n s₂ := by
    unfold s₂
    split
    · exact (State.OneEngine.refl n s₁).updCl fun _ x => x
    · exact State.OneEngine.refl n s₁
  clear_value s₂
  have h₃ : s₁.OneEngine n s₃ := (h₂.trans (s₂.loadFrame_oneEngine n f.words missed)).injAbort
  clear_value s₃
  have hend : s₁.OneEngine n (s₅.setReg 0x2001 (f.words.getD 0 0)) := h₃.hidden rfl rfl
  have hshown := s₃.takeoverShown_shows n old missed hc hg
  refine ⟨h₁.trans hend, hend.failed hfailed, hshown.congr fun fl hfl => State.f_setReg_ne _ ?_⟩
  rw [Fld.addr, hfl.1, hfl.2]
  decide

/-! ### The spare's failure -/

/-- LE16's status where the spare has failed (R170). -/
def State.spareShown (s : State) (n : Fin 16) (cause : Nat) : State :=
  ((s.setF F.LE16_STAT_STATE 0 3).setF F.LE16_STAT_CL 0 n).setF F.LE16_STAT_CAUSE 0 cause

theorem State.spareShown_spec (s : State) (n : Fin 16) (cause : Nat) :
    (s.spareShown n cause).f F.LE16_STAT_STATE = 3 ∧ (s.spareShown n cause).f F.LE16_STAT_CL = n.val := by
  unfold State.spareShown
  constructor
  · simp (disch := decide) only [State.f_setF_apart, State.f_setF_self]
    rfl
  · simp (disch := decide) only [State.f_setF_apart, State.f_setF_self]
    exact Nat.mod_eq_of_lt n.isLt

theorem State.spareFail_spec (s : State) (n : Fin 16) (cause : Nat) : s.OneEngine n (s.spareFail n cause) ∧
    ((s.spareFail n cause).cl.get n).leFailed = true ∧ (s.spareFail n cause).f F.LE16_STAT_STATE = 3 ∧
    (s.spareFail n cause).f F.LE16_STAT_CL = n.val ∧ (s.spareFail n cause).srcBit Src.leSparefail = true := by
  obtain ⟨hstate, hcl⟩ := s.spareShown_spec n cause
  have h₁ : s.OneEngine n (s.spareShown n cause) := (State.OneEngine.refl n s).hidden rfl rfl
  unfold State.spareFail
  extract_lets s₁ s₂
  have hs₁ : s₁ = s.spareShown n cause := rfl
  rw [← hs₁] at h₁ hstate hcl
  clear_value s₁
  have hfailed : ((s₁.updCl n (fun c => { c with leFailed := true })).cl.get n).leFailed = true :=
    congrArg ClusterSt.leFailed (s₁.updCl_get_self n _)
  have h₂ : s.OneEngine n s₂ := (h₁.updCl fun _ _ => rfl).injAbort
  have hfailed₂ : (s₂.cl.get n).leFailed = true := (State.OneEngine.refl n _).injAbort.failed hfailed
  have hstat (fl : Fld) (hfl : clusterWord (fl.addr 0) = false) : s₂.f fl = s₁.f fl :=
    (((State.Local.refl s₁).updCl n _).injAbort n).f hfl
  clear_value s₂
  obtain ⟨hbit, hcl₂, hpins, hf⟩ :=
    s₂.failureReported_spec (src := Src.leSparefail) (by decide) 0 [item n, s₂.reg 0x2000, s₂.reg 0x2001]
  exact ⟨h₂.hidden hcl₂ hpins, hcl₂ ▸ hfailed₂, (hf _ (by decide)).trans ((hstat _ (by decide)).trans hstate),
    (hf _ (by decide)).trans ((hstat _ (by decide)).trans hcl), hbit⟩

/-! ### The command -/

/-- An ECC error or a lost heartbeat of an engine that had not failed, with the spare free: a frame that passed is taken over. -/
theorem State.engineFailure_taken (hstate : s.f F.LE16_STAT_STATE = 0) (hok : (s.cl.get n).leFailed = false) {code : Nat} (hcode : code < 3)
    {slotBad : Bool} {fr : Frame} {old : Bool} (hpick : (s.cl.get n).pickFrame slotBad true = some (fr, old)) (missed gap : Nat) :
    ∃ items, s.engineFailure n code slotBad missed gap =
      ((s.takeover n code fr old missed gap).raise (Src.leFail n)).recordSrc (Src.leFail n) 0 items := by
  have hnow : ¬ 4 ≤ code := by omega
  simp [State.engineFailure, hstate, hok, hnow, hcode, hpick]

/-- With no such frame the spare has failed. -/
theorem State.engineFailure_spareless (hstate : s.f F.LE16_STAT_STATE = 0) (hok : (s.cl.get n).leFailed = false) {code : Nat}
    (hcode : code < 3) {slotBad : Bool} (hpick : (s.cl.get n).pickFrame slotBad true = none) (missed gap : Nat) :
    s.engineFailure n code slotBad missed gap = s.spareFail n code := by
  have hnow : ¬ 4 ≤ code := by omega
  simp [State.engineFailure, hstate, hok, hnow, hcode, hpick]

theorem exec_loopEngineFailure (s : State) (n : Fin 16) (cause : Fin 5) (slotBad : Bool) (missed gap : BitVec 16) :
    exec (.loopEngineFailure n cause slotBad missed gap) s =
      .next (s.engineFailure n (cause.val + 1) slotBad missed.toNat gap.toNat) := rfl

theorem loopEngineFailure_taken {cause : Fin 5} {slotBad old : Bool} {fr : Frame} (hstate : s.f F.LE16_STAT_STATE = 0)
    (hok : (s.cl.get n).leFailed = false) (hcause : cause < (2 : Fin 5))
    (hpick : (s.cl.get n).pickFrame slotBad true = some (fr, old)) (missed gap : BitVec 16) :
    completes (.loopEngineFailure n cause slotBad missed gap) s (fun t =>
      t.f F.LE16_STAT_STATE = 1 ∧ t.f F.LE16_STAT_CL = n.val ∧ t.f F.LE16_STAT_CAUSE = cause.val + 1 ∧
      t.fB F.LE16_STAT_OLDFRAME = old ∧ (t.cl.get n).leFailed = true ∧ t.srcBit (Src.leFail n) = true ∧
      t.f F.LE16_STAT_GAP = gap.toNat ∧ (∀ k, k ≠ n → t.cl.get k = s.cl.get k) ∧ t.pins = s.pins) := by
  have hcode : cause.val + 1 < 3 := Nat.succ_lt_succ hcause
  obtain ⟨items, heq⟩ := State.engineFailure_taken hstate hok hcode hpick missed.toNat gap.toNat
  obtain ⟨hengine, hfailed, hshown⟩ := s.takeover_spec n fr old missed.toNat (cause := cause.val + 1) (by omega) gap.isLt
  refine ⟨_, exec_loopEngineFailure s n cause slotBad missed gap, ?_⟩
  rw [heq]
  generalize s.takeover n (cause.val + 1) fr old missed.toNat gap.toNat = r at *
  obtain ⟨hbit, hcl, hpins, hf⟩ := r.failureReported_spec (src := Src.leFail n) (by unfold Src.leFail; omega) 0 items
  have hshows := hshown.congr hf
  have hend := hengine.hidden hcl hpins
  exact ⟨hshows.state, hshows.cl, hshows.cause, hshows.old, hcl ▸ hfailed, hbit, hshows.gap, hend.others, hend.pins⟩

theorem loopEngineFailure_spareless {cause : Fin 5} {slotBad : Bool} (hstate : s.f F.LE16_STAT_STATE = 0)
    (hok : (s.cl.get n).leFailed = false) (hcause : cause < (2 : Fin 5)) (hpick : (s.cl.get n).pickFrame slotBad true = none)
    (missed gap : BitVec 16) : completes (.loopEngineFailure n cause slotBad missed gap) s (fun t =>
      t.f F.LE16_STAT_STATE = 3 ∧ t.f F.LE16_STAT_CL = n.val ∧ (t.cl.get n).leFailed = true ∧ t.srcBit Src.leSparefail = true ∧
      (∀ k, k ≠ n → t.cl.get k = s.cl.get k) ∧ t.pins = s.pins) := by
  have hcode : cause.val + 1 < 3 := Nat.succ_lt_succ hcause
  obtain ⟨hengine, hfailed, hspare, hcl, hbit⟩ := s.spareFail_spec n (cause.val + 1)
  refine ⟨_, exec_loopEngineFailure s n cause slotBad missed gap, ?_⟩
  rw [State.engineFailure_spareless hstate hok hcode hpick]
  exact ⟨hspare, hcl, hfailed, hbit, hengine.others, hengine.pins⟩

end Sys2Proof.Machine
end

section
/-! THE STATEMENT ON THE PHASES WITHIN A CLUSTER (O12). -/

namespace Sys2Proof.Machine

/-- Settles O12: the trims that a balance step stores, the counts of the overload limit, the positions that the phase monitor judges, and
the two ends of an engine's failure with the spare free. -/
theorem phaseGroupCommandsComplete : Obligations.PhaseGroupCommandsComplete := by
  unfold Obligations.PhaseGroupCommandsComplete
  exact ⟨balanceStep_completes,
    fun s n hrun hrot hk hhold hskip hpk => balanceStep_bounded hrun hrot hk hhold hskip hpk,
    fun s n hover hsum => overloadCompare_fourth hover hsum,
    fun s n hunder hsum => overloadCompare_sixteenth hunder hsum,
    fun s n hreq => overloadTimeout_completes hreq,
    phaseMonitorFrame_calm,
    fun s n k p hpos hp hrun hin => phaseMonitorFrame_third hpos hp hrun hin,
    fun s n cause slotBad missed gap fr old hstate hok hcause hpick => loopEngineFailure_taken hstate hok hcause hpick missed gap,
    fun s n cause slotBad missed gap hstate hok hcause hpick => loopEngineFailure_spareless hstate hok hcause hpick missed gap⟩

end Sys2Proof.Machine
end

section
/-! SUPPORT. Rounding half away from zero, and the powers of two of LINEAR11's exponents (R125, R191). -/

namespace Sys2Proof.Machine

variable {q : Rat} {m e : Int}

/-! ### Rounding half away from zero -/

theorem absQ_eq_abs (q : Rat) : absQ q = |q| := by
  unfold absQ
  split
  case isTrue h => exact (abs_of_neg h).symm
  case isFalse h => exact (abs_of_nonneg (not_lt.mp h)).symm

theorem roundAway_of_nonneg (h : 0 ≤ q) : roundAway q = ⌊q + 1 / 2⌋ := if_neg (not_lt.mpr h)

theorem roundAway_of_neg (h : q < 0) : roundAway q = -⌊-q + 1 / 2⌋ := if_pos h

theorem roundAway_neg (q : Rat) : roundAway (-q) = -roundAway q := by
  rcases lt_trichotomy q 0 with h | rfl | h
  · rw [roundAway_of_neg h, roundAway_of_nonneg (by linarith), neg_neg]
  · decide +kernel
  · rw [roundAway_of_neg (by linarith), roundAway_of_nonneg h.le, neg_neg]

/-- A number rounds to at most `m` where it lies below `m` and a half. -/
theorem roundAway_le_iff (hm : 0 ≤ m) : roundAway q ≤ m ↔ q < m + 1 / 2 := by
  have hm' : (0 : Rat) ≤ m := by exact_mod_cast hm
  rcases lt_or_ge q 0 with h | h
  · have hfloor : 0 ≤ ⌊-q + 1 / 2⌋ := Int.floor_nonneg.mpr (by linarith)
    rw [roundAway_of_neg h]
    exact ⟨fun _ => by linarith, fun _ => by omega⟩
  · rw [roundAway_of_nonneg h, ← Int.lt_add_one_iff, Int.floor_lt]
    push_cast
    constructor <;> intro _ <;> linarith

theorem le_roundAway_iff (hm : 0 ≤ m) : -m ≤ roundAway q ↔ -(m + 1 / 2 : Rat) < q := by
  have h := roundAway_le_iff (q := -q) hm
  rw [roundAway_neg] at h
  rw [neg_le, h, neg_lt]

/-- Rounding moves a number by at most a half. -/
theorem abs_roundAway_sub_le (q : Rat) : |(roundAway q : Rat) - q| ≤ 1 / 2 := by
  have hpos {r : Rat} (h : 0 ≤ r) : |(roundAway r : Rat) - r| ≤ 1 / 2 := by
    have hlo := Int.sub_one_lt_floor (r + 1 / 2)
    have hhi := Int.floor_le (r + 1 / 2)
    rw [roundAway_of_nonneg h, abs_le]
    constructor <;> linarith
  rcases le_total 0 q with h | h
  · exact hpos h
  · have hneg := hpos (neg_nonneg.mpr h)
    rwa [roundAway_neg, Int.cast_neg, neg_sub_neg, abs_sub_comm] at hneg

/-- From 511.75 on, rounding loses at most 1/1,025 of a number. -/
theorem abs_roundAway_sub_mul_le (h : 511.75 ≤ |q|) : |(roundAway q : Rat) - q| * 1025 ≤ |q| := by
  have hpos {r : Rat} (h : 511.75 ≤ r) : |(roundAway r : Rat) - r| * 1025 ≤ r := by
    have hint : 512 ≤ roundAway r := by
      have hnot : ¬roundAway r ≤ 511 := by
        rw [roundAway_le_iff (by decide)]
        norm_num at h ⊢
        linarith
      omega
    have hcast : (512 : Rat) ≤ roundAway r := by exact_mod_cast hint
    obtain ⟨hlo, hhi⟩ := abs_le.mp (abs_roundAway_sub_le r)
    norm_num at h
    rcases le_total (roundAway r : Rat) r with hle | hle
    · rw [abs_of_nonpos (by linarith)]
      linarith
    · rw [abs_of_nonneg (by linarith)]
      rcases eq_or_lt_of_le hint with heq | hlt
      · rw [← heq]
        push_cast
        linarith
      · have hcast' : (513 : Rat) ≤ roundAway r := by exact_mod_cast hlt
        linarith
  rcases le_total 0 q with hq | hq
  · rw [abs_of_nonneg hq] at h ⊢
    exact hpos h
  · rw [abs_of_nonpos hq] at h ⊢
    have hneg := hpos h
    rwa [roundAway_neg, Int.cast_neg, neg_sub_neg, abs_sub_comm] at hneg

/-! ### Powers of two -/

theorem pow2_eq_zpow (e : Int) : pow2 e = (2 : Rat) ^ e := by
  unfold pow2
  split
  case isTrue h =>
    obtain ⟨n, rfl⟩ := Int.eq_ofNat_of_zero_le h
    simp
  case isFalse h =>
    obtain ⟨n, hn⟩ := Int.eq_ofNat_of_zero_le (neg_nonneg.mpr (not_le.mp h).le)
    obtain rfl : e = -n := by omega
    simp

theorem pow2_pos (e : Int) : 0 < pow2 e := by
  rw [pow2_eq_zpow]
  positivity

theorem pow2_pred (e : Int) : pow2 (e - 1) = pow2 e / 2 := by
  rw [pow2_eq_zpow, pow2_eq_zpow, zpow_sub_one₀ two_ne_zero, div_eq_mul_inv]

theorem pow2_mono {d : Int} (h : d ≤ e) : pow2 d ≤ pow2 e := by
  rw [pow2_eq_zpow, pow2_eq_zpow]
  exact zpow_le_zpow_right₀ one_le_two h

/-! ### Signed fields -/

theorem ofSigned_lt (w : Nat) (v : Int) : ofSigned w v < 2 ^ w := by
  have hpos : (0 : Int) < ((2 ^ w : Nat) : Int) := by positivity
  have hlt := Int.emod_lt_of_pos v hpos
  have hge := Int.emod_nonneg v hpos.ne'
  unfold ofSigned
  omega

/-- A signed field reads the number it was made of. -/
theorem toSigned_ofSigned_self {w : Nat} {v : Int} (hl : -2 ^ w ≤ v) (hu : v < 2 ^ w) : toSigned (w + 1) (ofSigned (w + 1) v) = v := by
  have h := toSigned_ofSigned hl hu
  rwa [Nat.mod_eq_of_lt (ofSigned_lt _ _)] at h

end Sys2Proof.Machine
end

section
/-! SUPPORT. LINEAR11 (R191): the exponents at which a mantissa fits, and the word of the smallest. -/

namespace Sys2Proof.Machine

variable {x : Rat} {e y : Int}

/-- The mantissa at an exponent, rounded, lies within 11 bits. -/
abbrev Linear11Fits (x : Rat) (e : Int) : Prop := -1024 ≤ roundAway (x / pow2 e) ∧ roundAway (x / pow2 e) ≤ 1023

theorem linear11Fits_iff : Linear11Fits x e ↔ -(1024 + 1 / 2 : Rat) < x / pow2 e ∧ x / pow2 e < 1023 + 1 / 2 := by
  have hlo := le_roundAway_iff (q := x / pow2 e) (m := 1024) (by decide)
  have hhi := roundAway_le_iff (q := x / pow2 e) (m := 1023) (by decide)
  push_cast at hlo hhi
  rw [Linear11Fits, hlo, hhi]

/-- An exponent and a mantissa as a word. -/
def linear11Word (e y : Int) : Nat := ofSigned 5 e * 2048 + ofSigned 11 y

theorem linear11Word_lt (e y : Int) : linear11Word e y < 65536 := by
  have he : ofSigned 5 e < 32 := ofSigned_lt 5 e
  have hy : ofSigned 11 y < 2048 := ofSigned_lt 11 y
  unfold linear11Word
  omega

theorem linear11Word_exponent (hl : -16 ≤ e) (hu : e ≤ 15) (y : Int) : toSigned 5 (linear11Word e y / 2048) = e := by
  have hy : ofSigned 11 y < 2048 := ofSigned_lt 11 y
  have hdiv : linear11Word e y / 2048 = ofSigned 5 e := by
    unfold linear11Word
    omega
  rw [hdiv]
  exact toSigned_ofSigned_self (w := 4) (by omega) (by omega)

theorem linear11Word_mantissa (hl : -1024 ≤ y) (hu : y ≤ 1023) (e : Int) : toSigned 11 (linear11Word e y % 2048) = y := by
  have hy : ofSigned 11 y < 2048 := ofSigned_lt 11 y
  have hmod : linear11Word e y % 2048 = ofSigned 11 y := by
    unfold linear11Word
    omega
  rw [hmod]
  exact toSigned_ofSigned_self (w := 10) (by omega) (by omega)

/-- A word with a mantissa is not the one that R191 leaves out. -/
theorem linear11Word_ne (hl : -1024 ≤ y) (hu : y ≤ 1023) (hy : y ≠ 0) (e : Int) : linear11Word e y ≠ 0x8000 := by
  intro h
  have hm := linear11Word_mantissa hl hu e
  rw [h] at hm
  exact hy hm.symm

/-- The place of the smallest exponent that fits, in the order of the search. -/
def linear11Place (x : Rat) : Option Nat :=
  (List.range 32).find? (fun (k : Nat) => decide (-1024 ≤ roundAway (x / pow2 ((k : Int) - 16))) &&
    decide (roundAway (x / pow2 ((k : Int) - 16)) ≤ 1023))

theorem linear11Place_of_least {k : Nat} (hk : k < 32) (hfit : Linear11Fits x (k - 16))
    (hleast : ∀ j < k, ¬Linear11Fits x ((j : Int) - 16)) : linear11Place x = some k := by
  rw [linear11Place, List.find?_range_eq_some]
  refine ⟨by simpa using hfit, List.mem_range.mpr hk, fun j hj => ?_⟩
  simpa only [Linear11Fits, Bool.not_eq_true', Bool.and_eq_false_iff, decide_eq_false_iff_not, not_and_or] using hleast j hj

theorem linear11Place_of_none (h : ∀ k : Nat, k < 32 → ¬Linear11Fits x ((k : Int) - 16)) : linear11Place x = none := by
  rw [linear11Place, List.find?_eq_none]
  intro j hj
  simpa only [Linear11Fits, Bool.and_eq_true, decide_eq_true_eq] using h j (List.mem_range.mp hj)

/-- The word of the smallest exponent that fits. -/
theorem linear11_of_least {k : Nat} (hk : k < 32) (hfit : Linear11Fits x (k - 16)) (hleast : ∀ j < k, ¬Linear11Fits x ((j : Int) - 16)) :
    linear11 x = if roundAway (x / pow2 (k - 16)) = 0 then 0 else linear11Word (k - 16) (roundAway (x / pow2 (k - 16))) := by
  have hplace := linear11Place_of_least hk hfit hleast
  unfold linear11Place at hplace
  simp only [linear11, hplace]
  rfl

/-- Where none fits, the word is the end of the range on the number's side. -/
theorem linear11_of_none (h : ∀ k : Nat, k < 32 → ¬Linear11Fits x ((k : Int) - 16)) :
    linear11 x = linear11Word 15 (if x < 0 then -1024 else 1023) := by
  have hplace := linear11Place_of_none h
  unfold linear11Place at hplace
  simp only [linear11, hplace]
  rfl

theorem exists_least_linear11Fits {k : Nat} (hk : k < 32) (h : Linear11Fits x (k - 16)) :
    ∃ k : Nat, k < 32 ∧ Linear11Fits x ((k : Int) - 16) ∧ ∀ j < k, ¬Linear11Fits x ((j : Int) - 16) := by
  have hex : ∃ j : Nat, Linear11Fits x ((j : Int) - 16) := ⟨k, h⟩
  exact ⟨Nat.find hex, (Nat.find_min' hex h).trans_lt hk, Nat.find_spec hex, fun j hj => Nat.find_min hex hj⟩

/-! ### The loss and the spans, for the smallest exponent -/

/-- Above the lowest exponent the mantissa's magnitude is more than 511, for the exponent below does not fit. -/
theorem span_of_not_fits (h : ¬Linear11Fits x (e - 1)) : 511.75 * pow2 e ≤ x ∨ 512.25 * pow2 e ≤ -x := by
  have hp := pow2_pos e
  rw [linear11Fits_iff, pow2_pred, not_and_or, not_lt, not_lt, div_div_eq_mul_div, div_le_iff₀ hp, le_div_iff₀ hp] at h
  norm_num at h ⊢
  rcases h with h | h
  · right; linarith
  · left; linarith

theorem Linear11Fits.span (h : Linear11Fits x e) : x < 1023.5 * pow2 e ∧ -x < 1024.5 * pow2 e := by
  have hp := pow2_pos e
  rw [linear11Fits_iff, lt_div_iff₀ hp, div_lt_iff₀ hp] at h
  norm_num at h ⊢
  constructor <;> linarith

/-- The error of a value is that of its mantissa, in units of the exponent. -/
theorem mantissa_error (x : Rat) (e : Int) :
    absQ ((roundAway (x / pow2 e) : Rat) * pow2 e - x) = |(roundAway (x / pow2 e) : Rat) - x / pow2 e| * pow2 e := by
  have hp := pow2_pos e
  have hscale : (roundAway (x / pow2 e) : Rat) * pow2 e - x = ((roundAway (x / pow2 e) : Rat) - x / pow2 e) * pow2 e := by
    field_simp
  rw [absQ_eq_abs, hscale, abs_mul, abs_of_pos hp]

theorem mantissa_loss (x : Rat) (e : Int) : absQ ((roundAway (x / pow2 e) : Rat) * pow2 e - x) ≤ pow2 (e - 1) := by
  have hscaled := mul_le_mul_of_nonneg_right (abs_roundAway_sub_le (x / pow2 e)) (pow2_pos e).le
  rw [mantissa_error, pow2_pred]
  linarith

theorem mantissa_relative_loss (h : ¬Linear11Fits x (e - 1)) :
    absQ ((roundAway (x / pow2 e) : Rat) * pow2 e - x) * 1025 ≤ absQ x := by
  have hp := pow2_pos e
  have hbig : 511.75 ≤ |x / pow2 e| := by
    rw [abs_div, abs_of_pos hp, le_div_iff₀ hp]
    rcases span_of_not_fits h with hx | hx
    · exact hx.trans (le_abs_self x)
    · refine le_trans ?_ (hx.trans (neg_le_abs x))
      norm_num
      linarith
  have hloss := abs_roundAway_sub_mul_le hbig
  rw [abs_div, abs_of_pos hp, le_div_iff₀ hp] at hloss
  rw [mantissa_error, absQ_eq_abs, mul_right_comm]
  exact hloss

theorem mantissa_large (h : ¬Linear11Fits x (e - 1)) : 512 ≤ roundAway (x / pow2 e) ∨ roundAway (x / pow2 e) ≤ -512 := by
  have hp := pow2_pos e
  by_contra hnot
  rw [not_or, not_le, not_le] at hnot
  have hlo := (le_roundAway_iff (q := x / pow2 e) (m := 511) (by decide)).mp (by omega)
  have hhi := (roundAway_le_iff (q := x / pow2 e) (m := 511) (by decide)).mp (by omega)
  rw [lt_div_iff₀ hp] at hlo
  rw [div_lt_iff₀ hp] at hhi
  rcases span_of_not_fits h with hx | hx <;> norm_num at hlo hhi hx <;> linarith

/-! ### Beyond the range -/

/-- A magnitude beyond the range of the highest exponent fits no lower one. -/
theorem not_linear11Fits_of_large (h : 1023 < roundAway (x / pow2 15) ∨ roundAway (x / pow2 15) < -1024) (he : e ≤ 15) :
    ¬Linear11Fits x e := by
  intro hfit
  have hp := pow2_pos e
  obtain ⟨hhi, hlo⟩ := hfit.span
  have hmono := pow2_mono he
  have hspan : Linear11Fits x 15 := by
    rw [linear11Fits_iff, lt_div_iff₀ (pow2_pos 15), div_lt_iff₀ (pow2_pos 15)]
    norm_num at hhi hlo ⊢
    constructor <;> linarith
  obtain ⟨hl, hu⟩ := hspan
  omega

theorem linear11_of_large (h : 1023 < roundAway (x / pow2 15) ∨ roundAway (x / pow2 15) < -1024) :
    linear11 x = linear11Word 15 (if x < 0 then -1024 else 1023) :=
  linear11_of_none fun _ _ => not_linear11Fits_of_large h (by omega)

/-- Every word is a small value's 0, the word of an exponent and a mantissa that is not 0, or an end of the range. -/
theorem linear11_cases (x : Rat) : linear11 x = 0 ∨
    ∃ e y : Int, -1024 ≤ y ∧ y ≤ 1023 ∧ y ≠ 0 ∧ linear11 x = linear11Word e y := by
  by_cases hex : ∃ k : Nat, k < 32 ∧ Linear11Fits x ((k : Int) - 16)
  · obtain ⟨k, hk, hfit⟩ := hex
    obtain ⟨k, hk, hfit, hleast⟩ := exists_least_linear11Fits hk hfit
    have hword := linear11_of_least hk hfit hleast
    by_cases hy : roundAway (x / pow2 ((k : Int) - 16)) = 0
    · exact .inl (by rw [hword, if_pos hy])
    · exact .inr ⟨_, _, hfit.1, hfit.2, hy, by rw [hword, if_neg hy]⟩
  · have hnone := linear11_of_none (x := x) fun k hk hfit => hex ⟨k, hk, hfit⟩
    refine .inr ⟨15, if x < 0 then -1024 else 1023, ?_, ?_, ?_, hnone⟩ <;> split <;> decide

theorem linear11_valid (x : Rat) : linear11 x < 65536 ∧ linear11 x ≠ 0x8000 := by
  rcases linear11_cases x with h | ⟨e, y, hl, hu, hy, h⟩ <;> rw [h]
  · decide
  · exact ⟨linear11Word_lt e y, linear11Word_ne hl hu hy e⟩

theorem linear11_of_small (h : roundAway (x / pow2 (-16)) = 0) : linear11 x = 0 := by
  have hfit : Linear11Fits x ((0 : Nat) - 16) := by
    rw [Linear11Fits, show ((0 : Nat) : Int) - 16 = -16 from rfl, h]
    decide
  rw [linear11_of_least (by decide) hfit (by simp)]
  exact if_pos h

/-- The word of a value that is neither too small nor beyond the range (R191). -/
theorem linear11_inRange (hsmall : roundAway (x / pow2 (-16)) ≠ 0) (hfit : Linear11Fits x 15) :
    ∃ e : Int, -16 ≤ e ∧ e ≤ 15 ∧ linear11 x = linear11Word e (roundAway (x / pow2 e)) ∧ Linear11Fits x e ∧
      ∀ j : Int, -16 ≤ j → j < e → ¬Linear11Fits x j := by
  obtain ⟨k, hk, hfit, hleast⟩ := exists_least_linear11Fits (x := x) (k := 31) (by decide) hfit
  have hbelow : ∀ j : Int, -16 ≤ j → j < k - 16 → ¬Linear11Fits x j := fun j hj hlt => by
    have hnat := hleast (j + 16).toNat (by omega)
    rwa [Int.toNat_of_nonneg (by omega), add_sub_cancel_right] at hnat
  have hne : roundAway (x / pow2 (k - 16)) ≠ 0 := by
    rcases Nat.eq_zero_or_pos k with rfl | hpos
    · exact hsmall
    · have := mantissa_large (hbelow (k - 16 - 1) (by omega) (by omega))
      omega
  exact ⟨k - 16, by omega, by omega, by rw [linear11_of_least hk hfit hleast, if_neg hne], hfit, hbelow⟩

end Sys2Proof.Machine
end

section
/-! THE STATEMENT ON LINEAR11 (O48). -/

namespace Sys2Proof.Machine

/-- Settles O48: the smallest exponent at which the mantissa fits, and the bounds of half-away rounding at it and just below it. -/
theorem linear11EncodesAsTheRuleSays : Obligations.Linear11EncodesAsTheRuleSays := by
  unfold Obligations.Linear11EncodesAsTheRuleSays
  refine ⟨linear11_valid, fun x => linear11_of_small, fun x hsmall hlo hhi => ?_, fun x h => ?_, fun x h => ?_⟩
  · obtain ⟨e, hel, heu, hword, hfit, hleast⟩ := linear11_inRange hsmall ⟨hlo, hhi⟩
    have hbelow (h : -16 < e) : ¬Linear11Fits x (e - 1) := hleast (e - 1) (by omega) (by omega)
    obtain ⟨hspan, hspan'⟩ := hfit.span
    have hp := pow2_pos e
    refine ⟨e, roundAway (x / pow2 e), ?_, ?_, hel, heu, rfl, hfit.1, hfit.2, fun j hj hlt => ?_, mantissa_loss x e,
      fun h => ⟨mantissa_large (hbelow h), mantissa_relative_loss (hbelow h)⟩, fun hx => ⟨hspan, fun h => ?_⟩,
      fun hx => ⟨hspan', fun h => ?_⟩⟩
    · rw [hword, linear11Word_exponent hel heu]
    · rw [hword, linear11Word_mantissa hfit.1 hfit.2]
    · have hnot := hleast j hj hlt
      rwa [Linear11Fits, not_and_or, not_le, not_le] at hnot
    · rcases span_of_not_fits (hbelow h) with hle | hle
      · exact hle
      · norm_num at hle
        linarith
    · rcases span_of_not_fits (hbelow h) with hle | hle
      · norm_num at hle
        linarith
      · exact hle
  · have hx : ¬x < 0 := fun hneg => by
      have hle := (roundAway_le_iff (q := x / pow2 15) (m := 1023) (by decide)).mpr
        ((div_neg_of_neg_of_pos hneg (pow2_pos 15)).trans (by norm_num))
      omega
    rw [linear11_of_large (.inl h), if_neg hx]
    rfl
  · have hx : x < 0 := by
      by_contra hnot
      have hge := (le_roundAway_iff (q := x / pow2 15) (m := 1024) (by decide)).mpr
        (lt_of_lt_of_le (by norm_num) (div_nonneg (not_lt.mp hnot) (pow2_pos 15).le))
      omega
    rw [linear11_of_large (.inr h), if_pos hx]
    rfl

end Sys2Proof.Machine
end

section
/-! SUPPORT. Telemetry blocks (R188 to R190): the means shown from a block's sums, and the min and max registers that follow them. -/

namespace Sys2Proof.Machine

variable {s t : State} {l : List Nat}

/-! ### Frames beside the feeds -/

theorem State.updFd_get_self (s : State) (f : Fin 4) (g : FeedSt → FeedSt) : (s.updFd f g).fd.get f = g (s.fd.get f) :=
  get_set_self s.fd f _

theorem State.updFd_get_ne (s : State) {f k : Fin 4} (h : k ≠ f) (g : FeedSt → FeedSt) : (s.updFd f g).fd.get k = s.fd.get k :=
  get_set_ne s.fd h _

/-- The frame of registers does not read the feeds' hidden state. -/
theorem State.onlyRegs.ofFd (h : s.onlyRegs t l) (v : Vector FeedSt 4) :
    State.onlyRegs { s with fd := v } { t with fd := v } l := ⟨congrArg (fun x : State => { x with fd := v }) h.1, h.2⟩

/-! ### Min and max -/

theorem State.onlyRegs.holdMin (h : s.onlyRegs t l) {a : Nat} (ha : a ∈ l) (v : Int) : s.onlyRegs (t.holdMin a v) l := by
  unfold State.holdMin
  split
  · exact h.setReg ha _
  · exact h

theorem State.onlyRegs.holdMax (h : s.onlyRegs t l) {a : Nat} (ha : a ∈ l) (v : Int) : s.onlyRegs (t.holdMax a v) l := by
  unfold State.holdMax
  split
  · exact h.setReg ha _
  · exact h

/-- The lowest and highest of the block means, from word `m` on. -/
def State.extremesHeld (s : State) (m : Nat) (v i p : Int) : State :=
  (((s.holdMin m v).holdMax (m + 1) v).holdMax (m + 2) i).holdMax (m + 3) p

theorem State.onlyRegs.extremesHeld (h : s.onlyRegs t l) {m : Nat} (hm : ∀ k < 4, m + k ∈ l) (v i p : Int) :
    s.onlyRegs (t.extremesHeld m v i p) l :=
  (((h.holdMin (hm 0 (by decide)) v).holdMax (hm 1 (by decide)) v).holdMax (hm 2 (by decide)) i).holdMax (hm 3 (by decide)) p

/-! ### The means of a block -/

/-- The means of a block, from word `a` on. -/
def State.meansStored (s : State) (a : Nat) (v i p : Int) : State :=
  s.setRegs [(a, BitVec.ofInt 32 v), (a + 1, BitVec.ofInt 32 i), (a + 2, BitVec.ofInt 32 p)]

theorem State.onlyRegs.meansStored (h : s.onlyRegs t l) {a : Nat} (ha : ∀ k < 3, a + k ∈ l) (v i p : Int) :
    s.onlyRegs (t.meansStored a v i p) l :=
  ((h.setReg (ha 0 (by decide)) _).setReg (ha 1 (by decide)) _).setReg (ha 2 (by decide)) _

theorem State.meansStored_reg (s : State) (a : Nat) (v i p : Int) : (s.meansStored a v i p).reg a = BitVec.ofInt 32 v ∧
    (s.meansStored a v i p).reg (a + 1) = BitVec.ofInt 32 i ∧ (s.meansStored a v i p).reg (a + 2) = BitVec.ofInt 32 p := by
  simp only [State.meansStored, State.setRegs, List.foldl]
  refine ⟨?_, ?_, State.reg_setReg_self _ _ _⟩
  · rw [State.reg_setReg_ne _ (by omega), State.reg_setReg_ne _ (by omega), State.reg_setReg_self]
  · rw [State.reg_setReg_ne _ (by omega), State.reg_setReg_self]

/-- The means of a block shown from word `a` on, and the extremes that follow them from word `m` on. -/
def State.blockShown (s : State) (a m : Nat) (v i p : Int) : State := (s.meansStored a v i p).extremesHeld m v i p

theorem State.blockShown_onlyRegs (s : State) {a m : Nat} (ha : ∀ k < 3, a + k ∈ l) (hm : ∀ k < 4, m + k ∈ l) (v i p : Int) :
    s.onlyRegs (s.blockShown a m v i p) l :=
  ((State.onlyRegs.refl s l).meansStored ha v i p).extremesHeld hm v i p

theorem State.blockShown_reg (s : State) {a m : Nat} (h : a + 3 ≤ m) (v i p : Int) : (s.blockShown a m v i p).reg a = BitVec.ofInt 32 v ∧
    (s.blockShown a m v i p).reg (a + 1) = BitVec.ofInt 32 i ∧ (s.blockShown a m v i p).reg (a + 2) = BitVec.ofInt 32 p := by
  obtain ⟨hv, hi, hp⟩ := s.meansStored_reg a v i p
  have hext : (s.meansStored a v i p).onlyRegs (s.blockShown a m v i p) ((List.range 4).map (m + ·)) :=
    (State.onlyRegs.refl _ _).extremesHeld (fun k hk => List.mem_map_of_mem (List.mem_range.mpr hk)) v i p
  have hout {b : Nat} (hb : b < m) : b ∉ (List.range 4).map (m + ·) := by
    simp only [List.mem_map, not_exists, not_and]
    omega
  exact ⟨(hext.2 _ (hout (by omega))).trans hv, (hext.2 _ (hout (by omega))).trans hi, (hext.2 _ (hout (by omega))).trans hp⟩

/-- The words of two fields with one index lie as far apart as the fields' bases. -/
theorem Fld.addr_eq_add (f g : Fld) {d : Nat} (hs : f.stride = g.stride) (hb : f.base = g.base + d) (i : Nat) :
    f.addr i = g.addr i + d := by
  rw [Fld.addr, Fld.addr, hs, hb, Nat.add_right_comm]

theorem add_mem_block {a m d n : Nat} (hm : m = a + d) {k : Nat} (hk : d + k < n) : m + k ∈ (List.range n).map (fun k => a + k) :=
  List.mem_map.mpr ⟨d + k, List.mem_range.mpr hk, by omega⟩

/-! ### A cluster's block -/

/-- A new block begins. -/
def ClusterSt.telBegun (c : ClusterSt) : ClusterSt := { c with telV := (0, 0), telI := 0, telP := 0 }

theorem telCluster_of_complete {n : Fin 16} (h : 2 ^ s.f F.CL_TLCFG_AVGK n ≤ (s.cl.get n).telV.2) : telCluster n s =
    (s.blockShown (F.CL_TVOUT_TVOUT.addr n) (F.CL_TVMIN_TVMIN.addr n) (roundAway ((s.cl.get n).telV.1 / ((s.cl.get n).telV.2 : Rat)))
      (roundAway ((s.cl.get n).telI * 10 / ((s.cl.get n).telV.2 : Rat)))
      (roundAway ((s.cl.get n).telP / ((s.cl.get n).telV.2 : Rat)))).updCl n ClusterSt.telBegun := by
  have hmean : F.CL_TVOUT_TVOUT.addr n = 0x1000 + 0x100 * n.val + 0x51 := by
    simp only [Fld.addr, F.CL_TVOUT_TVOUT]
    omega
  have hmin : F.CL_TVMIN_TVMIN.addr n = 0x1000 + 0x100 * n.val + 0x55 := by
    simp only [Fld.addr, F.CL_TVMIN_TVMIN]
    omega
  rw [hmean, hmin, telCluster, if_neg (not_lt.mpr h)]
  rfl

theorem telemetryBlock_cluster {n : Fin 16} (h : 2 ^ s.f F.CL_TLCFG_AVGK n ≤ (s.cl.get n).telV.2) :
    completes (.telemetryBlock (.cluster n)) s (fun t =>
      t.reg (F.CL_TVOUT_TVOUT.addr n) = BitVec.ofInt 32 (roundAway ((s.cl.get n).telV.1 / ((s.cl.get n).telV.2 : Rat))) ∧
      t.reg (F.CL_TIOUT_TIOUT.addr n) = BitVec.ofInt 32 (roundAway ((s.cl.get n).telI * 10 / ((s.cl.get n).telV.2 : Rat))) ∧
      t.reg (F.CL_TPOUT_TPOUT.addr n) = BitVec.ofInt 32 (roundAway ((s.cl.get n).telP / ((s.cl.get n).telV.2 : Rat))) ∧
      (t.cl.get n).telV = (0, 0) ∧ (∀ k, k ≠ n → t.cl.get k = s.cl.get k) ∧
      State.onlyRegs { s with cl := t.cl } t ((List.range 8).map (fun k => F.CL_TVOUT_TVOUT.addr n + k))) := by
  refine ⟨_, congrArg Host.Outcome.next (telCluster_of_complete h), ?_⟩
  have hi : F.CL_TIOUT_TIOUT.addr n = F.CL_TVOUT_TVOUT.addr n + 1 := Fld.addr_eq_add F.CL_TIOUT_TIOUT F.CL_TVOUT_TVOUT rfl rfl _
  have hp : F.CL_TPOUT_TPOUT.addr n = F.CL_TVOUT_TVOUT.addr n + 2 := Fld.addr_eq_add F.CL_TPOUT_TPOUT F.CL_TVOUT_TVOUT rfl rfl _
  have hmin : F.CL_TVMIN_TVMIN.addr n = F.CL_TVOUT_TVOUT.addr n + 4 := Fld.addr_eq_add F.CL_TVMIN_TVMIN F.CL_TVOUT_TVOUT rfl rfl _
  generalize roundAway ((s.cl.get n).telV.1 / ((s.cl.get n).telV.2 : Rat)) = v
  generalize roundAway ((s.cl.get n).telI * 10 / ((s.cl.get n).telV.2 : Rat)) = i
  generalize roundAway ((s.cl.get n).telP / ((s.cl.get n).telV.2 : Rat)) = p
  have hframe := s.blockShown_onlyRegs (l := (List.range 8).map (fun k => F.CL_TVOUT_TVOUT.addr n + k))
    (fun k hk => add_mem_block (d := 0) rfl (by omega)) (fun k hk => add_mem_block hmin (by omega)) v i p
  obtain ⟨hv, hi', hp'⟩ := s.blockShown_reg (a := F.CL_TVOUT_TVOUT.addr n) (m := F.CL_TVMIN_TVMIN.addr n) (by omega) v i p
  rw [hi, hp]
  refine ⟨hv, hi', hp', congrArg ClusterSt.telV (State.updCl_get_self _ n _), fun k hk => ?_, hframe.ofCl _⟩
  exact (State.updCl_get_ne _ hk _).trans (congrArg (·.get k) (hframe.hidden (π := State.cl) fun _ _ => rfl))

theorem telemetryBlock_clusterWaits {n : Fin 16} (h : (s.cl.get n).telV.2 < 2 ^ s.f F.CL_TLCFG_AVGK n) :
    completes (.telemetryBlock (.cluster n)) s (fun t => t = s) :=
  ⟨_, congrArg Host.Outcome.next (if_pos h), rfl⟩

/-! ### A phase's block -/

theorem telPhase_of_complete {p : Fin 48} {n : Fin 16} (hown : s.phCluster p = some n)
    (h : 2 ^ s.f F.CL_TLCFG_AVGK n ≤ (s.ph.get p).telAcc.2) : telPhase p s =
    (s.setReg (F.PH_ITEL_ITEL.addr p) (BitVec.ofInt 32 (roundAway ((s.ph.get p).telAcc.1 * 10 / ((s.ph.get p).telAcc.2 : Rat))))).updPh p
      (fun u => { u with telAcc := (0, 0) }) := by
  simp only [telPhase, hown, not_lt.mpr h, decide_false, reduceCtorEq, Bool.or_self, Bool.false_eq_true, if_false]

theorem telemetryBlock_phase {p : Fin 48} {n : Fin 16} (hown : s.phCluster p = some n)
    (h : 2 ^ s.f F.CL_TLCFG_AVGK n ≤ (s.ph.get p).telAcc.2) : completes (.telemetryBlock (.phase p)) s (fun t =>
      t.reg (F.PH_ITEL_ITEL.addr p) = BitVec.ofInt 32 (roundAway ((s.ph.get p).telAcc.1 * 10 / ((s.ph.get p).telAcc.2 : Rat))) ∧
      (t.ph.get p).telAcc = (0, 0) ∧ State.onlyRegs { s with ph := t.ph } t [F.PH_ITEL_ITEL.addr p]) :=
  ⟨_, congrArg Host.Outcome.next (telPhase_of_complete hown h), State.reg_setReg_self s _ _,
    congrArg PhaseSt.telAcc (State.updPh_get_self _ p _), ((State.onlyRegs.refl s _).setReg (List.mem_singleton_self _) _).ofPh _⟩

/-! ### A feed's block -/

/-- A new block begins. -/
def FeedSt.telBegun (u : FeedSt) : FeedSt := { u with tel := (0, 0, 0, 0) }

theorem telFeed_of_complete {f : Fin 4} (h : 2 ^ s.f F.FEED_TCFG_AVGK f ≤ (s.fd.get f).tel.2.2.2) : telFeed f s =
    (s.blockShown (F.FEED_V_V.addr f) (F.FEED_VMIN_VMIN.addr f) (roundAway ((s.fd.get f).tel.1 * 1000 / ((s.fd.get f).tel.2.2.2 : Rat)))
      (roundAway ((s.fd.get f).tel.2.1 * 10 / ((s.fd.get f).tel.2.2.2 : Rat)))
      (roundAway ((s.fd.get f).tel.2.2.1 / ((s.fd.get f).tel.2.2.2 : Rat)))).updFd f FeedSt.telBegun := by
  have hmean : F.FEED_V_V.addr f = 0x2480 + 0x10 * f.val + 1 := by
    simp only [Fld.addr, F.FEED_V_V]
    omega
  have hmin : F.FEED_VMIN_VMIN.addr f = 0x2480 + 0x10 * f.val + 6 := by
    simp only [Fld.addr, F.FEED_VMIN_VMIN]
    omega
  rw [hmean, hmin, telFeed, if_neg (not_lt.mpr h)]
  rfl

theorem telemetryBlock_feed {f : Fin 4} (h : 2 ^ s.f F.FEED_TCFG_AVGK f ≤ (s.fd.get f).tel.2.2.2) :
    completes (.telemetryBlock (.feed f)) s (fun t =>
      t.reg (F.FEED_V_V.addr f) = BitVec.ofInt 32 (roundAway ((s.fd.get f).tel.1 * 1000 / ((s.fd.get f).tel.2.2.2 : Rat))) ∧
      t.reg (F.FEED_I_I.addr f) = BitVec.ofInt 32 (roundAway ((s.fd.get f).tel.2.1 * 10 / ((s.fd.get f).tel.2.2.2 : Rat))) ∧
      t.reg (F.FEED_P_P.addr f) = BitVec.ofInt 32 (roundAway ((s.fd.get f).tel.2.2.1 / ((s.fd.get f).tel.2.2.2 : Rat))) ∧
      (t.fd.get f).tel = (0, 0, 0, 0) ∧ (t.fd.get f).energy = (s.fd.get f).energy ∧
      State.onlyRegs { s with fd := t.fd } t ((List.range 9).map (fun k => F.FEED_V_V.addr f + k))) := by
  refine ⟨_, congrArg Host.Outcome.next (telFeed_of_complete h), ?_⟩
  have hi : F.FEED_I_I.addr f = F.FEED_V_V.addr f + 1 := Fld.addr_eq_add F.FEED_I_I F.FEED_V_V rfl rfl _
  have hp : F.FEED_P_P.addr f = F.FEED_V_V.addr f + 2 := Fld.addr_eq_add F.FEED_P_P F.FEED_V_V rfl rfl _
  have hmin : F.FEED_VMIN_VMIN.addr f = F.FEED_V_V.addr f + 5 := Fld.addr_eq_add F.FEED_VMIN_VMIN F.FEED_V_V rfl rfl _
  generalize roundAway ((s.fd.get f).tel.1 * 1000 / ((s.fd.get f).tel.2.2.2 : Rat)) = v
  generalize roundAway ((s.fd.get f).tel.2.1 * 10 / ((s.fd.get f).tel.2.2.2 : Rat)) = i
  generalize roundAway ((s.fd.get f).tel.2.2.1 / ((s.fd.get f).tel.2.2.2 : Rat)) = p
  have hframe := s.blockShown_onlyRegs (l := (List.range 9).map (fun k => F.FEED_V_V.addr f + k))
    (fun k hk => add_mem_block (d := 0) rfl (by omega)) (fun k hk => add_mem_block hmin (by omega)) v i p
  obtain ⟨hv, hi', hp'⟩ := s.blockShown_reg (a := F.FEED_V_V.addr f) (m := F.FEED_VMIN_VMIN.addr f) (by omega) v i p
  have hfd : (s.blockShown (F.FEED_V_V.addr f) (F.FEED_VMIN_VMIN.addr f) v i p).fd = s.fd := hframe.hidden fun _ _ => rfl
  have hown := State.updFd_get_self (s.blockShown (F.FEED_V_V.addr f) (F.FEED_VMIN_VMIN.addr f) v i p) f FeedSt.telBegun
  rw [hi, hp]
  refine ⟨hv, hi', hp', congrArg FeedSt.tel hown, (congrArg FeedSt.energy hown).trans ?_, hframe.ofFd _⟩
  rw [hfd]
  rfl

end Sys2Proof.Machine
end

section
/-! SUPPORT. Reads of min and max registers and of snapshots at a port: the word answered, and what the read clears (R175, R189). -/

namespace Sys2Proof.Machine

variable {s t : State} {l : List Nat} {p : Port} {a : Nat}

/-- A word that no 64-bit counter shows. -/
theorem State.counterAt_eq_none (s : State) (hcl : 0x1000 ≤ a ∧ a < 0x2000 → 0x20 ≤ a % 0x100)
    (hfd : 0x2480 ≤ a ∧ a < 0x24C0 → 6 ≤ a % 16) (ha : a < 0x2A00) : s.counterAt a = none := by
  unfold State.counterAt
  simp only [Bool.and_eq_true, Bool.or_eq_true, decide_eq_true_eq]
  by_cases h : 0x1000 ≤ a ∧ a < 0x2000
  · have hplace := hcl h
    rw [if_pos h, if_neg (by omega), if_neg (by omega)]
  · rw [if_neg h, if_neg (by omega), if_neg (by omega), if_neg (by omega), if_neg (by omega)]

/-- A port's read of a word with nothing special about it: the word is answered, and cleared as its access says. -/
theorem State.readReg_of_plain (hlive : s.portLive p = true) (himg : s.noImg = false)
    (hcl : 0x1000 ≤ a ∧ a < 0x2000 → 0x20 ≤ a % 0x100) (hfd : 0x2480 ≤ a ∧ a < 0x24C0 → 6 ≤ a % 16) (ha : a < 0x2A00) :
    s.readReg p a = (s.afterRead a).answerWord p (s.seen p a) := by
  have hserved : s.served a = true := by simp [State.served, himg]
  have hword : s.readWord p a = (s.afterRead a, s.seen p a) := by
    rw [State.readWord, if_neg (by simp [hserved]), if_neg (by omega), if_neg (by omega), if_neg (by omega)]
    simp only [s.counterAt_eq_none hcl hfd ha]
  rw [State.readReg, if_pos hlive]
  simp only [hword]

/-! ### The answer -/

theorem State.answerWord_twoWire (s : State) (w : Word) : (s.answerWord .twoWire w).port.resp = wordBytes w := rfl

theorem State.answerWord_stream (s : State) (w : Word) :
    (s.answerWord .stream w).port.sStatus = 0 ∧ (s.answerWord .stream w).port.sData = [w] := ⟨rfl, rfl⟩

theorem State.answerWord_reg (s : State) (p : Port) (w : Word) (a : Nat) : (s.answerWord p w).reg a = s.reg a := by
  cases p <;> rfl

/-- The frame of registers does not read the ports' hidden state. -/
theorem State.onlyRegs.ofPort (h : s.onlyRegs t l) (v : PortSt) :
    State.onlyRegs { s with port := v } { t with port := v } l := ⟨congrArg (fun x : State => { x with port := v }) h.1, h.2⟩

theorem State.onlyRegs.answerWord (h : s.onlyRegs t l) (p : Port) (w : Word) :
    State.onlyRegs { s with port := (t.answerWord p w).port } (t.answerWord p w) l := by
  cases p <;> exact h.ofPort _

/-! ### Min and max registers (R189) -/

theorem minMaxAddr_rc (m : MinMax) : (regFields (minMaxAddr m)).any (fun r => r.acc = .rc) = true := by
  cases m with
  | cluster n k => decide +kernel +revert
  | phase p => decide +kernel +revert
  | feed f k => decide +kernel +revert

theorem minMaxAddr_plain (m : MinMax) : (0x1000 ≤ minMaxAddr m ∧ minMaxAddr m < 0x2000 → 0x20 ≤ minMaxAddr m % 0x100) ∧
    (0x2480 ≤ minMaxAddr m ∧ minMaxAddr m < 0x24C0 → 6 ≤ minMaxAddr m % 16) ∧ minMaxAddr m < 0x24C0 := by
  cases m with
  | cluster n k => simp only [minMaxAddr]; omega
  | phase p => simp only [minMaxAddr, Fld.addr, F.PH_TPK_TPK]; omega
  | feed f k => simp only [minMaxAddr]; omega

theorem State.readReg_minMax (m : MinMax) (hlive : s.portLive p = true) (himg : s.noImg = false) : s.readReg p (minMaxAddr m) =
    (s.setReg (minMaxAddr m) (clearRc (minMaxAddr m) (s.reg (minMaxAddr m)))).answerWord p (s.seen p (minMaxAddr m)) := by
  obtain ⟨hcl, hfd, hlt⟩ := minMaxAddr_plain m
  have hsnap : (decide (0x24C0 ≤ minMaxAddr m) && decide (minMaxAddr m < 0x24D0) && decide (minMaxAddr m % 2 = 0)) = false := by
    simp [not_le.mpr hlt]
  rw [State.readReg_of_plain hlive himg hcl hfd (by omega), State.afterRead, minMaxAddr_rc m, hsnap, State.when_true, State.when_false]

/-- A read of a min or max register leaves it cleared, and no other register changed. -/
theorem State.readReg_minMax_spec (m : MinMax) (hlive : s.portLive p = true) (himg : s.noImg = false) :
    (s.readReg p (minMaxAddr m)).reg (minMaxAddr m) = clearRc (minMaxAddr m) (s.reg (minMaxAddr m)) ∧
      State.onlyRegs { s with port := (s.readReg p (minMaxAddr m)).port } (s.readReg p (minMaxAddr m)) [minMaxAddr m] := by
  rw [State.readReg_minMax m hlive himg]
  exact ⟨(State.answerWord_reg _ p _ _).trans (State.reg_setReg_self s _ _),
    ((State.onlyRegs.refl s _).setReg (List.mem_singleton_self _) _).answerWord p _⟩

/-! ### Snapshots (R175) -/

theorem regFields_snap (k : Fin 8) : (regFields (F.PREC_SNAP_SNAP.addr k)).any (fun r => r.acc = .rc) = false := by
  decide +kernel +revert

theorem State.readReg_snap (k : Fin 8) (hlive : s.portLive p = true) (himg : s.noImg = false) : s.readReg p (F.PREC_SNAP_SNAP.addr k) =
    (s.setB F.PREC_SNAPT_VALID k false).answerWord p (s.seen p (F.PREC_SNAP_SNAP.addr k)) := by
  have haddr : F.PREC_SNAP_SNAP.addr k = 0x24C0 + 2 * k.val := rfl
  have hin : (decide (0x24C0 ≤ F.PREC_SNAP_SNAP.addr k) && decide (F.PREC_SNAP_SNAP.addr k < 0x24D0) &&
      decide (F.PREC_SNAP_SNAP.addr k % 2 = 0)) = true := by
    simp only [Bool.and_eq_true, decide_eq_true_eq]
    omega
  have hidx : (F.PREC_SNAP_SNAP.addr k - 0x24C0) / 2 = k.val := by omega
  rw [State.readReg_of_plain hlive himg (by omega) (by omega) (by omega), State.afterRead, regFields_snap k, hin, State.when_false,
    State.when_true, hidx]

theorem precSnapRead_completes (k : Fin 8) (hlive : s.portLive p = true) (himg : s.noImg = false) :
    completes (.precSnapRead p k) s (fun t => t.fB F.PREC_SNAPT_VALID k = false ∧
      (p = .twoWire → t.port.resp = wordBytes (s.seen p (F.PREC_SNAP_SNAP.addr k))) ∧
      (p = .stream → t.port.sData = [s.seen p (F.PREC_SNAP_SNAP.addr k)]) ∧
      State.onlyRegs { s with port := t.port } t [F.PREC_SNAPT_VALID.addr k]) := by
  refine ⟨_, congrArg Host.Outcome.next (State.readReg_snap k hlive himg), ?_, ?_, ?_, (s.onlyRegs_setF _ _ _).answerWord p _⟩
  · have hvalid := s.fB_setB_self (fl := F.PREC_SNAPT_VALID) (by decide) rfl k false
    cases p <;> exact hvalid
  · rintro rfl
    exact State.answerWord_twoWire _ _
  · rintro rfl
    exact (State.answerWord_stream _ _).2

end Sys2Proof.Machine
end

section
/-! SUPPORT. The clearing of an energy, and auto-zero (R193). -/

namespace Sys2Proof.Machine

variable {s : State}

theorem energyClear_completes {p : Port} (f : Fin 4) (h : s.hostOpen p) : completes (.energyClear p f) s (fun t =>
    (t.fd.get f).energy = 0 ∧ (∀ k, k ≠ f → t.fd.get k = s.fd.get k) ∧ { t with fd := s.fd } = s) :=
  ⟨_, congrArg Host.Outcome.next (State.hostDo_of_ok h rfl), congrArg FeedSt.energy (s.updFd_get_self f _),
    fun _ hk => s.updFd_get_ne hk _, rfl⟩

theorem autoZeroStart_completes {f : Fin 3} (hen : s.fB F.FEED_TCFG_AZEN f = true) (hq : s.azQuiet f = true) :
    completes (.autoZeroStart f) s (fun t => t.fB F.FEED_AZ_AZDONE f = false ∧ (t.fd.get (feed4 f)).azRun = some (0, 0) ∧
      State.onlyRegs { s with fd := t.fd } t [F.FEED_AZ_AZDONE.addr f]) := by
  have hexec : exec (.autoZeroStart f) s =
      .next ((s.setB F.FEED_AZ_AZDONE f false).updFd (feed4 f) (fun u => { u with azRun := some (0, 0) })) :=
    if_pos (by rw [hen, hq]; rfl)
  exact ⟨_, hexec, s.fB_setB_self (by decide) rfl f false, congrArg FeedSt.azRun (State.updFd_get_self _ (feed4 f) _),
    (s.onlyRegs_setF F.FEED_AZ_AZDONE f _).ofFd _⟩

theorem autoZeroComplete_completes {f : Fin 3} {k : Nat} {sum : Int} (hrun : (s.fd.get (feed4 f)).azRun = some (k, sum))
    (hq : s.azQuiet f = true) (hk : 16 ≤ k) : completes (.autoZeroComplete f) s (fun t => t.fB F.FEED_AZ_AZDONE f = true ∧
      t.f F.FEED_AZ_OFFSET f = ofSigned F.FEED_AZ_OFFSET.w (roundAway ((sum : Rat) / (k : Rat))) ∧
      (t.fd.get (feed4 f)).azRun = none ∧ State.onlyRegs { s with fd := t.fd } t [F.FEED_AZ_AZDONE.addr f]) := by
  have hexec : exec (.autoZeroComplete f) s = .next (((s.updFd (feed4 f) (fun u => { u with azRun := none })).setS F.FEED_AZ_OFFSET f
      (roundAway ((sum : Rat) / (k : Rat)))).setB F.FEED_AZ_AZDONE f true) := by
    change execAutoZeroComplete f s = _
    simp only [execAutoZeroComplete, hrun, hq, Bool.not_true, Bool.false_eq_true, if_false, if_neg (not_lt.mpr hk)]
  have hended : ((s.updFd (feed4 f) (fun u => { u with azRun := none })).fd.get (feed4 f)).azRun = none :=
    congrArg FeedSt.azRun (s.updFd_get_self (feed4 f) _)
  refine ⟨_, hexec, State.fB_setB_self _ (by decide) rfl f true, ?_, hended, ?_⟩
  · rw [State.f_setB_apart _ (by decide) (by decide), State.setS, State.f_setF_self _ (by decide), Nat.mod_eq_of_lt (ofSigned_lt _ _)]
  · have hin : F.FEED_AZ_OFFSET.addr f ∈ [F.FEED_AZ_AZDONE.addr f] := List.mem_singleton_self _
    exact ((State.onlyRegs.refl (s.updFd (feed4 f) _) _).setF hin _).setF (fl := F.FEED_AZ_AZDONE) (List.mem_singleton_self _) _

end Sys2Proof.Machine
end

section
/-! THE STATEMENT ON TELEMETRY AND AUTO-ZERO (O14). -/

namespace Sys2Proof.Machine

/-- Settles O14: a block shown is its three means and the extremes that follow them, a read is the answer and what it clears, and the
energy and the auto-zero are their feed's own. -/
theorem telemetryCommandsComplete : Obligations.TelemetryCommandsComplete := by
  unfold Obligations.TelemetryCommandsComplete
  refine ⟨fun s n h => telemetryBlock_cluster h, fun s n h => telemetryBlock_clusterWaits h,
    fun s p n hown h => telemetryBlock_phase hown h, fun s f h => telemetryBlock_feed h, fun s m hlive himg => ?_, fun s m hlive himg => ?_,
    fun s p k hlive himg => precSnapRead_completes k hlive himg, fun s p f h => energyClear_completes f h,
    fun s f hen hq => autoZeroStart_completes hen hq, fun s f k sum hrun hq hk => autoZeroComplete_completes hrun hq hk⟩
  · obtain ⟨hreg, hframe⟩ := State.readReg_minMax_spec m hlive himg
    refine ⟨_, rfl, ?_, hreg, hframe⟩
    rw [State.readReg_minMax m hlive himg, State.answerWord_twoWire]
  · obtain ⟨hreg, hframe⟩ := State.readReg_minMax_spec m hlive himg
    obtain ⟨hstat, hdata⟩ := (s.setReg (minMaxAddr m) (clearRc (minMaxAddr m) (s.reg (minMaxAddr m)))).answerWord_stream
      (s.seen .stream (minMaxAddr m))
    refine ⟨_, rfl, ?_, ?_, hreg, hframe⟩ <;> rw [State.readReg_minMax m hlive himg] <;> assumption

end Sys2Proof.Machine
end

section
/-! SUPPORT. Loops over members of their own, and the snapshots, windows and slots of the precision converters (R173 to R175, R193). -/

namespace Sys2Proof.Machine

variable {s t u : State} {l m : List Nat}

/-! ### Loops -/

/-- Where each step of a loop makes its own member's value good from what it was before the loop, and leaves the other members' values,
every member's value is good in the end. -/
theorem State.each_member {α β : Type} {P : State → Prop} {π : α → State → β} {b : α → β} {Q : α → β → Prop} {g : State → α → State}
    {xs : List α} (hnd : xs.Nodup) (hP : ∀ u, ∀ x ∈ xs, P u → P (g u x))
    (hset : ∀ u, ∀ x ∈ xs, P u → π x u = b x → Q x (π x (g u x)))
    (hkeep : ∀ u, ∀ x ∈ xs, ∀ y ∈ xs, P u → y ≠ x → π y (g u x) = π y u) (h : P s) (hb : ∀ x ∈ xs, π x s = b x) :
    ∀ x ∈ xs, Q x (π x (s.each xs g)) := by
  induction xs generalizing s with
  | nil => exact fun x hx => absurd hx List.not_mem_nil
  | cons z xs ih =>
    obtain ⟨hz, hnd⟩ := List.nodup_cons.mp hnd
    have hmem {x : α} (hx : x ∈ xs) : x ∈ z :: xs := List.mem_cons_of_mem z hx
    have hhead : z ∈ z :: xs := List.mem_cons_self ..
    have hne {x : α} (hx : x ∈ xs) : x ≠ z := fun e => hz (e ▸ hx)
    intro x hx
    rw [State.each_cons]
    rcases List.mem_cons.mp hx with rfl | hx
    · have hdone : P (g s x) ∧ Q x (π x (g s x)) := ⟨hP s x hhead h, hset s x hhead h (hb x hhead)⟩
      exact (State.each_keeps_mem (P := fun u => P u ∧ Q x (π x u))
        (fun u y hy hu => ⟨hP u y (hmem hy) hu.1, hkeep u y (hmem hy) x hhead hu.1 (hne hy).symm ▸ hu.2⟩) hdone).2
    · refine ih hnd (fun u x hx => hP u x (hmem hx)) (fun u x hx => hset u x (hmem hx))
        (fun u x hx y hy => hkeep u x (hmem hx) y (hmem hy)) (hP s z hhead h) (fun y hy => ?_) x hx
      exact (hkeep s z hhead y (hmem hy) h (hne hy)).trans (hb y (hmem hy))

/-! ### Frames -/

/-- A further operation that changes none but the listed words. -/
theorem State.onlyRegs.then (h : s.onlyRegs t l) (k : t.onlyRegs u m) (hm : m ⊆ l) : s.onlyRegs u l :=
  (h.trans k).mono (List.append_subset.mpr ⟨List.Subset.refl l, hm⟩)

/-- The frame of registers does not read the converters' hidden state. -/
theorem State.onlyRegs.ofPrec (h : s.onlyRegs t l) (v : PrecSt) :
    State.onlyRegs { s with prec := v } { t with prec := v } l := ⟨congrArg (fun x : State => { x with prec := v }) h.1, h.2⟩

/-- The frame of registers does not read the inputs' hidden state. -/
theorem State.onlyRegs.ofInp (h : s.onlyRegs t l) (v : InpSt) :
    State.onlyRegs { s with inp := v } { t with inp := v } l := ⟨congrArg (fun x : State => { x with inp := v }) h.1, h.2⟩

/-! ### Snapshots (R175) -/

/-- The words of a snapshot: its result, and the word of its place and flags. -/
def precSnapWords (k : Nat) : List Nat := [F.PREC_SNAP_SNAP.addr k, F.PREC_SNAPT_VALID.addr k]

theorem mem_precSnapWords {a k : Nat} : a ∈ precSnapWords k ↔ a = 0x24C0 + 2 * k ∨ a = 0x24C1 + 2 * k := by
  simp [precSnapWords, Fld.addr, F.PREC_SNAP_SNAP, F.PREC_SNAPT_VALID]

/-- A snapshot's result shown. -/
def State.snapShown (s : State) (k : Fin 8) (v : Int) (slot o : Nat) : State :=
  let s := s.when (s.fB F.PREC_SNAPT_VALID k) (fun s => s.setB F.PREC_SNAPT_OVR k true)
  let s := s.setReg (F.PREC_SNAP_SNAP.addr k) (BitVec.ofInt 32 v)
  let s := if k.val < 4 then s.setF F.PREC_SNAPT_OFS k o else s.setF F.PREC_SNAPT_CH k slot
  s.setB F.PREC_SNAPT_VALID k true

theorem State.snapShown_onlyRegs (s : State) (k : Fin 8) (v : Int) (slot o : Nat) :
    s.onlyRegs (s.snapShown k v slot o) (precSnapWords k) := by
  have hval : F.PREC_SNAP_SNAP.addr k ∈ precSnapWords k := by simp [precSnapWords]
  have hflag : F.PREC_SNAPT_VALID.addr k ∈ precSnapWords k := by simp [precSnapWords]
  have hovr := State.when_ind (P := fun t => s.onlyRegs t (precSnapWords k)) (State.onlyRegs.refl s _) (s.fB F.PREC_SNAPT_VALID k)
    (g := fun s => s.setB F.PREC_SNAPT_OVR k true) fun h => h.setF (fl := F.PREC_SNAPT_OVR) hflag _
  have hres := hovr.setReg hval (BitVec.ofInt 32 v)
  unfold State.snapShown
  dsimp only
  split
  · exact State.onlyRegs.setF (hres.setF (fl := F.PREC_SNAPT_OFS) hflag o) hflag _
  · exact State.onlyRegs.setF (hres.setF (fl := F.PREC_SNAPT_CH) hflag slot) hflag _

/-- Latching a snapshot changes its own words, and of the hidden state which snapshots are awaited. -/
theorem State.snapLatch_spec (s : State) (k : Fin 8) (v : Int) (slot : Nat) : ∃ pend,
    State.onlyRegs { s with prec := { s.prec with snapPend := pend } } (s.snapLatch k v slot) (precSnapWords k) := by
  unfold State.snapLatch
  split
  · exact ⟨s.prec.snapPend, State.onlyRegs.refl s _⟩
  case h_2 o _ => exact ⟨_, State.snapShown_onlyRegs { s with prec := { s.prec with snapPend := s.prec.snapPend.set k none } } k v slot o⟩

theorem State.snapLatch_fd (s : State) (k : Fin 8) (v : Int) (slot : Nat) : (s.snapLatch k v slot).fd = s.fd := by
  obtain ⟨pend, h⟩ := s.snapLatch_spec k v slot
  exact h.hidden fun _ _ => rfl

/-! ### A window of the shunt converters (R173, R193) -/

/-- The words that a window may change before EHOLD. -/
def windowWords : List Nat := (List.range 4).flatMap precSnapWords

theorem mem_windowWords {a : Nat} : a ∈ windowWords ↔ 0x24C0 ≤ a ∧ a < 0x24C8 := by
  simp only [windowWords, List.mem_flatMap, List.mem_range, mem_precSnapWords]
  exact ⟨fun ⟨k, hk, h⟩ => by omega, fun h => ⟨(a - 0x24C0) / 2, by omega, by omega⟩⟩

/-- A window's energy on a shunt, of the voltage that its feed names (R193). -/
def State.windowEnergy (s : State) (f : Fin 4) (code : BitVec 24) (v : Vector Rat 6) : Rat :=
  (match s.feedSense f with | some k => s.hvMv k (v.get k) | none => 0) * s.shuntMa f code / 1000 / 4

theorem State.windowEnergy_congr (f : Fin 4) (code : BitVec 24) (v : Vector Rat 6) (hgain : t.prec.hvGain = s.prec.hvGain)
    (haux : t.f F.FEED_TCFG_AUXSRC 3 = s.f F.FEED_TCFG_AUXSRC 3) (hofs : t.f F.FEED_AZ_OFFSET f = s.f F.FEED_AZ_OFFSET f)
    (hrsh : t.f F.FEED_TCFG_RSH f = s.f F.FEED_TCFG_RSH f) : t.windowEnergy f code v = s.windowEnergy f code v := by
  have hsense : t.feedSense f = s.feedSense f := by rw [State.feedSense, State.feedSense, haux]
  have hamp : t.shuntMa f code = s.shuntMa f code := by rw [State.shuntMa, State.shuntMa, State.fS, State.fS, hofs, hrsh]
  simp only [State.windowEnergy, State.hvMv, hsense, hamp, hgain]

theorem State.feedWindow_energy (s : State) (f : Fin 4) (code : BitVec 24) (v : Vector Rat 6) :
    ((s.feedWindow f code v).fd.get f).energy = (s.fd.get f).energy + s.windowEnergy f code v :=
  congrArg FeedSt.energy (s.updFd_get_self f _)

/-- What the shunts of a window change: snapshots, and the feeds' hidden state. -/
def State.ShuntsTaken (s t : State) : Prop :=
  ∃ fd pend, State.onlyRegs { s with fd := fd, prec := { s.prec with snapPend := pend } } t windowWords

theorem State.ShuntsTaken.refl (s : State) : s.ShuntsTaken s := ⟨s.fd, s.prec.snapPend, State.onlyRegs.refl s _⟩

theorem State.ShuntsTaken.snapLatch (h : s.ShuntsTaken t) (f : Fin 4) (x : Int) (slot : Nat) :
    s.ShuntsTaken (t.snapLatch (Fin.ofNat 8 f) x slot) := by
  obtain ⟨fd, pend, h⟩ := h
  obtain ⟨pend', hsnap⟩ := t.snapLatch_spec (Fin.ofNat 8 f) x slot
  have hprec : t.prec = { s.prec with snapPend := pend } := h.hidden fun _ _ => rfl
  have hk : (Fin.ofNat 8 f.val).val = f.val := Nat.mod_eq_of_lt (by omega)
  have hsub : precSnapWords (Fin.ofNat 8 f.val).val ⊆ windowWords := fun a ha => by
    rw [hk, mem_precSnapWords] at ha
    rw [mem_windowWords]
    omega
  rw [hprec] at hsnap
  exact ⟨fd, pend', (h.ofPrec _).then hsnap hsub⟩

theorem State.ShuntsTaken.feedWindow (h : s.ShuntsTaken t) (f : Fin 4) (code : BitVec 24) (v : Vector Rat 6) :
    s.ShuntsTaken (t.feedWindow f code v) := by
  obtain ⟨fd, pend, h⟩ := h
  exact ⟨_, pend, h.ofFd _⟩

theorem State.ShuntsTaken.gain (h : s.ShuntsTaken t) : t.prec.hvGain = s.prec.hvGain := by
  obtain ⟨fd, pend, h⟩ := h
  exact h.hidden (π := fun x => x.prec.hvGain) fun _ _ => rfl

theorem State.ShuntsTaken.f (h : s.ShuntsTaken t) {fl : Fld} {j : Nat} (hj : j < 4)
    (hfl : fl.base < 0x2490 ∧ fl.stride = 0x10 := by decide) : t.f fl j = s.f fl j := by
  obtain ⟨fd, pend, h⟩ := h
  refine State.onlyRegs.f h fun hm => ?_
  rw [mem_windowWords, Fld.addr, hfl.2] at hm
  omega

theorem State.ShuntsTaken.windowEnergy (h : s.ShuntsTaken t) (f : Fin 4) (code : BitVec 24) (v : Vector Rat 6) :
    t.windowEnergy f code v = s.windowEnergy f code v :=
  State.windowEnergy_congr f code v h.gain (h.f (by decide)) (h.f f.isLt) (h.f f.isLt)

/-- One shunt's part of a window. -/
def State.shuntTaken (i : Vector (BitVec 24) 4) (v : Vector Rat 6) (s : State) (f : Fin 4) : State :=
  (s.snapLatch (Fin.ofNat 8 f) ((i.get f).toInt - s.fS F.FEED_AZ_OFFSET f) 0).feedWindow f (i.get f) v

theorem State.ShuntsTaken.step (h : s.ShuntsTaken t) (i : Vector (BitVec 24) 4) (v : Vector Rat 6) (f : Fin 4) :
    s.ShuntsTaken (t.shuntTaken i v f) := (h.snapLatch f _ 0).feedWindow f (i.get f) v

theorem State.shuntTaken_others (s : State) (i : Vector (BitVec 24) 4) (v : Vector Rat 6) {f k : Fin 4} (h : k ≠ f) :
    (s.shuntTaken i v f).fd.get k = s.fd.get k :=
  (State.updFd_get_ne _ h _).trans (congrArg (·.get k) (s.snapLatch_fd _ _ 0))

/-- A shunt's energy takes the window's. -/
theorem State.ShuntsTaken.shuntTaken_energy (h : s.ShuntsTaken t) (i : Vector (BitVec 24) 4) (v : Vector Rat 6) (f : Fin 4) :
    ((t.shuntTaken i v f).fd.get f).energy = (t.fd.get f).energy + s.windowEnergy f (i.get f) v := by
  rw [State.shuntTaken, State.feedWindow_energy, State.snapLatch_fd, (h.snapLatch f _ 0).windowEnergy]

/-- The four shunts of a window. -/
def State.shuntsRead (s : State) (i : Vector (BitVec 24) 4) (v : Vector Rat 6) : State :=
  s.each (List.finRange 4) (State.shuntTaken i v)

theorem State.shuntsRead_shuntsTaken (s : State) (i : Vector (BitVec 24) 4) (v : Vector Rat 6) : s.ShuntsTaken (s.shuntsRead i v) :=
  State.each_keeps (P := s.ShuntsTaken) s (fun _ f h => h.step i v f) _ (State.ShuntsTaken.refl s)

theorem State.shuntsRead_energy (s : State) (i : Vector (BitVec 24) 4) (v : Vector Rat 6) (f : Fin 4) :
    ((s.shuntsRead i v).fd.get f).energy = (s.fd.get f).energy + s.windowEnergy f (i.get f) v :=
  State.each_member (P := s.ShuntsTaken) (π := fun f t => (t.fd.get f).energy) (b := fun f => (s.fd.get f).energy)
    (Q := fun f e => e = (s.fd.get f).energy + s.windowEnergy f (i.get f) v) (List.nodup_finRange 4) (fun _ f _ h => h.step i v f)
    (fun _ f _ h hf => by rw [h.shuntTaken_energy, hf])
    (fun t f _ _ _ _ hne => congrArg FeedSt.energy (t.shuntTaken_others i v hne)) (State.ShuntsTaken.refl s) (fun _ _ => rfl)
    f (List.mem_finRange f)

/-- VBUS as a window shows it (R173). -/
def State.vbusShown (s : State) (v : Vector Rat 6) : State := { s with inp := { s.inp with vbus := (s.hvMv 3 (v.get 3)).floor.toNat } }

/-- The hold energy as a window shows it, outside the rack-shelf role (R216). -/
def State.holdShown (s : State) (v : Vector Rat 6) : State :=
  s.when (!s.shelf) (fun s => s.setReg (F.INP_EHOLD_EHOLD.addr 0) (BitVec.ofNat 32 (s.holdEnergy (s.hvMv 2 (v.get 2)))))

theorem exec_precisionWindow (hdev : s.dev ≠ .boot) (i : Vector (BitVec 24) 4) (v : Vector Rat 6) :
    exec (.precisionWindow i v) s = .next (((s.shuntsRead i v).vbusShown v).holdShown v) :=
  if_neg (by simpa using hdev)

theorem State.holdShown_onlyRegs (s : State) (v : Vector Rat 6) : s.onlyRegs (s.holdShown v) [F.INP_EHOLD_EHOLD.addr 0] :=
  State.when_ind (P := fun t => s.onlyRegs t [F.INP_EHOLD_EHOLD.addr 0]) (State.onlyRegs.refl s _) _
    fun h => h.setReg (List.mem_singleton_self _) _

theorem precisionWindow_completes (hdev : s.dev ≠ .boot) (i : Vector (BitVec 24) 4) (v : Vector Rat 6) :
    completes (.precisionWindow i v) s (fun t =>
      (∀ f : Fin 4, (t.fd.get f).energy = (s.fd.get f).energy +
        (match s.feedSense f with | some k => s.hvMv k (v.get k) | none => 0) * s.shuntMa f (i.get f) / 1000 / 4) ∧
      t.inp = { s.inp with vbus := (s.hvMv 3 (v.get 3)).floor.toNat } ∧
      State.onlyRegs { s with fd := t.fd, prec := t.prec, inp := t.inp } t
        (F.INP_EHOLD_EHOLD.addr 0 :: (List.range 4).flatMap (fun k => [F.PREC_SNAP_SNAP.addr k, F.PREC_SNAPT_VALID.addr k]))) := by
  refine ⟨_, exec_precisionWindow hdev i v, ?_⟩
  have henergy := s.shuntsRead_energy i v
  have htaken := s.shuntsRead_shuntsTaken i v
  generalize s.shuntsRead i v = r at *
  have hvbus : r.hvMv 3 (v.get 3) = s.hvMv 3 (v.get 3) := by rw [State.hvMv, State.hvMv, htaken.gain]
  have hhold := (r.vbusShown v).holdShown_onlyRegs v
  have hfd : ((r.vbusShown v).holdShown v).fd = r.fd := hhold.hidden (π := State.fd) fun _ _ => rfl
  have hprec : ((r.vbusShown v).holdShown v).prec = r.prec := hhold.hidden (π := State.prec) fun _ _ => rfl
  have hinp : ((r.vbusShown v).holdShown v).inp = (r.vbusShown v).inp := hhold.hidden (π := State.inp) fun _ _ => rfl
  obtain ⟨fd, pend, hframe⟩ := htaken
  have hfd' : r.fd = fd := hframe.hidden fun _ _ => rfl
  have hprec' : r.prec = { s.prec with snapPend := pend } := hframe.hidden fun _ _ => rfl
  have hinp' : (r.vbusShown v).inp = { s.inp with vbus := (s.hvMv 3 (v.get 3)).floor.toNat } := by
    rw [← hvbus]
    exact congrArg (fun x : InpSt => { x with vbus := (r.hvMv 3 (v.get 3)).floor.toNat }) (hframe.hidden (π := State.inp) fun _ _ => rfl)
  refine ⟨fun f => (congrArg (fun x => (x.get f).energy) hfd).trans (henergy f), hinp.trans hinp', ?_⟩
  rw [hfd, hprec, hinp, hfd', hprec']
  exact ((hframe.ofInp (r.vbusShown v).inp).mono (List.subset_cons_self _ _)).then hhold
    (List.cons_subset_cons _ (List.nil_subset _))

end Sys2Proof.Machine
end

section
/-! SUPPORT. The multiplexed slots of the precision converters (R174): the clusters' results, and the path's offset. -/

namespace Sys2Proof.Machine

variable {s t u : State}

/-- A cluster's result stores PRECV, and of the hidden state the cluster's own. -/
theorem State.clusterResult_spec (s : State) (n : Fin 16) (code : Int) (fast : Rat) (clean : Bool) :
    (s.clusterResult n code fast clean).reg (F.CL_PRECV_PRECV.addr n) = BitVec.ofInt 32 (roundAway (precUv code * (s.gDiv n : Rat))) ∧
      ∃ cl, State.onlyRegs { s with cl := cl } (s.clusterResult n code fast clean) [F.CL_PRECV_PRECV.addr n] := by
  have hstored (w : Word) := (State.onlyRegs.refl s [F.CL_PRECV_PRECV.addr n]).setReg (List.mem_singleton_self _) w
  unfold State.clusterResult
  dsimp only
  split
  · exact ⟨State.reg_setReg_self s _ _, _, (hstored _).ofCl _⟩
  · exact ⟨State.reg_setReg_self s _ _, s.cl, hstored _⟩

/-- The words that a slot of the clusters' senses may change. -/
def slotWords (slot : Nat) : List Nat :=
  (List.range 4).flatMap (fun j => [F.CL_PRECV_PRECV.addr (4 * j + slot), F.PREC_SNAP_SNAP.addr (4 + j), F.PREC_SNAPT_VALID.addr (4 + j)])

theorem mem_slotWords {a slot : Nat} : a ∈ slotWords slot ↔
    ∃ j < 4, a = 0x105C + 0x100 * (4 * j + slot) ∨ a = 0x24C0 + 2 * (4 + j) ∨ a = 0x24C1 + 2 * (4 + j) := by
  simp [slotWords, Fld.addr, F.CL_PRECV_PRECV, F.PREC_SNAP_SNAP, F.PREC_SNAPT_VALID]

/-- What the converters of a slot change: snapshots, and the clusters' hidden state. -/
def State.SlotTaken (slot : Nat) (s t : State) : Prop :=
  ∃ cl pend, State.onlyRegs { s with cl := cl, prec := { s.prec with snapPend := pend } } t (slotWords slot)

theorem State.SlotTaken.refl (slot : Nat) (s : State) : s.SlotTaken slot s := ⟨s.cl, s.prec.snapPend, State.onlyRegs.refl s _⟩

theorem State.SlotTaken.snapLatch {slot : Nat} (h : s.SlotTaken slot t) (j : Fin 4) (x : Int) :
    s.SlotTaken slot (t.snapLatch (Fin.ofNat 8 (4 + j)) x slot) := by
  obtain ⟨cl, pend, h⟩ := h
  obtain ⟨pend', hsnap⟩ := t.snapLatch_spec (Fin.ofNat 8 (4 + j)) x slot
  have hprec : t.prec = { s.prec with snapPend := pend } := h.hidden fun _ _ => rfl
  have hk : (Fin.ofNat 8 (4 + j.val)).val = 4 + j.val := Nat.mod_eq_of_lt (by omega)
  have hsub : precSnapWords (Fin.ofNat 8 (4 + j.val)).val ⊆ slotWords slot := fun a ha => by
    rw [hk, mem_precSnapWords] at ha
    exact mem_slotWords.mpr ⟨j, j.isLt, .inr ha⟩
  rw [hprec] at hsnap
  exact ⟨cl, pend', (h.ofPrec _).then hsnap hsub⟩

/-- The cluster whose sense converter `j` takes in a slot. -/
def slotCluster (slot : Nat) (j : Fin 4) : Fin 16 := Fin.ofNat 16 (4 * j + slot)

theorem slotCluster_val {slot : Nat} (h : slot < 4) (j : Fin 4) : (slotCluster slot j).val = 4 * j.val + slot :=
  Nat.mod_eq_of_lt (by omega)

theorem State.SlotTaken.clusterResult {slot : Nat} (h : s.SlotTaken slot t) (hslot : slot < 4) (j : Fin 4) (code : Int) (fast : Rat)
    (clean : Bool) : s.SlotTaken slot (t.clusterResult (slotCluster slot j) code fast clean) := by
  obtain ⟨cl, pend, h⟩ := h
  obtain ⟨-, cl', hres⟩ := t.clusterResult_spec (slotCluster slot j) code fast clean
  refine ⟨cl', pend, (h.ofCl cl').then hres fun a ha => mem_slotWords.mpr ⟨j, j.isLt, .inl ?_⟩⟩
  rw [List.mem_singleton.mp ha, slotCluster_val hslot]
  rfl

/-- The path's gain is no matter of a slot's words. -/
theorem State.SlotTaken.gDiv {slot : Nat} (h : s.SlotTaken slot t) (n : Fin 16) : t.gDiv n = s.gDiv n := by
  obtain ⟨cl, pend, h⟩ := h
  have hgain : t.f F.CL_CFG_SGAIN n = s.f F.CL_CFG_SGAIN n := State.onlyRegs.f h fun hm => by
    obtain ⟨j, hj, hm⟩ := mem_slotWords.mp hm
    simp only [Fld.addr, F.CL_CFG_SGAIN] at hm
    omega
  rw [State.gDiv, State.gDiv, hgain]

/-- One converter's part of a slot of the clusters' senses: the path's offset is `off`. -/
def State.senseTaken (slot : Nat) (off : Int) (r : Vector (BitVec 24) 4) (fast : Vector Rat 4) (clean : BitVec 4) (s : State)
    (j : Fin 4) : State :=
  (s.snapLatch (Fin.ofNat 8 (4 + j)) ((r.get j).toNat - off) slot).clusterResult (slotCluster slot j) ((r.get j).toNat - off) (fast.get j)
    (clean.getLsbD j)

/-- A converter's result becomes PRECV of its cluster. -/
theorem State.SlotTaken.senseTaken_reg {slot : Nat} (h : s.SlotTaken slot t) (off : Int) (r : Vector (BitVec 24) 4)
    (fast : Vector Rat 4) (clean : BitVec 4) (j : Fin 4) :
    (t.senseTaken slot off r fast clean j).reg (F.CL_PRECV_PRECV.addr (slotCluster slot j)) =
      BitVec.ofInt 32 (roundAway (precUv ((r.get j).toNat - off) * (s.gDiv (slotCluster slot j) : Rat))) := by
  rw [State.senseTaken, (State.clusterResult_spec _ _ _ _ _).1, (h.snapLatch j _).gDiv]

section
variable {slot : Nat} (hslot : slot < 4) (off : Int) (r : Vector (BitVec 24) 4) (fast : Vector Rat 4) (clean : BitVec 4)
include hslot

theorem State.SlotTaken.step (h : s.SlotTaken slot t) (j : Fin 4) : s.SlotTaken slot (t.senseTaken slot off r fast clean j) :=
  (h.snapLatch j _).clusterResult hslot j _ _ _

theorem State.senseTaken_others (s : State) {j k : Fin 4} (hne : k ≠ j) :
    (s.senseTaken slot off r fast clean j).reg (F.CL_PRECV_PRECV.addr (slotCluster slot k)) =
      s.reg (F.CL_PRECV_PRECV.addr (slotCluster slot k)) := by
  have hval : k.val ≠ j.val := fun e => hne (Fin.ext e)
  obtain ⟨pend, hsnap⟩ := s.snapLatch_spec (Fin.ofNat 8 (4 + j)) ((r.get j).toNat - off) slot
  obtain ⟨-, cl, hres⟩ := (s.snapLatch (Fin.ofNat 8 (4 + j)) ((r.get j).toNat - off) slot).clusterResult_spec (slotCluster slot j)
    ((r.get j).toNat - off) (fast.get j) (clean.getLsbD j)
  refine (hres.2 _ fun hm => ?_).trans (hsnap.2 _ fun hm => ?_)
  · rw [List.mem_singleton, Fld.addr, Fld.addr, slotCluster_val hslot, slotCluster_val hslot] at hm
    simp only [F.CL_PRECV_PRECV] at hm
    omega
  · rw [mem_precSnapWords, Fld.addr, slotCluster_val hslot] at hm
    simp only [F.CL_PRECV_PRECV] at hm
    omega

/-- The four results of a slot. -/
theorem State.eachSense_spec (s : State) : s.SlotTaken slot (s.each (List.finRange 4) (State.senseTaken slot off r fast clean)) ∧
    ∀ j, (s.each (List.finRange 4) (State.senseTaken slot off r fast clean)).reg (F.CL_PRECV_PRECV.addr (slotCluster slot j)) =
      BitVec.ofInt 32 (roundAway (precUv ((r.get j).toNat - off) * (s.gDiv (slotCluster slot j) : Rat))) :=
  ⟨State.each_keeps (P := s.SlotTaken slot) s (fun _ j h => h.step hslot off r fast clean j) _ (State.SlotTaken.refl slot s),
    fun j => State.each_member (P := s.SlotTaken slot) (π := fun j t => t.reg (F.CL_PRECV_PRECV.addr (slotCluster slot j)))
      (b := fun j => s.reg (F.CL_PRECV_PRECV.addr (slotCluster slot j)))
      (Q := fun j w => w = BitVec.ofInt 32 (roundAway (precUv ((r.get j).toNat - off) * (s.gDiv (slotCluster slot j) : Rat))))
      (List.nodup_finRange 4) (fun _ j _ h => h.step hslot off r fast clean j)
      (fun _ j _ h _ => h.senseTaken_reg off r fast clean j)
      (fun t _ _ _ _ _ hne => t.senseTaken_others hslot off r fast clean hne) (State.SlotTaken.refl slot s) (fun _ _ => rfl)
      j (List.mem_finRange j)⟩

end

theorem exec_precisionSlotResult_sense {slot : Fin 6} (hdev : s.dev ≠ .boot) (hslot : slot.val < 4) (r : Vector (BitVec 24) 4)
    (fast : Vector Rat 4) (clean : BitVec 4) (ref : Rat) : exec (.precisionSlotResult slot r fast clean ref) s =
      .next (s.each (List.finRange 4) (State.senseTaken slot s.prec.muxOff r fast clean)) := by
  change execPrecisionSlotResult slot r fast clean ref s = _
  simp only [execPrecisionSlotResult, beq_eq_false_iff_ne.mpr hdev, Bool.false_eq_true, if_false, if_pos hslot]
  rfl

theorem precisionSlotResult_sense {slot : Fin 6} (hdev : s.dev ≠ .boot) (hslot : slot < (4 : Fin 6)) (r : Vector (BitVec 24) 4)
    (fast : Vector Rat 4) (clean : BitVec 4) (ref : Rat) : completes (.precisionSlotResult slot r fast clean ref) s (fun t =>
      (∀ j : Fin 4, t.reg (F.CL_PRECV_PRECV.addr (4 * j.val + slot.val)) = BitVec.ofInt 32
        (roundAway (precUv ((r.get j).toNat - s.prec.muxOff) * (s.gDiv (Fin.ofNat 16 (4 * j.val + slot.val)) : Rat)))) ∧
      State.onlyRegs { s with cl := t.cl, prec := t.prec } t ((List.range 4).flatMap (fun j =>
        [F.CL_PRECV_PRECV.addr (4 * j + slot.val), F.PREC_SNAP_SNAP.addr (4 + j), F.PREC_SNAPT_VALID.addr (4 + j)]))) := by
  have hlt : slot.val < 4 := hslot
  refine ⟨_, exec_precisionSlotResult_sense hdev hlt r fast clean ref, ?_⟩
  obtain ⟨⟨cl, pend, hframe⟩, hreg⟩ := s.eachSense_spec hlt s.prec.muxOff r fast clean
  generalize s.each (List.finRange 4) (State.senseTaken slot s.prec.muxOff r fast clean) = t at *
  have hcl : t.cl = cl := hframe.hidden fun _ _ => rfl
  have hprec : t.prec = { s.prec with snapPend := pend } := hframe.hidden fun _ _ => rfl
  refine ⟨fun j => ?_, ?_⟩
  · have hj := hreg j
    rwa [slotCluster_val hlt] at hj
  · rw [hcl, hprec]
    exact hframe

/-- The last converter of slot 5 gives the path's offset. -/
theorem precisionSlotResult_offset (hdev : s.dev ≠ .boot) (r : Vector (BitVec 24) 4) (fast : Vector Rat 4) (clean : BitVec 4) (ref : Rat) :
    completes (.precisionSlotResult 5 r fast clean ref) s (fun t => t.prec.muxOff = (r.get 3).toNat) := by
  refine ⟨_, if_neg (by simpa using hdev), ?_⟩
  have hlast : List.finRange 4 = [0, 1, 2] ++ [3] := by decide
  rw [hlast, State.each_append, State.each_cons, State.each_nil]
  rfl

end Sys2Proof.Machine
end

section
/-! SUPPORT. The trim targets of the clusters (R178, R179). -/

namespace Sys2Proof.Machine

variable {s t u : State} {n : Fin 16} {l m : List Nat}

/-! ### Frames of reports -/

theorem State.reportsOnly.then (h : s.reportsOnly t l) (k : t.reportsOnly u m) (hm : m ⊆ l) : s.reportsOnly u l :=
  (h.trans k).mono (List.append_subset.mpr ⟨List.Subset.refl l, hm⟩)

/-- The frame of reports does not read the clusters' hidden state. -/
theorem State.reportsOnly.ofCl (h : s.reportsOnly t l) (v : Vector ClusterSt 16) :
    State.reportsOnly { s with cl := v } { t with cl := v } l := ⟨congrArg (fun x : State => { x with cl := v }) h.1, h.2⟩

/-- The end of a source's condition changes nothing beside reports. -/
theorem State.lower_reports (s : State) {src : Nat} (h : src < 0x2E0) : s.reportsOnly (s.lower src) [] := by
  obtain ⟨hstate, hreg⟩ := (s.lower_spec src).2
  refine ⟨congrArg (fun x : State => { x with sup := { x.sup with pend := s.sup.pend } }) hstate, fun a _ ha => hreg a fun hm => ?_⟩
  rw [List.mem_singleton.mp hm] at ha
  simp [reportWord, Fld.addr, F.SUPV_SRC_SRC] at ha
  omega

/-! ### One cluster -/

/-- The trim of a cluster is computed: it is enabled, the cluster is on in RUN, and a new result qualified (R178). -/
def State.trimDue (s : State) (n : Fin 16) : Bool :=
  s.fB F.CL_TLCFG_TRIMEN n && s.dev == .run && (s.cl.get n).run == .on && (s.cl.get n).trimNew != 0

/-- The target that the results give, within TRIMLIM. -/
def State.trimValue (s : State) (n : Fin 16) : Int :=
  clampI (-(s.f F.CL_TLCFG_TRIMLIM n : Int)) (s.f F.CL_TLCFG_TRIMLIM n) (-(roundAway (meanQ (s.cl.get n).trimD)))

/-- The target stored, and its results taken. -/
def State.trimStored (s : State) (n : Fin 16) : State :=
  (s.setS F.CL_TRIM_TARGET n (s.trimValue n)).updCl n (fun c => { c with trimNew := 0 })

/-- TRIMSAT and the source of R179 after a target. -/
def State.trimReported (s : State) (n : Fin 16) (sat : Prop) [Decidable sat] : State :=
  if sat then (s.setB F.CL_CALSTAT_TRIMSAT n true).raise (Src.clTrimlim n) else s.lower (Src.clTrimlim n)

theorem State.trimTarget_of_due (h : s.trimDue n = true) : s.trimTarget n =
    (s.trimStored n).trimReported n ((s.trimValue n).natAbs = (s.f F.CL_TLCFG_TRIMLIM n : Int).toNat) := if_pos h

theorem State.trimTarget_of_not_due (h : s.trimDue n = false) : s.trimTarget n = s := if_neg (by
  unfold State.trimDue at h
  rw [h]
  decide)

theorem State.trimReported_reports (s : State) (n : Fin 16) (sat : Prop) [Decidable sat] :
    s.reportsOnly (s.trimReported n sat) [F.CL_CALSTAT_TRIMSAT.addr n] := by
  have hsrc : Src.clTrimlim n < 0x2E0 := by
    unfold Src.clTrimlim
    omega
  unfold State.trimReported
  split
  · exact (s.onlyRegs_setF F.CL_CALSTAT_TRIMSAT n _).reportsOnly.then (State.raise_reports _ hsrc).2 (List.nil_subset _)
  · exact (s.lower_reports hsrc).mono (List.nil_subset _)

theorem State.trimStored_reports (s : State) (n : Fin 16) :
    State.reportsOnly { s with cl := (s.trimStored n).cl } (s.trimStored n) [F.CL_TRIM_TARGET.addr n] :=
  (s.onlyRegs_setF F.CL_TRIM_TARGET n _).reportsOnly.ofCl _

/-- The words of a cluster that its trim may change. -/
def trimTargetWords (n : Fin 16) : List Nat := [F.CL_TRIM_TARGET.addr n, F.CL_CALSTAT_TRIMSAT.addr n]

theorem mem_trimTargetWords {a : Nat} : a ∈ trimTargetWords n ↔ a = 0x1007 + 0x100 * n.val ∨ a = 0x105A + 0x100 * n.val := by
  simp [trimTargetWords, Fld.addr, F.CL_TRIM_TARGET, F.CL_CALSTAT_TRIMSAT]

/-- Beside reports, a cluster's trim changes its own words and its own hidden state. -/
theorem State.trimTarget_frame (s : State) (n : Fin 16) : ∃ c,
    State.reportsOnly { s with cl := s.cl.set n c } (s.trimTarget n) (trimTargetWords n) := by
  cases h : s.trimDue n with
  | true =>
    rw [State.trimTarget_of_due h]
    have hstored := (s.trimStored_reports n).mono (m := trimTargetWords n) (by simp [trimTargetWords])
    exact ⟨_, hstored.then (State.trimReported_reports _ n _) (by simp [trimTargetWords])⟩
  | false =>
    have hsame : s.cl.set n (s.cl.get n) = s.cl := by simp [Vector.get_eq_getElem]
    rw [State.trimTarget_of_not_due h]
    refine ⟨s.cl.get n, ?_⟩
    rw [hsame]
    exact State.reportsOnly.refl s _

theorem clampI_neg_self_bounds (lim : Nat) (x : Int) : -(lim : Int) ≤ clampI (-lim) lim x ∧ clampI (-lim) lim x ≤ lim :=
  clampI_bounds (by omega) (by omega) x

theorem State.trimTarget_due (h : s.trimDue n = true) :
    (s.trimTarget n).fS F.CL_TRIM_TARGET n = s.trimValue n ∧ ((s.trimTarget n).cl.get n).trimNew = 0 := by
  have hrep := State.trimReported_reports (s.trimStored n) n ((s.trimValue n).natAbs = (s.f F.CL_TLCFG_TRIMLIM n : Int).toNat)
  have hout : F.CL_TRIM_TARGET.addr n ∉ [F.CL_CALSTAT_TRIMSAT.addr n] := by
    simp only [List.mem_singleton, Fld.addr, F.CL_TRIM_TARGET, F.CL_CALSTAT_TRIMSAT]
    omega
  have hword := Fld.ofCluster.reportWord (fl := F.CL_TRIM_TARGET) (by decide) n
  have hlim : s.f F.CL_TLCFG_TRIMLIM n < 2 ^ 10 := s.f_lt F.CL_TLCFG_TRIMLIM n
  obtain ⟨hlo, hhi⟩ := clampI_neg_self_bounds (s.f F.CL_TLCFG_TRIMLIM n) (-(roundAway (meanQ (s.cl.get n).trimD)))
  have hcl : (s.trimTarget n).cl = (s.trimStored n).cl := by
    rw [State.trimTarget_of_due h]
    exact hrep.hidden fun _ _ _ => rfl
  refine ⟨?_, by rw [hcl]; exact congrArg ClusterSt.trimNew (State.updCl_get_self _ n _)⟩
  rw [State.trimTarget_of_due h, State.fS, hrep.f hword hout]
  exact (s.fS_setS_self (by decide) n _).trans (toSigned_ofSigned (w := 15) (by rw [State.trimValue]; omega) (by rw [State.trimValue]; omega))

/-! ### Every cluster -/

/-- What the trims of the clusters change: their words, reports, and the clusters' hidden state. -/
def State.TrimsTaken (s t : State) : Prop := ∃ cl, State.reportsOnly { s with cl := cl } t (clusters.flatMap trimTargetWords)

theorem State.TrimsTaken.refl (s : State) : s.TrimsTaken s := ⟨s.cl, State.reportsOnly.refl s _⟩

theorem State.TrimsTaken.step (h : s.TrimsTaken t) (n : Fin 16) : s.TrimsTaken (t.trimTarget n) := by
  obtain ⟨cl, h⟩ := h
  obtain ⟨c, hone⟩ := t.trimTarget_frame n
  exact ⟨_, (h.ofCl _).then hone fun a ha => List.mem_flatMap.mpr ⟨n, List.mem_finRange n, ha⟩⟩

theorem State.TrimsTaken.dev (h : s.TrimsTaken t) : t.dev = s.dev := by
  obtain ⟨cl, h⟩ := h
  exact h.hidden fun _ _ _ => rfl

/-- The settings of a trim are no matter of its words. -/
theorem State.TrimsTaken.f (h : s.TrimsTaken t) {fl : Fld} (n : Fin 16) (hfl : fl.base = 0x1050 ∧ fl.stride = 0x100 := by decide) :
    t.f fl n = s.f fl n := by
  obtain ⟨cl, h⟩ := h
  refine State.reportsOnly.f h (Fld.ofCluster.reportWord ⟨hfl.2, by omega, by omega⟩ n) fun hm => ?_
  obtain ⟨k, -, hm⟩ := List.mem_flatMap.mp hm
  rw [mem_trimTargetWords, Fld.addr, hfl.1, hfl.2] at hm
  omega

/-- A cluster as the trims find it. -/
def State.trimSeen (n : Fin 16) (s : State) : Nat × ClusterSt := (s.f F.CL_TRIM_TARGET n, s.cl.get n)

theorem State.trimSeen_others (s : State) {k : Fin 16} (hne : k ≠ n) : (s.trimTarget n).trimSeen k = s.trimSeen k := by
  have hval : k.val ≠ n.val := fun e => hne (Fin.ext e)
  obtain ⟨c, hframe⟩ := s.trimTarget_frame n
  have hcl : (s.trimTarget n).cl = s.cl.set n c := hframe.hidden fun _ _ _ => rfl
  have hword := Fld.ofCluster.reportWord (fl := F.CL_TRIM_TARGET) (by decide) k
  have htarget : (s.trimTarget n).f F.CL_TRIM_TARGET k = s.f F.CL_TRIM_TARGET k := hframe.f hword fun hm => by
    rw [mem_trimTargetWords] at hm
    simp only [Fld.addr, F.CL_TRIM_TARGET] at hm
    omega
  rw [State.trimSeen, State.trimSeen, htarget, hcl, get_set_ne s.cl hne]

theorem State.TrimsTaken.trimDue (h : s.TrimsTaken t) (hseen : t.trimSeen n = s.trimSeen n) : t.trimDue n = s.trimDue n := by
  have hcl : t.cl.get n = s.cl.get n := congrArg Prod.snd hseen
  rw [State.trimDue, State.trimDue, State.fB, State.fB, h.f n, h.dev, hcl]

theorem State.TrimsTaken.trimValue (h : s.TrimsTaken t) (hseen : t.trimSeen n = s.trimSeen n) : t.trimValue n = s.trimValue n := by
  have hcl : t.cl.get n = s.cl.get n := congrArg Prod.snd hseen
  rw [State.trimValue, State.trimValue, h.f n, hcl]

/-- What a trim leaves of its cluster: the target computed, or the cluster as it was. -/
def State.Trimmed (s : State) (n : Fin 16) (x : Nat × ClusterSt) : Prop :=
  if s.trimDue n then toSigned F.CL_TRIM_TARGET.w x.1 = s.trimValue n ∧ x.2.trimNew = 0 else x = s.trimSeen n

theorem State.TrimsTaken.trimmed (h : s.TrimsTaken t) (hseen : t.trimSeen n = s.trimSeen n) :
    s.Trimmed n ((t.trimTarget n).trimSeen n) := by
  unfold State.Trimmed
  split
  case isTrue hdue =>
    rw [← h.trimValue hseen]
    exact State.trimTarget_due ((h.trimDue hseen).trans hdue)
  case isFalse hdue =>
    rw [State.trimTarget_of_not_due ((h.trimDue hseen).trans (by simpa using hdue)), hseen]

theorem exec_trimTargetUpdate (h : s.fB F.PREC_STAT_REFBAD = false) :
    exec .trimTargetUpdate s = .next (s.each clusters State.trimTarget) := by
  change execTrimTargetUpdate s = _
  rw [execTrimTargetUpdate, h]
  rfl

theorem State.eachTrim_spec (s : State) : s.TrimsTaken (s.each clusters State.trimTarget) ∧
    ∀ n, s.Trimmed n ((s.each clusters State.trimTarget).trimSeen n) :=
  ⟨State.each_keeps (P := s.TrimsTaken) s (fun _ n h => h.step n) _ (State.TrimsTaken.refl s),
    fun n => State.each_member (P := s.TrimsTaken) (π := State.trimSeen) (b := fun n => s.trimSeen n) (Q := s.Trimmed)
      (List.nodup_finRange 16) (fun _ n _ h => h.step n) (fun _ _ _ h hseen => h.trimmed hseen)
      (fun t _ _ _ _ _ hne => t.trimSeen_others hne) (State.TrimsTaken.refl s) (fun _ _ => rfl) n (List.mem_finRange n)⟩

theorem trimTargetUpdate_completes (h : s.fB F.PREC_STAT_REFBAD = false) : completes .trimTargetUpdate s (fun t =>
    (∀ n : Fin 16, (s.fB F.CL_TLCFG_TRIMEN n && s.dev == .run && (s.cl.get n).run == .on && (s.cl.get n).trimNew != 0) = true →
      t.fS F.CL_TRIM_TARGET n = clampI (-(s.f F.CL_TLCFG_TRIMLIM n : Int)) (s.f F.CL_TLCFG_TRIMLIM n)
        (-(roundAway (meanQ (s.cl.get n).trimD))) ∧ (t.cl.get n).trimNew = 0) ∧
    (∀ n : Fin 16, (s.fB F.CL_TLCFG_TRIMEN n && s.dev == .run && (s.cl.get n).run == .on && (s.cl.get n).trimNew != 0) = false →
      t.f F.CL_TRIM_TARGET n = s.f F.CL_TRIM_TARGET n ∧ t.cl.get n = s.cl.get n) ∧
    State.reportsOnly { s with cl := t.cl } t
      (clusters.flatMap (fun (n : Fin 16) => [F.CL_TRIM_TARGET.addr n, F.CL_CALSTAT_TRIMSAT.addr n]))) := by
  refine ⟨_, exec_trimTargetUpdate h, ?_⟩
  obtain ⟨⟨cl, hframe⟩, htrimmed⟩ := s.eachTrim_spec
  generalize s.each clusters State.trimTarget = t at *
  have hcl : t.cl = cl := hframe.hidden fun _ _ _ => rfl
  refine ⟨fun n (hdue : s.trimDue n = true) => ?_, fun n (hdue : s.trimDue n = false) => ?_, ?_⟩
  · have hn := htrimmed n
    rw [State.Trimmed, if_pos hdue] at hn
    exact hn
  · have hn := htrimmed n
    rw [State.Trimmed, if_neg (by simp [hdue])] at hn
    exact ⟨congrArg Prod.fst hn, congrArg Prod.snd hn⟩
  · rw [hcl]
    exact hframe

end Sys2Proof.Machine
end

section
/-! SUPPORT. Phase-current calibration (R180, R182, R183): the zero learned, and the start and completion of a ratio step. -/

namespace Sys2Proof.Machine

variable {s t : State} {n : Fin 16} {p : Fin 48} {k : Nat}

theorem satS_bounds (w : Nat) (x : Int) : -2 ^ (w - 1) ≤ satS w x ∧ satS w x < 2 ^ (w - 1) := by
  have hpow : ((2 ^ (w - 1) : Nat) : Int) = 2 ^ (w - 1) := by push_cast; rfl
  have hpos : (0 : Int) < 2 ^ (w - 1) := by positivity
  have h := clampI_bounds (lo := -((2 ^ (w - 1) : Nat) : Int)) (hi := ((2 ^ (w - 1) : Nat) - 1 : Int)) (a := -2 ^ (w - 1))
    (b := 2 ^ (w - 1) - 1) (by omega) (by omega) x
  rw [satS]
  omega

/-- A saturated number stored in a field of 16 bits. -/
theorem State.fS_setS_satS (s : State) {fl : Fld} (hfit : fl.fits) (hw : fl.w = 16) (i : Nat) (x : Int) :
    (s.setS fl i (satS 16 x)).fS fl i = satS 16 x := by
  obtain ⟨hl, hu⟩ := satS_bounds 16 x
  rw [State.fS_setS_self s hfit, hw]
  exact toSigned_ofSigned hl hu

/-- A window at the mid level moves ZERO one eighth of the way (R180). -/
theorem zeroLearnWindow_completes (hout : (s.ph.get p).out = .mid) (hfox : (s.ph.get p).foxHold = false)
    (href : s.fB F.PREC_STAT_REFBAD = false) (mean : Rat) : completes (.zeroLearnWindow p mean false) s (fun t =>
      t.fS F.PH_CAL_ZERO p = satS 16 (s.fS F.PH_CAL_ZERO p + roundAway ((16 * mean - s.fS F.PH_CAL_ZERO p) / 8)) ∧
      s.onlyRegs t [F.PH_CAL_ZERO.addr p]) := by
  have hexec : exec (.zeroLearnWindow p mean false) s = .next (s.setS F.PH_CAL_ZERO p
      (satS 16 (s.fS F.PH_CAL_ZERO p + roundAway ((16 * mean - s.fS F.PH_CAL_ZERO p) / 8)))) := by
    change execZeroLearnWindow p mean false s = _
    simp [execZeroLearnWindow, hout, hfox, href]
  exact ⟨_, hexec, s.fS_setS_satS (by decide) rfl p _, s.onlyRegs_setF F.PH_CAL_ZERO p _⟩

/-! ### The start of a ratio step (R182) -/

/-- The candidate's measurement begun, and the next candidate. -/
def ClusterSt.ratioBegun (k : Nat) (c : ClusterSt) : ClusterSt :=
  { c with rsCand := (k + 1) % 16, rsRun := some ⟨k, 0, c.rsAgain.isSome, false⟩, rsAgain := none }

theorem exec_ratioStepStart (hok : s.rsAllowed n = true) (hcand : s.rsCandidate n = some k) (hpos : s.posPhase n k = some p)
    (hact : k ∈ s.activePos n) (hcur : (s.ipeak p : Rat) / 10 ≤ (s.ph.get p).iCal) :
    exec (.ratioStepStart n true false) s = .next (s.updCl n (ClusterSt.ratioBegun k)) := by
  have hin : ((s.activePos n).contains k && decide ((s.ipeak p : Rat) / 10 ≤ (s.ph.get p).iCal)) = true := by simp [hact, hcur]
  have hpos' : (s.updCl n (fun c => { c with rsCand := (k + 1) % 16 })).posPhase n k = some p := hpos
  have htwice : (s.updCl n (fun c => { c with rsCand := (k + 1) % 16 })).updCl n (fun c => { c with
      rsRun := some ⟨k, 0, c.rsAgain.isSome, false⟩, rsAgain := none }) = s.updCl n (ClusterSt.ratioBegun k) := by
    rw [State.updCl, State.updCl_get_self]
    simp [State.updCl, ClusterSt.ratioBegun]
  change execRatioStepStart n true false s = _
  simp only [execRatioStepStart, Bool.false_eq_true, if_false, hok, hcand, Bool.not_true, Bool.or_self, hpos']
  exact (if_pos hin).trans (congrArg Host.Outcome.next htwice)

theorem ratioStepStart_completes (hok : s.rsAllowed n = true) (hcand : s.rsCandidate n = some k) (hpos : s.posPhase n k = some p)
    (hact : k ∈ s.activePos n) (hcur : (s.ipeak p : Rat) / 10 ≤ (s.ph.get p).iCal) : completes (.ratioStepStart n true false) s (fun t =>
      (t.cl.get n).rsRun = some ⟨k, 0, (s.cl.get n).rsAgain.isSome, false⟩ ∧ (∀ j, j ≠ n → t.cl.get j = s.cl.get j) ∧
      { t with cl := s.cl } = s) :=
  ⟨_, exec_ratioStepStart hok hcand hpos hact hcur, congrArg ClusterSt.rsRun (s.updCl_get_self n _), fun _ hj => s.updCl_get_ne hj _, rfl⟩

end Sys2Proof.Machine
end

section
/-! SUPPORT. The completion of a ratio step (R183): what is shown of the measurement, and the phases' GREL made anew. -/

namespace Sys2Proof.Machine

variable {s t : State} {n : Fin 16} {p : Fin 48} {l : List Nat}

/-- The configured phases of a cluster are a matter of PHp_CFG. -/
theorem State.onlyRegs.clPhases (h : s.onlyRegs t l) (hl : ∀ q : Fin 48, F.PH_CFG_USED.addr q ∉ l) (n : Fin 16) :
    t.clPhases n = s.clPhases n := by
  have hown (q : Fin 48) : t.phCluster q = s.phCluster q :=
    State.phCluster_congr (State.fB_ofF (h.f (hl q))) (h.f (fl := F.PH_CFG_CLUSTER) (hl q))
  simp only [State.clPhases, hown]

theorem phCfg_ne {g : Fld} (hg : g.ofPhase) (hne : g.base ≠ 0x400) (q p : Fin 48) : F.PH_CFG_USED.addr q ≠ g.addr p :=
  Fld.ofPhase.addr_ne (f := F.PH_CFG_USED) (by decide) hg hne.symm q p

/-- The measurement ended, and the candidate rejoining at the next frame start. -/
def ClusterSt.ratioEnded (m : Nat) (c : ClusterSt) : ClusterSt := { c with rsRun := none, rsDrop := none, mNext := m + 1 }

def State.ratioEnded (s : State) (n : Fin 16) : State := s.updCl n (ClusterSt.ratioEnded (s.f F.CL_PHSTAT_M n))

/-- The departure that a measurement shows. -/
def State.departureShown (s : State) (p : Fin 48) (r : Rat) : State :=
  s.setS F.PH_RSSTAT_LASTDEV p (satS 16 (roundAway ((r - 1) * 10000)))

theorem exec_ratioStepComplete {run : RsRun} {a b0 u0 b1 u1 : Rat} (hrun : (s.cl.get n).rsRun = some run)
    (hdrop : (s.cl.get n).rsDrop.isSome = true) (hab : run.abandoned = false) (hpos : s.posPhase n run.pos = some p) (hne : b1 ≠ b0)
    (htol : absQ (u1 - u0) ≤ (s.f F.CL_RSCFG_RSTOL n : Rat) / 10000 * absQ u0)
    (hdev : absQ (a / (b1 - b0) - 1) ≤ (s.f F.CL_PHFAIL_SNSDEV n : Rat) / 1000) : exec (.ratioStepComplete n a b0 u0 b1 u1) s =
      .next (((s.ratioEnded n).departureShown p (a / (b1 - b0))).rsAccept n p (a / (b1 - b0))) := by
  have hpos' : (s.ratioEnded n).posPhase n run.pos = some p := hpos
  have htol' : ¬(s.ratioEnded n).f F.CL_RSCFG_RSTOL n / 10000 * absQ u0 < absQ (u1 - u0) := not_lt.mpr htol
  have hout : F.CL_PHFAIL_SNSDEV.addr n ≠ F.PH_RSSTAT_LASTDEV.addr p := by
    simp only [Fld.addr, F.CL_PHFAIL_SNSDEV, F.PH_RSSTAT_LASTDEV]
    omega
  have hdev' : ¬((((s.ratioEnded n).departureShown p (a / (b1 - b0))).f F.CL_PHFAIL_SNSDEV n : Rat) / 1000 < absQ (a / (b1 - b0) - 1)) := by
    rw [State.departureShown, State.f_setS_ne _ hout]
    exact not_lt.mpr hdev
  change execRatioStepComplete n a b0 u0 b1 u1 s = _
  unfold State.departureShown at hdev'
  unfold State.ratioEnded ClusterSt.ratioEnded at hpos' htol' hdev'
  simp only [execRatioStepComplete, hrun, hdrop, if_true, hpos', htol', hab, hne, hdev', decide_false, Bool.not_true, Bool.or_self,
    Bool.false_eq_true, if_false]
  rfl

/-! ### GREL -/

/-- The words of a cluster's phases that hold GREL. -/
def grelWords (s : State) (n : Fin 16) : List Nat := (s.clPhases n).map (fun (q : Fin 48) => F.PH_CAL_GREL.addr q)

theorem mem_grelWords {a : Nat} (h : a ∈ grelWords s n) : ∃ q : Fin 48, a = F.PH_CAL_GREL.addr q := by
  obtain ⟨q, -, rfl⟩ := List.mem_map.mp h
  exact ⟨q, rfl⟩

theorem grel_mem_grelWords (h : p ∈ s.clPhases n) : F.PH_CAL_GREL.addr p ∈ grelWords s n := List.mem_map_of_mem h

theorem State.renormGrel_onlyRegs (s : State) (n : Fin 16) : s.onlyRegs (s.renormGrel n) (grelWords s n) :=
  State.each_keeps_mem (P := fun t => s.onlyRegs t (grelWords s n))
    (fun _ _ hq h => h.setF (grel_mem_grelWords (List.mem_of_mem_filter hq)) _) (State.onlyRegs.refl s _)

/-- The weighted step of a measurement, counted. -/
def State.grelTaken (s : State) (n : Fin 16) (p : Fin 48) (r : Rat) : State :=
  let g : Rat := s.f F.PH_CAL_GREL p
  (s.setF F.PH_CAL_GREL p (satU 16 (s.f F.PH_CAL_GREL p + roundAway ((g / r - g) / (2 ^ s.f F.CL_RSCFG_RSAVG n : Nat))))).incF
    F.PH_RSSTAT_RSCNT p

theorem State.rsAccept_eq (s : State) (n : Fin 16) (p : Fin 48) (r : Rat) : s.rsAccept n p r = (s.grelTaken n p r).renormGrel n := rfl

/-- The words that a ratio step changes on acceptance. -/
def ratioWords (s : State) (n : Fin 16) (p : Fin 48) : List Nat := F.PH_RSSTAT_LASTDEV.addr p :: grelWords s n

theorem phCfg_not_mem_ratioWords (s : State) (n : Fin 16) (p q : Fin 48) : F.PH_CFG_USED.addr q ∉ ratioWords s n p := by
  intro h
  rcases List.mem_cons.mp h with h | h
  · exact phCfg_ne (g := F.PH_RSSTAT_LASTDEV) (by decide) (by decide) q p h
  · obtain ⟨j, hj⟩ := mem_grelWords h
    exact phCfg_ne (g := F.PH_CAL_GREL) (by decide) (by decide) q j hj

theorem State.rsAccept_onlyRegs (hp : p ∈ s.clPhases n) (r : Rat) : s.onlyRegs (s.rsAccept n p r) (ratioWords s n p) := by
  have hin : F.PH_CAL_GREL.addr p ∈ ratioWords s n p := List.mem_cons_of_mem _ (grel_mem_grelWords hp)
  have htaken : s.onlyRegs (s.grelTaken n p r) (ratioWords s n p) :=
    ((State.onlyRegs.refl s _).setF hin _).setF (fl := F.PH_RSSTAT_RSCNT) (List.mem_cons_self ..) _
  have hmem : (s.grelTaken n p r).clPhases n = s.clPhases n := htaken.clPhases (phCfg_not_mem_ratioWords s n p) n
  have hren := (s.grelTaken n p r).renormGrel_onlyRegs n
  rw [State.rsAccept_eq]
  refine htaken.then hren fun a ha => List.mem_cons_of_mem _ ?_
  rwa [grelWords, hmem] at ha

/-- The word of the count and the last departure is none of GREL's. -/
theorem rsstat_not_mem_grelWords (s : State) (n : Fin 16) (p : Fin 48) : F.PH_RSSTAT_RSCNT.addr p ∉ grelWords s n := by
  intro h
  obtain ⟨q, hq⟩ := mem_grelWords h
  exact Fld.ofPhase.addr_ne (f := F.PH_RSSTAT_RSCNT) (g := F.PH_CAL_GREL) (by decide) (by decide) (by decide) p q hq

theorem State.rsAccept_shown (s : State) (n : Fin 16) (p : Fin 48) (r : Rat) :
    (s.rsAccept n p r).fS F.PH_RSSTAT_LASTDEV p = s.fS F.PH_RSSTAT_LASTDEV p ∧
      (s.rsAccept n p r).f F.PH_RSSTAT_RSCNT p = Nat.min (2 ^ F.PH_RSSTAT_RSCNT.w - 1) (s.f F.PH_RSSTAT_RSCNT p + 1) := by
  have hren := (s.grelTaken n p r).renormGrel_onlyRegs n
  have hne : F.PH_RSSTAT_RSCNT.addr p ≠ F.PH_CAL_GREL.addr p :=
    Fld.ofPhase.addr_ne (f := F.PH_RSSTAT_RSCNT) (g := F.PH_CAL_GREL) (by decide) (by decide) (by decide) p p
  have hdev : (s.grelTaken n p r).f F.PH_RSSTAT_LASTDEV p = s.f F.PH_RSSTAT_LASTDEV p :=
    (State.f_setF_apart _ (by decide) (by decide)).trans (State.f_setF_ne s hne)
  have hcnt : (s.grelTaken n p r).f F.PH_RSSTAT_RSCNT p = Nat.min (2 ^ F.PH_RSSTAT_RSCNT.w - 1) (s.f F.PH_RSSTAT_RSCNT p + 1) := by
    rw [State.grelTaken, State.f_incF_self _ (by decide), State.f_setF_ne s hne]
  rw [State.rsAccept_eq, State.fS, State.fS, hren.f (fl := F.PH_RSSTAT_LASTDEV) (rsstat_not_mem_grelWords _ n p),
    hren.f (fl := F.PH_RSSTAT_RSCNT) (rsstat_not_mem_grelWords _ n p), hdev, hcnt]
  exact ⟨rfl, rfl⟩

theorem ratioStepComplete_completes {run : RsRun} {a b0 u0 b1 u1 : Rat} (hrun : (s.cl.get n).rsRun = some run)
    (hdrop : (s.cl.get n).rsDrop.isSome = true) (hab : run.abandoned = false) (hpos : s.posPhase n run.pos = some p) (hne : b1 ≠ b0)
    (htol : absQ (u1 - u0) ≤ (s.f F.CL_RSCFG_RSTOL n : Rat) / 10000 * absQ u0)
    (hdev : absQ (a / (b1 - b0) - 1) ≤ (s.f F.CL_PHFAIL_SNSDEV n : Rat) / 1000) : completes (.ratioStepComplete n a b0 u0 b1 u1) s (fun t =>
      t.fS F.PH_RSSTAT_LASTDEV p = satS 16 (roundAway ((a / (b1 - b0) - 1) * 10000)) ∧
      t.f F.PH_RSSTAT_RSCNT p = Nat.min (2 ^ F.PH_RSSTAT_RSCNT.w - 1) (s.f F.PH_RSSTAT_RSCNT p + 1) ∧ (t.cl.get n).rsRun = none ∧
      (t.cl.get n).rsDrop = none ∧ (t.cl.get n).mNext = s.f F.CL_PHSTAT_M n + 1 ∧ (∀ j, j ≠ n → t.cl.get j = s.cl.get j) ∧
      State.onlyRegs { s with cl := t.cl } t
        (F.PH_RSSTAT_LASTDEV.addr p :: (s.clPhases n).map (fun (q : Fin 48) => F.PH_CAL_GREL.addr q))) := by
  refine ⟨_, exec_ratioStepComplete hrun hdrop hab hpos hne htol hdev, ?_⟩
  have hshown : State.onlyRegs { s with cl := (s.ratioEnded n).cl } ((s.ratioEnded n).departureShown p (a / (b1 - b0)))
      [F.PH_RSSTAT_LASTDEV.addr p] := (s.ratioEnded n).onlyRegs_setF F.PH_RSSTAT_LASTDEV p _
  have hlast : ((s.ratioEnded n).departureShown p (a / (b1 - b0))).fS F.PH_RSSTAT_LASTDEV p =
      satS 16 (roundAway ((a / (b1 - b0) - 1) * 10000)) := State.fS_setS_satS _ (by decide) rfl p _
  have hcnt : ((s.ratioEnded n).departureShown p (a / (b1 - b0))).f F.PH_RSSTAT_RSCNT p = s.f F.PH_RSSTAT_RSCNT p :=
    State.f_setS_apart _ (by decide) (by decide)
  have hcl : ((s.ratioEnded n).departureShown p (a / (b1 - b0))).cl = (s.ratioEnded n).cl := rfl
  have hmem : ((s.ratioEnded n).departureShown p (a / (b1 - b0))).clPhases n = s.clPhases n :=
    hshown.clPhases (fun q hq => phCfg_ne (g := F.PH_RSSTAT_LASTDEV) (by decide) (by decide) q p (List.mem_singleton.mp hq)) n
  generalize (s.ratioEnded n).departureShown p (a / (b1 - b0)) = u at *
  obtain ⟨hlast', hcnt'⟩ := u.rsAccept_shown n p (a / (b1 - b0))
  have hacc := State.rsAccept_onlyRegs (s := u) (n := n) (p := p) (hmem ▸ List.mem_of_find?_eq_some hpos) (a / (b1 - b0))
  have htcl : (u.rsAccept n p (a / (b1 - b0))).cl = (s.ratioEnded n).cl := (hacc.hidden fun _ _ => rfl).trans hcl
  have hown : (s.ratioEnded n).cl.get n = _ := s.updCl_get_self n _
  dsimp only
  rw [htcl]
  refine ⟨hlast'.trans hlast, hcnt'.trans (by rw [hcnt]), congrArg ClusterSt.rsRun hown, congrArg ClusterSt.rsDrop hown,
    congrArg ClusterSt.mNext hown, fun j hj => s.updCl_get_ne hj _, ?_⟩
  rw [ratioWords, grelWords, hmem] at hacc
  exact (hshown.mono (List.cons_subset_cons _ (List.nil_subset _))).then hacc (List.Subset.refl _)

end Sys2Proof.Machine
end

section
/-! SUPPORT. Energy balance and the calibration area (R185, R186). -/

namespace Sys2Proof.Machine

variable {s t : State} {src : Fin 17}

/-! ### The fit -/

theorem rlsStep_theta_length (lam : Rat) (theta : List Rat) (cov : List (List Rat)) (phi : List Rat) (y : Rat) :
    (rlsStep lam theta cov phi y).1.length = Nat.min theta.length cov.length := by
  simp [rlsStep]

/-- A fit before its first point has a coefficient and a row for each k, each alpha and beta. -/
theorem State.ebStart_length (s : State) (src : Fin 17) (ns : List (Fin 16)) :
    (s.ebStart src ns).theta.length = 2 * ns.length + 1 ∧ (s.ebStart src ns).cov.length = 2 * ns.length + 1 := by
  simp only [State.ebStart, List.length_append, List.length_map, List.length_range, and_true]
  omega

theorem State.ebMembers_nodup (s : State) (src : Fin 17) : (s.ebMembers src).Nodup := (List.nodup_finRange 16).filter _

/-! ### A point taken by its members -/

/-- The words of a member that a point may change. -/
def pointWords (n : Fin 16) : List Nat := [F.CL_CALSTAT_NPTS.addr n, F.CL_KSCALE_KSCALE.addr n]

/-- A member's part of a point: its count, and no words but its own. -/
theorem State.ebTake_spec (s : State) (n : Fin 16) (k : Rat) : s.onlyRegs (s.ebTake n k) (pointWords n) ∧
    (s.ebTake n k).f F.CL_CALSTAT_NPTS n = Nat.min (2 ^ F.CL_CALSTAT_NPTS.w - 1) (s.f F.CL_CALSTAT_NPTS n + 1) := by
  have hstat : F.CL_CALSTAT_NPTS.addr n ∈ pointWords n := by simp [pointWords]
  have hscale : F.CL_KSCALE_KSCALE.addr n ∈ pointWords n := by simp [pointWords]
  have hne : F.CL_CALSTAT_NPTS.addr n ≠ F.CL_KSCALE_KSCALE.addr n :=
    Fld.ofCluster.addr_ne (f := F.CL_CALSTAT_NPTS) (g := F.CL_KSCALE_KSCALE) (by decide) (by decide) (by decide) n n
  have hcount := s.f_incF_self (fl := F.CL_CALSTAT_NPTS) (by decide) n 1
  have hcounted : s.onlyRegs (s.incF F.CL_CALSTAT_NPTS n) (pointWords n) := (State.onlyRegs.refl s _).setF hstat _
  have hshown (v : Nat) (b : Bool) : s.onlyRegs (((s.incF F.CL_CALSTAT_NPTS n).setF F.CL_KSCALE_UNC n v).setB F.CL_CALSTAT_SETTLED n b)
      (pointWords n) := (hcounted.setF (fl := F.CL_KSCALE_UNC) hscale v).setF (fl := F.CL_CALSTAT_SETTLED) hstat _
  have hkept (v : Nat) (b : Bool) : (((s.incF F.CL_CALSTAT_NPTS n).setF F.CL_KSCALE_UNC n v).setB F.CL_CALSTAT_SETTLED n b).f
      F.CL_CALSTAT_NPTS n = Nat.min (2 ^ F.CL_CALSTAT_NPTS.w - 1) (s.f F.CL_CALSTAT_NPTS n + 1) := by
    rw [State.f_setB_apart _ (by decide) (by decide), State.f_setF_ne (fl := F.CL_KSCALE_UNC) _ hne, hcount]
  unfold State.ebTake
  dsimp only
  split
  · exact ⟨(hshown _ _).setF hscale _, (State.f_setF_ne _ hne).trans (hkept _ _)⟩
  · exact ⟨hshown _ _, hkept _ _⟩

theorem State.ebTake_others (s : State) {n j : Fin 16} (h : j ≠ n) (k : Rat) :
    (s.ebTake n k).f F.CL_CALSTAT_NPTS j = s.f F.CL_CALSTAT_NPTS j := by
  have hval : j.val ≠ n.val := fun e => h (Fin.ext e)
  refine (s.ebTake_spec n k).1.f ?_
  simp only [pointWords, Fld.addr, F.CL_CALSTAT_NPTS, F.CL_KSCALE_KSCALE, List.mem_cons, List.not_mem_nil, or_false]
  omega

/-- The coefficients as the members take them. -/
def State.pointTaken (s : State) (l : List (Fin 16 × Rat)) : State := s.each l (fun s q => s.ebTake q.1 q.2)

theorem State.pointTaken_onlyRegs (s : State) (l : List (Fin 16 × Rat)) :
    s.onlyRegs (s.pointTaken l) ((l.map Prod.fst).flatMap pointWords) :=
  State.each_keeps_mem (P := fun t => s.onlyRegs t ((l.map Prod.fst).flatMap pointWords)) (fun t q hq h => h.then (t.ebTake_spec q.1 q.2).1
    fun _ ha => List.mem_flatMap.mpr ⟨q.1, List.mem_map_of_mem hq, ha⟩) (State.onlyRegs.refl s _)

theorem State.pointTaken_count (s : State) {l : List (Fin 16 × Rat)} (hnd : (l.map Prod.fst).Nodup) : ∀ q ∈ l,
    (s.pointTaken l).f F.CL_CALSTAT_NPTS q.1 = Nat.min (2 ^ F.CL_CALSTAT_NPTS.w - 1) (s.f F.CL_CALSTAT_NPTS q.1 + 1) :=
  State.each_member (P := fun _ => True) (π := fun (q : Fin 16 × Rat) t => t.f F.CL_CALSTAT_NPTS q.1)
    (b := fun q => s.f F.CL_CALSTAT_NPTS q.1)
    (Q := fun q c => c = Nat.min (2 ^ F.CL_CALSTAT_NPTS.w - 1) (s.f F.CL_CALSTAT_NPTS q.1 + 1)) (List.Nodup.of_map _ hnd)
    (fun _ _ _ _ => trivial) (fun t q _ _ hq => by rw [(t.ebTake_spec q.1 q.2).2, hq])
    (fun t q hq j hj _ hne => t.ebTake_others (fun e => hne (List.inj_on_of_nodup_map hnd hj hq e)) q.2) trivial (fun _ _ => rfl)

/-! ### The point -/

/-- The fit after a source's first point. -/
def State.fitFirst (s : State) (src : Fin 17) (ps px : Rat) (pc ic : Vector Rat 16) : List Rat × List (List Rat) :=
  let ns := s.ebMembers src
  rlsStep (expNeg (1 / ((3600 * s.f F.EB_CFG_EBTAU : Nat) : Rat))) (s.ebStart src ns).theta (s.ebStart src ns).cov
    (ns.map (fun n => pc.get n) ++ ns.map (fun n => ic.get n * ic.get n) ++ [1]) (ps - px)

theorem State.fitFirst_length (s : State) (src : Fin 17) (ps px : Rat) (pc ic : Vector Rat 16) :
    (s.fitFirst src ps px pc ic).1.length = 2 * (s.ebMembers src).length + 1 := by
  obtain ⟨htheta, hcov⟩ := s.ebStart_length src (s.ebMembers src)
  rw [State.fitFirst, rlsStep_theta_length, htheta, hcov]
  exact Nat.min_self _

theorem exec_energyBalancePoint_first (hq : s.ebQualified src (s.ebMembers src) = true) (hfirst : (s.eb.get src).theta = [])
    (ps px : Rat) (pc ic : Vector Rat 16) : exec (.energyBalancePoint src ps px pc ic) s =
      .next (State.pointTaken { s with eb := s.eb.set src ⟨(s.fitFirst src ps px pc ic).1, (s.fitFirst src ps px pc ic).2⟩ }
        ((s.ebMembers src).zip (s.fitFirst src ps px pc ic).1)) := by
  change execEnergyBalancePoint src ps px pc ic s = _
  simp only [execEnergyBalancePoint, hq, hfirst, Bool.not_true, Bool.false_eq_true, if_false, if_true]
  rfl

theorem energyBalancePoint_first (hq : s.ebQualified src (s.ebMembers src) = true) (hfirst : (s.eb.get src).theta = [])
    (ps px : Rat) (pc ic : Vector Rat 16) : completes (.energyBalancePoint src ps px pc ic) s (fun t =>
      (∀ n ∈ s.ebMembers src,
        t.f F.CL_CALSTAT_NPTS n = Nat.min (2 ^ F.CL_CALSTAT_NPTS.w - 1) (s.f F.CL_CALSTAT_NPTS n + 1)) ∧
      (t.eb.get src).theta.length = 2 * (s.ebMembers src).length + 1 ∧ (∀ k, k ≠ src → t.eb.get k = s.eb.get k) ∧
      State.onlyRegs { s with eb := t.eb } t ((s.ebMembers src).flatMap (fun (n : Fin 16) =>
        [F.CL_CALSTAT_NPTS.addr n, F.CL_KSCALE_KSCALE.addr n]))) := by
  refine ⟨_, exec_energyBalancePoint_first hq hfirst ps px pc ic, ?_⟩
  have hlen := s.fitFirst_length src ps px pc ic
  generalize s.fitFirst src ps px pc ic = r at *
  have hfst : ((s.ebMembers src).zip r.1).map Prod.fst = s.ebMembers src := List.map_fst_zip (by omega)
  have hnd : (((s.ebMembers src).zip r.1).map Prod.fst).Nodup := hfst.symm ▸ s.ebMembers_nodup src
  have hframe := State.pointTaken_onlyRegs { s with eb := s.eb.set src ⟨r.1, r.2⟩ } ((s.ebMembers src).zip r.1)
  have hcount := State.pointTaken_count { s with eb := s.eb.set src ⟨r.1, r.2⟩ } hnd
  generalize State.pointTaken { s with eb := s.eb.set src ⟨r.1, r.2⟩ } ((s.ebMembers src).zip r.1) = t at *
  have heb : t.eb = s.eb.set src ⟨r.1, r.2⟩ := hframe.hidden fun _ _ => rfl
  refine ⟨fun n hn => ?_, ?_, fun k hk => ?_, ?_⟩
  · obtain ⟨q, hq, rfl⟩ := List.mem_map.mp (hfst.symm ▸ hn)
    exact hcount q hq
  · rw [heb, get_set_self, hlen]
  · rw [heb, get_set_ne _ hk]
  · rw [hfst] at hframe
    rw [heb]
    exact hframe

/-! ### The calibration area (R186) -/

theorem grelAddr_mem_calAddrs (p : Fin 48) : F.PH_CAL_GREL.addr p ∈ calAddrs :=
  List.mem_append_right _ (List.mem_map.mpr ⟨p, List.mem_finRange p, by rw [Fld.addr]; rfl⟩)

theorem calibrationSave_completes (h : s.f F.DEV_PWRSTAT_LSTAGE < 4) : completes .calibrationSave s (fun t =>
    (∀ p : Fin 48, (F.PH_CAL_GREL.addr p, s.reg (F.PH_CAL_GREL.addr p)) ∈ t.nvm.calib) ∧
    { t with nvm := { t.nvm with calib := s.nvm.calib } } = s) := by
  have hopen : s.nvmOpen = true := decide_eq_true h
  refine ⟨_, congrArg Host.Outcome.next (if_pos hopen), fun p => ?_, rfl⟩
  have hlow : ¬0x1000 ≤ F.PH_CAL_GREL.addr p := by
    simp only [Fld.addr, F.PH_CAL_GREL]
    omega
  exact List.mem_map.mpr ⟨_, grelAddr_mem_calAddrs p, by simp [hlow]⟩

end Sys2Proof.Machine
end

section
/-! THE STATEMENT ON PRECISION SENSING (O13). -/

namespace Sys2Proof.Machine

/-- Settles O13: the loops over shunts, slots, clusters and members, each of which sets its own words once, and the steps of the phase
currents' calibration. -/
theorem precisionCommandsComplete : Obligations.PrecisionCommandsComplete := by
  unfold Obligations.PrecisionCommandsComplete
  exact ⟨fun s i v hdev => precisionWindow_completes hdev i v,
    fun s slot r fast clean ref hdev hslot => precisionSlotResult_sense hdev hslot r fast clean ref,
    fun s r fast clean ref hdev => precisionSlotResult_offset hdev r fast clean ref,
    fun s href => trimTargetUpdate_completes href,
    fun s p mean hout hfox href => zeroLearnWindow_completes hout hfox href mean,
    fun s n k p hok hcand hpos hact hcur => ratioStepStart_completes hok hcand hpos hact hcur,
    fun s n a b0 u0 b1 u1 run p hrun hdrop hab hpos hne htol hdev => ratioStepComplete_completes hrun hdrop hab hpos hne htol hdev,
    fun s src ps px pc ic hq hfirst => energyBalancePoint_first hq hfirst ps px pc ic,
    fun s h => calibrationSave_completes h⟩

end Sys2Proof.Machine
end
